-- ==== Sys2Proof/Word.lean ====
section
/-!
DEFINITION. The word types of the Yilet (R3, R4, R44) and the sorted table that every sparse register file, queue set and
memory of the state is held in.
-/

namespace Sys2Proof

/-- A scalar register, an address, a control register: 64 bits (R44). -/
abbrev Word := BitVec 64
/-- One byte of memory. -/
abbrev Byte := BitVec 8
/-- One lane of a vector register (R121). -/
abbrev Lane := BitVec 32
/-- A vector register: 128 lanes of 32 bits, lane i in bits [32i+31:32i] (R44, R121). -/
abbrev Vec := BitVec 4096
/-- A mask: one bit for each lane (R44). -/
abbrev Mask := BitVec 128

/-- A sparse map from numbers: pairs in strictly rising order of their keys. -/
abbrev Table (α : Type) := List (Nat × α)

/-- The entry at a key, if there is one. -/
def Table.find? {α : Type} : Table α → Nat → Option α
  | [], _ => none
  | (j, v) :: t, k => if j = k then some v else Table.find? t k

/-- The entry at a key, or the value that unlisted keys have. -/
def Table.getD {α : Type} (t : Table α) (k : Nat) (d : α) : α := (t.find? k).getD d

/-- Insert or replace the entry at a key. -/
def Table.set {α : Type} : Table α → Nat → α → Table α
  | [], k, v => [(k, v)]
  | (j, w) :: t, k, v =>
    if j = k then (k, v) :: t else if k < j then (k, v) :: (j, w) :: t else (j, w) :: Table.set t k v

/-- Remove the entry at a key. -/
def Table.erase {α : Type} : Table α → Nat → Table α
  | [], _ => []
  | (j, w) :: t, k => if j = k then Table.erase t k else (j, w) :: Table.erase t k

/-- Write a value where unlisted keys have the value d: writing d removes the entry, so equal maps are equal lists. -/
def Table.put {α : Type} [DecidableEq α] (d : α) (t : Table α) (k : Nat) (v : α) : Table α :=
  if v = d then t.erase k else t.set k v

/-- The entries of two tables, those of the second where both have one; the fuel bounds the entries. -/
def Table.overlayFuel {α : Type} : Nat → Table α → Table α → Table α
  | 0, _, _ => []
  | _ + 1, [], ys => ys
  | _ + 1, xs, [] => xs
  | f + 1, (i, x) :: xs, (j, y) :: ys =>
    if i < j then (i, x) :: Table.overlayFuel f xs ((j, y) :: ys)
    else if j < i then (j, y) :: Table.overlayFuel f ((i, x) :: xs) ys
    else (j, y) :: Table.overlayFuel f xs ys

/-- The entries of two tables, those of the second where both have one. -/
def Table.overlay {α : Type} (xs ys : Table α) : Table α := Table.overlayFuel (xs.length + ys.length + 1) xs ys

/-- Whether the keys of a table rise strictly from a bound on. -/
def Table.risesFrom {α : Type} : Nat → Table α → Bool
  | _, [] => true
  | b, (k, _) :: t => decide (b ≤ k) && Table.risesFrom (k + 1) t

/-- The number in bits [hi:lo] of a bit vector (R3). -/
def bits {n : Nat} (x : BitVec n) (hi lo : Nat) : Nat := (x.toNat >>> lo) % 2 ^ (hi + 1 - lo)

/-- Bit i of a bit vector as a truth value. -/
def bit {n : Nat} (x : BitVec n) (i : Nat) : Bool := x.getLsbD i

/-- 1 or 0. -/
def b2n (b : Bool) : Nat := if b then 1 else 0

end Sys2Proof
end

