-- ==== Sys2Proof/Word/Moves.lean ====
section
/-!
DEFINITION. The parts of a bundle as data: sources, destinations and moves (R22, R74 to R83), the 217 trigger operations
and their 22 units (R79, R84); and the steps that no bundle holds, with their places and outside data.
-/

namespace Sys2Proof

/-- The bus classes of R22. -/
inductive Bus where
  | scalar | vector | special | memory
  deriving DecidableEq, Repr

/-- The units, in the order of their numbers in R79. -/
inductive UnitId where
  | sx0 | sx1 | br | pd | im | vx0 | vx1 | vx2 | mk | mx | sc | sf | so | dd | fr | ls0 | ls1 | cp0 | cp1 | atu | qs | tb
  deriving DecidableEq, Repr

/-- The kinds of unit: units of one kind have the same triggers (R84). -/
inductive UnitKind where
  | sx | br | pd | im | vx | mk | mx | sc | sf | so | dd | fr | ls | cp | atm | qs | tb
  deriving DecidableEq, Repr

/-- The register files that a move, a latch or a selector can name (R26, R44). -/
inductive RFile where
  | s | v | a | p | k | mp
  deriving DecidableEq, Repr

/-- A source of a move (R79). A code that R79 reserves keeps its number. -/
inductive Src where
  | reg (f : RFile) (n : Nat)
  | short (i : BitVec 6)
  | res (u : UnitId)
  | imms (slot : Nat)
  | immz (slot : Nat)
  | immw (slot : Nat)
  | pc
  | ident
  | lane
  | reserved (code : Nat)
  deriving DecidableEq, Repr

/-- The trigger operations, in the order of R84; an operation of several units of a kind stands once. -/
inductive Op where
  | add | sub | mul | mulh | mulhn | and | or | xor | andn | shl | shr | sar | min | max | minn | maxn | clz | ctz 
  | popc | sext | zext | sel | cmpeq | cmpne | cmplt | cmple | cmpltn | cmplen | cderive | cnarrow | crestrict 
  | cinc | cbase | clen | cperm | cseal | cunseal | cvalid | jmp | jmpa | call | calla | ret | bmz | bmnz | mark 
  | safe | trap | rte | yield | halt | pand | por | pxor | pandn | porn | pnot | pset | gbase | crr | crw | qos 
  | imm | cat | fadd | fsub | fmul | fma | fms | fnma | fmin | fmax | fabs | fneg | fcadd | fade | fademul | fadefma 
  | fcmpeq | fcmplt | fcmple | iadd | isub | imul | iand | ior | ixor | ishl | ishr | isar | imin | imax | iminn 
  | imaxn | icmpeq | icmplt | icmpltn | cvtfi | cvtfiz | cvtif | cvtfb | cvtbf | vsel | vperm | vrot | xchg | radd 
  | rmax | rmin | mpush | minv | mpop | mpeek | mreset | tdesc | tstat | tset | mcall | mwr | quant | azero | aread 
  | awrite | anorm | acvt | scfg | sload | scomp | scarry | sapply | sread | rcp | rsqrt | rcpstep | rsqstep | exp2 
  | log2 | softplus | sigmoid | silu | csort | cmerge | cthr | cread | cclr | patch | sety | setr | gety | getr 
  | step | start | stop | dsave | dload | inject | cnt | fbind | fswap | snap | fork | roll | fdrop | fstat | ld8 
  | ld16 | ld32 | ld64 | ldn8 | ldn16 | ldn32 | ldc | st8 | st16 | st32 | st64 | stc | ldacq32 | ldacq64 | strel32 
  | strel64 | vld | vst | gath | scat | vldx | vstc | fence | fenceSc | xfence | hint | hres | cctl | brel | copy 
  | twr | atadd32 | atadd64 | atand | ator | atxor | atmax | atmin | atswp | cas64 | cas128 | qput | qget | qsel 
  | rput | rget | launch | binit | barr | bwait | btest | bexp 
  deriving DecidableEq, Repr

/-- A destination of a move (R81, R83). Codes that name nothing keep their number: reserved ones (R81 to R83) and trigger
offsets beyond the last trigger of their unit. -/
inductive Dst where
  | null
  | nop (code : Nat)
  | reg (f : RFile) (n : Nat)
  | latch (u : UnitId) (i : Nat)
  | latchRef (u : UnitId) (i : Nat)
  | latchStep (u : UnitId) (i : Nat)
  | sel (u : UnitId)
  | trig (u : UnitId) (op : Op)
  | unassigned (u : UnitId) (offset : Nat)
  | reserved (code : Nat)
  deriving DecidableEq, Repr

/-- One slot of a bundle (R76): an immediate slot, or a transport move with its guard, squash bit, block bit, source and
destination. -/
inductive Item where
  | imm (value : BitVec 20)
  | move (g : BitVec 4) (s b : Bool) (src : Src) (dst : Dst)
  deriving DecidableEq, Repr

/-- The no-operation that fills empty slots: the all-zero move (R76). -/
def Item.empty : Item := .move 0 false false (.reg .s 0) .null

/-- The fields of a trigger move other than its destination: the slot it stands in, its guard, squash bit, block bit and
source (R76). -/
structure Mv where
  slot : Nat
  g : BitVec 4
  s : Bool
  b : Bool
  src : Src
  deriving DecidableEq, Repr

/-- The place of an uncorrectable error (R401): a line of an L2 slice, a line of HBM4 or LP6, a pool bank, or state of a context. -/
inductive ErrorSite where
  | l2Line (slice line : Nat)
  | memoryLine (line : Nat)
  | bank (core bank : Nat)
  | state (core ctx : Nat)
  deriving DecidableEq, Repr

/-- Who met a faulty line (R399): an access of a context or of an engine that it triggered, a host access of a device's function,
or none of these. -/
inductive ErrorMet where
  | context (core ctx : Nat)
  | host (pav vd : Nat)
  | nobody
  deriving DecidableEq, Repr

/-- A register that the host writes and that has no row of its own (R5): of a device block (R349, R350), of a pavilion block (R346,
R356, R416, R419, R264) or of the operator block (R357, R422, R425). -/
inductive HostReg where
  | s1root (pav vd : Nat) | wbase (pav vd : Nat) | crbase (pav vd : Nat) | vdctl (pav vd : Nat)
  | s2root (pav : Nat) | stbase (pav : Nat) | pavctl (pav : Nat) | pavinv (pav : Nat) | fwctl (pav : Nat) | fwaddr (pav : Nat)
  | atctl (pav : Nat) | ataddr (pav : Nat) | imgctl (pav : Nat) | imgaddr (pav : Nat) | imgdata (pav : Nat) | numVfs (pav : Nat)
  | pcmd | pcore0 | pcore1 | pmem | pmode | therm
  deriving DecidableEq, Repr

/-- A step that no bundle holds: an engine, a lodge, an arbiter, the dispatcher or the host makes it. The schedule of the model
is a list of these (log 3). -/
inductive Event where
  | blockClear (core ctx : Nat)
  | contextSelect (core : Nat)
  | tokenRefill (arb : Nat)
  | arbiterGrant (arb : Nat)
  | accessAcceptance (core ctx : Nat)
  | longLatencyLanding (core ctx op : Nat)
  | mxOperationStart (core : Nat)
  | mxWload (core : Nat)
  | mxStream (core : Nat)
  | mxPromote (core : Nat)
  | mxLoop (core : Nat)
  | mxNop (core : Nat)
  | mxEnd (core : Nat)
  | mxOperationCompletion (core : Nat)
  | scanOperationStart (core : Nat)
  | scanBlock (core : Nat)
  | frameOperationStart (core : Nat)
  | frameOperationCompletion (core op : Nat)
  | copyBegin (core ch : Nat)
  | copyCompletion (core ch op : Nat)
  | launchRecordRead (pav vd entry : Nat)
  | domainStep (core dom : Nat)
  | ringMessageDelivery (msg : Nat)
  | creditReturn (core dir ch : Nat)
  | packetPlacement (core dir slot free : Nat)
  | dispatcherVisit (pav vd : Nat)
  | taskBinding (core task : Nat)
  | taskFinish (core task : Nat)
  | completionEntryPost (pav vd : Nat)
  | walkerNode (core : Nat)
  | bankClaimHeld (core task bank : Nat)
  | bankReleaseComplete (core bank : Nat)
  | preemptionRequest (core ctx : Nat)
  | contextRestore (core ctx toCore toCtx : Nat)
  | contextRelease (core ctx : Nat)
  | watchdogExpiry (core ctx : Nat)
  | uncorrectableError (site : ErrorSite) (lasting : Bool) (met : ErrorMet)
  | hostLaunch (pav vd off : Nat) (bytes : List Byte)
  | windowWrite (pav vd off : Nat) (bytes : List Byte)
  | windowRead (pav vd off len : Nat)
  | crheadWrite (pav vd : Nat) (value : Word)
  | vdcfgWrite (pav vd : Nat) (value : Word)
  | deviceReset (pav vd : Nat)
  | functionLevelReset (pav vf : Nat)
  | rmclr (pav : Nat)
  | pavinv (pav : Nat)
  | pavlendWrite (pav : Nat) (value : Word)
  | rateBlockWrite (pav vd reg : Nat) (value : Word)
  | rateWriteEffect (arb : Nat)
  | reclaimWalkEnd (slice : Nat)
  | form
  | resize
  | dissolve
  | pavilionReset
  | packageReset
  | powerOn
  | calwWrite (value : Word)
  | calendarWriteEffect
  | rxcfgWrite (value : Word)
  | flitReplay (port : Nat)
  | imageLoad (pav : Nat) (bytes : List Byte)
  | imageUnload (pav : Nat)
  | firmwareStage (pav : Nat) (bytes : List Byte)
  | attestationReport (pav : Nat) (nonce : List Byte)
  | certificateChain (pav : Nat)
  | faultLogPop (pav vd : Nat)
  | modeChange
  | powerWindow (watts : Nat)
  | thermalWarning (die temp : Nat)
  | thermalTrip (die temp : Nat)
  | registerWrite (reg : HostReg) (value : Word)
  | poolpartWrite (core : Nat) (value : Word)
  | ringPortLinkChange (port : Nat) (up joined : Bool)
  deriving DecidableEq, Repr

end Sys2Proof
end

