-- ==== Sys2Proof/Syntax.lean ====
section
/-!
DEFINITION. The instruction set: one constructor for each row of the opcode table.
-/

namespace Sys2Proof

/-- One constructor for each row of the opcode table. A row with an encoding is a bundle whose one move is that trigger;
`unit` is the number of the unit where a row names several (bit 6, or bits 7 and 6, of the word). A row without an encoding is
a step that an engine, a lodge, an arbiter or the host makes, with the place and the outside data it needs. -/
inductive Instr where
  /-- A bundle's enabled moves read their sources and write registers, operand latches, steps and selectors, after guard evaluation and the conflict check. (R29) -/
  | transportMove (b : List Item)
  /-- A blocked context becomes ready when the empty register, tile, engine queue, barrier, queue entry or bank it waited on clears, and its bundle is checked again and issued. (R34) -/
  | blockClear (core ctx : Nat)
  /-- At a bundle boundary the selector keeps or switches the running context by issue-slot tokens and lending, costing one bubble on a switch. (R379) -/
  | contextSelect (core : Nat)
  /-- At each calendar slot the owning device's bucket gains one token while it waits or is below DEPTH. (R372) -/
  | tokenRefill (arb : Nat)
  /-- At a free opportunity a memory or frame-engine arbiter grants the oldest request of a device holding tokens, or lends the opportunity through LendPick. (R376) -/
  | arbiterGrant (arb : Nat)
  /-- Scalar add of trigger value and latch b. (R99) -/
  | add (unit : Nat) (m : Mv)
  /-- Scalar subtract x − b. (R99) -/
  | sub (unit : Nat) (m : Mv)
  /-- Scalar multiply, low 64 bits, latency 3. (R99) -/
  | mul (unit : Nat) (m : Mv)
  /-- Signed high half of the 128-bit product. (R99) -/
  | mulh (unit : Nat) (m : Mv)
  /-- Unsigned high half of the 128-bit product. (R99) -/
  | mulhn (unit : Nat) (m : Mv)
  /-- Bitwise and. (R99) -/
  | and (unit : Nat) (m : Mv)
  /-- Bitwise or. (R99) -/
  | or (unit : Nat) (m : Mv)
  /-- Bitwise exclusive or. (R99) -/
  | xor (unit : Nat) (m : Mv)
  /-- x and not b. (R99) -/
  | andn (unit : Nat) (m : Mv)
  /-- Shift left by b[5:0]. (R99) -/
  | shl (unit : Nat) (m : Mv)
  /-- Logical shift right by b[5:0]. (R99) -/
  | shr (unit : Nat) (m : Mv)
  /-- Arithmetic shift right by b[5:0]. (R99) -/
  | sar (unit : Nat) (m : Mv)
  /-- Signed minimum. (R99) -/
  | min (unit : Nat) (m : Mv)
  /-- Signed maximum. (R99) -/
  | max (unit : Nat) (m : Mv)
  /-- Unsigned minimum. (R99) -/
  | minn (unit : Nat) (m : Mv)
  /-- Unsigned maximum. (R99) -/
  | maxn (unit : Nat) (m : Mv)
  /-- Count leading zeros. (R99) -/
  | clz (unit : Nat) (m : Mv)
  /-- Count trailing zeros. (R99) -/
  | ctz (unit : Nat) (m : Mv)
  /-- Population count. (R99) -/
  | popc (unit : Nat) (m : Mv)
  /-- Sign-extend from width b[5:0] + 1. (R99) -/
  | sext (unit : Nat) (m : Mv)
  /-- Zero-extend from width b[5:0] + 1. (R99) -/
  | zext (unit : Nat) (m : Mv)
  /-- Select b if x ≠ 0, else c. (R99) -/
  | sel (unit : Nat) (m : Mv)
  /-- Compare equal, to a predicate or s register. (R100) -/
  | cmpeq (unit : Nat) (m : Mv)
  /-- Compare not equal. (R100) -/
  | cmpne (unit : Nat) (m : Mv)
  /-- Signed less than. (R100) -/
  | cmplt (unit : Nat) (m : Mv)
  /-- Signed less or equal. (R100) -/
  | cmple (unit : Nat) (m : Mv)
  /-- Unsigned less than. (R100) -/
  | cmpltn (unit : Nat) (m : Mv)
  /-- Unsigned less or equal. (R100) -/
  | cmplen (unit : Nat) (m : Mv)
  /-- Derive a capability at offset b with length c. (R105) -/
  | cderive (unit : Nat) (m : Mv)
  /-- Narrow a capability's length to b. (R105) -/
  | cnarrow (unit : Nat) (m : Mv)
  /-- Clear grants and add restrictions under mask b. (R105) -/
  | crestrict (unit : Nat) (m : Mv)
  /-- Advance a capability's base by b. (R105) -/
  | cinc (unit : Nat) (m : Mv)
  /-- Read a capability's BASE. (R106) -/
  | cbase (unit : Nat) (m : Mv)
  /-- Read a capability's LEN. (R106) -/
  | clen (unit : Nat) (m : Mv)
  /-- Read a capability's PERM, TENANT and tag. (R106) -/
  | cperm (unit : Nat) (m : Mv)
  /-- Seal a capability. (R105) -/
  | cseal (unit : Nat) (m : Mv)
  /-- Unseal a capability under authority K. (R105) -/
  | cunseal (unit : Nat) (m : Mv)
  /-- Test a capability's tag. (R106) -/
  | cvalid (unit : Nat) (m : Mv)
  /-- Relative branch with two delay bundles. (R110) -/
  | jmp (m : Mv)
  /-- Absolute branch. (R110) -/
  | jmpa (m : Mv)
  /-- Relative call writing the link. (R110) -/
  | call (m : Mv)
  /-- Absolute call writing the link. (R110) -/
  | calla (m : Mv)
  /-- Return to address x. (R110) -/
  | ret (m : Mv)
  /-- Branch when the mask-stack top is all zero. (R110) -/
  | bmz (m : Mv)
  /-- Branch when the mask-stack top has a 1. (R110) -/
  | bmnz (m : Mv)
  /-- Start loop replay of the following N bundles for PASSES passes. (R112) -/
  | mark (m : Mv)
  /-- Safe-point marker at which a pending pre-emption may take effect. (R118) -/
  | safe (m : Mv)
  /-- Software trap taken after its bundle. (R247) -/
  | trap (m : Mv)
  /-- Return from handler to TEPC. (R248) -/
  | rte (m : Mv)
  /-- Make the context ready and let the selector choose. (R248) -/
  | yield (m : Mv)
  /-- End the program with an exit code, draining writes and returning cells and domains. (R249) -/
  | halt (m : Mv)
  /-- Predicate and. (R107) -/
  | pand (m : Mv)
  /-- Predicate or. (R107) -/
  | por (m : Mv)
  /-- Predicate exclusive or. (R107) -/
  | pxor (m : Mv)
  /-- Predicate and-not. (R107) -/
  | pandn (m : Mv)
  /-- Predicate or-not. (R107) -/
  | porn (m : Mv)
  /-- Predicate not. (R107) -/
  | pnot (m : Mv)
  /-- Predicate from bit b[5:0] of x. (R107) -/
  | pset (m : Mv)
  /-- Write the guard base GBASE. (R108) -/
  | gbase (m : Mv)
  /-- Read a control register. (R245) -/
  | crr (m : Mv)
  /-- Write a control register under its map and return the previous value. (R245) -/
  | crw (m : Mv)
  /-- Read the device's bucket of a rate class. (R250) -/
  | qos (m : Mv)
  /-- Deliver a constant through the selector. (R109) -/
  | imm (m : Mv)
  /-- Assemble a 64-bit constant from two halves. (R109) -/
  | cat (m : Mv)
  /-- FP32 lane add. (R125) -/
  | fadd (unit : Nat) (m : Mv)
  /-- FP32 lane subtract. (R125) -/
  | fsub (unit : Nat) (m : Mv)
  /-- FP32 lane multiply. (R125) -/
  | fmul (unit : Nat) (m : Mv)
  /-- FP32 fused multiply-add. (R125) -/
  | fma (unit : Nat) (m : Mv)
  /-- FP32 fused multiply-subtract. (R125) -/
  | fms (unit : Nat) (m : Mv)
  /-- FP32 negated fused multiply-add. (R125) -/
  | fnma (unit : Nat) (m : Mv)
  /-- FP32 minimum. (R126) -/
  | fmin (unit : Nat) (m : Mv)
  /-- FP32 maximum. (R126) -/
  | fmax (unit : Nat) (m : Mv)
  /-- Clear lane sign bits. (R126) -/
  | fabs (unit : Nat) (m : Mv)
  /-- Invert lane sign bits. (R126) -/
  | fneg (unit : Nat) (m : Mv)
  /-- Compensated add writing sum and compensation registers. (R127) -/
  | fcadd (unit : Nat) (m : Mv)
  /-- Fade lane values below 2^−126 to +0. (R128) -/
  | fade (unit : Nat) (m : Mv)
  /-- Multiply then fade. (R128) -/
  | fademul (unit : Nat) (m : Mv)
  /-- Fused multiply-add then fade. (R128) -/
  | fadefma (unit : Nat) (m : Mv)
  /-- FP32 equal compare into a mask. (R129) -/
  | fcmpeq (unit : Nat) (m : Mv)
  /-- FP32 less-than compare. (R129) -/
  | fcmplt (unit : Nat) (m : Mv)
  /-- FP32 less-or-equal compare. (R129) -/
  | fcmple (unit : Nat) (m : Mv)
  /-- 32-bit lane add. (R130) -/
  | iadd (unit : Nat) (m : Mv)
  /-- 32-bit lane subtract. (R130) -/
  | isub (unit : Nat) (m : Mv)
  /-- 32-bit lane multiply. (R130) -/
  | imul (unit : Nat) (m : Mv)
  /-- Lane and. (R130) -/
  | iand (unit : Nat) (m : Mv)
  /-- Lane or. (R130) -/
  | ior (unit : Nat) (m : Mv)
  /-- Lane exclusive or. (R130) -/
  | ixor (unit : Nat) (m : Mv)
  /-- Lane shift left. (R130) -/
  | ishl (unit : Nat) (m : Mv)
  /-- Lane logical shift right. (R130) -/
  | ishr (unit : Nat) (m : Mv)
  /-- Lane arithmetic shift right. (R130) -/
  | isar (unit : Nat) (m : Mv)
  /-- Lane signed minimum. (R130) -/
  | imin (unit : Nat) (m : Mv)
  /-- Lane signed maximum. (R130) -/
  | imax (unit : Nat) (m : Mv)
  /-- Lane unsigned minimum. (R130) -/
  | iminn (unit : Nat) (m : Mv)
  /-- Lane unsigned maximum. (R130) -/
  | imaxn (unit : Nat) (m : Mv)
  /-- Lane integer equal compare into a mask. (R131) -/
  | icmpeq (unit : Nat) (m : Mv)
  /-- Lane signed less-than compare. (R131) -/
  | icmplt (unit : Nat) (m : Mv)
  /-- Lane unsigned less-than compare. (R131) -/
  | icmpltn (unit : Nat) (m : Mv)
  /-- FP32 to int32, nearest even. (R132) -/
  | cvtfi (unit : Nat) (m : Mv)
  /-- FP32 to int32, toward zero. (R132) -/
  | cvtfiz (unit : Nat) (m : Mv)
  /-- Int32 to FP32. (R132) -/
  | cvtif (unit : Nat) (m : Mv)
  /-- Pack two FP32 lanes into BF16 halves. (R132) -/
  | cvtfb (unit : Nat) (m : Mv)
  /-- Widen a BF16 half to FP32. (R132) -/
  | cvtbf (unit : Nat) (m : Mv)
  /-- Lane select under a mask. (R133) -/
  | vsel (unit : Nat) (m : Mv)
  /-- In-cluster permute. (R133) -/
  | vperm (unit : Nat) (m : Mv)
  /-- In-cluster rotate. (R133) -/
  | vrot (unit : Nat) (m : Mv)
  /-- Cluster exchange between equal positions. (R133) -/
  | xchg (unit : Nat) (m : Mv)
  /-- In-cluster tree sum broadcast to enabled lanes. (R134) -/
  | radd (unit : Nat) (m : Mv)
  /-- In-cluster tree maximum. (R134) -/
  | rmax (unit : Nat) (m : Mv)
  /-- In-cluster tree minimum. (R134) -/
  | rmin (unit : Nat) (m : Mv)
  /-- Push top and x onto the mask stack. (R136) -/
  | mpush (m : Mv)
  /-- Invert the top within the entry below. (R136) -/
  | minv (m : Mv)
  /-- Pop the mask stack. (R136) -/
  | mpop (m : Mv)
  /-- Read a mask-stack entry. (R136) -/
  | mpeek (m : Mv)
  /-- Empty the mask stack. (R136) -/
  | mreset (m : Mv)
  /-- Write a t tile descriptor and empty the tile. (R147) -/
  | tdesc (m : Mv)
  /-- Read a tile's status word. (R150) -/
  | tstat (m : Mv)
  /-- Set a tile's state, trap enable or clear its status bits. (R151) -/
  | tset (m : Mv)
  /-- Queue a call of a microprogram routine with mp0 to mp7. (R154) -/
  | mcall (m : Mv)
  /-- Write a microprogram-store word, validating directory entries. (R159) -/
  | mwr (m : Mv)
  /-- Queue quantisation of an FP32 or BF16 tile into a BPI tile. (R163) -/
  | quant (m : Mv)
  /-- Queue zeroing of a z tile with exponent E, claiming ownership. (R164) -/
  | azero (m : Mv)
  /-- Long-latency read of one word of a z tile row into a vector. (R165) -/
  | aread (m : Mv)
  /-- Queue a write of a vector into one word of a z tile row. (R166) -/
  | awrite (m : Mv)
  /-- Queue normalisation of every element of a z tile. (R167) -/
  | anorm (m : Mv)
  /-- Queue conversion of a z tile into a t tile. (R168) -/
  | acvt (m : Mv)
  /-- Write the scan configuration SCCFG. (R175) -/
  | scfg (m : Mv)
  /-- Queue setting frame state from a tile. (R180) -/
  | sload (m : Mv)
  /-- Queue in-place prefix composition of a chunk. (R177) -/
  | scomp (m : Mv)
  /-- Queue carrying a composed chunk into the frame. (R179) -/
  | scarry (m : Mv)
  /-- Queue writing per-position states into a tile. (R178) -/
  | sapply (m : Mv)
  /-- Long-latency read of frame h, c or F into a vector. (R181) -/
  | sread (m : Mv)
  /-- Reciprocal approximation. (R137) -/
  | rcp (m : Mv)
  /-- Reciprocal square-root approximation. (R137) -/
  | rsqrt (m : Mv)
  /-- Reciprocal refinement step. (R137) -/
  | rcpstep (m : Mv)
  /-- Reciprocal square-root refinement step. (R137) -/
  | rsqstep (m : Mv)
  /-- Correctly rounded 2^x. (R137) -/
  | exp2 (m : Mv)
  /-- Correctly rounded log2 x. (R137) -/
  | log2 (m : Mv)
  /-- Correctly rounded softplus. (R137) -/
  | softplus (m : Mv)
  /-- Correctly rounded sigmoid. (R137) -/
  | sigmoid (m : Mv)
  /-- Correctly rounded SiLU. (R137) -/
  | silu (m : Mv)
  /-- Clear the candidate file and merge enabled lanes. (R141) -/
  | csort (m : Mv)
  /-- Merge enabled lanes into the candidate file in rank order. (R141) -/
  | cmerge (m : Mv)
  /-- Mark lanes that would enter the candidate file. (R141) -/
  | cthr (m : Mv)
  /-- Read a candidate file entry. (R141) -/
  | cread (m : Mv)
  /-- Clear the candidate file. (R141) -/
  | cclr (m : Mv)
  /-- Write an integrator cell's trellis entry. (R233) -/
  | patch (m : Mv)
  /-- Set integrands of a cell range. (R241) -/
  | sety (m : Mv)
  /-- Set residues of a cell range. (R241) -/
  | setr (m : Mv)
  /-- Read integrands of a cell range. (R241) -/
  | gety (m : Mv)
  /-- Read residues of a cell range. (R241) -/
  | getr (m : Mv)
  /-- Run a domain for n steps in MODE 1. (R241) -/
  | step (m : Mv)
  /-- Start a domain free-running at one step per DIV cycles. (R241) -/
  | start (m : Mv)
  /-- Stop a domain at its next step boundary. (R241) -/
  | stop (m : Mv)
  /-- Save cell records to the pool. (R242) -/
  | dsave (m : Mv)
  /-- Load cell records from the pool. (R242) -/
  | dload (m : Mv)
  /-- Add injected increments to cells. (R241) -/
  | inject (m : Mv)
  /-- Read and optionally clear cell output counts. (R241) -/
  | cnt (m : Mv)
  /-- Bind a frame slot and queue loading or starting the frame. (R184) -/
  | fbind (m : Mv)
  /-- Queue writing the slot's frame home and loading another key. (R184) -/
  | fswap (m : Mv)
  /-- Queue writing the frame to a snapshot record. (R184) -/
  | snap (m : Mv)
  /-- Bind a child session slot as copy-on-write of a parent record. (R185) -/
  | fork (m : Mv)
  /-- Queue restoring the slot from a record, conditionally on the speculation tag. (R186) -/
  | roll (m : Mv)
  /-- Unbind a slot and queue optional write-back and bank release. (R184) -/
  | fdrop (m : Mv)
  /-- Long-latency read of a frame slot's status. (R187) -/
  | fstat (m : Mv)
  /-- Signed byte load on ls0. (R196) -/
  | ld8Ls0 (m : Mv)
  /-- Signed byte load on ls1. (R196) -/
  | ld8Ls1 (m : Mv)
  /-- Signed halfword load on ls0. (R196) -/
  | ld16Ls0 (m : Mv)
  /-- Signed halfword load on ls1. (R196) -/
  | ld16Ls1 (m : Mv)
  /-- Signed word load on ls0. (R196) -/
  | ld32Ls0 (m : Mv)
  /-- Signed word load on ls1. (R196) -/
  | ld32Ls1 (m : Mv)
  /-- Doubleword load on ls0. (R196) -/
  | ld64Ls0 (m : Mv)
  /-- Doubleword load on ls1. (R196) -/
  | ld64Ls1 (m : Mv)
  /-- Unsigned byte load on ls0. (R196) -/
  | ldn8Ls0 (m : Mv)
  /-- Unsigned byte load on ls1. (R196) -/
  | ldn8Ls1 (m : Mv)
  /-- Unsigned halfword load on ls0. (R196) -/
  | ldn16Ls0 (m : Mv)
  /-- Unsigned halfword load on ls1. (R196) -/
  | ldn16Ls1 (m : Mv)
  /-- Unsigned word load on ls0. (R196) -/
  | ldn32Ls0 (m : Mv)
  /-- Unsigned word load on ls1. (R196) -/
  | ldn32Ls1 (m : Mv)
  /-- Capability load with tag on ls0. (R197) -/
  | ldcLs0 (m : Mv)
  /-- Capability load with tag on ls1. (R197) -/
  | ldcLs1 (m : Mv)
  /-- Byte store on ls0. (R196) -/
  | st8Ls0 (m : Mv)
  /-- Byte store on ls1. (R196) -/
  | st8Ls1 (m : Mv)
  /-- Halfword store on ls0. (R196) -/
  | st16Ls0 (m : Mv)
  /-- Halfword store on ls1. (R196) -/
  | st16Ls1 (m : Mv)
  /-- Word store on ls0. (R196) -/
  | st32Ls0 (m : Mv)
  /-- Word store on ls1. (R196) -/
  | st32Ls1 (m : Mv)
  /-- Doubleword store on ls0. (R196) -/
  | st64Ls0 (m : Mv)
  /-- Doubleword store on ls1. (R196) -/
  | st64Ls1 (m : Mv)
  /-- Capability store with tag on ls0. (R197) -/
  | stcLs0 (m : Mv)
  /-- Capability store with tag on ls1. (R197) -/
  | stcLs1 (m : Mv)
  /-- Acquire word load at PKG on ls0. (R196) -/
  | ldacq32Ls0 (m : Mv)
  /-- Acquire word load at PKG on ls1. (R196) -/
  | ldacq32Ls1 (m : Mv)
  /-- Acquire doubleword load at PKG on ls0. (R196) -/
  | ldacq64Ls0 (m : Mv)
  /-- Acquire doubleword load at PKG on ls1. (R196) -/
  | ldacq64Ls1 (m : Mv)
  /-- Release word store at PKG on ls0. (R196) -/
  | strel32Ls0 (m : Mv)
  /-- Release word store at PKG on ls1. (R196) -/
  | strel32Ls1 (m : Mv)
  /-- Release doubleword store at PKG on ls0. (R196) -/
  | strel64Ls0 (m : Mv)
  /-- Release doubleword store at PKG on ls1. (R196) -/
  | strel64Ls1 (m : Mv)
  /-- Vector load of enabled lanes on ls0. (R199) -/
  | vldLs0 (m : Mv)
  /-- Vector load of enabled lanes on ls1. (R199) -/
  | vldLs1 (m : Mv)
  /-- Vector store of enabled lanes on ls0. (R199) -/
  | vstLs0 (m : Mv)
  /-- Vector store of enabled lanes on ls1. (R199) -/
  | vstLs1 (m : Mv)
  /-- Gather of enabled lanes on ls0. (R199) -/
  | gathLs0 (m : Mv)
  /-- Gather of enabled lanes on ls1. (R199) -/
  | gathLs1 (m : Mv)
  /-- Scatter of enabled lanes in ascending order on ls0. (R199) -/
  | scatLs0 (m : Mv)
  /-- Scatter of enabled lanes in ascending order on ls1. (R199) -/
  | scatLs1 (m : Mv)
  /-- Expand a compressed record into a vector on ls0. (R202) -/
  | vldxLs0 (m : Mv)
  /-- Expand a compressed record into a vector on ls1. (R202) -/
  | vldxLs1 (m : Mv)
  /-- Store a vector's compressed record and advance the offset on ls0. (R201) -/
  | vstcLs0 (m : Mv)
  /-- Store a vector's compressed record and advance the offset on ls1. (R201) -/
  | vstcLs1 (m : Mv)
  /-- Wait until earlier load/store accesses are performed at a scope, on ls0. (R204) -/
  | fenceLs0 (m : Mv)
  /-- Scoped fence on ls1. (R204) -/
  | fenceLs1 (m : Mv)
  /-- Sequentially consistent fence on ls0. (R318) -/
  | fenceScLs0 (m : Mv)
  /-- Sequentially consistent fence on ls1. (R318) -/
  | fenceScLs1 (m : Mv)
  /-- Order one access path's accesses before another's, on ls0. (R205) -/
  | xfenceLs0 (m : Mv)
  /-- Cross-path fence on ls1. (R205) -/
  | xfenceLs1 (m : Mv)
  /-- Prefetch a line into L2, on ls0. (R206) -/
  | hintLs0 (m : Mv)
  /-- Prefetch a line into L2, on ls1. (R206) -/
  | hintLs1 (m : Mv)
  /-- Set a line's residency class, on ls0. (R206) -/
  | hresLs0 (m : Mv)
  /-- Set a line's residency class, on ls1. (R206) -/
  | hresLs1 (m : Mv)
  /-- Clean, flush or zero a range of lines, on ls0. (R251) -/
  | cctlLs0 (m : Mv)
  /-- Clean, flush or zero a range of lines, on ls1. (R251) -/
  | cctlLs1 (m : Mv)
  /-- Release a range of owned pool banks, on ls0. (R207) -/
  | brelLs0 (m : Mv)
  /-- Release a range of owned pool banks, on ls1. (R207) -/
  | brelLs1 (m : Mv)
  /-- Start a copy from a template on channel cp0. (R209) -/
  | copyCp0 (m : Mv)
  /-- Start a copy from a template on channel cp1. (R209) -/
  | copyCp1 (m : Mv)
  /-- Write a template slot through cp0. (R210) -/
  | twrCp0 (m : Mv)
  /-- Write a template slot through cp1. (R210) -/
  | twrCp1 (m : Mv)
  /-- Atomic 32-bit add. (R203) -/
  | atadd32 (m : Mv)
  /-- Atomic 64-bit add. (R203) -/
  | atadd64 (m : Mv)
  /-- Atomic and. (R203) -/
  | atand (m : Mv)
  /-- Atomic or. (R203) -/
  | ator (m : Mv)
  /-- Atomic exclusive or. (R203) -/
  | atxor (m : Mv)
  /-- Atomic signed maximum. (R203) -/
  | atmax (m : Mv)
  /-- Atomic signed minimum. (R203) -/
  | atmin (m : Mv)
  /-- Atomic swap. (R203) -/
  | atswp (m : Mv)
  /-- 64-bit compare-and-swap. (R203) -/
  | cas64 (m : Mv)
  /-- 128-bit compare-and-swap clearing the tag when it writes. (R203) -/
  | cas128 (m : Mv)
  /-- Append to a core queue, release at CORE. (R225) -/
  | qput (m : Mv)
  /-- Remove the oldest entry of a core queue, acquire at CORE. (R225) -/
  | qget (m : Mv)
  /-- Keep one stream bank's copies and cancel the other's. (R219) -/
  | qsel (m : Mv)
  /-- Send a ring message to a neighbour if a credit is held. (R226) -/
  | rput (m : Mv)
  /-- Remove a ring receive-queue entry and return a credit. (R226) -/
  | rget (m : Mv)
  /-- Reserve a pending-launch entry for a device-side launch record. (R228) -/
  | launch (m : Mv)
  /-- Initialise a transaction barrier. (R221) -/
  | binit (m : Mv)
  /-- Make one program arrival on a barrier. (R221) -/
  | barr (m : Mv)
  /-- Issue only once a barrier's phase has moved past q. (R221) -/
  | bwait (m : Mv)
  /-- Read a barrier or test its phase. (R221) -/
  | btest (m : Mv)
  /-- Raise a barrier's pending arrivals and sectors. (R221) -/
  | bexp (m : Mv)
  /-- A load, store or atomic passes its checks and holds its place, ending the context's acceptance wait or raising a precise fault. (R194) -/
  | accessAcceptance (core ctx : Nat)
  /-- A long-latency result writes its register and unit.res and marks the register full. (R31) -/
  | longLatencyLanding (core ctx op : Nat)
  /-- The sequencer starts the next queued mx operation once its predecessor is done. (R152) -/
  | mxOperationStart (core : Nat)
  /-- Microprogram step placing a 128 × 128 block of W into the array. (R157) -/
  | mxWload (core : Nat)
  /-- Microprogram step forming group products and entering them into inner accumulators. (R157) -/
  | mxStream (core : Nat)
  /-- Microprogram step ending the reduction into Z elements by AccAdd. (R157) -/
  | mxPromote (core : Nat)
  /-- Microprogram step stepping IK and IN and repeating its body. (R157) -/
  | mxLoop (core : Nat)
  /-- Microprogram step doing nothing. (R157) -/
  | mxNop (core : Nat)
  /-- Microprogram step completing the call. (R157) -/
  | mxEnd (core : Nat)
  /-- An mx operation completes and its tiles leave their roles. (R149) -/
  | mxOperationCompletion (core : Nat)
  /-- The scan engine starts the next queued operation. (R182) -/
  | scanOperationStart (core : Nat)
  /-- The scan engine finishes a block of 128 columns, a stated step, completing the operation after its last block. (R182) -/
  | scanBlock (core : Nat)
  /-- The frame engine starts a queued operation once no earlier operation on its slot or pairs runs. (R183) -/
  | frameOperationStart (core : Nat)
  /-- A frame operation completes its transfer, updates the slot and makes its barrier arrival. (R184) -/
  | frameOperationCompletion (core op : Nat)
  /-- A channel begins its next queued copy once the previous copy's writes are performed. (R215) -/
  | copyBegin (core ch : Nat)
  /-- A copy completes, changing tile states, raising flags and making its barrier arrival. (R215) -/
  | copyCompletion (core ch op : Nat)
  /-- The reserved launch record is read and the launch joins its queue, or is dropped on error. (R228) -/
  | launchRecordRead (pav vd entry : Nat)
  /-- A step-clock domain advances all its enabled cells by one step. (R234) -/
  | domainStep (core dom : Nat)
  /-- A ring message reaches the neighbour's receive queue. (R226) -/
  | ringMessageDelivery (msg : Nat)
  /-- A ring credit arrives back at the sender. (R226) -/
  | creditReturn (core dir ch : Nat)
  /-- A waiting ring packet is placed into a passing promenade container under slot ownership and lending. (R381) -/
  | packetPlacement (core dir slot free : Nat)
  /-- Every 8 cycles the dispatcher visits a device, updates its deficit and offers its queues for one admission. (R385) -/
  | dispatcherVisit (pav vd : Nat)
  /-- A ready task or whole gang is bound to free contexts with its resources and initial state. (R278) -/
  | taskBinding (core task : Nat)
  /-- A halted task's operations have all completed; its table entry frees and its writes are performed. (R277) -/
  | taskFinish (core task : Nat)
  /-- A completion entry is written to the host ring, CRTAIL advances and MSI-X vector 0 is sent. (R353) -/
  | completionEntryPost (pav vd : Nat)
  /-- The graph walker acts on a node once its wait ends and moves to a successor. (R284) -/
  | walkerNode (core : Nat)
  /-- A pending bank claim becomes held when the bank is free for it. (R298) -/
  | bankClaimHeld (core task bank : Nat)
  /-- A releasing bank leaves its program when no operation still touches it. (R298) -/
  | bankReleaseComplete (core bank : Nat)
  /-- A request to halt one context reaches its core, or halts an unstarted context with a lodge save. (R405) -/
  | preemptionRequest (core ctx : Nat)
  /-- A halted context is restored, its engine and dd operations re-queued, and it resumes. (R407) -/
  | contextRestore (core ctx toCore toCtx : Nat)
  /-- The driver releases a halted context, which becomes off. (R394) -/
  | contextRelease (core ctx : Nat)
  /-- A non-pre-emptible interval reaches 40 µs and the lodge stops and releases the context. (R412) -/
  | watchdogExpiry (core ctx : Nat)
  /-- An uncorrectable error is retried once and absorbed, or treated as lasting. (R401) -/
  | uncorrectableError (site : ErrorSite) (lasting : Bool) (met : ErrorMet)
  /-- A 64-byte BAR2 write is accepted into a launch queue or dropped. (R351) -/
  | hostLaunch (pav vd off : Nat) (bytes : List Byte)
  /-- A host write through BAR4 is translated and performed. (R354) -/
  | windowWrite (pav vd off : Nat) (bytes : List Byte)
  /-- A host read through BAR4 returns coherent or direct data. (R354) -/
  | windowRead (pav vd off len : Nat)
  /-- The host advances the completion ring head. (R353) -/
  | crheadWrite (pav vd : Nat) (value : Word)
  /-- A write of VDCFG configures a device or enables it, assigning a key index. (R349) -/
  | vdcfgWrite (pav vd : Nat) (value : Word)
  /-- VDCTL.RST resets one device, discarding its work and killing its key index. (R367) -/
  | deviceReset (pav vd : Nat)
  /-- A PCIe FLR of a VF or PF starts a device or pavilion reset. (R366) -/
  | functionLevelReset (pav vf : Nat)
  /-- Clears each core's rename map once its dependence table is empty. (R356) -/
  | rmclr (pav : Nat)
  /-- Invalidates cached translations and waits for accesses that used them. (R363) -/
  | pavinv (pav : Nat)
  /-- Sets lending and borrowing and resets the lending counters. (R375) -/
  | pavlendWrite (pav : Nat) (value : Word)
  /-- A write to a device's rate block is checked and accepted or refused. (R374) -/
  | rateBlockWrite (pav vd reg : Nat) (value : Word)
  /-- An accepted rate write takes effect at an arbiter's next revolution. (R374) -/
  | rateWriteEffect (arb : Nat)
  /-- All sets are passed and the way leaves reclaim. (R383) -/
  | reclaimWalkEnd (slice : Nat)
  /-- Forms a pavilion from free cores and granules and starts its slot. (R358) -/
  | form
  /-- Quiesces a pavilion and changes its cores and memory. (R358) -/
  | resize
  /-- Dissolves a pavilion whose devices are all disabled. (R358) -/
  | dissolve
  /-- Resets every device of a pavilion, zeroes its pools and restarts its slot. (R367) -/
  | pavilionReset
  /-- Both lodges reset and self-test the package. (R421) -/
  | packageReset
  /-- Power-on starts a package reset. (R420) -/
  | powerOn
  /-- Assigns promenade calendar indices to a pavilion or unassigns them. (R380) -/
  | calwWrite (value : Word)
  /-- An accepted calendar write takes effect at the start of a revolution. (R380) -/
  | calendarWriteEffect
  /-- Enables the ring-extension ports or joins a pavilion across them. (R369) -/
  | rxcfgWrite (value : Word)
  /-- A flit failing its CRC is replayed. (R369) -/
  | flitReplay (port : Nat)
  /-- The loader copies, checks, places and relocates a BIF image and assigns a handle. (R264) -/
  | imageLoad (pav : Nat) (bytes : List Byte)
  /-- The loader removes an image's text and handle. (R264) -/
  | imageUnload (pav : Nat)
  /-- The lodge fetches, verifies and stages a firmware image for the slot. (R417) -/
  | firmwareStage (pav : Nat) (bytes : List Byte)
  /-- The lodge writes a signed measurement report for a nonce. (R419) -/
  | attestationReport (pav : Nat) (nonce : List Byte)
  /-- The lodge writes the die's certificate chain. (R419) -/
  | certificateChain (pav : Nat)
  /-- Removes the oldest fault record of the device log. (R398) -/
  | faultLogPop (pav vd : Nat)
  /-- Switches the core clock and power cap of both dies at one bundle boundary. (R423) -/
  | modeChange
  /-- At the end of each 1 ms window PWR is updated and the hold set for the next window. (R424) -/
  | powerWindow (watts : Nat)
  /-- A junction reaching TWARN sets WARN and sends MSI-X vector 1. (R425) -/
  | thermalWarning (die temp : Nat)
  /-- A junction at TCRIT for 1 ms sets TRIP and forces Edge mode. (R425) -/
  | thermalTrip (die temp : Nat)
  /-- A write to a register without its own row sets its fields by their access codes. (R5) -/
  | registerWrite (reg : HostReg) (value : Word)
  /-- At the driver's request the lodge writes a core's POOLPART, refusing it or zeroing the banks whose role changes and every vector register. (R294) -/
  | poolpartWrite (core : Nat) (value : Word)
  /-- A ring-extension port's link trains or is lost, which changes RXCFG.UP0 or UP1 and whether promenade traffic can cross that port. (R369) -/
  | ringPortLinkChange (port : Nat) (up joined : Bool)
  deriving DecidableEq, Repr

end Sys2Proof
end

