-- ==== Sys2Proof/Decode.lean ====
section
/-!
DEFINITION. The encoding of bundles and moves (R74 to R84): the decoder, total on any 24 bytes, and after it the encoder.
-/

namespace Sys2Proof

/-- The bus class of a slot (R22). -/
def slotBus (slot : Nat) : Bus :=
  if slot < 2 then .scalar else if slot < 5 then .vector else if slot = 5 then .special else .memory

/-- The units in the order of their numbers (R79). -/
def allUnits : List UnitId :=
  [.sx0, .sx1, .br, .pd, .im, .vx0, .vx1, .vx2, .mk, .mx, .sc, .sf, .so, .dd, .fr, .ls0, .ls1, .cp0, .cp1, .atu, .qs, .tb]

/-- The unit with a number (R79). -/
def unitOfNum (n : Nat) : Option UnitId := allUnits[n]?

/-- The number of a unit (R79). -/
def UnitId.num : UnitId → Nat
  | .sx0 => 0
  | .sx1 => 1
  | .br => 2
  | .pd => 3
  | .im => 4
  | .vx0 => 5
  | .vx1 => 6
  | .vx2 => 7
  | .mk => 8
  | .mx => 9
  | .sc => 10
  | .sf => 11
  | .so => 12
  | .dd => 13
  | .fr => 14
  | .ls0 => 15
  | .ls1 => 16
  | .cp0 => 17
  | .cp1 => 18
  | .atu => 19
  | .qs => 20
  | .tb => 21

/-- The kind of a unit. -/
def UnitId.kind : UnitId → UnitKind
  | .sx0 | .sx1 => .sx
  | .vx0 | .vx1 | .vx2 => .vx
  | .ls0 | .ls1 => .ls
  | .cp0 | .cp1 => .cp
  | .br => .br
  | .pd => .pd
  | .im => .im
  | .mk => .mk
  | .mx => .mx
  | .sc => .sc
  | .sf => .sf
  | .so => .so
  | .dd => .dd
  | .fr => .fr
  | .atu => .atm
  | .qs => .qs
  | .tb => .tb

/-- The units of a bus class with the first code and the size of their blocks (R82). -/
def unitBlocks : Bus → List (UnitId × Nat × Nat)
  | .scalar => [(.sx0, 0x100, 0x40), (.sx1, 0x140, 0x40), (.br, 0x180, 0x20), (.pd, 0x1A0, 0x20), (.im, 0x1C0, 0x20)]
  | .vector => [(.vx0, 0x100, 0x40), (.vx1, 0x140, 0x40), (.vx2, 0x180, 0x40), (.mk, 0x1C0, 0x20)]
  | .special => [(.mx, 0x100, 0x20), (.sc, 0x120, 0x20), (.sf, 0x140, 0x20), (.so, 0x160, 0x20), (.dd, 0x180, 0x40),
      (.fr, 0x1C0, 0x20)]
  | .memory => [(.ls0, 0x100, 0x30), (.ls1, 0x130, 0x30), (.cp0, 0x160, 0x20), (.cp1, 0x180, 0x20), (.atu, 0x1A0, 0x20),
      (.qs, 0x1C0, 0x20), (.tb, 0x1E0, 0x20)]

/-- The bus class of a unit (R82). -/
def UnitId.bus : UnitId → Bus
  | .sx0 | .sx1 | .br | .pd | .im => .scalar
  | .vx0 | .vx1 | .vx2 | .mk => .vector
  | .mx | .sc | .sf | .so | .dd | .fr => .special
  | .ls0 | .ls1 | .cp0 | .cp1 | .atu | .qs | .tb => .memory

/-- The first code of a unit's block (R82). -/
def UnitId.base : UnitId → Nat
  | .sx0 | .vx0 | .mx | .ls0 => 0x100
  | .sx1 | .vx1 | .sf => 0x140
  | .br | .vx2 | .dd | .cp1 => 0x180
  | .pd | .atu => 0x1A0
  | .im | .mk | .fr | .qs => 0x1C0
  | .sc => 0x120
  | .so | .cp0 => 0x160
  | .ls1 => 0x130
  | .tb => 0x1E0

/-- The triggers of a kind of unit in code order, from offset 16 of its block (R83, R84). -/
def opsOf : UnitKind → List Op
  | .sx =>
    [.add, .sub, .mul, .mulh, .mulhn, .and, .or, .xor, .andn, .shl, .shr, .sar, .min, .max, .minn, .maxn,
     .clz, .ctz, .popc, .sext, .zext, .sel, .cmpeq, .cmpne, .cmplt, .cmple, .cmpltn, .cmplen, .cderive,
     .cnarrow, .crestrict, .cinc, .cbase, .clen, .cperm, .cseal, .cunseal, .cvalid]
  | .br => [.jmp, .jmpa, .call, .calla, .ret, .bmz, .bmnz, .mark, .safe, .trap, .rte, .yield, .halt]
  | .pd => [.pand, .por, .pxor, .pandn, .porn, .pnot, .pset, .gbase, .crr, .crw, .qos]
  | .im => [.imm, .cat]
  | .vx =>
    [.fadd, .fsub, .fmul, .fma, .fms, .fnma, .fmin, .fmax, .fabs, .fneg, .fcadd, .fade, .fademul, .fadefma,
     .fcmpeq, .fcmplt, .fcmple, .iadd, .isub, .imul, .iand, .ior, .ixor, .ishl, .ishr, .isar, .imin, .imax,
     .iminn, .imaxn, .icmpeq, .icmplt, .icmpltn, .cvtfi, .cvtfiz, .cvtif, .cvtfb, .cvtbf, .vsel, .vperm,
     .vrot, .xchg, .radd, .rmax, .rmin]
  | .mk => [.mpush, .minv, .mpop, .mpeek, .mreset]
  | .mx => [.tdesc, .tstat, .tset, .mcall, .mwr, .quant, .azero, .aread, .awrite, .anorm, .acvt]
  | .sc => [.scfg, .sload, .scomp, .scarry, .sapply, .sread]
  | .sf => [.rcp, .rsqrt, .rcpstep, .rsqstep, .exp2, .log2, .softplus, .sigmoid, .silu]
  | .so => [.csort, .cmerge, .cthr, .cread, .cclr]
  | .dd => [.patch, .sety, .setr, .gety, .getr, .step, .start, .stop, .dsave, .dload, .inject, .cnt]
  | .fr => [.fbind, .fswap, .snap, .fork, .roll, .fdrop, .fstat]
  | .ls =>
    [.ld8, .ld16, .ld32, .ld64, .ldn8, .ldn16, .ldn32, .ldc, .st8, .st16, .st32, .st64, .stc, .ldacq32,
     .ldacq64, .strel32, .strel64, .vld, .vst, .gath, .scat, .vldx, .vstc, .fence, .fenceSc, .xfence, .hint,
     .hres, .cctl, .brel]
  | .cp => [.copy, .twr]
  | .atm => [.atadd32, .atadd64, .atand, .ator, .atxor, .atmax, .atmin, .atswp, .cas64, .cas128]
  | .qs => [.qput, .qget, .qsel, .rput, .rget, .launch]
  | .tb => [.binit, .barr, .bwait, .btest, .bexp]

/-- The position of an element in a list. -/
def position {α : Type} [DecidableEq α] (x : α) : List α → Nat
  | [] => 0
  | y :: ys => if y = x then 0 else position x ys + 1

/-- The source that a 9-bit code names (R79). -/
def decodeSrc (c : Nat) : Src :=
  if c < 0x40 then .reg .s c
  else if c < 0x60 then .reg .a (c - 0x40)
  else if c < 0xA0 then .reg .v (c - 0x60)
  else if c < 0xA8 then .reg .k (c - 0xA0)
  else if c < 0xB0 then .reg .mp (c - 0xA8)
  else if c < 0xC0 then .reserved c
  else if c < 0x100 then .short (BitVec.ofNat 6 c)
  else if c < 0x180 then .reg .p (c - 0x100)
  else if c < 0x1C0 then
    match unitOfNum (c - 0x180) with
    | some u => .res u
    | none => .reserved c
  else if c < 0x1C8 then .imms (c - 0x1C0)
  else if c < 0x1D0 then .immz (c - 0x1C8)
  else if c < 0x1D4 then .immw (2 * (c - 0x1D0))
  else if c = 0x1E0 then .pc
  else if c = 0x1E1 then .ident
  else if c = 0x1E2 then .lane
  else .reserved c

/-- The unit whose block holds a code, with the code's offset in the block (R82). -/
def findBlock (c : Nat) : List (UnitId × Nat × Nat) → Option (UnitId × Nat)
  | [] => none
  | (u, base, size) :: rest => if base ≤ c ∧ c < base + size then some (u, c - base) else findBlock c rest

/-- The port at an offset of a unit's block (R83). -/
def decodePort (u : UnitId) (off : Nat) : Dst :=
  if off < 3 then .latch u (off + 1)
  else if off < 6 then .latchRef u (off - 2)
  else if off < 9 then .latchStep u (off - 5)
  else if off = 9 then .sel u
  else if off < 16 then .reserved (u.base + off)
  else
    match (opsOf u.kind)[off - 16]? with
    | some op => .trig u op
    | none => .unassigned u off

/-- The destination that a 9-bit code names on a bus class (R81 to R83). -/
def decodeDst (bus : Bus) (c : Nat) : Dst :=
  if c = 0 then .null
  else if c < 0x10 then .nop c
  else if c < 0x50 then .reg .s (c - 0x10)
  else if c < 0x70 then .reg .a (c - 0x50)
  else if c < 0xB0 then .reg .v (c - 0x70)
  else if c < 0xB8 then .reg .k (c - 0xB0)
  else if c < 0xC0 then .reg .mp (c - 0xB8)
  else if c < 0x100 then .reserved c
  else
    match findBlock c (unitBlocks bus) with
    | some (u, off) => decodePort u off
    | none => .reserved c

/-- The item in a slot (R76). -/
def decodeItem (slot : Nat) (w : BitVec 24) : Item :=
  if bits w 23 20 = 8 then .imm (BitVec.ofNat 20 w.toNat)
  else .move (BitVec.ofNat 4 (bits w 23 20)) (bit w 19) (bit w 18) (decodeSrc (bits w 17 9))
    (decodeDst (slotBus slot) (bits w 8 0))

/-- The items of a bundle word from a slot on: slot n is bits [24n+23:24n] (R74). -/
def decodeSlots (w : Nat) : Nat → Nat → List Item
  | _, 0 => []
  | slot, n + 1 => decodeItem slot (BitVec.ofNat 24 (w >>> (24 * slot))) :: decodeSlots w (slot + 1) n

/-- The row of a trigger of a unit. -/
noncomputable def ofTrigger (u : UnitId) (op : Op) (m : Mv) : Instr :=
  match op with
  | .add => .add (if u = .sx1 then 1 else 0) m
  | .sub => .sub (if u = .sx1 then 1 else 0) m
  | .mul => .mul (if u = .sx1 then 1 else 0) m
  | .mulh => .mulh (if u = .sx1 then 1 else 0) m
  | .mulhn => .mulhn (if u = .sx1 then 1 else 0) m
  | .and => .and (if u = .sx1 then 1 else 0) m
  | .or => .or (if u = .sx1 then 1 else 0) m
  | .xor => .xor (if u = .sx1 then 1 else 0) m
  | .andn => .andn (if u = .sx1 then 1 else 0) m
  | .shl => .shl (if u = .sx1 then 1 else 0) m
  | .shr => .shr (if u = .sx1 then 1 else 0) m
  | .sar => .sar (if u = .sx1 then 1 else 0) m
  | .min => .min (if u = .sx1 then 1 else 0) m
  | .max => .max (if u = .sx1 then 1 else 0) m
  | .minn => .minn (if u = .sx1 then 1 else 0) m
  | .maxn => .maxn (if u = .sx1 then 1 else 0) m
  | .clz => .clz (if u = .sx1 then 1 else 0) m
  | .ctz => .ctz (if u = .sx1 then 1 else 0) m
  | .popc => .popc (if u = .sx1 then 1 else 0) m
  | .sext => .sext (if u = .sx1 then 1 else 0) m
  | .zext => .zext (if u = .sx1 then 1 else 0) m
  | .sel => .sel (if u = .sx1 then 1 else 0) m
  | .cmpeq => .cmpeq (if u = .sx1 then 1 else 0) m
  | .cmpne => .cmpne (if u = .sx1 then 1 else 0) m
  | .cmplt => .cmplt (if u = .sx1 then 1 else 0) m
  | .cmple => .cmple (if u = .sx1 then 1 else 0) m
  | .cmpltn => .cmpltn (if u = .sx1 then 1 else 0) m
  | .cmplen => .cmplen (if u = .sx1 then 1 else 0) m
  | .cderive => .cderive (if u = .sx1 then 1 else 0) m
  | .cnarrow => .cnarrow (if u = .sx1 then 1 else 0) m
  | .crestrict => .crestrict (if u = .sx1 then 1 else 0) m
  | .cinc => .cinc (if u = .sx1 then 1 else 0) m
  | .cbase => .cbase (if u = .sx1 then 1 else 0) m
  | .clen => .clen (if u = .sx1 then 1 else 0) m
  | .cperm => .cperm (if u = .sx1 then 1 else 0) m
  | .cseal => .cseal (if u = .sx1 then 1 else 0) m
  | .cunseal => .cunseal (if u = .sx1 then 1 else 0) m
  | .cvalid => .cvalid (if u = .sx1 then 1 else 0) m
  | .jmp => .jmp m
  | .jmpa => .jmpa m
  | .call => .call m
  | .calla => .calla m
  | .ret => .ret m
  | .bmz => .bmz m
  | .bmnz => .bmnz m
  | .mark => .mark m
  | .safe => .safe m
  | .trap => .trap m
  | .rte => .rte m
  | .yield => .yield m
  | .halt => .halt m
  | .pand => .pand m
  | .por => .por m
  | .pxor => .pxor m
  | .pandn => .pandn m
  | .porn => .porn m
  | .pnot => .pnot m
  | .pset => .pset m
  | .gbase => .gbase m
  | .crr => .crr m
  | .crw => .crw m
  | .qos => .qos m
  | .imm => .imm m
  | .cat => .cat m
  | .fadd => .fadd (if u = .vx2 then 2 else if u = .vx1 then 1 else 0) m
  | .fsub => .fsub (if u = .vx2 then 2 else if u = .vx1 then 1 else 0) m
  | .fmul => .fmul (if u = .vx2 then 2 else if u = .vx1 then 1 else 0) m
  | .fma => .fma (if u = .vx2 then 2 else if u = .vx1 then 1 else 0) m
  | .fms => .fms (if u = .vx2 then 2 else if u = .vx1 then 1 else 0) m
  | .fnma => .fnma (if u = .vx2 then 2 else if u = .vx1 then 1 else 0) m
  | .fmin => .fmin (if u = .vx2 then 2 else if u = .vx1 then 1 else 0) m
  | .fmax => .fmax (if u = .vx2 then 2 else if u = .vx1 then 1 else 0) m
  | .fabs => .fabs (if u = .vx2 then 2 else if u = .vx1 then 1 else 0) m
  | .fneg => .fneg (if u = .vx2 then 2 else if u = .vx1 then 1 else 0) m
  | .fcadd => .fcadd (if u = .vx2 then 2 else if u = .vx1 then 1 else 0) m
  | .fade => .fade (if u = .vx2 then 2 else if u = .vx1 then 1 else 0) m
  | .fademul => .fademul (if u = .vx2 then 2 else if u = .vx1 then 1 else 0) m
  | .fadefma => .fadefma (if u = .vx2 then 2 else if u = .vx1 then 1 else 0) m
  | .fcmpeq => .fcmpeq (if u = .vx2 then 2 else if u = .vx1 then 1 else 0) m
  | .fcmplt => .fcmplt (if u = .vx2 then 2 else if u = .vx1 then 1 else 0) m
  | .fcmple => .fcmple (if u = .vx2 then 2 else if u = .vx1 then 1 else 0) m
  | .iadd => .iadd (if u = .vx2 then 2 else if u = .vx1 then 1 else 0) m
  | .isub => .isub (if u = .vx2 then 2 else if u = .vx1 then 1 else 0) m
  | .imul => .imul (if u = .vx2 then 2 else if u = .vx1 then 1 else 0) m
  | .iand => .iand (if u = .vx2 then 2 else if u = .vx1 then 1 else 0) m
  | .ior => .ior (if u = .vx2 then 2 else if u = .vx1 then 1 else 0) m
  | .ixor => .ixor (if u = .vx2 then 2 else if u = .vx1 then 1 else 0) m
  | .ishl => .ishl (if u = .vx2 then 2 else if u = .vx1 then 1 else 0) m
  | .ishr => .ishr (if u = .vx2 then 2 else if u = .vx1 then 1 else 0) m
  | .isar => .isar (if u = .vx2 then 2 else if u = .vx1 then 1 else 0) m
  | .imin => .imin (if u = .vx2 then 2 else if u = .vx1 then 1 else 0) m
  | .imax => .imax (if u = .vx2 then 2 else if u = .vx1 then 1 else 0) m
  | .iminn => .iminn (if u = .vx2 then 2 else if u = .vx1 then 1 else 0) m
  | .imaxn => .imaxn (if u = .vx2 then 2 else if u = .vx1 then 1 else 0) m
  | .icmpeq => .icmpeq (if u = .vx2 then 2 else if u = .vx1 then 1 else 0) m
  | .icmplt => .icmplt (if u = .vx2 then 2 else if u = .vx1 then 1 else 0) m
  | .icmpltn => .icmpltn (if u = .vx2 then 2 else if u = .vx1 then 1 else 0) m
  | .cvtfi => .cvtfi (if u = .vx2 then 2 else if u = .vx1 then 1 else 0) m
  | .cvtfiz => .cvtfiz (if u = .vx2 then 2 else if u = .vx1 then 1 else 0) m
  | .cvtif => .cvtif (if u = .vx2 then 2 else if u = .vx1 then 1 else 0) m
  | .cvtfb => .cvtfb (if u = .vx2 then 2 else if u = .vx1 then 1 else 0) m
  | .cvtbf => .cvtbf (if u = .vx2 then 2 else if u = .vx1 then 1 else 0) m
  | .vsel => .vsel (if u = .vx2 then 2 else if u = .vx1 then 1 else 0) m
  | .vperm => .vperm (if u = .vx2 then 2 else if u = .vx1 then 1 else 0) m
  | .vrot => .vrot (if u = .vx2 then 2 else if u = .vx1 then 1 else 0) m
  | .xchg => .xchg (if u = .vx2 then 2 else if u = .vx1 then 1 else 0) m
  | .radd => .radd (if u = .vx2 then 2 else if u = .vx1 then 1 else 0) m
  | .rmax => .rmax (if u = .vx2 then 2 else if u = .vx1 then 1 else 0) m
  | .rmin => .rmin (if u = .vx2 then 2 else if u = .vx1 then 1 else 0) m
  | .mpush => .mpush m
  | .minv => .minv m
  | .mpop => .mpop m
  | .mpeek => .mpeek m
  | .mreset => .mreset m
  | .tdesc => .tdesc m
  | .tstat => .tstat m
  | .tset => .tset m
  | .mcall => .mcall m
  | .mwr => .mwr m
  | .quant => .quant m
  | .azero => .azero m
  | .aread => .aread m
  | .awrite => .awrite m
  | .anorm => .anorm m
  | .acvt => .acvt m
  | .scfg => .scfg m
  | .sload => .sload m
  | .scomp => .scomp m
  | .scarry => .scarry m
  | .sapply => .sapply m
  | .sread => .sread m
  | .rcp => .rcp m
  | .rsqrt => .rsqrt m
  | .rcpstep => .rcpstep m
  | .rsqstep => .rsqstep m
  | .exp2 => .exp2 m
  | .log2 => .log2 m
  | .softplus => .softplus m
  | .sigmoid => .sigmoid m
  | .silu => .silu m
  | .csort => .csort m
  | .cmerge => .cmerge m
  | .cthr => .cthr m
  | .cread => .cread m
  | .cclr => .cclr m
  | .patch => .patch m
  | .sety => .sety m
  | .setr => .setr m
  | .gety => .gety m
  | .getr => .getr m
  | .step => .step m
  | .start => .start m
  | .stop => .stop m
  | .dsave => .dsave m
  | .dload => .dload m
  | .inject => .inject m
  | .cnt => .cnt m
  | .fbind => .fbind m
  | .fswap => .fswap m
  | .snap => .snap m
  | .fork => .fork m
  | .roll => .roll m
  | .fdrop => .fdrop m
  | .fstat => .fstat m
  | .ld8 => if u = .ls1 then .ld8Ls1 m else .ld8Ls0 m
  | .ld16 => if u = .ls1 then .ld16Ls1 m else .ld16Ls0 m
  | .ld32 => if u = .ls1 then .ld32Ls1 m else .ld32Ls0 m
  | .ld64 => if u = .ls1 then .ld64Ls1 m else .ld64Ls0 m
  | .ldn8 => if u = .ls1 then .ldn8Ls1 m else .ldn8Ls0 m
  | .ldn16 => if u = .ls1 then .ldn16Ls1 m else .ldn16Ls0 m
  | .ldn32 => if u = .ls1 then .ldn32Ls1 m else .ldn32Ls0 m
  | .ldc => if u = .ls1 then .ldcLs1 m else .ldcLs0 m
  | .st8 => if u = .ls1 then .st8Ls1 m else .st8Ls0 m
  | .st16 => if u = .ls1 then .st16Ls1 m else .st16Ls0 m
  | .st32 => if u = .ls1 then .st32Ls1 m else .st32Ls0 m
  | .st64 => if u = .ls1 then .st64Ls1 m else .st64Ls0 m
  | .stc => if u = .ls1 then .stcLs1 m else .stcLs0 m
  | .ldacq32 => if u = .ls1 then .ldacq32Ls1 m else .ldacq32Ls0 m
  | .ldacq64 => if u = .ls1 then .ldacq64Ls1 m else .ldacq64Ls0 m
  | .strel32 => if u = .ls1 then .strel32Ls1 m else .strel32Ls0 m
  | .strel64 => if u = .ls1 then .strel64Ls1 m else .strel64Ls0 m
  | .vld => if u = .ls1 then .vldLs1 m else .vldLs0 m
  | .vst => if u = .ls1 then .vstLs1 m else .vstLs0 m
  | .gath => if u = .ls1 then .gathLs1 m else .gathLs0 m
  | .scat => if u = .ls1 then .scatLs1 m else .scatLs0 m
  | .vldx => if u = .ls1 then .vldxLs1 m else .vldxLs0 m
  | .vstc => if u = .ls1 then .vstcLs1 m else .vstcLs0 m
  | .fence => if u = .ls1 then .fenceLs1 m else .fenceLs0 m
  | .fenceSc => if u = .ls1 then .fenceScLs1 m else .fenceScLs0 m
  | .xfence => if u = .ls1 then .xfenceLs1 m else .xfenceLs0 m
  | .hint => if u = .ls1 then .hintLs1 m else .hintLs0 m
  | .hres => if u = .ls1 then .hresLs1 m else .hresLs0 m
  | .cctl => if u = .ls1 then .cctlLs1 m else .cctlLs0 m
  | .brel => if u = .ls1 then .brelLs1 m else .brelLs0 m
  | .copy => if u = .cp1 then .copyCp1 m else .copyCp0 m
  | .twr => if u = .cp1 then .twrCp1 m else .twrCp0 m
  | .atadd32 => .atadd32 m
  | .atadd64 => .atadd64 m
  | .atand => .atand m
  | .ator => .ator m
  | .atxor => .atxor m
  | .atmax => .atmax m
  | .atmin => .atmin m
  | .atswp => .atswp m
  | .cas64 => .cas64 m
  | .cas128 => .cas128 m
  | .qput => .qput m
  | .qget => .qget m
  | .qsel => .qsel m
  | .rput => .rput m
  | .rget => .rget m
  | .launch => .launch m
  | .binit => .binit m
  | .barr => .barr m
  | .bwait => .bwait m
  | .btest => .btest m
  | .bexp => .bexp m

/-- The scalar unit of a row with its unit number in bit 6. -/
def sxUnit (n : Nat) : UnitId := if n = 1 then .sx1 else .sx0

/-- The vector unit of a row with its unit number in bits 7 and 6. -/
def vxUnit (n : Nat) : UnitId := if n = 2 then .vx2 else if n = 1 then .vx1 else .vx0

/-- The unit, the operation and the move of a row that has an encoding; none for a whole bundle and for a step that no bundle
holds. -/
def Instr.trigger? : Instr → Option (UnitId × Op × Mv)
  | .add unit m => some (sxUnit unit, .add, m)
  | .sub unit m => some (sxUnit unit, .sub, m)
  | .mul unit m => some (sxUnit unit, .mul, m)
  | .mulh unit m => some (sxUnit unit, .mulh, m)
  | .mulhn unit m => some (sxUnit unit, .mulhn, m)
  | .and unit m => some (sxUnit unit, .and, m)
  | .or unit m => some (sxUnit unit, .or, m)
  | .xor unit m => some (sxUnit unit, .xor, m)
  | .andn unit m => some (sxUnit unit, .andn, m)
  | .shl unit m => some (sxUnit unit, .shl, m)
  | .shr unit m => some (sxUnit unit, .shr, m)
  | .sar unit m => some (sxUnit unit, .sar, m)
  | .min unit m => some (sxUnit unit, .min, m)
  | .max unit m => some (sxUnit unit, .max, m)
  | .minn unit m => some (sxUnit unit, .minn, m)
  | .maxn unit m => some (sxUnit unit, .maxn, m)
  | .clz unit m => some (sxUnit unit, .clz, m)
  | .ctz unit m => some (sxUnit unit, .ctz, m)
  | .popc unit m => some (sxUnit unit, .popc, m)
  | .sext unit m => some (sxUnit unit, .sext, m)
  | .zext unit m => some (sxUnit unit, .zext, m)
  | .sel unit m => some (sxUnit unit, .sel, m)
  | .cmpeq unit m => some (sxUnit unit, .cmpeq, m)
  | .cmpne unit m => some (sxUnit unit, .cmpne, m)
  | .cmplt unit m => some (sxUnit unit, .cmplt, m)
  | .cmple unit m => some (sxUnit unit, .cmple, m)
  | .cmpltn unit m => some (sxUnit unit, .cmpltn, m)
  | .cmplen unit m => some (sxUnit unit, .cmplen, m)
  | .cderive unit m => some (sxUnit unit, .cderive, m)
  | .cnarrow unit m => some (sxUnit unit, .cnarrow, m)
  | .crestrict unit m => some (sxUnit unit, .crestrict, m)
  | .cinc unit m => some (sxUnit unit, .cinc, m)
  | .cbase unit m => some (sxUnit unit, .cbase, m)
  | .clen unit m => some (sxUnit unit, .clen, m)
  | .cperm unit m => some (sxUnit unit, .cperm, m)
  | .cseal unit m => some (sxUnit unit, .cseal, m)
  | .cunseal unit m => some (sxUnit unit, .cunseal, m)
  | .cvalid unit m => some (sxUnit unit, .cvalid, m)
  | .jmp m => some (.br, .jmp, m)
  | .jmpa m => some (.br, .jmpa, m)
  | .call m => some (.br, .call, m)
  | .calla m => some (.br, .calla, m)
  | .ret m => some (.br, .ret, m)
  | .bmz m => some (.br, .bmz, m)
  | .bmnz m => some (.br, .bmnz, m)
  | .mark m => some (.br, .mark, m)
  | .safe m => some (.br, .safe, m)
  | .trap m => some (.br, .trap, m)
  | .rte m => some (.br, .rte, m)
  | .yield m => some (.br, .yield, m)
  | .halt m => some (.br, .halt, m)
  | .pand m => some (.pd, .pand, m)
  | .por m => some (.pd, .por, m)
  | .pxor m => some (.pd, .pxor, m)
  | .pandn m => some (.pd, .pandn, m)
  | .porn m => some (.pd, .porn, m)
  | .pnot m => some (.pd, .pnot, m)
  | .pset m => some (.pd, .pset, m)
  | .gbase m => some (.pd, .gbase, m)
  | .crr m => some (.pd, .crr, m)
  | .crw m => some (.pd, .crw, m)
  | .qos m => some (.pd, .qos, m)
  | .imm m => some (.im, .imm, m)
  | .cat m => some (.im, .cat, m)
  | .fadd unit m => some (vxUnit unit, .fadd, m)
  | .fsub unit m => some (vxUnit unit, .fsub, m)
  | .fmul unit m => some (vxUnit unit, .fmul, m)
  | .fma unit m => some (vxUnit unit, .fma, m)
  | .fms unit m => some (vxUnit unit, .fms, m)
  | .fnma unit m => some (vxUnit unit, .fnma, m)
  | .fmin unit m => some (vxUnit unit, .fmin, m)
  | .fmax unit m => some (vxUnit unit, .fmax, m)
  | .fabs unit m => some (vxUnit unit, .fabs, m)
  | .fneg unit m => some (vxUnit unit, .fneg, m)
  | .fcadd unit m => some (vxUnit unit, .fcadd, m)
  | .fade unit m => some (vxUnit unit, .fade, m)
  | .fademul unit m => some (vxUnit unit, .fademul, m)
  | .fadefma unit m => some (vxUnit unit, .fadefma, m)
  | .fcmpeq unit m => some (vxUnit unit, .fcmpeq, m)
  | .fcmplt unit m => some (vxUnit unit, .fcmplt, m)
  | .fcmple unit m => some (vxUnit unit, .fcmple, m)
  | .iadd unit m => some (vxUnit unit, .iadd, m)
  | .isub unit m => some (vxUnit unit, .isub, m)
  | .imul unit m => some (vxUnit unit, .imul, m)
  | .iand unit m => some (vxUnit unit, .iand, m)
  | .ior unit m => some (vxUnit unit, .ior, m)
  | .ixor unit m => some (vxUnit unit, .ixor, m)
  | .ishl unit m => some (vxUnit unit, .ishl, m)
  | .ishr unit m => some (vxUnit unit, .ishr, m)
  | .isar unit m => some (vxUnit unit, .isar, m)
  | .imin unit m => some (vxUnit unit, .imin, m)
  | .imax unit m => some (vxUnit unit, .imax, m)
  | .iminn unit m => some (vxUnit unit, .iminn, m)
  | .imaxn unit m => some (vxUnit unit, .imaxn, m)
  | .icmpeq unit m => some (vxUnit unit, .icmpeq, m)
  | .icmplt unit m => some (vxUnit unit, .icmplt, m)
  | .icmpltn unit m => some (vxUnit unit, .icmpltn, m)
  | .cvtfi unit m => some (vxUnit unit, .cvtfi, m)
  | .cvtfiz unit m => some (vxUnit unit, .cvtfiz, m)
  | .cvtif unit m => some (vxUnit unit, .cvtif, m)
  | .cvtfb unit m => some (vxUnit unit, .cvtfb, m)
  | .cvtbf unit m => some (vxUnit unit, .cvtbf, m)
  | .vsel unit m => some (vxUnit unit, .vsel, m)
  | .vperm unit m => some (vxUnit unit, .vperm, m)
  | .vrot unit m => some (vxUnit unit, .vrot, m)
  | .xchg unit m => some (vxUnit unit, .xchg, m)
  | .radd unit m => some (vxUnit unit, .radd, m)
  | .rmax unit m => some (vxUnit unit, .rmax, m)
  | .rmin unit m => some (vxUnit unit, .rmin, m)
  | .mpush m => some (.mk, .mpush, m)
  | .minv m => some (.mk, .minv, m)
  | .mpop m => some (.mk, .mpop, m)
  | .mpeek m => some (.mk, .mpeek, m)
  | .mreset m => some (.mk, .mreset, m)
  | .tdesc m => some (.mx, .tdesc, m)
  | .tstat m => some (.mx, .tstat, m)
  | .tset m => some (.mx, .tset, m)
  | .mcall m => some (.mx, .mcall, m)
  | .mwr m => some (.mx, .mwr, m)
  | .quant m => some (.mx, .quant, m)
  | .azero m => some (.mx, .azero, m)
  | .aread m => some (.mx, .aread, m)
  | .awrite m => some (.mx, .awrite, m)
  | .anorm m => some (.mx, .anorm, m)
  | .acvt m => some (.mx, .acvt, m)
  | .scfg m => some (.sc, .scfg, m)
  | .sload m => some (.sc, .sload, m)
  | .scomp m => some (.sc, .scomp, m)
  | .scarry m => some (.sc, .scarry, m)
  | .sapply m => some (.sc, .sapply, m)
  | .sread m => some (.sc, .sread, m)
  | .rcp m => some (.sf, .rcp, m)
  | .rsqrt m => some (.sf, .rsqrt, m)
  | .rcpstep m => some (.sf, .rcpstep, m)
  | .rsqstep m => some (.sf, .rsqstep, m)
  | .exp2 m => some (.sf, .exp2, m)
  | .log2 m => some (.sf, .log2, m)
  | .softplus m => some (.sf, .softplus, m)
  | .sigmoid m => some (.sf, .sigmoid, m)
  | .silu m => some (.sf, .silu, m)
  | .csort m => some (.so, .csort, m)
  | .cmerge m => some (.so, .cmerge, m)
  | .cthr m => some (.so, .cthr, m)
  | .cread m => some (.so, .cread, m)
  | .cclr m => some (.so, .cclr, m)
  | .patch m => some (.dd, .patch, m)
  | .sety m => some (.dd, .sety, m)
  | .setr m => some (.dd, .setr, m)
  | .gety m => some (.dd, .gety, m)
  | .getr m => some (.dd, .getr, m)
  | .step m => some (.dd, .step, m)
  | .start m => some (.dd, .start, m)
  | .stop m => some (.dd, .stop, m)
  | .dsave m => some (.dd, .dsave, m)
  | .dload m => some (.dd, .dload, m)
  | .inject m => some (.dd, .inject, m)
  | .cnt m => some (.dd, .cnt, m)
  | .fbind m => some (.fr, .fbind, m)
  | .fswap m => some (.fr, .fswap, m)
  | .snap m => some (.fr, .snap, m)
  | .fork m => some (.fr, .fork, m)
  | .roll m => some (.fr, .roll, m)
  | .fdrop m => some (.fr, .fdrop, m)
  | .fstat m => some (.fr, .fstat, m)
  | .ld8Ls0 m => some (.ls0, .ld8, m)
  | .ld8Ls1 m => some (.ls1, .ld8, m)
  | .ld16Ls0 m => some (.ls0, .ld16, m)
  | .ld16Ls1 m => some (.ls1, .ld16, m)
  | .ld32Ls0 m => some (.ls0, .ld32, m)
  | .ld32Ls1 m => some (.ls1, .ld32, m)
  | .ld64Ls0 m => some (.ls0, .ld64, m)
  | .ld64Ls1 m => some (.ls1, .ld64, m)
  | .ldn8Ls0 m => some (.ls0, .ldn8, m)
  | .ldn8Ls1 m => some (.ls1, .ldn8, m)
  | .ldn16Ls0 m => some (.ls0, .ldn16, m)
  | .ldn16Ls1 m => some (.ls1, .ldn16, m)
  | .ldn32Ls0 m => some (.ls0, .ldn32, m)
  | .ldn32Ls1 m => some (.ls1, .ldn32, m)
  | .ldcLs0 m => some (.ls0, .ldc, m)
  | .ldcLs1 m => some (.ls1, .ldc, m)
  | .st8Ls0 m => some (.ls0, .st8, m)
  | .st8Ls1 m => some (.ls1, .st8, m)
  | .st16Ls0 m => some (.ls0, .st16, m)
  | .st16Ls1 m => some (.ls1, .st16, m)
  | .st32Ls0 m => some (.ls0, .st32, m)
  | .st32Ls1 m => some (.ls1, .st32, m)
  | .st64Ls0 m => some (.ls0, .st64, m)
  | .st64Ls1 m => some (.ls1, .st64, m)
  | .stcLs0 m => some (.ls0, .stc, m)
  | .stcLs1 m => some (.ls1, .stc, m)
  | .ldacq32Ls0 m => some (.ls0, .ldacq32, m)
  | .ldacq32Ls1 m => some (.ls1, .ldacq32, m)
  | .ldacq64Ls0 m => some (.ls0, .ldacq64, m)
  | .ldacq64Ls1 m => some (.ls1, .ldacq64, m)
  | .strel32Ls0 m => some (.ls0, .strel32, m)
  | .strel32Ls1 m => some (.ls1, .strel32, m)
  | .strel64Ls0 m => some (.ls0, .strel64, m)
  | .strel64Ls1 m => some (.ls1, .strel64, m)
  | .vldLs0 m => some (.ls0, .vld, m)
  | .vldLs1 m => some (.ls1, .vld, m)
  | .vstLs0 m => some (.ls0, .vst, m)
  | .vstLs1 m => some (.ls1, .vst, m)
  | .gathLs0 m => some (.ls0, .gath, m)
  | .gathLs1 m => some (.ls1, .gath, m)
  | .scatLs0 m => some (.ls0, .scat, m)
  | .scatLs1 m => some (.ls1, .scat, m)
  | .vldxLs0 m => some (.ls0, .vldx, m)
  | .vldxLs1 m => some (.ls1, .vldx, m)
  | .vstcLs0 m => some (.ls0, .vstc, m)
  | .vstcLs1 m => some (.ls1, .vstc, m)
  | .fenceLs0 m => some (.ls0, .fence, m)
  | .fenceLs1 m => some (.ls1, .fence, m)
  | .fenceScLs0 m => some (.ls0, .fenceSc, m)
  | .fenceScLs1 m => some (.ls1, .fenceSc, m)
  | .xfenceLs0 m => some (.ls0, .xfence, m)
  | .xfenceLs1 m => some (.ls1, .xfence, m)
  | .hintLs0 m => some (.ls0, .hint, m)
  | .hintLs1 m => some (.ls1, .hint, m)
  | .hresLs0 m => some (.ls0, .hres, m)
  | .hresLs1 m => some (.ls1, .hres, m)
  | .cctlLs0 m => some (.ls0, .cctl, m)
  | .cctlLs1 m => some (.ls1, .cctl, m)
  | .brelLs0 m => some (.ls0, .brel, m)
  | .brelLs1 m => some (.ls1, .brel, m)
  | .copyCp0 m => some (.cp0, .copy, m)
  | .copyCp1 m => some (.cp1, .copy, m)
  | .twrCp0 m => some (.cp0, .twr, m)
  | .twrCp1 m => some (.cp1, .twr, m)
  | .atadd32 m => some (.atu, .atadd32, m)
  | .atadd64 m => some (.atu, .atadd64, m)
  | .atand m => some (.atu, .atand, m)
  | .ator m => some (.atu, .ator, m)
  | .atxor m => some (.atu, .atxor, m)
  | .atmax m => some (.atu, .atmax, m)
  | .atmin m => some (.atu, .atmin, m)
  | .atswp m => some (.atu, .atswp, m)
  | .cas64 m => some (.atu, .cas64, m)
  | .cas128 m => some (.atu, .cas128, m)
  | .qput m => some (.qs, .qput, m)
  | .qget m => some (.qs, .qget, m)
  | .qsel m => some (.qs, .qsel, m)
  | .rput m => some (.qs, .rput, m)
  | .rget m => some (.qs, .rget, m)
  | .launch m => some (.qs, .launch, m)
  | .binit m => some (.tb, .binit, m)
  | .barr m => some (.tb, .barr, m)
  | .bwait m => some (.tb, .bwait, m)
  | .btest m => some (.tb, .btest, m)
  | .bexp m => some (.tb, .bexp, m)
  | .transportMove _ => none
  | .blockClear _ _ => none
  | .contextSelect _ => none
  | .tokenRefill _ => none
  | .arbiterGrant _ => none
  | .accessAcceptance _ _ => none
  | .longLatencyLanding _ _ _ => none
  | .mxOperationStart _ => none
  | .mxWload _ => none
  | .mxStream _ => none
  | .mxPromote _ => none
  | .mxLoop _ => none
  | .mxNop _ => none
  | .mxEnd _ => none
  | .mxOperationCompletion _ => none
  | .scanOperationStart _ => none
  | .scanBlock _ => none
  | .frameOperationStart _ => none
  | .frameOperationCompletion _ _ => none
  | .copyBegin _ _ => none
  | .copyCompletion _ _ _ => none
  | .launchRecordRead _ _ _ => none
  | .domainStep _ _ => none
  | .ringMessageDelivery _ => none
  | .creditReturn _ _ _ => none
  | .packetPlacement _ _ _ _ => none
  | .dispatcherVisit _ _ => none
  | .taskBinding _ _ => none
  | .taskFinish _ _ => none
  | .completionEntryPost _ _ => none
  | .walkerNode _ => none
  | .bankClaimHeld _ _ _ => none
  | .bankReleaseComplete _ _ => none
  | .preemptionRequest _ _ => none
  | .contextRestore _ _ _ _ => none
  | .contextRelease _ _ => none
  | .watchdogExpiry _ _ => none
  | .uncorrectableError _ _ _ => none
  | .hostLaunch _ _ _ _ => none
  | .windowWrite _ _ _ _ => none
  | .windowRead _ _ _ _ => none
  | .crheadWrite _ _ _ => none
  | .vdcfgWrite _ _ _ => none
  | .deviceReset _ _ => none
  | .functionLevelReset _ _ => none
  | .rmclr _ => none
  | .pavinv _ => none
  | .pavlendWrite _ _ => none
  | .rateBlockWrite _ _ _ _ => none
  | .rateWriteEffect _ => none
  | .reclaimWalkEnd _ => none
  | .form => none
  | .resize => none
  | .dissolve => none
  | .pavilionReset => none
  | .packageReset => none
  | .powerOn => none
  | .calwWrite _ => none
  | .calendarWriteEffect => none
  | .rxcfgWrite _ => none
  | .flitReplay _ => none
  | .imageLoad _ _ => none
  | .imageUnload _ => none
  | .firmwareStage _ _ => none
  | .attestationReport _ _ => none
  | .certificateChain _ => none
  | .faultLogPop _ _ => none
  | .modeChange => none
  | .powerWindow _ => none
  | .thermalWarning _ _ => none
  | .thermalTrip _ _ => none
  | .registerWrite _ _ => none
  | .poolpartWrite _ _ => none
  | .ringPortLinkChange _ _ _ => none

/-- The row of a step that no bundle holds. -/
noncomputable def Event.instr : Event → Instr
  | .blockClear core ctx => .blockClear core ctx
  | .contextSelect core => .contextSelect core
  | .tokenRefill arb => .tokenRefill arb
  | .arbiterGrant arb => .arbiterGrant arb
  | .accessAcceptance core ctx => .accessAcceptance core ctx
  | .longLatencyLanding core ctx op => .longLatencyLanding core ctx op
  | .mxOperationStart core => .mxOperationStart core
  | .mxWload core => .mxWload core
  | .mxStream core => .mxStream core
  | .mxPromote core => .mxPromote core
  | .mxLoop core => .mxLoop core
  | .mxNop core => .mxNop core
  | .mxEnd core => .mxEnd core
  | .mxOperationCompletion core => .mxOperationCompletion core
  | .scanOperationStart core => .scanOperationStart core
  | .scanBlock core => .scanBlock core
  | .frameOperationStart core => .frameOperationStart core
  | .frameOperationCompletion core op => .frameOperationCompletion core op
  | .copyBegin core ch => .copyBegin core ch
  | .copyCompletion core ch op => .copyCompletion core ch op
  | .launchRecordRead pav vd entry => .launchRecordRead pav vd entry
  | .domainStep core dom => .domainStep core dom
  | .ringMessageDelivery msg => .ringMessageDelivery msg
  | .creditReturn core dir ch => .creditReturn core dir ch
  | .packetPlacement core dir slot free => .packetPlacement core dir slot free
  | .dispatcherVisit pav vd => .dispatcherVisit pav vd
  | .taskBinding core task => .taskBinding core task
  | .taskFinish core task => .taskFinish core task
  | .completionEntryPost pav vd => .completionEntryPost pav vd
  | .walkerNode core => .walkerNode core
  | .bankClaimHeld core task bank => .bankClaimHeld core task bank
  | .bankReleaseComplete core bank => .bankReleaseComplete core bank
  | .preemptionRequest core ctx => .preemptionRequest core ctx
  | .contextRestore core ctx toCore toCtx => .contextRestore core ctx toCore toCtx
  | .contextRelease core ctx => .contextRelease core ctx
  | .watchdogExpiry core ctx => .watchdogExpiry core ctx
  | .uncorrectableError site lasting met => .uncorrectableError site lasting met
  | .hostLaunch pav vd off bytes => .hostLaunch pav vd off bytes
  | .windowWrite pav vd off bytes => .windowWrite pav vd off bytes
  | .windowRead pav vd off len => .windowRead pav vd off len
  | .crheadWrite pav vd value => .crheadWrite pav vd value
  | .vdcfgWrite pav vd value => .vdcfgWrite pav vd value
  | .deviceReset pav vd => .deviceReset pav vd
  | .functionLevelReset pav vf => .functionLevelReset pav vf
  | .rmclr pav => .rmclr pav
  | .pavinv pav => .pavinv pav
  | .pavlendWrite pav value => .pavlendWrite pav value
  | .rateBlockWrite pav vd reg value => .rateBlockWrite pav vd reg value
  | .rateWriteEffect arb => .rateWriteEffect arb
  | .reclaimWalkEnd slice => .reclaimWalkEnd slice
  | .form => .form
  | .resize => .resize
  | .dissolve => .dissolve
  | .pavilionReset => .pavilionReset
  | .packageReset => .packageReset
  | .powerOn => .powerOn
  | .calwWrite value => .calwWrite value
  | .calendarWriteEffect => .calendarWriteEffect
  | .rxcfgWrite value => .rxcfgWrite value
  | .flitReplay port => .flitReplay port
  | .imageLoad pav bytes => .imageLoad pav bytes
  | .imageUnload pav => .imageUnload pav
  | .firmwareStage pav bytes => .firmwareStage pav bytes
  | .attestationReport pav nonce => .attestationReport pav nonce
  | .certificateChain pav => .certificateChain pav
  | .faultLogPop pav vd => .faultLogPop pav vd
  | .modeChange => .modeChange
  | .powerWindow watts => .powerWindow watts
  | .thermalWarning die temp => .thermalWarning die temp
  | .thermalTrip die temp => .thermalTrip die temp
  | .registerWrite reg value => .registerWrite reg value
  | .poolpartWrite core value => .poolpartWrite core value
  | .ringPortLinkChange port up joined => .ringPortLinkChange port up joined

/-- The move of a trigger row as an item of its slot. -/
def Mv.item (m : Mv) (u : UnitId) (op : Op) : Item := .move m.g m.s m.b m.src (.trig u op)

/-- The items other than the empty one, with their slots. -/
def occupied : Nat → List Item → List (Nat × Item)
  | _, [] => []
  | slot, it :: rest => if it = Item.empty then occupied (slot + 1) rest else (slot, it) :: occupied (slot + 1) rest

/-- The row that a bundle's items stand for: a bundle whose one move is a trigger is that trigger's row, any other bundle is a
transport move of the whole bundle. -/
noncomputable def rowOf (items : List Item) : Instr :=
  match occupied 0 items with
  | [(slot, .move g s b src (.trig u op))] => ofTrigger u op ⟨slot, g, s, b, src⟩
  | _ => .transportMove items

/-- The row of a 192-bit bundle word. -/
noncomputable def decodeBundle (w : Nat) : Instr := rowOf (decodeSlots w 0 8)

/-- Why bytes are no bundle: fewer than 24 of them. -/
inductive DecodeError where
  | short
  deriving DecidableEq, Repr

/-- The number whose little-endian bytes are given (R4). -/
def leNat : List Byte → Nat
  | [] => 0
  | b :: bs => b.toNat + 256 * leNat bs

/-- The little-endian bytes of a number. -/
def leBytes : Nat → Nat → List Byte
  | 0, _ => []
  | n + 1, x => BitVec.ofNat 8 x :: leBytes n (x / 256)

/-- Decode the bundle at the head of a list of bytes: the row and the bytes after it. -/
noncomputable def decode (bytes : List Byte) : Except DecodeError (Instr × List Byte) :=
  if bytes.length < 24 then .error .short else .ok (decodeBundle (leNat (bytes.take 24)), bytes.drop 24)

/-- The slots at which a bare move word is tried, one for each bus class. -/
def tableSlots : List Nat := [0, 2, 5, 6]

/-- Whether a unit is the first or the only one of its kind. -/
def firstUnit (u : UnitId) : Bool := !([.sx1, .vx1, .vx2].contains u)

/-- The first slot of a list whose bus class decodes a move word as a trigger of an accepted unit. -/
def triggerSlot (accepts : UnitId → Bool) (w : Nat) : List Nat → Option Nat
  | [] => none
  | slot :: rest =>
    match decodeItem slot (BitVec.ofNat 24 w) with
    | .move _ _ _ _ (.trig u _) => if accepts u then some slot else triggerSlot accepts w rest
    | _ => triggerSlot accepts w rest

/-- The slot in which a bare move word stands (DESIGN CHOICE, log 1: the word does not say its bus): the first whose bus class gives it
a trigger of a first unit, else of any unit. -/
def wordSlot (w : Nat) : Nat :=
  ((triggerSlot firstUnit w tableSlots).or (triggerSlot (fun _ => true) w tableSlots)).getD 0

/-- The bundle that holds a table word: a 24-bit word in its slot, with the other slots empty; a longer word is the bundle itself. -/
def tableBundle (nbits w : Nat) : Nat :=
  if nbits ≤ 24 then (w % 2 ^ 24) <<< (24 * wordSlot w) else w % 2 ^ 192

/-- The row that the decoder reads from a word of the opcode table. -/
noncomputable def decodeTableWord (nbits w : Nat) : Option Instr :=
  match decode (leBytes 24 (tableBundle nbits w)) with
  | .ok (i, _) => some i
  | .error _ => none

/-- The 9-bit code of a source (R79). -/
def encodeSrc : Src → Nat
  | .reg .s n => n
  | .reg .a n => 0x40 + n
  | .reg .v n => 0x60 + n
  | .reg .k n => 0xA0 + n
  | .reg .mp n => 0xA8 + n
  | .reg .p n => 0x100 + n
  | .short i => 0xC0 + i.toNat
  | .res u => 0x180 + u.num
  | .imms slot => 0x1C0 + slot
  | .immz slot => 0x1C8 + slot
  | .immw slot => 0x1D0 + slot / 2
  | .pc => 0x1E0
  | .ident => 0x1E1
  | .lane => 0x1E2
  | .reserved c => c

/-- The 9-bit code of a destination (R81 to R83). -/
def encodeDst : Dst → Nat
  | .null => 0
  | .nop c => c
  | .reg .s n => 0x10 + n
  | .reg .a n => 0x50 + n
  | .reg .v n => 0x70 + n
  | .reg .k n => 0xB0 + n
  | .reg .mp n => 0xB8 + n
  | .reg .p n => n
  | .latch u i => u.base + i - 1
  | .latchRef u i => u.base + 2 + i
  | .latchStep u i => u.base + 5 + i
  | .sel u => u.base + 9
  | .trig u op => u.base + 16 + position op (opsOf u.kind)
  | .unassigned u off => u.base + off
  | .reserved c => c

/-- The 24 bits of an item (R76). -/
def encodeItem : Item → Nat
  | .imm v => 8 * 2 ^ 20 + v.toNat
  | .move g s b src dst =>
    g.toNat * 2 ^ 20 + b2n s * 2 ^ 19 + b2n b * 2 ^ 18 + encodeSrc src * 2 ^ 9 + encodeDst dst

/-- The bundle word of a list of items, the first in slot 0 (R74). -/
def encodeSlots : List Item → Nat
  | [] => 0
  | it :: rest => encodeItem it + 2 ^ 24 * encodeSlots rest

/-- The items of a bundle with one item in a slot. -/
def oneItem (slot : Nat) (it : Item) : List Item := (List.replicate 8 Item.empty).set slot it

/-- The items of a row that stands in a bundle. -/
def itemsOf (i : Instr) : Option (List Item) :=
  match i with
  | .transportMove b => some b
  | _ =>
    match i.trigger? with
    | some (u, op, m) => some (oneItem m.slot (m.item u op))
    | none => none

/-- The 24 bytes of a row that stands in a bundle (R74); none for a step that no bundle holds. -/
def encode (i : Instr) : Option (List Byte) :=
  match itemsOf i with
  | some items => some (leBytes 24 (encodeSlots items))
  | none => none

end Sys2Proof
end

