-- ==== Sys2Proof/Config.lean ====
section
/-!
DEFINITION. What one implementation of the Yilet fixes, and the free values: constants without a body for what the spec leaves
open (log 7, log 9).
-/

namespace Sys2Proof.Config

/-- The cores of a package (R9). -/
def coreCount : Nat := 128
/-- The banks of a core's pool (R15). -/
def bankCount : Nat := 80
/-- The bytes of a pool bank (R15). -/
def bankBytes : Nat := 65536
/-- The bytes of a core's pool (R15). -/
def poolBytes : Nat := 5242880

/-- Free value (log 7): a byte that nothing in the spec determines, fresh for each number. -/
opaque freeByte : Nat → Byte
/-- Free value (log 7): a word that nothing in the spec determines, fresh for each number. -/
opaque freeWord : Nat → Word
/-- Free value (log 7): whether a translation uses an entry that is held and that memory no longer gives (R363); by the number of the
present wait, the terrace, the stage and level, and the index bits of the address. -/
opaque heldEntryUsed : Nat → Nat → Nat → Nat → Bool
/-- Free value (log 8): a correctly rounded special function where the model's interval arithmetic does not decide the
rounding; the function's number and the operand. -/
opaque freeRounding : Nat → Lane → Lane × Nat
/-- Free value (log 9): what a stored byte reads as under another key than the one it was written under (R301, R364, R365); the
numbers of the reader's and the writer's key, the address and the byte. -/
opaque scrambled : Nat → Nat → Nat → Byte → Byte
/-- Free value (log 9): the secret seed that the identity key of a die was made from at manufacture (R419). -/
opaque identitySeed : Nat → List Byte
/-- Free value (log 9): the random bytes that the lodge draws for a signature, fresh for each number (R413, R419). -/
opaque signRandom : Nat → List Byte
/-- Free value (log 17): where in the pavilion's granules the lodge puts its save areas (R409); by the pavilion. -/
opaque saveAt : Nat → Nat
/-- Free value (log 9): the certificate chain of a die, in DER (R419). -/
opaque chain : Nat → List Byte
/-- Free value (log 9): the Harast key in the lodge ROM (R413). -/
opaque harastKey : List Byte
/-- Free value (log 9): the digest of the operator key that was fused at installation, if any (R413). -/
opaque operatorDigest : Option (BitVec 256)
/-- Free value (log 9): the operator key that an image of signer 1 is checked against (R413). -/
opaque operatorKey : List Byte
/-- Free value (log 9): the digest of the ROM of a die's lodge (R418). -/
opaque romDigest : Nat → BitVec 256
/-- Free value (log 28): the lodge firmware image that a die's lodge finds at a package reset; the number of the reset and the die (R421). -/
opaque lodgeImage : Nat → Nat → List Byte
/-- Free value (log 28): whether a core fails its self-test at a package reset; the number of the reset and the core (R421). -/
opaque coreFails : Nat → Nat → Bool
/-- Free value (log 28): whether a pool bank fails the test of a package reset; the number of the reset, the core and the bank (R421,
R428). -/
opaque bankFails : Nat → Nat → Nat → Bool
/-- Free value (log 28): the L2 lines that fail the test of a package reset, by terrace, set and way; the number of the reset (R428). -/
opaque failingLines : Nat → List (Nat × Nat × Nat)

end Sys2Proof.Config
end

