-- ==== Sys2Proof/Machine/Sha3.lean ====
section
/-!
DEFINITION. The digests of the lodge (R413, R415, R418, R419): SHA3-256, and the SHAKE functions that ML-DSA-44 uses, from the standard FIPS 202
that R413 names through FIPS 204 (log 9). A state is its 25 lanes, lane (x, y) at index x + 5 y.
-/

namespace Sys2Proof.Machine

/-- A lane of a Keccak state. -/
def keccakLane (a : List Word) (i : Nat) : Word := a.getD i 0

/-- The way that FIPS 202 takes through the lanes other than lane 0 to give each its rotation: a lane with the number of its turn. -/
def keccakWay : Nat → Nat → Nat → List (Nat × Nat)
  | 0, _, _ => []
  | n + 1, turn, i => (i, turn) :: keccakWay n (turn + 1) (i / 5 + 5 * ((2 * (i % 5) + 3 * (i / 5)) % 5))

/-- The rotation of a lane: the triangular number of its turn on the way, and none for lane 0. -/
def keccakOffset (i : Nat) : Nat :=
  match (keccakWay 24 1 1).lookup i with
  | some turn => turn * (turn + 1) / 2 % 64
  | none => 0

/-- One bit of the feedback register that the round constants are drawn from. -/
def keccakFeedback (r : Nat) : Nat := if r < 128 then 2 * r else 2 * r ^^^ 0x171

/-- The constant of a round, whose bit 2^j - 1 is the register's lowest bit after 7 round + j turns; the state of the register after that round. -/
def keccakRound (r : Nat) : Nat × Nat :=
  (List.range 7).foldl (fun e j => (if e.2 % 2 = 1 then e.1 + 2 ^ (2 ^ j - 1) else e.1, keccakFeedback e.2)) (0, r)

/-- The constants of a number of rounds, from a state of the register. -/
def keccakConstants : Nat → Nat → List Word
  | 0, _ => []
  | n + 1, r => BitVec.ofNat 64 (keccakRound r).1 :: keccakConstants n (keccakRound r).2

/-- The step θ: each lane with the parity of two columns. -/
def keccakTheta (a : List Word) : List Word :=
  let c := (List.range 5).map fun x => (List.range 5).foldl (fun w y => w ^^^ keccakLane a (x + 5 * y)) 0
  (List.range 25).map fun i => keccakLane a i ^^^ keccakLane c ((i + 4) % 5) ^^^ (keccakLane c ((i + 1) % 5)).rotateLeft 1

/-- The steps ρ and π: each lane rotated and moved. -/
def keccakRhoPi (a : List Word) : List Word :=
  (List.range 25).map fun i =>
    let j := (i % 5 + 3 * (i / 5)) % 5 + 5 * (i % 5)
    (keccakLane a j).rotateLeft (keccakOffset j)

/-- The step χ: each lane with the next two of its row. -/
def keccakChi (a : List Word) : List Word :=
  (List.range 25).map fun i =>
    let y := i / 5 * 5
    keccakLane a i ^^^ (~~~ keccakLane a (y + (i + 1) % 5) &&& keccakLane a (y + (i + 2) % 5))

/-- The permutation Keccak-f[1600]. -/
def keccakF (a : List Word) : List Word :=
  (keccakConstants 24 1).foldl (fun a rc =>
    let b := keccakChi (keccakRhoPi (keccakTheta a))
    (keccakLane b 0 ^^^ rc) :: b.drop 1) a

/-- A message padded to whole blocks: the domain byte, zeros, and the last bit. -/
def keccakPad (rate : Nat) (domain : Byte) (m : List Byte) : List Byte :=
  let n := rate - m.length % rate
  m ++ if n = 1 then [domain ||| 0x80] else domain :: List.replicate (n - 2) 0 ++ [0x80]

/-- The state after a number of blocks of a padded message. -/
def keccakAbsorb (rate : Nat) : Nat → List Byte → List Word → List Word
  | 0, _, a => a
  | n + 1, m, a =>
    let b := (List.range 25).map fun i => keccakLane a i ^^^ BitVec.ofNat 64 (if 8 * i < rate then leNat ((m.drop (8 * i)).take 8) else 0)
    keccakAbsorb rate n (m.drop rate) (keccakF b)

/-- Blocks of output of a state. -/
def keccakSqueeze (rate : Nat) : Nat → List Word → List Byte
  | 0, _ => []
  | n + 1, a => ((a.flatMap fun w => leBytes 8 w.toNat).take rate) ++ keccakSqueeze rate n (keccakF a)

/-- The sponge with a rate in bytes and a domain byte: `n` bytes of output. -/
def keccak (rate : Nat) (domain : Byte) (m : List Byte) (n : Nat) : List Byte :=
  let p := keccakPad rate domain m
  (keccakSqueeze rate ((n + rate - 1) / rate) (keccakAbsorb rate (p.length / rate) p (List.replicate 25 0))).take n

/-- SHA3-256 as a number whose bytes stand in ascending order (R413). -/
def sha3 (m : List Byte) : BitVec 256 := BitVec.ofNat 256 (leNat (keccak 136 0x06 m 32))

/-- The bytes of a digest. -/
def digestBytes (d : BitVec 256) : List Byte := leBytes 32 d.toNat

/-- The digest of a firmware image (R413, R418): that of its header and of the body whose length BLEN gives. -/
def firmwareDigest (b : List Byte) : BitVec 256 := sha3 (b.take (64 + leNat ((b.drop 8).take 8)))

/-- SHAKE128. -/
def shake128 (m : List Byte) (n : Nat) : List Byte := keccak 168 0x1F m n

/-- SHAKE256. -/
def shake256 (m : List Byte) (n : Nat) : List Byte := keccak 136 0x1F m n

end Sys2Proof.Machine
end

