-- ==== Sys2Proof/Machine/State.lean ====
section
/-!
DEFINITION. The state of the package as plain data: contexts, cores, pavilions, memory; the reasons to stop; and the state right
after the package reset (R421).
-/

namespace Sys2Proof.Machine

/-- Why the machine stops with a fault. -/
inductive Fault where
  /-- An address outside HBM4 and LP6 (R359). No meaning raises it: the spec gives every access to such an address the failure
  of R362, a trap or an engine failure with a next state, so a step of this model never faults. Safe. -/
  | noSuchMemory
  deriving DecidableEq, Repr

/-- Why the machine refuses an instruction. -/
inductive Refusal where
  /-- Raised by the dispatch for a row that has no meaning yet. Safe: the model stops where the hardware goes on. -/
  | notModelled (mnemonic : String)
  deriving DecidableEq, Repr

/-- Bytes by address, canonical: addresses strictly rising, no entry equal to 0, which is what an unlisted address reads as
(log 5). -/
abbrev Memory := List Host.Cell

/-- A capability of 128 bits with its validity tag (R101). -/
structure Cap where
  raw : BitVec 128
  tag : Bool
  deriving DecidableEq, Repr

/-- The width classes of R79 and R80. -/
inductive Width where
  | word | cap | vec | mask
  deriving DecidableEq, Repr

/-- A value with its width class (R79). -/
inductive Value where
  | word (x : Word)
  | cap (c : Cap)
  | vec (v : Vec)
  | mask (m : Mask)
  deriving DecidableEq, Repr

/-- A register-reference word (R26): a file, or none, a number and a signed step. -/
structure RegRef where
  file : Option RFile
  num : Nat
  step : Int
  deriving DecidableEq, Repr

/-- What an operand latch holds (R27, R28). -/
inductive LatchContent where
  | invalid
  | value (v : Value)
  | ref (r : RegRef)
  deriving DecidableEq, Repr

/-- An operand latch with its step (R25, R27). -/
structure Latch where
  content : LatchContent
  step : Word
  deriving DecidableEq, Repr

/-- The port state of one unit in one context (R25). -/
structure Port where
  o1 : Latch
  o2 : Latch
  o3 : Latch
  sel : Option RegRef
  res : Option Value
  deriving DecidableEq, Repr

/-- The control registers of a context (R244). CFCOUNT, CTIME, CYCLE, POOLPART, the queues and the bank formats are read from
where their state lies. -/
structure Ctl where
  fpflags : Word
  gbase : Word
  tvec : Word
  tcause : Word
  tepc : Word
  tbranch : Word
  tbtgt : Word
  hndst : Word
  memcnt : Word
  mxfault : Word
  sccfg : Word
  loopwd : Word
  loopsw : Word
  loopst : Word
  loopcnt : Word
  ddgrant : Word
  ddstat : Word
  ddfault : Word
  domclk : Table Word
  domcnt : Table Word
  qosrem : Word
  deriving DecidableEq, Repr

/-- What an operation does to the withdrawable state of its context at its result time (R30, R142). -/
inductive Eff where
  /-- A register receives a value, in the lanes of the mask if there is one (R124). -/
  | reg (f : RFile) (n : Nat) (v : Value) (lanes : Option Mask)
  /-- A result port receives a value, in the lanes of the mask if there is one (R124). -/
  | res (u : UnitId) (v : Value) (lanes : Option Mask)
  /-- FPFLAGS bits are raised (R52). -/
  | flags (b : Nat)
  /-- A control register is written by its map (R245). -/
  | ctl (n : Nat) (x : Word)
  /-- Loop replay begins with the next bundle (R112). -/
  | startLoop
  /-- The depth of the mask stack is set, and an entry of it is written, by its number (R136). -/
  | stack (depth : Option Nat) (put : Option (Nat × Mask))
  /-- MEMCNT.LFULL counts a launch that found no free entry (R228). -/
  | launchFull
  /-- Candidates merge into the file, after it is emptied or not (R141). -/
  | merge (u : UnitId) (dest : Option (RFile × Nat)) (empty : Bool) (cands : List (Lane × Lane))
  /-- The threshold test of CTHR reads the file (R141). -/
  | threshold (u : UnitId) (dest : Option (RFile × Nat)) (x : Vec) (lanes : Mask)
  /-- CREAD reads an entry of the file (R141). -/
  | candidate (u : UnitId) (dest : Option (RFile × Nat)) (j : Nat)
  /-- CCLR empties the file (R141). -/
  | clear (u : UnitId) (dest : Option (RFile × Nat))
  deriving DecidableEq, Repr

/-- A fixed-latency operation in flight: the context time at whose end it takes effect, its S bit (R30, R37). -/
structure Flight where
  due : Nat
  s : Bool
  /-- Its result port is in the handler set (R254). -/
  hset : Bool
  effs : List Eff
  deriving DecidableEq, Repr

/-- A long-latency operation whose result has not landed (R31). -/
structure Pending where
  id : Nat
  unit : UnitId
  dest : Option (RFile × Nat)
  lanes : Option Mask
  hset : Bool
  deriving DecidableEq, Repr

/-- The state of a context that a taken branch or a trap may withdraw (R37): registers, full and empty bits, mask stack,
candidate file, port state, control registers, operations in flight, race regions. -/
structure View where
  s : Table Word
  a : Table Cap
  v : Table Vec
  p : Mask
  k : Table Mask
  mp : Table Word
  emptyS : Word
  emptyA : BitVec 32
  emptyV : Word
  /-- Entries D down to 1 of the mask stack (R135). -/
  stack : List Mask
  /-- What stands in the entries above the top, from entry D + 1 on; an entry that nothing has written holds 0 (R135, log 4). -/
  above : List Mask
  /-- The valid candidates in rank order (R139). -/
  cf : List Word
  /-- The main set of port state, by unit number (R25). -/
  ports : Table Port
  /-- The handler set of port state (R254). -/
  hports : Table Port
  ctl : Ctl
  /-- Bundles come from the loop buffer: LOOPST.ACTIVE is 1 and the replay is not suspended by a trap (R112, R117). -/
  looping : Bool
  flights : List Flight
  pending : List Pending
  /-- The region counter REG (R324). -/
  region : Nat
  /-- The valid entries of the acquire table (R324). -/
  acquired : Table Nat
  deriving DecidableEq, Repr

/-- The states of a context (R34). -/
inductive CtxMode where
  | off | ready | running | blocked | halted
  deriving DecidableEq, Repr

/-- What a blocked context waits on (R34). -/
inductive Wait where
  /-- Empty registers, a tile, a queue, a slot, a barrier or a bank: the bundle at the program counter is tried again. -/
  | bundle
  /-- The acceptance of the memory accesses of the bundle that has issued (R194). -/
  | acceptance
  /-- A fence that has issued (R204, R205). -/
  | fence
  /-- The integrator operations of a program that has ended, with its exit code and status (R249, R277). -/
  | ending (exit status : Nat)
  deriving DecidableEq, Repr

/-- A trigger that has been read: its slot, unit, operation, S bit, whether it is provisional under R37, trigger value, latch
values and selector word (R29). -/
structure Opd where
  slot : Nat
  unit : UnitId
  op : Op
  s : Bool
  prov : Bool
  x : Value
  o1 : Option Value
  o2 : Option Value
  o3 : Option Value
  sel : Option RegRef
  /-- The register that the operation reads at step 2 of R29 (R245, R250). -/
  seen : Word
  deriving DecidableEq, Repr

/-- A move whose source has been read (R29): a register write, a latch, step or selector write, or a trigger. -/
inductive RMove where
  | reg (s prov : Bool) (f : RFile) (n : Nat) (v : Value)
  | latch (prov : Bool) (u : UnitId) (i : Nat) (c : LatchContent)
  | step (prov : Bool) (u : UnitId) (i : Nat) (x : Word)
  | sel (prov : Bool) (u : UnitId) (r : RegRef)
  | trig (o : Opd)
  deriving DecidableEq, Repr

/-- The record words of a trap that went to the lodge (R391, R394). -/
structure TrapRecord where
  tcause : Word
  tepc : Word
  tbranch : Word
  tbtgt : Word
  w62 : Word
  w63 : Word
  deriving DecidableEq, Repr

/-- The delivered value of a long-latency operation: the core cycle from which it may land, and the value; none when the data
is poisoned and never lands (R252, R400). -/
structure Landing where
  cycle : Nat
  value : Option Value
  /-- The z tile that AREAD leaves when it completes (R165). -/
  tile : Option Nat
  deriving DecidableEq, Repr

/-- What a program that is bound to a context runs under (R102, R279), and the number that tells this program from every other
program that the core has run. -/
structure Binding where
  pav : Nat
  vd : Nat
  tenant : Nat
  image : Nat
  task : Nat
  prog : Nat
  deriving DecidableEq, Repr

/-- A tile status word (R148): STATE 0 empty, 1 filling, 2 ready, 3 draining; RCNT; bits [15:8]; TE; ERR. -/
structure TileStat where
  state : Nat
  rcnt : Nat
  flags : BitVec 8
  te : Bool
  err : Bool
  deriving DecidableEq, Repr

/-- A t tile of a context: its descriptor (R145) and its status (R148). -/
structure Tile where
  desc : Word
  stat : TileStat
  deriving DecidableEq, Repr

/-- An accumulator element (R60): the value word W, the exponent E and the sticky bits. HEAD follows from W (R61). -/
structure Acc where
  w : Word
  e : BitVec 16
  ovf : Bool
  inx : Bool
  inv : Bool
  eov : Bool
  deriving DecidableEq, Repr

/-- A z tile of a core (R60, R148, R302): the program that owns it, its status, and its elements by 128 × row + column; an unlisted
element is `fill`. -/
structure ZTile where
  owner : Option Nat
  stat : TileStat
  fill : Acc
  elems : Table Acc
  deriving DecidableEq, Repr

/-- The roles in which an operation names a tile (R149, R214). -/
inductive TileRole where
  | source | update | destination | drain
  deriving DecidableEq, Repr

/-- A tile as an operation named it: its code, the descriptor it had (0 for a z tile) and the role. -/
structure TileRef where
  code : Nat
  desc : Word
  role : TileRole
  deriving DecidableEq, Repr

/-- Who triggered an operation: the context and the program bound to it. -/
structure Who where
  ctx : Nat
  bind : Binding
  /-- The region in force at the trigger (R322). -/
  region : Nat
  deriving DecidableEq, Repr

/-- Where a stopped call goes on (R162): the next step word, IK, IN, the passes of the loop counter, and the last WLOAD. -/
structure MxResume where
  next : Nat
  ik : Int
  inn : Int
  passes : Nat
  wload : Option Nat
  deriving DecidableEq, Repr

/-- A queued operation of the matrix sequencer (R152): MCALL with its copy of mp0 to mp7, MWR, QUANT, AZERO, AWRITE, ANORM or
ACVT, with the tiles it names. -/
structure MxOp where
  id : Nat
  who : Who
  op : Op
  routine : Nat
  mp : List Word
  tiles : List TileRef
  /-- AZERO: the exponent; AWRITE: row and word. -/
  ctl : Word
  vec : Vec
  lanes : Mask
  resume : Option MxResume
  deriving DecidableEq, Repr

/-- An exact number of the matrix array: mant × 2^exp, and whether a NaN, an infinity or a scale code 0xFF stands there (R65). -/
structure Exact where
  mant : Int
  exp : Int
  bad : Bool
  deriving DecidableEq, Repr

/-- An inner accumulator of an element (R67): I and Xw, if it is not empty; and the groups entered since the last
promotion. -/
structure Inner where
  acc : Option (Int × Int)
  count : Nat
  deriving DecidableEq, Repr

/-- The operation that the matrix sequencer runs (R157, R161): its place, the columns of the array (absent ones hold 0), the inner
accumulators of each row of a z tile by 128 × tile + row (absent ones are empty), the codes of the z tiles in which an element saturated, whether one of them had TE = 1, and whether its last
step has run. -/
structure MxRun where
  op : MxOp
  next : Nat
  ik : Int
  inn : Int
  passes : Nat
  wload : Option Nat
  array : Table (List Exact)
  inner : Table (List Inner)
  saturated : List Nat
  trip : Bool
  /-- A pre-emption stops the call at its next stated step (R162). -/
  stopping : Bool
  /-- The core cycle from which its present step is complete (R158). -/
  due : Nat
  done : Bool
  deriving DecidableEq, Repr

/-- A queued or running operation of the scan engine (R182), with its copy of SCCFG and its next block. -/
structure ScOp where
  id : Nat
  who : Who
  op : Op
  cfg : Word
  tiles : List TileRef
  next : Nat
  /-- The core cycle from which its present block is complete (R182). -/
  due : Nat
  deriving DecidableEq, Repr

/-- A frame in the pool (R172, R187): its session, layer, first bank, element count, position, speculation tag and copy-on-write
mark. It holds its banks while it exists (R174). -/
structure Frame where
  sid : Nat
  layer : Nat
  bank : Nat
  ne : Nat
  pos : Nat
  stag : Nat
  cow : Bool
  vd : Nat
  deriving DecidableEq, Repr

/-- A frame slot (R173): the number of the frame bound to it, ERR, SCNT and FCNT. -/
structure FrameSlot where
  frame : Option Nat
  err : Bool
  scnt : Nat
  fcnt : Nat
  deriving DecidableEq, Repr

/-- A failure of an engine operation (R188, R216, R398): ECAUSE, the class and cause of its fault record, and its address. -/
structure EngineFault where
  ecause : Nat
  cls : Nat
  cause : Nat
  addr : Word
  deriving DecidableEq, Repr

/-- The area of a session and layer as the session table gives it (R306): its base and the bytes of its home and of each record, or
why the engine fails. -/
inductive Area where
  | fault (f : EngineFault)
  | found (base size : Nat)
  deriving DecidableEq, Repr

/-- A queued or running operation of the frame engine (R183, R184): its command word, latches and the number of its frame. -/
structure FrOp where
  id : Nat
  who : Who
  op : Op
  cmd : Word
  o1 : Word
  o2 : Word
  frame : Nat
  running : Bool
  /-- What its start found (R186, R306): whether it acts, the base and the size of the areas of its frame's and of its key's session
  and layer, or the failure. -/
  acts : Bool
  area : Area
  area2 : Area
  /-- The frame as it was when an operation before this one lost it (R188). -/
  gone : Option Frame
  deriving DecidableEq, Repr

/-- A copy template (R210, R211). -/
structure Template where
  owner : Option Nat
  slots : Table Cap
  deriving DecidableEq, Repr

/-- A queued or running copy (R209, R214, R215): its template image and displacements, its trigger value, its tiles, the reason of
a refusal (0 for none), and what it has met. -/
structure CpOp where
  id : Nat
  who : Who
  image : List Cap
  disp : Word
  x : Word
  src : Option TileRef
  dst : Option TileRef
  refused : Nat
  running : Bool
  /-- The error it has met, as ECAUSE of R220; 0 for none. -/
  ecause : Nat
  /-- The conversion flags it has met (R52). -/
  flags : Nat
  /-- The bytes it was to write, where a walk of data decides them (R217, R218). -/
  bytes : Nat
  deriving DecidableEq, Repr

/-- A queue of a core (R223, R224); `gang` is the gang that holds it as a pipe (R280). -/
structure Queue where
  base8 : Nat
  lcap : Nat
  en : Bool
  head : Nat
  count : Nat
  owner : Option Nat
  gang : Option Nat
  /-- The context and the ended region that each entry carries, the oldest first (R324). -/
  stamps : List (Nat × Nat)
  deriving DecidableEq, Repr

/-- A ring message on its way (R226): its number, the cores it travels between, its direction, channel and data. -/
structure RingMsg where
  id : Nat
  /-- The sending core; 128 for a core of the joined package (R369). -/
  src : Nat
  /-- The receiving core; 128 for a core of the joined package. -/
  dst : Nat
  dir : Nat
  ch : Nat
  data : Word
  /-- The device of the sender (R372). -/
  vd : Nat
  /-- It stands in the send buffer of its core and has not been placed into a container (R381). -/
  waiting : Bool
  /-- The crossing of bridge 1 is still before it, where it is held until a container that it may enter passes (R381). -/
  held : Bool
  /-- The context and the ended region that it carries (R324). -/
  stamp : Nat × Nat
  /-- The cycles that it has still to travel (R12), to the crossing while that is before it. -/
  wait : Nat
  deriving DecidableEq, Repr

/-- A credit on its way back to a core (R226): its core, direction and channel, and the cycles that it has still to travel (R12). -/
structure Credit where
  core : Nat
  dir : Nat
  ch : Nat
  wait : Nat
  deriving DecidableEq, Repr

/-- What comes in by a ring-extension port from the joined package (R226, R369), in the direction in which it travels: a message, with its channel
and its data, or the credit of one that a core sent. -/
inductive PortInput where
  | message (dir ch : Nat) (data : Word)
  | credit (core dir ch : Nat)
  deriving DecidableEq, Repr

/-- An integrator cell (R231). -/
structure Cell where
  w0 : Word
  w1 : Word
  y : Int
  r : Nat
  out : Int
  j : Int
  cnt : BitVec 32
  deriving DecidableEq, Repr

/-- A dd operation in the queue (R238, R240): its trigger value, latches and lane mask, the register of a read, the relative cells
it still acts on, the relative domains whose step boundary it awaits, those whose STEP run it awaits, and the lanes it has read. -/
structure DdOp where
  id : Nat
  who : Who
  op : Op
  x : Value
  o1 : Word
  o2 : Word
  lanes : Mask
  dest : Option (RFile × Nat)
  /-- STEP of the register-reference word of its selector (R26, R411). -/
  step : Int
  /-- The number of its pending result (R31), for a read. -/
  read : Option Nat
  todo : List Nat
  bounds : List Nat
  runs : List Nat
  got : Table Lane
  deriving DecidableEq, Repr

/-- The states of a claim on a scratchpad bank (R298). -/
inductive ClaimState where
  | pending | held | releasing
  deriving DecidableEq, Repr

/-- A claim of a program on a bank (R298), with the releases of the former owners that it acquired when it became held (R300): the context and the
region of each. -/
structure Claim where
  prog : Nat
  bank : Nat
  write : Bool
  state : ClaimState
  taken : List (Nat × Nat)
  deriving DecidableEq, Repr

/-- A word of the core that a provisional CRW changed, as it was before (R37, R245). -/
inductive CoreWord where
  | queue (n : Nat) (q : Queue)
  | format (n : Nat) (f : Byte)
  deriving DecidableEq, Repr

/-- What the save area of a halted context keeps beside the registers, the cells and the operations that the context itself holds
(R409): the vector count, the blocks and the domains that it had, the device physical address at which its save area stands, as the lodge chose
it, and the number of the key that the area is encrypted under (R364). -/
structure Saved where
  vcn : Nat
  blocks : Nat
  domains : Nat
  /-- LOFF of the marker; none for a lodge save. -/
  loff : Option Nat
  place : Nat
  key : Nat
  deriving DecidableEq, Repr

/-- One context (R34, R44). -/
structure Ctx where
  mode : CtxMode
  wait : Option Wait
  /-- The state as the context's moves see it. -/
  cur : View
  /-- The state without the provisional effects, while a taken branch is pending (R37). -/
  fin : Option View
  /-- The number of the next delay bundle, 1 or 2, and the target of a taken branch (R36). -/
  branch : Option (Nat × Word)
  /-- The context time at whose end the last branch that is not taken resolves (R36). -/
  untaken : Nat
  pc : Word
  ctime : Nat
  /-- The moves of a bundle that waits for acceptance (R194). -/
  held : Option (List RMove)
  /-- Operations that a fence waits for (R204, R205), and the triggers of higher slots of its bundle that act only after it. -/
  fence : List Nat
  late : List Opd
  /-- Banks whose release is to become final at the end of a context time (R37, R207). -/
  releases : List (Nat × List Nat)
  /-- Results of long-latency operations by number. -/
  landings : Table Landing
  /-- Core registers that provisional CRW moves changed, the last one first, as they were (R37, R245). -/
  undo : List CoreWord
  arithDue : Bool
  overrunDue : Bool
  memErrDue : Bool
  /-- A pre-emption request is pending (R405). -/
  preempt : Bool
  /-- The core cycle of a request that the dispatcher made (R387). -/
  asked : Option Nat
  /-- The time since the request, in forty-seconds of a nanosecond, whatever the core clock (R20, R412). -/
  waited : Nat
  /-- The live-state list of the safe-point marker at whose boundary the context stands (R118). -/
  marker : Option Nat
  /-- The context has issued a bundle since it was bound (R405). -/
  started : Bool
  binding : Option Binding
  record : Option TrapRecord
  /-- Tiles t0 to t31 (R145, R148). -/
  tiles : Table Tile
  /-- The numbers of the copies in stream banks qa and qb (R219). -/
  qa : List Nat
  qb : List Nat
  /-- The cells of the grant, by relative number (R230, R231). -/
  cells : Table Cell
  /-- The core cycle from which a running domain's next step may come, by relative number (R237, R241). -/
  stepAt : Table Nat
  /-- The save of a halt (R409). -/
  saved : Option Saved
  /-- The driver or a withdrawal ended the program: its task posts STATUS 4 (R394, R402). -/
  killed : Bool
  /-- Operations of mx, scan and dd that a halt keeps, in their order (R162, R182, R239). -/
  keptMx : List MxOp
  keptSc : List ScOp
  keptDd : List DdOp
  deriving DecidableEq, Repr

/-- A launch in the pending-launch store of a device (R265, R266): its queue, the bytes of its record once they are known, whether
the granule of CAP0 carried a tag, the context and ended region of a LAUNCH, its core and context and the address of its record,
and the graph run whose walker submitted it. -/
structure Launch where
  id : Nat
  queue : Nat
  record : Option (List Byte)
  tagged : Bool
  stamp : Option (Nat × Nat)
  core : Nat
  ctx : Nat
  addr : Word
  walk : Option Nat
  deriving DecidableEq, Repr

/-- An entry of the dependence table (R275): the task's device, queue and record, its gang, its translated read and write ranges, the
first banks of its sets, the older entries that it met a conflict with, the releases that its binding acquires, its context while it is bound, and its exit code and status once it
has ended. -/
structure Task where
  id : Nat
  vd : Nat
  queue : Nat
  record : List Byte
  tagged : Bool
  walk : Option Nat
  gang : Option Nat
  reads : List (Nat × Nat)
  writes : List (Nat × Nat)
  firsts : List Nat
  deps : List Nat
  acquires : List (Nat × Nat)
  bound : Option Nat
  /-- The cycles it has been charged since it was bound (R368, R386). -/
  cycles : Nat
  /-- The exit code, the status, and the context and region that its HALT ended. -/
  ended : Option (Nat × Nat × Nat × Nat)
  deriving DecidableEq, Repr

/-- An entry of the rename map (R275): a logical range of banks, its length, and where it lies. -/
structure MapEntry where
  logical : Nat
  len : Nat
  physical : Nat
  deriving DecidableEq, Repr

/-- The graph walker of a core on a graph launch (R282 to R287): the run's number, device and queue, the record of its launch, the
node store with tags, the current node, the passes of while nodes, the phases of barrier nodes, the versions of batch entries, and within a
snapshot the next entry with its first reading of COMMIT (R287). -/
structure Walker where
  run : Nat
  vd : Nat
  queue : Nat
  tag : Nat
  cap : Cap
  batch : Nat
  nent : Nat
  nodes : List (List Byte × Bool)
  node : Nat
  passes : Table Nat
  phases : Table Nat
  versions : Table (List Byte)
  snap : Option (Nat × Word)
  /-- The release that the LAUNCH of the graph carries to the binding of each task of the graph (R315, R324); none for a host launch. -/
  stamp : Option (Nat × Nat)
  deriving DecidableEq, Repr

/-- A request that waits at an arbiter (R376): its device and its cost in tokens. -/
structure Request where
  pav : Nat
  vd : Nat
  cost : Nat
  deriving DecidableEq, Repr

/-- An arbiter (R370 to R377): its next slot, the slots that its present grant still takes, the buckets and lending counters of its
devices by 128 × pavilion + device, the lending counters of pavilions, the rate registers in force, and its waiting requests, the
oldest first. -/
structure Arb where
  slot : Nat
  busy : Nat
  tok : Table Int
  lc : Table Int
  plc : Table Int
  rates : Table Word
  reqs : List Request
  deriving DecidableEq, Repr

/-- What the lodge is withdrawing from a core (R402, R403): a bank, or 128 for the whole core, and the device and context to which its
record goes. -/
structure Failing where
  part : Nat
  dev : Option (Nat × Nat)
  ctx : Nat
  /-- The frames and the tasks that a withdrawn bank takes are gone (R402 steps 2 and 3). -/
  begun : Bool
  deriving DecidableEq, Repr

/-- Units of the resources that a binding takes. -/
structure Units where
  ctxs : Nat
  blocks : Nat
  domains : Nat
  queues : Nat
  templates : List Nat
  deriving DecidableEq, Repr

/-- What is held for a waiting task, or for the gang of that first member, until it is bound (R278). -/
structure Hold where
  task : Nat
  units : Units
  deriving DecidableEq, Repr

/-- One core (R10). -/
structure Core where
  running : Option Nat
  /-- The context that has issued, or tried to, in the present cycle, or to which the selector switched in it: a core issues at most one
  bundle a cycle, and none in the bubble of a switch (R35). -/
  taken : Option Nat
  /-- The context to which a yield has switched in a cycle that its own bundle took: the next cycle is the bubble (R35, R248). -/
  bubble : Option Nat
  ctxs : Table Ctx
  cycle : Nat
  poolpart : Word
  /-- The bytes of the pool (R15, R44) outside the vector and accumulator banks. -/
  pool : Memory
  /-- The key index of each 64-byte sector of the pool (R301). -/
  sectorKey : Table Nat
  /-- BANKFMT descriptors (R295). -/
  fmt : Table Byte
  /-- Withdrawn banks (R295, R402). -/
  withdrawn : List Nat
  /-- Claims in the order of binding (R298). -/
  claims : List Claim
  /-- Tiles z0 to z7 (R60, R302). -/
  ztiles : Table ZTile
  /-- The microprogram store outside the standard routines (R155). -/
  store : Table Word
  mxq : List MxOp
  mxRun : Option MxRun
  scq : List ScOp
  scRun : Option ScOp
  /-- The operation that the hold of R424 makes the sequencer wait with, and the core cycle from which it may start; that of the scan
  engine. -/
  mxWait : Option (Nat × Nat)
  scWait : Option (Nat × Nat)
  slots : Table FrameSlot
  /-- The frames of the core by number, and the next number. -/
  frames : Table Frame
  frameId : Nat
  frq : List FrOp
  templates : Table Template
  /-- The queues of cp0 and cp1; the head of one may run (R215). -/
  cp0q : List CpOp
  cp1q : List CpOp
  ddq : List DdOp
  queues : Table Queue
  /-- Ring receive queues by 8 × direction + channel (R226). -/
  ring : Table (List RingMsg)
  /-- Credits spent and not yet returned, by 8 × direction + channel (R226). -/
  spent : Table Nat
  /-- The copies that arrived on a barrier in a phase: its pool address, the phase, the context and its region (R222, R324). -/
  arrived : List (Nat × Nat × Nat × Nat)
  /-- The releases of the last owners by bank: each context and the region that its release ended (R300, R324); an owner's takes the place of those
  that it had acquired with the bank. -/
  passed : Table (Table Nat)
  /-- The dependence table in admission order, and the rename map (R275). -/
  table : List Task
  renames : List MapEntry
  walker : Option Walker
  /-- Halted contexts whose place another task has taken, by task, with the number of the context: only their save is left (R387, R409). -/
  parked : Table (Nat × Ctx)
  /-- Units held for waiting tasks (R278). -/
  holds : List Hold
  /-- The task for which the dispatcher has had a context halted (R387). -/
  heldFor : Option Nat
  /-- What the lodge is withdrawing, the first first (R402, R403). -/
  failing : List Failing
  /-- The core is withdrawn from all use (R403). -/
  removed : Bool
  deriving DecidableEq, Repr

/-- A rebinding record of KIND 3 to 6 of a loaded image (R262, R263): the type of its section (R94), its tenant virtual address where that is
rodata or data and else its offset in the bytes of that type, its kind, its form and its addend. -/
structure Rebind where
  sect : Nat
  place : Nat
  kind : Nat
  form : Nat
  add : Int
  deriving DecidableEq, Repr

/-- A loaded image (R264): its pavilion, device and tenant, where its text stands, its entries (R95), its template, tile and bank
records (R96), its micro records, its live section, its rebinding records of KIND 3 to 6, and the bytes by type of the sections that those
records were read from (R262). -/
structure Image where
  pav : Nat
  vd : Nat
  tenant : Nat
  base : Word
  size : Nat
  text : Memory
  entries : List Nat
  templates : List (Nat × List Byte)
  tiles : List (Nat × Word)
  banks : List (Nat × Byte)
  micro : List (Nat × Word)
  live : List Byte
  rebinds : List Rebind
  tables : Table (List Byte)
  deriving DecidableEq, Repr

/-- A fault record of R398. -/
structure FaultRec where
  origin : Nat
  cls : Nat
  cause : Nat
  core : Nat
  ctx : Nat
  item : Nat
  seq : Nat
  addr : Word
  deriving DecidableEq, Repr

/-- A virtual device (R348 to R350, R373). -/
structure Dev where
  vdcfg : Word
  s1root : Word
  wbase : Word
  crbase : Word
  vdctl : Word
  riss : Word
  rl2 : Word
  rhbm : Word
  rlp6 : Word
  rfrm : Word
  rprom : Word
  rdwrr : Word
  rstat : Word
  /-- Unread fault records, oldest first, the records lost and the next record number (R398). -/
  flog : List FaultRec
  lost : Nat
  seq : Nat
  /-- The pending-launch store, in the order of acceptance (R265). -/
  launches : List Launch
  /-- LQSTAT by queue, MALF, CRHEAD and CRTAIL (R352). -/
  acc : Table Nat
  full : Table Nat
  malf : Nat
  crhead : Nat
  crtail : Nat
  /-- Completion entries that wait for the ring (R353). -/
  entries : List (List Byte)
  /-- The queue last served (R271). -/
  served : Nat
  /-- The gangs that a status-7 refusal refuses whole (R273): the queue, the identifier, and the members that are still to come. -/
  refused : List (Nat × Nat × Nat)
  /-- The members of unfinished gangs that were refused with another status (R273): the queue, the identifier, and how many. -/
  gone : List (Nat × Nat × Nat)
  deriving DecidableEq, Repr

/-- An owner key index that has been given to a device (R364, R365): the device, the number of the key drawn for it, and whether
the index is live; a dead one keeps its number until it is given again. -/
structure KeyEntry where
  pav : Nat
  vd : Nat
  serial : Nat
  live : Bool
  deriving DecidableEq, Repr

/-- The copy of a line in an L2 slice (R310, R206): its way, whether it is dirty, its residency class and its key index. -/
structure L2Line where
  way : Nat
  dirty : Bool
  cls : Nat
  kidx : Nat
  deriving DecidableEq, Repr

/-- What the home of a line holds while a copy in L2 is dirty (R251, R354): the number of the key that its 64 bytes were written under (R364), and
the bytes. -/
structure HomeLine where
  key : Nat
  bytes : List Byte
  deriving DecidableEq, Repr

/-- Ways that leave a device in a slice (R383): the device, the ways, and the next set of the walker. -/
structure Reclaim where
  pav : Nat
  vd : Nat
  ways : Nat
  next : Nat
  deriving DecidableEq, Repr

/-- An entry of the key table of a firmware image (R414): a tenant, its microprogram-write right and its image public key. -/
structure KeyRow where
  tenant : Nat
  mwr : Bool
  key : List Byte
  deriving DecidableEq, Repr

/-- A firmware image that the lodge has verified (R413, R414): its security version, its digest and its key table. -/
structure Firmware where
  svn : Nat
  digest : BitVec 256
  keys : List KeyRow
  deriving DecidableEq, Repr

/-- A pavilion (R356, R357). -/
structure Pav where
  /-- FORMED, NVF, STK, LPG and CONT of PAVCFG (R356), and the virtual functions that SR-IOV enables (R346). -/
  formed : Bool
  nvf : Nat
  stk : Nat
  lpg : Nat
  contained : Bool
  vfs : Nat
  /-- RMCLR is pending on these cores (R356). -/
  rmclr : List Nat
  /-- PAVINV (R356), PAVLEND but for PSLOTS (R375). -/
  pavinv : Word
  pavlend : Word
  /-- FWCTL, FWADDR, ATCTL, ATADDR, IMGCTL, IMGADDR, IMGDATA (R416, R419, R264). -/
  fwctl : Word
  fwaddr : Word
  atctl : Word
  ataddr : Word
  imgctl : Word
  imgaddr : Word
  imgdata : Word
  /-- The firmware slot: the staged and the running image, the highest SVN that has run, and M2 (R416 to R418). -/
  staged : Option Firmware
  slot : Option Firmware
  topSvn : Nat
  m2 : BitVec 256
  /-- The pavilion's cores in ascending order (R357). -/
  cores : List Nat
  /-- The device that the dispatcher visited last, and the cycle of its first core from which the next visit may come (R385). -/
  visited : Option Nat
  visitAt : Nat
  /-- S2ROOT and STBASE (R356). -/
  s2root : Word
  stbase : Word
  devs : Table Dev
  deriving DecidableEq, Repr

/-- A health counter (R427). -/
structure Health where
  now : Nat
  life : Nat
  deriving DecidableEq, Repr

/-- The operator block (R422 to R428) but for its commands: the fields of PMODE, PWRSTAT, THERM and HCAP, whether the power hold
and the thermal full hold are active, and the seven health counters. -/
structure Oper where
  mode : Nat
  cur : Nat
  result : Nat
  go : Bool
  cool : Bool
  auto : Bool
  pwr : Nat
  holds : Nat
  hold : Bool
  t0 : Nat
  t1 : Nat
  twarn : Nat
  warn : Bool
  trip : Bool
  fullHold : Bool
  /-- TRIP falls while a change is in progress (R426). -/
  tripDue : Bool
  health : Table Health
  hcores : Nat
  hbanks : Nat
  hlines : Nat
  /-- PCMD, PCORE0, PCORE1, PMEM, RXCFG and CALW (R357, R369, R380). -/
  pcmd : Word
  pcore0 : Word
  pcore1 : Word
  pmem : Word
  rxcfg : Word
  calw : Word
  /-- A write of CALW that waits behind a resize (R432). -/
  calwHeld : Option Word
  /-- The promenade calendar: the pavilion of each index (R380). -/
  calendar : Table Nat
  /-- Whether the package across each ring-extension port has joined (R369). -/
  far0 : Bool
  far1 : Bool
  /-- The package resets since manufacture (R419). -/
  resets : Nat
  /-- M0 and M1 of the lodge of each die (R418). -/
  measures : Table (BitVec 256 × BitVec 256)
  /-- A lodge whose firmware failed keeps the package in reset (R421). -/
  inReset : Bool
  deriving DecidableEq, Repr

/-- A watched page (R322, R323): its physical 64 KiB page, and the device and virtual page by which it is watched. -/
structure Watch where
  page : Nat
  pav : Nat
  vd : Nat
  vpage : Nat
  deriving DecidableEq, Repr

/-- A table entry that the TLBs and the walk cache of a terrace hold (R363): for the device (128 for stage 2) of a pavilion, at a level, for the
index bits of an address down to that level; its word and the address that it was read from. -/
structure HeldEntry where
  terrace : Nat
  pav : Nat
  vd : Nat
  level : Nat
  tag : Nat
  word : Word
  place : Nat
  deriving DecidableEq, Repr

/-- An entry of the model's own schedule (log 3): a step that no bundle holds, or the issue of a bundle by the context that runs in
a core. -/
inductive Turn where
  | event (e : Event)
  | issue (core : Nat)
  deriving DecidableEq, Repr

/-- The package. -/
structure State where
  cores : Table Core
  pavs : Table Pav
  oper : Oper
  /-- Interrupts sent to the host: pavilion, device and vector, the oldest first (R346). -/
  msix : List (Nat × Nat × Nat)
  /-- Loaded images by 65,536 × pavilion + handle (R264). -/
  images : Table Image
  /-- Bytes that the device has written in host memory (R353, R419), and read completions: pavilion, device, status and bytes
  (R354). -/
  host : Memory
  reads : List (Nat × Nat × Nat × List Byte)
  /-- The arbiters (R370): the issue slots of core c are arbiter c, the frame engine of core c 128 + c, its promenade outputs
  256 + 2 c + d, HBM4 stack g 512 + g, LP6 group g 516 + g. -/
  arbs : Table Arb
  /-- Ring messages on their way and credits on their way back (R226). -/
  messages : List RingMsg
  credits : List Credit
  /-- What the joined package has sent to the ports, the oldest first, which the next cycle of the core that it goes to takes (R369). -/
  portIn : List PortInput
  /-- The time that packets of this cycle and of those before still take of the hop over the ring-extension ports (R14), by 2 × direction, with 1
  added for what comes in; in forty-seconds of a nanosecond. -/
  portLoad : Table Nat
  /-- The time since the package reset in forty-seconds of a nanosecond, in which a cycle is 30, 35 or 42 by the mode (R19, R20); the slots of the
  calendars of classes 2 to 4 follow it (R370, R423). -/
  time : Nat
  /-- Global memory by device physical address, as every coherent reader sees it (R313, R359). -/
  mem : Memory
  /-- The tag of each 16-byte granule, by address div 16 (R195). -/
  tags : Table Bool
  /-- The metadata word of each watched line, by address div 64 (R323). -/
  lineMeta : Table Nat
  /-- The pages whose lines have metadata words, each with the page by which it is watched (R323). -/
  watched : List Watch
  /-- Poisoned lines (R360). -/
  poison : Table Bool
  /-- The number of the key that a line's data was last written under (R364). -/
  lineKey : Table Nat
  /-- The lines of each L2 slice (R310). -/
  l2 : Table (Table L2Line)
  /-- The home's bytes of a line that is dirty in L2 (R251, R354). -/
  home : Table HomeLine
  /-- Retired L2 lines: slice, set and way (R401). -/
  retired : List (Nat × Nat × Nat)
  /-- The translations that the terraces hold (R363). -/
  tlb : List HeldEntry
  /-- Ways in reclaim, by slice (R383). -/
  reclaims : Table (List Reclaim)
  /-- Granules of 1 GiB and the pavilion each belongs to (R359). -/
  granules : Table Nat
  /-- Owner key indices (R364). -/
  keys : Table KeyEntry
  /-- The number of the next key that a lodge draws (R364). -/
  keySerial : Nat
  /-- The model's own schedule of the steps that come next (log 3). -/
  agenda : List Turn
  /-- The model's own field: the core that issued last (log 3). -/
  focus : Nat
  /-- The model's own field: the number of free values taken (log 7). -/
  freeCtr : Nat
  /-- The model's own field: the waits of contexts so far, by which the choices of R363 are told apart (log 7). -/
  waits : Nat
  /-- The model's own field: the number of the next operation (log 3). -/
  opId : Nat
  deriving DecidableEq, Repr

/-- An operand latch that nothing has written (R28). -/
def Latch.reset : Latch := ⟨.invalid, 0⟩

/-- The port state of a unit after a context starts (R28). -/
def Port.reset : Port := ⟨.reset, .reset, .reset, none, none⟩

/-- The control registers after the reset of a context (R244). -/
def Ctl.reset : Ctl :=
  { fpflags := 0, gbase := 0, tvec := 0, tcause := 0, tepc := 0, tbranch := 0, tbtgt := 0, hndst := 0, memcnt := 0,
    mxfault := 0, sccfg := 0, loopwd := 0, loopsw := 0, loopst := 0, loopcnt := 0, ddgrant := 0, ddstat := 0, ddfault := 0,
    domclk := [], domcnt := [], qosrem := 0 }

/-- The withdrawable state after the reset of a context (R279). -/
def View.reset : View :=
  { s := [], a := [], v := [], p := 1, k := [], mp := [], emptyS := 0, emptyA := 0, emptyV := 0, stack := [], above := [], cf := [],
    ports := [], hports := [], ctl := .reset, looping := false, flights := [], pending := [], region := 0, acquired := [] }

/-- A tile status after reset (R148). -/
def TileStat.reset : TileStat := { state := 0, rcnt := 0, flags := 0, te := false, err := false }

/-- A t tile after the reset of its context (R148; its descriptor by log 4). -/
def Tile.reset : Tile := ⟨0, .reset⟩

/-- An accumulator element before anything has defined it (log 4). -/
def Acc.reset : Acc := ⟨0, 0, false, false, false, false⟩

/-- A z tile after core reset (R148, R302). -/
def ZTile.reset : ZTile := ⟨none, .reset, .reset, []⟩

/-- A frame slot after core reset (R173). -/
def FrameSlot.reset : FrameSlot := ⟨none, false, 0, 0⟩

/-- A copy template after core reset (R210). -/
def Template.reset : Template := ⟨none, []⟩

/-- A queue after core reset (R223). -/
def Queue.reset : Queue := { base8 := 0, lcap := 0, en := false, head := 0, count := 0, owner := none, gang := none, stamps := [] }

/-- A granted integrator cell when a program is bound (R231). -/
def Cell.reset : Cell := ⟨0, 0, 0, 0, 0, 0, 0⟩

/-- A context after its reset: off, with no program (R279, R420). -/
def Ctx.reset : Ctx :=
  { mode := .off, wait := none, cur := .reset, fin := none, branch := none, untaken := 0, pc := 0, ctime := 0, held := none,
    fence := [], late := [], releases := [], landings := [], undo := [], arithDue := false, overrunDue := false, memErrDue := false, preempt := false,
    asked := none, waited := 0, marker := none, started := false, binding := none, record := none, tiles := [], qa := [], qb := [], cells := [], stepAt := [],
    saved := none, killed := false, keptMx := [], keptSc := [], keptDd := [] }

/-- A core after its reset (R292). -/
def Core.reset : Core :=
  { running := none, taken := none, bubble := none, ctxs := [], cycle := 0, poolpart := 0x27855, pool := [], sectorKey := [], fmt := [], withdrawn := [],
    claims := [], ztiles := [], store := [], mxq := [], mxRun := none, scq := [], scRun := none, mxWait := none, scWait := none, slots := [], frames := [], frameId := 0, frq := [],
    templates := [], cp0q := [], cp1q := [], ddq := [], queues := [], ring := [], spent := [], arrived := [], passed := [], table := [],
    renames := [], walker := none, parked := [], holds := [], heldFor := none, failing := [], removed := false }

/-- A device after its reset (R398). -/
def Dev.reset : Dev :=
  { vdcfg := 0, s1root := 0, wbase := 0, crbase := 0, vdctl := 0, riss := 0, rl2 := 0, rhbm := 0, rlp6 := 0, rfrm := 0,
    rprom := 0, rdwrr := 0, rstat := 0, flog := [], lost := 0, seq := 0, launches := [],
    acc := [], full := [], malf := 0, crhead := 0, crtail := 0, entries := [], served := 15, refused := [], gone := [] }

/-- A pavilion that has just been formed (R358). -/
def Pav.reset : Pav :=
  { formed := false, nvf := 0, stk := 0, lpg := 0, contained := false, vfs := 0, rmclr := [], pavinv := 0, pavlend := 0x101,
    fwctl := 0, fwaddr := 0, atctl := 0, ataddr := 0, imgctl := 0, imgaddr := 0, imgdata := 0, staged := none, slot := none,
    topSvn := 0, m2 := 0, cores := [], visited := none, visitAt := 0, s2root := 0, stbase := 0, devs := [] }

/-- M0 and M1 of both lodges after a package reset (R418, R421), by its number: M1 is the digest of the firmware image that the lodge runs. -/
def measuresAt (n : Nat) : Table (BitVec 256 × BitVec 256) :=
  [(0, (Config.romDigest 0, firmwareDigest (Config.lodgeImage n 0))), (1, (Config.romDigest 1, firmwareDigest (Config.lodgeImage n 1)))]

/-- The operator block after the package reset (R422, R424, R425, R428): Edge mode; the strap and the capacity of a package with no
fault by log 4. -/
def Oper.reset : Oper :=
  { mode := 2, cur := 2, result := 0, go := false, cool := false, auto := false, pwr := 0, holds := 0, hold := false, t0 := 0,
    t1 := 0, twarn := 95, warn := false, trip := false, fullHold := false, tripDue := false, health := [], hcores := 128,
    hbanks := 10240, hlines := 0, pcmd := 0, pcore0 := 0, pcore1 := 0, pmem := 0, rxcfg := 0, calw := 0, calwHeld := none, calendar := [],
    far0 := false, far1 := false, resets := 0, measures := measuresAt 0, inReset := false }

/-- The package right after its reset (R421): no pavilion, every context off. -/
def State.reset : State :=
  { cores := [], pavs := [], oper := .reset, msix := [], images := [], host := [], reads := [], arbs := [], messages := [], credits := [], portIn := [], portLoad := [], time := 0, mem := [], tags := [], lineMeta := [], watched := [],
    poison := [], lineKey := [], l2 := [], home := [], retired := [], tlb := [], reclaims := [], granules := [], keys := [], keySerial := 1,
    agenda := [], focus := 0, freeCtr := 0, waits := 0, opId := 0 }

end Sys2Proof.Machine
end

