-- ==== Sys2Proof/Machine/Ops.lean ====
section
/-!
DEFINITION. The named operations over the state: bytes of memory, registers of a context, the two views of a context under a
taken branch (R37), operations landing (R30 to R32), taking a trap (R42, R246, R391, R394) and returning from one (R248).
-/

namespace Sys2Proof.Machine

/-! ### Memory -/

/-- The byte at an address; an unlisted address reads as 0 (log 5). -/
def Memory.byte (m : Memory) (a : Nat) : Byte := Table.getD m a 0

/-- The memory with a byte written; writing 0 removes the entry. -/
def Memory.setByte (m : Memory) (a : Nat) (b : Byte) : Memory := Table.put 0 m a b

/-- The bytes from an address on. -/
def Memory.bytes (m : Memory) : Nat → Nat → List Byte
  | _, 0 => []
  | a, n + 1 => m.byte a :: Memory.bytes m (a + 1) n

/-- The memory with bytes written from an address on. -/
def Memory.setBytes (m : Memory) : Nat → List Byte → Memory
  | _, [] => m
  | a, b :: bs => Memory.setBytes (m.setByte a b) (a + 1) bs

/-- The number in n bytes from an address on, little-endian (R4). -/
def Memory.nat (m : Memory) : Nat → Nat → Nat
  | _, 0 => 0
  | a, n + 1 => (m.byte a).toNat + 256 * Memory.nat m (a + 1) n

/-- The memory with the low n bytes of a number written from an address on, little-endian (R4). -/
def Memory.setNat (m : Memory) : Nat → Nat → Nat → Memory
  | _, 0, _ => m
  | a, n + 1, x => Memory.setNat (m.setByte a (BitVec.ofNat 8 x)) (a + 1) n (x / 256)

/-- Whether a memory has the canonical form: addresses strictly rising and no entry 0. -/
def Memory.wf (m : Memory) : Bool := Table.risesFrom 0 m && m.all fun c => decide (c.2 ≠ 0)

/-! ### Lanes -/

/-- Lane i of a vector (R121). -/
def lane (v : Vec) (i : Nat) : Lane := v.extractLsb' (32 * i) 32

/-- The number whose lanes, from lane i on, a function gives. -/
def lanesNat (f : Nat → Lane) : Nat → Nat → Nat
  | _, 0 => 0
  | i, n + 1 => (f i).toNat + 2 ^ 32 * lanesNat f (i + 1) n

/-- The vector of 128 lanes that a function gives (R121). -/
def ofLanes (f : Nat → Lane) : Vec := BitVec.ofNat 4096 (lanesNat f 0 128)

/-- The number whose bits, from bit i on, a function gives. -/
def bitsNat (f : Nat → Bool) : Nat → Nat → Nat
  | _, 0 => 0
  | i, n + 1 => b2n (f i) + 2 * bitsNat f (i + 1) n

/-- The mask of 128 bits that a function gives. -/
def ofBits (f : Nat → Bool) : Mask := BitVec.ofNat 128 (bitsNat f 0 128)

/-- A vector with the enabled lanes of another; no mask enables every lane (R124). -/
def blendVec (lanes : Option Mask) (old new : Vec) : Vec :=
  match lanes with
  | none => new
  | some m => ofLanes fun i => if bit m i then lane new i else lane old i

/-- A mask with the enabled bits of another (R124). -/
def blendMask (lanes : Option Mask) (old new : Mask) : Mask :=
  match lanes with
  | none => new
  | some m => (new &&& m) ||| (old &&& ~~~m)

/-! ### Values -/

/-- The low 64 bits of a value: the word itself, or the low bits of a capability. -/
def Value.toWord : Value → Word
  | .word x => x
  | .cap c => c.raw.setWidth 64
  | .vec v => v.setWidth 64
  | .mask m => m.setWidth 64

/-- A value as a capability; only a capability keeps a tag (R80, R102). -/
def Value.toCap : Value → Cap
  | .cap c => c
  | v => ⟨v.toWord.setWidth 128, false⟩

/-- A value as a vector: a word is broadcast, a mask gives 0 and 1 (R80). -/
def Value.toVec : Value → Vec
  | .vec v => v
  | .mask m => ofLanes fun i => BitVec.ofNat 32 (b2n (bit m i))
  | v => ofLanes fun _ => v.toWord.setWidth 32

/-- A value as a mask: a lane that is not 0 gives 1 (R80). -/
def Value.toMask : Value → Mask
  | .mask m => m
  | .vec v => ofBits fun i => lane v i != 0
  | v => v.toWord.setWidth 128

/-- The width class of a value. -/
def Value.width : Value → Width
  | .word _ => .word
  | .cap _ => .cap
  | .vec _ => .vec
  | .mask _ => .mask

/-- Whether a value of one width class adapts to another (R80). -/
def Width.adapts : Width → Width → Bool
  | .word, _ => true
  | .cap, .word => true
  | .cap, .cap => true
  | .vec, .vec => true
  | .vec, .mask => true
  | .mask, .vec => true
  | .mask, .mask => true
  | _, _ => false

/-- A value in another width class; none where R80 says trap. -/
def Value.adapt (w : Width) (v : Value) : Option Value :=
  if v.width.adapts w then
    match w with
    | .word => some (.word v.toWord)
    | .cap => some (.cap v.toCap)
    | .vec => some (.vec v.toVec)
    | .mask => some (.mask v.toMask)
  else none

/-! ### Registers of a view -/

/-- The width class of a register file (R44). -/
def fileWidth : RFile → Width
  | .s => .word
  | .v => .vec
  | .a => .cap
  | .p => .word
  | .k => .mask
  | .mp => .word

/-- Predicate n; p0 always reads 1 (R45). -/
def View.pred (w : View) (n : Nat) : Bool := n == 0 || bit w.p n

/-- The content of a register (R44). -/
def View.readReg (w : View) (f : RFile) (n : Nat) : Value :=
  match f with
  | .s => .word (w.s.getD n 0)
  | .v => .vec (w.v.getD n 0)
  | .a => .cap (w.a.getD n ⟨0, false⟩)
  | .p => .word (BitVec.ofNat 64 (b2n (w.pred n)))
  | .k => .mask (w.k.getD n 0)
  | .mp => .word (w.mp.getD n 0)

/-- Whether a register is marked empty (R33). -/
def View.isEmpty (w : View) (f : RFile) (n : Nat) : Bool :=
  match f with
  | .s => bit w.emptyS n
  | .a => bit w.emptyA n
  | .v => bit w.emptyV n
  | _ => false

/-- Bit n of a bit vector set to a truth value. -/
def putBit {w : Nat} (x : BitVec w) (n : Nat) (b : Bool) : BitVec w :=
  if b then x ||| BitVec.ofNat w (2 ^ n) else x &&& ~~~(BitVec.ofNat w (2 ^ n))

/-- Mark a register empty (R31) or full (R32). -/
def View.markEmpty (w : View) (f : RFile) (n : Nat) (b : Bool) : View :=
  match f with
  | .s => { w with emptyS := putBit w.emptyS n b }
  | .a => { w with emptyA := putBit w.emptyA n b }
  | .v => { w with emptyV := putBit w.emptyV n b }
  | _ => w

/-- Predicate n set or cleared; a write to p0 is discarded (R45). -/
def View.setPred (w : View) (n : Nat) (b : Bool) : View := if n = 0 then w else { w with p := putBit w.p n b }

/-- A register written, in the lanes of a mask if there is one, and marked full (R32, R124). A predicate receives 1 for a value
that is not 0 (R107, R109). -/
def View.writeReg (w : View) (f : RFile) (n : Nat) (v : Value) (lanes : Option Mask) : View :=
  match f with
  | .s => View.markEmpty { w with s := w.s.set n v.toWord } .s n false
  | .a => View.markEmpty { w with a := w.a.set n v.toCap } .a n false
  | .v => View.markEmpty { w with v := w.v.set n (blendVec lanes (w.v.getD n 0) v.toVec) } .v n false
  | .p => w.setPred n (v.toWord != 0)
  | .k => { w with k := w.k.set n (blendMask lanes (w.k.getD n 0) v.toMask) }
  | .mp => { w with mp := w.mp.set n v.toWord }

/-! ### Port state -/

/-- Whether the handler runs: HNDST.IN (R246). -/
def View.inHandler (w : View) : Bool := bit w.ctl.hndst 0

/-- The port state of a unit in the handler set or the main set (R254). -/
def View.portOf (w : View) (h : Bool) (u : UnitId) : Port :=
  if h then w.hports.getD u.num .reset else w.ports.getD u.num .reset

/-- The port state of a unit changed in the handler set or the main set (R254). -/
def View.setPortOf (w : View) (h : Bool) (u : UnitId) (p : Port) : View :=
  if h then { w with hports := w.hports.set u.num p } else { w with ports := w.ports.set u.num p }

/-- The port state of a unit in the set that moves address: the handler set while the handler runs (R254). -/
def View.port (w : View) (u : UnitId) : Port := w.portOf w.inHandler u

/-- The port state of a unit changed, in the set that moves address (R254). -/
def View.setPort (w : View) (u : UnitId) (p : Port) : View := w.setPortOf w.inHandler u p

/-- Latch i of a port, i from 1 to 3 (R25). -/
def Port.latch (p : Port) (i : Nat) : Latch := if i = 1 then p.o1 else if i = 2 then p.o2 else p.o3

/-- Latch i of a port changed. -/
def Port.setLatch (p : Port) (i : Nat) (l : Latch) : Port :=
  if i = 1 then { p with o1 := l } else if i = 2 then { p with o2 := l } else { p with o3 := l }

/-- A latch of a unit written (R27). -/
def View.setLatch (w : View) (u : UnitId) (i : Nat) (c : LatchContent) : View :=
  w.setPort u ((w.port u).setLatch i { (w.port u).latch i with content := c })

/-- The step of a latch written (R27). -/
def View.setStep (w : View) (u : UnitId) (i : Nat) (x : Word) : View :=
  w.setPort u ((w.port u).setLatch i { (w.port u).latch i with step := x })

/-- The destination selector of a unit written (R26). -/
def View.setSel (w : View) (u : UnitId) (r : RegRef) : View := w.setPort u { w.port u with sel := some r }

/-- The result port of a unit written, in the lanes of a mask if there is one (R28, R124). DESIGN CHOICE (log 31): a disabled lane keeps the
port's value as R80 adapts it to the width class of the new result, and 0 of a port that was invalid. -/
def View.setRes (w : View) (h : Bool) (u : UnitId) (v : Value) (lanes : Option Mask) : View :=
  let old := (w.portOf h u).res
  let new : Value :=
    match v, old with
    | .vec n, some o => .vec (blendVec lanes o.toVec n)
    | .vec n, none => .vec (blendVec lanes 0 n)
    | .mask n, some o => .mask (blendMask lanes o.toMask n)
    | .mask n, none => .mask (blendMask lanes 0 n)
    | v, _ => v
  w.setPortOf h u { w.portOf h u with res := some new }

/-! ### Control registers of a context -/

/-- A control register that its context holds (R244). -/
def Ctl.read (c : Ctl) (n : Nat) : Word :=
  if n = 0x000 then c.fpflags
  else if n = 0x001 then c.gbase
  else if n = 0x002 then c.tvec
  else if n = 0x003 then c.tcause
  else if n = 0x004 then c.tepc
  else if n = 0x005 then c.tbranch
  else if n = 0x006 then c.tbtgt
  else if n = 0x007 then c.hndst
  else if n = 0x008 then c.memcnt
  else if n = 0x00A then c.mxfault
  else if n = 0x00B then c.sccfg
  else if n = 0x00C then c.loopwd
  else if n = 0x00D then c.loopsw
  else if n = 0x00E then c.loopst
  else if n = 0x00F then c.loopcnt
  else if n = 0x010 then c.ddgrant
  else if n = 0x011 then c.ddstat
  else if n = 0x012 then c.ddfault
  else if 0x018 ≤ n ∧ n < 0x020 then c.domclk.getD (n - 0x018) 0
  else if 0x020 ≤ n ∧ n < 0x028 then c.domcnt.getD (n - 0x020) 0
  else if n = 0x0A0 then c.qosrem
  else 0

/-- The bits of a word inside a mask taken from another word. -/
def setBits (mask old new : Word) : Word := (old &&& ~~~mask) ||| (new &&& mask)

/-- A control register of a context written by its map, or QOSREM by QOS: RW fields are set, W1C bits clear where 1 is written, RO and reserved
fields stay (R5, R6, R245). A 1 to MXFAULT.V clears every field but MOVR (R161). -/
def Ctl.write (c : Ctl) (n : Nat) (x : Word) : Ctl :=
  if n = 0x000 then { c with fpflags := c.fpflags &&& ~~~(x &&& 0xFF) }
  else if n = 0x001 then { c with gbase := x &&& 0x7F }
  else if n = 0x002 then { c with tvec := x &&& ~~~0x6 }
  else if n = 0x004 then { c with tepc := x }
  else if n = 0x005 then { c with tbranch := x &&& 0x3 }
  else if n = 0x006 then { c with tbtgt := x }
  else if n = 0x008 then { c with memcnt := x }
  else if n = 0x00A then
    let v := if bit x 7 then c.mxfault &&& 0x80000000 else c.mxfault
    { c with mxfault := if bit x 31 then v &&& ~~~0x80000000 else v }
  else if n = 0x00B then { c with sccfg := x &&& 0x3FFFFFFFFFFFFF }
  else if n = 0x00C then { c with loopwd := x &&& 0x1FFFFFFFFFFFF }
  else if n = 0x00D then { c with loopsw := x }
  else if n = 0x00E then { c with loopst := x &&& 0x7FFFFFFF }
  else if n = 0x00F then { c with loopcnt := x }
  else if n = 0x011 then { c with ddstat := c.ddstat &&& ~~~(x &&& 0x7) }
  else if n = 0x012 then { c with ddfault := c.ddfault &&& ~~~(x &&& 0x1) }
  else if 0x018 ≤ n ∧ n < 0x020 then
    { c with domclk := c.domclk.set (n - 0x018) (setBits 0xFFFFFFFF0004FFFF (c.domclk.getD (n - 0x018) 0) x) }
  else if 0x020 ≤ n ∧ n < 0x028 then
    { c with domcnt := c.domcnt.set (n - 0x020) (setBits 0xFFFFFFFF (c.domcnt.getD (n - 0x020) 0) x) }
  else if n = 0x0A0 then { c with qosrem := x }
  else c

/-- FPFLAGS bits raised (R52). -/
def View.raise (w : View) (b : Nat) : View :=
  { w with ctl := { w.ctl with fpflags := w.ctl.fpflags ||| BitVec.ofNat 64 b } }

/-! ### The package -/

/-- A context of a core. -/
structure Loc where
  core : Nat
  ctx : Nat
  deriving DecidableEq, Repr

/-- A core; cores that nothing has touched are as after reset. -/
def State.core (s : State) (c : Nat) : Core := s.cores.getD c .reset

/-- A core changed. -/
def State.setCore (s : State) (c : Nat) (k : Core) : State := { s with cores := s.cores.set c k }

/-- A context of a core. -/
def Core.ctx (k : Core) (x : Nat) : Ctx := k.ctxs.getD x .reset

/-- A context of a core changed. -/
def Core.setCtx (k : Core) (x : Nat) (t : Ctx) : Core := { k with ctxs := k.ctxs.set x t }

/-- A context. -/
def State.ctx (s : State) (l : Loc) : Ctx := (s.core l.core).ctx l.ctx

/-- A context changed. -/
def State.setCtx (s : State) (l : Loc) (t : Ctx) : State := s.setCore l.core ((s.core l.core).setCtx l.ctx t)

/-- A pavilion. -/
def State.pav (s : State) (n : Nat) : Pav := s.pavs.getD n .reset

/-- A pavilion changed. -/
def State.setPav (s : State) (n : Nat) (p : Pav) : State := { s with pavs := s.pavs.set n p }

/-- A virtual device. -/
def State.dev (s : State) (n d : Nat) : Dev := (s.pav n).devs.getD d .reset

/-- A virtual device changed. -/
def State.setDev (s : State) (n d : Nat) (x : Dev) : State :=
  s.setPav n { s.pav n with devs := (s.pav n).devs.set d x }

/-- An arbiter before anything has reached it (R372). -/
def Arb.reset : Arb := ⟨0, 0, [], [], [], [], []⟩

/-- The slots of an arbiter of classes 2 to 4 that a time since the package reset holds (R370): 31.25, 8.086 and 4 a nanosecond, whatever the
mode (R423). The slots of classes 0 and 5 are core cycles. -/
def slotsBefore (n time : Nat) : Nat :=
  time * (if n < 128 then 0 else if n < 256 then 4000 else if n < 512 then 0 else if n < 516 then 31250 else 8086) / 42000

/-- An arbiter (R370): one that nothing has reached yet is at the slot of the time. -/
def State.arb (s : State) (n : Nat) : Arb := s.arbs.getD n { Arb.reset with slot := slotsBefore n s.time % 1024 }

/-- An arbiter changed. -/
def State.setArb (s : State) (n : Nat) (a : Arb) : State := { s with arbs := s.arbs.set n a }

/-- The number of a device among the devices of the package, in the order of R371. -/
def devKey (pav vd : Nat) : Nat := 128 * pav + vd

/-- A signed count of 32 bits that saturates (R372, R384). -/
def satCount (x : Int) : Int := max (-(2 ^ 31)) (min (2 ^ 31 - 1) x)

/-- The bucket of a device at an arbiter (R372). -/
def Arb.bucket (a : Arb) (key : Nat) : Int := a.tok.getD key 0

/-- A bucket changed by some tokens. -/
def Arb.addTokens (a : Arb) (key : Nat) (n : Int) : Arb := { a with tok := a.tok.set key (satCount (a.bucket key + n)) }

/-- RDWRR.DEF (R384). -/
def Dev.deficit (d : Dev) : Int := (BitVec.ofNat 32 (bits d.rdwrr 63 32)).toInt

/-- RDWRR.DEF changed. -/
def Dev.setDeficit (d : Dev) (x : Int) : Dev :=
  { d with rdwrr := BitVec.ofNat 64 (bits d.rdwrr 31 0 + (BitVec.ofInt 32 (satCount x)).toNat * 2 ^ 32) }

/-- Cycles charged to a device and counted for a task (R385, R386). -/
def State.measured (s : State) (core : Nat) (b : Binding) (n : Nat) : State :=
  let d := s.dev b.pav b.vd
  let s1 := s.setDev b.pav b.vd (d.setDeficit (d.deficit - n))
  let k := s1.core core
  s1.setCore core { k with table := k.table.map fun t => if t.id = b.task then { t with cycles := t.cycles + n } else t }

/-- A fresh operation number. -/
def State.freshId (s : State) : Nat × State := (s.opId, { s with opId := s.opId + 1 })

/-- The number of a free value, and the state that has taken it (log 7). -/
def State.takeFree (s : State) : Nat × State := (s.freeCtr, { s with freeCtr := s.freeCtr + 1 })

/-- Change the withdrawable state of a context: a provisional effect reaches only what its moves see, any other also what stays
when the branch resolves (R37, log 11). -/
def Ctx.onView (t : Ctx) (prov : Bool) (f : View → View) : Ctx :=
  { t with cur := f t.cur, fin := if prov then t.fin else t.fin.map f }

/-- Change the withdrawable state of a context of the package. -/
def State.onView (s : State) (l : Loc) (prov : Bool) (f : View → View) : State :=
  s.setCtx l ((s.ctx l).onView prov f)

/-- The number of vector registers of a context by its POOLPART field (R292). -/
def Core.vcount (k : Core) (x : Nat) : Nat :=
  let f := bits k.poolpart (2 * x + 1) (2 * x)
  if f = 0 then 16 else if f = 1 then 32 else 64

/-- The size of a register file in a context (R26, R44). -/
def fileSize (vc : Nat) : RFile → Nat
  | .s => 64
  | .v => vc
  | .a => 32
  | .p => 128
  | .k => 8
  | .mp => 8

/-! ### Banks that pass on (R207, R298, R300) -/

/-- The number of a context in metadata words (R323). -/
def Loc.phys (l : Loc) : Nat := 4 * l.core + l.ctx

/-- The end of a region by a release (R324). -/
def View.endRegion (w : View) : View := { w with region := (w.region + 1) % 32 }

/-- A release ends the region in force (R324). -/
def State.release (s : State) (l : Loc) : State := s.onView l false View.endRegion

/-- What a release of a context carries: its number and the region that it ends (R324). -/
def State.stampOf (s : State) (l : Loc) : Nat × Nat := (l.phys, (s.ctx l).cur.region)

/-- A range of banks without a bank, as the ranges on both sides of it. -/
def dropBank (b : Nat) (rs : List (Nat × Nat)) : List (Nat × Nat) :=
  rs.flatMap fun r =>
    if r.1 ≤ b ∧ b < r.1 + r.2 then
      (if r.1 < b then [(r.1, b - r.1)] else []) ++ (if b + 1 < r.1 + r.2 then [(b + 1, r.1 + r.2 - b - 1)] else [])
    else [r]

/-- A bank leaves the ranges of a task's table entry (R298). -/
def Core.leaveRanges (k : Core) (task b : Nat) : Core :=
  { k with table := k.table.map fun t =>
      if t.id = task then { t with reads := dropBank b t.reads, writes := dropBank b t.writes } else t }

/-- The releases that a program acquired with a bank when its claim became held (R300). -/
def Core.takenWith (k : Core) (prog b : Nat) : List (Nat × Nat) :=
  (k.claims.filter fun c => c.prog == prog && c.bank == b).flatMap Claim.taken

/-- A bank is released by a context that ends a region (R300, R324): the release stands for those that its program acquired with the bank. -/
def Core.passOn (k : Core) (prog b : Nat) (stamp : Nat × Nat) : Core :=
  { k with passed := k.passed.set b (Table.set ((k.passed.getD b []).filter fun e => !(k.takenWith prog b).contains e) stamp.1 stamp.2) }

/-- The claims of a program on a bank are gone (R207). -/
def Core.dropClaims (k : Core) (prog b : Nat) : Core :=
  { k with claims := k.claims.filter fun c => !(c.prog == prog && c.bank == b) }

/-- The program of a context releases banks (R207): its claims are gone, the banks leave its table entry and pass on, and a region ends. -/
def State.releaseBanks (s : State) (l : Loc) (bs : List Nat) : State :=
  match (s.ctx l).binding with
  | some b =>
    (s.setCore l.core (bs.foldl (fun k n => ((k.passOn b.prog n (s.stampOf l)).dropClaims b.prog n).leaveRanges b.task n) (s.core l.core))).release l
  | none => s

/-- The releases of a context that have become final (R37, R207): those due before a context time. -/
def State.finalReleases (s : State) (l : Loc) (time : Nat) : State :=
  let x := s.ctx l
  let due := x.releases.filter fun e => decide (e.1 < time)
  due.foldl (fun s e => s.releaseBanks l e.2) (s.setCtx l { x with releases := x.releases.filter fun e => !decide (e.1 < time) })

/-! ### The candidate file -/

/-- An FP32 value as an integer that orders finite values and infinities, with +0 and −0 equal. -/
def fpKey (x : Lane) : Int := if bit x 31 then - (Int.ofNat (bits x 30 0)) else Int.ofNat (bits x 30 0)

/-- Whether an FP32 value is a NaN (R48). -/
def isNaN (x : Lane) : Bool := bits x 30 23 == 255 && bits x 22 0 != 0

/-- Whether a candidate ranks strictly before another, by score and identifier (R140). -/
def ranksBefore (p q : Word) : Bool :=
  let sp := fpKey (p.setWidth 32)
  let sq := fpKey (q.setWidth 32)
  sp > sq || (sp == sq && bits p 63 32 < bits q 63 32)

/-- Insert a new candidate after every one that does not rank after it (R140). -/
def rankInsert (c : Word) : List Word → List Word
  | [] => [c]
  | d :: ds => if ranksBefore c d then c :: d :: ds else d :: rankInsert c ds

/-- The candidate word of a score and an identifier (R139). -/
def candidateWord (score id : Lane) : Word := id ++ score

/-- Merge new candidates, in lane order, into a file (R141); NaN scores do not take part. -/
def mergeCandidates (cands : List (Lane × Lane)) (file : List Word) : List Word :=
  ((cands.filter fun c => !isNaN c.1).foldl (fun f c => rankInsert (candidateWord c.1 c.2) f) file).take 64

/-- The empty word of the candidate file (R139). -/
def emptyCandidate : Word := 0xFFFFFFFFFF800000

/-- Entry j of the candidate file (R139). -/
def View.candidate (w : View) (j : Nat) : Word := w.cf.getD j emptyCandidate

/-- The result of CMERGE: the score of cf.63 if the file is full, and the count (R141). -/
def View.mergeResult (w : View) : Word :=
  let score : Lane := if w.cf.length = 64 then (w.candidate 63).setWidth 32 else 0xFF800000
  BitVec.ofNat 64 (score.toNat + w.cf.length * 2 ^ 32)

/-! ### Effects at the result time -/

/-- Write a result to its register and to unit.res (R27, R28). -/
def View.deliver (w : View) (h : Bool) (u : UnitId) (dest : Option (RFile × Nat)) (v : Value) (lanes : Option Mask) : View :=
  let w' :=
    match dest with
    | some (f, n) => w.writeReg f n v lanes
    | none => w
  w'.setRes h u v lanes

/-- The depth of the mask stack set (R135): the entries stand where they stood. -/
def View.setDepth (w : View) (d : Nat) : View :=
  let off := w.stack.length - d
  let on := ((List.range (d - w.stack.length)).map fun i => w.above.getD i 0).reverse
  { w with stack := on ++ w.stack.drop off, above := (w.stack.take off).reverse ++ w.above.drop (d - w.stack.length) }

/-- Entry n of the mask stack written, below the top or above it (R135). -/
def View.setEntry (w : View) (n : Nat) (m : Mask) : View :=
  if n ≤ w.stack.length then { w with stack := w.stack.set (w.stack.length - n) m }
  else
    let i := n - w.stack.length - 1
    { w with above := (w.above ++ List.replicate (i + 1 - w.above.length) 0).set i m }

/-- MEMCNT.LFULL counts a refused launch (R208, R228). -/
def View.countLaunchFull (w : View) : View :=
  let n := min (bits w.ctl.memcnt 63 32 + 1) (2 ^ 32 - 1)
  { w with ctl := { w.ctl with memcnt := BitVec.ofNat 64 (bits w.ctl.memcnt 31 0 + n * 2 ^ 32) } }

/-- One effect of an operation (R30, R52, R136, R141, R142, R228). DESIGN CHOICE (log 31): an operation on the mask stack sets the depth and
writes the entry that its trigger found, and one on the candidate file acts on the file without the effects that a taken branch withdraws
and delivers the result of that. -/
def View.effect (h : Bool) (w : View) : Eff → View
  | .reg f n v lanes => w.writeReg f n v lanes
  | .res u v lanes => w.setRes h u v lanes
  | .flags b => w.raise b
  | .ctl n x => { w with ctl := w.ctl.write n x }
  | .startLoop => { w with looping := true }
  | .stack depth put =>
    let w1 := match depth with | some d => w.setDepth d | none => w
    match put with | some e => w1.setEntry e.1 e.2 | none => w1
  | .launchFull => w.countLaunchFull
  | .merge u dest empty cands =>
    let w1 := { w with cf := mergeCandidates cands (if empty then [] else w.cf) }
    let w2 := if cands.any (fun c => isNaN c.1) then w1.raise 1 else w1
    w2.deliver h u dest (.word w2.mergeResult) none
  | .threshold u dest x lanes =>
    let thr := fpKey ((w.candidate 63).setWidth 32)
    let r := ofLanes fun i =>
      BitVec.ofNat 32 (b2n (!isNaN (lane x i) && (w.cf.length < 64 || fpKey (lane x i) > thr)))
    w.deliver h u dest (.vec r) (some lanes)
  | .candidate u dest j => w.deliver h u dest (.word (w.candidate j)) none
  | .clear u dest =>
    ({ w with cf := [] } : View).deliver h u dest (.word (BitVec.ofNat 64 w.cf.length)) none

/-- The effects of the operations due at a context time, in trigger order (R30, R32). -/
def View.land (w : View) (t : Nat) : View :=
  let due := w.flights.filter fun f => f.due ≤ t
  due.foldl (fun w f => f.effs.foldl (View.effect f.hset) w) { w with flights := w.flights.filter fun f => ¬ f.due ≤ t }

/-- Put an operation into a list after those that are due no later. -/
def insertByDue (f : Flight) : List Flight → List Flight
  | [] => [f]
  | g :: gs => if f.due < g.due then f :: g :: gs else g :: insertByDue f gs

/-- Operations ordered by result time, those of one time in trigger order (R32). -/
def sortByDue (fs : List Flight) : List Flight := fs.foldl (fun acc f => insertByDue f acc) []

/-- Complete every operation in flight (R42). -/
def View.complete (w : View) : View :=
  (sortByDue w.flights).foldl (fun w f => f.effs.foldl (View.effect f.hset) w) { w with flights := [] }

/-! ### Taking a trap -/

/-- The classes of R389. -/
inductive TrapClass where
  | emptyRead | illegal | sequence | capability | translation | mmrace | arithmetic | overrun | sparse | software | memory
  deriving DecidableEq, Repr

/-- The class code of R389. -/
def TrapClass.code : TrapClass → Nat
  | .emptyRead => 1
  | .illegal => 2
  | .sequence => 3
  | .capability => 4
  | .translation => 5
  | .mmrace => 6
  | .arithmetic => 7
  | .overrun => 8
  | .sparse => 9
  | .software => 10
  | .memory => 11

/-- A trap: its class, its cause (R395 to R397), the two record words (R391), the code of a software trap and the boundary traps
delivered with it (R390). -/
structure Trap where
  cls : TrapClass
  cause : Nat
  w62 : Word
  w63 : Word
  code : Nat
  pend : Nat
  deriving DecidableEq, Repr

/-- An illegal-encoding trap with a cause (R395). -/
def illegal (cause : Nat) : Trap := ⟨.illegal, cause, 0, 0, 0, 0⟩
/-- A sequence trap with a cause (R396). -/
def sequenceTrap (cause : Nat) : Trap := ⟨.sequence, cause, 0, 0, 0, 0⟩
/-- A capability fault with a cause and the address that failed (R391, R397). -/
def capTrap (cause : Nat) (addr : Word) : Trap := ⟨.capability, cause, addr, 0, 0, 0⟩
/-- The EMPTYREAD trap (R33). -/
def emptyReadTrap : Trap := ⟨.emptyRead, 0, 0, 0, 0, 0⟩

/-- Whether a trap may enter the tenant's handler (R389): not an illegal encoding, not fetch bounds, not a translation of KIND 6,
not a memory error. KIND is the low three bits of the failure code. -/
def Trap.catchable (t : Trap) : Bool :=
  match t.cls with
  | .illegal | .memory => false
  | .capability => t.cause != 7
  | .translation => t.cause % 8 != 6
  | _ => true

/-- The TCAUSE word of a trap (R390). -/
def Trap.word (t : Trap) (slot : Nat) (boundary : Bool) : Word :=
  BitVec.ofNat 64 (t.cls.code + t.cause * 2 ^ 4 + slot * 2 ^ 12 + b2n boundary * 2 ^ 15 + t.code * 2 ^ 16 + t.pend * 2 ^ 32)

/-- Whether writes to the operator block are ignored: while a command or a calendar write is in progress (R357, R380), and in a package that
does not leave reset (R421). -/
def Oper.locked (o : Oper) : Bool := bit o.pcmd 15 || bit o.calw 26 || o.inReset

/-- The time of a core cycle in a power mode, in forty-seconds of a nanosecond: 1.4, 1.2 and 1.0 GHz (R19). -/
def cycleTime (mode : Nat) : Nat := if mode = 0 then 30 else if mode = 1 then 35 else 42

/-- Whether a command of the operator block is in progress with an operation (R357). -/
def Oper.runs (o : Oper) (op : Nat) : Bool := bit o.pcmd 15 && bits o.pcmd 2 0 == op

/-- Whether the sequencer or the scan engine of a core may start an operation in a cycle: not in the full hold of R425, and in the hold of
R424 only after the 256 cycles that it has waited with that operation. -/
def Oper.mayStart (o : Oper) (wait : Option (Nat × Nat)) (op cycle : Nat) : Bool :=
  !o.fullHold && (!o.hold || match wait with | some w => w.1 == op && decide (w.2 ≤ cycle) | none => false)

/-- The wait with an operation that may not start yet: the 256 cycles of R424 begin where they have not begun. -/
def Oper.startWait (o : Oper) (wait : Option (Nat × Nat)) (op cycle : Nat) : Option (Nat × Nat) :=
  if o.fullHold || wait.any (·.1 == op) then wait else some (op, cycle + 256)

/-- A health counter counts an event (R427): 0 HTRANS, 1 HLINE, 2 HBANK, 3 HCORE, 4 HPOIS, 5 HFRAME, 6 HWDOG. -/
def State.countHealth (s : State) (n : Nat) : State :=
  let h := s.oper.health.getD n ⟨0, 0⟩
  { s with oper := { s.oper with
      health := s.oper.health.set n ⟨min (h.now + 1) (2 ^ 32 - 1), min (h.life + 1) (2 ^ 32 - 1)⟩ } }

/-- Post a fault record to the log of a device: its number is taken even where 64 records are held and it is lost; MSI-X vector 1
is sent (R398). -/
def State.post (s : State) (pav vd : Nat) (r : FaultRec) : State :=
  let d := s.dev pav vd
  let d' : Dev :=
    if d.flog.length < 64 then { d with flog := d.flog ++ [{ r with seq := d.seq }], seq := (d.seq + 1) % 2 ^ 32 }
    else { d with lost := min (d.lost + 1) (2 ^ 32 - 1), seq := (d.seq + 1) % 2 ^ 32 }
  let s' := s.setDev pav vd d'
  { s' with msix := s'.msix ++ [(pav, vd, 1)] }

/-- The state of a context at trap entry, before the handler or the lodge (R41, R42): provisional effects are withdrawn and
every fixed-latency operation completes. -/
def Ctx.settle (t : Ctx) : Ctx :=
  { t with cur := (t.fin.getD t.cur).complete, fin := none, branch := none, held := none, wait := none }

/-- The context after entry into the tenant's handler (R41, R246, R391): TEPC, TCAUSE, TBRANCH, TBTGT, s62 and s63 are written,
SGBASE receives GBASE, GBASE becomes 0, IN becomes 1, the handler set of port state is invalid and the next bundle is at
8 × HADDR. -/
def Ctx.enterHandler (t : Ctx) (tcause tepc w62 w63 : Word) : Ctx :=
  let u := t.settle
  let c := u.cur.ctl
  let c' : Ctl :=
    { c with
      tepc := tepc
      tcause := tcause
      tbranch := BitVec.ofNat 64 (match t.branch with | some (d, _) => d | none => 0)
      tbtgt := match t.branch with | some (_, tgt) => tgt | none => c.tbtgt
      hndst := BitVec.ofNat 64 (1 + 2 * bits c.gbase 6 0)
      gbase := 0 }
  let w := ({ u.cur with ctl := c', hports := [], looping := false } : View).writeReg .s 62 (.word w62) none
  { u with cur := w.writeReg .s 63 (.word w63) none, pc := c.tvec &&& ~~~0x7 }

/-- The context after a trap is delivered to the lodge (R394): halted with no save; the lodge keeps the record; a pending
pre-emption request is met. -/
def Ctx.toLodge (t : Ctx) (tcause tepc w62 w63 : Word) : Ctx :=
  let u := t.settle
  { u with
    mode := .halted
    preempt := false
    asked := none
    record := some
      { tcause := tcause, tepc := tepc, w62 := w62, w63 := w63,
        tbranch := BitVec.ofNat 64 (match t.branch with | some (d, _) => d | none => 0),
        tbtgt := match t.branch with | some (_, tgt) => tgt | none => u.cur.ctl.tbtgt } }

/-- A word of the core as it was before. -/
def Core.putBack (k : Core) : CoreWord → Core
  | .queue n q => { k with queues := k.queues.set n q }
  | .format n f => { k with fmt := k.fmt.set n f }

/-- The core words of provisional CRW moves put back (R37, R245). -/
def State.restoreCore (s : State) (l : Loc) (undo : List CoreWord) : State :=
  match undo with
  | [] => s
  | _ => s.setCore l.core (undo.foldl Core.putBack (s.core l.core))

/-- The cycles beyond 11,200 from a request of the dispatcher to the halt that meets it are charged to the device (R387). -/
def State.chargeOverrun (s : State) (l : Loc) : State :=
  match (s.ctx l).asked, (s.ctx l).binding with
  | some t, some b =>
    let excess := (s.core l.core).cycle - t - 11200
    if excess = 0 then s
    else
      let d := s.dev b.pav b.vd
      let ovr := min (bits d.rstat 63 32 + excess) (2 ^ 32 - 1)
      s.setDev b.pav b.vd
        { d.setDeficit (d.deficit - Int.ofNat excess) with rstat := BitVec.ofNat 64 (bits d.rstat 31 0 + ovr * 2 ^ 32) }
  | _, _ => s

/-- Take a trap at a context (R42, R246, R394): a catchable trap with TVEC.EN = 1 and HNDST.IN = 0 enters the handler, any other
goes to the lodge, which posts a record of ORIGIN 5 (R399). TEPC receives the given address. -/
def State.takeTrap (s : State) (l : Loc) (t : Trap) (slot : Nat) (boundary : Bool) (tepc : Word) : State :=
  let s0 := (s.restoreCore l (s.ctx l).undo).finalReleases l ((s.ctx l).untaken + 1)
  let x := { s0.ctx l with undo := [] }
  let cause := t.word slot boundary
  let c := (x.fin.getD x.cur).complete.ctl
  if t.catchable && bit c.tvec 0 && !bit c.hndst 0 then s0.setCtx l (x.enterHandler cause tepc t.w62 t.w63)
  else
    let s1 := (s0.chargeOverrun l).setCtx l (x.toLodge cause tepc t.w62 t.w63)
    let k := s1.core l.core
    let s2 := if k.running = some l.ctx then s1.setCore l.core { k with running := none } else s1
    match x.binding with
    | some b => s2.post b.pav b.vd ⟨5, t.cls.code, t.cause, l.core, l.ctx, 0, 0, tepc⟩
    | none => s2

/-- Return from the handler at the boundary after the bundle of RTE (R41, R248): GBASE := SGBASE, IN := 0 and SGBASE stays, the next bundle is
at TEPC; with DIDX 1 or 2 the taken
branch is pending again, and with LOOPST.ACTIVE = 1 the replay goes on (R117). DESIGN CHOICE (log 31): where a handler has changed only one of
TEPC and LOOPST.BIDX, the bundle is that at TEPC and the count of the body goes on from BIDX. -/
def Ctx.returnFromTrap (t : Ctx) : Ctx :=
  let c := t.cur.ctl
  let c' : Ctl := { c with gbase := BitVec.ofNat 64 (bits c.hndst 7 1), hndst := c.hndst &&& ~~~0x1 }
  let w := { t.cur with ctl := c', looping := bit c.loopst 30 }
  let d := bits c.tbranch 1 0
  if d = 1 ∨ d = 2 then { t with cur := w, fin := some w, branch := some (d, c.tbtgt), pc := c.tepc }
  else { t with cur := w, fin := none, branch := none, pc := c.tepc }

end Sys2Proof.Machine
end

