-- ==== Sys2Proof/Machine/Operands.lean ====
section
/-!
DEFINITION. Every operand form: which sources, register files and result ports a bus class connects (R86), what a source reads
(R78, R79), the operand ports of each unit (R97, R122, R143, R170, R191, R240), register-reference words (R26), latches and
selectors (R27, R28), and the register numbers of a loop body (R114).
-/

namespace Sys2Proof.Machine

/-- Why a move is an illegal encoding, by the codes of R395. -/
abbrev Cause := Nat

/-- The register files that a bus class connects as sources (R86). -/
def busReads : Bus → List RFile
  | .scalar => [.s, .a, .mp, .p]
  | .vector => [.s, .v, .k]
  | .special => [.s, .v, .mp]
  | .memory => [.s, .a, .v]

/-- The register files that a bus class connects as destinations (R86). -/
def busWrites : Bus → List RFile
  | .scalar => [.s, .a, .mp]
  | .vector => [.v, .k]
  | .special => [.s, .v, .mp]
  | .memory => [.s, .a, .v]

/-- The width of the value latch oI of a kind of unit; none where the unit has no such latch (R97, R122, R143, R170, R191, R240).
A latch has a step port exactly when it is a word latch. -/
def unitLatch : UnitKind → Nat → Option Width
  | .sx, 1 | .sx, 2 => some .word
  | .sx, 3 => some .cap
  | .br, 1 | .pd, 1 | .im, 1 => some .word
  | .vx, 1 | .vx, 2 => some .vec
  | .sf, 1 | .so, 1 => some .vec
  | .mx, 1 | .mx, 2 | .sc, 1 | .sc, 2 | .fr, 1 | .fr, 2 | .dd, 1 | .dd, 2 => some .word
  | .ls, 1 | .atm, 1 => some .cap
  | .ls, 2 | .atm, 2 => some .word
  | .ls, 3 => some .vec
  | .atm, 3 => some .cap
  | .cp, 1 | .cp, 2 | .qs, 1 | .tb, 1 => some .word
  | _, _ => none

/-- Whether a kind of unit has a destination selector (R97, R122, R143, R170, R191, R240). -/
def unitHasSel : UnitKind → Bool
  | .cp => false
  | _ => true

/-- The 20-bit value of an immediate slot of the bundle (R78). -/
def immAt (items : List Item) (slot : Nat) : Option (BitVec 20) :=
  match items[slot]? with
  | some (.imm v) => some v
  | _ => none

/-- The register number of a move of a loop body in pass i: n + i × step modulo the size of the file (R114). -/
def rotate (size n pass : Nat) (step : Int) : Nat :=
  ((Int.ofNat n + Int.ofNat pass * step) % Int.ofNat size).toNat

/-- A four-bit field of the step word as a signed number (R112). -/
def nibble (w : Word) (lo : Nat) : Int := (BitVec.ofNat 4 (bits w (lo + 3) lo)).toInt

/-- The number of the register that a source code names: as written, or rotated in a loop body (R114). -/
def srcNumber (w : View) (vc slot : Nat) (f : RFile) (n : Nat) : Nat :=
  if w.looping then rotate (fileSize vc f) n (bits w.ctl.loopst 29 6) (nibble w.ctl.loopsw (4 * slot)) else n

/-- The number of the register that a destination code names: as written, or rotated in a loop body (R114). -/
def dstNumber (w : View) (vc slot : Nat) (f : RFile) (n : Nat) : Nat :=
  if w.looping then rotate (fileSize vc f) n (bits w.ctl.loopst 29 6) (nibble w.ctl.loopsw (32 + 4 * slot)) else n

/-- The position of a core among the cores of its pavilion (R79). -/
def State.relativeCore (s : State) (l : Loc) : Nat :=
  match (s.ctx l).binding with
  | some b => position l.core (s.pav b.pav).cores
  | none => 0

/-- What a source gives: the value and the register that was found empty, or the cause of an illegal encoding (R33, R78, R79,
R86, R28). -/
def readSrc (s : State) (l : Loc) (items : List Item) (slot : Nat) (src : Src) :
    Except Cause (Value × Bool) :=
  let x := s.ctx l
  let w := x.cur
  let bus := slotBus slot
  let vc := (s.core l.core).vcount l.ctx
  let imm (k : Nat) (f : BitVec 20 → Word) : Except Cause (Value × Bool) :=
    match immAt items k with
    | some v => .ok (.word (f v), false)
    | none => .error 5
  match src with
  | .reserved _ => .error 1
  | .reg f n =>
    let m := srcNumber w vc slot f n
    if f ∉ busReads bus then .error 2
    else if f = .v ∧ n ≥ vc then .error 11
    else .ok (w.readReg f m, w.isEmpty f m)
  | .short i => .ok (.word (i.signExtend 64), false)
  | .res u =>
    if u.bus ≠ bus then .error 2
    else
      match (w.port u).res with
      | some v => .ok (v, false)
      | none => .error 8
  | .imms k => imm k fun v => v.signExtend 64
  | .immz k => imm k fun v => v.setWidth 64
  | .immw k =>
    match immAt items k, immAt items (k + 1) with
    | some lo, some hi => .ok (.word ((hi ++ lo).signExtend 64), false)
    | _, _ => .error 5
  | .pc => if bus = .scalar then .ok (.word x.pc, false) else .error 2
  | .ident =>
    if bus = .scalar then .ok (.word (BitVec.ofNat 64 (4 * s.relativeCore l + l.ctx)), false) else .error 2
  | .lane => if bus = .vector then .ok (.vec (ofLanes fun i => BitVec.ofNat 32 i), false) else .error 2

/-- The file that a FILE field names (R26); none twice over for no file, and nothing for the reserved code. -/
def fileOf (n : Nat) : Option (Option RFile) :=
  match n with
  | 0 => some none
  | 1 => some (some .s)
  | 2 => some (some .v)
  | 3 => some (some .a)
  | 4 => some (some .p)
  | 5 => some (some .k)
  | 6 => some (some .mp)
  | _ => none

/-- The FILE field of a file (R26). -/
def fileCode : Option RFile → Nat
  | none => 0
  | some .s => 1
  | some .v => 2
  | some .a => 3
  | some .p => 4
  | some .k => 5
  | some .mp => 6

/-- A register-reference word read from a value; none where R26 refuses it. -/
def regRefOf (vc : Nat) (x : Word) : Option RegRef :=
  if bits x 63 18 ≠ 0 then none
  else
    match fileOf (bits x 9 7) with
    | none => none
    | some none => some ⟨none, bits x 6 0, (BitVec.ofNat 8 (bits x 17 10)).toInt⟩
    | some (some f) =>
      if bits x 6 0 < fileSize vc f then some ⟨some f, bits x 6 0, (BitVec.ofNat 8 (bits x 17 10)).toInt⟩ else none

/-- The register-reference word of a reference (R26). -/
def RegRef.word (r : RegRef) : Word :=
  BitVec.ofNat 64 (r.num + fileCode r.file * 2 ^ 7 + (BitVec.ofInt 8 r.step).toNat * 2 ^ 10)

/-- A reference after a trigger that used it: NUM := (NUM + STEP) mod the size of the file (R27). -/
def RegRef.advance (vc : Nat) (r : RegRef) : RegRef :=
  match r.file with
  | some f => { r with num := rotate (fileSize vc f) r.num 1 r.step }
  | none => r

/-- A latch after a trigger that consumed it (R27). -/
def Latch.advance (vc : Nat) (t : Latch) : Latch :=
  match t.content with
  | .value (.word x) => { t with content := .value (.word (x + t.step)) }
  | .ref r => { t with content := .ref (r.advance vc) }
  | _ => t

/-- The register that a selector names, if any (R27). -/
def RegRef.dest (r : RegRef) : Option (RFile × Nat) :=
  match r.file with
  | some f => some (f, r.num)
  | none => none

/-- What a latch supplies to an operation that takes it at a width: the value and whether the register it names was found empty,
or the cause of an illegal encoding (R27, R28, R33, R97). The register is read from the state before the bundle. -/
def latchValue (before : View) (t : Latch) (w : Width) : Except Cause (Value × Bool) :=
  match t.content with
  | .invalid => .error 8
  | .value v =>
    match v.adapt w with
    | some v' => .ok (v', false)
    | none => .error 4
  | .ref r =>
    match r.file with
    | none => .error 9
    | some f =>
      match (before.readReg f r.num).adapt w with
      | some v => .ok (v, before.isEmpty f r.num)
      | none => .error 4

/-- A signed reading of a word. -/
def sgn (x : Word) : Int := x.toInt

/-- The operand values of a trigger that has been read. -/
def Opd.xw (o : Opd) : Word := o.x.toWord
/-- The trigger value as a vector. -/
def Opd.xv (o : Opd) : Vec := o.x.toVec
/-- The trigger value as a mask. -/
def Opd.xm (o : Opd) : Mask := o.x.toMask
/-- The trigger value as a capability. -/
def Opd.xc (o : Opd) : Cap := o.x.toCap
/-- Latch o1 as a word. -/
def Opd.b (o : Opd) : Word := (o.o1.getD (.word 0)).toWord
/-- Latch o2 as a word. -/
def Opd.c (o : Opd) : Word := (o.o2.getD (.word 0)).toWord
/-- Latch o1 as a vector. -/
def Opd.bv (o : Opd) : Vec := (o.o1.getD (.word 0)).toVec
/-- Latch o2 as a vector. -/
def Opd.cv (o : Opd) : Vec := (o.o2.getD (.word 0)).toVec
/-- The register that the selector names. -/
def Opd.dest (o : Opd) : Option (RFile × Nat) := o.sel.bind RegRef.dest

end Sys2Proof.Machine
end

