-- ==== Sys2Proof/Machine/Flags.lean ====
section
/-!
DEFINITION. The flag bits of FPFLAGS (R51) and the truth values of compares and predicates (R100, R107).
-/

namespace Sys2Proof.Machine

/-- FPFLAGS.NV: invalid operation (R51). -/
def flagNV : Nat := 1
/-- FPFLAGS.DZ: division by zero (R51). -/
def flagDZ : Nat := 2
/-- FPFLAGS.OF: overflow (R51). -/
def flagOF : Nat := 4
/-- FPFLAGS.UF: underflow (R51). -/
def flagUF : Nat := 8
/-- FPFLAGS.NX: inexact (R51). -/
def flagNX : Nat := 16
/-- FPFLAGS.FD: fade by a vector FADE operation (R51). -/
def flagFD : Nat := 32
/-- FPFLAGS.SU: scale underflow in an implicit conversion to BPI (R51). -/
def flagSU : Nat := 64
/-- FPFLAGS.BI: a BPI block with scale code 0xFF was read by a conversion (R51). -/
def flagBI : Nat := 128

/-- A flag raised when a condition holds. -/
def flagIf (c : Bool) (f : Nat) : Nat := if c then f else 0

/-- T(v) of R107: whether a word is not 0. -/
def truth (x : Word) : Bool := x != 0

/-- 1 or 0 as a word. -/
def boolWord (b : Bool) : Word := if b then 1 else 0

end Sys2Proof.Machine
end

