-- ==== Sys2Proof/Machine/Fp.lean ====
section
/-!
DEFINITION. Floating-point arithmetic to the bit (R47 to R50, R69, R72, R73, R125 to R128, R137, R138): values are exact dyadic
numbers, and one function rounds them.
-/

namespace Sys2Proof.Machine

/-- A floating-point format by its precision: 24 for FP32, 8 for BF16 (R48). -/
abbrev Fmt := Nat
/-- FP32 (R48). -/
def fp32 : Fmt := 24
/-- BF16 (R48). -/
def bf16 : Fmt := 8

/-- A floating-point value: a NaN, signalling or quiet; an infinity with its sign; or the exact number ± mant × 2^exp, where a zero
keeps its sign (R48). -/
inductive Fp where
  | nan (signalling : Bool)
  | inf (neg : Bool)
  | num (neg : Bool) (mant : Nat) (exp : Int)
  deriving DecidableEq, Repr

/-- The canonical quiet NaN of FP32 (R48). -/
def canonNaN : Lane := 0x7FC00000

/-- The value of an FP32 word (R48). -/
def unpack (x : Lane) : Fp :=
  let e := bits x 30 23
  let f := bits x 22 0
  if e = 255 then (if f = 0 then .inf (bit x 31) else .nan (decide (f < 2 ^ 22)))
  else if e = 0 then .num (bit x 31) f (-149)
  else .num (bit x 31) (2 ^ 23 + f) (Int.ofNat e - 150)

/-- Whether a value is a signalling NaN. -/
def Fp.snan : Fp → Bool
  | .nan s => s
  | _ => false

/-- Whether a value is a NaN. -/
def Fp.isNaN : Fp → Bool
  | .nan _ => true
  | _ => false

/-- Whether a value is a zero. -/
def Fp.isZero : Fp → Bool
  | .num _ m _ => m == 0
  | _ => false

/-- Whether a value is an infinity. -/
def Fp.isInf : Fp → Bool
  | .inf _ => true
  | _ => false

/-- Whether a value is finite. -/
def Fp.isFinite : Fp → Bool
  | .num _ _ _ => true
  | _ => false

/-- Whether a value has its sign set; no NaN has one here. -/
def Fp.sign : Fp → Bool
  | .inf n => n
  | .num n _ _ => n
  | .nan _ => false

/-- The negation of a value. -/
def Fp.neg : Fp → Fp
  | .inf n => .inf !n
  | .num n m e => .num (!n) m e
  | .nan s => .nan s

/-- m / 2^k to nearest, ties to even, with bits below m when `sticky`; and whether anything was discarded. -/
def roundShift (m k : Nat) (sticky : Bool) : Nat × Bool :=
  let q := m >>> k
  let r := m % 2 ^ k
  let half := 2 ^ k / 2
  if k = 0 then (m, sticky)
  else
    let up := decide (half < r) || (r == half && (sticky || q % 2 == 1))
    (if up then q + 1 else q, r != 0 || sticky)

/-- m × 2^e rounded to a grid 2^q: the multiple and whether anything was discarded. -/
def roundGrid (m : Nat) (e q : Int) (sticky : Bool) : Nat × Bool :=
  if q ≤ e then (m * 2 ^ (e - q).toNat, sticky) else roundShift m (q - e).toNat sticky

/-- floor(log2 (m × 2^e)) of a non-zero m. -/
def log2Of (m : Nat) (e : Int) : Int := Int.ofNat (Nat.log2 m) + e

/-- RoundNE of ± m × 2^e, and a little more when `sticky`, to a format of p bits of precision (R49): the bits without the sign, and
the flags. Exponents are those of FP32 in every format. -/
def roundMag (p : Nat) (m : Nat) (e : Int) (sticky : Bool) : Nat × Nat :=
  if m = 0 then (0, 0)
  else
    let top := log2Of m e
    let emin : Int := -126
    let q := max top emin - (Int.ofNat p - 1)
    let (sig, inexact) := roundGrid m e q sticky
    let be := (q + 126 + (Int.ofNat p - 1)).toNat
    let word := be * 2 ^ (p - 1) + sig
    if word ≥ 255 * 2 ^ (p - 1) then (255 * 2 ^ (p - 1), flagOF + flagNX)
    else
      let free := roundGrid m e (top - (Int.ofNat p - 1)) sticky
      let tiny := decide (top < emin) && !(top == emin - 1 && free.1 == 2 ^ p)
      (word, flagIf inexact flagNX + flagIf (tiny && inexact) flagUF)

/-- RoundNE to FP32 of a signed number (R49). -/
def round32 (neg : Bool) (m : Nat) (e : Int) (sticky : Bool) : Lane × Nat :=
  let r := roundMag fp32 m e sticky
  (BitVec.ofNat 32 (r.1 + b2n neg * 2 ^ 31), r.2)

/-- RoundNE to BF16 of a signed number (R49). -/
def roundB16 (neg : Bool) (m : Nat) (e : Int) (sticky : Bool) : BitVec 16 × Nat :=
  let r := roundMag bf16 m e sticky
  (BitVec.ofNat 16 (r.1 + b2n neg * 2 ^ 15), r.2)

/-- The word of an infinity. -/
def infWord (neg : Bool) : Lane := if neg then 0xFF800000 else 0x7F800000

/-- The word of a zero. -/
def zeroWord (neg : Bool) : Lane := if neg then 0x80000000 else 0

/-- RoundNE to FP32 of a value (R49); a NaN becomes the canonical one. -/
def roundFp (x : Fp) : Lane × Nat :=
  match x with
  | .nan _ => (canonNaN, 0)
  | .inf n => (infWord n, 0)
  | .num n m e => round32 n m e false

/-- A signed integer as a number. -/
def ofSigned (z : Int) (e : Int) : Fp := .num (decide (z < 0)) z.natAbs e

/-- The signed mantissa of a number at a lower or equal exponent. -/
def atExp (neg : Bool) (m : Nat) (e low : Int) : Int :=
  let v := Int.ofNat (m * 2 ^ (e - low).toNat)
  if neg then -v else v

/-- The exact sum of two values that are not NaNs (R125): zeros of opposite sign give +0, and so does cancellation; ∞ − ∞ is a NaN
(R49). -/
def sumFp (a b : Fp) : Fp :=
  match a, b with
  | .nan s, _ => .nan s
  | _, .nan s => .nan s
  | .inf n, .inf m => if n = m then .inf n else .nan true
  | .inf n, .num _ _ _ => .inf n
  | .num _ _ _, .inf m => .inf m
  | .num na ma ea, .num nb mb eb =>
    let low := min ea eb
    let z := atExp na ma ea low + atExp nb mb eb low
    if z = 0 then .num (na && nb) 0 low else ofSigned z low

/-- The exact product of two values that are not NaNs; 0 × ∞ is a NaN (R49). -/
def mulFp (a b : Fp) : Fp :=
  match a, b with
  | .nan s, _ => .nan s
  | _, .nan s => .nan s
  | .inf n, .inf m => .inf (n != m)
  | .inf n, .num m k _ => if k = 0 then .nan true else .inf (n != m)
  | .num n k _, .inf m => if k = 0 then .nan true else .inf (n != m)
  | .num na ma ea, .num nb mb eb => .num (na != nb) (ma * mb) (ea + eb)

/-- The flags of an invalid operation: a signalling operand or an invalid result from operands that are no NaNs. -/
def finish (anySnan anyNaN : Bool) (r : Fp) : Lane × Nat :=
  if anyNaN then (canonNaN, flagIf anySnan flagNV)
  else
    match r with
    | .nan _ => (canonNaN, flagNV)
    | r => roundFp r

/-- RoundNE(a + b) (R125). -/
def fadd (a b : Lane) : Lane × Nat :=
  let x := unpack a
  let y := unpack b
  finish (x.snan || y.snan) (x.isNaN || y.isNaN) (sumFp x y)

/-- The word of the negation; NaNs are negated in sign only, which no result shows. -/
def negLane (a : Lane) : Lane := a ^^^ 0x80000000

/-- RoundNE(a − b) (R125). -/
def fsub (a b : Lane) : Lane × Nat := fadd a (negLane b)

/-- RoundNE(a × b) (R125). -/
def fmul (a b : Lane) : Lane × Nat :=
  let x := unpack a
  let y := unpack b
  finish (x.snan || y.snan) (x.isNaN || y.isNaN) (mulFp x y)

/-- FMA(a, b, c) with a single rounding (R49, R125): 0 × ∞ raises NV whatever the addend is. -/
def ffma (a b c : Lane) : Lane × Nat :=
  let x := unpack a
  let y := unpack b
  let z := unpack c
  let snan := x.snan || y.snan || z.snan
  if !(x.isNaN || y.isNaN) && (mulFp x y).isNaN then (canonNaN, flagNV)
  else finish snan (x.isNaN || y.isNaN || z.isNaN) (sumFp (mulFp x y) z)

/-- The order of FMIN and FMAX on words that are no NaNs: −0 is below +0 (R126). -/
def totalKey (x : Lane) : Int := if bit x 31 then -1 - Int.ofNat (bits x 30 0) else Int.ofNat (bits x 30 0)

/-- FMIN or FMAX (R126). -/
def fpick (greater : Bool) (a b : Lane) : Lane × Nat :=
  let x := unpack a
  let y := unpack b
  let nv := flagIf (x.snan || y.snan) flagNV
  if x.isNaN && y.isNaN then (canonNaN, nv)
  else if x.isNaN then (b, nv)
  else if y.isNaN then (a, nv)
  else if (totalKey a ≤ totalKey b) != greater then (a, nv)
  else (b, nv)

/-- Whether a word is a number below 2^−126 in magnitude (R69). -/
def isTiny (a : Lane) : Bool := bits a 30 23 == 0

/-- Fade (R69): the value, and whether a non-zero value was replaced. -/
def fade (a : Lane) : Lane × Bool := if isTiny a then (0, bits a 30 0 != 0) else (a, false)

/-- Fade in the scan engine, which produces no NaN but the canonical one (R69, R176). -/
def scanFade (a : Lane) : Lane × Bool := let r := fade a; (if (unpack r.1).isNaN then canonNaN else r.1, r.2)

/-- Fade of a rounded result: a non-zero value that rounding itself takes to zero is replaced too, as 2^−160 is in R328; such a result
carries UF (R49). -/
def fadeRounded (r : Lane × Nat) : Lane × Bool := if isTiny r.1 then (0, bits r.1 30 0 != 0 || r.2 &&& flagUF != 0) else (r.1, false)

/-- A faded result with its flags: UF never, FD where Fade replaces a non-zero value (R128). -/
def faded (r : Lane × Nat) : Lane × Nat :=
  let f := fadeRounded r
  (f.1, (r.2 &&& (flagNV + flagDZ + flagOF + flagNX)) + flagIf f.2 flagFD)

/-- The operand of FADE: a NaN becomes the canonical one (R128). -/
def canonical (a : Lane) : Lane × Nat :=
  let x := unpack a
  if x.isNaN then (canonNaN, flagIf x.snan flagNV) else (a, 0)

/-- FCADD of one lane (R127): the sum, the compensation and the flags. -/
def fcadd (x b c : Lane) : Lane × Lane × Nat :=
  let s := fadd b x
  let e : Lane :=
    if (unpack s.1).isFinite then
      let z := (fsub s.1 b).1
      (fadd (fsub b (fsub s.1 z).1).1 (fsub x z).1).1
    else 0
  let c' := fadd c e
  (s.1, c'.1, s.2 ||| c'.2)

/-- Whether a word is below another; NaNs compare false and zeros are equal (R129). -/
def fless (a b : Lane) : Bool := !isNaN a && !isNaN b && decide (fpKey a < fpKey b)

/-- Whether two words are equal as numbers (R129). -/
def fequal (a b : Lane) : Bool := !isNaN a && !isNaN b && decide (fpKey a = fpKey b)

/-- The NV flag of a compare: any NaN, or a signalling one only (R129). -/
def compareFlags (anyNaN : Bool) (a b : Lane) : Nat :=
  let x := unpack a
  let y := unpack b
  flagIf (if anyNaN then x.isNaN || y.isNaN else x.snan || y.snan) flagNV

/-- A clamp to w signed bits (R46). -/
def satSigned (w : Nat) (z : Int) : Int := max (-(2 ^ (w - 1))) (min (2 ^ (w - 1) - 1) z)

/-- m × 2^e to an integer, to nearest even or toward zero; and whether it was no integer. -/
def toInteger (nearest : Bool) (m : Nat) (e : Int) : Nat × Bool :=
  if 0 ≤ e then (m * 2 ^ e.toNat, false)
  else if nearest then roundShift m (-e).toNat false
  else (m >>> (-e).toNat, m % 2 ^ (-e).toNat != 0)

/-- CvtFI of a value to a signed integer of w bits (R47). -/
def cvtInt (nearest : Bool) (w : Nat) (x : Fp) : Int × Nat :=
  match x with
  | .nan _ => (0, flagNV)
  | .inf n => (if n then -(2 ^ (w - 1)) else 2 ^ (w - 1) - 1, flagNV)
  | .num n m e =>
    let r := toInteger nearest m e
    let z : Int := if n then -(Int.ofNat r.1) else Int.ofNat r.1
    if satSigned w z ≠ z then (satSigned w z, flagNV) else (z, flagIf r.2 flagNX)

/-- CvtFI of a lane to a signed 32-bit integer (R132). -/
def cvtfi (nearest : Bool) (x : Lane) : Lane × Nat :=
  let r := cvtInt nearest 32 (unpack x)
  (BitVec.ofInt 32 r.1, r.2)

/-- A signed integer to FP32 (R47, R132). -/
def cvtif (z : Int) : Lane × Nat := round32 (decide (z < 0)) z.natAbs 0 false

/-- FP32 to BF16 (R50). -/
def toB16 (x : Lane) : BitVec 16 × Nat :=
  match unpack x with
  | .nan s => (0x7FC0, flagIf s flagNV)
  | .inf n => (if n then 0xFF80 else 0x7F80, 0)
  | .num n m e => roundB16 n m e false

/-- BF16 to FP32: 16 zero bits appended (R50). -/
def ofB16 (h : BitVec 16) : Lane := h ++ (0 : BitVec 16)

/-! ### Reciprocal, square root and their steps (R72, R73, R137) -/

/-- A value in which a subnormal counts as a zero of its sign (R72, R73). -/
def flushed (a : Lane) : Fp := unpack (if isTiny a then a &&& 0x80000000 else a)

/-- Round12 of ± m × 2^e and a little more: 13 significant bits, exact in FP32 (R137). -/
def round12 (neg : Bool) (m : Nat) (e : Int) (sticky : Bool) : Lane :=
  let q := max (log2Of m e) (-126) - 12
  let r := roundGrid m e q sticky
  (round32 neg r.1 q false).1

/-- RCP of one lane (R72, R137). -/
def rcp (a : Lane) : Lane × Nat :=
  match flushed a with
  | .nan s => (canonNaN, flagIf s flagNV)
  | .inf n => (zeroWord n, 0)
  | .num n m e =>
    if m = 0 then (infWord n, flagDZ)
    else (round12 n (2 ^ 64 / m) (-64 - e) (2 ^ 64 % m != 0), 0)

/-- floor of the square root, one bit at a time from bit k − 1 down. -/
def isqrt (n : Nat) : Nat → Nat → Nat
  | 0, r => r
  | k + 1, r => if (r + 2 ^ k) * (r + 2 ^ k) ≤ n then isqrt n k (r + 2 ^ k) else isqrt n k r

/-- RSQRT of one lane (R72, R137). -/
def rsqrt (a : Lane) : Lane × Nat :=
  match flushed a with
  | .nan s => (canonNaN, flagIf s flagNV)
  | .inf n => if n then (canonNaN, flagNV) else (0, 0)
  | .num n m e =>
    if m = 0 then (infWord n, flagDZ)
    else if n then (canonNaN, flagNV)
    else
      let m' := if e % 2 = 0 then m else 2 * m
      let h := e / 2
      let r := isqrt (2 ^ 160 / m') 81 0
      (round12 false r (-80 - h) (r * r * m' != 2 ^ 160), 0)

/-- RCPSTEP of R73. DESIGN CHOICE (log 31), where R73 counts a subnormal operand as zero and R137 keeps it as a value: a subnormal a or y is
tested as a zero, and y is returned as it stands. -/
def rcpstep (a y : Lane) : Lane × Nat :=
  let fa := flushed a
  let fy := flushed y
  if fa.isNaN || fy.isNaN then (canonNaN, flagIf (fa.snan || fy.snan) flagNV)
  else if !fa.isFinite || !fy.isFinite || fa.isZero || fy.isZero then (y, 0)
  else
    let t := ffma (negLane a) y 0x3F800000
    let r := ffma y t.1 y
    (r.1, t.2 ||| r.2)

/-- RSQSTEP of R73, with subnormal operands as RCPSTEP has them (DESIGN CHOICE, log 31). -/
def rsqstep (a y : Lane) : Lane × Nat :=
  let fa := flushed a
  let fy := flushed y
  if fa.isNaN || fy.isNaN then (canonNaN, flagIf (fa.snan || fy.snan) flagNV)
  else if !fa.isFinite || !fy.isFinite || fa.isZero || fy.isZero then (y, 0)
  else
    let q := fmul y y
    let t := ffma (negLane a) q.1 0x3F800000
    let h := fmul 0x3F000000 y
    let r := ffma h.1 t.1 y
    (r.1, q.2 ||| t.2 ||| h.2 ||| r.2)

/-! ### Special functions, correctly rounded (R137, R138, log 8)

Each is computed as an interval of fixed-point numbers with 512 fraction bits that holds the exact value, and is rounded at both
ends; where the ends differ the value is free. -/

/-- Fraction bits. -/
def fracBits : Nat := 512

/-- The slack that covers every truncation of the series below. -/
def slack : Nat := 2 ^ 16

/-- The sum of n terms of a power series from term k on, each the last times r over k: e^r for r below 1. -/
def expSeries (r : Nat) : Nat → Nat → Nat → Nat
  | 0, _, _ => 0
  | n + 1, k, t => t + expSeries r n (k + 1) ((t * r) >>> fracBits / (k + 1))

/-- The sum of n terms of y^(2k+1) / (2k+1) from k on: the inverse hyperbolic tangent of y. -/
def atanhSeries (y2 : Nat) : Nat → Nat → Nat → Nat
  | 0, _, _ => 0
  | n + 1, k, t => t / (2 * k + 1) + atanhSeries y2 n (k + 1) ((t * y2) >>> fracBits)

/-- An interval of fixed-point numbers. -/
structure Ivl where
  lo : Nat
  hi : Nat

/-- ln((1 + y) / (1 − y)) for a fixed-point y of at most 1/3. -/
def lnOf (y : Nat) : Ivl :=
  let v := 2 * atanhSeries ((y * y) >>> fracBits) 200 0 y
  ⟨v, v + slack⟩

/-- ln 2. -/
def ln2 : Ivl := lnOf (2 ^ fracBits / 3)

/-- e^r for a fixed-point r below 1 (an error of r below the slack is covered). -/
def expOf (r : Nat) : Ivl :=
  let v := expSeries r 130 0 (2 ^ fracBits)
  ⟨v - 4 * slack, v + 4 * slack⟩

/-- e^−z for a fixed-point z: a power of two times e^r. -/
def expNeg (z : Nat) : Ivl :=
  let n := z / ln2.lo + 1
  let r := n * ln2.lo - z
  let i := expOf (min r (2 ^ fracBits))
  ⟨i.lo >>> n, (i.hi >>> n) + 1 + n⟩

/-- Round an interval scaled by 2^e; none where its ends round apart. -/
def roundIvl (neg : Bool) (i : Ivl) (e : Int) : Option (Lane × Nat) :=
  let a := round32 neg i.lo e true
  let b := round32 neg i.hi e true
  if a = b ∧ i.lo ≠ 0 then some a else none

/-- A number with its exponent as fixed point, with 512 fraction bits. -/
def fixed (m : Nat) (e : Int) : Nat :=
  let k := e + Int.ofNat fracBits
  if 0 ≤ k then m * 2 ^ k.toNat else m >>> (-k).toNat

/-- A rounding that the interval decides, else the free value (log 8). -/
def decided (fn : Nat) (a : Lane) (r : Option (Lane × Nat)) : Lane × Nat := r.getD (Config.freeRounding fn a)

/-- 2^x (R137, R138). -/
def exp2 (a : Lane) : Lane × Nat :=
  match unpack a with
  | .nan s => (canonNaN, flagIf s flagNV)
  | .inf n => if n then (0, 0) else (infWord false, 0)
  | .num n m e =>
    if m = 0 then (0x3F800000, 0)
    else if log2Of m e ≥ 9 then (if n then (0, flagUF + flagNX) else (infWord false, flagOF + flagNX))
    else
      let z := fixed m e
      let one := 2 ^ fracBits
      let whole := z / one
      let part := z % one
      if part = 0 then round32 false 1 (if n then -(Int.ofNat whole) else Int.ofNat whole) false
      else
        let f := if n then one - part else part
        let k : Int := if n then -(Int.ofNat whole) - 1 else Int.ofNat whole
        decided 0 a (roundIvl false (expOf ((f * ln2.lo) >>> fracBits)) (k - Int.ofNat fracBits))

/-- log2 x (R137, R138). -/
def log2 (a : Lane) : Lane × Nat :=
  match unpack a with
  | .nan s => (canonNaN, flagIf s flagNV)
  | .inf n => if n then (canonNaN, flagNV) else (infWord false, 0)
  | .num n m e =>
    if m = 0 then (infWord true, 0)
    else if n then (canonNaN, flagNV)
    else
      let t := 2 ^ Nat.log2 m
      let k := log2Of m e
      if m = t then cvtif k
      else
        let l := lnOf ((m - t) * 2 ^ fracBits / (m + t))
        let f : Ivl := ⟨l.lo * 2 ^ fracBits / ln2.hi, (l.hi + slack) * 2 ^ fracBits / ln2.lo + 1⟩
        let one := 2 ^ fracBits
        if 0 ≤ k then decided 1 a (roundIvl false ⟨k.toNat * one + f.lo, k.toNat * one + f.hi⟩ (-(Int.ofNat fracBits)))
        else
          decided 1 a (roundIvl true ⟨(-k).toNat * one - f.hi, (-k).toNat * one - f.lo⟩ (-(Int.ofNat fracBits)))

/-- ln(1 + E) for an interval E of at most 1. -/
def lnOnePlus (e : Ivl) : Ivl :=
  let one := 2 ^ fracBits
  ⟨(lnOf (e.lo * one / (2 * one + e.lo))).lo - 1, (lnOf (e.hi * one / (2 * one + e.hi) + 1)).hi + slack⟩

/-- ln(1 + e^x) (R137, R138). -/
def softplus (a : Lane) : Lane × Nat :=
  match unpack a with
  | .nan s => (canonNaN, flagIf s flagNV)
  | .inf n => if n then (0, 0) else (infWord false, 0)
  | .num n m e =>
    if m ≠ 0 ∧ log2Of m e ≥ 8 then (if n then (0, flagUF + flagNX) else round32 false m e true)
    else
      let z := fixed m e
      let l := lnOnePlus (expNeg z)
      let i : Ivl := if n then l else ⟨z + l.lo, z + l.hi⟩
      decided 2 a (roundIvl false i (-(Int.ofNat fracBits)))

/-- 1 / (1 + e^−x) of a number as an interval, for |x| below 256. -/
def sigmoidIvl (n : Bool) (m : Nat) (e : Int) : Ivl :=
  let one := 2 ^ fracBits
  let t := expNeg (fixed m e)
  if n then ⟨t.lo * one / (one + t.hi), t.hi * one / (one + t.lo) + 1⟩
  else ⟨one * one / (one + t.hi), one * one / (one + t.lo) + 1⟩

/-- 1 / (1 + e^−x) (R137, R138). -/
def sigmoid (a : Lane) : Lane × Nat :=
  match unpack a with
  | .nan s => (canonNaN, flagIf s flagNV)
  | .inf n => if n then (0, 0) else (0x3F800000, 0)
  | .num n m e =>
    if m = 0 then (0x3F000000, 0)
    else if log2Of m e ≥ 8 then (if n then (0, flagUF + flagNX) else (0x3F800000, flagNX))
    else decided 3 a (roundIvl false (sigmoidIvl n m e) (-(Int.ofNat fracBits)))

/-- x / (1 + e^−x) (R137, R138). -/
def silu (a : Lane) : Lane × Nat :=
  match unpack a with
  | .nan s => (canonNaN, flagIf s flagNV)
  | .inf n => if n then (zeroWord true, 0) else (infWord false, 0)
  | .num n m e =>
    if m = 0 then (a, 0)
    else if log2Of m e ≥ 8 then
      (if n then (zeroWord true, flagUF + flagNX) else round32 false (m * 2 ^ 64 - 1) (e - 64) true)
    else
      let i := sigmoidIvl n m e
      decided 4 a (roundIvl n ⟨m * i.lo, m * i.hi⟩ (e - Int.ofNat fracBits))

end Sys2Proof.Machine
end

