-- ==== Sys2Proof/Machine/Issue.lean ====
section
/-!
DEFINITION. The issue of a bundle (R22 to R42, R74 to R87, R392): guards, sources, checks by stage, blocking, the order of
effects, landing at the end of the bundle, branches with their delay bundles, loop replay, and the acceptance of memory accesses
(R194). It is written once for every operation; an operation gives it an `OpSem`.
-/

namespace Sys2Proof.Machine

/-- A part of an operation's checks that reads only some of its operands: its stage (R392), those operands — 0 for the trigger value, i
for latch oI — and its trap. Where a bundle finds another operand empty, this part is judged all the same. -/
structure Part where
  stage : Nat
  uses : List Nat
  test : State → Loc → Opd → Option Trap

/-- What an operation of a unit is to the issue of a bundle. -/
structure OpSem where
  /-- The width of the trigger value (R80). -/
  xw : Width
  /-- The latches the operation consumes, by number, with the widths it takes them at. -/
  latches : List (Nat × Width)
  /-- Whether a trigger value makes the operation consume its latches. -/
  needs : Value → Bool
  /-- The register files that the selector may name, if the operation consumes it (R28). -/
  sel : Option (List RFile)
  /-- R38: the operation acts outside the context's registers. -/
  outward : Bool
  /-- The operation ignores its S bit (R36, R205, R251). -/
  plainS : Bool
  /-- The cause of an illegal encoding in the operand values (R392 stage 2). -/
  encoding : State → Loc → Opd → Option Cause
  /-- The cause of a sequence trap (stage 3). -/
  sequence : State → Loc → Opd → Option Cause
  /-- A capability fault decided before issue (stage 5). -/
  capability : State → Loc → Opd → Option Trap
  /-- The parts of those checks that read only some of the operands, by stage. -/
  parts : List Part
  /-- What the checks of another trigger of the bundle see of this one, by the slot of that trigger: a template word written in a lower
  slot (R214), the TEPC that a handler return is to find (R75). -/
  preview : Option (State → Loc → Opd → Nat → State)
  /-- A condition that the bundle waits out before it issues. -/
  blocks : State → Loc → Opd → Bool
  /-- The checks of a memory access that is accepted after issue (R194, stage 6). -/
  access : Option (State → Loc → Opd → Option Trap)
  /-- The register that the operation reads at step 2 of R29 (R245, R250). -/
  reads : State → Loc → Opd → Word
  /-- Step 4 of R29: the operation starts. -/
  act : State → Loc → Opd → State
  /-- What the operation does to the core at the end of its bundle, when every trigger has started (R245). -/
  finish : State → Loc → Opd → State
  /-- What happens at the boundary after the bundle (R118, R247 to R249). -/
  after : State → Loc → Opd → State

/-- An operation of a word that consumes nothing and does nothing. -/
def OpSem.base : OpSem :=
  { xw := .word, latches := [], needs := fun _ => true, sel := none, outward := false, plainS := false, encoding := fun _ _ _ => none,
    sequence := fun _ _ _ => none, capability := fun _ _ _ => none, parts := [], preview := none,
    blocks := fun _ _ _ => false, access := none, reads := fun _ _ _ => 0,
    act := fun s _ _ => s, finish := fun s _ _ => s, after := fun s _ _ => s }

/-! ### Guards and enabled moves -/

/-- Whether a guard field enables a move (R77). -/
def View.guard (w : View) (g : BitVec 4) : Bool :=
  let v := if bits g 2 0 = 0 then true else w.pred (bits w.ctl.gbase 6 0 + bits g 2 0)
  v != bit g 3

/-- An enabled move that names a destination (R23, R81). -/
structure Live where
  slot : Nat
  s : Bool
  b : Bool
  src : Src
  dst : Dst
  deriving DecidableEq, Repr

/-- The enabled moves of a bundle, from a slot on; a move to null or to a reserved no-operation does nothing (R81). -/
def liveMoves (w : View) : Nat → List Item → List Live
  | _, [] => []
  | slot, .imm _ :: rest => liveMoves w (slot + 1) rest
  | slot, .move g s b src dst :: rest =>
    match dst with
    | .null | .nop _ => liveMoves w (slot + 1) rest
    | _ => if w.guard g then ⟨slot, s, b, src, dst⟩ :: liveMoves w (slot + 1) rest else liveMoves w (slot + 1) rest

/-- What two moves of a bundle may not both name (R24, R83): a register, a port, or the triggers of one unit. Ports oI and oIr
are one latch. -/
inductive Target where
  | reg (f : RFile) (n : Nat)
  | latch (u : UnitId) (i : Nat)
  | step (u : UnitId) (i : Nat)
  | sel (u : UnitId)
  | trig (u : UnitId)
  | other (slot : Nat)
  deriving DecidableEq, Repr

/-- The target of a move. -/
def Live.target (m : Live) (w : View) (vc : Nat) : Target :=
  match m.dst with
  | .reg f n => .reg f (dstNumber w vc m.slot f n)
  | .latch u i | .latchRef u i => .latch u i
  | .latchStep u i => .step u i
  | .sel u => .sel u
  | .trig u _ => .trig u
  | _ => .other m.slot

/-- The lowest slot whose target a higher slot names too (R24). -/
def conflictSlot (w : View) (vc : Nat) : List Live → Option Nat
  | [] => none
  | m :: rest =>
    if rest.any fun r => decide (r.target w vc = m.target w vc) then some m.slot else conflictSlot w vc rest

/-! ### Reading and checking moves -/

/-- What becomes of one move of a bundle before issue (R37, R392). -/
inductive Exam where
  | trap (stage : Nat) (t : Trap)
  | block
  | drop
  | ok (r : RMove)
  deriving DecidableEq, Repr

/-- A cause of stage 3 or later: it drops a move that a taken branch is to kill, and traps otherwise (R37). -/
def Exam.later (prov : Bool) (stage : Nat) (t : Trap) : Exam := if prov then .drop else .trap stage t

/-- A read that found a register empty (R33, R37). -/
def Exam.empty (prov b : Bool) : Exam := if b then .block else .later prov 4 emptyReadTrap

/-- Whether a context issues a delay bundle of a taken branch (R36). -/
def Ctx.inDelay (x : Ctx) : Bool := x.branch.isSome

/-- A value that a plain move delivers, at the width of its destination (R80, R392). -/
def deliverable (prov b : Bool) (v : Value) (isEmpty : Bool) (w : Width) (f : Value → Exam) : Exam :=
  match v.adapt w with
  | none => .trap 2 (illegal 4)
  | some v' => if isEmpty then .empty prov b else f v'

/-- A move that triggers nothing, read and checked (R26, R80 to R87). -/
def examinePlain (s : State) (l : Loc) (items : List Item) (m : Live) : Exam :=
  let x := s.ctx l
  let w := x.cur
  let vc := (s.core l.core).vcount l.ctx
  let prov := m.s && x.inDelay
  let ref (v : Value) (k : RegRef → Exam) : Exam :=
    match regRefOf vc v.toWord with
    | some r => k r
    | none => .trap 2 (illegal 9)
  match readSrc s l items m.slot m.src with
  | .error c => .trap 2 (illegal c)
  | .ok (v, e) =>
    match m.dst with
    | .reg f n =>
      let k := dstNumber w vc m.slot f n
      if f ∉ busWrites (slotBus m.slot) then .trap 2 (illegal 2)
      else if f = .v ∧ n ≥ vc then .trap 2 (illegal 11)
      else deliverable prov m.b v e (fileWidth f) fun v' => .ok (.reg m.s prov f k v')
    | .latch u i =>
      match unitLatch u.kind i with
      | none => .trap 2 (illegal 3)
      | some lw => deliverable prov m.b v e lw fun v' => .ok (.latch prov u i (.value v'))
    | .latchRef u i =>
      match unitLatch u.kind i with
      | none => .trap 2 (illegal 3)
      | some _ =>
        deliverable prov m.b v e .word fun v' =>
          ref v' fun r => if r.file = none then .trap 2 (illegal 9) else .ok (.latch prov u i (.ref r))
    | .latchStep u i =>
      if unitLatch u.kind i = some .word then deliverable prov m.b v e .word fun v' => .ok (.step prov u i v'.toWord)
      else .trap 2 (illegal 3)
    | .sel u =>
      if unitHasSel u.kind then deliverable prov m.b v e .word fun v' => ref v' fun r => .ok (.sel prov u r)
      else .trap 2 (illegal 3)
    | .unassigned _ _ => .trap 2 (illegal 3)
    | .reserved _ => .trap 2 (illegal 1)
    | .null | .nop _ | .trig _ _ => .drop

/-- The latches that an operation consumes, by number: the value of each, whether a register that one names was found empty, or
the cause of an illegal encoding (R28). -/
def readLatches (before : View) (p : Port) : List (Nat × Width) → Except Cause (List (Nat × Value) × Bool)
  | [] => .ok ([], false)
  | (i, w) :: rest =>
    match latchValue before (p.latch i) w with
    | .error c => .error c
    | .ok (v, e) =>
      match readLatches before p rest with
      | .error c => .error c
      | .ok (vs, e') => .ok ((i, v) :: vs, e || e')

/-- The selector that an operation consumes, or the cause of an illegal encoding (R28). -/
def readSel (p : Port) (files : Option (List RFile)) : Except Cause (Option RegRef) :=
  match files with
  | none => .ok none
  | some fs =>
    match p.sel with
    | none => .error 8
    | some r =>
      match r.file with
      | none => .ok (some r)
      | some f => if f ∈ fs then .ok (some r) else .error 9

/-- A trigger whose operands have been read, against its operation's own checks (R392). -/
def examineOperand (sm : OpSem) (s : State) (l : Loc) (o : Opd) : Exam :=
  match sm.encoding s l o with
  | some c => .trap 2 (illegal c)
  | none =>
    match sm.sequence s l o with
    | some c => .later o.prov 3 (sequenceTrap c)
    | none =>
      match sm.capability s l o with
      | some t => .later o.prov 5 t
      | none => if sm.blocks s l o then .block else .ok (.trig o)

/-- A part of a check that reads the place of a trigger alone. -/
def Part.place (stage : Nat) (test : State → Loc → Option Trap) : Part := ⟨stage, [], fun s l _ => test s l⟩

/-- A part of the encoding checks of an operation (R392 stage 2). -/
def Part.enc (uses : List Nat) (test : State → Loc → Opd → Option Cause) : Part :=
  ⟨2, uses, fun s l o => (test s l o).map illegal⟩

/-- A part of the sequence checks of an operation (R392 stage 3). -/
def Part.seq (uses : List Nat) (test : State → Loc → Opd → Option Cause) : Part :=
  ⟨3, uses, fun s l o => (test s l o).map sequenceTrap⟩

/-- The first part of an operation's checks that traps and reads none of the operands that were not there. -/
def firstPart (s : State) (l : Loc) (o : Opd) (unread : List Nat) : List Part → Option (Nat × Trap)
  | [] => none
  | p :: rest =>
    if p.uses.any unread.contains then firstPart s l o unread rest
    else
      match p.test s l o with
      | some t => some (p.stage, t)
      | none => firstPart s l o unread rest

/-- A trigger whose selector alone was not there, which no check reads (R392): it traps by them all the same, or its bundle waits. -/
def examineUnselected (sm : OpSem) (s : State) (l : Loc) (o : Opd) : Exam :=
  match examineOperand sm s l o with
  | .ok _ => .block
  | e => e

/-- A trigger some of whose operands were not there, by their numbers (R392): the parts of its checks that read only the others, those
of stage 2 and 3 before EMPTYREAD; then the empty read, where it was its own (R33), or the wait of the bundle whose latch move
found its source empty. -/
def examineUnread (sm : OpSem) (s : State) (l : Loc) (o : Opd) (unread : List Nat) (own b : Bool) : Exam :=
  match firstPart s l o unread sm.parts with
  | some (stage, t) =>
    if stage = 2 then .trap 2 t else if own && !b && decide (stage > 3) then .empty o.prov b else .later o.prov stage t
  | none => if own then .empty o.prov b else .block

/-- The latches of a list whose registers were found empty (R33). -/
def emptyLatches (before : View) (p : Port) (ls : List (Nat × Width)) : List Nat :=
  (ls.filter fun i => match latchValue before (p.latch i.1) i.2 with | .ok (_, e) => e | .error _ => false).map Prod.fst

/-- A trigger, read and checked; `after` is the view with the latch writes of its own bundle (R29 steps 2 to 4). `unset` are the latches
by number, 0 for a selector, that a move of the bundle is to write whose source was not there: they are valid, with no value yet. -/
def examineTrigger (sem : Op → OpSem) (s : State) (l : Loc) (items : List Item) (after : View) (unset : List (UnitId × Nat))
    (m : Live) (u : UnitId) (op : Op) : Exam :=
  let x := s.ctx l
  let sm := sem op
  let prov := m.s && x.inDelay && !sm.plainS
  match readSrc s l items m.slot m.src with
  | .error c => .trap 2 (illegal c)
  | .ok (v, e) =>
    match v.adapt sm.xw with
    | none => .trap 2 (illegal 4)
    | some v' =>
      if m.s && sm.outward then .trap 2 (illegal 10)
      else
        let used := if sm.needs (if e then .word 0 else v') then sm.latches else []
        let there := used.filter fun i => !unset.contains (u, i.1)
        match readLatches x.cur (after.port u) there with
        | .error c => .trap 2 (illegal c)
        | .ok (vs, e') =>
          match readSel (after.port u) (if unset.contains (u, 0) then none else sm.sel) with
          | .error c => .trap 2 (illegal c)
          | .ok r =>
            let o0 : Opd :=
              { slot := m.slot, unit := u, op := op, s := m.s && !sm.plainS, prov := prov, x := v',
                o1 := Table.find? vs 1, o2 := Table.find? vs 2, o3 := Table.find? vs 3, sel := r, seen := 0 }
            let o := { o0 with seen := sm.reads s l o0 }
            let pending := (used.filter fun i => unset.contains (u, i.1)).map Prod.fst
            if e || e' then
              examineUnread sm s l o ((if e then [0] else []) ++ emptyLatches x.cur (after.port u) there ++ pending) true m.b
            else if !pending.isEmpty then examineUnread sm s l o pending false m.b
            else if sm.sel.isSome && unset.contains (u, 0) then examineUnselected sm s l o
            else examineOperand sm s l o

/-- The view with the latch, step and selector writes of a move (R29 step 3). -/
def View.latchMove (w : View) : RMove → View
  | .latch _ u i c => w.setLatch u i c
  | .step _ u i x => w.setStep u i x
  | .sel _ u r => w.setSel u r
  | .reg _ _ _ _ _ | .trig _ => w

/-- Whether an effect of a move is provisional (R37). -/
def RMove.prov : RMove → Bool
  | .reg _ p _ _ _ => p
  | .latch p _ _ _ => p
  | .step p _ _ _ => p
  | .sel p _ _ => p
  | .trig o => o.prov

/-- Whether a move is a trigger. -/
def Live.isTrigger (m : Live) : Bool :=
  match m.dst with
  | .trig _ _ => true
  | _ => false

/-- The latch, by number, or the selector, as 0, that a move is to write once its source is there (R28, R33): a move that traps or
waits writes it all the same, as far as the triggers of its bundle are concerned. -/
def Live.unset (m : Live) (e : Exam) : Option (UnitId × Nat) :=
  match e with
  | .ok _ | .drop => none
  | .trap _ _ | .block =>
    match m.dst with
    | .latch u i | .latchRef u i => some (u, i)
    | .sel u => some (u, 0)
    | _ => none

/-- The state that the checks of the trigger in a slot see: with what the other triggers of the bundle show of themselves. -/
def State.lookAhead (sem : Op → OpSem) (s : State) (l : Loc) (slot : Nat) : List (Nat × Exam) → State
  | [] => s
  | (k, .ok (.trig o)) :: rest =>
    match (sem o.op).preview with
    | some f => if k = slot then s.lookAhead sem l slot rest else (f s l o slot).lookAhead sem l slot rest
    | none => s.lookAhead sem l slot rest
  | _ :: rest => s.lookAhead sem l slot rest

/-- Whether a trigger of a bundle shows something of itself to the checks of the others. -/
def Exam.shows (sem : Op → OpSem) : Exam → Bool
  | .ok (.trig o) => (sem o.op).preview.isSome
  | _ => false

/-- Every enabled move of a bundle, read and checked, with its slot: the moves that trigger nothing first, then the triggers,
which see the latch writes of the bundle; where a trigger shows something of itself, the others are checked with it. -/
def examine (sem : Op → OpSem) (s : State) (l : Loc) (items : List Item) : List (Nat × Exam) :=
  let w := (s.ctx l).cur
  let live := liveMoves w 0 items
  let plain := live.map fun m => if m.isTrigger then (m.slot, Exam.drop) else (m.slot, examinePlain s l items m)
  let after := plain.foldl (fun w e => match e.2 with | .ok r => w.latchMove r | _ => w) w
  let unset := (live.zip plain).filterMap fun (m, e) => m.unset e.2
  let look (seen : List (Nat × Exam)) : List (Nat × Exam) :=
    (live.zip plain).map fun (m, e) =>
      match m.dst with
      | .trig u op => (m.slot, examineTrigger sem (s.lookAhead sem l m.slot seen) l items after unset m u op)
      | _ => e
  let first := look []
  if first.any fun e => e.2.shows sem then look first else first

/-- The trap that stands first by stage and then by slot (R392). -/
def firstTrap : List (Nat × Exam) → Option (Nat × Nat × Trap)
  | [] => none
  | (slot, .trap stage t) :: rest =>
    match firstTrap rest with
    | some (st, sl, t') => if stage ≤ st then some (stage, slot, t) else some (st, sl, t')
    | none => some (stage, slot, t)
  | _ :: rest => firstTrap rest

/-- What becomes of a bundle before issue (R392): a trap at a slot, a wait, or the moves that issue. -/
inductive Verdict where
  | trap (slot : Nat) (t : Trap)
  | block
  | go (moves : List RMove)
  deriving DecidableEq, Repr

/-- The moves that passed. -/
def passed : List (Nat × Exam) → List RMove
  | [] => []
  | (_, .ok r) :: rest => r :: passed rest
  | _ :: rest => passed rest

/-- Stages 2 to 5 of R392, and then the blocking conditions. -/
def judge (sem : Op → OpSem) (s : State) (l : Loc) (items : List Item) : Verdict :=
  let w := (s.ctx l).cur
  let exams := examine sem s l items
  let conflict :=
    match conflictSlot w ((s.core l.core).vcount l.ctx) (liveMoves w 0 items) with
    | some slot => [(slot, Exam.trap 2 (illegal 7))]
    | none => []
  let order := (exams.filter fun e => conflict.all fun c => e.1 < c.1) ++
    (exams.filter fun e => !(conflict.all fun c => e.1 < c.1) && conflict.any fun c => e.1 == c.1) ++ conflict ++
    (exams.filter fun e => conflict.any fun c => c.1 < e.1)
  match firstTrap order with
  | some (_, slot, t) => .trap slot t
  | none => if exams.any fun e => decide (e.2 = .block) then .block else .go (passed exams)

/-! ### Effects of a bundle -/

/-- An operation put into flight: its effects take place at the end of the bundle at context time `due` (R30). -/
def State.fly (s : State) (l : Loc) (prov : Bool) (due : Nat) (sbit : Bool) (effs : List Eff) : State :=
  let h := (s.ctx l).cur.inHandler
  s.onView l prov fun w => { w with flights := w.flights ++ [⟨due, sbit, h, effs⟩] }

/-- The effects of a result: on the register that the selector names and on unit.res (R27, R28). -/
def Opd.resultEffs (o : Opd) (v : Value) (lanes : Option Mask) : List Eff :=
  match o.dest with
  | some (f, n) => [.reg f n v lanes, .res o.unit v lanes]
  | none => [.res o.unit v lanes]

/-- A fixed-latency operation with effects after `lat` bundles (R30). -/
def State.after (s : State) (l : Loc) (o : Opd) (lat : Nat) (effs : List Eff) : State :=
  s.fly l o.prov ((s.ctx l).ctime + lat - 1) o.s effs

/-- A fixed-latency operation with a result (R30). -/
def State.result (s : State) (l : Loc) (o : Opd) (lat : Nat) (v : Value) : State := s.after l o lat (o.resultEffs v none)

/-- The start of a long-latency operation: its destination is marked empty and the result is pending (R31). DESIGN CHOICE (log 31): the mark
comes before the fixed-latency and move writes that land at the end of the same bundle, so such a write of the same register leaves it
full. -/
def State.startLong (s : State) (l : Loc) (o : Opd) (lanes : Option Mask) : Nat × State :=
  let h := (s.ctx l).cur.inHandler
  let p : Pending := ⟨s.opId, o.unit, o.dest, lanes, h⟩
  (s.opId, ({ s with opId := s.opId + 1 } : State).onView l o.prov fun w =>
    let w' := match o.dest with | some (f, n) => w.markEmpty f n true | none => w
    { w' with pending := w'.pending ++ [p] })

/-- The value of a long-latency operation is ready to land from a cycle on: its minimum latency after the end of the bundle (R252). -/
def State.deliverLong (s : State) (l : Loc) (id : Nat) (minimum : Nat) (v : Option Value) : State :=
  let x := s.ctx l
  s.setCtx l { x with landings := x.landings.set id ⟨(s.core l.core).cycle + 1 + minimum, v, none⟩ }

/-- The increments of the latches and the selector that a trigger consumed (R27, R29 step 5). -/
def View.increment (w : View) (sm : OpSem) (vc : Nat) (u : UnitId) (x : Value) : View :=
  let p := (if sm.needs x then sm.latches else []).foldl (fun (p : Port) li => p.setLatch li.1 ((p.latch li.1).advance vc)) (w.port u)
  let p' : Port := match sm.sel with | some _ => { p with sel := p.sel.map (RegRef.advance vc) } | none => p
  w.setPort u p'

/-- The access path of a trigger of the memory bus, by the codes of R205; none for what belongs to no path (R198, R311). -/
def opPath : Op → Option Nat
  | .gath | .scat => some 6
  | .copy => some 1
  | .ld8 | .ld16 | .ld32 | .ld64 | .ldn8 | .ldn16 | .ldn32 | .ldc | .st8 | .st16 | .st32 | .st64 | .stc | .ldacq32 | .ldacq64
    | .strel32 | .strel64 | .vld | .vst | .vldx | .vstc | .cctl | .atadd32 | .atadd64 | .atand | .ator | .atxor | .atmax | .atmin
    | .atswp | .cas64 | .cas128 => some 0
  | _ => none

/-- Whether a trigger of a bundle stands above an XFENCE that names its path as DSTP (R205). -/
def Opd.fenced (o : Opd) : List RMove → Bool
  | [] => false
  | .trig f :: rest => (decide (f.op = .xfence) && decide (f.slot < o.slot) && decide (opPath o.op = some (bits f.xw 5 3))) || o.fenced rest
  | _ :: rest => o.fenced rest

/-- A trigger acts, or, where it stands above a fence of its bundle that waits, is kept until the fence is over (R205). -/
def State.actOrWait (sem : Op → OpSem) (s : State) (l : Loc) (moves : List RMove) (o : Opd) : State :=
  if o.fenced moves && !(s.ctx l).fence.isEmpty then s.setCtx l { s.ctx l with late := (s.ctx l).late ++ [o] }
  else (sem o.op).act s l o

/-- Steps 3 to 6 of R29 for the moves that issue: latches, then triggers and register writes in slot order, then what triggers do to the
core at the end of the bundle, then increments. The register writes land at the end of the bundle. -/
def State.applyMoves (sem : Op → OpSem) (s : State) (l : Loc) (moves : List RMove) : State :=
  let vc := (s.core l.core).vcount l.ctx
  let s1 := moves.foldl (fun s r => s.onView l r.prov fun w => w.latchMove r) s
  let s2 := moves.foldl (fun s r =>
    match r with
    | .reg sb p f n v => s.fly l p (s.ctx l).ctime sb [.reg f n v none]
    | .trig o => s.actOrWait sem l moves o
    | _ => s) s1
  let s3 := moves.foldl (fun s r => match r with | .trig o => (sem o.op).finish s l o | _ => s) s2
  moves.foldl (fun s r =>
    match r with
    | .trig o => s.onView l o.prov fun w => w.increment (sem o.op) vc o.unit o.x
    | _ => s) s3

/-- The stage predicates and the walker at the boundary of a pass that another pass follows (R115). DESIGN CHOICE (log 31): the block of the
walker is read as it stands, a register marked empty too, and loop words that a CRW has written are taken as they are, also where MARK would
refuse them; a register number beyond the file reads 0 and its write is seen by nothing but the walker. -/
def View.nextPass (w : View) : View :=
  let wd := w.ctl.loopwd
  let pass := bits w.ctl.loopst 29 6
  let stages := bits wd 10 6
  let sp := bits wd 17 11
  let passes := bits wd 48 25
  let w1 : View :=
    if stages > 0 then
      let moved := (List.range (stages - 1)).foldl
        (fun (acc : View) j => acc.setPred (sp + (stages - 1 - j)) (acc.pred (sp + (stages - 1 - j) - 1))) w
      moved.setPred sp (decide (pass + 1 < passes - stages + 1))
    else w
  let w2 : View :=
    if bit wd 24 then
      let wb := bits wd 23 18
      let reg (n : Nat) : Word := w1.s.getD n 0
      let c (j : Nat) : Nat := bits (reg wb) (16 * j - 1) (16 * j - 16)
      let cnt (j : Nat) : Nat := bits w1.ctl.loopcnt (16 * j - 1) (16 * j - 16)
      let full (j : Nat) (v : Nat) : Bool := c j != 0 && v == c j
      let n1 := (cnt 1 + 1) % 65536
      let up1 := full 1 n1
      let n2 := if up1 then (cnt 2 + 1) % 65536 else cnt 2
      let up2 := up1 && full 2 n2
      let n3 := if up2 then (cnt 3 + 1) % 65536 else cnt 3
      let up3 := up2 && full 3 n3
      let n4 := if up3 then (cnt 4 + 1) % 65536 else cnt 4
      let level := if up3 then 4 else if up2 then 3 else if up1 then 2 else 1
      let m1 := if up1 then 0 else n1
      let m2 := if up2 then 0 else n2
      let m3 := if up3 then 0 else n3
      let m4 := if up3 && full 4 n4 then 0 else n4
      let c' : Ctl :=
        { w1.ctl with loopcnt := BitVec.ofNat 64 (m1 + m2 * 2 ^ 16 + m3 * 2 ^ 32 + m4 * 2 ^ 48) }
      ({ w1 with ctl := c' } : View).writeReg .s (wb + 5) (.word (reg (wb + 5) + reg (wb + level))) none
    else w1
  { w2 with ctl := { w2.ctl with loopst := BitVec.ofNat 64 ((pass + 1) * 2 ^ 6 + 2 ^ 30) } }

/-- The boundary after a body bundle: the view and how the program counter moves (R112, R115). -/
def View.loopBoundary (w : View) (pc : Word) : View × Word :=
  let bidx := bits w.ctl.loopst 5 0
  let pass := bits w.ctl.loopst 29 6
  let nm1 := bits w.ctl.loopwd 5 0
  if bidx < nm1 then
    ({ w with ctl := { w.ctl with loopst := w.ctl.loopst + 1 } }, pc + 24)
  else if pass + 1 = bits w.ctl.loopwd 48 25 then
    ({ w with ctl := { w.ctl with loopst := w.ctl.loopst &&& ~~~0x40000000 }, looping := false }, pc + 24)
  else (w.nextPass, pc - BitVec.ofNat 64 (24 * nm1))

/-- The operations of a view that survive a branch taken in the bundle at context time b: those with S = 1 that would write after
the end of b + 2 are killed (R37). -/
def View.killAfter (w : View) (b : Nat) : View :=
  { w with flights := w.flights.filter fun f => !(f.s && decide (b + 2 < f.due)) }

/-- The end of a bundle (R29, R30, R36, R37, R115): results due land in both views, a taken branch counts its delay bundles and
resolves after the second, the program counter and the context time move on. `wasLooping`: the bundle stood in a loop body. -/
def Ctx.endBundle (x : Ctx) (wasLooping : Bool) : Ctx :=
  let cur := x.cur.land x.ctime
  let fin := x.fin.map fun w => w.land x.ctime
  let y : Ctx := { x with cur := cur, fin := fin, ctime := x.ctime + 1, started := true }
  match x.branch with
  | some (0, target) =>
    let w := cur.killAfter x.ctime
    { y with cur := w, fin := some w, branch := some (1, target), pc := x.pc + 24 }
  | some (1, target) => { y with branch := some (2, target), pc := x.pc + 24 }
  | some (_, target) => { y with cur := fin.getD cur, fin := none, branch := none, pc := target }
  | none =>
    if wasLooping then
      let (w, pc) := cur.loopBoundary x.pc
      { y with cur := w, pc := pc }
    else { y with pc := x.pc + 24 }

/-- The context becomes blocked: it leaves its core to others (R34, R35). -/
def State.block (s : State) (l : Loc) (w : Wait) : State :=
  let s1 := ({ s with waits := s.waits + 1 } : State).setCtx l { s.ctx l with mode := .blocked, wait := some w }
  let k := s1.core l.core
  if k.running = some l.ctx then s1.setCore l.core { k with running := none } else s1

/-- A blocked context becomes ready (R34). -/
def State.unblock (s : State) (l : Loc) : State := s.setCtx l { s.ctx l with mode := .ready, wait := none }

/-- The token that an issued bundle draws where its device has one (R379), and its charge (R386). -/
def State.charge (s : State) (l : Loc) : State :=
  match (s.ctx l).binding with
  | none => s
  | some b =>
    let a := s.arb l.core
    let key := devKey b.pav b.vd
    let s1 := if a.bucket key ≥ 1 then s.setArb l.core (a.addTokens key (-1)) else s
    s1.measured l.core b 1

/-- Whether a taken branch resolves at the end of a context's next bundle (R36). -/
def Ctx.inLastDelay (x : Ctx) : Bool :=
  match x.branch with
  | some (2, _) => true
  | _ => false

/-- Whether a branch resolves at the end of a context's next bundle, its second delay bundle, with something of the core to withdraw or to
make final (R36, R37). -/
def Ctx.resolving (x : Ctx) : Bool :=
  x.inLastDelay || x.releases.any fun e => decide (e.1 ≤ x.ctime)

/-- What a resolution does outside the context's registers (R37, R207, R229, R245): the core words of a taken branch's provisional CRW moves
are put back, its provisional triggers that a fence keeps are withdrawn, and the releases of a branch that was not taken become final. -/
def State.resolveCore (s : State) (l : Loc) (taken : Bool) : State :=
  let s1 := s.finalReleases l (s.ctx l).ctime
  if taken then
    let s2 := s1.restoreCore l (s1.ctx l).undo
    s2.setCtx l { s2.ctx l with undo := [], late := (s2.ctx l).late.filter fun o => !o.prov }
  else s1

/-- A context that is to issue a further bundle when its turn comes. -/
def Ctx.goesOn (x : Ctx) : Bool := decide (x.mode = .running) || decide (x.mode = .ready)

/-- A context that no longer stands at a marker (R118). -/
def Ctx.unmarked (x : Ctx) : Ctx := { x with marker := none }

/-- The moves that issue take effect, the bundle ends, and what follows at the boundary after it happens: markers, software
traps, handler return, yield and halt, and fence waits of a context that goes on (R29, R118, R204, R205, R247 to R249). -/
def State.perform (sem : Op → OpSem) (s : State) (l : Loc) (moves : List RMove) : State :=
  let wasLooping := (s.ctx l).cur.looping
  let resolving := (s.ctx l).resolving
  let s1 := s.setCtx l (s.ctx l).unmarked
  let s2 := s1.applyMoves sem l moves
  let s3 := s2.setCtx l ((s2.ctx l).endBundle wasLooping)
  let s4 := if resolving then s3.resolveCore l (s.ctx l).inLastDelay else s3
  let s5 := moves.foldl (fun s r => match r with | .trig o => (sem o.op).after s l o | _ => s) s4
  if (s5.ctx l).fence.isEmpty || !(s5.ctx l).goesOn then s5 else s5.block l .fence

/-- Whether a move is a memory access that is accepted after issue (R194). -/
def RMove.isAccess (sem : Op → OpSem) : RMove → Bool
  | .trig o => (sem o.op).access.isSome
  | _ => false

/-- The boundary trap that is due at a context (R392 stage 1, R393): an accumulator overflow (R161), else an increment overrun (R235), with
PEND for the other; and a memory error (R400) where neither is due. -/
def Ctx.boundaryTrap (x : Ctx) : Option Trap :=
  let c := x.cur.ctl
  if x.arithDue then some ⟨.arithmetic, 1, c.mxfault, c.ddfault, 0, if x.overrunDue then 2 else 0⟩
  else if x.overrunDue then some ⟨.overrun, 0, c.mxfault, c.ddfault, 0, 0⟩
  else if x.memErrDue then some ⟨.memory, 1, 0, 0, 0, 0⟩
  else none

/-- The context once its boundary trap is delivered (R393): a memory error that was due beside another boundary trap stays due for the
next boundary (DEDUCED, log 25). -/
def Ctx.delivered (x : Ctx) : Ctx :=
  { x with arithDue := false, overrunDue := false, memErrDue := x.memErrDue && (x.arithDue || x.overrunDue) }

/-- Take the boundary trap that is due (R393). -/
def State.takeBoundary (s : State) (l : Loc) (t : Trap) : State :=
  let x := s.ctx l
  (s.setCtx l x.delivered).takeTrap l t 0 true x.pc

/-- The issue of a bundle at a context that runs (R392): a boundary trap that is due, or the first trap of the bundle, or a wait,
or the wait for acceptance, or the bundle's effects. -/
def State.issue (sem : Op → OpSem) (s : State) (l : Loc) (items : List Item) : State :=
  match (s.ctx l).boundaryTrap with
  | some t => s.takeBoundary l t
  | none =>
    match judge sem s l items with
    | .trap slot t => s.takeTrap l t slot false (s.ctx l).pc
    | .block => s.block l .bundle
    | .go moves =>
      let s1 := s.charge l
      if moves.any (RMove.isAccess sem) then
        (s1.setCtx l { s1.ctx l with held := some moves }).block l .acceptance
      else s1.perform sem l moves

/-- The context whose turn it is: the one that runs in the core in focus, in a cycle that nothing has taken (R35). -/
def State.turn (s : State) : Option Loc :=
  match (s.core s.focus).running, (s.core s.focus).taken with
  | some x, none => some ⟨s.focus, x⟩
  | _, _ => none

/-- A context takes the present cycle of its core (R35). -/
def State.take (s : State) (l : Loc) : State := s.setCore l.core { s.core l.core with taken := some l.ctx }

/-- A bundle at the context whose turn it is; without one nothing issues (R35). -/
def State.bundle (sem : Op → OpSem) (items : List Item) (s : State) : State :=
  match s.turn with
  | some l => (s.take l).issue sem l items
  | none => s

/-- The meaning of a row with an encoding: a bundle whose one move is that trigger. -/
def runTrigger (sm : OpSem) (u : UnitId) (op : Op) (m : Mv) (s : State) : Host.Outcome State Fault Refusal :=
  .next (s.bundle (fun _ => sm) (oneItem m.slot (m.item u op)))

/-- The faults that acceptance finds, by slot; a move that a taken branch is to kill has none (R37, R194, R229). An access is checked in
the state that the accesses of lower slots leave (R198): so a load after an acquiring load of the same bundle has what that one
acquired (R326). -/
def acceptTraps (sem : Op → OpSem) (s : State) (l : Loc) : List RMove → List (Nat × Exam)
  | [] => []
  | .trig o :: rest =>
    match (sem o.op).access with
    | some check =>
      match check s l o with
      | some t => (o.slot, Exam.later o.prov 6 t) :: acceptTraps sem s l rest
      | none => acceptTraps sem ((sem o.op).act s l o) l rest
    | none => acceptTraps sem s l rest
  | _ :: rest => acceptTraps sem s l rest

/-- The wait for acceptance ends (R194): in the cycle of the bundle itself the context goes on with no bubble, later it becomes
ready. -/
def State.endWait (s : State) (l : Loc) : State :=
  let k := s.core l.core
  let now := k.taken == some l.ctx && k.running.isNone
  let s1 := s.setCtx l { s.ctx l with held := none, mode := if now then .running else .ready, wait := none }
  if now then s1.setCore l.core { s1.core l.core with running := some l.ctx } else s1

/-- Whether a trigger of a bundle has something to wait for (R34). -/
def RMove.waits (sem : Op → OpSem) (s : State) (l : Loc) : RMove → Bool
  | .trig o => (sem o.op).blocks s l o
  | _ => false

/-- Acceptance of the accesses of the bundle that a context holds (R194): the first fault is taken and no move of the bundle takes
effect, or the bundle takes effect and the wait ends. DESIGN CHOICE (log 31): a bundle that has again something to wait for, such as a queue
that another context has emptied meanwhile (R225, R226), waits for that as before its issue. -/
def State.accept (sem : Op → OpSem) (s : State) (l : Loc) : State :=
  let x := s.ctx l
  match x.held with
  | none => s
  | some moves =>
    let exams := acceptTraps sem s l moves
    let s1 := s.endWait l
    match firstTrap exams with
    | some (_, slot, t) => s1.takeTrap l t slot false x.pc
    | none =>
      let dropped := exams.map Prod.fst
      let kept := moves.filter fun r => match r with | .trig o => !dropped.contains o.slot | _ => true
      if kept.any (RMove.waits sem s l) then s.setCtx l { x with held := none, wait := some .bundle } else s1.perform sem l kept

end Sys2Proof.Machine
end

