-- ==== Sys2Proof/Machine/Scalar.lean ====
section
/-!
DEFINITION. The operations of the scalar units sx0 and sx1 (R97 to R106): integer arithmetic and logic, compares, capability
operations; and of the immediate unit im (R109).
-/

namespace Sys2Proof.Machine

/-! ### Integer operations (R99) -/

/-- An integer operation: its latency, its latches and its result; the selector names s or mp (R99). -/
def intSem (lat : Nat) (latches : List (Nat × Width)) (f : Opd → Word) : OpSem :=
  { OpSem.base with latches := latches, sel := some [.s, .mp], act := fun s l o => s.result l o lat (.word (f o)) }

/-- The six-bit amount in latch b (R99). -/
def Opd.amount (o : Opd) : Nat := bits o.b 5 0

/-- The number of leading zero bits below bit n. -/
def leadingZeros (x : Word) : Nat → Nat
  | 0 => 0
  | n + 1 => if bit x n then 0 else leadingZeros x n + 1

/-- The number of trailing zero bits from bit i on. -/
def trailingZeros (x : Word) : Nat → Nat → Nat
  | _, 0 => 0
  | i, n + 1 => if bit x i then 0 else trailingZeros x (i + 1) n + 1

/-- The number of 1 bits below bit n. -/
def popCount (x : Word) : Nat → Nat
  | 0 => 0
  | n + 1 => b2n (bit x n) + popCount x n

/-- The low w bits of a word read as a signed number (R99). -/
def signedLow (x : Word) (w : Nat) : Int :=
  let v : Nat := x.toNat % 2 ^ w
  if v < 2 ^ (w - 1) then Int.ofNat v else Int.ofNat v - Int.ofNat (2 ^ w)

/-- The sum. -/
def semAdd : OpSem := intSem 1 [(1, .word)] fun o => o.xw + o.b
/-- The difference. -/
def semSub : OpSem := intSem 1 [(1, .word)] fun o => o.xw - o.b
/-- The low half of the product. -/
def semMul : OpSem := intSem 3 [(1, .word)] fun o => o.xw * o.b
/-- The high half of the signed product. -/
def semMulh : OpSem := intSem 3 [(1, .word)] fun o => BitVec.ofInt 64 ((sgn o.xw * sgn o.b) / 2 ^ 64)
/-- The high half of the unsigned product. -/
def semMulhn : OpSem := intSem 3 [(1, .word)] fun o => BitVec.ofNat 64 ((o.xw.toNat * o.b.toNat) / 2 ^ 64)
/-- The bitwise and. -/
def semAnd : OpSem := intSem 1 [(1, .word)] fun o => o.xw &&& o.b
/-- The bitwise or. -/
def semOr : OpSem := intSem 1 [(1, .word)] fun o => o.xw ||| o.b
/-- The bitwise exclusive or. -/
def semXor : OpSem := intSem 1 [(1, .word)] fun o => o.xw ^^^ o.b
/-- The bitwise and with the complement of b. -/
def semAndn : OpSem := intSem 1 [(1, .word)] fun o => o.xw &&& ~~~o.b
/-- The shift left. -/
def semShl : OpSem := intSem 1 [(1, .word)] fun o => o.xw <<< o.amount
/-- The unsigned shift right. -/
def semShr : OpSem := intSem 1 [(1, .word)] fun o => o.xw >>> o.amount
/-- The signed shift right. -/
def semSar : OpSem := intSem 1 [(1, .word)] fun o => o.xw.sshiftRight o.amount
/-- The signed lesser. -/
def semMin : OpSem := intSem 1 [(1, .word)] fun o => if sgn o.xw ≤ sgn o.b then o.xw else o.b
/-- The signed greater. -/
def semMax : OpSem := intSem 1 [(1, .word)] fun o => if sgn o.b ≤ sgn o.xw then o.xw else o.b
/-- The unsigned lesser. -/
def semMinn : OpSem := intSem 1 [(1, .word)] fun o => if o.xw.toNat ≤ o.b.toNat then o.xw else o.b
/-- The unsigned greater. -/
def semMaxn : OpSem := intSem 1 [(1, .word)] fun o => if o.b.toNat ≤ o.xw.toNat then o.xw else o.b
/-- The leading zero bits. -/
def semClz : OpSem := intSem 1 [] fun o => BitVec.ofNat 64 (leadingZeros o.xw 64)
/-- The trailing zero bits. -/
def semCtz : OpSem := intSem 1 [] fun o => BitVec.ofNat 64 (trailingZeros o.xw 0 64)
/-- The 1 bits. -/
def semPopc : OpSem := intSem 1 [] fun o => BitVec.ofNat 64 (popCount o.xw 64)
/-- Sign extension from b[5:0] + 1 bits. -/
def semSext : OpSem := intSem 1 [(1, .word)] fun o => BitVec.ofInt 64 (signedLow o.xw (o.amount + 1))
/-- Zero extension from b[5:0] + 1 bits. -/
def semZext : OpSem := intSem 1 [(1, .word)] fun o => BitVec.ofNat 64 (o.xw.toNat % 2 ^ (o.amount + 1))
/-- Select: b where x is not 0, else c. -/
def semSel : OpSem := intSem 1 [(1, .word), (2, .word)] fun o => if truth o.xw then o.b else o.c

/-- ADD (R99). -/
def execAdd (unit : Nat) (m : Mv) (s : State) : Host.Outcome State Fault Refusal :=
  runTrigger semAdd (sxUnit unit) .add m s

/-- SUB (R99). -/
def execSub (unit : Nat) (m : Mv) (s : State) : Host.Outcome State Fault Refusal :=
  runTrigger semSub (sxUnit unit) .sub m s

/-- MUL (R99). -/
def execMul (unit : Nat) (m : Mv) (s : State) : Host.Outcome State Fault Refusal :=
  runTrigger semMul (sxUnit unit) .mul m s

/-- MULH (R99). -/
def execMulh (unit : Nat) (m : Mv) (s : State) : Host.Outcome State Fault Refusal :=
  runTrigger semMulh (sxUnit unit) .mulh m s

/-- MULHN (R99). -/
def execMulhn (unit : Nat) (m : Mv) (s : State) : Host.Outcome State Fault Refusal :=
  runTrigger semMulhn (sxUnit unit) .mulhn m s

/-- AND (R99). -/
def execAnd (unit : Nat) (m : Mv) (s : State) : Host.Outcome State Fault Refusal :=
  runTrigger semAnd (sxUnit unit) .and m s

/-- OR (R99). -/
def execOr (unit : Nat) (m : Mv) (s : State) : Host.Outcome State Fault Refusal :=
  runTrigger semOr (sxUnit unit) .or m s

/-- XOR (R99). -/
def execXor (unit : Nat) (m : Mv) (s : State) : Host.Outcome State Fault Refusal :=
  runTrigger semXor (sxUnit unit) .xor m s

/-- ANDN (R99). -/
def execAndn (unit : Nat) (m : Mv) (s : State) : Host.Outcome State Fault Refusal :=
  runTrigger semAndn (sxUnit unit) .andn m s

/-- SHL (R99). -/
def execShl (unit : Nat) (m : Mv) (s : State) : Host.Outcome State Fault Refusal :=
  runTrigger semShl (sxUnit unit) .shl m s

/-- SHR (R99). -/
def execShr (unit : Nat) (m : Mv) (s : State) : Host.Outcome State Fault Refusal :=
  runTrigger semShr (sxUnit unit) .shr m s

/-- SAR (R99). -/
def execSar (unit : Nat) (m : Mv) (s : State) : Host.Outcome State Fault Refusal :=
  runTrigger semSar (sxUnit unit) .sar m s

/-- MIN (R99). -/
def execMin (unit : Nat) (m : Mv) (s : State) : Host.Outcome State Fault Refusal :=
  runTrigger semMin (sxUnit unit) .min m s

/-- MAX (R99). -/
def execMax (unit : Nat) (m : Mv) (s : State) : Host.Outcome State Fault Refusal :=
  runTrigger semMax (sxUnit unit) .max m s

/-- MINN (R99). -/
def execMinn (unit : Nat) (m : Mv) (s : State) : Host.Outcome State Fault Refusal :=
  runTrigger semMinn (sxUnit unit) .minn m s

/-- MAXN (R99). -/
def execMaxn (unit : Nat) (m : Mv) (s : State) : Host.Outcome State Fault Refusal :=
  runTrigger semMaxn (sxUnit unit) .maxn m s

/-- CLZ (R99). -/
def execClz (unit : Nat) (m : Mv) (s : State) : Host.Outcome State Fault Refusal :=
  runTrigger semClz (sxUnit unit) .clz m s

/-- CTZ (R99). -/
def execCtz (unit : Nat) (m : Mv) (s : State) : Host.Outcome State Fault Refusal :=
  runTrigger semCtz (sxUnit unit) .ctz m s

/-- POPC (R99). -/
def execPopc (unit : Nat) (m : Mv) (s : State) : Host.Outcome State Fault Refusal :=
  runTrigger semPopc (sxUnit unit) .popc m s

/-- SEXT (R99). -/
def execSext (unit : Nat) (m : Mv) (s : State) : Host.Outcome State Fault Refusal :=
  runTrigger semSext (sxUnit unit) .sext m s

/-- ZEXT (R99). -/
def execZext (unit : Nat) (m : Mv) (s : State) : Host.Outcome State Fault Refusal :=
  runTrigger semZext (sxUnit unit) .zext m s

/-- SEL (R99). -/
def execSel (unit : Nat) (m : Mv) (s : State) : Host.Outcome State Fault Refusal :=
  runTrigger semSel (sxUnit unit) .sel m s


/-! ### Compares (R100) -/

/-- A compare: 1 where the relation holds, to p or s (R100). -/
def cmpSem (f : Word → Word → Bool) : OpSem :=
  { OpSem.base with
    latches := [(1, .word)]
    sel := some [.p, .s]
    act := fun s l o => s.result l o 1 (.word (boolWord (f o.xw o.b))) }

/-- Equal. -/
def semCmpeq : OpSem := cmpSem fun x b => x == b
/-- Not equal. -/
def semCmpne : OpSem := cmpSem fun x b => x != b
/-- Signed less. -/
def semCmplt : OpSem := cmpSem fun x b => decide (sgn x < sgn b)
/-- Signed less or equal. -/
def semCmple : OpSem := cmpSem fun x b => decide (sgn x ≤ sgn b)
/-- Unsigned less. -/
def semCmpltn : OpSem := cmpSem fun x b => decide (x.toNat < b.toNat)
/-- Unsigned less or equal. -/
def semCmplen : OpSem := cmpSem fun x b => decide (x.toNat ≤ b.toNat)

/-- CMPEQ (R100). -/
def execCmpeq (unit : Nat) (m : Mv) (s : State) : Host.Outcome State Fault Refusal :=
  runTrigger semCmpeq (sxUnit unit) .cmpeq m s

/-- CMPNE (R100). -/
def execCmpne (unit : Nat) (m : Mv) (s : State) : Host.Outcome State Fault Refusal :=
  runTrigger semCmpne (sxUnit unit) .cmpne m s

/-- CMPLT (R100). -/
def execCmplt (unit : Nat) (m : Mv) (s : State) : Host.Outcome State Fault Refusal :=
  runTrigger semCmplt (sxUnit unit) .cmplt m s

/-- CMPLE (R100). -/
def execCmple (unit : Nat) (m : Mv) (s : State) : Host.Outcome State Fault Refusal :=
  runTrigger semCmple (sxUnit unit) .cmple m s

/-- CMPLTN (R100). -/
def execCmpltn (unit : Nat) (m : Mv) (s : State) : Host.Outcome State Fault Refusal :=
  runTrigger semCmpltn (sxUnit unit) .cmpltn m s

/-- CMPLEN (R100). -/
def execCmplen (unit : Nat) (m : Mv) (s : State) : Host.Outcome State Fault Refusal :=
  runTrigger semCmplen (sxUnit unit) .cmplen m s


/-! ### Capabilities (R101 to R106) -/

/-- BASE: the first byte address covered (R101). -/
def Cap.base (c : Cap) : Nat := bits c.raw 56 0
/-- LEN: the bytes covered (R101). -/
def Cap.len (c : Cap) : Nat := bits c.raw 104 57
/-- PERM (R101, R103). -/
def Cap.perm (c : Cap) : Byte := BitVec.ofNat 8 (bits c.raw 112 105)
/-- TENANT (R101). -/
def Cap.tenant (c : Cap) : Nat := bits c.raw 120 113
/-- PERM[6]: sealed (R103). -/
def Cap.isSealed (c : Cap) : Bool := bit c.perm 6

/-- A tagged capability with its fields (R101); its reserved bits are 0. DESIGN CHOICE (log 31): a BASE of 2^57, which CINC and CDERIVE reach
with b = LEN at the end of the address range, does not fit in its field and becomes 0. -/
def Cap.make (base len : Nat) (perm : Byte) (tenant : Nat) : Cap :=
  ⟨BitVec.ofNat 128 (base % 2 ^ 57 + (len % 2 ^ 48) * 2 ^ 57 + perm.toNat * 2 ^ 105 + (tenant % 256) * 2 ^ 113), true⟩

/-- A capability with other BASE and LEN. -/
def Cap.cover (c : Cap) (base len : Nat) : Cap := .make base len c.perm c.tenant

/-- A capability with another PERM. -/
def Cap.permit (c : Cap) (perm : Byte) : Cap := .make c.base c.len perm c.tenant

/-- Latch o3 as a capability. -/
def Opd.k (o : Opd) : Cap := (o.o3.getD (.word 0)).toCap

/-- The first checks of a capability operation (R105): the tag, and the seal as the operation requires it. -/
def capOperand (x : Cap) (want : Bool) : Option Trap :=
  if !x.tag then some (capTrap 1 0) else if x.isSealed != want then some (capTrap 2 0) else none

/-- A capability operation (R105): its latches, the seal it requires, its further check and its result. -/
def capSem (latches : List (Nat × Width)) (want : Bool) (check : Opd → Option Trap) (f : Opd → Cap) : OpSem :=
  { OpSem.base with
    xw := .cap
    latches := latches
    sel := some [.a]
    capability := fun _ _ o => match capOperand o.xc want with | some t => some t | none => check o
    parts := [⟨5, [0], fun _ _ o => capOperand o.xc want⟩]
    act := fun s l o => s.result l o 1 (.cap (f o)) }

/-- Cause bounds where a condition fails. -/
def boundsUnless (c : Bool) : Option Trap := if c then none else some (capTrap 5 0)

/-- An operation with a further part of its checks that reads only some operands. -/
def OpSem.withPart (sm : OpSem) (p : Part) : OpSem := { sm with parts := sm.parts ++ [p] }

/-- A part of a capability: offset b, length c. -/
def semCderive : OpSem :=
  capSem [(1, .word), (2, .word)] false
    (fun o => boundsUnless (decide (o.b.toNat ≤ o.xc.len ∧ o.c.toNat ≤ o.xc.len - o.b.toNat)))
    (fun o => o.xc.cover (o.xc.base + o.b.toNat) o.c.toNat) |>.withPart
      ⟨5, [0, 1], fun _ _ o => boundsUnless (decide (o.b.toNat ≤ o.xc.len))⟩
/-- A shorter capability: length b. -/
def semCnarrow : OpSem :=
  capSem [(1, .word)] false (fun o => boundsUnless (decide (o.b.toNat ≤ o.xc.len)))
    fun o => o.xc.cover o.xc.base o.b.toNat
/-- Fewer grants and more restrictions, by mask b. -/
def semCrestrict : OpSem :=
  capSem [(1, .word)] false (fun _ => none) fun o =>
    let b : Byte := o.b.setWidth 8
    o.xc.permit ((o.xc.perm &&& b &&& 0x8F) ||| (o.xc.perm &&& 0x70) ||| (b &&& 0x30))
/-- A capability advanced by b. -/
def semCinc : OpSem :=
  capSem [(1, .word)] false (fun o => boundsUnless (decide (o.b.toNat ≤ o.xc.len)))
    fun o => o.xc.cover (o.xc.base + o.b.toNat) (o.xc.len - o.b.toNat)
/-- A sealed capability. -/
def semCseal : OpSem := capSem [] false (fun _ => none) fun o => o.xc.permit (o.xc.perm ||| 0x40)

/-- What CUNSEAL requires of its authority (R105). -/
def authorises (k x : Cap) : Bool :=
  k.tag && !k.isSealed && k.tenant == x.tenant && decide (k.base ≤ x.base) && decide (x.base + x.len ≤ k.base + k.len) &&
    (x.perm &&& ~~~k.perm &&& 0x8F) == 0 && (k.perm &&& ~~~x.perm &&& 0x30) == 0

/-- A capability unsealed by the authority K in latch o3. -/
def semCunseal : OpSem :=
  capSem [(3, .cap)] true (fun o => if authorises o.k o.xc then none else some (capTrap 4 0))
    fun o => o.xc.permit (o.xc.perm &&& ~~~0x40)

/-- An inspection of a capability (R106). -/
def capRead (files : List RFile) (f : Cap → Word) : OpSem :=
  { OpSem.base with xw := .cap, sel := some files, act := fun s l o => s.result l o 1 (.word (f o.xc)) }

/-- BASE. -/
def semCbase : OpSem := capRead [.s, .mp] fun x => BitVec.ofNat 64 x.base
/-- LEN. -/
def semClen : OpSem := capRead [.s, .mp] fun x => BitVec.ofNat 64 x.len
/-- PERM, TENANT and the tag. -/
def semCperm : OpSem :=
  capRead [.s, .mp] fun x => BitVec.ofNat 64 (x.perm.toNat + x.tenant * 2 ^ 8 + b2n x.tag * 2 ^ 16)
/-- The tag, to p or s. -/
def semCvalid : OpSem := capRead [.p, .s] fun x => boolWord x.tag

/-- CDERIVE (R105). -/
def execCderive (unit : Nat) (m : Mv) (s : State) : Host.Outcome State Fault Refusal :=
  runTrigger semCderive (sxUnit unit) .cderive m s

/-- CNARROW (R105). -/
def execCnarrow (unit : Nat) (m : Mv) (s : State) : Host.Outcome State Fault Refusal :=
  runTrigger semCnarrow (sxUnit unit) .cnarrow m s

/-- CRESTRICT (R105). -/
def execCrestrict (unit : Nat) (m : Mv) (s : State) : Host.Outcome State Fault Refusal :=
  runTrigger semCrestrict (sxUnit unit) .crestrict m s

/-- CINC (R105). -/
def execCinc (unit : Nat) (m : Mv) (s : State) : Host.Outcome State Fault Refusal :=
  runTrigger semCinc (sxUnit unit) .cinc m s

/-- CBASE (R106). -/
def execCbase (unit : Nat) (m : Mv) (s : State) : Host.Outcome State Fault Refusal :=
  runTrigger semCbase (sxUnit unit) .cbase m s

/-- CLEN (R106). -/
def execClen (unit : Nat) (m : Mv) (s : State) : Host.Outcome State Fault Refusal :=
  runTrigger semClen (sxUnit unit) .clen m s

/-- CPERM (R106). -/
def execCperm (unit : Nat) (m : Mv) (s : State) : Host.Outcome State Fault Refusal :=
  runTrigger semCperm (sxUnit unit) .cperm m s

/-- CSEAL (R105). -/
def execCseal (unit : Nat) (m : Mv) (s : State) : Host.Outcome State Fault Refusal :=
  runTrigger semCseal (sxUnit unit) .cseal m s

/-- CUNSEAL (R105). -/
def execCunseal (unit : Nat) (m : Mv) (s : State) : Host.Outcome State Fault Refusal :=
  runTrigger semCunseal (sxUnit unit) .cunseal m s

/-- CVALID (R106). -/
def execCvalid (unit : Nat) (m : Mv) (s : State) : Host.Outcome State Fault Refusal :=
  runTrigger semCvalid (sxUnit unit) .cvalid m s


/-! ### The immediate unit (R109) -/

/-- A constant delivered to s, mp or p. -/
def semImm : OpSem :=
  { OpSem.base with sel := some [.s, .mp, .p], act := fun s l o => s.result l o 1 (.word o.xw) }
/-- A constant of two halves: x above b. -/
def semCat : OpSem :=
  { OpSem.base with
    latches := [(1, .word)]
    sel := some [.s, .mp]
    act := fun s l o => s.result l o 1 (.word (BitVec.ofNat 64 (o.xw.toNat % 2 ^ 32 * 2 ^ 32 + o.b.toNat % 2 ^ 32))) }

/-- IMM (R109). -/
def execImm (m : Mv) (s : State) : Host.Outcome State Fault Refusal :=
  runTrigger semImm .im .imm m s

/-- CAT (R109). -/
def execCat (m : Mv) (s : State) : Host.Outcome State Fault Refusal :=
  runTrigger semCat .im .cat m s


end Sys2Proof.Machine
end

