-- ==== Sys2Proof/Machine/Branch.lean ====
section
/-!
DEFINITION. The transfers of the branch unit br and loop replay (R36, R39, R75, R110 to R113, R116).
-/

namespace Sys2Proof.Machine

/-- The image bound to a context. -/
def State.imageOf (s : State) (l : Loc) : Option Image :=
  match (s.ctx l).binding with
  | some b => s.images.find? b.image
  | none => none

/-- Whether an address lies in the text section of the image bound to a context (R111). -/
def State.inText (s : State) (l : Loc) (a : Word) : Bool :=
  match s.imageOf l with
  | some i => decide (i.base.toNat ≤ a.toNat ∧ a.toNat < i.base.toNat + i.size)
  | none => false

/-- The sequence trap of a br trigger in a delay bundle of a taken branch or in a loop body (R39, R116). -/
def branchPlace (s : State) (l : Loc) (_ : Opd) : Option Cause :=
  if (s.ctx l).inDelay || (s.ctx l).cur.looping then some 1 else none

/-- That trap (R39, R116, R392 stage 3): it needs no operand. -/
def branchTrap (s : State) (l : Loc) : Option Trap :=
  if (s.ctx l).inDelay || (s.ctx l).cur.looping then some (sequenceTrap 1) else none

/-- The top of the mask stack; all ones at depth 0 (R124, R135). -/
def View.top (w : View) : Mask := w.stack.headD (BitVec.allOnes 128)

/-- The context after the trigger of a transfer: a taken one is pending with its target, the other resolves two bundles later
(R36). -/
def Ctx.transfer (x : Ctx) (taken : Bool) (target : Word) : Ctx :=
  if taken then { x with branch := some (0, target) } else { x with untaken := x.ctime + 2 }

/-- A transfer (R110, R111): its target, whether it is taken, and whether it links. -/
def transferSem (relative : Bool) (taken : View → Bool) (link : Bool) : OpSem :=
  let target (s : State) (l : Loc) (o : Opd) : Word := if relative then (s.ctx l).pc + o.xw else o.xw
  { OpSem.base with
    sel := if link then some [.s] else none
    plainS := true
    encoding := fun s l o => if bits (target s l o) 2 0 = 0 then none else some 6
    sequence := branchPlace
    parts := [.place 3 branchTrap]
    capability := fun s l o =>
      if taken (s.ctx l).cur && !s.inText l (target s l o) then some (capTrap 7 (target s l o)) else none
    act := fun s l o =>
      let s1 := s.setCtx l ((s.ctx l).transfer (taken (s.ctx l).cur) (target s l o))
      if link then s1.result l o 1 (.word ((s.ctx l).pc + 72)) else s1 }

/-- Relative branch. -/
def semJmp : OpSem := transferSem true (fun _ => true) false
/-- Absolute branch. -/
def semJmpa : OpSem := transferSem false (fun _ => true) false
/-- Relative call. -/
def semCall : OpSem := transferSem true (fun _ => true) true
/-- Absolute call. -/
def semCalla : OpSem := transferSem false (fun _ => true) true
/-- Return; the architected effect of JMPA. -/
def semRet : OpSem := transferSem false (fun _ => true) false
/-- Relative branch where the top mask is all zero. -/
def semBmz : OpSem := transferSem true (fun w => w.top == 0) false
/-- Relative branch where the top mask has a 1. -/
def semBmnz : OpSem := transferSem true (fun w => w.top != 0) false

/-- JMP (R110). -/
def execJmp (m : Mv) (s : State) : Host.Outcome State Fault Refusal :=
  runTrigger semJmp .br .jmp m s

/-- JMPA (R110). -/
def execJmpa (m : Mv) (s : State) : Host.Outcome State Fault Refusal :=
  runTrigger semJmpa .br .jmpa m s

/-- CALL (R110). -/
def execCall (m : Mv) (s : State) : Host.Outcome State Fault Refusal :=
  runTrigger semCall .br .call m s

/-- CALLA (R110). -/
def execCalla (m : Mv) (s : State) : Host.Outcome State Fault Refusal :=
  runTrigger semCalla .br .calla m s

/-- RET (R110). -/
def execRet (m : Mv) (s : State) : Host.Outcome State Fault Refusal :=
  runTrigger semRet .br .ret m s

/-- BMZ (R110). -/
def execBmz (m : Mv) (s : State) : Host.Outcome State Fault Refusal :=
  runTrigger semBmz .br .bmz m s

/-- BMNZ (R110). -/
def execBmnz (m : Mv) (s : State) : Host.Outcome State Fault Refusal :=
  runTrigger semBmnz .br .bmnz m s


/-- What MARK refuses in a loop word (R113). -/
def loopWordBad (x : Word) : Bool :=
  let stages := bits x 10 6
  let sp := bits x 17 11
  let passes := bits x 48 25
  passes == 0 || bits x 63 49 != 0 ||
    (decide (stages > 0) && (sp == 0 || decide (sp + stages - 1 > 127) || decide (passes < stages))) ||
    (bit x 24 && decide (bits x 23 18 > 58))

/-- The effects of MARK: the loop registers, and the stage predicates where there are stages (R112, R113). -/
def markEffs (x sw : Word) : List Eff :=
  [.ctl 0x00C x, .ctl 0x00D sw, .ctl 0x00E 0x40000000, .ctl 0x00F 0, .startLoop] ++
    (List.range (bits x 10 6)).map fun j => Eff.reg .p (bits x 17 11 + j) (.word (boolWord (j == 0))) none

/-- The start of loop replay. -/
def semMark : OpSem :=
  { OpSem.base with
    latches := [(1, .word)]
    plainS := true
    encoding := fun _ _ o => if loopWordBad o.xw then some 29 else none
    sequence := branchPlace
    parts := [.enc [0] fun _ _ o => if loopWordBad o.xw then some 29 else none, .place 3 branchTrap]
    act := fun s l o => s.after l o 1 (markEffs o.xw o.b) }

/-- MARK (R112). -/
def execMark (m : Mv) (s : State) : Host.Outcome State Fault Refusal :=
  runTrigger semMark .br .mark m s


end Sys2Proof.Machine
end

