-- ==== Sys2Proof/Machine/Pred.lean ====
section
/-!
DEFINITION. The predicate operations of the unit pd (R107) and the write of GBASE (R108).
-/

namespace Sys2Proof.Machine

/-- A predicate operation: its result to p or s (R107). -/
def predSem (latches : List (Nat × Width)) (f : Opd → Bool) : OpSem :=
  { OpSem.base with
    latches := latches
    sel := some [.p, .s]
    act := fun s l o => s.result l o 1 (.word (boolWord (f o))) }

/-- T(x) and T(b). -/
def semPand : OpSem := predSem [(1, .word)] fun o => truth o.xw && truth o.b
/-- T(x) or T(b). -/
def semPor : OpSem := predSem [(1, .word)] fun o => truth o.xw || truth o.b
/-- T(x) exclusive or T(b). -/
def semPxor : OpSem := predSem [(1, .word)] fun o => truth o.xw != truth o.b
/-- T(x) and not T(b). -/
def semPandn : OpSem := predSem [(1, .word)] fun o => truth o.xw && !truth o.b
/-- T(x) or not T(b). -/
def semPorn : OpSem := predSem [(1, .word)] fun o => truth o.xw || !truth o.b
/-- not T(x). -/
def semPnot : OpSem := predSem [] fun o => !truth o.xw
/-- The bit of x that b[5:0] names. -/
def semPset : OpSem := predSem [(1, .word)] fun o => bit o.xw o.amount

/-- What a write of GBASE refuses (R77): BASE above 120, or a reserved bit. -/
def gbaseBad (x : Word) : Bool := decide (x.toNat > 120)

/-- The write of GBASE, with latency 1; pd.res receives x (R108). -/
def semGbase : OpSem :=
  { OpSem.base with
    encoding := fun _ _ o => if gbaseBad o.xw then some 29 else none
    parts := [.enc [0] fun _ _ o => if gbaseBad o.xw then some 29 else none]
    act := fun s l o => s.after l o 1 [.ctl 0x001 o.xw, .res o.unit (.word o.xw) none] }

/-- PAND (R107). -/
def execPand (m : Mv) (s : State) : Host.Outcome State Fault Refusal :=
  runTrigger semPand .pd .pand m s

/-- POR (R107). -/
def execPor (m : Mv) (s : State) : Host.Outcome State Fault Refusal :=
  runTrigger semPor .pd .por m s

/-- PXOR (R107). -/
def execPxor (m : Mv) (s : State) : Host.Outcome State Fault Refusal :=
  runTrigger semPxor .pd .pxor m s

/-- PANDN (R107). -/
def execPandn (m : Mv) (s : State) : Host.Outcome State Fault Refusal :=
  runTrigger semPandn .pd .pandn m s

/-- PORN (R107). -/
def execPorn (m : Mv) (s : State) : Host.Outcome State Fault Refusal :=
  runTrigger semPorn .pd .porn m s

/-- PNOT (R107). -/
def execPnot (m : Mv) (s : State) : Host.Outcome State Fault Refusal :=
  runTrigger semPnot .pd .pnot m s

/-- PSET (R107). -/
def execPset (m : Mv) (s : State) : Host.Outcome State Fault Refusal :=
  runTrigger semPset .pd .pset m s

/-- GBASE (R108). -/
def execGbase (m : Mv) (s : State) : Host.Outcome State Fault Refusal :=
  runTrigger semGbase .pd .gbase m s


end Sys2Proof.Machine
end

