-- ==== Sys2Proof/Machine/Mask.lean ====
section
/-!
DEFINITION. The mask unit mk (R135, R136).
-/

namespace Sys2Proof.Machine

/-- What a mask operation does: the depth that it sets, the entry that it writes with its number, and its result. -/
structure MaskEffect where
  depth : Option Nat
  put : Option (Nat × Mask)
  result : Mask

/-- A mask operation (R136): the depth it requires, and what it does, from the stack that it finds. The depth and the entry that it sets are
those of the stack as its trigger finds it, and stand where a provisional operation before it is withdrawn (R37). -/
def maskSem (need : List Mask → Option Cause) (f : List Mask → Mask → MaskEffect) : OpSem :=
  { OpSem.base with
    xw := .mask
    sel := some [.k, .v]
    sequence := fun s l _ => need (s.ctx l).cur.stack
    parts := [.place 3 fun s l => (need (s.ctx l).cur.stack).map sequenceTrap]
    act := fun s l o =>
      let r := f (s.ctx l).cur.stack o.xm
      s.after l o 1 (.stack r.depth r.put :: o.resultEffs (.mask r.result) none) }

/-- The top of a stack (R135). -/
def topOf (ms : List Mask) : Mask := ms.headD (BitVec.allOnes 128)

/-- The mask stack is full: cause mask overflow. -/
def maskFull (ms : List Mask) : Option Cause := if ms.length < 16 then none else some 2

/-- The mask stack is empty: cause mask underflow. -/
def maskNone (ms : List Mask) : Option Cause := if ms = [] then some 3 else none

/-- Push the top and x. -/
def semMpush : OpSem := maskSem maskFull fun ms x =>
  ⟨some (ms.length + 1), some (ms.length + 1, topOf ms &&& x), topOf ms &&& x⟩
/-- The lanes of the entry below that the top does not have. -/
def semMinv : OpSem :=
  maskSem maskNone fun ms _ => ⟨none, some (ms.length, topOf ms.tail &&& ~~~topOf ms), topOf ms.tail &&& ~~~topOf ms⟩
/-- Pop. -/
def semMpop : OpSem := maskSem maskNone fun ms _ => ⟨some (ms.length - 1), none, topOf ms.tail⟩
/-- The entry x[3:0] below the top. -/
def semMpeek : OpSem := maskSem (fun _ => none) fun ms x => ⟨none, none, topOf (ms.drop (bits x 3 0))⟩
/-- Empty the stack. -/
def semMreset : OpSem := maskSem (fun _ => none) fun _ _ => ⟨some 0, none, BitVec.allOnes 128⟩

/-- MPUSH (R136). -/
def execMpush (m : Mv) (s : State) : Host.Outcome State Fault Refusal :=
  runTrigger semMpush .mk .mpush m s

/-- MINV (R136). -/
def execMinv (m : Mv) (s : State) : Host.Outcome State Fault Refusal :=
  runTrigger semMinv .mk .minv m s

/-- MPOP (R136). -/
def execMpop (m : Mv) (s : State) : Host.Outcome State Fault Refusal :=
  runTrigger semMpop .mk .mpop m s

/-- MPEEK (R136). -/
def execMpeek (m : Mv) (s : State) : Host.Outcome State Fault Refusal :=
  runTrigger semMpeek .mk .mpeek m s

/-- MRESET (R136). -/
def execMreset (m : Mv) (s : State) : Host.Outcome State Fault Refusal :=
  runTrigger semMreset .mk .mreset m s


end Sys2Proof.Machine
end

