-- ==== Sys2Proof/Machine/Vector.lean ====
section
/-!
DEFINITION. The vector units vx0 to vx2 (R121 to R134): lanes under the mask, FP32 arithmetic, compares, integer lanes,
conversions, permutes and reductions.
-/

namespace Sys2Proof.Machine

/-- The lane mask of a trigger: the top of the mask stack (R124). -/
def State.laneMask (s : State) (l : Loc) : Mask := (s.ctx l).cur.top

/-- The lanes that a function gives in the enabled lanes from lane i on, as one number, with the flags of those lanes. -/
def runLanes (m : Mask) (f : Nat → Lane × Nat) : Nat → Nat → Nat × Nat
  | _, 0 => (0, 0)
  | i, n + 1 =>
    let r := if bit m i then f i else (0, 0)
    let t := runLanes m f (i + 1) n
    (r.1.toNat + 2 ^ 32 * t.1, r.2 ||| t.2)

/-- The 128 lanes that a function gives under a mask, with the flags (R52, R124). -/
def maskedLanes (m : Mask) (f : Nat → Lane × Nat) : Vec × Nat :=
  let r := runLanes m f 0 128
  (BitVec.ofNat 4096 r.1, r.2)

/-- A vector operation with a v destination (R124): its latency, its latches and each lane's result and flags. -/
def laneSem (lat : Nat) (latches : List (Nat × Width)) (f : Opd → Nat → Lane × Nat) : OpSem :=
  { OpSem.base with
    xw := .vec
    latches := latches
    sel := some [.v]
    act := fun s l o =>
      let m := s.laneMask l
      let r := maskedLanes m (f o)
      s.after l o lat (o.resultEffs (.vec r.1) (some m) ++ [.flags r.2]) }

/-- A vector compare with a k destination (R124): its relation and flags. -/
def laneCmp (f : Lane → Lane → Bool) (flags : Lane → Lane → Nat) : OpSem :=
  { OpSem.base with
    xw := .vec
    latches := [(1, .vec)]
    sel := some [.k]
    act := fun s l o =>
      let m := s.laneMask l
      let r := maskedLanes m fun i => (0, flags (lane o.xv i) (lane o.bv i))
      let k := ofBits fun i => bit m i && f (lane o.xv i) (lane o.bv i)
      s.after l o 2 (o.resultEffs (.mask k) (some m) ++ [.flags r.2]) }

/-- Latch b alone. -/
def oneLatch : List (Nat × Width) := [(1, .vec)]
/-- Latches b and c. -/
def twoLatches : List (Nat × Width) := [(1, .vec), (2, .vec)]

/-! ### FP32 arithmetic (R125 to R128) -/

/-- x + b. -/
def semFadd : OpSem := laneSem 4 oneLatch fun o i => fadd (lane o.xv i) (lane o.bv i)
/-- x − b. -/
def semFsub : OpSem := laneSem 4 oneLatch fun o i => fsub (lane o.xv i) (lane o.bv i)
/-- x × b. -/
def semFmul : OpSem := laneSem 4 oneLatch fun o i => fmul (lane o.xv i) (lane o.bv i)
/-- x × b + c. -/
def semFma : OpSem := laneSem 4 twoLatches fun o i => ffma (lane o.xv i) (lane o.bv i) (lane o.cv i)
/-- x × b − c. -/
def semFms : OpSem := laneSem 4 twoLatches fun o i => ffma (lane o.xv i) (lane o.bv i) (negLane (lane o.cv i))
/-- −x × b + c. -/
def semFnma : OpSem := laneSem 4 twoLatches fun o i => ffma (negLane (lane o.xv i)) (lane o.bv i) (lane o.cv i)
/-- The lesser. -/
def semFmin : OpSem := laneSem 2 oneLatch fun o i => fpick false (lane o.xv i) (lane o.bv i)
/-- The greater. -/
def semFmax : OpSem := laneSem 2 oneLatch fun o i => fpick true (lane o.xv i) (lane o.bv i)
/-- The magnitude. -/
def semFabs : OpSem := laneSem 2 [] fun o i => (lane o.xv i &&& 0x7FFFFFFF, 0)
/-- The negation. -/
def semFneg : OpSem := laneSem 2 [] fun o i => (negLane (lane o.xv i), 0)

/-- The compensated add: the sum to v[n], the compensation to v[(n + 1) mod V] (R127). -/
def semFcadd : OpSem :=
  { OpSem.base with
    xw := .vec
    latches := twoLatches
    sel := some [.v]
    act := fun s l o =>
      let m := s.laneMask l
      let vc := (s.core l.core).vcount l.ctx
      let f (i : Nat) := fcadd (lane o.xv i) (lane o.bv i) (lane o.cv i)
      let r := maskedLanes m fun i => ((f i).1, (f i).2.2)
      let c := maskedLanes m fun i => ((f i).2.1, 0)
      let second : List Eff :=
        match o.dest with
        | some (_, n) => [.reg .v ((n + 1) % vc) (.vec c.1) (some m)]
        | none => []
      s.after l o 5 (o.resultEffs (.vec r.1) (some m) ++ second ++ [.flags r.2]) }

/-- Fade of x. -/
def semFade : OpSem := laneSem 4 [] fun o i => faded (canonical (lane o.xv i))
/-- Fade of x × b. -/
def semFademul : OpSem := laneSem 4 oneLatch fun o i => faded (fmul (lane o.xv i) (lane o.bv i))
/-- Fade of x × b + c. -/
def semFadefma : OpSem := laneSem 4 twoLatches fun o i => faded (ffma (lane o.xv i) (lane o.bv i) (lane o.cv i))

/-! ### Compares (R129, R131) -/

/-- Equal numbers. -/
def semFcmpeq : OpSem := laneCmp fequal (compareFlags false)
/-- Less. -/
def semFcmplt : OpSem := laneCmp fless (compareFlags true)
/-- Less or equal. -/
def semFcmple : OpSem := laneCmp (fun a b => fless a b || fequal a b) (compareFlags true)
/-- Equal integers. -/
def semIcmpeq : OpSem := laneCmp (fun a b => a == b) fun _ _ => 0
/-- Signed less. -/
def semIcmplt : OpSem := laneCmp (fun a b => decide (a.toInt < b.toInt)) fun _ _ => 0
/-- Unsigned less. -/
def semIcmpltn : OpSem := laneCmp (fun a b => decide (a.toNat < b.toNat)) fun _ _ => 0

/-! ### Integer lanes (R130) -/

/-- An integer lane operation (R130). -/
def intLanes (lat : Nat) (f : Lane → Lane → Lane) : OpSem :=
  laneSem lat oneLatch fun o i => (f (lane o.xv i) (lane o.bv i), 0)

/-- The sum. -/
def semIadd : OpSem := intLanes 2 fun x b => x + b
/-- The difference. -/
def semIsub : OpSem := intLanes 2 fun x b => x - b
/-- The product. -/
def semImul : OpSem := intLanes 3 fun x b => x * b
/-- The bitwise and. -/
def semIand : OpSem := intLanes 2 fun x b => x &&& b
/-- The bitwise or. -/
def semIor : OpSem := intLanes 2 fun x b => x ||| b
/-- The bitwise exclusive or. -/
def semIxor : OpSem := intLanes 2 fun x b => x ^^^ b
/-- The shift left by b[4:0]. -/
def semIshl : OpSem := intLanes 2 fun x b => x <<< bits b 4 0
/-- The unsigned shift right by b[4:0]. -/
def semIshr : OpSem := intLanes 2 fun x b => x >>> bits b 4 0
/-- The signed shift right by b[4:0]. -/
def semIsar : OpSem := intLanes 2 fun x b => x.sshiftRight (bits b 4 0)
/-- The signed lesser. -/
def semImin : OpSem := intLanes 2 fun x b => if x.toInt ≤ b.toInt then x else b
/-- The signed greater. -/
def semImax : OpSem := intLanes 2 fun x b => if b.toInt ≤ x.toInt then x else b
/-- The unsigned lesser. -/
def semIminn : OpSem := intLanes 2 fun x b => if x.toNat ≤ b.toNat then x else b
/-- The unsigned greater. -/
def semImaxn : OpSem := intLanes 2 fun x b => if b.toNat ≤ x.toNat then x else b

/-! ### Conversions (R132) -/

/-- FP32 to signed integer, to nearest even. -/
def semCvtfi : OpSem := laneSem 3 [] fun o i => cvtfi true (lane o.xv i)
/-- FP32 to signed integer, toward zero. -/
def semCvtfiz : OpSem := laneSem 3 [] fun o i => cvtfi false (lane o.xv i)
/-- Signed integer to FP32. -/
def semCvtif : OpSem := laneSem 3 [] fun o i => cvtif (lane o.xv i).toInt
/-- Two FP32 lanes to a pair of BF16 halves. -/
def semCvtfb : OpSem :=
  laneSem 3 oneLatch fun o i =>
    let lo := toB16 (lane o.xv i)
    let hi := toB16 (lane o.bv i)
    (hi.1 ++ lo.1, lo.2 ||| hi.2)
/-- The BF16 half that b[0] names, widened. -/
def semCvtbf : OpSem :=
  laneSem 3 oneLatch fun o i =>
    (ofB16 ((lane o.xv i).extractLsb' (16 * bits (lane o.bv i) 0 0) 16), 0)

/-! ### Select, permute and exchange (R133) -/

/-- b where the bit of x is 1, else c. -/
def semVsel : OpSem :=
  { laneSem 2 twoLatches (fun o i => (if bit o.xm i then lane o.bv i else lane o.cv i, 0)) with xw := .mask }
/-- A permutation inside each cluster. -/
def semVperm : OpSem := laneSem 2 oneLatch fun o i => (lane o.xv (16 * (i / 16) + bits (lane o.bv i) 3 0), 0)
/-- A rotation inside each cluster. -/
def semVrot : OpSem :=
  laneSem 2 oneLatch fun o i =>
    (lane o.xv (16 * (i / 16) + (i % 16 + bits (lane o.bv (16 * (i / 16))) 3 0) % 16), 0)
/-- An exchange between equal positions of clusters. -/
def semXchg : OpSem := laneSem 6 oneLatch fun o i => (lane o.xv (16 * bits (lane o.bv i) 2 0 + i % 16), 0)

/-! ### Reductions (R134) -/

/-- One level of the tree: neighbours combined, an absent one passing the other unchanged. -/
def reducePairs (f : Lane → Lane → Lane × Nat) : List (Option Lane) → List (Option Lane) × Nat
  | some p :: some q :: rest =>
    let r := f p q
    let t := reducePairs f rest
    (some r.1 :: t.1, r.2 ||| t.2)
  | some p :: none :: rest => let t := reducePairs f rest; (some p :: t.1, t.2)
  | none :: q :: rest => let t := reducePairs f rest; (q :: t.1, t.2)
  | rest => (rest, 0)

/-- The levels of the tree. -/
def reduceTree (f : Lane → Lane → Lane × Nat) : Nat → List (Option Lane) → Option Lane × Nat
  | 0, ts => (ts.headD none, 0)
  | n + 1, ts =>
    let r := reducePairs f ts
    let t := reduceTree f n r.1
    (t.1, r.2 ||| t.2)

/-- The reduction of cluster c (R134). -/
def reduceCluster (f : Lane → Lane → Lane × Nat) (m : Mask) (x : Vec) (c : Nat) : Option Lane × Nat :=
  reduceTree f 4 ((List.range 16).map fun j => if bit m (16 * c + j) then some (lane x (16 * c + j)) else none)

/-- A reduction (R134): every enabled lane of a cluster receives the cluster's value; the flags are those of the operations
performed. -/
def reduceSem (f : Lane → Lane → Lane × Nat) : OpSem :=
  { OpSem.base with
    xw := .vec
    sel := some [.v]
    act := fun s l o =>
      let m := s.laneMask l
      let cs := (List.range 8).map fun c => reduceCluster f m o.xv c
      let r := ofLanes fun i => ((cs.getD (i / 16) (none, 0)).1).getD 0
      let flags := cs.foldl (fun acc c => acc ||| c.2) 0
      s.after l o 5 (o.resultEffs (.vec r) (some m) ++ [.flags flags]) }

/-- The sum of each cluster. -/
def semRadd : OpSem := reduceSem fadd
/-- The greatest of each cluster. -/
def semRmax : OpSem := reduceSem (fpick true)
/-- The least of each cluster. -/
def semRmin : OpSem := reduceSem (fpick false)

/-- FADD (R125). -/
def execFadd (unit : Nat) (m : Mv) (s : State) : Host.Outcome State Fault Refusal :=
  runTrigger semFadd (vxUnit unit) .fadd m s

/-- FSUB (R125). -/
def execFsub (unit : Nat) (m : Mv) (s : State) : Host.Outcome State Fault Refusal :=
  runTrigger semFsub (vxUnit unit) .fsub m s

/-- FMUL (R125). -/
def execFmul (unit : Nat) (m : Mv) (s : State) : Host.Outcome State Fault Refusal :=
  runTrigger semFmul (vxUnit unit) .fmul m s

/-- FMA (R125). -/
def execFma (unit : Nat) (m : Mv) (s : State) : Host.Outcome State Fault Refusal :=
  runTrigger semFma (vxUnit unit) .fma m s

/-- FMS (R125). -/
def execFms (unit : Nat) (m : Mv) (s : State) : Host.Outcome State Fault Refusal :=
  runTrigger semFms (vxUnit unit) .fms m s

/-- FNMA (R125). -/
def execFnma (unit : Nat) (m : Mv) (s : State) : Host.Outcome State Fault Refusal :=
  runTrigger semFnma (vxUnit unit) .fnma m s

/-- FMIN (R126). -/
def execFmin (unit : Nat) (m : Mv) (s : State) : Host.Outcome State Fault Refusal :=
  runTrigger semFmin (vxUnit unit) .fmin m s

/-- FMAX (R126). -/
def execFmax (unit : Nat) (m : Mv) (s : State) : Host.Outcome State Fault Refusal :=
  runTrigger semFmax (vxUnit unit) .fmax m s

/-- FABS (R126). -/
def execFabs (unit : Nat) (m : Mv) (s : State) : Host.Outcome State Fault Refusal :=
  runTrigger semFabs (vxUnit unit) .fabs m s

/-- FNEG (R126). -/
def execFneg (unit : Nat) (m : Mv) (s : State) : Host.Outcome State Fault Refusal :=
  runTrigger semFneg (vxUnit unit) .fneg m s

/-- FCADD (R127). -/
def execFcadd (unit : Nat) (m : Mv) (s : State) : Host.Outcome State Fault Refusal :=
  runTrigger semFcadd (vxUnit unit) .fcadd m s

/-- FADE (R128). -/
def execFade (unit : Nat) (m : Mv) (s : State) : Host.Outcome State Fault Refusal :=
  runTrigger semFade (vxUnit unit) .fade m s

/-- FADEMUL (R128). -/
def execFademul (unit : Nat) (m : Mv) (s : State) : Host.Outcome State Fault Refusal :=
  runTrigger semFademul (vxUnit unit) .fademul m s

/-- FADEFMA (R128). -/
def execFadefma (unit : Nat) (m : Mv) (s : State) : Host.Outcome State Fault Refusal :=
  runTrigger semFadefma (vxUnit unit) .fadefma m s

/-- FCMPEQ (R129). -/
def execFcmpeq (unit : Nat) (m : Mv) (s : State) : Host.Outcome State Fault Refusal :=
  runTrigger semFcmpeq (vxUnit unit) .fcmpeq m s

/-- FCMPLT (R129). -/
def execFcmplt (unit : Nat) (m : Mv) (s : State) : Host.Outcome State Fault Refusal :=
  runTrigger semFcmplt (vxUnit unit) .fcmplt m s

/-- FCMPLE (R129). -/
def execFcmple (unit : Nat) (m : Mv) (s : State) : Host.Outcome State Fault Refusal :=
  runTrigger semFcmple (vxUnit unit) .fcmple m s

/-- IADD (R130). -/
def execIadd (unit : Nat) (m : Mv) (s : State) : Host.Outcome State Fault Refusal :=
  runTrigger semIadd (vxUnit unit) .iadd m s

/-- ISUB (R130). -/
def execIsub (unit : Nat) (m : Mv) (s : State) : Host.Outcome State Fault Refusal :=
  runTrigger semIsub (vxUnit unit) .isub m s

/-- IMUL (R130). -/
def execImul (unit : Nat) (m : Mv) (s : State) : Host.Outcome State Fault Refusal :=
  runTrigger semImul (vxUnit unit) .imul m s

/-- IAND (R130). -/
def execIand (unit : Nat) (m : Mv) (s : State) : Host.Outcome State Fault Refusal :=
  runTrigger semIand (vxUnit unit) .iand m s

/-- IOR (R130). -/
def execIor (unit : Nat) (m : Mv) (s : State) : Host.Outcome State Fault Refusal :=
  runTrigger semIor (vxUnit unit) .ior m s

/-- IXOR (R130). -/
def execIxor (unit : Nat) (m : Mv) (s : State) : Host.Outcome State Fault Refusal :=
  runTrigger semIxor (vxUnit unit) .ixor m s

/-- ISHL (R130). -/
def execIshl (unit : Nat) (m : Mv) (s : State) : Host.Outcome State Fault Refusal :=
  runTrigger semIshl (vxUnit unit) .ishl m s

/-- ISHR (R130). -/
def execIshr (unit : Nat) (m : Mv) (s : State) : Host.Outcome State Fault Refusal :=
  runTrigger semIshr (vxUnit unit) .ishr m s

/-- ISAR (R130). -/
def execIsar (unit : Nat) (m : Mv) (s : State) : Host.Outcome State Fault Refusal :=
  runTrigger semIsar (vxUnit unit) .isar m s

/-- IMIN (R130). -/
def execImin (unit : Nat) (m : Mv) (s : State) : Host.Outcome State Fault Refusal :=
  runTrigger semImin (vxUnit unit) .imin m s

/-- IMAX (R130). -/
def execImax (unit : Nat) (m : Mv) (s : State) : Host.Outcome State Fault Refusal :=
  runTrigger semImax (vxUnit unit) .imax m s

/-- IMINN (R130). -/
def execIminn (unit : Nat) (m : Mv) (s : State) : Host.Outcome State Fault Refusal :=
  runTrigger semIminn (vxUnit unit) .iminn m s

/-- IMAXN (R130). -/
def execImaxn (unit : Nat) (m : Mv) (s : State) : Host.Outcome State Fault Refusal :=
  runTrigger semImaxn (vxUnit unit) .imaxn m s

/-- ICMPEQ (R131). -/
def execIcmpeq (unit : Nat) (m : Mv) (s : State) : Host.Outcome State Fault Refusal :=
  runTrigger semIcmpeq (vxUnit unit) .icmpeq m s

/-- ICMPLT (R131). -/
def execIcmplt (unit : Nat) (m : Mv) (s : State) : Host.Outcome State Fault Refusal :=
  runTrigger semIcmplt (vxUnit unit) .icmplt m s

/-- ICMPLTN (R131). -/
def execIcmpltn (unit : Nat) (m : Mv) (s : State) : Host.Outcome State Fault Refusal :=
  runTrigger semIcmpltn (vxUnit unit) .icmpltn m s

/-- CVTFI (R132). -/
def execCvtfi (unit : Nat) (m : Mv) (s : State) : Host.Outcome State Fault Refusal :=
  runTrigger semCvtfi (vxUnit unit) .cvtfi m s

/-- CVTFIZ (R132). -/
def execCvtfiz (unit : Nat) (m : Mv) (s : State) : Host.Outcome State Fault Refusal :=
  runTrigger semCvtfiz (vxUnit unit) .cvtfiz m s

/-- CVTIF (R132). -/
def execCvtif (unit : Nat) (m : Mv) (s : State) : Host.Outcome State Fault Refusal :=
  runTrigger semCvtif (vxUnit unit) .cvtif m s

/-- CVTFB (R132). -/
def execCvtfb (unit : Nat) (m : Mv) (s : State) : Host.Outcome State Fault Refusal :=
  runTrigger semCvtfb (vxUnit unit) .cvtfb m s

/-- CVTBF (R132). -/
def execCvtbf (unit : Nat) (m : Mv) (s : State) : Host.Outcome State Fault Refusal :=
  runTrigger semCvtbf (vxUnit unit) .cvtbf m s

/-- VSEL (R133). -/
def execVsel (unit : Nat) (m : Mv) (s : State) : Host.Outcome State Fault Refusal :=
  runTrigger semVsel (vxUnit unit) .vsel m s

/-- VPERM (R133). -/
def execVperm (unit : Nat) (m : Mv) (s : State) : Host.Outcome State Fault Refusal :=
  runTrigger semVperm (vxUnit unit) .vperm m s

/-- VROT (R133). -/
def execVrot (unit : Nat) (m : Mv) (s : State) : Host.Outcome State Fault Refusal :=
  runTrigger semVrot (vxUnit unit) .vrot m s

/-- XCHG (R133). -/
def execXchg (unit : Nat) (m : Mv) (s : State) : Host.Outcome State Fault Refusal :=
  runTrigger semXchg (vxUnit unit) .xchg m s

/-- RADD (R134). -/
def execRadd (unit : Nat) (m : Mv) (s : State) : Host.Outcome State Fault Refusal :=
  runTrigger semRadd (vxUnit unit) .radd m s

/-- RMAX (R134). -/
def execRmax (unit : Nat) (m : Mv) (s : State) : Host.Outcome State Fault Refusal :=
  runTrigger semRmax (vxUnit unit) .rmax m s

/-- RMIN (R134). -/
def execRmin (unit : Nat) (m : Mv) (s : State) : Host.Outcome State Fault Refusal :=
  runTrigger semRmin (vxUnit unit) .rmin m s


end Sys2Proof.Machine
end

