-- ==== Sys2Proof/Machine/Sfu.lean ====
section
/-!
DEFINITION. The special-function unit sf (R137, R138) and the candidate sorter so (R139 to R142).
-/

namespace Sys2Proof.Machine

/-- RCP. -/
def semRcp : OpSem := laneSem 4 [] fun o i => rcp (lane o.xv i)
/-- RSQRT. -/
def semRsqrt : OpSem := laneSem 4 [] fun o i => rsqrt (lane o.xv i)
/-- RCPSTEP: the trigger value is the approximation, latch o1 the operand. -/
def semRcpstep : OpSem := laneSem 8 oneLatch fun o i => rcpstep (lane o.bv i) (lane o.xv i)
/-- RSQSTEP: the trigger value is the approximation, latch o1 the operand. -/
def semRsqstep : OpSem := laneSem 8 oneLatch fun o i => rsqstep (lane o.bv i) (lane o.xv i)
/-- EXP2. -/
def semExp2 : OpSem := laneSem 6 [] fun o i => exp2 (lane o.xv i)
/-- LOG2. -/
def semLog2 : OpSem := laneSem 6 [] fun o i => log2 (lane o.xv i)
/-- SOFTPLUS. -/
def semSoftplus : OpSem := laneSem 10 [] fun o i => softplus (lane o.xv i)
/-- SIGMOID. -/
def semSigmoid : OpSem := laneSem 10 [] fun o i => sigmoid (lane o.xv i)
/-- SILU. -/
def semSilu : OpSem := laneSem 10 [] fun o i => silu (lane o.xv i)

/-- RCP (R137). -/
def execRcp (m : Mv) (s : State) : Host.Outcome State Fault Refusal :=
  runTrigger semRcp .sf .rcp m s

/-- RSQRT (R137). -/
def execRsqrt (m : Mv) (s : State) : Host.Outcome State Fault Refusal :=
  runTrigger semRsqrt .sf .rsqrt m s

/-- RCPSTEP (R137). -/
def execRcpstep (m : Mv) (s : State) : Host.Outcome State Fault Refusal :=
  runTrigger semRcpstep .sf .rcpstep m s

/-- RSQSTEP (R137). -/
def execRsqstep (m : Mv) (s : State) : Host.Outcome State Fault Refusal :=
  runTrigger semRsqstep .sf .rsqstep m s

/-- EXP2 (R137). -/
def execExp2 (m : Mv) (s : State) : Host.Outcome State Fault Refusal :=
  runTrigger semExp2 .sf .exp2 m s

/-- LOG2 (R137). -/
def execLog2 (m : Mv) (s : State) : Host.Outcome State Fault Refusal :=
  runTrigger semLog2 .sf .log2 m s

/-- SOFTPLUS (R137). -/
def execSoftplus (m : Mv) (s : State) : Host.Outcome State Fault Refusal :=
  runTrigger semSoftplus .sf .softplus m s

/-- SIGMOID (R137). -/
def execSigmoid (m : Mv) (s : State) : Host.Outcome State Fault Refusal :=
  runTrigger semSigmoid .sf .sigmoid m s

/-- SILU (R137). -/
def execSilu (m : Mv) (s : State) : Host.Outcome State Fault Refusal :=
  runTrigger semSilu .sf .silu m s


/-- The candidates of a trigger: score and identifier of each enabled lane, in lane order (R141). -/
def candidates (m : Mask) (o : Opd) : List (Lane × Lane) :=
  ((List.range 128).filter fun i => bit m i).map fun i => (lane o.xv i, lane o.bv i)

/-- A merge of candidates into the file, which acts at its result time (R141, R142). -/
def mergeSem (empty : Bool) : OpSem :=
  { OpSem.base with
    xw := .vec
    latches := oneLatch
    sel := some [.s, .mp]
    act := fun s l o => s.after l o 8 [.merge o.unit o.dest empty (candidates (s.laneMask l) o)] }

/-- CSORT. -/
def semCsort : OpSem := mergeSem true
/-- CMERGE. -/
def semCmerge : OpSem := mergeSem false
/-- CTHR. -/
def semCthr : OpSem :=
  { OpSem.base with
    xw := .vec
    latches := oneLatch
    sel := some [.v]
    act := fun s l o => s.after l o 2 [.threshold o.unit o.dest o.xv (s.laneMask l)] }
/-- CREAD. -/
def semCread : OpSem :=
  { OpSem.base with
    sel := some [.s, .mp]
    act := fun s l o => s.after l o 2 [.candidate o.unit o.dest (bits o.xw 5 0)] }
/-- CCLR. -/
def semCclr : OpSem :=
  { OpSem.base with
    sel := some [.s, .mp]
    act := fun s l o => s.after l o 1 [.clear o.unit o.dest] }

/-- CSORT (R141). -/
def execCsort (m : Mv) (s : State) : Host.Outcome State Fault Refusal :=
  runTrigger semCsort .so .csort m s

/-- CMERGE (R141). -/
def execCmerge (m : Mv) (s : State) : Host.Outcome State Fault Refusal :=
  runTrigger semCmerge .so .cmerge m s

/-- CTHR (R141). -/
def execCthr (m : Mv) (s : State) : Host.Outcome State Fault Refusal :=
  runTrigger semCthr .so .cthr m s

/-- CREAD (R141). -/
def execCread (m : Mv) (s : State) : Host.Outcome State Fault Refusal :=
  runTrigger semCread .so .cread m s

/-- CCLR (R141). -/
def execCclr (m : Mv) (s : State) : Host.Outcome State Fault Refusal :=
  runTrigger semCclr .so .cclr m s


end Sys2Proof.Machine
end

