-- ==== Sys2Proof/Machine/Memory.lean ====
section
/-!
DEFINITION. Global memory: capability checks (R104), translation through both stages (R361, R362), owner keys (R364, R365), L2
copies (R310), tags (R195), poison (R360), race detection (R322 to R325), and reads and writes of a range.
-/

namespace Sys2Proof.Machine

/-! ### Devices -/

/-- VDCFG.EN (R349). -/
def Dev.enabled (d : Dev) : Bool := bit d.vdcfg 0
/-- VDCFG.TENANT (R349). -/
def Dev.tenant (d : Dev) : Nat := bits d.vdcfg 8 1
/-- VDCFG.KIDX (R349). -/
def Dev.kidx (d : Dev) : Nat := bits d.vdcfg 16 9
/-- Whether a device's batch host is device x: HV and HVD (R349, R362). -/
def Dev.hostedBy (d : Dev) (x : Nat) : Bool := bit d.vdcfg 24 && bits d.vdcfg 23 17 == x

/-- Who makes an access to memory: the core whose L2 slice it goes through, the pavilion and the device. -/
structure Accessor where
  core : Nat
  pav : Nat
  vd : Nat
  /-- The frame engine makes it: its device pays for the sectors at the memory controller too (R372). -/
  frame : Bool
  deriving DecidableEq, Repr

/-- The accessor that a context is. -/
def State.accessor (s : State) (l : Loc) : Accessor :=
  match (s.ctx l).binding with
  | some b => ⟨l.core, b.pav, b.vd, false⟩
  | none => ⟨l.core, 16, 0, false⟩

/-- The tenant of a context (R102). -/
def State.tenantOf (s : State) (l : Loc) : Nat :=
  match (s.ctx l).binding with
  | some b => b.tenant
  | none => 256

/-! ### Capability checks (R103, R104) -/

/-- Grant RD. -/
def grantRD : Byte := 0x01
/-- Grant WR. -/
def grantWR : Byte := 0x02
/-- Grant AT. -/
def grantAT : Byte := 0x04
/-- Grant XT. -/
def grantXT : Byte := 0x80

/-- CapCheck: the cause of the first check that fails (R104, R397). -/
def capCheck (c : Cap) (addr : Int) (size : Nat) (need : Byte) (tenant : Nat) (hint : Bool) : Option Nat :=
  if !c.tag then some 1
  else if c.isSealed then some 2
  else if c.tenant ≠ tenant then some 3
  else if (need &&& ~~~c.perm &&& 0x8F) ≠ 0 then some 4
  else if bit c.perm 4 && !hint then some 4
  else if addr < Int.ofNat c.base ∨ addr + Int.ofNat size > Int.ofNat (c.base + c.len) then some 5
  else none

/-! ### Keys (R364, R365) -/

/-- The number of the key of an index: 0 for no key. -/
def State.serialOf (s : State) (kidx : Nat) : Nat :=
  match s.keys.find? kidx with
  | some e => e.serial
  | none => 0

/-- Whether a key index is dead (R365). -/
def State.keyDead (s : State) (kidx : Nat) : Bool :=
  match s.keys.find? kidx with
  | some e => !e.live
  | none => false

/-- A byte as a key reads it: as written under the same key, else a free value (R364, log 9). A line that nothing has written stands under
no key (R359). -/
def State.byteUnder (s : State) (serial pa : Nat) : Byte :=
  let k := s.lineKey.getD (pa / 64) 0
  if k = serial then s.mem.byte pa else Config.scrambled serial k pa (s.mem.byte pa)

/-! ### Translation (R361, R362) -/

/-- The device physical address ranges of HBM4 and LP6 (R359). -/
def physical (a : Nat) : Bool := a < 192 * 2 ^ 30 || (256 * 2 ^ 30 ≤ a && a < 1792 * 2 ^ 30)

/-- A level of a table walk: its number, its index bits and the bits of a page that a leaf of it maps (R361). -/
structure Level where
  num : Nat
  hi : Nat
  lo : Nat

/-- The levels from level 1 (R361). -/
def levels1 : List Level := [⟨1, 47, 39⟩, ⟨2, 38, 30⟩, ⟨3, 29, 21⟩, ⟨4, 20, 16⟩]
/-- The levels from level 0 (R361). -/
def levels0 : List Level := ⟨0, 56, 48⟩ :: levels1

/-- A failure code: KIND, STAGE, LEVEL and WRITE (R362). -/
def failCode (kind stage level : Nat) (write : Bool) : Nat := kind + stage * 8 + level * 16 + b2n write * 128

/-- The leaf that a walk found: its entry word, its level, the address that it gives. -/
structure Leaf where
  entry : Word
  level : Nat
  addr : Nat

/-- Whether an entry is invalid or has a reserved bit of 1 at a level of a stage (R362): WCH only in a stage-1 leaf, KIDX only in a
stage-2 leaf, LEAF as the level requires, and the bits of a page's base below the page size. -/
def badEntry (stage : Nat) (lv : Level) (e : Word) : Bool :=
  let leaf := bit e 1
  !bit e 0 || bits e 7 5 != 0 || bits e 63 56 != 0 || (leaf && decide (lv.num < 2)) || (!leaf && lv.num == 4) ||
    (bit e 4 && !(stage == 0 && leaf)) || (bits e 55 48 != 0 && !(stage == 1 && leaf)) ||
    (leaf && bits e 47 0 >>> 8 % 2 ^ (lv.lo - 8) != 0)

/-- The word of an entry that is held for an address at a level of a stage (R363). -/
def State.heldWord (s : State) (a : Accessor) (stage : Nat) (lv : Level) (va : Nat) : Option Word :=
  (s.tlb.find? fun e => e.terrace == a.core / 8 && e.pav == a.pav && e.vd == (if stage = 0 then a.vd else 128) &&
    e.level == lv.num && e.tag == va >>> lv.lo).map HeldEntry.word

/-- Where a table entry stands: its physical address, and for an entry of stage 1 the key index of its page (R361, R364). -/
structure TableAt where
  pa : Nat
  kidx : Option Nat

/-- The word of a table entry: an entry of stage 1 is read under its page's key as any data is (R364, R365). -/
def State.tableWord (s : State) (p : TableAt) : Word :=
  match p.kidx with
  | none => BitVec.ofNat 64 (s.mem.nat p.pa 8)
  | some k =>
    if s.keyDead k then 0 else BitVec.ofNat 64 (leNat ((List.range 8).map fun i => s.byteUnder (s.serialOf k) (p.pa + i)))

/-- Whether a table entry stands on a poisoned line whose data is readable (R360, R365). -/
def State.tablePoisoned (s : State) (p : TableAt) : Bool :=
  s.poison.getD (p.pa / 64) false && (match p.kidx with | some k => !s.keyDead k | none => true)

/-- The entry of a table that a walk uses: the one in memory at its place, or the one that is held where the two differ and the free
choice falls on it (R362, R363, log 7). -/
def tableEntry (s : State) (a : Accessor) (stage : Nat) (write : Bool) (va : Nat) (lv : Level) (place : Except Nat TableAt) :
    Except Nat Word :=
  let read : Except Nat Word :=
    match place with
    | .error c => .error c
    | .ok p => if s.tablePoisoned p then .error (failCode 6 stage lv.num write) else .ok (s.tableWord p)
  match s.heldWord a stage lv va with
  | none => read
  | some w =>
    match read with
    | .ok e =>
      if e = w then .ok e
      else if Config.heldEntryUsed s.waits (a.core / 8) (8 * stage + lv.num) (va >>> lv.lo) then .ok w
      else .ok e
    | .error c => if Config.heldEntryUsed s.waits (a.core / 8) (8 * stage + lv.num) (va >>> lv.lo) then .ok w else .error c

/-- The address of the entry that a walk reads at a level of a table. -/
def Level.entry (lv : Level) (table va : Nat) : Nat := table + 8 * ((va >>> lv.lo) % 2 ^ (lv.hi + 1 - lv.lo))

/-- The walk of a table (R361, R362): `fetch` gives the place of an entry by its level and its address, or a failure; it is the identity
for stage 2. The result is the leaf, or the failure. -/
def walkTable (s : State) (a : Accessor) (stage : Nat) (write : Bool) (fetch : Level → Nat → Except Nat TableAt) (va : Nat) :
    List Level → Nat → Except Nat Leaf
  | [], _ => .error (failCode 1 stage 4 write)
  | lv :: rest, table =>
    match tableEntry s a stage write va lv (fetch lv (lv.entry table va)) with
    | .error c => .error c
    | .ok e =>
      if badEntry stage lv e then .error (failCode 1 stage lv.num write)
      else
        let base := bits e 47 8 * 256
        if bit e 1 then .ok ⟨e, lv.num, base + va % 2 ^ lv.lo⟩
        else walkTable s a stage write fetch va rest base

/-- The place of an entry of stage 2, whose tables are read at physical addresses. -/
def stage2Place (_ : Level) (p : Nat) : Except Nat TableAt := .ok ⟨p, none⟩

/-- Whether a device may use data of a key index (R362): the key is its own, or its owner has the device's tenant, or the device is
the owner's batch host. A dead index is no failure (R365). -/
def State.keyAllows (s : State) (a : Accessor) (k : Nat) : Bool :=
  match s.keys.find? k with
  | none => false
  | some e =>
    if !e.live then true
    else
      let owner := s.dev e.pav e.vd
      e.pav == a.pav && owner.enabled &&
        (e.vd == a.vd || owner.tenant == (s.dev a.pav a.vd).tenant || owner.hostedBy a.vd)

/-- Stage 2 (R361, R362): from an intermediate address to the physical one, with the owner and key checks of its leaf. -/
def State.stage2 (s : State) (a : Accessor) (ia : Nat) (write : Bool) : Except Nat Leaf :=
  match walkTable s a 1 write stage2Place ia levels1 (bits (s.pav a.pav).s2root 47 12 * 4096) with
  | .error c => .error c
  | .ok leaf =>
    if s.granules.find? (leaf.addr / 2 ^ 30) ≠ some a.pav then .error (failCode 3 1 leaf.level write)
    else if !s.keyAllows a (bits leaf.entry 55 48) then .error (failCode 4 1 leaf.level write)
    else .ok leaf

/-- A translated address: the physical address, whether the page is watched, and the key index of the page. -/
structure Place where
  pa : Nat
  watched : Bool
  kidx : Nat
  deriving DecidableEq, Repr

/-- The place of a stage-1 entry of a level at an intermediate address, through stage 2 (R361); an address at or above 2^48 fails with
KIND 5 and names that entry's own level (log 31). -/
def State.stage1Place (s : State) (a : Accessor) (write : Bool) (lv : Level) (ia : Nat) : Except Nat TableAt :=
  if ia ≥ 2 ^ 48 then .error (failCode 5 0 lv.num write)
  else
    match s.stage2 a ia write with
    | .error c => .error c
    | .ok leaf => .ok ⟨leaf.addr, some (bits leaf.entry 55 48)⟩

/-- Both stages (R361, R362), or the failure code. -/
def State.translate (s : State) (a : Accessor) (va : Nat) (write : Bool) : Except Nat Place :=
  match walkTable s a 0 write (s.stage1Place a write) va levels0 (bits (s.dev a.pav a.vd).s1root 47 12 * 4096) with
  | .error c => .error c
  | .ok one =>
    if one.addr ≥ 2 ^ 48 then .error (failCode 5 0 one.level write)
    else
      match s.stage2 a one.addr write with
      | .error c => .error c
      | .ok two =>
        let need := if write then 3 else 2
        if !bit one.entry need then .error (failCode 2 0 one.level write)
        else if !bit two.entry need then .error (failCode 2 1 two.level write)
        else .ok ⟨two.addr, bit one.entry 4, bits two.entry 55 48⟩

/-! ### Held translations (R363) -/

/-- The entries that a walk uses, each with its level and the address that it is read from. -/
def walkPath (s : State) (a : Accessor) (stage : Nat) (fetch : Level → Nat → Except Nat TableAt) (va : Nat) :
    List Level → Nat → List (Level × Word × Nat)
  | [], _ => []
  | lv :: rest, table =>
    match tableEntry s a stage false va lv (fetch lv (lv.entry table va)) with
    | .error _ => []
    | .ok e =>
      if badEntry stage lv e then []
      else (lv, e, lv.entry table va) :: (if bit e 1 then [] else walkPath s a stage fetch va rest (bits e 47 8 * 256))

/-- The entries of stage 2 that a translation of an intermediate address uses, as they are held. -/
def State.heldOfStage2 (s : State) (a : Accessor) (ia : Nat) : List HeldEntry :=
  (walkPath s a 1 stage2Place ia levels1 (bits (s.pav a.pav).s2root 47 12 * 4096)).map fun (lv, e, p) =>
    ⟨a.core / 8, a.pav, 128, lv.num, ia >>> lv.lo, e, p⟩

/-- The entries that the translation of an address uses, as they are held. -/
def State.heldOf (s : State) (a : Accessor) (va : Nat) : List HeldEntry :=
  let one := walkPath s a 0 (s.stage1Place a false) va levels0 (bits (s.dev a.pav a.vd).s1root 47 12 * 4096)
  let last := one.flatMap fun (lv, e, _) => if bit e 1 then s.heldOfStage2 a (bits e 47 8 * 256 + va % 2 ^ lv.lo) else []
  (one.map fun (lv, e, p) => (⟨a.core / 8, a.pav, a.vd, lv.num, va >>> lv.lo, e, p⟩ : HeldEntry)) ++
    (one.flatMap fun (_, _, p) => s.heldOfStage2 a p) ++ last

/-- An entry held in place of one for the same index bits. -/
def holdEntry (t : List HeldEntry) (e : HeldEntry) : List HeldEntry :=
  e :: t.filter fun f => !(f.terrace == e.terrace && f.pav == e.pav && f.vd == e.vd && f.level == e.level && f.tag == e.tag)

/-- The entries that the translation of some pages used are held from then on (R363). -/
def State.holdPages (s : State) (a : Accessor) (pages : List Nat) : State :=
  { s with tlb := (pages.flatMap fun p => s.heldOf a (65536 * p)).foldl holdEntry s.tlb }

/-- Entries that are held no longer. -/
def State.dropHeld (s : State) (p : HeldEntry → Bool) : State := { s with tlb := s.tlb.filter fun e => !p e }

/-! ### Ranges by line -/

/-- A part of a range inside one line: its virtual address, its length and its place. -/
structure Piece where
  va : Nat
  len : Nat
  place : Place
  deriving DecidableEq, Repr

/-- The parts of a range by 64-byte lines. -/
def lineParts : Nat → Nat → Nat → List (Nat × Nat)
  | 0, _, _ => []
  | k + 1, va, n =>
    if n = 0 then []
    else
      let m := min n (64 - va % 64)
      (va, m) :: lineParts k (va + m) (n - m)

/-- The translated parts of a range, or the failure code and the address of the lowest part that fails. -/
def State.translateParts (s : State) (a : Accessor) (write : Bool) : List (Nat × Nat) → Except (Nat × Nat) (List Piece)
  | [] => .ok []
  | (va, n) :: rest =>
    match s.translate a va write with
    | .error c => .error (c, va)
    | .ok p =>
      match s.translateParts a write rest with
      | .error e => .error e
      | .ok ps => .ok (⟨va, n, p⟩ :: ps)

/-- The translated parts of a range of n bytes. -/
def State.range (s : State) (a : Accessor) (va n : Nat) (write : Bool) : Except (Nat × Nat) (List Piece) :=
  s.translateParts a write (lineParts (n / 64 + 2) va n)

/-! ### L2 copies (R206, R310, R382, R383, log 12) -/

/-- The slice of a core (R10). -/
def sliceOf (core : Nat) : Nat := core / 8

/-- The set of a line (log 12). -/
def setOf (line : Nat) : Nat := line % 8192

/-- The lines of a slice. -/
def State.slice (s : State) (n : Nat) : Table L2Line := s.l2.getD n []

/-- Whether a pavilion has a core in a terrace. -/
def State.pavInTerrace (s : State) (pav t : Nat) : Bool := (s.pav pav).cores.any fun c => c / 8 == t

/-- The ways that enabled devices hold in a terrace (R382). -/
def State.heldWays (s : State) (t : Nat) : Nat :=
  s.pavs.foldl (fun acc p =>
    if s.pavInTerrace p.1 t then
      p.2.devs.foldl (fun acc d => if d.2.enabled then acc ||| bits d.2.rl2 15 0 else acc) acc
    else acc) 0

/-- The ways that a device may allocate into in a slice, by mask (R382): its own and the shared ones, none in reclaim from
itself. -/
def State.wayMask (s : State) (pav vd t : Nat) : Nat :=
  let own := bits (s.dev pav vd).rl2 15 0
  let shared := (2 ^ 16 - 1) - s.heldWays t
  let leaving := (s.reclaims.getD t []).foldl (fun acc r => if r.pav = pav ∧ r.vd = vd then acc ||| r.ways else acc) 0
  (own ||| shared) &&& ((2 ^ 16 - 1) - leaving)

/-- The ways that QOS of class 1 returns (R250, R382): of those that a device may allocate into, the ones of which another device's reclaim
has passed every set of the slice. -/
def State.qosMask (s : State) (pav vd t : Nat) : Nat :=
  (s.reclaims.getD t []).foldl (fun acc r =>
    if !(r.pav == pav && r.vd == vd) && decide (r.next < 8192) then acc &&& ((2 ^ 16 - 1) ^^^ r.ways) else acc) (s.wayMask pav vd t)

/-- Whether a way of a set is still being reclaimed from another device (R383). -/
def State.unpassed (s : State) (pav vd t set way : Nat) : Bool :=
  (s.reclaims.getD t []).any fun r => !(r.pav == pav && r.vd == vd) && (r.ways >>> way) % 2 == 1 && decide (r.next ≤ set)

/-- The line of a slice that holds a way of a set. -/
def occupant (lines : Table L2Line) (set way : Nat) : Option (Nat × L2Line) :=
  List.find? (fun e : Nat × L2Line => setOf e.1 == set && e.2.way == way) lines

/-- The order in which residency classes are replaced: evict first, normal, retain (R206). -/
def evictRank (cls : Nat) : Nat := if cls = 2 then 0 else if cls = 1 then 2 else 1

/-- The way that a new line takes (log 12): the lowest empty way that the device may use, else the way whose line is replaced
first; none where the device has no way. -/
def State.chooseWay (s : State) (pav vd t set : Nat) : Option Nat :=
  let mask := s.wayMask pav vd t
  let ways := (List.range 16).filter fun w =>
    (mask >>> w) % 2 == 1 && !s.retired.contains (t, set, w) && !s.unpassed pav vd t set w
  match ways.filter fun w => (occupant (s.slice t) set w).isNone with
  | w :: _ => some w
  | [] =>
    ways.foldl (fun best w =>
      match best with
      | none => some w
      | some b =>
        let rank (v : Nat) : Nat := match occupant (s.slice t) set v with | some e => evictRank e.2.cls | none => 0
        if rank w < rank b then some w else some b) none

/-- A line written back to its home (R251, R383). -/
def State.writeBack (s : State) (line : Nat) : State := { s with home := s.home.erase line }

/-- The arbiter of the memory controller at which a line has its home (R359, R370). -/
def homeArb (line : Nat) : Nat :=
  let g := line * 64 / 2 ^ 30
  if g < 192 then 512 + g / 48 else 516 + (g - 256) / 384

/-- A transfer of some sectors waits at an arbiter (R376). -/
def State.request (s : State) (arb pav vd cost : Nat) : State :=
  let a := s.arb arb
  s.setArb arb { a with reqs := a.reqs ++ [⟨pav, vd, cost⟩] }

/-- An L2 miss or write-back of a line waits at its memory controller for the device whose key index the line carries (R372). -/
def State.requestLine (s : State) (line kidx : Nat) : State :=
  match s.keys.find? kidx with
  | some e => s.request (homeArb line) e.pav e.vd 1
  | none => s

/-- An L2 miss of an access waits at the memory controller: for the device whose key index the line carries, or for the frame engine's own
device (R372). -/
def State.requestMiss (s : State) (a : Accessor) (line kidx : Nat) : State :=
  if a.frame then s.request (homeArb line) a.pav a.vd 1 else s.requestLine line kidx

/-- A slice without the line in a way of a set; a dirty line is written back. -/
def State.evict (s : State) (t set way : Nat) : State :=
  match occupant (s.slice t) set way with
  | none => s
  | some (line, e) =>
    let s1 := { s with l2 := s.l2.set t ((s.slice t).erase line) }
    if e.dirty then (s1.writeBack line).requestLine line e.kidx else s1

/-- A line invalidated in every slice but one (R310). -/
def State.invalidateOthers (s : State) (t line : Nat) : State :=
  { s with l2 := s.l2.map fun e => if e.1 = t then e else (e.1, Table.erase e.2 line) }

/-- A line put into a way of its set in a slice, in the place of the line there. -/
def State.placeLine (s : State) (t line way kidx : Nat) : State :=
  let s1 := s.evict t (setOf line) way
  { s1 with l2 := s1.l2.set t ((s1.slice t).set line ⟨way, false, 0, kidx⟩) }

/-- A line given a place in the slice of a core without being read (R251): a line under a dead key has none. -/
def State.takeLine (s : State) (a : Accessor) (line kidx : Nat) : State :=
  let t := sliceOf a.core
  match (s.slice t).find? line, s.chooseWay a.pav a.vd t (setOf line) with
  | none, some w => if s.keyDead kidx then s else s.placeLine t line w kidx
  | _, _ => s

/-- The bytes that the home of a line has, with the key that they were written under (R364). -/
def State.homeLine (s : State) (line : Nat) : HomeLine := ⟨s.lineKey.getD line 0, (List.range 64).map fun i => s.mem.byte (64 * line + i)⟩

/-- An access to a line through the slice of a core (R16, R310): the line is brought in, if the device has a way for it; a write
makes it dirty there and nowhere else, and the home keeps the bytes it had. A device without a way reads and writes at the home. -/
def State.touch (s : State) (a : Accessor) (line kidx : Nat) (write : Bool) : State :=
  let t := sliceOf a.core
  let s0 := if write then s.invalidateOthers t line else s
  let s1 : State :=
    match (s0.slice t).find? line with
    | some _ => s0
    | none =>
      match s0.chooseWay a.pav a.vd t (setOf line) with
      | none => s0.requestMiss a line kidx
      | some w => (s0.placeLine t line w kidx).requestMiss a line kidx
  if write then
    match (s1.slice t).find? line with
    | none => s1.writeBack line
    | some e =>
      let s2 : State := { s1 with l2 := s1.l2.set t ((s1.slice t).set line { e with dirty := true, kidx := kidx }) }
      if e.dirty || (s2.home.find? line).isSome then s2
      else { s2 with home := s2.home.set line (s2.homeLine line) }
  else s1

/-- Every copy of a line written back and, if asked, invalidated (R251). -/
def State.cleanLine (s : State) (line : Nat) (flush : Bool) : State :=
  let s0 :=
    match (s.l2.filterMap fun e => Table.find? e.2 line).find? L2Line.dirty with
    | some e => s.requestLine line e.kidx
    | none => s
  let s1 := s0.writeBack line
  { s1 with l2 := s1.l2.map fun e =>
      (e.1, if flush then Table.erase e.2 line
        else match Table.find? e.2 line with
          | some c => Table.set e.2 line { c with dirty := false }
          | none => e.2) }

/-! ### Bytes under keys (R360, R364, R365, R195) -/

/-- The bytes of a part of a line (R364, R365). -/
def State.readPiece (s : State) (p : Piece) : List Byte :=
  if s.keyDead p.place.kidx then List.replicate p.len 0
  else (List.range p.len).map fun i => s.byteUnder (s.serialOf p.place.kidx) (p.place.pa + i)

/-- Whether a part of a line is poisoned (R360); data of a dead key reads as zero (R365). -/
def State.piecePoisoned (s : State) (p : Piece) : Bool :=
  !s.keyDead p.place.kidx && s.poison.getD (p.place.pa / 64) false

/-- The tags of the granules that n bytes from an address cover, cleared (R195). -/
def State.clearTags (s : State) (pa n : Nat) : State :=
  if n = 0 then s
  else { s with tags := (List.range ((pa + n - 1) / 16 - pa / 16 + 1)).foldl (fun t i => t.put false (pa / 16 + i) false) s.tags }

/-- The bytes of a line brought under a key before a part of it is written (R364); what another key wrote is no capability (R101). -/
def State.rekey (s : State) (line serial : Nat) : State :=
  if s.lineKey.getD line 0 = serial then s
  else
    ({ s with
      mem := s.mem.setBytes (64 * line) ((List.range 64).map fun i => s.byteUnder serial (64 * line + i))
      lineKey := s.lineKey.put 0 line serial } : State).clearTags (64 * line) 64

/-- The bytes of a part of a line written (R195, R310, R360, R364, R365): nothing under a dead key, and nothing on a poisoned line
unless all of it is written, which clears the poison. -/
def State.writePiece (s : State) (a : Accessor) (p : Piece) (bs : List Byte) : State :=
  let line := p.place.pa / 64
  if s.keyDead p.place.kidx then s
  else if s.poison.getD line false && p.len < 64 then s
  else
    let s1 := s.touch a line p.place.kidx true
    let s2 := s1.rekey line (s1.serialOf p.place.kidx)
    let s3 := { s2 with mem := s2.mem.setBytes p.place.pa bs, poison := s2.poison.put false line false }
    s3.clearTags p.place.pa p.len

/-- The bytes of a translated range, and whether a part is poisoned. -/
def State.readRange (s : State) (ps : List Piece) : List Byte × Bool :=
  (ps.flatMap s.readPiece, ps.any s.piecePoisoned)

/-- The translations of a translated range are held from now on (R363). -/
def State.holdRange (s : State) (a : Accessor) (ps : List Piece) : State := s.holdPages a (ps.map fun p => p.va / 65536).eraseDups

/-- A translated range read through the L2 slice of a core. -/
def State.touchRange (s : State) (a : Accessor) (ps : List Piece) : State :=
  ps.foldl (fun s p => s.touch a (p.place.pa / 64) p.place.kidx false) (s.holdRange a ps)

/-- The bytes of parts of lines written in order. -/
def State.writePieces (s : State) (a : Accessor) : List Piece → List Byte → State
  | [], _ => s
  | p :: ps, bs => State.writePieces (s.writePiece a p (bs.take p.len)) a ps (bs.drop p.len)

/-- The bytes of a translated range written in order. -/
def State.writeRange (s : State) (a : Accessor) (ps : List Piece) (bs : List Byte) : State := (s.holdRange a ps).writePieces a ps bs

/-- Whether a write of a range meets a poisoned line that it does not cover whole (R360). -/
def State.writeRefused (s : State) (ps : List Piece) : Bool := ps.any fun p => s.piecePoisoned p && decide (p.len < 64)

/-! ### Race detection (R322 to R325) -/

/-- The context of a number. -/
def locOf (w : Nat) : Loc := ⟨w / 4, w % 4⟩

/-- Whether region q is newer than p (R324). -/
def newer (q p : Nat) : Bool := let d := (q + 32 - p) % 32; decide (1 ≤ d ∧ d ≤ 15)

/-- Newest of a table entry and a region (R324). -/
def newest (p : Option Nat) (q : Nat) : Nat :=
  match p with
  | none => q
  | some r => if newer q r then q else r

/-- A metadata word: writer, region, REL and V (R323). -/
def metaWord (w reg : Nat) (rel : Bool) : Nat := w + reg * 2 ^ 9 + b2n rel * 2 ^ 14 + 2 ^ 15

/-- The metadata word of the line of a physical address. -/
def State.metaOf (s : State) (pa : Nat) : Nat := s.lineMeta.getD (pa / 64) 0

/-- Whether a checked access of a context to a line with this word is a race (R325). -/
def State.races (s : State) (l : Loc) (word : Nat) : Bool :=
  let w := word % 2 ^ 9
  let reg := word / 2 ^ 9 % 32
  let mine := (s.ctx l).cur
  let unseen := match mine.acquired.find? w with | none => true | some r => newer reg r
  let aged := decide (((s.ctx (locOf w)).cur.region + 32 - reg) % 32 ≥ 16)
  word / 2 ^ 15 % 2 == 1 && w != l.phys && unseen && !aged

/-- The first of the parts, in ascending address, whose line a checked access may not touch (R325). -/
def State.raceTrap (s : State) (l : Loc) (addr : Nat) (ps : List Piece) : Option Trap :=
  match ps.find? fun p => p.place.watched && !s.keyDead p.place.kidx && s.races l (s.metaOf p.place.pa) with
  | some p => some ⟨.mmrace, 0, BitVec.ofNat 64 addr, BitVec.ofNat 64 (s.metaOf p.place.pa), 0, 0⟩
  | none => none

/-- The writer recorded on the watched lines of a write (R322 to R324), and by which page of which device each is watched; a write under a
dead key changes nothing (R365). -/
def State.recordWrite (s : State) (a : Accessor) (w reg : Nat) (rel : Bool) (ps : List Piece) : State :=
  let on := ps.filter fun p => p.place.watched && !s.keyDead p.place.kidx
  { s with
    lineMeta := on.foldl (fun m p => m.put 0 (p.place.pa / 64) (metaWord w reg rel)) s.lineMeta
    watched := on.foldl (fun m p =>
      let e : Watch := ⟨p.place.pa / 65536, a.pav, a.vd, p.va / 65536⟩
      if m.contains e then m else m ++ [e]) s.watched }

/-- Whether a page is still watched as it was when a writer was recorded on it, whatever the device may do there now. -/
def State.stillWatched (s : State) (e : Watch) : Bool :=
  [false, true].any fun write =>
    match s.translate ⟨0, e.pav, e.vd, false⟩ (65536 * e.vpage) write with
    | .ok p => p.watched && p.pa / 65536 == e.page
    | .error _ => false

/-- The pages by which lines are watched, but for those that no longer are. A page that is watched no longer carries no metadata words: they are
0 when it becomes watched again (R323). -/
def State.keepWatches (s : State) (p : Watch → Bool) : State :=
  let keep := s.watched.filter p
  { s with watched := keep, lineMeta := s.lineMeta.filter fun e => keep.any fun w => w.page == e.1 / 1024 }

/-- The pages that an invalidation leaves watched. -/
def State.dropUnwatched (s : State) : State := s.keepWatches s.stillWatched

/-- An acquire from a release of context w that ended region r (R324, third row): w's table merges. -/
def View.acquireFrom (v : View) (self : Nat) (w r : Nat) (theirs : Table Nat) : View :=
  let t1 := v.acquired.set w (newest (v.acquired.find? w) r)
  let t2 := theirs.foldl (fun t e => if e.1 = self then t else t.set e.1 (newest (t.find? e.1) e.2)) t1
  { v with acquired := t2 }

/-- An acquire from a line that w wrote in region r without release (R324, fourth row): only the regions before. -/
def View.acquirePlain (v : View) (w r : Nat) : View :=
  { v with acquired := v.acquired.set w (newest (v.acquired.find? w) ((r + 31) % 32)) }

/-- An acquire by a context that reads a line with this metadata word (R324). -/
def State.acquireLine (s : State) (l : Loc) (prov : Bool) (word : Nat) : State :=
  if word / 2 ^ 15 % 2 = 0 then s
  else
    let w := word % 2 ^ 9
    let reg := word / 2 ^ 9 % 32
    if word / 2 ^ 14 % 2 = 1 then
      let theirs := (s.ctx (locOf w)).cur.acquired
      s.onView l prov fun v => v.acquireFrom l.phys w reg theirs
    else s.onView l prov fun v => v.acquirePlain w reg

end Sys2Proof.Machine
end

