-- ==== Sys2Proof/Machine/LoadStore.lean ====
section
/-!
DEFINITION. The loads, stores, vector accesses, hints and cache control of ls0 and ls1 (R193 to R202, R206, R251), the fences that
wait for nothing in flight (R204), and the atomics of at (R203).
-/

namespace Sys2Proof.Machine

/-! ### Addresses and checks (R193) -/

/-- The capability latch K of a memory operation (R191). -/
def Opd.cap (o : Opd) : Cap := (o.o1.getD (.word 0)).toCap

/-- The byte address with the trigger value as offset (R193). -/
def Opd.loadAddr (o : Opd) : Int := Int.ofNat o.cap.base + sgn o.c + sgn o.xw

/-- The byte address with the trigger value as data or control (R193). -/
def Opd.storeAddr (o : Opd) : Int := Int.ofNat o.cap.base + sgn o.c

/-- The address word of a trap record. -/
def addrWord (a : Int) : Word := BitVec.ofInt 64 a

/-- Steps 1 to 3 of R193: the parts of the range, or the fault. -/
def State.checkAccess (s : State) (l : Loc) (k : Cap) (addr : Int) (size align : Nat) (need : Byte) (write : Bool) :
    Except Trap (List Piece) :=
  match capCheck k addr size need (s.tenantOf l) false with
  | some c => .error (capTrap c (addrWord addr))
  | none =>
    if addr % Int.ofNat align ≠ 0 then .error (capTrap 6 (addrWord addr))
    else
      match s.range (s.accessor l) addr.toNat size write with
      | .error (c, va) => .error ⟨.translation, c, BitVec.ofNat 64 va, 0, 0, 0⟩
      | .ok ps => .ok ps

/-- The checks of R193: the fault that the first failing step gives; race detection where the access is checked (R322). -/
def State.accessTrap (s : State) (l : Loc) (k : Cap) (addr : Int) (size align : Nat) (need : Byte) (write checked : Bool) :
    Option Trap :=
  match s.checkAccess l k addr size align need write with
  | .error t => some t
  | .ok ps => if checked then s.raceTrap l addr.toNat ps else none

/-- The parts of a range that has passed its checks. -/
def State.parts (s : State) (l : Loc) (addr : Int) (size : Nat) (write : Bool) : List Piece :=
  match s.range (s.accessor l) addr.toNat size write with
  | .ok ps => ps
  | .error _ => []

/-- A memory error is due at a context (R360, R400). -/
def State.memoryError (s : State) (l : Loc) : State := s.setCtx l { s.ctx l with memErrDue := true }

/-- A data value delivered long: none when a part of the range is poisoned (R400). -/
def State.deliverData (s : State) (l : Loc) (o : Opd) (lanes : Option Mask) (minimum : Nat) (poisoned : Bool) (v : Value) :
    State :=
  let (id, s1) := s.startLong l o lanes
  s1.deliverLong l id minimum (if poisoned then none else some v)

/-- A store of bytes: written, and recorded with the region in force (R322 to R324); on a poisoned line that it does not cover
nothing is written and a memory error is due (R360). -/
def State.storeBytes (s : State) (l : Loc) (rel : Bool) (ps : List Piece) (bs : List Byte) : State :=
  if s.writeRefused ps then s.memoryError l
  else (s.recordWrite (s.accessor l) l.phys (s.ctx l).cur.region rel ps).writeRange (s.accessor l) ps bs

/-- The latches K and o2. -/
def memLatches : List (Nat × Width) := [(1, .cap), (2, .word)]

/-! ### Scalar loads and stores (R196, R197) -/

/-- A load (R196): its size, its extension, and whether it is an acquire. -/
def loadSem (size : Nat) (signed acquire : Bool) : OpSem :=
  { OpSem.base with
    latches := memLatches
    sel := some [.s]
    access := some fun s l o => s.accessTrap l o.cap o.loadAddr size size grantRD false !acquire
    act := fun s l o =>
      let ps := s.parts l o.loadAddr size false
      let (bs, bad) := s.readRange ps
      let x : Word := BitVec.ofNat 64 (leNat bs)
      let v := if signed then BitVec.ofInt 64 (signedLow x (8 * size)) else x
      let s1 := s.touchRange (s.accessor l) ps
      let s2 :=
        match acquire, ps with
        | true, p :: _ => if p.place.watched then s1.acquireLine l o.prov (s.metaOf p.place.pa) else s1
        | _, _ => s1
      s2.deliverData l o none 24 bad (.word v) }

/-- A store (R196): its size, and whether it is a release. -/
def storeSem (size : Nat) (rel : Bool) : OpSem :=
  { OpSem.base with
    latches := memLatches
    outward := true
    access := some fun s l o => s.accessTrap l o.cap o.storeAddr size size grantWR true !rel
    act := fun s l o =>
      let s1 := s.storeBytes l rel (s.parts l o.storeAddr size true) (leBytes size o.xw.toNat)
      if rel then s1.release l else s1 }

/-- LD8. -/
def semLd8 : OpSem := loadSem 1 true false
/-- LD16. -/
def semLd16 : OpSem := loadSem 2 true false
/-- LD32. -/
def semLd32 : OpSem := loadSem 4 true false
/-- LD64. -/
def semLd64 : OpSem := loadSem 8 true false
/-- LDN8. -/
def semLdn8 : OpSem := loadSem 1 false false
/-- LDN16. -/
def semLdn16 : OpSem := loadSem 2 false false
/-- LDN32. -/
def semLdn32 : OpSem := loadSem 4 false false
/-- LDACQ32. -/
def semLdacq32 : OpSem := loadSem 4 true true
/-- LDACQ64. -/
def semLdacq64 : OpSem := loadSem 8 true true
/-- ST8. -/
def semSt8 : OpSem := storeSem 1 false
/-- ST16. -/
def semSt16 : OpSem := storeSem 2 false
/-- ST32. -/
def semSt32 : OpSem := storeSem 4 false
/-- ST64. -/
def semSt64 : OpSem := storeSem 8 false
/-- STREL32. -/
def semStrel32 : OpSem := storeSem 4 true
/-- STREL64. -/
def semStrel64 : OpSem := storeSem 8 true

/-- The tag of the granule at the start of a range (R195); data of a dead key, or written under another key than the page's, has none: it
is no capability (R101). -/
def State.tagOf (s : State) (ps : List Piece) : Bool :=
  match ps with
  | p :: _ =>
    !s.keyDead p.place.kidx && s.lineKey.getD (p.place.pa / 64) 0 == s.serialOf p.place.kidx && s.tags.getD (p.place.pa / 16) false
  | [] => false

/-- LDC: 16 bytes and the tag of their granule, to an a register. -/
def semLdc : OpSem :=
  { OpSem.base with
    latches := memLatches
    sel := some [.a]
    access := some fun s l o => s.accessTrap l o.cap o.loadAddr 16 16 grantRD false true
    act := fun s l o =>
      let ps := s.parts l o.loadAddr 16 false
      let (bs, bad) := s.readRange ps
      (s.touchRange (s.accessor l) ps).deliverData l o none 24 bad (.cap ⟨BitVec.ofNat 128 (leNat bs), s.tagOf ps⟩) }

/-- Whether a capability stored through K keeps its tag (R197). -/
def keepsTag (k x : Cap) : Bool := x.tag && bit k.perm 3 && (!bit x.perm 5 || bit k.perm 5)

/-- STC: 16 bytes and the tag that R197 gives them. -/
def semStc : OpSem :=
  { OpSem.base with
    xw := .cap
    latches := memLatches
    outward := true
    access := some fun s l o => s.accessTrap l o.cap o.storeAddr 16 16 grantWR true true
    act := fun s l o =>
      let ps := s.parts l o.storeAddr 16 true
      let s1 := s.storeBytes l false ps (leBytes 16 o.xc.raw.toNat)
      match ps with
      | p :: _ =>
        if s.writeRefused ps || s.keyDead p.place.kidx then s1
        else { s1 with tags := s1.tags.put false (p.place.pa / 16) (keepsTag o.cap o.xc) }
      | [] => s1 }

/-- LD8_LS0 (R196). -/
def execLd8Ls0 (m : Mv) (s : State) : Host.Outcome State Fault Refusal :=
  runTrigger semLd8 .ls0 .ld8 m s

/-- LD8_LS1 (R196). -/
def execLd8Ls1 (m : Mv) (s : State) : Host.Outcome State Fault Refusal :=
  runTrigger semLd8 .ls1 .ld8 m s

/-- LD16_LS0 (R196). -/
def execLd16Ls0 (m : Mv) (s : State) : Host.Outcome State Fault Refusal :=
  runTrigger semLd16 .ls0 .ld16 m s

/-- LD16_LS1 (R196). -/
def execLd16Ls1 (m : Mv) (s : State) : Host.Outcome State Fault Refusal :=
  runTrigger semLd16 .ls1 .ld16 m s

/-- LD32_LS0 (R196). -/
def execLd32Ls0 (m : Mv) (s : State) : Host.Outcome State Fault Refusal :=
  runTrigger semLd32 .ls0 .ld32 m s

/-- LD32_LS1 (R196). -/
def execLd32Ls1 (m : Mv) (s : State) : Host.Outcome State Fault Refusal :=
  runTrigger semLd32 .ls1 .ld32 m s

/-- LD64_LS0 (R196). -/
def execLd64Ls0 (m : Mv) (s : State) : Host.Outcome State Fault Refusal :=
  runTrigger semLd64 .ls0 .ld64 m s

/-- LD64_LS1 (R196). -/
def execLd64Ls1 (m : Mv) (s : State) : Host.Outcome State Fault Refusal :=
  runTrigger semLd64 .ls1 .ld64 m s

/-- LDN8_LS0 (R196). -/
def execLdn8Ls0 (m : Mv) (s : State) : Host.Outcome State Fault Refusal :=
  runTrigger semLdn8 .ls0 .ldn8 m s

/-- LDN8_LS1 (R196). -/
def execLdn8Ls1 (m : Mv) (s : State) : Host.Outcome State Fault Refusal :=
  runTrigger semLdn8 .ls1 .ldn8 m s

/-- LDN16_LS0 (R196). -/
def execLdn16Ls0 (m : Mv) (s : State) : Host.Outcome State Fault Refusal :=
  runTrigger semLdn16 .ls0 .ldn16 m s

/-- LDN16_LS1 (R196). -/
def execLdn16Ls1 (m : Mv) (s : State) : Host.Outcome State Fault Refusal :=
  runTrigger semLdn16 .ls1 .ldn16 m s

/-- LDN32_LS0 (R196). -/
def execLdn32Ls0 (m : Mv) (s : State) : Host.Outcome State Fault Refusal :=
  runTrigger semLdn32 .ls0 .ldn32 m s

/-- LDN32_LS1 (R196). -/
def execLdn32Ls1 (m : Mv) (s : State) : Host.Outcome State Fault Refusal :=
  runTrigger semLdn32 .ls1 .ldn32 m s

/-- LDC_LS0 (R197). -/
def execLdcLs0 (m : Mv) (s : State) : Host.Outcome State Fault Refusal :=
  runTrigger semLdc .ls0 .ldc m s

/-- LDC_LS1 (R197). -/
def execLdcLs1 (m : Mv) (s : State) : Host.Outcome State Fault Refusal :=
  runTrigger semLdc .ls1 .ldc m s

/-- ST8_LS0 (R196). -/
def execSt8Ls0 (m : Mv) (s : State) : Host.Outcome State Fault Refusal :=
  runTrigger semSt8 .ls0 .st8 m s

/-- ST8_LS1 (R196). -/
def execSt8Ls1 (m : Mv) (s : State) : Host.Outcome State Fault Refusal :=
  runTrigger semSt8 .ls1 .st8 m s

/-- ST16_LS0 (R196). -/
def execSt16Ls0 (m : Mv) (s : State) : Host.Outcome State Fault Refusal :=
  runTrigger semSt16 .ls0 .st16 m s

/-- ST16_LS1 (R196). -/
def execSt16Ls1 (m : Mv) (s : State) : Host.Outcome State Fault Refusal :=
  runTrigger semSt16 .ls1 .st16 m s

/-- ST32_LS0 (R196). -/
def execSt32Ls0 (m : Mv) (s : State) : Host.Outcome State Fault Refusal :=
  runTrigger semSt32 .ls0 .st32 m s

/-- ST32_LS1 (R196). -/
def execSt32Ls1 (m : Mv) (s : State) : Host.Outcome State Fault Refusal :=
  runTrigger semSt32 .ls1 .st32 m s

/-- ST64_LS0 (R196). -/
def execSt64Ls0 (m : Mv) (s : State) : Host.Outcome State Fault Refusal :=
  runTrigger semSt64 .ls0 .st64 m s

/-- ST64_LS1 (R196). -/
def execSt64Ls1 (m : Mv) (s : State) : Host.Outcome State Fault Refusal :=
  runTrigger semSt64 .ls1 .st64 m s

/-- STC_LS0 (R197). -/
def execStcLs0 (m : Mv) (s : State) : Host.Outcome State Fault Refusal :=
  runTrigger semStc .ls0 .stc m s

/-- STC_LS1 (R197). -/
def execStcLs1 (m : Mv) (s : State) : Host.Outcome State Fault Refusal :=
  runTrigger semStc .ls1 .stc m s

/-- LDACQ32_LS0 (R196). -/
def execLdacq32Ls0 (m : Mv) (s : State) : Host.Outcome State Fault Refusal :=
  runTrigger semLdacq32 .ls0 .ldacq32 m s

/-- LDACQ32_LS1 (R196). -/
def execLdacq32Ls1 (m : Mv) (s : State) : Host.Outcome State Fault Refusal :=
  runTrigger semLdacq32 .ls1 .ldacq32 m s

/-- LDACQ64_LS0 (R196). -/
def execLdacq64Ls0 (m : Mv) (s : State) : Host.Outcome State Fault Refusal :=
  runTrigger semLdacq64 .ls0 .ldacq64 m s

/-- LDACQ64_LS1 (R196). -/
def execLdacq64Ls1 (m : Mv) (s : State) : Host.Outcome State Fault Refusal :=
  runTrigger semLdacq64 .ls1 .ldacq64 m s

/-- STREL32_LS0 (R196). -/
def execStrel32Ls0 (m : Mv) (s : State) : Host.Outcome State Fault Refusal :=
  runTrigger semStrel32 .ls0 .strel32 m s

/-- STREL32_LS1 (R196). -/
def execStrel32Ls1 (m : Mv) (s : State) : Host.Outcome State Fault Refusal :=
  runTrigger semStrel32 .ls1 .strel32 m s

/-- STREL64_LS0 (R196). -/
def execStrel64Ls0 (m : Mv) (s : State) : Host.Outcome State Fault Refusal :=
  runTrigger semStrel64 .ls0 .strel64 m s

/-- STREL64_LS1 (R196). -/
def execStrel64Ls1 (m : Mv) (s : State) : Host.Outcome State Fault Refusal :=
  runTrigger semStrel64 .ls1 .strel64 m s


/-! ### Vector accesses (R199 to R202) -/

/-- The parts of a 512-byte range that hold bytes of enabled lanes. -/
def enabledParts (m : Mask) (addr : Nat) (ps : List Piece) : List Piece :=
  ps.filter fun p => (List.range 128).any fun i => bit m i && decide (addr + 4 * i < p.va + p.len ∧ p.va < addr + 4 * i + 4)

/-- The checks of VLD and VST (R199): the whole range when a lane is enabled, races only on the lines of enabled lanes. -/
def State.vectorTrap (s : State) (l : Loc) (k : Cap) (addr : Int) (need : Byte) (write : Bool) : Option Trap :=
  let m := s.laneMask l
  if m = 0 then none
  else
    match s.checkAccess l k addr 512 4 need write with
    | .error t => some t
    | .ok ps => s.raceTrap l addr.toNat (enabledParts m addr.toNat ps)

/-- The lanes that bytes hold. -/
def bytesVec (bs : List Byte) : Vec := BitVec.ofNat 4096 (leNat bs)

/-- VLD. -/
def semVld : OpSem :=
  { OpSem.base with
    latches := memLatches
    sel := some [.v]
    access := some fun s l o => s.vectorTrap l o.cap o.loadAddr grantRD false
    act := fun s l o =>
      let m := s.laneMask l
      let ps := if m = 0 then [] else s.parts l o.loadAddr 512 false
      let used := enabledParts m o.loadAddr.toNat ps
      (s.touchRange (s.accessor l) used).deliverData l o (some m) 28 (s.readRange used).2
        (.vec (bytesVec (s.readRange ps).1)) }

/-- The part of a place that lies some bytes into it. -/
def Piece.sub (p : Piece) (off len : Nat) : Piece := ⟨p.va + off, len, { p.place with pa := p.place.pa + off }⟩

/-- The enabled lanes of a vector written at a range of 512 bytes: a part whose lanes are all enabled as a whole, another lane by
lane (R199). -/
def laneWrites (m : Mask) (addr : Nat) (x : Vec) (p : Piece) : List (Piece × List Byte) :=
  let first := (p.va - addr) / 4
  let lanes := (List.range (p.len / 4)).map fun j => first + j
  let bytesOf (i : Nat) : List Byte := leBytes 4 (lane x i).toNat
  if lanes.all fun i => bit m i then [(p, lanes.flatMap bytesOf)]
  else (lanes.filter fun i => bit m i).map fun i => (p.sub (addr + 4 * i - p.va) 4, bytesOf i)

/-- Writes of pieces in order, each with its bytes; recorded as data writes. -/
def State.storePieces (s : State) (l : Loc) (ws : List (Piece × List Byte)) : State :=
  let ps := ws.map Prod.fst
  if s.writeRefused ps then s.memoryError l
  else
    ws.foldl (fun s w => s.writePiece (s.accessor l) w.1 w.2)
      ((s.holdRange (s.accessor l) ps).recordWrite (s.accessor l) l.phys (s.ctx l).cur.region false ps)

/-- VST. -/
def semVst : OpSem :=
  { OpSem.base with
    xw := .vec
    latches := memLatches
    outward := true
    access := some fun s l o => s.vectorTrap l o.cap o.storeAddr grantWR true
    act := fun s l o =>
      let m := s.laneMask l
      if m = 0 then s
      else s.storePieces l ((s.parts l o.storeAddr 512 true).flatMap (laneWrites m o.storeAddr.toNat o.xv)) }

/-- The address of a lane of a gather or scatter (R193). -/
def laneAddr (o : Opd) (offs : Vec) (i : Nat) : Int :=
  Int.ofNat o.cap.base + sgn o.c + Int.ofNat (lane offs i).toNat

/-- The enabled lanes, in ascending order. -/
def enabledLanes (m : Mask) : List Nat := (List.range 128).filter fun i => bit m i

/-- The fault of the lowest enabled lane that fails (R193). -/
def State.lanesTrap (s : State) (l : Loc) (o : Opd) (offs : Vec) (need : Byte) (write : Bool) : List Nat → Option Trap
  | [] => none
  | i :: rest =>
    match s.accessTrap l o.cap (laneAddr o offs i) 4 4 need write true with
    | some t => some t
    | none => s.lanesTrap l o offs need write rest

/-- GATH. -/
def semGath : OpSem :=
  { OpSem.base with
    xw := .vec
    latches := memLatches
    sel := some [.v]
    access := some fun s l o => s.lanesTrap l o o.xv grantRD false (enabledLanes (s.laneMask l))
    act := fun s l o =>
      let m := s.laneMask l
      let get (i : Nat) : List Piece := s.parts l (laneAddr o o.xv i) 4 false
      let ps := (enabledLanes m).flatMap get
      let v := ofLanes fun i => if bit m i then BitVec.ofNat 32 (leNat (s.readRange (get i)).1) else 0
      (s.touchRange (s.accessor l) ps).deliverData l o (some m) 32 (s.readRange ps).2 (.vec v) }

/-- Latch o3 as a vector. -/
def Opd.offsets (o : Opd) : Vec := (o.o3.getD (.word 0)).toVec

/-- SCAT: the data is the trigger value, the offsets latch o3; lanes are written in ascending order. -/
def semScat : OpSem :=
  { OpSem.base with
    xw := .vec
    latches := [(1, .cap), (2, .word), (3, .vec)]
    outward := true
    access := some fun s l o => s.lanesTrap l o o.offsets grantWR true (enabledLanes (s.laneMask l))
    act := fun s l o =>
      s.storePieces l ((enabledLanes (s.laneMask l)).flatMap fun i =>
        (s.parts l (laneAddr o o.offsets i) 4 true).map fun p => (p, leBytes 4 (lane o.xv i).toNat)) }

/-- Half j of a vector register (R200). -/
def half (x : Vec) (j : Nat) : BitVec 16 := x.extractLsb' (16 * j) 16

/-- The halves of a vector in enabled lanes; others count as zero (R201). -/
def maskedHalves (m : Mask) (x : Vec) : List (BitVec 16) :=
  (List.range 256).map fun j => if bit m (j / 2) then half x j else 0

/-- The size of a record of some non-zero halves (R200). -/
def recordSize (nnz : Nat) : Nat := 36 + 4 * ((nnz + 1) / 2)

/-- The number whose bits, the first the lowest, tell which halves are non-zero. -/
def halfMask : List (BitVec 16) → Nat
  | [] => 0
  | h :: hs => b2n (h != 0) + 2 * halfMask hs

/-- The record of 256 halves: header, mask, values and pad (R200). -/
def recordOf (hs : List (BitVec 16)) : List Byte :=
  let nz := hs.filter fun h => h != 0
  leBytes 4 nz.length ++ leBytes 32 (halfMask hs) ++ (nz.flatMap fun h => leBytes 2 h.toNat) ++
    List.replicate (recordSize nz.length - 36 - 2 * nz.length) 0

/-- The halves that a mask and values give, from half j on (R202): a 1 takes the next value. -/
def expandHalves (mask : Nat) : Nat → Nat → List (BitVec 16) → List (BitVec 16)
  | _, 0, _ => []
  | j, n + 1, vs =>
    if (mask >>> j) % 2 = 1 then vs.headD 0 :: expandHalves mask (j + 1) n vs.tail
    else 0 :: expandHalves mask (j + 1) n vs

/-- The vector of 256 halves. -/
def halvesVec (hs : List (BitVec 16)) : Vec := bytesVec (hs.flatMap fun h => leBytes 2 h.toNat)

/-- Bytes in halves. -/
def bytesHalves : Nat → List Byte → List (BitVec 16)
  | 0, _ => []
  | n + 1, bs => BitVec.ofNat 16 (leNat (bs.take 2)) :: bytesHalves n (bs.drop 2)

/-- The number of ones in the low n bits of a number. -/
def onesBelow (x : Nat) : Nat → Nat
  | 0 => 0
  | n + 1 => (x >>> n) % 2 + onesBelow x n

/-- The record that VSTC writes and its size (R201). -/
def vstcRecord (s : State) (l : Loc) (o : Opd) : List Byte := recordOf (maskedHalves (s.laneMask l) o.xv)

/-- VSTC; with no enabled lane it accesses nothing (R199). -/
def semVstc : OpSem :=
  { OpSem.base with
    xw := .vec
    latches := memLatches
    outward := true
    access := some fun s l o =>
      if s.laneMask l = 0 then none
      else
        match s.accessTrap l o.cap o.storeAddr (vstcRecord s l o).length 4 grantWR true true with
        | some t =>
          if t.cls = .capability ∧ t.cause = 5 ∧ Int.ofNat o.cap.base ≤ o.storeAddr then
            some ⟨.sparse, 0, addrWord o.storeAddr, 0, 0, 0⟩
          else some t
        | none => none
    act := fun s l o =>
      if s.laneMask l = 0 then s
      else
        let rec0 := vstcRecord s l o
        let s1 := s.storeBytes l false (s.parts l o.storeAddr rec0.length true) rec0
        s1.onView l false fun w =>
          match ((w.port o.unit).latch 2).content with
          | .value (.word x) => w.setLatch o.unit 2 (.value (.word (x + BitVec.ofNat 64 rec0.length)))
          | _ => w }

/-- A byte of a record's values (R202): 0 beyond the capability; a free value where the translation fails, for which the spec
states none (log 7). -/
def State.valueByte (s : State) (l : Loc) (k : Cap) (va : Nat) : Byte :=
  if k.base + k.len ≤ va then 0
  else
    match s.parts l (Int.ofNat va) 1 false with
    | p :: _ => (s.readPiece p).headD 0
    | [] => Config.freeByte (s.freeCtr + va)

/-- The parts, by line, of the value bytes that VLDX reads inside the capability, after the parts of its header and mask (R202); a line whose
translation fails has none. -/
def State.valueParts (s : State) (l : Loc) (o : Opd) (ps : List Piece) : List Piece :=
  let va := o.loadAddr.toNat + 36
  let n := min (2 * onesBelow (leNat ((s.readRange ps).1.drop 4)) 256) (o.cap.base + o.cap.len - va)
  (lineParts (n / 64 + 2) va n).flatMap fun p => s.parts l (Int.ofNat p.1) p.2 false

/-- VLDX: the check covers header and mask, and race detection the lines of the value bytes too (R322, R325), which are read through L2 as those of
the header are (R198); values expand into the halves
of the mask's ones (R202). -/
def semVldx : OpSem :=
  { OpSem.base with
    latches := memLatches
    sel := some [.v]
    access := some fun s l o =>
      if s.laneMask l = 0 then none
      else
        match s.checkAccess l o.cap o.loadAddr 36 4 grantRD false with
        | .error t => some t
        | .ok ps => s.raceTrap l o.loadAddr.toNat (ps ++ s.valueParts l o ps)
    act := fun s l o =>
      let m := s.laneMask l
      let ps := if m = 0 then [] else s.parts l o.loadAddr 36 false
      let (bs, bad) := s.readRange ps
      let mask := leNat (bs.drop 4)
      let n := 2 * onesBelow mask 256
      let va := o.loadAddr.toNat + 36
      let vals := (List.range n).map fun i => s.valueByte l o.cap (va + i)
      let vps := s.valueParts l o ps
      let v := halvesVec (expandHalves mask 0 256 (bytesHalves 256 vals))
      let lines := ps ++ vps.filter fun p => !ps.any fun q => q.place.pa / 64 == p.place.pa / 64
      let s1 := (s.touchRange (s.accessor l) lines).deliverData l o (some m) 28 (bad || (s.readRange vps).2) (.vec v)
      { s1 with freeCtr := s1.freeCtr + 1 } }

/-- VLD_LS0 (R199). -/
def execVldLs0 (m : Mv) (s : State) : Host.Outcome State Fault Refusal :=
  runTrigger semVld .ls0 .vld m s

/-- VLD_LS1 (R199). -/
def execVldLs1 (m : Mv) (s : State) : Host.Outcome State Fault Refusal :=
  runTrigger semVld .ls1 .vld m s

/-- VST_LS0 (R199). -/
def execVstLs0 (m : Mv) (s : State) : Host.Outcome State Fault Refusal :=
  runTrigger semVst .ls0 .vst m s

/-- VST_LS1 (R199). -/
def execVstLs1 (m : Mv) (s : State) : Host.Outcome State Fault Refusal :=
  runTrigger semVst .ls1 .vst m s

/-- GATH_LS0 (R199). -/
def execGathLs0 (m : Mv) (s : State) : Host.Outcome State Fault Refusal :=
  runTrigger semGath .ls0 .gath m s

/-- GATH_LS1 (R199). -/
def execGathLs1 (m : Mv) (s : State) : Host.Outcome State Fault Refusal :=
  runTrigger semGath .ls1 .gath m s

/-- SCAT_LS0 (R199). -/
def execScatLs0 (m : Mv) (s : State) : Host.Outcome State Fault Refusal :=
  runTrigger semScat .ls0 .scat m s

/-- SCAT_LS1 (R199). -/
def execScatLs1 (m : Mv) (s : State) : Host.Outcome State Fault Refusal :=
  runTrigger semScat .ls1 .scat m s

/-- VLDX_LS0 (R202). -/
def execVldxLs0 (m : Mv) (s : State) : Host.Outcome State Fault Refusal :=
  runTrigger semVldx .ls0 .vldx m s

/-- VLDX_LS1 (R202). -/
def execVldxLs1 (m : Mv) (s : State) : Host.Outcome State Fault Refusal :=
  runTrigger semVldx .ls1 .vldx m s

/-- VSTC_LS0 (R201). -/
def execVstcLs0 (m : Mv) (s : State) : Host.Outcome State Fault Refusal :=
  runTrigger semVstc .ls0 .vstc m s

/-- VSTC_LS1 (R201). -/
def execVstcLs1 (m : Mv) (s : State) : Host.Outcome State Fault Refusal :=
  runTrigger semVstc .ls1 .vstc m s


/-! ### Fences and hints (R204, R206, R208) -/

/-- A fence (R204). Every access of the load/store path is performed when it is accepted (log 6), so nothing is left to wait
for. -/
def fenceSem : OpSem :=
  { OpSem.base with
    plainS := true
    encoding := fun _ _ o => if bits o.xw 63 3 ≠ 0 ∨ bits o.xw 2 0 > 5 then some 29 else none }

/-- FENCE. -/
def semFence : OpSem := fenceSem
/-- FENCE.SC. -/
def semFenceSc : OpSem := fenceSem

/-- A hint is dropped: MEMCNT.HDROP counts it, saturating (R206, R208). -/
def View.dropHint (w : View) : View :=
  let n : Word := BitVec.ofNat 64 (min (bits w.ctl.memcnt 31 0 + 1) (2 ^ 32 - 1))
  { w with ctl := { w.ctl with memcnt := setBits 0xFFFFFFFF w.ctl.memcnt n } }

/-- The place of the byte that a hint names, unless the hint is dropped (R206): it needs no grant and HO is no failure. -/
def State.hintPlace (s : State) (l : Loc) (k : Cap) (addr : Int) : Option Place :=
  match capCheck k addr 1 0 (s.tenantOf l) true with
  | some _ => none
  | none =>
    match s.translate (s.accessor l) addr.toNat false with
    | .ok p => some p
    | .error _ => none

/-- HINT: the line is brought into the slice of the terrace. -/
def semHint : OpSem :=
  { OpSem.base with
    latches := memLatches
    plainS := true
    act := fun s l o =>
      match s.hintPlace l o.cap o.loadAddr with
      | some p => s.touch (s.accessor l) (p.pa / 64) p.kidx false
      | none => s.onView l false View.dropHint }

/-- HRES: the residency class of the line in the slice of the terrace; a line that no copy stands for keeps none. -/
def semHres : OpSem :=
  { OpSem.base with
    latches := memLatches
    plainS := true
    act := fun s l o =>
      match s.hintPlace l o.cap o.storeAddr with
      | some p =>
        if bits o.xw 1 0 = 3 then s.onView l false View.dropHint
        else
          let t := sliceOf l.core
          match (s.slice t).find? (p.pa / 64) with
          | some e => { s with l2 := s.l2.set t ((s.slice t).set (p.pa / 64) { e with cls := bits o.xw 1 0 }) }
          | none => s
      | none => s.onView l false View.dropHint }

/-- FENCE_LS0 (R204). -/
def execFenceLs0 (m : Mv) (s : State) : Host.Outcome State Fault Refusal :=
  runTrigger semFence .ls0 .fence m s

/-- FENCE_LS1 (R204). -/
def execFenceLs1 (m : Mv) (s : State) : Host.Outcome State Fault Refusal :=
  runTrigger semFence .ls1 .fence m s

/-- FENCE_SC_LS0 (R318). -/
def execFenceScLs0 (m : Mv) (s : State) : Host.Outcome State Fault Refusal :=
  runTrigger semFenceSc .ls0 .fenceSc m s

/-- FENCE_SC_LS1 (R318). -/
def execFenceScLs1 (m : Mv) (s : State) : Host.Outcome State Fault Refusal :=
  runTrigger semFenceSc .ls1 .fenceSc m s

/-- HINT_LS0 (R206). -/
def execHintLs0 (m : Mv) (s : State) : Host.Outcome State Fault Refusal :=
  runTrigger semHint .ls0 .hint m s

/-- HINT_LS1 (R206). -/
def execHintLs1 (m : Mv) (s : State) : Host.Outcome State Fault Refusal :=
  runTrigger semHint .ls1 .hint m s

/-- HRES_LS0 (R206). -/
def execHresLs0 (m : Mv) (s : State) : Host.Outcome State Fault Refusal :=
  runTrigger semHres .ls0 .hres m s

/-- HRES_LS1 (R206). -/
def execHresLs1 (m : Mv) (s : State) : Host.Outcome State Fault Refusal :=
  runTrigger semHres .ls1 .hres m s


/-! ### Cache control (R251) -/

/-- The bytes that CCTL covers. -/
def cctlSize (o : Opd) : Nat := 64 * (bits o.xw 9 2 + 1)

/-- CCTL; the lines of ZERO take their places without being read. -/
def semCctl : OpSem :=
  { OpSem.base with
    latches := memLatches
    plainS := true
    encoding := fun _ _ o => if bits o.xw 63 10 ≠ 0 ∨ bits o.xw 1 0 = 3 then some 29 else none
    parts := [.enc [0] fun _ _ o => if bits o.xw 63 10 ≠ 0 ∨ bits o.xw 1 0 = 3 then some 29 else none]
    access := some fun s l o =>
      let zero := bits o.xw 1 0 == 2
      s.accessTrap l o.cap o.storeAddr (cctlSize o) 64 (if zero then grantWR else grantRD) zero zero
    act := fun s l o =>
      let op := bits o.xw 1 0
      let ps := s.parts l o.storeAddr (cctlSize o) (op == 2)
      if op = 2 then
        (ps.foldl (fun s p => s.takeLine (s.accessor l) (p.place.pa / 64) p.place.kidx) s).storeBytes l false ps
          (List.replicate (cctlSize o) 0)
      else ps.foldl (fun s p => s.cleanLine (p.place.pa / 64) (op == 1)) s }

/-- CCTL_LS0 (R251). -/
def execCctlLs0 (m : Mv) (s : State) : Host.Outcome State Fault Refusal :=
  runTrigger semCctl .ls0 .cctl m s

/-- CCTL_LS1 (R251). -/
def execCctlLs1 (m : Mv) (s : State) : Host.Outcome State Fault Refusal :=
  runTrigger semCctl .ls1 .cctl m s


/-! ### Atomics (R203) -/

/-- An atomic: its size in bytes, whether it consumes C, the new memory value from the old one, and the result. A new value of none
writes nothing. -/
def atomicSem (size : Nat) (usesC : Bool) (new : Opd → Nat → Option Nat) (res : Nat → Value) : OpSem :=
  { OpSem.base with
    xw := if size = 16 then .cap else .word
    latches := if usesC then memLatches ++ [(3, .cap)] else memLatches
    sel := some [if size = 16 then .a else .s]
    outward := true
    access := some fun s l o =>
      match s.accessTrap l o.cap o.storeAddr size size (grantRD ||| grantWR ||| grantAT) true false with
      | some t => some t
      | none => s.accessTrap l o.cap o.storeAddr size size (grantRD ||| grantWR ||| grantAT) false false
    act := fun s l o =>
      let ps := s.parts l o.storeAddr size true
      let (bs, bad) := s.readRange ps
      let old := leNat bs
      let word := match ps with | p :: _ => if p.place.watched then s.metaOf p.place.pa else 0 | [] => 0
      let s1 := (s.touchRange (s.accessor l) ps).acquireLine l false word
      let s2 :=
        match bad, new o old with
        | false, some v => s1.storeBytes l true ps (leBytes size v)
        | _, _ => s1
      (s2.release l).deliverData l o none 40 bad (res old) }

/-- The old value of 8 bytes. -/
def oldWord (m : Nat) : Value := .word (BitVec.ofNat 64 m)

/-- A number of 8 bytes read as signed. -/
def signedWord (m : Nat) : Int := (BitVec.ofNat 64 m).toInt

/-- ATADD32. -/
def semAtadd32 : OpSem :=
  atomicSem 4 false (fun o m => some ((m + o.xw.toNat % 2 ^ 32) % 2 ^ 32))
    fun m => .word (BitVec.ofInt 64 (signedLow (BitVec.ofNat 64 m) 32))
/-- ATADD64. -/
def semAtadd64 : OpSem := atomicSem 8 false (fun o m => some ((m + o.xw.toNat) % 2 ^ 64)) oldWord
/-- ATAND. -/
def semAtand : OpSem := atomicSem 8 false (fun o m => some (m &&& o.xw.toNat)) oldWord
/-- ATOR. -/
def semAtor : OpSem := atomicSem 8 false (fun o m => some (m ||| o.xw.toNat)) oldWord
/-- ATXOR. -/
def semAtxor : OpSem := atomicSem 8 false (fun o m => some (m ^^^ o.xw.toNat)) oldWord
/-- ATMAX. -/
def semAtmax : OpSem :=
  atomicSem 8 false (fun o m => some (if sgn o.xw ≤ signedWord m then m else o.xw.toNat)) oldWord
/-- ATMIN. -/
def semAtmin : OpSem :=
  atomicSem 8 false (fun o m => some (if signedWord m ≤ sgn o.xw then m else o.xw.toNat)) oldWord
/-- ATSWP. -/
def semAtswp : OpSem := atomicSem 8 false (fun o _ => some o.xw.toNat) oldWord
/-- CAS64. -/
def semCas64 : OpSem :=
  atomicSem 8 true (fun o m => if m = o.k.raw.toNat % 2 ^ 64 then some o.xw.toNat else none) oldWord
/-- CAS128. -/
def semCas128 : OpSem :=
  atomicSem 16 true (fun o m => if m = o.k.raw.toNat then some o.xc.raw.toNat else none)
    fun m => .cap ⟨BitVec.ofNat 128 m, false⟩

/-- ATADD32 (R203). -/
def execAtadd32 (m : Mv) (s : State) : Host.Outcome State Fault Refusal :=
  runTrigger semAtadd32 .atu .atadd32 m s

/-- ATADD64 (R203). -/
def execAtadd64 (m : Mv) (s : State) : Host.Outcome State Fault Refusal :=
  runTrigger semAtadd64 .atu .atadd64 m s

/-- ATAND (R203). -/
def execAtand (m : Mv) (s : State) : Host.Outcome State Fault Refusal :=
  runTrigger semAtand .atu .atand m s

/-- ATOR (R203). -/
def execAtor (m : Mv) (s : State) : Host.Outcome State Fault Refusal :=
  runTrigger semAtor .atu .ator m s

/-- ATXOR (R203). -/
def execAtxor (m : Mv) (s : State) : Host.Outcome State Fault Refusal :=
  runTrigger semAtxor .atu .atxor m s

/-- ATMAX (R203). -/
def execAtmax (m : Mv) (s : State) : Host.Outcome State Fault Refusal :=
  runTrigger semAtmax .atu .atmax m s

/-- ATMIN (R203). -/
def execAtmin (m : Mv) (s : State) : Host.Outcome State Fault Refusal :=
  runTrigger semAtmin .atu .atmin m s

/-- ATSWP (R203). -/
def execAtswp (m : Mv) (s : State) : Host.Outcome State Fault Refusal :=
  runTrigger semAtswp .atu .atswp m s

/-- CAS64 (R203). -/
def execCas64 (m : Mv) (s : State) : Host.Outcome State Fault Refusal :=
  runTrigger semCas64 .atu .cas64 m s

/-- CAS128 (R203). -/
def execCas128 (m : Mv) (s : State) : Host.Outcome State Fault Refusal :=
  runTrigger semCas128 .atu .cas128 m s


end Sys2Proof.Machine
end

