-- ==== Sys2Proof/Machine/Pool.lean ====
section
/-!
DEFINITION. The pool of a core: bank roles (R293), claims and ownership (R298, R299), bytes under keys (R55, R301), barriers
(R220, R221), tile descriptors and the canonical layout (R145, R146), the tile table and its roles (R148, R149, R302, R304), and the
operations in flight.
-/

namespace Sys2Proof.Machine

/-! ### Bank roles (R293) -/

/-- The banks that are not withdrawn, in descending number. -/
def Core.inService (k : Core) : List Nat := (List.range 80).reverse.filter fun b => !k.withdrawn.contains b

/-- The number of vector banks of a partition word. -/
def vectorBanks (part : Word) : Nat :=
  let vc (i : Nat) : Nat := let f := bits part (2 * i + 1) (2 * i); if f = 0 then 16 else if f = 1 then 32 else 64
  (512 * (vc 0 + vc 1 + vc 2 + vc 3) + 65535) / 65536

/-- The number of accumulator banks of a partition word. -/
def accBanks (part : Word) : Nat := 4 * bits part 10 8

/-- The role of a bank: 0 vector, 1 accumulator, 2 scratchpad, 3 withdrawn. -/
def bankRole (part : Word) (service : List Nat) (b : Nat) : Nat :=
  if b ∉ service then 3
  else
    let i := position b service
    if i < vectorBanks part then 0 else if i < vectorBanks part + accBanks part then 1 else 2

/-- Whether a bank is scratchpad (R293). -/
def Core.scratch (k : Core) (b : Nat) : Bool := bankRole k.poolpart k.inService b == 2

/-- Whether a z tile is granted (R45, R292): z0 and z1 always, z2 to z(ZN + 1) by the partition. -/
def Core.zGranted (k : Core) (i : Nat) : Bool := decide (i < 2 + bits k.poolpart 10 8)

/-! ### Claims and frames' banks (R174, R298, R299) -/

/-- The program bound to a context. -/
def State.progOf (s : State) (l : Loc) : Option Nat := (s.ctx l).binding.map Binding.prog

/-- The claims of a program on a bank. -/
def Core.claimsOf (k : Core) (prog : Option Nat) (b : Nat) : List Claim :=
  k.claims.filter fun c => prog = some c.prog && c.bank == b

/-- Whether a program owns a bank: its claim is held or pending (R299). -/
def Core.owns (k : Core) (prog : Option Nat) (b : Nat) : Bool :=
  k.scratch b && (k.claimsOf prog b).any fun c => decide (c.state ≠ .releasing)

/-- Whether a claim of a program on a bank is pending. -/
def Core.pendingOn (k : Core) (prog : Option Nat) (b : Nat) : Bool :=
  (k.claimsOf prog b).any fun c => decide (c.state = .pending)

/-- Whether a program's claim on a bank is held. -/
def Core.heldBy (k : Core) (prog : Option Nat) (b : Nat) : Bool :=
  k.scratch b && (k.claimsOf prog b).any fun c => decide (c.state = .held)

/-- The bytes of a frame (R172). -/
def frameBytes (ne : Nat) : Nat := 8 * ne + ne / 8 + 64

/-- The banks of a frame (R172). -/
def frameBanks (bank ne : Nat) : List Nat := (List.range ((frameBytes ne + 65535) / 65536)).map fun i => bank + i

/-- Whether a frame holds a bank (R174): a frame exists from the end of its FBIND or FORK bundle until its FDROP completes or its
load fails. -/
def Core.frameHeld (k : Core) (b : Nat) : Bool := k.frames.any fun e => (frameBanks e.2.bank e.2.ne).contains b

/-- The KIND, PLANES and CENTRE of a format descriptor (R57). -/
def fmtKind (f : Byte) : Nat := bits f 2 0
/-- PLANES of a descriptor. -/
def fmtPlanes (f : Byte) : Nat := bits f 6 3
/-- CENTRE of a descriptor. -/
def fmtCentre (f : Byte) : Bool := bit f 7

/-- Whether R57 refuses a descriptor. -/
def badFmt (f : Byte) : Bool :=
  fmtKind f ≥ 5 ||
    (if fmtKind f = 4 then fmtPlanes f < 2 || fmtPlanes f > 8 || (fmtCentre f && fmtPlanes f == 8)
     else fmtPlanes f != 0 || fmtCentre f)

/-- The format descriptor of a bank (R295). -/
def Core.fmtOf (k : Core) (b : Nat) : Byte := k.fmt.getD b 0

/-- Whether a pool byte lies in the reserved end of a BPI bank (R55, R174). -/
def Core.reservedByte (k : Core) (a : Nat) : Bool :=
  decide (a % 65536 ≥ 65472) && fmtKind (k.fmtOf (a / 65536)) == 4 && !k.frameHeld (a / 65536)

/-! ### Pool bytes under keys (R301, R364) -/

/-- A byte of a sector as a device reads it under a key index: in clear with no key or where R362 allows it, else a free value of the
cipher (log 9). -/
def State.poolByte (s : State) (core : Nat) (a : Accessor) (i : Nat) : Byte :=
  let k := s.core core
  if k.reservedByte i then 0
  else
    let idx := k.sectorKey.getD (i / 64) 0
    if idx = 0 || s.keyAllows a idx then k.pool.byte i
    else Config.scrambled (s.serialOf (s.dev a.pav a.vd).kidx) (s.serialOf idx) (2 ^ 56 + 2 ^ 24 * core + i) (k.pool.byte i)

/-- The bytes from a pool address on. -/
def State.poolBytes (s : State) (core : Nat) (a : Accessor) (i n : Nat) : List Byte :=
  (List.range n).map fun j => s.poolByte core a (i + j)

/-- The number in n pool bytes, little-endian. -/
def State.poolNat (s : State) (core : Nat) (a : Accessor) (i n : Nat) : Nat := leNat (s.poolBytes core a i n)

/-- A sector brought under a key index before a byte of it is written: the other bytes stay as the writer reads them (R301). -/
def State.rekeySector (s : State) (core : Nat) (a : Accessor) (sec kidx : Nat) : State :=
  let k := s.core core
  let idx := k.sectorKey.getD sec 0
  if idx = kidx then s
  else
    let bs := if idx = 0 || s.keyAllows a idx then [] else s.poolBytes core a (64 * sec) 64
    s.setCore core { k with pool := k.pool.setBytes (64 * sec) bs, sectorKey := k.sectorKey.put 0 sec kidx }

/-- A pool byte written under a key index (R55, R301). -/
def State.setPoolByte (s : State) (core : Nat) (a : Accessor) (kidx i : Nat) (b : Byte) : State :=
  if (s.core core).reservedByte i then s
  else
    let s1 := s.rekeySector core a (i / 64) kidx
    let k := s1.core core
    s1.setCore core { k with pool := k.pool.setByte i b }

/-- Bytes written from a pool address on under a key index. -/
def State.setPoolBytes (s : State) (core : Nat) (a : Accessor) (kidx : Nat) : Nat → List Byte → State
  | _, [] => s
  | i, b :: bs => State.setPoolBytes (s.setPoolByte core a kidx i b) core a kidx (i + 1) bs

/-- The low n bytes of a number written from a pool address on, under the accessor's own key index. -/
def State.setPoolNat (s : State) (core : Nat) (a : Accessor) (i n x : Nat) : State :=
  s.setPoolBytes core a (s.dev a.pav a.vd).kidx i (leBytes n x)

/-- The accessor of an operation in flight. -/
def Who.accessor (w : Who) (core : Nat) : Accessor := ⟨core, w.bind.pav, w.bind.vd, false⟩

/-! ### Barriers (R220, R221) -/

/-- The low half of a barrier: PHASE, ERR, ECAUSE, ARR, SEC. -/
structure Barrier where
  phase : Nat
  err : Bool
  ecause : Nat
  arr : Nat
  sec : Nat
  iarr : Nat
  isec : Nat
  deriving DecidableEq, Repr

/-- The bits [63:0] of a barrier. -/
def Barrier.low (b : Barrier) : Nat := b.phase + b2n b.err * 2 ^ 4 + b.ecause * 2 ^ 5 + b.arr * 2 ^ 8 + b.sec * 2 ^ 32

/-- The bits [127:64] of a barrier. -/
def Barrier.high (b : Barrier) : Nat := b.iarr + b.isec * 2 ^ 24

/-- The barrier in two words. -/
def barrierOf (lo hi : Nat) : Barrier :=
  ⟨lo % 16, decide (lo / 16 % 2 = 1), lo / 32 % 8, lo / 2 ^ 8 % 2 ^ 24, lo / 2 ^ 32 % 2 ^ 32, hi % 2 ^ 24, hi / 2 ^ 24 % 2 ^ 32⟩

/-- The barrier at a pool address. -/
def State.barrier (s : State) (core : Nat) (a : Accessor) (i : Nat) : Barrier :=
  barrierOf (s.poolNat core a i 8) (s.poolNat core a (i + 8) 8)

/-- The barrier at a pool address written. -/
def State.setBarrier (s : State) (core : Nat) (a : Accessor) (i : Nat) (b : Barrier) : State :=
  s.setPoolNat core a i 16 (b.low + b.high * 2 ^ 64)

/-- The first error of a barrier recorded (R216, R221). -/
def Barrier.fail (b : Barrier) (cause : Nat) : Barrier := if b.err then b else { b with err := true, ecause := cause }

/-- An arrival carrying k sectors (R221). -/
def Barrier.arrive (b : Barrier) (k : Nat) : Barrier :=
  let b1 := if b.arr = 0 ∨ b.sec < k then b.fail 7 else b
  let b2 : Barrier := { b1 with arr := b1.arr - 1, sec := b1.sec - k }
  if b2.arr = 0 ∧ b2.sec = 0 then { b2 with phase := (b2.phase + 1) % 16, arr := b2.iarr, sec := b2.isec } else b2

/-- A barrier after an operation on it: where its phase moves on, the copies that arrived sixteen phases ago are forgotten. -/
def State.moveBarrier (s : State) (core : Nat) (a : Accessor) (i : Nat) (old new : Barrier) : State :=
  let s1 := s.setBarrier core a i new
  if new.phase = old.phase then s1
  else
    let k := s1.core core
    s1.setCore core { k with arrived := k.arrived.filter fun e => !(e.1 == i && e.2.1 == new.phase) }

/-- An arrival of an engine on a barrier, after the error it reports, if any (R221). -/
def State.arrival (s : State) (core : Nat) (a : Accessor) (at_ : Option Nat) (cause k : Nat) : State :=
  match at_ with
  | none => s
  | some i =>
    let b := s.barrier core a i
    s.moveBarrier core a i b ((if cause = 0 then b else b.fail cause).arrive k)

/-- Whether a barrier operand is refused (R220): not a multiple of 16 in the pool, or in a bank that the program does not own or that
a frame holds. -/
def State.badBarrier (s : State) (l : Loc) (i : Nat) : Bool :=
  let k := s.core l.core
  decide (i % 16 ≠ 0) || decide (i ≥ 5242880) || !k.owns (s.progOf l) (i / 65536) || k.frameHeld (i / 65536)

/-- Whether the bank of a pool address is still waited for (R299). -/
def State.waitsBank (s : State) (l : Loc) (i : Nat) : Bool := (s.core l.core).pendingOn (s.progOf l) (i / 65536)

/-! ### Descriptors (R145, R146) -/

/-- OFFS of a descriptor. -/
def dOffs (d : Word) : Nat := bits d 9 0
/-- BANK of a descriptor. -/
def dBank (d : Word) : Nat := bits d 16 10
/-- EW of a descriptor. -/
def dEw (d : Word) : Nat := bits d 18 17
/-- KDIM of a descriptor. -/
def dKdim (d : Word) : Bool := bit d 19
/-- ROWS of a descriptor. -/
def dRows (d : Word) : Nat := bits d 31 20 + 1
/-- COLS of a descriptor. -/
def dCols (d : Word) : Nat := bits d 43 32 + 1
/-- The bytes of an element: 1, 2 or 4. -/
def dBytes (d : Word) : Nat := 2 ^ dEw d

/-- The number of element (r, c) (R146). -/
def elemNumber (d : Word) (r c : Nat) : Nat :=
  let (x, q, qn) := if dKdim d then (c, r, dRows d) else (r, c, dCols d)
  x / 32 * qn * 32 + q * 32 + x % 32

/-- The elements of a tile. -/
def dCount (d : Word) : Nat := dRows d * dCols d

/-- The pool address of element e of a tile of 16 or 32 bits (R146). -/
def elemAddr (d : Word) (e : Nat) : Nat := 65536 * dBank d + 64 * dOffs d + e * dBytes d

/-- The bank and the block of element e of a BPI tile (R146). -/
def elemBlock (d : Word) (e : Nat) : Nat × Nat :=
  let g := 2 * dOffs d + e / 32
  (dBank d + g / 1984, g % 1984)

/-- The bank of the last byte or block of a tile. -/
def lastBank (d : Word) : Nat :=
  if dEw d = 0 then (elemBlock d (dCount d - 1)).1 else (elemAddr d (dCount d) - 1) / 65536

/-- The banks that a tile spans. -/
def spanned (d : Word) : List Nat := (List.range (lastBank d + 1 - dBank d)).map fun i => dBank d + i

/-- Whether TDESC refuses a descriptor (R147). -/
def badDesc (d : Word) : Bool :=
  dEw d == 3 || bits d 63 44 != 0 || (if dKdim d then dCols d else dRows d) % 32 != 0 ||
    (dEw d == 0 && decide (2 * dOffs d ≥ 1984)) || decide (lastBank d > 79)

/-- Whether every bank that a tile spans has a format kind (R154, R176); the descriptor of a bank that a frame holds is ignored (R174). -/
def Core.spansKind (k : Core) (d : Word) (kind : Nat) : Bool :=
  (spanned d).all fun b => k.frameHeld b || fmtKind (k.fmtOf b) == kind

/-! ### Elements of tiles -/

/-- The eight-plane integer of position i of a block of a bank (R55). -/
def State.bpiInt (s : State) (core : Nat) (a : Accessor) (bank b i : Nat) : BitVec 8 :=
  BitVec.ofNat 8 ((List.range 8).foldl (fun acc j =>
    acc * 2 + s.poolNat core a (65536 * bank + 32 * b + 4 * j) 4 / 2 ^ i % 2) 0)

/-- The scale code of a block of a bank (R55). -/
def State.bpiScale (s : State) (core : Nat) (a : Accessor) (bank b : Nat) : Nat :=
  (s.poolByte core a (65536 * bank + 63488 + b)).toNat

/-- The read integer of k planes of q (R54). -/
def planeRead (q : Int) (k : Nat) (centred : Bool) : Int :=
  let s := 8 - k
  q / 2 ^ s * 2 ^ s + (if centred then 2 ^ (s - 1) else 0)

/-- DecodeBPI (R54): the exact value; a block with code 0xFF is bad. -/
def decodeBpi (q : Int) (e k : Nat) (centred : Bool) : Exact :=
  if e = 255 then ⟨0, 0, true⟩ else ⟨planeRead q k centred, Int.ofNat e - 127, false⟩

/-- Element e of a BPI tile, by the descriptor of its bank (R54, R57). -/
def State.bpiElem (s : State) (core : Nat) (a : Accessor) (d : Word) (e : Nat) : Exact :=
  let (bank, b) := elemBlock d e
  let f := (s.core core).fmtOf bank
  decodeBpi (s.bpiInt core a bank b (e % 32)).toInt (s.bpiScale core a bank b) (fmtPlanes f) (fmtCentre f)

/-- The raw element e of a tile of 16 or 32 bits. -/
def State.wordElem (s : State) (core : Nat) (a : Accessor) (d : Word) (e : Nat) : Nat :=
  s.poolNat core a (elemAddr d e) (dBytes d)

/-- Element e of a tile of 16 or 32 bits written. -/
def State.setWordElem (s : State) (core : Nat) (a : Accessor) (d : Word) (e x : Nat) : State :=
  s.setPoolNat core a (elemAddr d e) (dBytes d) x

/-- The plane words of a block of 32 integers, and its code, written (R53, R55). -/
def State.setBlock (s : State) (core : Nat) (a : Accessor) (kidx bank b : Nat) (qs : List Int) (e : Nat) : State :=
  let plane (j : Nat) : Nat :=
    (qs.foldr (fun (q : Int) (acc : Nat) => acc * 2 + (BitVec.ofInt 8 q).toNat / 2 ^ (7 - j) % 2) 0)
  let s1 := s.setPoolBytes core a kidx (65536 * bank + 32 * b) ((List.range 8).flatMap fun j => leBytes 4 (plane j))
  s1.setPoolByte core a kidx (65536 * bank + 63488 + b) (BitVec.ofNat 8 e)

/-- The exact value of a finite floating-point number; anything else is bad (R65). -/
def Fp.exact : Fp → Exact
  | .num n m e => ⟨if n then - Int.ofNat m else Int.ofNat m, e, false⟩
  | _ => ⟨0, 0, true⟩

/-- Element (r, c) of an A or W tile, decoded; 0 outside the tile (R157). -/
def State.matrixElem (s : State) (core : Nat) (a : Accessor) (d : Word) (r c : Nat) : Exact :=
  if r < dRows d ∧ c < dCols d then
    if dEw d = 0 then s.bpiElem core a d (elemNumber d r c)
    else (unpack (ofB16 (BitVec.ofNat 16 (s.wordElem core a d (elemNumber d r c))))).exact
  else ⟨0, 0, false⟩

/-! ### Quantise (R56) -/

/-- The value of one element of a block at a scale, with its flags: SU is not among them. -/
def quantiseOne (e : Nat) (v : Fp) : Int × Nat :=
  match v with
  | .nan _ => (0, flagNV ||| flagNX)
  | .inf n => (if n then -128 else 127, flagNV ||| flagNX)
  | .num n m x =>
    let z : Int := if n then - Int.ofNat m else Int.ofNat m
    let k := x + 127 - Int.ofNat e
    let r : Int :=
      if k ≥ 0 then z * 2 ^ k.toNat
      else
        let p := 2 ^ (-k).toNat
        let f := z / p
        let rem := z - f * p
        if 2 * rem > p ∨ (2 * rem = p ∧ f % 2 ≠ 0) then f + 1 else f
    let q := satSigned 8 r
    let exact := if k ≥ 0 then decide (q = z * 2 ^ k.toNat) else decide (q * 2 ^ (-k).toNat = z)
    (q, if exact then 0 else flagNX)

/-- The scale code of a block, and whether SU is raised. -/
def quantiseScale (vs : List Fp) : Nat × Bool :=
  let tops := vs.filterMap fun v =>
    match v with
    | .num _ m x => if m = 0 then none else some (log2Of m x)
    | _ => none
  match tops with
  | [] => (0, false)
  | t :: ts =>
    let e := ts.foldl max t - 6 + 127
    if e < 0 then (0, true) else (e.toNat, false)

/-- Quantise (R56): the integers, the scale code and the flags; SU is bit 6 as in FPFLAGS. -/
def quantise (vs : List Fp) : List Int × Nat × Nat :=
  let (e, su) := quantiseScale vs
  let rs := vs.map (quantiseOne e)
  (rs.map Prod.fst, e, rs.foldl (fun f r => f ||| r.2) (flagIf su flagSU))

/-! ### The tile table (R148, R149, R302, R304) -/

/-- The TSTAT word of a status (R148). -/
def TileStat.word (t : TileStat) : Word :=
  BitVec.ofNat 64 (t.state + t.rcnt * 2 ^ 2 + t.flags.toNat * 2 ^ 8 + b2n t.te * 2 ^ 16 + b2n t.err * 2 ^ 17)

/-- Flags raised in a status by the bits of TSTAT [15:8]. -/
def TileStat.raise (t : TileStat) (f : Nat) : TileStat := { t with flags := t.flags ||| BitVec.ofNat 8 f }

/-- FPFLAGS bits as bits of TSTAT [15:8] (R148): NV, OF, UF, NX, SU. -/
def tileFlags (f : Nat) : Nat :=
  flagIf (f % 2 = 1) 1 ||| flagIf (f / 4 % 2 = 1) 2 ||| flagIf (f / 8 % 2 = 1) 4 ||| flagIf (f / 16 % 2 = 1) 8 |||
    flagIf (f / 64 % 2 = 1) 16

/-- A t tile of a context. -/
def Ctx.tile (x : Ctx) (n : Nat) : Tile := x.tiles.getD n .reset

/-- A z tile of a core. -/
def Core.ztile (k : Core) (n : Nat) : ZTile := k.ztiles.getD n .reset

/-- The status of a tile by its code (R144). -/
def State.tileStat (s : State) (l : Loc) (code : Nat) : TileStat :=
  if code < 32 then ((s.ctx l).tile code).stat else ((s.core l.core).ztile (code - 32)).stat

/-- The status of a tile changed. -/
def State.setTileStat (s : State) (l : Loc) (code : Nat) (t : TileStat) : State :=
  if code < 32 then
    let x := s.ctx l
    s.setCtx l { x with tiles := x.tiles.set code { x.tile code with stat := t } }
  else
    let k := s.core l.core
    s.setCore l.core { k with ztiles := k.ztiles.set (code - 32) { k.ztile (code - 32) with stat := t } }

/-- A tile code in a word; none where a reserved bit is 1 or the code is reserved (R144). -/
def tileCode (x : Word) : Option Nat := if x.toNat < 40 then some x.toNat else none

/-- A t tile code (R144). -/
def tCode (x : Word) : Option Nat := if x.toNat < 32 then some x.toNat else none

/-- A z tile code that the partition grants (R45, R144). -/
def Core.zCode (k : Core) (x : Word) : Option Nat :=
  if 32 ≤ x.toNat ∧ x.toNat < 40 ∧ k.zGranted (x.toNat - 32) then some x.toNat else none

/-- A tile as an operation names it. -/
def State.tileRef (s : State) (l : Loc) (code : Nat) (role : TileRole) : TileRef :=
  ⟨code, if code < 32 then ((s.ctx l).tile code).desc else 0, role⟩

/-- Whether a role writes the tile. -/
def TileRole.writes : TileRole → Bool
  | .source => false
  | .update => true
  | .destination => true
  | .drain => true

/-- Whether a role accepts a status (R149, R214). -/
def TileRole.accepts (r : TileRole) (t : TileStat) : Bool :=
  match r with
  | .source => t.state == 2
  | .update => t.state == 2 && t.rcnt == 0
  | .destination => (t.state == 0 || t.state == 2) && t.rcnt == 0
  | .drain => t.state == 2 && t.rcnt == 0

/-- Whether two roles of one operation name the same tile and one of them writes it (R149). -/
def aliased : List TileRef → Bool
  | [] => false
  | t :: ts => (ts.any fun u => u.code == t.code && (t.role.writes || u.role.writes)) || aliased ts

/-- The sequence trap of the tiles that an operation names (R149, R174): a frame's bank, an empty tile, or an alias. -/
def State.tilesTrap (s : State) (l : Loc) (ts : List TileRef) : Option Nat :=
  let k := s.core l.core
  if ts.any fun t => t.code < 32 && (spanned t.desc).any k.frameHeld then some 8
  else if ts.any fun t => decide (t.role ≠ .destination) && (s.tileStat l t.code).state == 0 then some 4
  else if aliased ts then some 5
  else none

/-- Whether the tiles that an operation names make it wait (R149, R299). -/
def State.tilesBlock (s : State) (l : Loc) (ts : List TileRef) : Bool :=
  let k := s.core l.core
  ts.any fun t => !t.role.accepts (s.tileStat l t.code) ||
    (t.code < 32 && (spanned t.desc).any fun b => !k.heldBy (s.progOf l) b)

/-- The effect of a role at the end of the trigger bundle (R149, R214). -/
def TileRole.enter (r : TileRole) (t : TileStat) : TileStat :=
  match r with
  | .source => { t with rcnt := t.rcnt + 1 }
  | .drain => { t with state := 3 }
  | _ => { t with state := 1 }

/-- The effect of a role at completion (R149, R215). -/
def TileRole.leave (r : TileRole) (t : TileStat) : TileStat :=
  match r with
  | .source => { t with rcnt := t.rcnt - 1 }
  | _ => { t with state := 2 }

/-- The tiles of an operation take their roles; RCNT counts operations, so a tile that two roles of one operation read counts once (R148). -/
def State.enterTiles (s : State) (l : Loc) (ts : List TileRef) : State :=
  ts.eraseDups.foldl (fun s t => s.setTileStat l t.code (t.role.enter (s.tileStat l t.code))) s

/-- Whether a tile that an operation named is still the one it named: a t tile of a program that is still bound, or a z tile that the
program still owns. -/
def State.tileStands (s : State) (core : Nat) (w : Who) (code : Nat) : Bool :=
  if code < 32 then s.progOf ⟨core, w.ctx⟩ == some w.bind.prog
  else ((s.core core).ztile (code - 32)).owner == some w.bind.prog

/-- A change of the status of a tile that an operation named. -/
def State.onTile (s : State) (core : Nat) (w : Who) (code : Nat) (f : TileStat → TileStat) : State :=
  if s.tileStands core w code then s.setTileStat ⟨core, w.ctx⟩ code (f (s.tileStat ⟨core, w.ctx⟩ code)) else s

/-- The tiles of an operation leave their roles. -/
def State.leaveTiles (s : State) (core : Nat) (w : Who) (ts : List TileRef) : State :=
  ts.eraseDups.foldl (fun s t => s.onTile core w t.code t.role.leave) s

/-- Who triggers an operation. -/
def State.who (s : State) (l : Loc) : Who := ⟨l.ctx, ((s.ctx l).binding).getD ⟨16, 0, 256, 0, 0, 0⟩, (s.ctx l).cur.region⟩

/-! ### Operations in flight (R205, R277, R298) -/

/-- The banks that a copy touches by its tiles and pool hulls are kept with the copy; the banks spanned by tiles. -/
def tileBanks (ts : List TileRef) : List Nat := ts.flatMap fun t => if t.code < 32 then spanned t.desc else []

/-- The operations of a core that are queued or run, by number, path (R205) and program. -/
def Core.inFlight (k : Core) : List (Nat × Nat × Nat) :=
  ((k.cp0q ++ k.cp1q).map fun o => (o.id, 1, o.who.bind.prog)) ++
    (k.mxq.map fun o => (o.id, 2, o.who.bind.prog)) ++
    (match k.mxRun with | some r => [(r.op.id, 2, r.op.who.bind.prog)] | none => []) ++
    (k.scq.map fun o => (o.id, 3, o.who.bind.prog)) ++
    (match k.scRun with | some o => [(o.id, 3, o.who.bind.prog)] | none => []) ++
    (k.frq.map fun o => (o.id, 4, o.who.bind.prog)) ++
    (k.ddq.map fun o => (o.id, 5, o.who.bind.prog))

end Sys2Proof.Machine
end

