-- ==== Sys2Proof/Machine/Matrix.lean ====
section
/-!
DEFINITION. The matrix sequencer mx (R143 to R168): tile descriptors and status, the microprogram store and its validation, calls
step by step, quantisation, accumulator operations, and the stops of R161.
-/

namespace Sys2Proof.Machine

/-! ### Accumulator elements (R60 to R64) -/

/-- floor(m × 2^k), and whether bits were lost. -/
def floorShift (m : Int) (k : Int) : Int × Bool :=
  if k ≥ 0 then (m * 2 ^ k.toNat, false)
  else
    let p : Int := 2 ^ (-k).toNat
    (m / p, decide (m % p ≠ 0))

/-- The number of leading bits of W equal to bit 63, less one (R61). -/
def headroom (w : Word) : Nat :=
  let z := w.toInt
  let m := (if z < 0 then -1 - z else z).toNat
  if m = 0 then 63 else 62 - Nat.log2 m

/-- The exponent E as a number. -/
def Acc.exp (a : Acc) : Int := a.e.toInt

/-- AccAdd of m × 2^x (R62): the element, and whether W saturated. -/
def accAdd (a : Acc) (m x : Int) : Acc × Bool :=
  let (d, lost) := floorShift m (x - a.exp)
  let t := a.w.toInt + d
  let inx := a.inx || lost
  if t > 2 ^ 63 - 1 then ({ a with w := BitVec.ofInt 64 (2 ^ 63 - 1), ovf := true, inx := inx }, true)
  else if t < -(2 ^ 63) then ({ a with w := BitVec.ofInt 64 (-(2 ^ 63)), ovf := true, inx := inx }, true)
  else ({ a with w := BitVec.ofInt 64 t, inx := inx }, false)

/-- ANORM of one element (R63): the element, and whether it saturated. -/
def accNorm (a : Acc) : Acc × Bool :=
  let w := a.w.toInt
  let e := a.exp
  let d := Int.ofNat (headroom a.w) - 16
  if w = 0 then (a, false)
  else if d > 0 then
    let k := min d (e + 32768)
    ({ a with w := BitVec.ofInt 64 (w * 2 ^ k.toNat), e := BitVec.ofInt 16 (e - k) }, false)
  else if d < 0 then
    if e - d > 32767 then
      ({ a with w := BitVec.ofInt 64 (if w < 0 then -(2 ^ 47) else 2 ^ 47 - 1), e := BitVec.ofInt 16 32767, ovf := true,
                eov := true }, true)
    else
      let (v, lost) := floorShift w d
      ({ a with w := BitVec.ofInt 64 v, e := BitVec.ofInt 16 (e - d), inx := a.inx || lost }, false)
  else (a, false)

/-- The value of an element as a floating-point number (R61). -/
def Acc.fp (a : Acc) : Fp := ofSigned a.w.toInt a.exp

/-- AccToFP to FP32 (R64). -/
def accToFp32 (a : Acc) : Lane × Nat := if a.inv then (canonNaN, flagNV) else roundFp a.fp

/-- AccToFP to BF16 (R64). -/
def accToB16 (a : Acc) : BitVec 16 × Nat :=
  if a.inv then (0x7FC0, flagNV) else roundB16 (decide (a.w.toInt < 0)) a.w.toInt.natAbs a.exp false

/-- The conversion of an element to .i32 (R168). -/
def accToInt (a : Acc) : Lane × Nat :=
  if a.inv then (0, flagNV)
  else
    let r := cvtInt true 32 a.fp
    (BitVec.ofInt 32 r.1, r.2)

/-- Element i of a z tile. -/
def ZTile.elem (z : ZTile) (i : Nat) : Acc := z.elems.getD i z.fill

/-- The status word z.s of an element: bits [95:80] (R60). -/
def Acc.status (a : Acc) : Nat :=
  b2n a.ovf + 2 * b2n a.inx + 4 * b2n a.inv + 8 * b2n a.eov + headroom a.w * 2 ^ 8

/-- What an element gained, as TSTAT bits AOVF, AINV, AINX (R148). -/
def gained (a b : Acc) : Nat :=
  flagIf (b.ovf && !a.ovf) 32 ||| flagIf (b.inv && !a.inv) 64 ||| flagIf (b.inx && !a.inx) 128

/-! ### The microprogram store (R155, R156, R158, R160) -/

/-- The standard routines: the directory entries of routines 0 and 1 and their step words (R160). -/
def standardWord (n : Nat) : Word :=
  if n = 0 then 0x000C1F0039005040
  else if n = 1 then 0x000C1F0339008045
  else if n = 64 then 0x0000000000000081
  else if n = 65 then 0x000007F000000802
  else if n = 66 then 0x000000000000080B
  else if n = 67 then 0x0000000000160034
  else if n = 68 then 0x0000000000000008
  else if n = 69 then 0x0000000000000081
  else if n = 70 then 0x000007F000000802
  else if n = 71 then 0x0000000000200081
  else if n = 72 then 0x000007F000001002
  else if n = 73 then 0x0000000000000803
  else if n = 74 then 0x000000000000100B
  else if n = 75 then 0x0000000000160064
  else if n = 76 then 0x0000000000000008
  else 0

/-- Whether a word of the store is locked: directory entries 0 to 15 and step words 64 to 1,023 (R155). -/
def lockedWord (n : Nat) : Bool := decide (n < 16) || (decide (64 ≤ n) && decide (n < 1024))

/-- A word of the store. -/
def Core.word (k : Core) (n : Nat) : Word := if lockedWord n then standardWord n else k.store.getD n 0

/-- START, LEN, the role of mp j, P, PLN and VALID of a directory entry (R155). -/
def dirStart (e : Word) : Nat := bits e 11 0
/-- LEN. -/
def dirLen (e : Word) : Nat := bits e 23 12
/-- The role code of mp j. -/
def dirRole (e : Word) (j : Nat) : Nat := bits e (25 + 2 * j) (24 + 2 * j)
/-- The promotion interval P. -/
def dirP (e : Word) : Nat := bits e 45 40 + 1
/-- PLN. -/
def dirPln (e : Word) : Nat := bits e 49 46
/-- VALID. -/
def dirValid (e : Word) : Bool := bit e 50
/-- LOCK. -/
def dirLock (e : Word) : Bool := bit e 51

/-- The fields of a step word (R156). -/
def stKind (w : Word) : Nat := bits w 2 0
/-- ST: PROMOTE is stated. -/
def stSt (w : Word) : Bool := bit w 3
/-- PA. -/
def stPa (w : Word) : Nat := bits w 6 4
/-- PB. -/
def stPb (w : Word) : Nat := bits w 9 7
/-- PZ. -/
def stPz (w : Word) : Nat := bits w 12 10
/-- KB. -/
def stKb (w : Word) : Nat := bits w 20 13
/-- NB. -/
def stNb (w : Word) : Nat := bits w 28 21
/-- M0. -/
def stM0 (w : Word) : Nat := bits w 35 29
/-- MC. -/
def stMc (w : Word) : Nat := bits w 42 36
/-- BL. -/
def stBl (w : Word) : Nat := bits w 8 4
/-- CNT. -/
def stCnt (w : Word) : Nat := bits w 16 9
/-- CP. -/
def stCp (w : Word) : Nat := bits w 19 17
/-- DK. -/
def stDk (w : Word) : Int := nibble w 20
/-- DN. -/
def stDn (w : Word) : Int := nibble w 24

/-- The bits that each kind uses (R156). -/
def stUsed (kind : Nat) : Word :=
  if kind = 0 then 0xF
  else if kind = 1 then 0x1FFFE387
  else if kind = 2 then 0x7FFE01FFC77
  else if kind = 3 then 0x1C0F
  else if kind = 4 then 0xFFFFFF7
  else 0x7

/-- Whether a step word is well formed on its own, for the roles of its entry (R156, R158). -/
def stWf (e w : Word) : Bool :=
  let k := stKind w
  decide (k < 6) && (w &&& ~~~(stUsed k)) == 0 &&
    (if k = 1 then dirRole e (stPb w) == 2
     else if k = 2 then dirRole e (stPa w) == 1 && dirRole e (stPz w) == 3 && decide (stM0 w + stMc w ≤ 127)
     else if k = 3 then dirRole e (stPz w) == 3
     else if k = 4 then decide (1 ≤ stBl w)
     else true)

/-- The cycles of a step with F = 2 (R158). -/
def stCycles (w : Word) : Nat :=
  let k := stKind w
  if k = 1 then 32 else if k = 2 then 8 + (stMc w + 1) * 2 else if k = 3 then 128 else 1

/-- What the validation of a routine follows along its path (R158): the mp registers of the open Z tiles, the cycles since the last
stated step, whether a stated step has been passed since a mark, and whether never more than two Z tiles were open and never more than
2,048 cycles passed. -/
structure Walk where
  opened : List Nat
  cycles : Nat
  stated : Bool
  few : Bool
  soon : Bool

/-- One step of the validation. -/
def Walk.step (a : Walk) (w : Word) : Walk :=
  let k := stKind w
  let c := a.cycles + stCycles w
  let opened :=
    if k = 2 then (if stPz w ∈ a.opened then a.opened else stPz w :: a.opened)
    else if k = 3 then a.opened.filter fun z => z != stPz w
    else a.opened
  let isStated := k == 0 || (k == 3 && stSt w)
  ⟨opened, if isStated then 0 else c, a.stated || isStated, a.few && decide (opened.length ≤ 2), a.soon && decide (c ≤ 2048)⟩

/-- Whether every LOOP of a routine has its body within the routine, with no LOOP in it (R158), with the words before, the latest first. -/
def loopsFit : List Word → List Word → Bool
  | _, [] => true
  | before, w :: rest =>
    (stKind w != 4 || (decide (stBl w ≤ before.length) && (before.take (stBl w)).all fun b => stKind b != 4)) &&
      loopsFit (w :: before) rest

/-- The validation of a routine's words from one on, with the words before it, the latest first (R158): a LOOP runs its body again, which
finds every set of open tiles that later passes find; a body with no stated step adds its cycles in every pass. -/
def Walk.run (a : Walk) : List Word → List Word → Walk
  | _, [] => a
  | before, w :: rest =>
    if stKind w = 4 then
      let body := (before.take (stBl w)).reverse
      let a1 := a.step w
      let a2 := body.foldl Walk.step { a1 with stated := false }
      let a3 := a2.step w
      let passes := if stCnt w = 0 then 65535 else stCnt w
      let cost := (body.map stCycles).sum + 1
      let whole := a1.cycles + (passes - 1) * cost
      let a4 : Walk :=
        if passes ≤ 1 then a1
        else if a3.stated then a3
        else { a3 with soon := a1.soon && decide (whole ≤ 2048), cycles := whole }
      Walk.run a4 (w :: before) rest
    else if stKind w = 0 then a.step w
    else Walk.run (a.step w) (w :: before) rest

/-- Whether a directory entry may be made valid (R158). DESIGN CHOICE (log 31), where R158 does not name it: an entry with a PLN that R155 calls
reserved is refused. -/
def Core.validEntry (k : Core) (e : Word) : Bool :=
  let st := dirStart e
  let n := dirLen e
  let words := (List.range n).map fun i => k.word (st + i)
  decide (64 ≤ st) && decide (1 ≤ n) && decide (st + n ≤ 4096) &&
    ((List.range n).all fun i => !lockedWord (st + i)) &&
    (dirPln e == 0 || (decide (2 ≤ dirPln e) && decide (dirPln e ≤ 8))) &&
    words.all (stWf e) && (words.getLast?.map stKind) == some 0 && loopsFit [] words &&
    (let a := Walk.run ⟨[], 0, false, true, true⟩ [] words
     a.few && a.soon)

/-! ### Queueing (R152, R153) -/

/-- The latch o1 alone as a word. -/
def latch1 : List (Nat × Width) := [(1, .word)]
/-- The latches o1 and o2 as words. -/
def latch12 : List (Nat × Width) := [(1, .word), (2, .word)]

/-- Whether the queue of the sequencer is full (R152). -/
def State.mxFull (s : State) (l : Loc) : Bool := decide ((s.core l.core).mxq.length + b2n (s.core l.core).mxRun.isSome ≥ 8)

/-- An operation put into the queue of the sequencer (R152). -/
def State.queueMx (s : State) (l : Loc) (o : Opd) (routine : Nat) (mp : List Word) (ts : List TileRef) (ctl : Word) : State :=
  let op : MxOp :=
    { id := s.opId, who := s.who l, op := o.op, routine := routine, mp := mp, tiles := ts, ctl := ctl, vec := o.xv,
      lanes := s.laneMask l, resume := none }
  let s1 : State := { s with opId := s.opId + 1 }
  let k := s1.core l.core
  (s1.setCore l.core { k with mxq := k.mxq ++ [op] }).enterTiles l ts

/-- The parts of the checks that one tile operand of an operation takes alone: what the operand refuses, and the trap of the tiles that it
names. -/
def tileParts (uses : List Nat) (enc : State → Loc → Opd → Except Cause (List TileRef)) : List Part :=
  [.enc uses (fun s l o => match enc s l o with | .ok _ => none | .error c => some c),
   .seq uses (fun s l o => match enc s l o with | .ok ts => s.tilesTrap l ts | .error _ => none)]

/-- An operation of the sequencer that names tiles, given by what it finds in its operands: the cause of an encoding trap, or its
tiles. -/
def queuedSem (latches : List (Nat × Width)) (xw : Width) (parts : List Part) (enc : State → Loc → Opd → Except Cause (List TileRef))
    (go : State → Loc → Opd → List TileRef → State) : OpSem :=
  let tilesOf (s : State) (l : Loc) (o : Opd) : List TileRef := match enc s l o with | .ok ts => ts | .error _ => []
  { OpSem.base with
    xw := xw
    latches := latches
    outward := true
    encoding := fun s l o => match enc s l o with | .ok _ => none | .error c => some c
    sequence := fun s l o => s.tilesTrap l (tilesOf s l o)
    parts := parts
    blocks := fun s l o => s.tilesBlock l (tilesOf s l o) || s.mxFull l
    act := fun s l o => go s l o (tilesOf s l o) }

/-- Whether a program owns a z tile (R302). -/
def State.ownsZ (s : State) (l : Loc) (code : Nat) : Bool :=
  let own := ((s.core l.core).ztile (code - 32)).owner
  own.isSome && own == s.progOf l

/-- A z tile code that the program owns, or the cause of the trap (R144, R302); cause 12 for one that R45 does not grant (log 31). -/
def State.ownedZ (s : State) (l : Loc) (x : Word) : Except Cause Nat :=
  match (s.core l.core).zCode x with
  | none => .error 12
  | some c => if s.ownsZ l c then .ok c else .error 12

/-! ### Descriptors and status (R147, R150, R151) -/

/-- TDESC. -/
def semTdesc : OpSem :=
  { OpSem.base with
    latches := latch1
    outward := true
    encoding := fun _ _ o => if (tCode o.b).isNone then some 12 else if badDesc o.xw then some 13 else none
    parts :=
      [.enc [1] (fun _ _ o => if (tCode o.b).isNone then some 12 else none), .enc [0] (fun _ _ o => if badDesc o.xw then some 13 else none)]
    blocks := fun s l o => !TileRole.destination.accepts (s.tileStat l o.b.toNat)
    act := fun s l o =>
      let x := s.ctx l
      let t := x.tile o.b.toNat
      let stat : TileStat := { t.stat with state := 0, flags := 0, err := false }
      s.setCtx l { x with tiles := x.tiles.set o.b.toNat ⟨o.xw, stat⟩ } }

/-- The refusal of a code that names no tile (R144). -/
def badTileCode (s : State) (l : Loc) (o : Opd) : Option Cause :=
  match tCode o.xw, (s.core l.core).zCode o.xw with
  | none, none => some 12
  | _, _ => none

/-- TSTAT; a z tile that the program does not own reads as 0 (R302). -/
def semTstat : OpSem :=
  { OpSem.base with
    sel := some [.s, .mp]
    outward := true
    encoding := badTileCode
    parts := [.enc [0] badTileCode]
    act := fun s l o =>
      let c := o.xw.toNat
      let v := if c < 32 || s.ownsZ l c then (s.tileStat l c).word else 0
      s.result l o 1 (.word v) }

/-- The SST, ST, STE, TEV and CLR fields of a TSET control word. -/
def tsetSst (x : Word) : Bool := bit x 2

/-- The refusal of the tile of a TSET. -/
def badTsetTile (s : State) (l : Loc) (o : Opd) : Option Cause :=
  let bad := match tCode o.xw with | some _ => false | none => match s.ownedZ l o.xw with | .ok _ => false | .error _ => true
  if bad then some 12 else none

/-- The refusal of a TSET control word (R151). -/
def badTset (b : Word) : Option Cause :=
  if bits b 7 5 ≠ 0 ∨ bits b 63 16 ≠ 0 ∨ (tsetSst b = true ∧ bits b 1 0 % 2 = 1) then some 14 else none

/-- TSET. -/
def semTset : OpSem :=
  let ref (s : State) (l : Loc) (o : Opd) : TileRef := s.tileRef l o.xw.toNat .update
  { OpSem.base with
    latches := latch1
    outward := true
    encoding := fun s l o => match badTsetTile s l o with | some c => some c | none => badTset o.b
    parts := [.enc [0] badTsetTile, .enc [1] fun _ _ o => badTset o.b]
    sequence := fun s l o =>
      if tsetSst o.b then
        let r := ref s l o
        if r.code < 32 && (spanned r.desc).any (s.core l.core).frameHeld then some 8
        else if r.code ≥ 32 && (s.tileStat l r.code).state == 0 then some 4
        else none
      else none
    blocks := fun s l o =>
      let r := ref s l o
      tsetSst o.b &&
        (!TileRole.destination.accepts (s.tileStat l r.code) ||
          (r.code < 32 && (spanned r.desc).any fun b => !(s.core l.core).heldBy (s.progOf l) b))
    act := fun s l o =>
      let c := o.xw.toNat
      let t := s.tileStat l c
      let t1 : TileStat := { t with flags := t.flags &&& ~~~(BitVec.ofNat 8 (bits o.b 15 8)) }
      let t2 : TileStat := if bit o.b 4 then { t1 with te := bit o.b 3 } else t1
      if tsetSst o.b then
        if c ≥ 32 ∧ bits o.b 1 0 = 0 then
          let k := s.core l.core
          s.setCore l.core
            { k with ztiles := k.ztiles.set (c - 32) { k.ztile (c - 32) with owner := none, stat := TileStat.reset } }
        else s.setTileStat l c { t2 with state := bits o.b 1 0 }
      else s.setTileStat l c t2 }

/-! ### The queued operations at their triggers -/

/-- The tile that mp j names for a role code of an entry, or the cause of the trap (R154). -/
def State.callTile (s : State) (l : Loc) (e : Word) (j : Nat) : Except Cause (Option TileRef) :=
  let x := (s.ctx l).cur.mp.getD j 0
  let k := s.core l.core
  let role := dirRole e j
  if role = 0 then .ok none
  else if role = 3 then
    match s.ownedZ l x with
    | .ok c => .ok (some ⟨c, 0, .update⟩)
    | .error c => .error c
  else
    match tCode x with
    | none => .error 12
    | some c =>
      let r := s.tileRef l c .source
      let d := r.desc
      let kind := if dEw d = 0 then 4 else 2
      if dKdim d ≠ decide (role = 1) ∨ dEw d > 1 ∨ !k.spansKind d kind then .error 16
      else if role = 2 ∧ dEw d = 0 ∧ dirPln e ≠ 0 ∧ (spanned d).any (fun b => !k.frameHeld b && fmtPlanes (k.fmtOf b) != dirPln e) then .error 16
      else .ok (some r)

/-- The tiles of a call from mp j on. -/
def State.callTiles (s : State) (l : Loc) (e : Word) : Nat → List Nat → Except Cause (List TileRef)
  | _, [] => .ok []
  | n, j :: js =>
    match s.callTile l e j with
    | .error c => .error c
    | .ok t =>
      match s.callTiles l e n js with
      | .error c => .error c
      | .ok ts => .ok (t.toList ++ ts)

/-- MCALL. -/
def semMcall : OpSem :=
  queuedSem [] .word []
    (fun s l o =>
      let e := (s.core l.core).word o.xw.toNat
      if o.xw.toNat > 63 ∨ !dirValid e then .error 15 else s.callTiles l e 0 (List.range 8))
    (fun s l o ts => s.queueMx l o o.xw.toNat ((List.range 8).map fun j => (s.ctx l).cur.mp.getD j 0) ts 0)

/-- Whether a directory entry covers a word: it is the entry's own or one of its steps. -/
def Core.entryCovers (k : Core) (r n : Nat) : Bool :=
  let e := k.word r
  n == r || (decide (dirStart e ≤ n) && decide (n < dirStart e + dirLen e))

/-- Whether a call of a routine that a word belongs to is queued or runs (R159). -/
def Core.callUses (k : Core) (n : Nat) : Bool :=
  let uses (o : MxOp) : Bool := decide (o.op = .mcall) && k.entryCovers o.routine n
  k.mxq.any uses || (match k.mxRun with | some r => uses r.op | none => false)

/-- Whether the device of a context holds the microprogram-write right (R414). -/
def State.mayWriteStore (s : State) (l : Loc) : Bool :=
  let a := s.accessor l
  (match (s.pav a.pav).slot with | some f => f.keys | none => []).any fun r => r.mwr && r.tenant == (s.dev a.pav a.vd).tenant

/-- A word of the store written (R159): a step word clears VALID in every entry that covers it. -/
def Core.writeStore (k : Core) (n : Nat) (x : Word) : Core :=
  let store := k.store.set n x
  { k with store :=
      if n < 64 then store
      else (List.range 64).foldl (fun t r =>
        if !lockedWord r && dirValid (k.word r) && k.entryCovers r n then t.set r (k.word r &&& ~~~(0x4000000000000 : Word))
        else t) store }

/-- MWR (R159): the write takes effect at the end of its bundle; the operation passes through the queue (R152). What the directory word
itself breaks is found at stage 2, before the fault of a locked word or of a missing right. -/
def semMwr : OpSem :=
  { OpSem.base with
    latches := latch1
    outward := true
    encoding := fun s l o =>
      let k := s.core l.core
      let n := o.b.toNat
      if n > 4095 then some 29
      else if n < 64 && (dirLock o.xw || (dirValid o.xw && !k.validEntry o.xw)) then some 18
      else none
    capability := fun s l o => if lockedWord o.b.toNat || !s.mayWriteStore l then some (capTrap 4 0) else none
    parts :=
      [.enc [1] (fun _ _ o => if o.b.toNat > 4095 then some 29 else none),
       ⟨5, [1], fun s l o => if lockedWord o.b.toNat || !s.mayWriteStore l then some (capTrap 4 0) else none⟩]
    blocks := fun s l o => (s.core l.core).callUses o.b.toNat || s.mxFull l
    act := fun s l o =>
      (s.setCore l.core ((s.core l.core).writeStore o.b.toNat o.xw)).queueMx l o o.b.toNat [] [] o.xw }

/-- The t tile that a code names, in a role, or the cause of the trap. -/
def State.tTile (s : State) (l : Loc) (x : Word) (role : TileRole) : Except Cause TileRef :=
  match tCode x with
  | some c => .ok (s.tileRef l c role)
  | none => .error 12

/-- The format kinds that agree with an element width (R168). -/
def ewAgrees (ew kind : Nat) : Bool :=
  if ew = 0 then kind == 4 else if ew = 1 then kind == 2 else kind == 1 || kind == 3

/-- Whether every bank that a tile spans has one kind, and it is among some (R163). -/
def Core.spansOne (k : Core) (d : Word) (kinds : List Nat) : Bool := kinds.any fun f => ewAgrees (dEw d) f && k.spansKind d f

/-- Whether the format of each bank that a tile spans agrees with its element width (R168); a frame's bank has none (R174). -/
def Core.spansAgree (k : Core) (d : Word) : Bool := (spanned d).all fun b => k.frameHeld b || ewAgrees (dEw d) (fmtKind (k.fmtOf b))

/-- A tile operand alone: a code in a role, with a check of its descriptor. -/
def State.oneTile (s : State) (l : Loc) (x : Word) (role : TileRole) (check : Word → Option Cause) : Except Cause (List TileRef) :=
  match s.tTile l x role with
  | .error c => .error c
  | .ok t => match check t.desc with | some c => .error c | none => .ok [t]

/-- A z tile operand alone. -/
def State.oneZ (s : State) (l : Loc) (x : Word) (role : TileRole) : Except Cause (List TileRef) :=
  match s.ownedZ l x with
  | .ok c => .ok [⟨c, 0, role⟩]
  | .error c => .error c

/-- QUANT (R163). -/
def semQuant : OpSem :=
  queuedSem latch1 .word
    (tileParts [1] (fun s l o => s.oneTile l o.b .source fun d =>
        if !(s.core l.core).spansOne d [1, 2] then some 16 else if dCount d > 131072 then some 17 else none) ++
      tileParts [0] fun s l o => s.oneTile l o.xw .destination fun d => if !(s.core l.core).spansOne d [4] then some 16 else none)
    (fun s l o =>
      let k := s.core l.core
      match s.tTile l o.b .source, s.tTile l o.xw .destination with
      | .ok a, .ok d =>
        if dRows a.desc ≠ dRows d.desc ∨ dCols a.desc ≠ dCols d.desc ∨ dKdim a.desc ≠ dKdim d.desc ∨
            !k.spansOne a.desc [1, 2] ∨ !k.spansOne d.desc [4] then .error 16
        else if dCount a.desc > 131072 then .error 17
        else .ok [a, d]
      | .error c, _ => .error c
      | _, .error c => .error c)
    (fun s l o ts => s.queueMx l o 0 [] ts 0)

/-- The z tile of an AZERO, or the cause of the trap (R302). -/
def State.zeroTile (s : State) (l : Loc) (o : Opd) : Except Cause (List TileRef) :=
  let k := s.core l.core
  match k.zCode o.xw with
  | none => .error 12
  | some c =>
    let own := (k.ztile (c - 32)).owner
    if own.isSome && own != s.progOf l then .error 12 else .ok [⟨c, 0, .destination⟩]

/-- AZERO (R164, R302): a z tile with no owner becomes the program's at the end of the bundle. -/
def semAzero : OpSem :=
  queuedSem latch1 .word (tileParts [0] State.zeroTile) State.zeroTile
    (fun s l o ts =>
      let k := s.core l.core
      let i := o.xw.toNat - 32
      let z := k.ztile i
      let s1 := s.setCore l.core { k with ztiles := k.ztiles.set i { z with owner := s.progOf l } }
      s1.queueMx l o 0 [] ts (o.b &&& 0xFFFF))

/-- The lane value of an element for a WORD (R165). -/
def accLane (a : Acc) (word : Nat) : Lane :=
  if word = 0 then a.w.setWidth 32
  else if word = 1 then BitVec.ofNat 32 (bits a.w 63 32)
  else if word = 2 then a.e.signExtend 32
  else BitVec.ofNat 32 a.status

/-- AREAD (R165): the row is read at the trigger, and the tile is left when the result lands. -/
def semAread : OpSem :=
  let ref (s : State) (l : Loc) (o : Opd) : Except Cause TileRef :=
    match s.ownedZ l o.xw with
    | .ok c => if bits o.b 63 9 ≠ 0 then .error 29 else .ok ⟨c, 0, .source⟩
    | .error c => .error c
  { OpSem.base with
    latches := latch1
    sel := some [.v]
    outward := true
    encoding := fun s l o => match ref s l o with | .ok _ => none | .error c => some c
    sequence := fun s l o => match ref s l o with | .ok r => s.tilesTrap l [r] | .error _ => none
    parts := tileParts [0] (fun s l o => s.oneZ l o.xw .source) ++ [.enc [1] fun _ _ o => if bits o.b 63 9 ≠ 0 then some 29 else none]
    blocks := fun s l o => match ref s l o with | .ok r => s.tilesBlock l [r] | .error _ => false
    act := fun s l o =>
      let c := o.xw.toNat
      let z := (s.core l.core).ztile (c - 32)
      let row := bits o.b 6 0
      let v := ofLanes fun i => accLane (z.elem (128 * row + i)) (bits o.b 8 7)
      let (id, s1) := (s.enterTiles l [⟨c, 0, .source⟩]).startLong l o none
      let s2 := s1.deliverLong l id 6 (some (.vec v))
      let x := s2.ctx l
      s2.setCtx l { x with landings := x.landings.set id ⟨(s2.core l.core).cycle + 7, some (.vec v), some c⟩ } }

/-- AWRITE (R166). -/
def semAwrite : OpSem :=
  queuedSem latch12 .vec
    (tileParts [1] (fun s l o => s.oneZ l o.b .update) ++ [.enc [2] fun _ _ o => if bits o.c 63 9 ≠ 0 then some 29 else none])
    (fun s l o =>
      match s.ownedZ l o.b with
      | .ok c => if bits o.c 63 9 ≠ 0 then .error 29 else .ok [⟨c, 0, .update⟩]
      | .error c => .error c)
    (fun s l o ts => s.queueMx l o 0 [] ts o.c)

/-- ANORM (R167). -/
def semAnorm : OpSem :=
  queuedSem [] .word [] (fun s l o => s.oneZ l o.xw .update)
    (fun s l o ts => s.queueMx l o 0 [] ts 0)

/-- The destination of an ACVT, or the cause of the trap (R168). -/
def State.cvtTile (s : State) (l : Loc) (o : Opd) : Except Cause (List TileRef) :=
  s.oneTile l o.xw .destination fun d =>
    if dRows d > 128 ∨ dCols d > 128 then some 17 else if !(s.core l.core).spansAgree d then some 16 else none

/-- ACVT (R168). -/
def semAcvt : OpSem :=
  queuedSem latch1 .word (tileParts [1] (fun s l o => s.oneZ l o.b .source) ++ tileParts [0] State.cvtTile)
    (fun s l o =>
      match s.oneZ l o.b .source, s.cvtTile l o with
      | .ok z, .ok d => .ok (z ++ d)
      | .error c, _ => .error c
      | _, .error c => .error c)
    (fun s l o ts => s.queueMx l o 0 [] ts 0)

/-- TDESC (R147). -/
def execTdesc (m : Mv) (s : State) : Host.Outcome State Fault Refusal :=
  runTrigger semTdesc .mx .tdesc m s

/-- TSTAT (R150). -/
def execTstat (m : Mv) (s : State) : Host.Outcome State Fault Refusal :=
  runTrigger semTstat .mx .tstat m s

/-- TSET (R151). -/
def execTset (m : Mv) (s : State) : Host.Outcome State Fault Refusal :=
  runTrigger semTset .mx .tset m s

/-- MCALL (R154). -/
def execMcall (m : Mv) (s : State) : Host.Outcome State Fault Refusal :=
  runTrigger semMcall .mx .mcall m s

/-- MWR (R159). -/
def execMwr (m : Mv) (s : State) : Host.Outcome State Fault Refusal :=
  runTrigger semMwr .mx .mwr m s

/-- QUANT (R163). -/
def execQuant (m : Mv) (s : State) : Host.Outcome State Fault Refusal :=
  runTrigger semQuant .mx .quant m s

/-- AZERO (R164). -/
def execAzero (m : Mv) (s : State) : Host.Outcome State Fault Refusal :=
  runTrigger semAzero .mx .azero m s

/-- AREAD (R165). -/
def execAread (m : Mv) (s : State) : Host.Outcome State Fault Refusal :=
  runTrigger semAread .mx .aread m s

/-- AWRITE (R166). -/
def execAwrite (m : Mv) (s : State) : Host.Outcome State Fault Refusal :=
  runTrigger semAwrite .mx .awrite m s

/-- ANORM (R167). -/
def execAnorm (m : Mv) (s : State) : Host.Outcome State Fault Refusal :=
  runTrigger semAnorm .mx .anorm m s

/-- ACVT (R168). -/
def execAcvt (m : Mv) (s : State) : Host.Outcome State Fault Refusal :=
  runTrigger semAcvt .mx .acvt m s


/-! ### The operations that are not calls (R163 to R168) -/

/-- A z tile changed. -/
def State.setZ (s : State) (core i : Nat) (z : ZTile) : State :=
  let k := s.core core
  s.setCore core { k with ztiles := k.ztiles.set i z }

/-- The number of element i of a block of a tile, as (row, column): the inverse of R146. -/
def elemPlace (d : Word) (e : Nat) : Nat × Nat :=
  let qn := if dKdim d then dRows d else dCols d
  let g := e / 32
  let r := g / qn * 32 + e % 32
  let q := g % qn
  if dKdim d then (q, r) else (r, q)

/-- The value of an element of an FP32 or BF16 tile. -/
def State.fpElem (s : State) (core : Nat) (a : Accessor) (d : Word) (e : Nat) : Fp :=
  let x := s.wordElem core a d e
  if dEw d = 1 then unpack (ofB16 (BitVec.ofNat 16 x)) else unpack (BitVec.ofNat 32 x)

/-- The blocks of a tile quantised from a function of the element number (R56); the flags of all blocks. -/
def State.writeBlocks (s : State) (core : Nat) (a : Accessor) (d : Word) (f : Nat → Fp × Nat) : List Nat → State × Nat
  | [] => (s, 0)
  | g :: gs =>
    let vs := (List.range 32).map fun i => f (32 * g + i)
    let (qs, e, fl) := quantise (vs.map Prod.fst)
    let (bank, b) := elemBlock d (32 * g)
    let s1 := s.setBlock core a (s.dev a.pav a.vd).kidx bank b qs e
    let (s2, rest) := s1.writeBlocks core a d f gs
    (s2, vs.foldl (fun acc v => acc ||| v.2) (fl ||| rest))

/-- The elements of a tile of 16 or 32 bits written from a function of the element number. -/
def State.writeElems (s : State) (core : Nat) (a : Accessor) (d : Word) (f : Nat → Nat × Nat) : List Nat → State × Nat
  | [] => (s, 0)
  | e :: es =>
    let (x, fl) := f e
    let (s1, rest) := (s.setWordElem core a d e x).writeElems core a d f es
    (s1, fl ||| rest)

/-- The effect of QUANT: the blocks and their flags (R163). -/
def State.doQuant (s : State) (core : Nat) (o : MxOp) : State :=
  match o.tiles with
  | [src, dst] =>
    let a := o.who.accessor core
    let (s1, fl) := s.writeBlocks core a dst.desc (fun e => (s.fpElem core a src.desc e, 0)) (List.range (dCount dst.desc / 32))
    s1.onTile core o.who dst.code fun t => t.raise (tileFlags fl)
  | _ => s

/-- The effect of AZERO (R164). -/
def State.doAzero (s : State) (core : Nat) (o : MxOp) : State :=
  match o.tiles with
  | [t] =>
    let z := (s.core core).ztile (t.code - 32)
    s.setZ core (t.code - 32)
      { z with stat := { z.stat with flags := 0 }, fill := ⟨0, o.ctl.setWidth 16, false, false, false, false⟩, elems := [] }
  | _ => s

/-- An element with a lane written into a WORD (R166). -/
def accWrite (a : Acc) (word : Nat) (x : Lane) : Acc :=
  if word = 0 then { a with w := a.w.extractLsb' 32 32 ++ x }
  else if word = 1 then { a with w := x ++ a.w.extractLsb' 0 32 }
  else if word = 2 then { a with e := x.setWidth 16 }
  else { a with ovf := bit x 0, inx := bit x 1, inv := bit x 2, eov := bit x 3 }

/-- The effect of AWRITE (R166). -/
def State.doAwrite (s : State) (core : Nat) (o : MxOp) : State :=
  match o.tiles with
  | [t] =>
    let i := t.code - 32
    let row := bits o.ctl 6 0
    (enabledLanes o.lanes).foldl (fun s n =>
      let z := (s.core core).ztile i
      let e := 128 * row + n
      s.setZ core i { z with elems := z.elems.set e (accWrite (z.elem e) (bits o.ctl 8 7) (lane o.vec n)) }) s
  | _ => s

/-- ANORM over a z tile: the tile with its flags, and whether an element saturated (R167). -/
def ZTile.norm (z : ZTile) : ZTile × Bool :=
  let f := accNorm z.fill
  let others := decide (z.elems.length < 16384)
  let rs := z.elems.map fun e => (e.1, e.2, accNorm e.2)
  let fl := rs.foldl (fun acc r => acc ||| gained r.2.1 r.2.2.1) (if others then gained z.fill f.1 else 0)
  ({ z with fill := f.1, elems := rs.map fun r => (r.1, r.2.2.1), stat := z.stat.raise (fl &&& 0xA0) },
   (others && f.2) || rs.any fun r => r.2.2.2)

/-- The effect of ACVT: one element as its destination's format takes it (R168), and its flags. -/
def cvtElem (kind : Nat) (a : Acc) : Nat × Nat :=
  if kind = 2 then let r := accToB16 a; (r.1.toNat, r.2)
  else if kind = 3 then let r := accToInt a; (r.1.toNat, r.2)
  else let r := accToFp32 a; (r.1.toNat, r.2)

/-- The effect of ACVT (R168). -/
def State.doAcvt (s : State) (core : Nat) (o : MxOp) : State :=
  match o.tiles with
  | [src, dst] =>
    let a := o.who.accessor core
    let d := dst.desc
    let z := (s.core core).ztile (src.code - 32)
    let get (e : Nat) : Acc := let p := elemPlace d e; z.elem (128 * p.1 + p.2)
    let (s1, fl) :=
      if dEw d = 0 then
        s.writeBlocks core a d (fun e => let r := accToFp32 (get e); (unpack r.1, r.2)) (List.range (dCount d / 32))
      else
        s.writeElems core a d (fun e => cvtElem (fmtKind ((s.core core).fmtOf (elemAddr d e / 65536))) (get e)) (List.range (dCount d))
    s1.onTile core o.who dst.code fun t => t.raise (tileFlags fl)
  | _ => s

/-! ### Stops and completion (R149, R161) -/

/-- The MXFAULT word after a stop (R161): a new record when V is 0, else MOVR. -/
def mxFaultWord (old : Word) (routine : Nat) (norm : Bool) (step tile ik inn : Nat) : Word :=
  if bit old 7 then old ||| 0x80000000
  else (old &&& 0x80000000) |||
    BitVec.ofNat 64 (routine + b2n norm * 2 ^ 6 + 2 ^ 7 + step * 2 ^ 8 + tile * 2 ^ 20 + ik * 2 ^ 32 + inn * 2 ^ 48)

/-- An arithmetic fault of a program (R161): due at its context; if the program's context is off, the fault goes to the lodge. -/
def State.arithmeticFault (s : State) (core : Nat) (w : Who) (routine : Nat) (norm : Bool) (step tile ik inn : Nat) : State :=
  let l : Loc := ⟨core, w.ctx⟩
  if s.progOf l = some w.bind.prog then
    let s1 := s.onView l false fun v =>
      { v with ctl := { v.ctl with mxfault := mxFaultWord v.ctl.mxfault routine norm step tile ik inn } }
    s1.setCtx l { s1.ctx l with arithDue := true }
  else s.post w.bind.pav w.bind.vd ⟨5, 7, 1, core, w.ctx, 0, 0, 0⟩

/-- The running operation ends: its tiles leave their roles and the sequencer is free; an inner accumulator that no PROMOTE has ended is
dropped (R67, log 31); with a saturation in a tile with TE = 1 its
context takes an arithmetic fault (R149, R161). -/
def State.endMx (s : State) (core : Nat) (r : MxRun) (step : Nat) : State :=
  let k := s.core core
  let s1 := (s.setCore core { k with mxRun := none }).leaveTiles core r.op.who r.op.tiles
  if r.trip then
    s1.arithmeticFault core r.op.who r.op.routine (decide (r.op.op = .anorm)) step (r.saturated.foldl min 39)
      (BitVec.ofInt 16 r.ik).toNat (BitVec.ofInt 16 r.inn).toNat
  else s1

/-! ### Calls, step by step (R157, R66, R67) -/

/-- The first tile of a list with a code. -/
def tileOf (ts : List TileRef) (code : Nat) : Option TileRef := ts.find? fun t => t.code == code

/-- The tile that mp j of a call names. -/
def MxOp.tile (o : MxOp) (j : Nat) : Option TileRef := tileOf o.tiles (o.mp.getD j 0).toNat

/-- The block of W that WLOAD places, by columns; a column of zeros is not listed (R157). -/
def State.wBlock (s : State) (core : Nat) (a : Accessor) (d : Word) (kb nb : Int) : Table (List Exact) :=
  (List.range 128).filterMap fun j =>
    let n := 128 * nb + Int.ofNat j
    if n < 0 ∨ n ≥ Int.ofNat (dCols d) then none
    else
      let col := (List.range 128).map fun i =>
        let k := 128 * kb + Int.ofNat i
        if k < 0 then ⟨0, 0, false⟩ else s.matrixElem core a d k.toNat n.toNat
      if col.all fun v => decide (v.mant = 0) && !v.bad then none else some (j, col)

/-- The product of two decoded elements (R65). -/
def product (x y : Exact) : Exact := if x.bad || y.bad then ⟨0, 0, true⟩ else ⟨x.mant * y.mant, x.exp + y.exp, false⟩

/-- The sum of a group on the grid of its largest product, with its exponent X; none where every product is 0. The second part
tells whether bits were lost (R66). -/
def groupSum (ps : List Exact) : Option (Int × Int) × Bool :=
  let nz := ps.filter fun p => p.mant != 0
  match nz with
  | [] => (none, false)
  | p :: rest =>
    let top (q : Exact) : Int := log2Of q.mant.natAbs q.exp
    let x := rest.foldl (fun m q => max m (top q)) (top p)
    let us := nz.map fun q => floorShift q.mant (q.exp - (x - 24))
    (some (us.foldl (fun acc u => acc + u.1) 0, x), us.any Prod.snd)

/-- A group entered into an inner accumulator (R67): the accumulator, whether bits were lost, whether it saturated. -/
def Inner.enter (i : Inner) (g : Option (Int × Int)) : Inner × Bool × Bool :=
  match g with
  | none => ({ i with count := i.count + 1 }, false, false)
  | some (sum, x) =>
    let (acc, xw, lost1) :=
      match i.acc with
      | none => ((0 : Int), x, false)
      | some (a, w) => if x > w then let r := floorShift a (w - x); (r.1, x, r.2) else (a, w, false)
    let r := floorShift sum (x - xw)
    let t := acc + r.1
    let sat := decide (t > 2 ^ 35 - 1) || decide (t < -(2 ^ 35))
    let v := if t > 2 ^ 35 - 1 then 2 ^ 35 - 1 else if t < -(2 ^ 35) then -(2 ^ 35) else t
    (⟨some (v, xw), i.count + 1⟩, lost1 || r.2, sat)

/-- An inner accumulator promoted into its element (R67): the element, and whether W saturated. -/
def Inner.promote (i : Inner) (a : Acc) : Acc × Bool :=
  match i.acc with
  | none => (a, false)
  | some (v, xw) => accAdd a v (xw - 24)

/-- A result of an element: its number, what it was and is, and whether it saturated. -/
structure Gain where
  elem : Nat
  old : Acc
  new : Acc
  sat : Bool

/-- The elements of a z tile that a running call changed, in ascending order, and the tile's flags and saturations (R148, R157,
R161). -/
def State.gainElems (s : State) (core zi : Nat) (r : MxRun) (gs : List Gain) : State × MxRun :=
  let z := (s.core core).ztile zi
  let changed := gs.filter fun g => decide (g.old ≠ g.new)
  let fl := changed.foldl (fun f g => f ||| gained g.old g.new) 0
  let z1 : ZTile :=
    { z with elems := z.elems.overlay (changed.map fun g => (g.elem, g.new)), stat := z.stat.raise fl }
  let r1 : MxRun :=
    if gs.any Gain.sat then
      { r with
        saturated := if (zi + 32) ∈ r.saturated then r.saturated else (zi + 32) :: r.saturated
        trip := r.trip || z.stat.te }
    else r
  (s.setZ core zi z1, r1)

/-- An element on its way through the groups of a k-block: its inner accumulator, the element, whether it saturated. -/
structure Cursor where
  inner : Inner
  acc : Acc
  sat : Bool

/-- One group entered (R157, R66, R67). -/
def Cursor.group (c : Cursor) (p : Nat) (ps : List Exact) : Cursor :=
  let (g, lostG) := groupSum ps
  let (i, lostI, sat) := c.inner.enter g
  let mid : Acc :=
    { c.acc with
      inx := c.acc.inx || lostG || lostI
      inv := c.acc.inv || ps.any Exact.bad
      ovf := c.acc.ovf || sat }
  if i.count ≥ p then
    let (new, satW) := i.promote mid
    ⟨⟨none, 0⟩, new, c.sat || sat || satW⟩
  else ⟨i, mid, c.sat || sat⟩

/-- The groups of 32 products of a list, in order. -/
def Cursor.groups (c : Cursor) (p : Nat) : Nat → List Exact → Cursor
  | 0, _ => c
  | n + 1, ps => Cursor.groups (c.group p (ps.take 32)) p n (ps.drop 32)

/-- Row m of A in a k-block: 128 values; a place outside A contributes the value 0 (R157, log 15). -/
def State.aRow (s : State) (core : Nat) (a : Accessor) (d : Word) (m : Nat) (kb : Int) : List Exact :=
  (List.range 128).map fun i =>
    let k := 128 * kb + Int.ofNat i
    if k < 0 ∨ m ≥ dRows d ∨ k ≥ Int.ofNat (dCols d) then ⟨0, 0, false⟩ else s.matrixElem core a d m k.toNat

/-- The products of a row of A and a column of the array (R65). -/
def products (row col : List Exact) : List Exact := (row.zip (col.takeD 128 ⟨0, 0, false⟩)).map fun x => product x.1 x.2

/-- One row of STREAM (R157). -/
def State.streamRow (s : State) (core p zi m : Nat) (r : MxRun) (row : List Exact) : State × MxRun :=
  let z := (s.core core).ztile zi
  let zeros : List Exact := List.replicate 128 ⟨0, 0, false⟩
  let inner := r.inner.getD (128 * zi + m) (List.replicate 128 ⟨none, 0⟩)
  let cs := ((List.range 128).zip (inner.takeD 128 ⟨none, 0⟩)).map fun (n, i) =>
    let old := z.elem (128 * m + n)
    let c := Cursor.groups ⟨i, old, false⟩ p 4 (products row (r.array.getD n zeros))
    (c.inner, (⟨128 * m + n, old, c.acc, c.sat⟩ : Gain))
  s.gainElems core zi { r with inner := r.inner.set (128 * zi + m) (cs.map Prod.fst) } (cs.map Prod.snd)

/-- STREAM (R157): rows, columns, groups in ascending order. -/
def State.stream (s : State) (core p : Nat) (r : MxRun) (w : Word) : State × MxRun :=
  match r.op.tile (stPa w), r.op.tile (stPz w) with
  | some ta, some tz =>
    let a := r.op.who.accessor core
    (List.range (stMc w + 1)).foldl (fun acc dm =>
      let m := stM0 w + dm
      acc.1.streamRow core p (tz.code - 32) m acc.2 (s.aRow core a ta.desc m (r.ik + Int.ofNat (stKb w)))) (s, r)
  | _, _ => (s, r)

/-- PROMOTE (R157): the reduction of every element of a z tile ends. -/
def State.promoteAll (s : State) (core zi : Nat) (r : MxRun) : State × MxRun :=
  let z := (s.core core).ztile zi
  let gs := (List.range 128).flatMap fun m => ((List.range 128).zip (r.inner.getD (128 * zi + m) [])).map fun (n, i) =>
    let k := 128 * m + n
    let (new, sat) := i.promote (z.elem k)
    (⟨k, z.elem k, new, sat⟩ : Gain)
  s.gainElems core zi { r with inner := r.inner.filter fun e => !(e.1 / 128 == zi) } gs

/-- The running call of a core at a step of a kind, with its word and the address after it. -/
def State.atStep (s : State) (core kind : Nat) : Option (MxRun × Word) :=
  match (s.core core).mxRun with
  | none => none
  | some r =>
    if r.op.op = .mcall ∧ !r.done ∧ r.due ≤ (s.core core).cycle ∧ stKind ((s.core core).word r.next) = kind then some (r, (s.core core).word r.next) else none

/-- The twice eighth planes that a row of STREAM takes (R158): 16 where A or W is BF16, else the planes of W (log 15: the most of any of
its banks). -/
def State.rowPlanes (s : State) (core : Nat) (r : MxRun) (w : Word) : Nat :=
  let k := s.core core
  let wTile := r.wload.bind fun a => r.op.tile (stPb (k.word a))
  let bpi (t : Option TileRef) : Bool := match t with | some t => dEw t.desc == 0 | none => true
  match wTile with
  | some t => if bpi (r.op.tile (stPa w)) && bpi wTile then (spanned t.desc).foldl (fun m b => max m (fmtPlanes (k.fmtOf b))) 0 else 16
  | none => if bpi (r.op.tile (stPa w)) then 0 else 16

/-- The cycles of a step as it runs (R158). -/
def State.runCycles (s : State) (core : Nat) (r : MxRun) (w : Word) : Nat :=
  if stKind w = 2 then 8 + ((stMc w + 1) * s.rowPlanes core r w + 7) / 8 else stCycles w

/-- The cycles of the next step of an operation (R158); an operation that is no call has none of its own. -/
def State.stepCost (s : State) (core : Nat) (r : MxRun) : Nat :=
  if r.op.op = .mcall ∧ !r.done then s.runCycles core r ((s.core core).word r.next) else 0

/-- The running operation of a core changed; its next step takes its cycles. -/
def State.setRun (s : State) (core : Nat) (r : MxRun) : State :=
  let k := s.core core
  s.setCore core { k with mxRun := some { r with due := k.cycle + s.stepCost core r } }

/-- A stated step of a call that a pre-emption stops (R162): the call leaves the sequencer with the place where it goes on, and joins
the operations that its context keeps. DESIGN CHOICE (log 31), where R162 and R411 save nothing of it: what has saturated before the stop
without a fault counts no more for MXFAULT.TILE after it. -/
def State.stopCall (s : State) (core : Nat) (r : MxRun) : State :=
  let k := s.core core
  let o : MxOp := { r.op with resume := some ⟨r.next, r.ik, r.inn, r.passes, r.wload⟩ }
  let s1 := s.setCore core { k with mxRun := none }
  let l : Loc := ⟨core, r.op.who.ctx⟩
  let x := s1.ctx l
  s1.setCtx l { x with keptMx := o :: x.keptMx }

/-- WLOAD (R157). -/
def State.stepWload (s : State) (core : Nat) : State :=
  match s.atStep core 1 with
  | none => s
  | some (r, w) =>
    match r.op.tile (stPb w) with
    | none => s
    | some t =>
      let blk := s.wBlock core (r.op.who.accessor core) t.desc (r.ik + Int.ofNat (stKb w)) (r.inn + Int.ofNat (stNb w))
      s.setRun core { r with array := blk, wload := some r.next, next := r.next + 1 }

/-- STREAM (R157). -/
def State.stepStream (s : State) (core : Nat) : State :=
  match s.atStep core 2 with
  | none => s
  | some (r, w) =>
    let (s1, r1) := s.stream core (dirP ((s.core core).word r.op.routine)) r w
    s1.setRun core { r1 with next := r.next + 1 }

/-- PROMOTE (R157); a stated one stops the call after a saturation (R161), or for a pre-emption (R162). -/
def State.stepPromote (s : State) (core : Nat) : State :=
  match s.atStep core 3 with
  | none => s
  | some (r, w) =>
    match r.op.tile (stPz w) with
    | none => s
    | some t =>
      let (s1, r1) := s.promoteAll core (t.code - 32) r
      let r2 : MxRun := { r1 with next := r.next + 1 }
      if stSt w && r2.trip then s1.endMx core r2 r.next
      else if stSt w && r2.stopping then s1.stopCall core r2
      else s1.setRun core r2

/-- LOOP (R157). -/
def State.stepLoop (s : State) (core : Nat) : State :=
  match s.atStep core 4 with
  | none => s
  | some (r, w) =>
    let count := if stCnt w = 0 then max 1 (bits (r.op.mp.getD (stCp w) 0) 15 0) else stCnt w
    if r.passes + 1 < count then
      s.setRun core
        { r with ik := r.ik + stDk w, inn := r.inn + stDn w, passes := r.passes + 1, next := r.next - stBl w }
    else s.setRun core { r with passes := 0, next := r.next + 1 }

/-- NOP (R157). -/
def State.stepNop (s : State) (core : Nat) : State :=
  match s.atStep core 5 with
  | none => s
  | some (r, _) => s.setRun core { r with next := r.next + 1 }

/-- END (R157): the call is complete; a saturation stops it here (R161). -/
def State.stepEnd (s : State) (core : Nat) : State :=
  match s.atStep core 0 with
  | none => s
  | some (r, _) => if r.trip then s.endMx core r r.next else s.setRun core { r with done := true }

/-- The sequencer starts its next operation (R152); a call starts its step words (R157) or goes on after a stop, its last WLOAD first, with
the indices of the stop (R162; DESIGN CHOICE, log 31: a LOOP may have changed them since that WLOAD); any other operation takes effect. The holds of R424 and R425 are
`Oper.mayStart`. -/
def State.startMx (s : State) (core : Nat) : State :=
  let k := s.core core
  match k.mxRun, k.mxq with
  | none, o :: rest =>
    if !s.oper.mayStart k.mxWait o.id k.cycle then
      s.setCore core { k with mxWait := s.oper.startWait k.mxWait o.id k.cycle }
    else
      let s1 := s.setCore core { k with mxq := rest, mxWait := none }
      let run : MxRun :=
        { op := o, next := dirStart (k.word o.routine), ik := 0, inn := 0, passes := 0, wload := none, array := [], inner := [],
          saturated := [], trip := false, stopping := false, due := 0, done := true }
      match o.op with
      | .mcall =>
        match o.resume with
        | none => s1.setRun core { run with done := false }
        | some m =>
          let array :=
            match m.wload with
            | none => []
            | some a =>
              let w := k.word a
              match o.tile (stPb w) with
              | some t => s1.wBlock core (o.who.accessor core) t.desc (m.ik + Int.ofNat (stKb w)) (m.inn + Int.ofNat (stNb w))
              | none => []
          s1.setRun core
            { run with next := m.next, ik := m.ik, inn := m.inn, passes := m.passes, wload := m.wload, array := array, done := false }
      | .quant => (s1.doQuant core o).setRun core run
      | .azero => (s1.doAzero core o).setRun core run
      | .awrite => (s1.doAwrite core o).setRun core run
      | .acvt => (s1.doAcvt core o).setRun core run
      | .anorm =>
        match o.tiles with
        | [t] =>
          let i := t.code - 32
          let (z, sat) := (k.ztile i).norm
          (s1.setZ core i z).setRun core
            { run with saturated := if sat then [t.code] else [], trip := sat && (k.ztile i).stat.te }
        | _ => s1.setRun core run
      | _ => s1.setRun core run
  | _, _ => s

/-- An operation of the sequencer completes (R149). -/
def State.completeMx (s : State) (core : Nat) : State :=
  match (s.core core).mxRun with
  | none => s
  | some r => if r.done then s.endMx core r 0 else s

/-- MX_OPERATION_START (R152). -/
def execMxOperationStart (core : Nat) (s : State) : Host.Outcome State Fault Refusal := .next (s.startMx core)
/-- WLOAD (R157). -/
def execMxWload (core : Nat) (s : State) : Host.Outcome State Fault Refusal := .next (s.stepWload core)
/-- STREAM (R157). -/
def execMxStream (core : Nat) (s : State) : Host.Outcome State Fault Refusal := .next (s.stepStream core)
/-- PROMOTE (R157). -/
def execMxPromote (core : Nat) (s : State) : Host.Outcome State Fault Refusal := .next (s.stepPromote core)
/-- LOOP (R157). -/
def execMxLoop (core : Nat) (s : State) : Host.Outcome State Fault Refusal := .next (s.stepLoop core)
/-- NOP (R157). -/
def execMxNop (core : Nat) (s : State) : Host.Outcome State Fault Refusal := .next (s.stepNop core)
/-- END (R157). -/
def execMxEnd (core : Nat) (s : State) : Host.Outcome State Fault Refusal := .next (s.stepEnd core)
/-- MX_OPERATION_COMPLETION (R149). -/
def execMxOperationCompletion (core : Nat) (s : State) : Host.Outcome State Fault Refusal := .next (s.completeMx core)

end Sys2Proof.Machine
end

