-- ==== Sys2Proof/Machine/Scan.lean ====
section
/-!
DEFINITION. The scan engine sc (R69 to R71, R170, R175 to R182) and the elements of a frame in the pool (R172, R305).
-/

namespace Sys2Proof.Machine

/-! ### Frames in the pool (R172, R173, R303, R305) -/

/-- A frame slot of a core. -/
def Core.slot (k : Core) (n : Nat) : FrameSlot := k.slots.getD n .reset

/-- No frame: what stands for the frame of an unbound slot. -/
def Frame.none : Frame := ⟨0, 0, 0, 0, 0, 0, false, 0⟩

/-- The frame of a slot. -/
def Core.frameOf (k : Core) (n : Nat) : Frame :=
  match (k.slot n).frame with
  | some i => k.frames.getD i .none
  | none => .none

/-- Whether a slot is bound (R173). -/
def FrameSlot.bound (f : FrameSlot) : Bool := f.frame.isSome

/-- A frame changed. -/
def State.setFrame (s : State) (core i : Nat) (f : Frame) : State :=
  let k := s.core core
  s.setCore core { k with frames := k.frames.set i f }

/-- A frame slot changed. -/
def State.setSlot (s : State) (core n : Nat) (f : FrameSlot) : State :=
  let k := s.core core
  s.setCore core { k with slots := k.slots.set n f }

/-- The pool address of h[n] (R305). -/
def Frame.hAddr (f : Frame) (n : Nat) : Nat := 65536 * f.bank + 64 + 4 * n
/-- The pool address of c[n]. -/
def Frame.cAddr (f : Frame) (n : Nat) : Nat := 65536 * f.bank + 64 + 4 * f.ne + 4 * n
/-- The pool address of the byte that holds F[n]. -/
def Frame.fAddr (f : Frame) (n : Nat) : Nat := 65536 * f.bank + 64 + 8 * f.ne + n / 8

/-- Whether a context may name a slot (R303): it is unbound, or its frame's first bank is owned by the context's program. -/
def State.mayName (s : State) (l : Loc) (n : Nat) : Bool :=
  let k := s.core l.core
  !(k.slot n).bound || k.owns (s.progOf l) (k.frameOf n).bank

/-- F[n] of a slot. -/
def State.fadeBit (s : State) (core : Nat) (a : Accessor) (f : Frame) (n : Nat) : Bool :=
  bit (s.poolByte core a (f.fAddr n)) (n % 8)

/-- F[n] of a slot written. -/
def State.setFadeBit (s : State) (core : Nat) (a : Accessor) (f : Frame) (n : Nat) (b : Bool) : State :=
  s.setPoolNat core a (f.fAddr n) 1 (putBit (s.poolByte core a (f.fAddr n)) (n % 8) b).toNat

/-- The header of a frame as R305 lays it out: 64 bytes. -/
def headerBytes (f : Frame) (tenant : Nat) : List Byte :=
  leBytes 2 f.sid ++ leBytes 1 f.layer ++ leBytes 1 1 ++ leBytes 4 f.pos ++ leBytes 2 f.stag ++ leBytes 2 0 ++ leBytes 4 f.ne ++
    leBytes 1 tenant ++ List.replicate 47 0

/-- The header of a bound slot brought into the pool. -/
def State.writeHeader (s : State) (core : Nat) (w : Who) (f : Frame) : State :=
  let a := w.accessor core
  s.setPoolBytes core a (s.dev a.pav a.vd).kidx (65536 * f.bank) (headerBytes f w.bind.tenant)

/-! ### Arithmetic (R69 to R71) -/

/-- A composed operator, and whether a fade replaced a non-zero value (R70). -/
def compose (a2 b2 a1 b1 : Lane) : Lane × Lane × Bool :=
  let a := fadeRounded (fmul a2 a1)
  let b := fadeRounded (ffma a2 b1 b2)
  (a.1, b.1, a.2 || b.2)

/-- One stage of the prefix, at distance d (R70). -/
def prefixStage (d : Nat) (ops : List (Lane × Lane × Bool)) : List (Lane × Lane × Bool) :=
  (List.range ops.length).map fun i =>
    let x := ops.getD i (0, 0, false)
    if i < d then x
    else
      let y := ops.getD (i - d) (0, 0, false)
      let r := compose x.1 x.2.1 y.1 y.2.1
      (r.1, r.2.1, x.2.2 || r.2.2)

/-- The inclusive prefix of a chunk of 2^m operators, from stage j on (R70). -/
def prefixFrom : Nat → Nat → List (Lane × Lane × Bool) → List (Lane × Lane × Bool)
  | _, 0, ops => ops
  | j, n + 1, ops => prefixFrom (j + 1) n (prefixStage (2 ^ j) ops)

/-- The operators of a chunk on entry: faded, with the flag (R69). -/
def enterOp (a b : Lane) : Lane × Lane × Bool := let x := scanFade a; let y := scanFade b; (x.1, y.1, x.2 || y.2)

/-- An operator applied to a carried pair (R71, R69): the new pair, and whether a fade replaced a non-zero value. -/
def carry (a b h c : Lane) : Lane × Lane × Bool :=
  let p := (fmul a h).1
  let e1 := (ffma a h (negLane p)).1
  let sum := (fadd p b).1
  let z := (fsub sum p).1
  let e2 := (fadd (fsub p (fsub sum z).1).1 (fsub b z).1).1
  let h' := fade sum
  let c' := (ffma a c (fadd e1 e2).1).1
  (h'.1, if h'.2 || isTiny c' then 0 else c', h'.2)

/-! ### Triggers (R173, R175, R176, R181) -/

/-- Whether a scan configuration is refused (R175). -/
def badScfg (x : Word) : Bool := bits x 63 54 != 0 || decide (bits x 2 0 > 6)

/-- Whether a frame's bank is still waited for by a context that may name its slot (R299). -/
def State.frameWaits (s : State) (l : Loc) (n : Nat) : Bool :=
  let k := s.core l.core
  (k.slot n).bound && (frameBanks (k.frameOf n).bank (k.frameOf n).ne).any fun b => k.pendingOn (s.progOf l) b

/-- SCFG. -/
def semScfg : OpSem :=
  { OpSem.base with
    outward := true
    encoding := fun _ _ o => if badScfg o.xw then some 21 else none
    act := fun s l o => s.fly l false (s.ctx l).ctime false [.ctl 0x00B o.xw] }

/-- L of a configuration. -/
def cfgL (c : Word) : Nat := 2 ^ bits c 2 0
/-- SLOT of a configuration. -/
def cfgSlot (c : Word) : Nat := bits c 6 3
/-- NE of a configuration. -/
def cfgNe (c : Word) : Nat := bits c 18 7 + 1
/-- EBASE of a configuration. -/
def cfgBase (c : Word) : Nat := bits c 36 19

/-- The t tiles that codes name, in their roles, or the cause of the trap. -/
def State.tTiles (s : State) (l : Loc) : List (Word × TileRole) → Except Cause (List TileRef)
  | [] => .ok []
  | (x, r) :: rest =>
    match s.tTile l x r with
    | .error c => .error c
    | .ok t =>
      match s.tTiles l rest with
      | .error c => .error c
      | .ok ts => .ok (t :: ts)

/-- The refusal of the configured slot and of the range in its frame (R175, R176, R303). -/
def slotRefused (s : State) (l : Loc) (_ : Opd) : Option Cause :=
  let k := s.core l.core
  let c := (s.ctx l).cur.ctl.sccfg
  if !s.mayName l (cfgSlot c) then some 19
  else if (k.slot (cfgSlot c)).bound && decide (cfgBase c + cfgNe c > (k.frameOf (cfgSlot c)).ne) then some 22
  else none

/-- What an operation's own tile refuses (R174 to R176): its code, its format, and its columns and rows. -/
def scanTileRefused (rows : Word → Nat) (s : State) (l : Loc) (n : Word × TileRole) : Option Cause :=
  let c := (s.ctx l).cur.ctl.sccfg
  match s.tTile l n.1 n.2 with
  | .error e => some e
  | .ok t =>
    if dEw t.desc != 2 || !(s.core l.core).spansKind t.desc 1 then some 16
    else if dCols t.desc < cfgNe c ∨ dRows t.desc < rows c then some 17
    else none

/-- The trap of the tile that an operation names as an operand (R149, R174). -/
def scanTileTrap (s : State) (l : Loc) (n : Word × TileRole) : Option Cause :=
  match s.tTile l n.1 n.2 with
  | .error _ => none
  | .ok t => s.tilesTrap l [t]

/-- The parts of a scan operation's checks that its operands, by number, take each alone: their encoding, the frame that holds a bank, and
the other traps of their tiles. -/
def scanTileParts (named : Opd → List (Word × TileRole)) (rows : Word → Nat) : List Part × List Part × List Part :=
  let trap (s : State) (l : Loc) (o : Opd) (i : Nat) : Option Cause := (named o)[i]?.bind (scanTileTrap s l)
  ([0, 1, 2].map fun i => .enc [i] fun s l o => (named o)[i]?.bind (scanTileRefused rows s l),
   [0, 1, 2].map fun i => .seq [i] fun s l o => (trap s l o i).filter (· == 8),
   [0, 1, 2].map fun i => .seq [i] fun s l o => trap s l o i)

/-- A queued scan operation (R176, R182): its latches, its tiles, the rows that they need. -/
def scanSem (latches : List (Nat × Width)) (named : Opd → List (Word × TileRole)) (rows : Word → Nat) : OpSem :=
  let cfg (s : State) (l : Loc) : Word := (s.ctx l).cur.ctl.sccfg
  let tilesOf (s : State) (l : Loc) (o : Opd) : List TileRef := match s.tTiles l (named o) with | .ok ts => ts | .error _ => []
  { OpSem.base with
    latches := latches
    outward := true
    encoding := fun s l o =>
      let k := s.core l.core
      let c := cfg s l
      match s.tTiles l (named o) with
      | .error e => some e
      | .ok ts =>
        if ts.any fun t => dEw t.desc != 2 || !k.spansKind t.desc 1 then some 16
        else if ts.any fun t => decide (dCols t.desc < cfgNe c) || decide (dRows t.desc < rows c) then some 17
        else slotRefused s l o
    sequence := fun s l o =>
      if s.tilesTrap l (tilesOf s l o) = some 8 then some 8
      else if !((s.core l.core).slot (cfgSlot (cfg s l))).bound then some 6
      else s.tilesTrap l (tilesOf s l o)
    parts :=
      let tile := scanTileParts named rows
      tile.1 ++ [.enc [] slotRefused] ++ tile.2.1 ++
        [.seq [] fun s l _ => if !((s.core l.core).slot (cfgSlot (s.ctx l).cur.ctl.sccfg)).bound then some 6 else none] ++ tile.2.2
    blocks := fun s l o =>
      let k := s.core l.core
      s.frameWaits l (cfgSlot (cfg s l)) || decide ((k.slot (cfgSlot (cfg s l))).fcnt > 0) || s.tilesBlock l (tilesOf s l o) || decide (k.scq.length + b2n k.scRun.isSome ≥ 8)
    act := fun s l o =>
      let c := cfg s l
      let ts := tilesOf s l o
      let op : ScOp := { id := s.opId, who := s.who l, op := o.op, cfg := c, tiles := ts, next := 0, due := 0 }
      let s1 : State := { s with opId := s.opId + 1 }
      let k := s1.core l.core
      let s2 := s1.setCore l.core { k with scq := k.scq ++ [op] }
      let f := k.slot (cfgSlot c)
      (s2.setSlot l.core (cfgSlot c) { f with scnt := f.scnt + 1 }).enterTiles l ts }

/-- SLOAD. -/
def semSload : OpSem := scanSem [] (fun o => [(o.xw, .source)]) fun _ => 1
/-- SCOMP. -/
def semScomp : OpSem := scanSem latch1 (fun o => [(o.xw, .update), (o.b, .update)]) cfgL
/-- SCARRY. -/
def semScarry : OpSem := scanSem latch1 (fun o => [(o.xw, .source), (o.b, .source)]) cfgL
/-- SAPPLY. -/
def semSapply : OpSem := scanSem latch12 (fun o => [(o.xw, .destination), (o.b, .source), (o.c, .source)]) cfgL

/-- SREAD (R181). -/
def semSread : OpSem :=
  let slot (s : State) (l : Loc) : Nat := cfgSlot (s.ctx l).cur.ctl.sccfg
  { OpSem.base with
    sel := some [.v]
    outward := true
    encoding := fun s l o =>
      if bits o.xw 63 20 ≠ 0 ∨ bits o.xw 19 18 = 3 then some 21 else if !s.mayName l (slot s l) then some 19 else none
    sequence := fun s l _ => if !((s.core l.core).slot (slot s l)).bound then some 6 else none
    parts :=
      [.enc [0] (fun _ _ o => if bits o.xw 63 20 ≠ 0 ∨ bits o.xw 19 18 = 3 then some 21 else none),
       .enc [] (fun s l _ => if !s.mayName l (slot s l) then some 19 else none),
       .seq [] (fun s l _ => if !((s.core l.core).slot (slot s l)).bound then some 6 else none)]
    blocks := fun s l _ =>
      let f := (s.core l.core).slot (slot s l)
      s.frameWaits l (slot s l) || decide (f.fcnt > 0) || decide (f.scnt > 0)
    act := fun s l o =>
      let f := (s.core l.core).frameOf (slot s l)
      let a := s.accessor l
      let v := ofLanes fun i =>
        let n := bits o.xw 17 0 + i
        let word := bits o.xw 19 18
        if n ≥ f.ne then 0
        else if word = 0 then BitVec.ofNat 32 (s.poolNat l.core a (f.hAddr n) 4)
        else if word = 1 then BitVec.ofNat 32 (s.poolNat l.core a (f.cAddr n) 4)
        else BitVec.ofNat 32 (b2n (s.fadeBit l.core a f n))
      let (id, s1) := s.startLong l o none
      s1.deliverLong l id 6 (some (.vec v)) }

/-- SCFG (R175). -/
def execScfg (m : Mv) (s : State) : Host.Outcome State Fault Refusal :=
  runTrigger semScfg .sc .scfg m s

/-- SLOAD (R180). -/
def execSload (m : Mv) (s : State) : Host.Outcome State Fault Refusal :=
  runTrigger semSload .sc .sload m s

/-- SCOMP (R177). -/
def execScomp (m : Mv) (s : State) : Host.Outcome State Fault Refusal :=
  runTrigger semScomp .sc .scomp m s

/-- SCARRY (R179). -/
def execScarry (m : Mv) (s : State) : Host.Outcome State Fault Refusal :=
  runTrigger semScarry .sc .scarry m s

/-- SAPPLY (R178). -/
def execSapply (m : Mv) (s : State) : Host.Outcome State Fault Refusal :=
  runTrigger semSapply .sc .sapply m s

/-- SREAD (R181). -/
def execSread (m : Mv) (s : State) : Host.Outcome State Fault Refusal :=
  runTrigger semSread .sc .sread m s


/-! ### The engine (R177 to R180, R182) -/

/-- Element (t, n) of an FP32 tile. -/
def State.scanElem (s : State) (core : Nat) (a : Accessor) (d : Word) (t n : Nat) : Lane :=
  BitVec.ofNat 32 (s.wordElem core a d (elemNumber d t n))

/-- Element (t, n) of an FP32 tile written. -/
def State.setScanElem (s : State) (core : Nat) (a : Accessor) (d : Word) (t n : Nat) (x : Lane) : State :=
  s.setWordElem core a d (elemNumber d t n) x.toNat

/-- A frame pair and its fade bit written (R69): the bit is only ever set. -/
def State.setPair (s : State) (core : Nat) (a : Accessor) (f : Frame) (m : Nat) (h c : Lane) (fl : Bool) : State :=
  let s1 := (s.setPoolNat core a (f.hAddr m) 4 h.toNat).setPoolNat core a (f.cAddr m) 4 c.toNat
  if fl then s1.setFadeBit core a f m true else s1

/-- One column of a scan operation (R177 to R180): column n works on frame element EBASE + n. -/
def State.scanColumn (s : State) (core : Nat) (o : ScOp) (n : Nat) : State :=
  let a := o.who.accessor core
  let f := (s.core core).frameOf (cfgSlot o.cfg)
  let m := cfgBase o.cfg + n
  let len := cfgL o.cfg
  let h : Lane := BitVec.ofNat 32 (s.poolNat core a (f.hAddr m) 4)
  let c : Lane := BitVec.ofNat 32 (s.poolNat core a (f.cAddr m) 4)
  match o.op, o.tiles with
  | .sload, [x] =>
    let r := scanFade (s.scanElem core a x.desc 0 n)
    let c0 := if dRows x.desc ≥ 2 then (canonical (s.scanElem core a x.desc 1 n)).1 else 0
    let c1 := if r.2 || isTiny c0 then 0 else c0
    (s.setFadeBit core a f m false).setPair core a f m r.1 c1 r.2
  | .scomp, [x, y] =>
    let ops := (List.range len).map fun t => enterOp (s.scanElem core a x.desc t n) (s.scanElem core a y.desc t n)
    let res := prefixFrom 0 (bits o.cfg 2 0) ops
    let fl := res.any (fun r => r.2.2)
    let s1 := ((List.range len).zip res).foldl (fun s e =>
      (s.setScanElem core a x.desc e.1 n e.2.1).setScanElem core a y.desc e.1 n e.2.2.1) s
    if fl then s1.setFadeBit core a f m true else s1
  | .sapply, [x, y, z] =>
    let rs := (List.range len).map fun t =>
      let e := enterOp (s.scanElem core a y.desc t n) (s.scanElem core a z.desc t n)
      let r := carry e.1 e.2.1 h c
      (t, r.1, e.2.2 || r.2.2)
    let s1 := rs.foldl (fun s r => s.setScanElem core a x.desc r.1 n r.2.1) s
    if rs.any fun r => r.2.2 then s1.setFadeBit core a f m true else s1
  | .scarry, [x, y] =>
    let e := enterOp (s.scanElem core a x.desc (len - 1) n) (s.scanElem core a y.desc (len - 1) n)
    let r := carry e.1 e.2.1 h c
    s.setPair core a f m r.1 r.2.1 (e.2.2 || r.2.2)
  | _, _ => s

/-- The cycles of a block of 128 columns (R182). -/
def ScOp.cost (o : ScOp) : Nat :=
  match o.op with
  | .sload => 4
  | .scomp => 4 + bits o.cfg 2 0 * cfgL o.cfg / 2
  | .sapply => 4 + cfgL o.cfg
  | _ => 6

/-- An operation whose next block begins in a cycle. -/
def ScOp.after (o : ScOp) (cycle : Nat) : ScOp := { o with due := cycle + o.cost }

/-- The scan engine starts its next operation (R182); the holds of R424 and R425 are `Oper.mayStart`. -/
def State.startScan (s : State) (core : Nat) : State :=
  let k := s.core core
  match k.scRun, k.scq with
  | none, o :: rest =>
    s.setCore core
      (if s.oper.mayStart k.scWait o.id k.cycle then { k with scRun := some (o.after k.cycle), scq := rest, scWait := none }
      else { k with scWait := s.oper.startWait k.scWait o.id k.cycle })
  | _, _ => s

/-- A scan operation completes (R173, R179): its tiles leave their roles, SCNT falls, SCARRY moves STAG and POS. -/
def State.endScan (s : State) (core : Nat) (o : ScOp) : State :=
  let k := s.core core
  let s1 := (s.setCore core { k with scRun := none }).leaveTiles core o.who o.tiles
  let i := cfgSlot o.cfg
  let f := k.slot i
  let s2 := s1.setSlot core i { f with scnt := f.scnt - 1 }
  match o.op, f.frame with
  | .scarry, some n =>
    let g := k.frameOf i
    let g1 : Frame :=
      { g with
        stag := bits o.cfg 52 37
        pos := if bit o.cfg 53 then (g.pos + cfgL o.cfg) % 2 ^ 32 else g.pos }
    (s2.setFrame core n g1).writeHeader core o.who g1
  | _, _ => s2

/-- The scan engine finishes a block of 128 columns, a stated step (R182), where an operation of a halted context stops. -/
def State.scanBlock (s : State) (core : Nat) : State :=
  match (s.core core).scRun with
  | none => s
  | some o =>
    if (s.core core).cycle < o.due then s
    else
    let first := 128 * o.next
    let cols := (List.range (min 128 (cfgNe o.cfg - first))).map fun i => first + i
    let s1 := cols.foldl (fun s n => s.scanColumn core o n) s
    if first + 128 < cfgNe o.cfg then
      let k := s1.core core
      let o1 : ScOp := { o with next := o.next + 1 }
      let l : Loc := ⟨core, o.who.ctx⟩
      let x := s1.ctx l
      if x.saved.isSome && s1.progOf l == some o.who.bind.prog then
        (s1.setCore core { k with scRun := none }).setCtx l { x with keptSc := o1 :: x.keptSc }
      else s1.setCore core { k with scRun := some (o1.after k.cycle) }
    else s1.endScan core o

/-- SCAN_OPERATION_START (R182). -/
def execScanOperationStart (core : Nat) (s : State) : Host.Outcome State Fault Refusal := .next (s.startScan core)
/-- SCAN_BLOCK (R182). -/
def execScanBlock (core : Nat) (s : State) : Host.Outcome State Fault Refusal := .next (s.scanBlock core)

end Sys2Proof.Machine
end

