-- ==== Sys2Proof/Machine/FrameEngine.lean ====
section
/-!
DEFINITION. The frame engine fr (R170 to R174, R183 to R188, R305, R306): triggers, the session table, homes and records in global
memory, and the completion of each operation.
-/

namespace Sys2Proof.Machine

/-! ### Global memory for engines (R188, R216, R322, R360, R361) -/

/-- Why an engine's access fails: a translation failure at an address. -/
def translationFault (c : Nat) (va : Nat) : EngineFault := ⟨1, 5, c, BitVec.ofNat 64 va⟩
/-- Why an engine's access fails: poisoned data at an address (R400). -/
def poisonFault (va : Nat) : EngineFault := ⟨5, 11, 1, BitVec.ofNat 64 va⟩
/-- Why a frame operation fails: a frame cause of R397. -/
def frameFault (cause : Nat) : EngineFault := ⟨6, 12, cause, 0⟩

/-- What an engine reads as an accessor: its parts and bytes, or the failure. -/
def State.readAs (s : State) (a : Accessor) (va n : Nat) : Except EngineFault (List Piece × List Byte) :=
  match s.range a va n false with
  | .error (c, at_) => .error (translationFault c at_)
  | .ok ps =>
    let (bs, bad) := s.readRange ps
    if bad then .error (poisonFault va) else .ok (ps, bs)

/-- Bytes that an engine writes as an accessor, recorded for race detection with its context and region (R322), or the failure. -/
def State.writeAs (s : State) (a : Accessor) (w : Who) (va : Nat) (bs : List Byte) : Except EngineFault State :=
  match s.range a va bs.length true with
  | .error (c, at_) => .error (translationFault c at_)
  | .ok ps =>
    if s.writeRefused ps then .error (poisonFault va)
    else .ok ((s.recordWrite a (4 * a.core + w.ctx) w.region false ps).writeRange a ps bs)

/-- What a copy reads. -/
def State.engineRead (s : State) (core : Nat) (w : Who) (va n : Nat) : Except EngineFault (List Piece × List Byte) :=
  s.readAs (w.accessor core) va n

/-- Bytes that a copy writes. -/
def State.engineWrite (s : State) (core : Nat) (w : Who) (va : Nat) (bs : List Byte) : Except EngineFault State :=
  s.writeAs (w.accessor core) w va bs

/-- The frame engine as an accessor for who triggered its operation (R372). -/
def Who.frameAccessor (w : Who) (core : Nat) : Accessor := { w.accessor core with frame := true }

/-- What the frame engine reads. -/
def State.frameRead (s : State) (core : Nat) (w : Who) (va n : Nat) : Except EngineFault (List Piece × List Byte) :=
  s.readAs (w.frameAccessor core) va n

/-- Bytes that the frame engine writes. -/
def State.frameWrite (s : State) (core : Nat) (w : Who) (va : Nat) (bs : List Byte) : Except EngineFault State :=
  s.writeAs (w.frameAccessor core) w va bs

/-- A write that failed and may have landed in part (R188): a beginning of free length of the bytes that stand before the failure. -/
def State.partWritten (s : State) (core : Nat) (w : Who) (va : Nat) (bs : List Byte) (f : EngineFault) : State :=
  let (i, s1) := s.takeFree
  let good := min bs.length (f.addr.toNat - va)
  let n := (Config.freeWord i).toNat % (good + 1)
  match s1.frameWrite core w va (bs.take n) with
  | .ok s2 => s2
  | .error _ => s1

/-! ### The session table (R306) -/

/-- The 64 bytes of the entry of a session, read at an intermediate address; one at or above 2^48 fails with KIND 5 (R361, log 31). -/
def State.sessionEntry (s : State) (a : Accessor) (sid : Nat) : Except EngineFault (List Byte) :=
  let ia := bits (s.pav a.pav).stbase 47 12 * 4096 + 64 * sid
  match if ia ≥ 2 ^ 48 then .error (failCode 5 0 0 false) else s.stage2 a ia false with
  | .error c => .error (translationFault c 0)
  | .ok leaf =>
    let p : Piece := ⟨0, 64, ⟨leaf.addr, false, bits leaf.entry 55 48⟩⟩
    if s.piecePoisoned p then .error (poisonFault 0) else .ok (s.readPiece p)

/-- The number in some bytes of a record. -/
def fieldOf (bs : List Byte) (off n : Nat) : Nat := leNat ((bs.drop off).take n)

/-- The bytes of a frame in memory: 64 × S (R172, R305). -/
def areaBytes (ne : Nat) : Nat := (frameBytes ne + 63) / 64 * 64

/-- The area of a session and layer for a tenant (R306, R188). -/
def State.areaOf (s : State) (a : Accessor) (tenant sid layer : Nat) : Area :=
  match s.sessionEntry a sid with
  | .error f => .fault f
  | .ok e =>
    if fieldOf e 2 2 % 2 = 0 ∨ layer > fieldOf e 1 1 then .fault (frameFault 1)
    else if fieldOf e 0 1 ≠ tenant then .fault (frameFault 2)
    else
      let size := areaBytes (32 * (fieldOf e 4 4 % 2 ^ 13 + 1))
      .found ((fieldOf e 8 8 + 5 * size * layer) % 2 ^ 64) size

/-! ### Triggers (R171, R173, R174, R184) -/

/-- SLOT of a frame command word. -/
def cmdSlot (x : Word) : Nat := bits x 3 0
/-- The barrier of a frame command word, if there is one. -/
def cmdBar (x : Word) : Option Nat := if bit x 23 then none else some (16 * bits x 22 4)
/-- REC. -/
def cmdRec (x : Word) : Nat := bits x 25 24
/-- OPT. -/
def cmdOpt (x : Word) : Bool := bit x 26

/-- Whether a frame command word is refused for an operation (R171). -/
def badCmd (op : Op) (x : Word) : Bool :=
  bits x 63 27 != 0 ||
    (bits x 25 24 != 0 && !(decide (op = .snap) || decide (op = .fork) || decide (op = .roll))) ||
    (bit x 26 && !(decide (op = .roll) || decide (op = .fdrop))) || (decide (op = .fstat) && bits x 23 4 != 0)

/-- SID of a key word. -/
def keySid (k : Word) : Nat := bits k 15 0
/-- LAYER of a key word. -/
def keyLayer (k : Word) : Nat := bits k 23 16
/-- PSID of a key word. -/
def keyPsid (k : Word) : Nat := bits k 47 32
/-- NE of a placement word. -/
def placeNe (p : Word) : Nat := 32 * (bits p 19 7 + 1)
/-- The banks of a placement word. -/
def placeBanks (p : Word) : List Nat := frameBanks (bits p 6 0) (placeNe p)

/-- The cause that refuses a placement word (R184). -/
def Core.badPlace (k : Core) (op : Op) (p : Word) : Bool :=
  bits p 63 21 != 0 || (decide (op = .fork) && bit p 20) || (placeBanks p).any fun b => decide (b > 79) || !k.scratch b

/-- Whether an operation binds its slot. -/
def binds (op : Op) : Bool := decide (op = .fbind) || decide (op = .fork)

/-- Whether a frame is bound to a slot. -/
def Core.frameBound (k : Core) (i : Nat) : Bool := k.slots.any fun e => e.2.frame == some i

/-- Whether some bank of a list holds a frame that is bound to a slot (R174, R184). -/
def Core.onFrame (k : Core) (banks : List Nat) : Bool :=
  k.frames.any fun e => k.frameBound e.1 && (frameBanks e.2.bank e.2.ne).any banks.contains

/-- Whether some tile of a context of the core that spans one of some banks is filling, draining or being read (R149, R173). -/
def Core.tilesBusy (k : Core) (banks : List Nat) : Bool :=
  k.ctxs.any fun c => c.2.tiles.any fun t =>
    (t.2.stat.state == 1 || t.2.stat.state == 3 || t.2.stat.rcnt != 0) && (spanned t.2.desc).any banks.contains

/-- Whether the key word of an operation that has one is refused (R184). -/
def badKey (op : Op) (b : Word) : Bool :=
  let keyed := binds op || decide (op = .fswap)
  keyed && (bits b 31 24 != 0 || bits b 63 48 != 0 || (decide (op ≠ .fork) && keyPsid b != 0))

/-- The refusal of the barrier of a frame command word (R171, R220). -/
def State.cmdBarRefused (s : State) (l : Loc) (o : Opd) : Option Cause :=
  match cmdBar o.xw with
  | some i => if s.badBarrier l i then some 24 else none
  | none => none

/-- A queued frame operation (R171, R173, R183). DEDUCED (log 15): an operation that runs counts towards the sixteen of the queue. -/
def frameSem (op : Op) (latches : List (Nat × Width)) : OpSem :=
  { OpSem.base with
    latches := latches
    needs := fun v => decide (op ≠ .roll) || cmdOpt v.toWord
    outward := true
    encoding := fun s l o =>
      let k := s.core l.core
      if badCmd op o.xw || !s.mayName l (cmdSlot o.xw) || badKey op o.b || (decide (op = .roll) && cmdOpt o.xw && bits o.b 63 16 != 0) then
        some 19
      else if binds op && k.badPlace op o.c then some 20
      else s.cmdBarRefused l o
    parts :=
      [.enc [0] (fun s l o => if badCmd op o.xw || !s.mayName l (cmdSlot o.xw) then some 19 else none),
       .enc [1] (fun _ _ o => if badKey op o.b || (decide (op = .roll) && bits o.b 63 16 != 0) then some 19 else none),
       .enc [2] (fun s l o => if binds op && (s.core l.core).badPlace op o.c then some 20 else none),
       .enc [0] (fun s l o => s.cmdBarRefused l o),
       .seq [0] (fun s l o =>
        let bound := ((s.core l.core).slot (cmdSlot o.xw)).bound
        if binds op then (if bound then some 7 else none) else if bound then none else some 6),
       .seq [2] (fun s l o => if binds op && (s.core l.core).onFrame (placeBanks o.c) then some 8 else none)]
    sequence := fun s l o =>
      let k := s.core l.core
      let bound := (k.slot (cmdSlot o.xw)).bound
      if binds op then
        if bound then some 7
        else if k.onFrame (placeBanks o.c) then some 8
        else none
      else if bound then none else some 6
    blocks := fun s l o =>
      let k := s.core l.core
      let waits := match cmdBar o.xw with | some i => s.waitsBank l i | none => false
      decide (k.frq.length ≥ 16) || waits ||
        (if binds op then
          (placeBanks o.c).any (fun b => !k.heldBy (s.progOf l) b || k.frameHeld b) || k.tilesBusy (placeBanks o.c)
        else s.frameWaits l (cmdSlot o.xw) || decide ((k.slot (cmdSlot o.xw)).scnt > 0))
    act := fun s l o =>
      let n := cmdSlot o.xw
      let k := s.core l.core
      let f := k.slot n
      let new := k.frameId
      let fid := if binds op then new else f.frame.getD 0
      let fr : FrOp :=
        { id := s.opId, who := s.who l, op := op, cmd := o.xw, o1 := o.b, o2 := o.c, frame := fid, running := false, acts := true,
          area := .found 0 0, area2 := .found 0 0, gone := none }
      let k1 : Core :=
        if binds op then
          { k with
            frames := k.frames.set new
              { sid := keySid o.b, layer := keyLayer o.b, bank := bits o.c 6 0, ne := placeNe o.c, pos := 0, stag := 0, cow := false, vd := fr.who.bind.vd }
            frameId := new + 1
            slots := k.slots.set n { f with frame := some new, err := false, fcnt := f.fcnt + 1 } }
        else if op = .fdrop then { k with slots := k.slots.set n { f with frame := none, fcnt := f.fcnt + 1 } }
        else { k with slots := k.slots.set n { f with fcnt := f.fcnt + 1 } }
      ({ s with opId := s.opId + 1 } : State).setCore l.core { k1 with frq := k1.frq ++ [fr] } }

/-- FBIND. -/
def semFbind : OpSem := frameSem .fbind latch12
/-- FSWAP. -/
def semFswap : OpSem := frameSem .fswap latch1
/-- SNAP. -/
def semSnap : OpSem := frameSem .snap []
/-- FORK. -/
def semFork : OpSem := frameSem .fork latch12
/-- ROLL; its tag latch is consumed only with COND = 1. -/
def semRoll : OpSem := frameSem .roll latch1
/-- FDROP. -/
def semFdrop : OpSem := frameSem .fdrop []

/-- The FADED bit: some F[n] of a frame is 1 (R187). -/
def State.someFaded (s : State) (core : Nat) (a : Accessor) (f : Frame) : Bool :=
  (s.poolBytes core a (f.fAddr 0) (f.ne / 8)).any fun b => b != 0

/-- The word that FSTAT returns (R187). -/
def State.fstat (s : State) (core : Nat) (a : Accessor) (n : Nat) (sel : Word) : Word :=
  let k := s.core core
  let t := k.slot n
  let f := k.frameOf n
  let wsel := bits sel 1 0
  let n0 := bits sel 19 2
  if !t.bound then (if wsel = 0 then BitVec.ofNat 64 (b2n t.err * 4) else 0)
  else if wsel = 0 then
    BitVec.ofNat 64 (1 + b2n f.cow * 2 + b2n t.err * 4 + b2n (s.someFaded core a f) * 8 + min t.fcnt 15 * 2 ^ 4 +
      min t.scnt 15 * 2 ^ 8 + f.sid * 2 ^ 12 + f.layer * 2 ^ 28 + f.stag * 2 ^ 36 + f.bank * 2 ^ 52)
  else if wsel = 1 then BitVec.ofNat 64 (f.pos + f.ne * 2 ^ 32)
  else BitVec.ofNat 64 (bitsNat (fun i => decide (n0 + i < f.ne) && s.fadeBit core a f (n0 + i)) 0 64)

/-- FSTAT: the slot as it stands at the end of the bundle. -/
def semFstat : OpSem :=
  { OpSem.base with
    latches := latch1
    sel := some [.s]
    outward := true
    parts :=
      [.enc [0] (fun s l o => if badCmd .fstat o.xw || !s.mayName l (cmdSlot o.xw) then some 19 else none),
       .enc [1] (fun _ _ o => if bits o.b 63 20 != 0 || bits o.b 1 0 == 3 then some 19 else none)]
    encoding := fun s l o =>
      if badCmd .fstat o.xw || !s.mayName l (cmdSlot o.xw) || bits o.b 63 20 != 0 || bits o.b 1 0 == 3 then some 19 else none
    act := fun s l o =>
      let v := s.fstat l.core (s.accessor l) (cmdSlot o.xw) o.b
      let (id, s1) := s.startLong l o none
      s1.deliverLong l id 4 (some (.word v)) }

/-- FBIND (R184). -/
def execFbind (m : Mv) (s : State) : Host.Outcome State Fault Refusal :=
  runTrigger semFbind .fr .fbind m s

/-- FSWAP (R184). -/
def execFswap (m : Mv) (s : State) : Host.Outcome State Fault Refusal :=
  runTrigger semFswap .fr .fswap m s

/-- SNAP (R184). -/
def execSnap (m : Mv) (s : State) : Host.Outcome State Fault Refusal :=
  runTrigger semSnap .fr .snap m s

/-- FORK (R185). -/
def execFork (m : Mv) (s : State) : Host.Outcome State Fault Refusal :=
  runTrigger semFork .fr .fork m s

/-- ROLL (R186). -/
def execRoll (m : Mv) (s : State) : Host.Outcome State Fault Refusal :=
  runTrigger semRoll .fr .roll m s

/-- FDROP (R184). -/
def execFdrop (m : Mv) (s : State) : Host.Outcome State Fault Refusal :=
  runTrigger semFdrop .fr .fdrop m s

/-- FSTAT (R187). -/
def execFstat (m : Mv) (s : State) : Host.Outcome State Fault Refusal :=
  runTrigger semFstat .fr .fstat m s


/-! ### Starting (R183, R186, R306) -/

/-- The frame of an operation: as an earlier one left it that lost it, if one did. -/
def Core.frameFor (k : Core) (o : FrOp) : Frame := o.gone.getD (k.frames.getD o.frame .none)

/-- The (session, layer) pairs that an operation names (R183). -/
def Core.pairsOf (k : Core) (o : FrOp) : List (Nat × Nat) :=
  let f := k.frameFor o
  match o.op with
  | .fswap => [(f.sid, f.layer), (keySid o.o1, keyLayer o.o1)]
  | .fork => [(keySid o.o1, keyLayer o.o1), (keyPsid o.o1, keyLayer o.o1)]
  | .fbind => [(keySid o.o1, keyLayer o.o1)]
  | _ => [(f.sid, f.layer)]

/-- Whether two operations may not run together (R183). -/
def Core.conflicts (k : Core) (o p : FrOp) : Bool :=
  cmdSlot o.cmd == cmdSlot p.cmd || (k.pairsOf o).any (k.pairsOf p).contains

/-- Whether T is older than a tag (R186). -/
def younger (stag t : Nat) : Bool := let d := (stag + 65536 - t) % 65536; decide (1 ≤ d ∧ d ≤ 32767)

/-- The sectors of an operation's arrival (R184). -/
def FrOp.sectors (o : FrOp) (ne : Nat) : Nat :=
  let n := areaBytes ne / 64
  match o.op with
  | .fswap => 2 * n
  | .roll => if o.acts then n else 0
  | .fdrop => if cmdOpt o.cmd then n else 0
  | _ => n

/-- The frame engine starts the next operation of its queue (R183): the session table is read, ROLL makes its test, and its sectors
wait at the engine's arbiter (R372). -/
def State.startFrame (s : State) (core : Nat) : State :=
  let k := s.core core
  let running := k.frq.filter FrOp.running
  match k.frq.find? fun o => !o.running with
  | none => s
  | some o =>
    if running.length ≥ 4 ∨ running.any (k.conflicts o) then s
    else
      let a := o.who.accessor core
      let f := k.frameFor o
      let t := o.who.bind.tenant
      let area := s.areaOf a t f.sid f.layer
      let area2 :=
        match o.op with
        | .fswap => s.areaOf a t (keySid o.o1) (keyLayer o.o1)
        | .fork => s.areaOf a t (keyPsid o.o1) (keyLayer o.o1)
        | _ => .found 0 0
      let acts := !(decide (o.op = .roll) && cmdOpt o.cmd) || younger f.stag (bits o.o1 15 0)
      let o1 : FrOp := { o with running := true, acts := acts, area := area, area2 := area2 }
      let s1 := s.setCore core { k with frq := k.frq.map fun p => if p.id = o.id then o1 else p }
      if o1.sectors f.ne = 0 then s1 else s1.request (128 + core) a.pav a.vd (o1.sectors f.ne)

/-! ### Completion (R184 to R186, R188) -/

/-- A frame as it stands in the pool, with its header: the bytes of a home or record. -/
def State.frameImage (s : State) (core : Nat) (a : Accessor) (f : Frame) (tenant : Nat) : List Byte :=
  headerBytes f tenant ++ (s.poolBytes core a (65536 * f.bank + 64) (frameBytes f.ne - 64)) ++
    List.replicate (areaBytes f.ne - frameBytes f.ne) 0

/-- The bytes of a frame from memory put into its banks; each sector takes the key index of its page (R364). -/
def State.fillFrame (s : State) (core : Nat) (w : Who) (f : Frame) (ps : List Piece) (va : Nat) (bs : List Byte) : State :=
  ps.foldl (fun s p =>
    s.setPoolBytes core (w.accessor core) p.place.kidx (65536 * f.bank + (p.va - va)) ((bs.drop (p.va - va)).take p.len)) s

/-- A home or record loaded into a frame (R184 to R186, R305): POS, STAG, h, c and F come from it; SID and LAYER stand as the frame
has them. -/
def State.loadFrom (s : State) (core : Nat) (w : Who) (i : Nat) (f : Frame) (va : Nat) (cow : Bool) : Except EngineFault State :=
  match s.frameRead core w va (areaBytes f.ne) with
  | .error e => .error e
  | .ok (ps, bs) =>
    if fieldOf bs 3 1 % 2 = 0 then .error (frameFault 3)
    else if fieldOf bs 12 4 ≠ f.ne then .error (frameFault 4)
    else
      let g : Frame := { f with pos := fieldOf bs 4 4, stag := fieldOf bs 8 2, cow := cow }
      let img := headerBytes g (fieldOf bs 16 1) ++ bs.drop 64
      .ok (((s.touchRange (w.frameAccessor core) ps).fillFrame core w g ps va img).setFrame core i g)

/-- The home of a frame loaded: itself, or the parent's record that it refers to (R305). -/
def State.loadHome (s : State) (core : Nat) (w : Who) (i : Nat) (f : Frame) (va : Nat) : Except EngineFault State :=
  match s.frameRead core w va 64 with
  | .error e => .error e
  | .ok (_, h) =>
    let flags := fieldOf h 3 1
    if flags % 2 = 0 then .error (frameFault 3)
    else if flags / 2 % 2 = 1 then
      match s.areaOf (w.accessor core) w.bind.tenant (fieldOf h 17 2) f.layer with
      | .fault e => .error e
      | .found base size => s.loadFrom core w i f (base + size * (1 + fieldOf h 19 1)) true
    else s.loadFrom core w i f va false

/-- The base of the home of a child session that refers to a record (R185, R305). -/
def State.refersTo (s : State) (core : Nat) (w : Who) (sid layer rec0 child : Nat) : Option Nat :=
  match s.areaOf (w.accessor core) w.bind.tenant child layer with
  | .fault _ => none
  | .found base _ =>
    match s.frameRead core w base 64 with
    | .error _ => none
    | .ok (_, h) =>
      if fieldOf h 3 1 / 2 % 2 = 1 ∧ fieldOf h 17 2 = sid ∧ fieldOf h 19 1 = rec0 then some base else none

/-- A child's home that refers to a record: the private copy of the old record takes its place (R185); an empty record leaves an empty home. -/
def State.privateCopy (s : State) (core : Nat) (w : Who) (layer : Nat) (old : List Byte) (child base : Nat) : Except EngineFault State :=
  let img := leBytes 2 child ++ (old.drop 2).take 1 ++ leBytes 1 (fieldOf old 3 1 % 2) ++ (old.drop 4).take 13 ++
    List.replicate 3 0 ++ old.drop 20
  match s.frameWrite core w base img with
  | .error e => .error e
  | .ok s1 =>
    .ok { s1 with cores := s1.cores.map fun c =>
      if c.1 ∈ (s1.pav w.bind.pav).cores then
        (c.1, { c.2 with frames := c.2.frames.map fun f =>
          (f.1, if f.2.sid = child ∧ f.2.layer = layer then { f.2 with cow := false } else f.2) })
      else c }

/-- Every child whose home refers to a record gets a private copy of it before it is overwritten (R185): the state with the copies that
were made, and the failure that ended them. -/
def State.privateCopies (s : State) (core : Nat) (w : Who) (layer : Nat) (old : List Byte) :
    List (Nat × Nat) → State × Option EngineFault
  | [] => (s, none)
  | (child, base) :: rest =>
    match s.privateCopy core w layer old child base with
    | .error e => (s, some e)
    | .ok s1 => s1.privateCopies core w layer old rest

/-- What an operation leaves: the state and its failure, if it failed; `lost`: the frame is unbound and its banks are released. -/
structure FrameEnd where
  state : State
  fault : Option EngineFault
  lost : Bool

/-- A record left empty by a SNAP that failed (R188). -/
def State.emptyRecord (s : State) (core : Nat) (w : Who) (va : Nat) : State :=
  match s.frameWrite core w va (List.replicate 64 0) with
  | .ok s1 => s1
  | .error _ => s

/-- SNAP (R184, R185, R188): a failure leaves the record empty, and the private copies that were made stand. The old record is read only
where a child's home refers to it. -/
def State.doSnap (s : State) (core : Nat) (o : FrOp) (f : Frame) (base size : Nat) : FrameEnd :=
  let rec0 := cmdRec o.cmd
  let va := base + size * (1 + rec0)
  let children := (List.range 65536).filterMap fun c => (s.refersTo core o.who f.sid f.layer rec0 c).map fun b => (c, b)
  let (s1, bad) : State × Option EngineFault :=
    if children.isEmpty then (s, none)
    else
      match s.frameRead core o.who va size with
      | .error e => (s, some e)
      | .ok (_, old) => s.privateCopies core o.who f.layer old children
  match bad with
  | some e => ⟨s1.emptyRecord core o.who va, some e, false⟩
  | none =>
    match s1.frameWrite core o.who va (s1.frameImage core (o.who.accessor core) f o.who.bind.tenant) with
    | .ok s2 => ⟨s2, none, false⟩
    | .error e => ⟨s1.emptyRecord core o.who va, some e, false⟩

/-- FSWAP (R184, R188). -/
def State.doFswap (s : State) (core : Nat) (o : FrOp) (f : Frame) (base : Nat) : FrameEnd :=
  let img := s.frameImage core (o.who.accessor core) f o.who.bind.tenant
  match s.frameWrite core o.who base img with
  | .error e => ⟨s.partWritten core o.who base img e, some e, false⟩
  | .ok s1 =>
    let g : Frame := { f with sid := keySid o.o1, layer := keyLayer o.o1, cow := false, vd := o.who.bind.vd }
    let loaded : Except EngineFault State :=
      match o.area2 with
      | .fault e => .error e
      | .found base2 _ => s1.loadHome core o.who o.frame g base2
    match loaded with
    | .ok s2 => ⟨s2, none, false⟩
    | .error e => ⟨s1, some e, true⟩

/-- FORK (R185, R188): the slot is loaded from the parent's record; the child's home refers to it and its records are empty. -/
def State.doFork (s : State) (core : Nat) (o : FrOp) (f : Frame) (base size : Nat) : FrameEnd :=
  let rec0 := cmdRec o.cmd
  let psid := keyPsid o.o1
  let header := (headerBytes f o.who.bind.tenant).take 3 ++ leBytes 1 3 ++ ((headerBytes f o.who.bind.tenant).drop 4).take 13 ++
    leBytes 2 psid ++ leBytes 1 rec0 ++ List.replicate 44 0
  let empty (s : Except EngineFault State) (r : Nat) : Except EngineFault State :=
    match s with
    | .error e => .error e
    | .ok s1 => s1.frameWrite core o.who (base + size * (1 + r)) (List.replicate 64 0)
  let done : Except EngineFault State :=
    match o.area2 with
    | .fault e => .error e
    | .found pbase psize =>
      match s.loadFrom core o.who o.frame f (pbase + psize * (1 + rec0)) true with
      | .error e => .error e
      | .ok s1 => (List.range 4).foldl empty (s1.frameWrite core o.who base header)
  match done with
  | .ok s1 => ⟨s1, none, false⟩
  | .error e => ⟨s, some e, true⟩

/-- The effect of a frame operation (R184 to R186, R188). One whose frame an earlier operation lost fails with cause record empty, and is
a failure of its own session and layer (log 31). -/
def State.doFrame (s : State) (core : Nat) (o : FrOp) : FrameEnd :=
  let f := (s.core core).frameFor o
  let a := o.who.accessor core
  match o.area with
  | .fault e => ⟨s, some e, binds o.op || decide (o.op = .fdrop)⟩
  | .found base size =>
    if o.gone.isSome then
      ⟨if o.op = .snap then s.emptyRecord core o.who (base + size * (1 + cmdRec o.cmd)) else s, some (frameFault 3), false⟩
    else
    match o.op with
    | .fbind =>
      if bit o.o2 20 then
        match s.loadHome core o.who o.frame f base with
        | .ok s1 => ⟨s1, none, false⟩
        | .error e => ⟨s, some e, true⟩
      else
        let s1 := s.setPoolBytes core a (s.dev a.pav a.vd).kidx (65536 * f.bank + 64) (List.replicate (areaBytes f.ne - 64) 0)
        ⟨s1.writeHeader core o.who f, none, false⟩
    | .fswap => s.doFswap core o f base
    | .snap => s.doSnap core o f base size
    | .fork => s.doFork core o f base size
    | .roll =>
      if o.acts then
        match s.loadFrom core o.who o.frame f (base + size * (1 + cmdRec o.cmd)) f.cow with
        | .ok s1 => ⟨s1, none, false⟩
        | .error e => ⟨s, some e, false⟩
      else ⟨s, none, false⟩
    | .fdrop =>
      if cmdOpt o.cmd then
        match s.frameWrite core o.who base (s.frameImage core a f o.who.bind.tenant) with
        | .ok s1 => ⟨s1, none, true⟩
        | .error e => ⟨s, some e, true⟩
      else ⟨s, none, true⟩
    | _ => ⟨s, none, false⟩

/-- A running frame operation completes (R183, R184, R188): its effect, the release of its frame, FCNT and ERR of its slot, the fault
record and the arrival. -/
def State.completeFrame (s : State) (core id : Nat) : State :=
  match (s.core core).frq.find? fun o => o.id == id && o.running with
  | none => s
  | some o =>
    let f := (s.core core).frameFor o
    let e := s.doFrame core o
    let k := e.state.core core
    let n := cmdSlot o.cmd
    let t := k.slot n
    let lostAs : Frame := if o.op = .fswap then { f with sid := keySid o.o1, layer := keyLayer o.o1 } else f
    let t1 : FrameSlot :=
      { t with
        fcnt := t.fcnt - 1
        err := t.err || e.fault.isSome
        frame := if e.lost ∧ t.frame = some o.frame then none else t.frame }
    let s1 := e.state.setCore core
      { k with
        frq := (k.frq.filter fun p => p.id != id).map fun p =>
          if e.lost ∧ p.frame = o.frame ∧ p.gone.isNone then { p with gone := some lostAs } else p
        frames := if e.lost then k.frames.erase o.frame else k.frames
        slots := k.slots.set n t1 }
    let s2 :=
      match e.fault with
      | some f => s1.post o.who.bind.pav o.who.bind.vd ⟨3, f.cls, f.cause, core, o.who.ctx, n, 0, f.addr⟩
      | none => s1
    s2.arrival core (o.who.accessor core) (cmdBar o.cmd) (match e.fault with | some f => f.ecause | none => 0) (o.sectors f.ne)

/-- FRAME_OPERATION_START (R183). -/
def execFrameOperationStart (core : Nat) (s : State) : Host.Outcome State Fault Refusal := .next (s.startFrame core)
/-- FRAME_OPERATION_COMPLETION (R184). -/
def execFrameOperationCompletion (core op : Nat) (s : State) : Host.Outcome State Fault Refusal := .next (s.completeFrame core op)

end Sys2Proof.Machine
end

