-- ==== Sys2Proof/Machine/Copy.lean ====
section
/-!
DEFINITION. The copy channels cp0 and cp1 (R209 to R219): templates, the checks at a COPY trigger, patterns, sparse walks and records,
conversions (R58), cancellation, completion.
-/

namespace Sys2Proof.Machine

/-! ### Templates (R210 to R212) -/

/-- A copy template of a core. -/
def Core.template (k : Core) (n : Nat) : Template := k.templates.getD n .reset

/-- Slot j of a template image. -/
def imageSlot (img : List Cap) (j : Nat) : Cap := img.getD j ⟨0, false⟩

/-- The image of a template (R209). -/
def Template.image (t : Template) : List Cap := (List.range 8).map fun j => t.slots.getD j ⟨0, false⟩

/-- A template image with its displacements, field by field (R209, R212). -/
structure Shape where
  scap : Cap
  dcap : Cap
  skind : Nat
  dkind : Nat
  op : Nat
  esz : Nat
  sfmt : Byte
  dfmt : Byte
  conv : Bool
  nd : Nat
  stile : Nat
  dtile : Nat
  pad : Nat
  sbase : Nat
  dbase : Nat
  soff : Nat
  doff : Nat
  cnt : List Nat
  sdel : List Nat
  ddel : List Nat
  slim : List Nat

/-- The fields of a dimension's width, from dimension 0 on. -/
def dims (x : BitVec 128) (width nd : Nat) : List Nat := (List.range nd).map fun j => bits x (width * j + width - 1) (width * j)

/-- The shape of an image. -/
def shapeOf (img : List Cap) (disp : Word) : Shape :=
  let w (j : Nat) : BitVec 128 := (imageSlot img j).raw
  let nd := bits (w 2) 28 26 + 1
  { scap := imageSlot img 0, dcap := imageSlot img 1, skind := bits (w 2) 1 0, dkind := bits (w 2) 3 2, op := bits (w 2) 6 4,
    esz := 2 ^ bits (w 2) 8 7, sfmt := BitVec.ofNat 8 (bits (w 2) 16 9), dfmt := BitVec.ofNat 8 (bits (w 2) 24 17),
    conv := bit (w 2) 25, nd := nd, stile := bits (w 2) 34 29, dtile := bits (w 2) 40 35, pad := bits (w 2) 127 64,
    sbase := bits (w 3) 63 0, dbase := bits (w 3) 127 64, soff := bits disp 31 0, doff := bits disp 63 32,
    cnt := dims (w 4) 16 nd, sdel := dims (w 5) 24 nd, ddel := dims (w 6) 24 nd, slim := dims (w 7) 16 nd }

/-- A signed delta of 24 bits (R212). -/
def delta (d : Nat) : Int := (BitVec.ofNat 24 d).toInt

/-- The sum of products of indices and steps. -/
def dotSum : List Nat → List Int → Int
  | i :: is, d :: ds => Int.ofNat i * d + dotSum is ds
  | _, _ => 0

/-- The index tuples of counts, i0 fastest, in order (R213). -/
def tuples : List Nat → List (List Nat)
  | [] => [[]]
  | c :: cs => (tuples cs).flatMap fun t => (List.range c).map fun i => i :: t

/-- The source address of an index tuple on a memory or pool side, from the base (R213). -/
def Shape.srcAt (p : Shape) (t : List Nat) : Int := Int.ofNat (p.sbase + p.soff) + dotSum t (p.sdel.map delta)
/-- The destination address of an index tuple on a memory or pool side. -/
def Shape.dstAt (p : Shape) (t : List Nat) : Int := Int.ofNat (p.dbase + p.doff) + dotSum t (p.ddel.map delta)

/-- A row and column of a tile side: origin, displacement and steps, field by field (R209, R213). -/
def tilePlace (base off : Nat) (dels : List Nat) (t : List Nat) : Nat × Nat :=
  let sum (f : Nat → Nat) : Nat := (dotSum t (dels.map fun d => Int.ofNat (f d))).toNat
  (base % 4096 + off % 4096 + sum (fun d => d % 4096),
   base / 4096 % 4096 + off / 4096 % 4096 + sum (fun d => d / 4096 % 4096))

/-- The place of an index tuple on a source tile. -/
def Shape.srcPlace (p : Shape) (t : List Nat) : Nat × Nat := tilePlace p.sbase p.soff p.sdel t
/-- The place of an index tuple on a destination tile. -/
def Shape.dstPlace (p : Shape) (t : List Nat) : Nat × Nat := tilePlace p.dbase p.doff p.ddel t

/-- Whether an index tuple reads PAD (R213). -/
def padded : List Nat → List Nat → Bool
  | i :: is, l :: ls => (l != 0 && decide (i ≥ l)) || padded is ls
  | _, _ => false

/-- The counts of the indices that read the source (R214). -/
def readCounts (cnt slim : List Nat) : List Nat := (cnt.zip slim).map fun x => if x.2 = 0 then x.1 else min x.1 x.2

/-- The number of index tuples. -/
def product1 (cs : List Nat) : Nat := cs.foldl (· * ·) 1

/-- The lowest and the highest sum over index tuples below counts. -/
def extremes (base : Int) (cs : List Nat) (ds : List Int) : Int × Int :=
  (cs.zip ds).foldl (fun a x =>
    let v := x.2 * (Int.ofNat x.1 - 1)
    (a.1 + min 0 v, a.2 + max 0 v)) (base, base)

/-- The hull of a memory or pool side: its lowest address and the one after its highest byte; none without an element (R214). -/
def hull (base : Int) (cs : List Nat) (ds : List Int) (size : Nat) : Option (Int × Int) :=
  if product1 cs = 0 then none
  else let e := extremes base cs ds; some (e.1, e.2 + Int.ofNat size)

/-- The element size of a format descriptor (R58). -/
def fmtBytes (f : Byte) : Nat := if fmtKind f = 2 then 2 else if fmtKind f = 4 then 1 else 4

/-- The elements of records: 256 halves each (R218). -/
def Shape.records (p : Shape) : Nat := product1 p.cnt / 256

/-- The hull of the source side (R214, R217, R218); record sides count the 36 bytes that every record has (log 16). -/
def Shape.srcHull (p : Shape) (img : List Cap) : Option (Int × Int) :=
  if p.op = 1 then
    let f := bits (imageSlot img 4).raw 31 0
    let e := bits (imageSlot img 4).raw 63 32
    let b := Int.ofNat (p.sbase + p.soff)
    some (b + Int.ofNat (4 * min f e), b + Int.ofNat (4 * max f e) + 4)
  else if p.op = 3 then
    if product1 p.cnt = 0 then none
    else some (Int.ofNat (p.sbase + p.soff), Int.ofNat (p.sbase + p.soff + 36 * p.records))
  else hull (Int.ofNat (p.sbase + p.soff)) (if product1 p.cnt = 0 then [0] else readCounts p.cnt p.slim) (p.sdel.map delta) p.esz

/-- The size of a destination element. -/
def Shape.dsz (p : Shape) (df : Byte) : Nat := if p.conv then fmtBytes df else p.esz

/-- The hulls of the destination side (R214, R217, R218). -/
def Shape.dstHulls (p : Shape) (img : List Cap) (df : Byte) : List (Int × Int) :=
  if p.op = 1 then
    let n := bits (imageSlot img 4).raw 95 64
    let vbuf := bits (imageSlot img 6).raw 63 0
    let naddr := bits (imageSlot img 6).raw 127 64
    let ibuf := p.dbase + p.doff
    (if n = 0 then [] else [(Int.ofNat ibuf, Int.ofNat (ibuf + 4 * n)), (Int.ofNat vbuf, Int.ofNat (vbuf + p.esz * n))]) ++
      [(Int.ofNat naddr, Int.ofNat (naddr + 4))]
  else if p.op = 2 then
    if product1 p.cnt = 0 then [] else [(Int.ofNat (p.dbase + p.doff), Int.ofNat (p.dbase + p.doff + 36 * p.records))]
  else (hull (Int.ofNat (p.dbase + p.doff)) p.cnt (p.ddel.map delta) (p.dsz df)).toList

/-- The pool banks of a range of addresses; none where it leaves the pool. -/
def hullBanks (h : Int × Int) : Option (List Nat) :=
  if h.1 < 0 ∨ h.2 > 5242880 then none
  else some ((List.range ((h.2 - 1).toNat / 65536 + 1 - h.1.toNat / 65536)).map fun i => h.1.toNat / 65536 + i)

/-! ### The trigger (R209, R211, R214) -/

/-- The descriptor that a side's checks use: that of the tile's bank on a tile side (R213, R214). -/
def State.sideFmt (s : State) (l : Loc) (kind code : Nat) (f : Byte) : Byte :=
  if kind = 2 then (s.core l.core).fmtOf (dBank (s.tileRef l code .source).desc) else f

/-- Whether the bank of a tile side is held by a frame, so that its format descriptor is ignored (R174). -/
def State.sideHeld (s : State) (l : Loc) (kind code : Nat) : Bool :=
  kind == 2 && (s.core l.core).frameHeld (dBank (s.tileRef l code .source).desc)

/-- Whether the fields of an image are refused (R212, R217, R218): reserved codes, reserved bits, and fields that its OP never uses. A
side's tile code is a field of its OP whatever the side's kind; on a tile side SFMT or DFMT is ignored. -/
def Shape.badFields (p : Shape) (img : List Cap) : Bool :=
  let w (j : Nat) : BitVec 128 := (imageSlot img j).raw
  let csr := p.op == 1
  p.skind == 3 || p.dkind == 3 || decide (p.op > 3) || decide (p.nd > 5) || bits (w 2) 63 41 != 0 ||
    (p.skind == 2 && decide (p.stile ≥ 40)) || (p.dkind == 2 && decide (p.dtile ≥ 40)) ||
    (p.op != 0 && ((p.skind != 2 && p.sfmt != 0) || (p.dkind != 2 && p.dfmt != 0))) ||
    (if csr then
      p.dcap.raw != 0 || p.stile != 0 || p.dtile != 0 || p.skind != 0 || p.dkind != 1 || p.conv || p.nd != 1 || p.pad != 0 || bits (w 4) 127 96 != 0 || w 7 != 0
    else
      (w 4 >>> (16 * p.nd)) != 0 || (w 5 >>> (24 * p.nd)) != 0 || (w 6 >>> (24 * p.nd)) != 0 || (w 7 >>> (16 * p.nd)) != 0) ||
    (decide (p.op ≥ 2) &&
      (p.esz != 2 || p.conv || p.slim.any (fun x => x != 0) || product1 p.cnt % 256 != 0 || p.pad != 0 ||
        (if p.op = 2 then p.dkind == 2 || p.dtile != 0 || p.ddel.any (fun x => x != 0)
         else p.skind == 2 || p.stile != 0 || p.sdel.any fun x => x != 0)))

/-- Whether a tile side is refused (R209, R214): its displacement, its width against its format, unless a frame holds its bank, and its
width against ESZ. -/
def Shape.badTile (p : Shape) (d : Word) (f : Byte) (held : Bool) (off : Nat) : Bool :=
  decide (off ≥ 2 ^ 24) || (!held && (badFmt f || (fmtKind f != 0 && !ewAgrees (dEw d) (fmtKind f)))) ||
    (!p.conv && p.esz != dBytes d)

/-- The cause that refuses a COPY of a trigger value and a displacement (R214 step 1). -/
def State.copyCause (s : State) (l : Loc) (xw disp : Word) : Option Cause :=
  let img := ((s.core l.core).template (bits xw 5 0)).image
  let p := shapeOf img disp
  let sh := s.sideHeld l p.skind p.stile
  let dh := s.sideHeld l p.dkind p.dtile
  let sd := (s.tileRef l p.stile .drain).desc
  let dd := (s.tileRef l p.dtile .destination).desc
  let sf := s.sideFmt l p.skind p.stile p.sfmt
  let df := s.sideFmt l p.dkind p.dtile p.dfmt
  if bits xw 63 28 ≠ 0 ∨ bits xw 27 26 = 3 ∨ p.badFields img then some 23
  else if (p.skind = 2 ∧ p.stile ≥ 32) ∨ (p.dkind = 2 ∧ p.dtile ≥ 32) then some 12
  else if (p.skind == 2 && p.badTile sd sf sh p.soff) || (p.dkind == 2 && p.badTile dd df dh p.doff) then some 23
  else if p.conv && ((!sh && (badFmt sf || fmtKind sf == 0 || (fmtKind sf == 4 && p.skind != 2) || p.esz != fmtBytes sf)) ||
      (!dh && (badFmt df || fmtKind df == 0 || (fmtKind df == 4 && p.dkind != 2)))) then some 23
  else if !bit xw 25 && s.badBarrier l (16 * bits xw 24 6) then some 24
  else none

/-- The tiles of a COPY in their roles (R214 step 2). -/
def State.copyTiles (s : State) (l : Loc) (p : Shape) : List TileRef :=
  (if p.skind = 2 then [s.tileRef l p.stile .drain] else []) ++
    (if p.dkind = 2 then [s.tileRef l p.dtile .destination] else [])

/-- The pool hulls of a COPY. -/
def Shape.poolHulls (p : Shape) (img : List Cap) (df : Byte) : List (Int × Int) :=
  (if p.skind = 1 then (p.srcHull img).toList else []) ++ (if p.dkind = 1 then p.dstHulls img df else [])

/-- The CapCheck of the memory sides' hulls (R214 step 3). -/
def State.copyCapTrap (s : State) (l : Loc) (p : Shape) (img : List Cap) (df : Byte) : Option Trap :=
  let check (cap : Cap) (h : Int × Int) (need : Byte) : Option Trap :=
    let lo := Int.ofNat cap.base + h.1
    match capCheck cap lo (h.2 - h.1).toNat need (s.tenantOf l) false with
    | some c => some (capTrap c (addrWord lo))
    | none => none
  let a := if p.skind = 0 then (p.srcHull img).bind fun h => check p.scap h (grantRD ||| grantXT) else none
  match a with
  | some t => some t
  | none =>
    if p.dkind = 0 then
      match p.dstHulls img df with
      | h :: _ => check p.dcap h (grantWR ||| grantXT)
      | [] => none
    else none

/-- Whether a place lies outside a tile. -/
def outside (d : Word) (rc : Nat × Nat) : Bool := decide (rc.1 ≥ dRows d) || decide (rc.2 ≥ dCols d)

/-- The highest place that counts reach. -/
def lastPlace (place : List Nat → Nat × Nat) (cs : List Nat) : Nat × Nat := place (cs.map fun c => c - 1)

/-- Whether a converting copy does not cover a BPI destination in whole blocks (R59, R214); a dimension of one element moves nowhere. -/
def Shape.partialBlocks (p : Shape) (d : Word) : Bool :=
  let along (x : Nat) : Nat := if dKdim d then x / 4096 % 4096 else x % 4096
  let across (x : Nat) : Nat := if dKdim d then x % 4096 else x / 4096 % 4096
  let origin := p.dstPlace []
  match p.ddel, p.cnt with
  | d0 :: ds, c0 :: cs =>
    along d0 != 1 || across d0 != 0 || c0 % 32 != 0 || (if dKdim d then origin.2 else origin.1) % 32 != 0 ||
      p.slim.any (fun x => x != 0) || (ds.zip cs).any fun e => decide (e.2 > 1) && along e.1 % 32 != 0
  | _, _ => true

/-- The ECAUSE with which a COPY that has passed its checks is refused; 0 for none (R214). -/
def State.copyRefusal (s : State) (l : Loc) (p : Shape) (img : List Cap) : Nat :=
  let k := s.core l.core
  let sd := (s.tileRef l p.stile .drain).desc
  let dd := (s.tileRef l p.dtile .destination).desc
  let df := s.sideFmt l p.dkind p.dtile p.dfmt
  let some_ := product1 p.cnt != 0
  let rc := readCounts p.cnt p.slim
  let badBank (h : Int × Int) : Bool :=
    match hullBanks h with
    | none => true
    | some bs => bs.any fun b => !k.owns (s.progOf l) b || k.frameHeld b
  if p.op != 1 && some_ && p.conv && fmtKind df == 4 && p.partialBlocks dd then 3
  else if (p.poolHulls img df).any badBank then 4
  else if p.op != 1 && some_ && p.dkind == 2 && outside dd (lastPlace p.dstPlace p.cnt) then 3
  else if p.op != 1 && some_ && product1 rc != 0 && p.skind == 2 && outside sd (lastPlace p.srcPlace rc) then 3
  else 0

/-- The queue of a copy channel. -/
def Core.copies (k : Core) (ch : Nat) : List CpOp := if ch = 0 then k.cp0q else k.cp1q

/-- The queue of a copy channel changed. -/
def Core.setCopies (k : Core) (ch : Nat) (q : List CpOp) : Core := if ch = 0 then { k with cp0q := q } else { k with cp1q := q }

/-- The channel of a unit. -/
def channelOf (u : UnitId) : Nat := if u = .cp1 then 1 else 0

/-- The bytes that a copy is to write, as its trigger knows them (R215, R218). -/
def Shape.plannedBytes (p : Shape) (df : Byte) : Nat :=
  if p.op = 1 ∨ p.op = 2 then 0 else product1 p.cnt * p.dsz df

/-- COPY. -/
def semCopy : OpSem :=
  let shape (s : State) (l : Loc) (o : Opd) : Shape := shapeOf ((s.core l.core).template (bits o.xw 5 0)).image o.b
  let image (s : State) (l : Loc) (o : Opd) : List Cap := ((s.core l.core).template (bits o.xw 5 0)).image
  { OpSem.base with
    latches := latch1
    outward := true
    encoding := fun s l o => s.copyCause l o.xw o.b
    sequence := fun s l o => s.tilesTrap l (s.copyTiles l (shape s l o))
    parts :=
      [.enc [0] (fun s l o => s.copyCause l o.xw 0), .seq [0] (fun s l o => s.tilesTrap l (s.copyTiles l (shape s l o))),
       ⟨5, [0], fun s l o =>
        let t := (s.core l.core).template (bits o.xw 5 0)
        if t.owner.isNone || t.owner != s.progOf l then some (capTrap 4 0) else none⟩]
    capability := fun s l o =>
      let t := (s.core l.core).template (bits o.xw 5 0)
      let p := shape s l o
      if t.owner.isNone || t.owner != s.progOf l then some (capTrap 4 0)
      else s.copyCapTrap l p (image s l o) (s.sideFmt l p.dkind p.dtile p.dfmt)
    blocks := fun s l o =>
      let k := s.core l.core
      let p := shape s l o
      let df := s.sideFmt l p.dkind p.dtile p.dfmt
      let waits := (p.poolHulls (image s l o) df).any fun h =>
        match hullBanks h with
        | some bs => bs.any (k.pendingOn (s.progOf l))
        | none => false
      s.tilesBlock l (s.copyTiles l p) || waits || (!bit o.xw 25 && s.waitsBank l (16 * bits o.xw 24 6)) ||
        decide ((k.copies (channelOf o.unit)).length ≥ 16)
    act := fun s l o =>
      let p := shape s l o
      let img := image s l o
      let ts := s.copyTiles l p
      let op : CpOp :=
        { id := s.opId, who := s.who l, image := img, disp := o.b, x := o.xw, src := ts.find? fun t => decide (t.role = .drain),
          dst := ts.find? fun t => decide (t.role = .destination), refused := s.copyRefusal l p img, running := false, ecause := 0,
          flags := 0, bytes := p.plannedBytes (s.sideFmt l p.dkind p.dtile p.dfmt) }
      let s1 : State := { s with opId := s.opId + 1 }
      let k := s1.core l.core
      let ch := channelOf o.unit
      let s2 := (s1.setCore l.core (k.setCopies ch (k.copies ch ++ [op]))).enterTiles l ts
      let x := s2.ctx l
      let strm := bits o.xw 27 26
      s2.setCtx l
        (if strm = 1 then { x with qa := x.qa ++ [op.id] } else if strm = 2 then { x with qb := x.qb ++ [op.id] } else x) }

/-- The fault of a TWR of a template that another program owns (R211). -/
def State.twrFault (s : State) (l : Loc) (x : Word) : Option Trap :=
  let t := (s.core l.core).template (bits x 8 3)
  if t.owner.isSome && t.owner != s.progOf l then some (capTrap 4 0) else none

/-- A slot of a template written, its owner left (R210). -/
def State.writeTemplate (s : State) (l : Loc) (x : Word) (c : Cap) : State :=
  let k := s.core l.core
  let t := k.template (bits x 8 3)
  s.setCore l.core { k with templates := k.templates.set (bits x 8 3) { t with slots := t.slots.set (bits x 2 0) c } }

/-- TWR (R210, R211). A COPY in a higher slot is checked against the image that it is to take, with this slot written; whose the template
is, is decided before the bundle. -/
def semTwr : OpSem :=
  { OpSem.base with
    xw := .cap
    latches := [(2, .word)]
    outward := true
    encoding := fun _ _ o => if bits o.c 63 9 ≠ 0 then some 29 else none
    capability := fun s l o => s.twrFault l o.c
    parts := [.enc [2] (fun _ _ o => if bits o.c 63 9 ≠ 0 then some 29 else none), ⟨5, [2], fun s l o => s.twrFault l o.c⟩]
    preview := some fun s l o slot => if o.slot < slot then s.writeTemplate l o.c o.xc else s
    act := fun s l o =>
      let k := s.core l.core
      let n := bits o.c 8 3
      let t := k.template n
      s.setCore l.core
        { k with templates := k.templates.set n ⟨if t.owner.isNone then s.progOf l else t.owner, t.slots.set (bits o.c 2 0) o.xc⟩ } }

/-- COPY_CP0 (R209). -/
def execCopyCp0 (m : Mv) (s : State) : Host.Outcome State Fault Refusal :=
  runTrigger semCopy .cp0 .copy m s

/-- COPY_CP1 (R209). -/
def execCopyCp1 (m : Mv) (s : State) : Host.Outcome State Fault Refusal :=
  runTrigger semCopy .cp1 .copy m s

/-- TWR_CP0 (R210). -/
def execTwrCp0 (m : Mv) (s : State) : Host.Outcome State Fault Refusal :=
  runTrigger semTwr .cp0 .twr m s

/-- TWR_CP1 (R210). -/
def execTwrCp1 (m : Mv) (s : State) : Host.Outcome State Fault Refusal :=
  runTrigger semTwr .cp1 .twr m s


/-! ### Conversion (R58) -/

/-- An element as a value, with the flags of reading it: by its format kind. -/
def elemValue (kind : Nat) (raw : Nat) (bpi : Exact) : Fp × Nat :=
  if kind = 4 then (if bpi.bad then (.num false 0 0, flagBI) else (ofSigned bpi.mant bpi.exp, 0))
  else if kind = 3 then (ofSigned (BitVec.ofNat 32 raw).toInt 0, 0)
  else if kind = 2 then (unpack (ofB16 (BitVec.ofNat 16 raw)), 0)
  else (unpack (BitVec.ofNat 32 raw), 0)

/-- A value in a format: FP32 for BPI, which is quantised by blocks (R58). -/
def convertTo (sk dk : Nat) (raw : Nat) (bpi : Exact) : Nat × Nat :=
  let (v, fl) := elemValue sk raw bpi
  if sk = dk ∧ sk ≠ 4 then (raw, 0)
  else if dk = 2 then
    if sk = 1 then let r := toB16 (BitVec.ofNat 32 raw); (r.1.toNat, r.2)
    else
      match v with
      | .num n m e => let r := roundB16 n m e false; (r.1.toNat, fl ||| r.2)
      | _ => (0, fl)
  else if dk = 3 then
    let r := cvtInt true 32 v
    ((BitVec.ofInt 32 r.1).toNat, fl ||| r.2)
  else if sk = 1 then (raw, 0)
  else if sk = 2 then ((ofB16 (BitVec.ofNat 16 raw)).toNat, 0)
  else let r := roundFp v; (r.1.toNat, fl ||| r.2)

/-! ### The movement (R213, R216 to R218) -/

/-- A copy on its way: the state, its flags, its failure, the key index of the data, the bytes of its destination where a walk of data
decides them, and the values of a BPI block that is not full. -/
structure Flow where
  state : State
  flags : Nat
  fault : Option EngineFault
  key : Nat
  bytes : Nat
  block : List Lane
  first : Nat

/-- An element read from a memory side. -/
def State.memElem (s : State) (core : Nat) (w : Who) (va : Int) (n : Nat) : Except EngineFault (Nat × Nat × State) :=
  match s.engineRead core w va.toNat n with
  | .error e => .error e
  | .ok (ps, bs) =>
    .ok (leNat bs, (match ps with | p :: _ => p.place.kidx | [] => 0), s.touchRange (w.accessor core) ps)

/-- The own key index of who triggered an operation. -/
def State.ownKey (s : State) (w : Who) : Nat := (s.dev w.bind.pav w.bind.vd).kidx

/-- The source element of an index tuple: raw bits, its value if it is of BPI, its key index. -/
def State.copySource (s : State) (core : Nat) (o : CpOp) (p : Shape) (t : List Nat) : Except EngineFault (Nat × Exact × Nat × State) :=
  let a := o.who.accessor core
  let none_ : Exact := ⟨0, 0, false⟩
  if p.skind = 0 then
    match s.memElem core o.who (Int.ofNat p.scap.base + p.srcAt t) p.esz with
    | .error e => .error e
    | .ok (x, k, s1) => .ok (x, none_, k, s1)
  else if p.skind = 1 then .ok (s.poolNat core a (p.srcAt t).toNat p.esz, none_, s.ownKey o.who, s)
  else
    match o.src with
    | none => .ok (0, none_, s.ownKey o.who, s)
    | some r =>
      let e := elemNumber r.desc (p.srcPlace t).1 (p.srcPlace t).2
      if dEw r.desc = 0 then
        let (bank, b) := elemBlock r.desc e
        .ok ((s.bpiInt core a bank b (e % 32)).toNat, s.bpiElem core a r.desc e, s.ownKey o.who, s)
      else .ok (s.wordElem core a r.desc e, none_, s.ownKey o.who, s)

/-- PAD as a source element (R213): on a BPI side its low byte is q, decoded with code 0x7F at eight planes. -/
def padSource (p : Shape) (sf : Byte) : Nat × Exact :=
  (p.pad % 2 ^ (8 * p.esz), if fmtKind sf = 4 then decodeBpi (BitVec.ofNat 8 p.pad).toInt 0x7F 8 false else ⟨0, 0, false⟩)

/-- The integer q of an element of a BPI tile written into its planes; the scale code stays (R58). -/
def State.setBpiInt (s : State) (core : Nat) (a : Accessor) (key : Nat) (d : Word) (e : Nat) (q : BitVec 8) : State :=
  let (bank, b) := elemBlock d e
  let i := e % 32
  (List.range 8).foldl (fun s j =>
    let at_ := 65536 * bank + 32 * b + 4 * j + i / 8
    s.setPoolByte core a key at_ (putBit (s.poolByte core a at_) (i % 8) (bit q (7 - j)))) s

/-- A destination element of an index tuple written. -/
def State.copyDest (s : State) (core : Nat) (o : CpOp) (p : Shape) (t : List Nat) (size x key : Nat) : Except EngineFault State :=
  let a := o.who.accessor core
  if p.dkind = 0 then s.engineWrite core o.who (Int.ofNat p.dcap.base + p.dstAt t).toNat (leBytes size x)
  else if p.dkind = 1 then .ok (s.setPoolBytes core a key (p.dstAt t).toNat (leBytes size x))
  else
    match o.dst with
    | none => .ok s
    | some r =>
      let e := elemNumber r.desc (p.dstPlace t).1 (p.dstPlace t).2
      if dEw r.desc = 0 then .ok (s.setBpiInt core a key r.desc e (BitVec.ofNat 8 x))
      else .ok (s.setPoolBytes core a key (elemAddr r.desc e) (leBytes size x))

/-- One element of a pattern (R213); a BPI destination collects blocks of 32 (R59). -/
def Flow.element (core : Nat) (o : CpOp) (p : Shape) (sf df : Byte) (fl : Flow) (t : List Nat) : Flow :=
  match fl.fault with
  | some _ => fl
  | none =>
    let src : Except EngineFault (Nat × Exact × Nat × State) :=
      if padded t p.slim then let r := padSource p sf; .ok (r.1, r.2, fl.key, fl.state)
      else fl.state.copySource core o p t
    match src with
    | .error e => { fl with fault := some e }
    | .ok (raw, bpi, key, s1) =>
      if p.conv then
        let (x, f) := convertTo (fmtKind sf) (fmtKind df) raw bpi
        let fl1 : Flow := { fl with state := s1, flags := fl.flags ||| f, key := key }
        if fmtKind df = 4 then
          match o.dst with
          | none => fl1
          | some r =>
            let e := elemNumber r.desc (p.dstPlace t).1 (p.dstPlace t).2
            let vs := fl1.block ++ [BitVec.ofNat 32 x]
            let first := if fl1.block.isEmpty then e else fl1.first
            if vs.length = 32 then
              let (qs, code, f2) := quantise (vs.map unpack)
              let (bank, b) := elemBlock r.desc first
              { fl1 with
                state := s1.setBlock core (o.who.accessor core) key bank b qs code
                flags := fl1.flags ||| f2
                block := []
                first := 0 }
            else { fl1 with block := vs, first := first }
        else
          match s1.copyDest core o p t (fmtBytes df) x key with
          | .error e => { fl1 with fault := some e }
          | .ok s2 => { fl1 with state := s2 }
      else
        match s1.copyDest core o p t p.esz raw key with
        | .error e => { fl with state := s1, key := key, fault := some e }
        | .ok s2 => { fl with state := s2, key := key }

/-- Bytes written to a memory or pool range of the destination side; a pool byte goes under the key index that stands beside it (R364). -/
def State.copyBytes (s : State) (core : Nat) (o : CpOp) (p : Shape) (at_ : Int) (bs : List (Byte × Nat)) : Except EngineFault State :=
  if p.dkind = 0 then
    let lo := Int.ofNat p.dcap.base + at_
    match capCheck p.dcap lo bs.length (grantWR ||| grantXT) o.who.bind.tenant false with
    | some c => .error ⟨2, 4, c, addrWord lo⟩
    | none => s.engineWrite core o.who lo.toNat (bs.map Prod.fst)
  else
    match hullBanks (at_, at_ + Int.ofNat bs.length) with
    | none => .error ⟨4, 0, 0, 0⟩
    | some banks =>
      let k := s.core core
      if banks.any fun b => !k.owns (some o.who.bind.prog) b || k.frameHeld b then .error ⟨4, 0, 0, 0⟩
      else
        .ok ((bs.foldl (fun (r : State × Nat) x => (r.1.setPoolByte core (o.who.accessor core) x.2 r.2 x.1, r.2 + 1)) (s, at_.toNat)).1)

/-- Each byte of parts of lines with the key index of its own page (R364). -/
def keyedBytes : List Piece → List Byte → List (Byte × Nat)
  | [], _ => []
  | q :: ps, bs => (bs.take q.len).map (fun b => (b, q.place.kidx)) ++ keyedBytes ps (bs.drop q.len)

/-- Bytes read from a memory or pool range of the source side, each with its key index; the lines of memory go through L2 (R198). -/
def State.copyRead (s : State) (core : Nat) (o : CpOp) (p : Shape) (at_ : Int) (n : Nat) : Except EngineFault (List (Byte × Nat) × State) :=
  if p.skind = 0 then
    let lo := Int.ofNat p.scap.base + at_
    match capCheck p.scap lo n (grantRD ||| grantXT) o.who.bind.tenant false with
    | some c => .error ⟨2, 4, c, addrWord lo⟩
    | none =>
      match s.engineRead core o.who lo.toNat n with
      | .error e => .error e
      | .ok (ps, bs) => .ok (keyedBytes ps bs, s.touchRange (o.who.accessor core) ps)
  else
    match hullBanks (at_, at_ + Int.ofNat n) with
    | none => .error ⟨4, 0, 0, 0⟩
    | some banks =>
      let k := s.core core
      if banks.any fun b => !k.owns (some o.who.bind.prog) b || k.frameHeld b then .error ⟨4, 0, 0, 0⟩
      else .ok ((s.poolBytes core (o.who.accessor core) at_.toNat n).map fun b => (b, s.ownKey o.who), s)

/-- The ranges of the column and the value arrays of a walk, which are checked once its rows are known (R217). -/
def Shape.walkFault (p : Shape) (o : CpOp) (a m : Nat) : Option EngineFault :=
  let check (at_ n : Nat) : Option EngineFault :=
    (capCheck p.scap (Int.ofNat (p.scap.base + at_)) n (grantRD ||| grantXT) o.who.bind.tenant false).map fun c =>
      ⟨2, 4, c, addrWord (Int.ofNat (p.scap.base + at_))⟩
  let w := (imageSlot o.image 5).raw
  if m = 0 then none
  else
    match check (bits w 63 0 + 4 * a) (4 * m) with
    | some f => some f
    | none => check (bits w 127 64 + p.esz * a) (p.esz * m)

/-- Entry e of a walk whose first entry is a: its column, then its value (R217). -/
def Flow.walkEntry (core : Nat) (o : CpOp) (p : Shape) (a : Nat) (fl : Flow) (e : Nat) : Flow :=
  let w (j : Nat) : BitVec 128 := (imageSlot o.image j).raw
  let move (fl : Flow) (at_ n dst : Nat) : Flow :=
    match fl.fault with
    | some _ => fl
    | none =>
      match fl.state.copyRead core o p (Int.ofNat at_) n with
      | .error f => { fl with fault := some f }
      | .ok (bs, s0) =>
        match s0.copyBytes core o p (Int.ofNat dst) bs with
        | .error f => { fl with state := s0, fault := some f }
        | .ok s1 => { fl with state := s1 }
  move (move fl (bits (w 5) 63 0 + 4 * (a + e)) 4 (p.dbase + p.doff + 4 * e))
    (bits (w 5) 127 64 + p.esz * (a + e)) p.esz (bits (w 6) 63 0 + p.esz * e)

/-- The sparse-row walk (R217), entry by entry: what it has written stands when an entry fails (R216). -/
def State.csrWalk (s : State) (core : Nat) (o : CpOp) (p : Shape) : Flow :=
  let w := (imageSlot o.image 4).raw
  let first := bits w 31 0
  let endRow := bits w 63 32
  let ptrs := p.sbase + p.soff
  let start : Flow := ⟨s, 0, none, s.ownKey o.who, 0, [], 0⟩
  let finish (s : State) (n a : Nat) : Flow :=
    let m := min n (bits w 95 64)
    let fl := { start with state := s, bytes := m * (4 + p.esz) + 4 }
    match p.walkFault o a m with
    | some f => { fl with fault := some f }
    | none =>
      let fl1 := (List.range m).foldl (Flow.walkEntry core o p a) fl
      match fl1.fault with
      | some _ => fl1
      | none =>
        match fl1.state.copyBytes core o p (Int.ofNat (bits (imageSlot o.image 6).raw 127 64))
            ((leBytes 4 n).map fun b => (b, s.ownKey o.who)) with
        | .error f => { fl1 with fault := some f }
        | .ok s1 => { fl1 with state := s1 }
  if endRow ≤ first then finish s 0 0
  else
    match s.copyRead core o p (Int.ofNat (ptrs + 4 * first)) 4 with
    | .error e => { start with fault := some e }
    | .ok (x, s1) =>
      match s1.copyRead core o p (Int.ofNat (ptrs + 4 * endRow)) 4 with
      | .error e => { start with state := s1, fault := some e }
      | .ok (y, s2) =>
        let b := leNat (y.map Prod.fst)
        let a := leNat (x.map Prod.fst)
        if b < a then { start with state := s2, fault := some ⟨3, 0, 0, 0⟩ } else finish s2 (b - a) a

/-- The bytes of the record of 256 halves with their key indexes: a half's own page, and the first half's for the header and the mask. -/
def keyedRecord (hs : List (BitVec 16 × Nat)) : List (Byte × Nat) :=
  let bs := recordOf (hs.map Prod.fst)
  let own := (hs.map Prod.snd).headD 0
  bs.zip (List.replicate 36 own ++ ((hs.filter fun h => h.1 != 0).flatMap fun h => [h.2, h.2]) ++ List.replicate bs.length own)

/-- The halves of a run of index tuples with their key indexes (R218), read one after the other. -/
def State.copyHalves (s : State) (core : Nat) (o : CpOp) (p : Shape) : List (List Nat) → Except EngineFault (List (BitVec 16 × Nat) × State)
  | [] => .ok ([], s)
  | t :: ts =>
    match s.copySource core o p t with
    | .error e => .error e
    | .ok (x, _, key, s1) =>
      match s1.copyHalves core o p ts with
      | .error e => .error e
      | .ok (hs, s2) => .ok ((BitVec.ofNat 16 x, key) :: hs, s2)

/-- Compress: each run of 256 halves of the source becomes one record (R218). -/
def Flow.compress (core : Nat) (o : CpOp) (p : Shape) (fl : Flow) : List (List (List Nat)) → Flow
  | [] => fl
  | run :: runs =>
    match fl.fault with
    | some _ => fl
    | none =>
      match fl.state.copyHalves core o p run with
      | .error e => { fl with fault := some e }
      | .ok (hs, s0) =>
        let rec0 := keyedRecord hs
        match s0.copyBytes core o p (Int.ofNat (p.dbase + p.doff + fl.bytes)) rec0 with
        | .error e => { fl with state := s0, fault := some e }
        | .ok s1 => Flow.compress core o p { fl with state := s1, bytes := fl.bytes + rec0.length } runs

/-- The key index under which each of 256 halves of a record is written: that of its value's page, or of the mask's for a zero. -/
def expandKeys (mask : Nat) : Nat → Nat → List Nat → Nat → List Nat
  | _, 0, _, _ => []
  | i, n + 1, keys, own =>
    if mask / 2 ^ i % 2 = 1 then keys.headD own :: expandKeys mask (i + 1) n (keys.drop 2) own
    else own :: expandKeys mask (i + 1) n keys own

/-- Expand: each record gives 256 halves along the destination pattern (R218). `first` is the offset of the next record. -/
def Flow.expand (core : Nat) (o : CpOp) (p : Shape) (fl : Flow) : List (List (List Nat)) → Flow
  | [] => fl
  | run :: runs =>
    match fl.fault with
    | some _ => fl
    | none =>
      let at_ := Int.ofNat (p.sbase + p.soff + fl.first)
      match fl.state.copyRead core o p at_ 36 with
      | .error e => { fl with fault := some e }
      | .ok (h, s0) =>
        let mask := leNat ((h.map Prod.fst).drop 4)
        let n := onesBelow mask 256
        let vals : Except EngineFault (List (Byte × Nat) × State) :=
          if n = 0 then .ok ([], s0) else s0.copyRead core o p (at_ + 36) (2 * n)
        match vals with
        | .error e => { fl with state := s0, fault := some e }
        | .ok (bs, s2) =>
          let hs := (expandHalves mask 0 256 (bytesHalves 256 (bs.map Prod.fst))).zip
            (expandKeys mask 0 256 (bs.map Prod.snd) ((h.map Prod.snd).headD 0))
          let fl1 := (run.zip hs).foldl (fun (f : Flow) x =>
            match f.fault with
            | some _ => f
            | none =>
              match f.state.copyDest core o p x.1 2 x.2.1.toNat x.2.2 with
              | .error e => { f with fault := some e }
              | .ok s1 => { f with state := s1 }) { fl with state := s2 }
          Flow.expand core o p { fl1 with first := fl1.first + recordSize n } runs

/-- A list in runs of 256. -/
def runs256 {α : Type} : Nat → List α → List (List α)
  | 0, _ => []
  | n + 1, xs => xs.take 256 :: runs256 n (xs.drop 256)

/-- What a copy does when it runs (R213, R217, R218). -/
def State.runCopy (s : State) (core : Nat) (o : CpOp) : Flow :=
  let p := shapeOf o.image o.disp
  let k := s.core core
  let sf := match o.src with | some r => k.fmtOf (dBank r.desc) | none => p.sfmt
  let df := match o.dst with | some r => k.fmtOf (dBank r.desc) | none => p.dfmt
  let start : Flow := ⟨s, 0, none, s.ownKey o.who, o.bytes, [], 0⟩
  if p.op = 1 then s.csrWalk core o p
  else if p.op = 2 then Flow.compress core o p { start with bytes := 0 } (runs256 p.records (tuples p.cnt))
  else if p.op = 3 then Flow.expand core o p start (runs256 p.records (tuples p.cnt))
  else (tuples p.cnt).foldl (Flow.element core o p sf df) start

/-- A copy of a channel changed. -/
def State.setCopy (s : State) (core ch : Nat) (o : CpOp) : State :=
  let k := s.core core
  s.setCore core (k.setCopies ch ((k.copies ch).map fun p => if p.id = o.id then o else p))

/-- A channel begins its next copy (R215, R216): an error stops its writing and posts a fault record. -/
def State.beginCopy (s : State) (core ch : Nat) : State :=
  match (s.core core).copies ch with
  | o :: _ =>
    if o.running then s
    else if o.refused ≠ 0 then s.setCopy core ch { o with running := true, ecause := o.refused }
    else
      let fl := s.runCopy core o
      let s1 :=
        match fl.fault with
        | some f =>
          if f.cls = 0 then fl.state
          else fl.state.post o.who.bind.pav o.who.bind.vd ⟨1 + ch, f.cls, f.cause, core, o.who.ctx, bits o.x 5 0, 0, f.addr⟩
        | none => fl.state
      s1.setCopy core ch
        { o with
          running := true
          ecause := match fl.fault with | some f => f.ecause | none => 0
          flags := fl.flags
          bytes := fl.bytes }
  | [] => s

/-- The barrier of a copy, if there is one. -/
def CpOp.bar (o : CpOp) : Option Nat := if bit o.x 25 then none else some (16 * bits o.x 24 6)

/-- The arrival of a copy (R215, R222, R324): the phase that it arrives in remembers its context and region. -/
def State.copyArrival (s : State) (core : Nat) (o : CpOp) (cause : Nat) : State :=
  match o.bar with
  | none => s
  | some i =>
    let a := o.who.accessor core
    let q := (s.barrier core a i).phase
    let s1 := s.arrival core a (some i) cause ((o.bytes + 63) / 64)
    let k := s1.core core
    s1.setCore core { k with arrived := k.arrived ++ [(i, q, 4 * core + o.who.ctx, o.who.region)] }

/-- The copy's number leaves the stream banks of its context. -/
def State.leaveStreams (s : State) (core : Nat) (o : CpOp) : State :=
  let l : Loc := ⟨core, o.who.ctx⟩
  let x := s.ctx l
  s.setCtx l { x with qa := x.qa.filter (· != o.id), qb := x.qb.filter (· != o.id) }

/-- A copy completes (R215): tiles, flags and the arrival together. -/
def State.completeCopy (s : State) (core ch id : Nat) : State :=
  match ((s.core core).copies ch).find? fun o => o.id == id && o.running with
  | none => s
  | some o =>
    let k := s.core core
    let s1 := s.setCore core (k.setCopies ch ((k.copies ch).filter fun p => p.id != id))
    let s2 :=
      match o.dst with
      | some t => s1.onTile core o.who t.code fun st => if o.ecause = 0 then { st with state := 2 } else { st with state := 0, err := true }
      | none => s1
    let s3 := match o.src with | some t => s2.onTile core o.who t.code fun st => { st with state := 2 } | none => s2
    let l : Loc := ⟨core, o.who.ctx⟩
    let s4 := if s3.progOf l = some o.who.bind.prog then s3.onView l false fun w => w.raise o.flags else s3
    (s4.copyArrival core o o.ecause).leaveStreams core o

/-! ### Cancellation (R219) -/

/-- Free bytes for a range (R219, log 7). -/
def freeBytes (i n : Nat) : List Byte := (List.range n).map fun j => Config.freeByte (i + j)

/-- The bytes of a cancelled copy's destination hull become free values. -/
def State.scramble (s : State) (core : Nat) (o : CpOp) : State :=
  let p := shapeOf o.image o.disp
  let k := s.core core
  let df := match o.dst with | some r => k.fmtOf (dBank r.desc) | none => p.dfmt
  let a := o.who.accessor core
  let put (s : State) (h : Int × Int) : State :=
    let n := (h.2 - h.1).toNat
    let bs := freeBytes s.freeCtr n
    let s1 : State := { s with freeCtr := s.freeCtr + n }
    if p.dkind = 0 then
      match s1.engineWrite core o.who (Int.ofNat p.dcap.base + h.1).toNat bs with
      | .ok s2 => s2
      | .error _ => s1
    else s1.setPoolBytes core a (s1.ownKey o.who) h.1.toNat bs
  match o.dst with
  | none => (p.dstHulls o.image df).foldl put s
  | some r =>
    let es := (tuples p.cnt).map fun t => elemNumber r.desc (p.dstPlace t).1 (p.dstPlace t).2
    match es with
    | [] => s
    | e :: rest =>
      let lo := rest.foldl min e
      let hi := rest.foldl max e
      if dEw r.desc = 0 then
        (List.range (hi / 32 + 1 - lo / 32)).foldl (fun s i =>
          let (bank, b) := elemBlock r.desc (32 * (lo / 32 + i))
          put (put s (Int.ofNat (65536 * bank + 32 * b), Int.ofNat (65536 * bank + 32 * b + 32)))
            (Int.ofNat (65536 * bank + 63488 + b), Int.ofNat (65536 * bank + 63488 + b + 1))) s
      else put s (Int.ofNat (elemAddr r.desc lo), Int.ofNat (elemAddr r.desc hi + dBytes r.desc))

/-- A copy cancelled (R219): its tile becomes empty without ERR, a source tile is ready again, its arrival has no error. -/
def State.cancelCopy (s : State) (core ch : Nat) (o : CpOp) : State :=
  let s0 := if o.refused = 0 then s.scramble core o else s
  let k := s0.core core
  let s1 := s0.setCore core (k.setCopies ch ((k.copies ch).filter fun p => p.id != o.id))
  let s2 := match o.dst with | some t => s1.onTile core o.who t.code fun st => { st with state := 0 } | none => s1
  let s3 := match o.src with | some t => s2.onTile core o.who t.code fun st => { st with state := 2 } | none => s2
  (s3.copyArrival core o 0).leaveStreams core o

/-- The copies of a channel with some numbers cancelled. -/
def State.cancelIn (s : State) (core ch : Nat) (ids : List Nat) : State :=
  (((s.core core).copies ch).filter fun o => ids.contains o.id).foldl (fun s o => s.cancelCopy core ch o) s

/-- The copies with some numbers cancelled. -/
def State.cancelCopies (s : State) (core : Nat) (ids : List Nat) : State := (s.cancelIn core 0 ids).cancelIn core 1 ids

/-- COPY_BEGIN (R215). -/
def execCopyBegin (core ch : Nat) (s : State) : Host.Outcome State Fault Refusal := .next (s.beginCopy core ch)
/-- COPY_COMPLETION (R215). -/
def execCopyCompletion (core ch op : Nat) (s : State) : Host.Outcome State Fault Refusal := .next (s.completeCopy core ch op)

end Sys2Proof.Machine
end

