-- ==== Sys2Proof/Machine/Queues.lean ====
section
/-!
DEFINITION. Barriers tb (R220 to R222), queues (R223 to R225), ring queues (R226), stream selection (R219) and device-side launches
(R228) of the unit qs.
-/

namespace Sys2Proof.Machine

/-! ### Barriers -/

/-- A barrier operation (R220, R221): its latch, its selector, whether its latch word is refused, what else it waits for, and its
effect on the barrier at x. -/
def barrierSem (sel : Option (List RFile)) (bad : Word → Bool) (waits : Barrier → Word → Bool)
    (act : State → Loc → Opd → Barrier → State) : OpSem :=
  { OpSem.base with
    latches := latch1
    sel := sel
    outward := true
    encoding := fun s l o => if s.badBarrier l o.xw.toNat then some 24 else if bad o.b then some 29 else none
    parts :=
      [.enc [0] (fun s l o => if s.badBarrier l o.xw.toNat then some 24 else none),
       .enc [1] (fun _ _ o => if bad o.b then some 29 else none)]
    blocks := fun s l o => s.waitsBank l o.xw.toNat || waits (s.barrier l.core (s.accessor l) o.xw.toNat) o.b
    act := fun s l o => act s l o (s.barrier l.core (s.accessor l) o.xw.toNat) }

/-- BINIT. -/
def semBinit : OpSem :=
  barrierSem none (fun b => decide (bits b 63 56 ≠ 0) || decide (bits b 23 0 = 0)) (fun _ _ => false) fun s l o _ =>
    let n := bits o.b 23 0
    let m := bits o.b 55 24
    let s1 := s.setBarrier l.core (s.accessor l) o.xw.toNat ⟨0, false, 0, n, m, n, m⟩
    let k := s1.core l.core
    s1.setCore l.core { k with arrived := k.arrived.filter fun e => e.1 != o.xw.toNat }

/-- BARR. -/
def semBarr : OpSem :=
  barrierSem none (fun b => decide (bits b 63 32 ≠ 0)) (fun _ _ => false) fun s l o b =>
    s.moveBarrier l.core (s.accessor l) o.xw.toNat b (b.arrive (bits o.b 31 0))

/-- The copies that completed a phase of a barrier are acquired (R222, R324). -/
def State.acquireCopies (s : State) (l : Loc) (i q : Nat) : State :=
  ((s.core l.core).arrived.filter fun e => e.1 == i && e.2.1 == q).foldl (fun s e =>
    s.onView l false fun v =>
      { v with acquired := v.acquired.set e.2.2.1 (newest (v.acquired.find? e.2.2.1) e.2.2.2) }) s

/-- BWAIT: the bundle issues only when the phase is another. -/
def semBwait : OpSem :=
  barrierSem none (fun b => decide (bits b 63 4 ≠ 0)) (fun b q => decide (b.phase = q.toNat)) fun s l o _ =>
    s.acquireCopies l o.xw.toNat o.b.toNat

/-- BTEST: the low half of the barrier, or for a predicate whether the phase is another. -/
def semBtest : OpSem :=
  barrierSem (some [.p, .s]) (fun b => decide (bits b 63 4 ≠ 0)) (fun _ _ => false) fun s l o b =>
    let toPred := match o.dest with | some (.p, _) => true | _ => false
    s.result l o 2 (.word (if toPred then boolWord (decide (b.phase ≠ o.b.toNat)) else BitVec.ofNat 64 b.low))

/-- Counts of a barrier raised (R221). -/
def Barrier.expect (b : Barrier) (a n : Nat) : Barrier :=
  let b1 := if b.arr + a ≥ 2 ^ 24 ∨ b.sec + n ≥ 2 ^ 32 then b.fail 7 else b
  { b1 with arr := min (b.arr + a) (2 ^ 24 - 1), sec := min (b.sec + n) (2 ^ 32 - 1) }

/-- BEXP. -/
def semBexp : OpSem :=
  barrierSem none (fun b => decide (bits b 63 56 ≠ 0)) (fun _ _ => false) fun s l o b =>
    s.setBarrier l.core (s.accessor l) o.xw.toNat (b.expect (bits o.b 23 0) (bits o.b 55 24))

/-- BINIT (R221). -/
def execBinit (m : Mv) (s : State) : Host.Outcome State Fault Refusal :=
  runTrigger semBinit .tb .binit m s

/-- BARR (R221). -/
def execBarr (m : Mv) (s : State) : Host.Outcome State Fault Refusal :=
  runTrigger semBarr .tb .barr m s

/-- BWAIT (R221). -/
def execBwait (m : Mv) (s : State) : Host.Outcome State Fault Refusal :=
  runTrigger semBwait .tb .bwait m s

/-- BTEST (R221). -/
def execBtest (m : Mv) (s : State) : Host.Outcome State Fault Refusal :=
  runTrigger semBtest .tb .btest m s

/-- BEXP (R221). -/
def execBexp (m : Mv) (s : State) : Host.Outcome State Fault Refusal :=
  runTrigger semBexp .tb .bexp m s


/-! ### Queues -/

/-- A queue of a core (R223). -/
def Core.queue (k : Core) (n : Nat) : Queue := k.queues.getD n .reset

/-- A queue of a core changed. -/
def State.setQueue (s : State) (core n : Nat) (q : Queue) : State :=
  let k := s.core core
  s.setCore core { k with queues := k.queues.set n q }

/-- The capacity of a queue. -/
def Queue.capacity (q : Queue) : Nat := 2 ^ q.lcap

/-- The pool address of an entry by its index from the oldest. -/
def Queue.entryAddr (q : Queue) (i : Nat) : Nat := 8 * q.base8 + 8 * ((q.head + i) % q.capacity)

/-- The banks of the storage of a queue. -/
def storageBanks (base8 lcap : Nat) : List Nat :=
  let lo := 8 * base8 / 65536
  let hi := (8 * base8 + 8 * 2 ^ lcap - 1) / 65536
  (List.range (hi + 1 - lo)).map fun i => lo + i

/-- The task of a context. -/
def State.taskOf (s : State) (l : Loc) : Option Task :=
  match (s.ctx l).binding with
  | some b => (s.core l.core).table.find? fun t => t.id == b.task
  | none => none

/-- The gang of a context (R280). -/
def State.gangOf (s : State) (l : Loc) : Option Nat := (s.taskOf l).bind Task.gang

/-- Whether a context may name a queue (R224, R281): its gang holds it, or no gang holds it and its program owns it. -/
def State.mayQueue (s : State) (l : Loc) (q : Queue) : Bool :=
  match q.gang with
  | some g => s.gangOf l == some g
  | none => q.owner.isSome && q.owner == s.progOf l

/-- The sequence trap of a queue that is disabled or not the context's (R224, R225, R281). -/
def State.queueTrap (s : State) (l : Loc) (n : Nat) : Option Cause :=
  let q := (s.core l.core).queue n
  if q.en && s.mayQueue l q then none else some 10

/-- Whether a bank of a queue's storage is still waited for (R299): by the program, or for a pipe by member 0 of its gang, whose number is the
gang's (R280, R281). -/
def State.queueWaits (s : State) (l : Loc) (n : Nat) : Bool :=
  let q := (s.core l.core).queue n
  let holder := match q.gang with | some g => some g | none => s.progOf l
  (storageBanks q.base8 q.lcap).any fun b => (s.core l.core).pendingOn holder b

/-- An acquire of a release that a context made as it ended a region (R324, third row). -/
def State.acquireStamp (s : State) (l : Loc) (stamp : Nat × Nat) : State :=
  let theirs := (s.ctx (locOf stamp.1)).cur.acquired
  s.onView l false fun v => v.acquireFrom l.phys stamp.1 stamp.2 theirs

/-- QPUT. -/
def semQput : OpSem :=
  { OpSem.base with
    latches := latch1
    sel := some [.p, .s]
    outward := true
    encoding := fun _ _ o => if bits o.b 63 4 ≠ 0 then some 29 else none
    sequence := fun s l o => s.queueTrap l o.b.toNat
    parts :=
      [.enc [1] (fun _ _ o => if bits o.b 63 4 ≠ 0 then some 29 else none), .seq [1] (fun s l o => s.queueTrap l o.b.toNat)]
    blocks := fun s l o => s.queueWaits l o.b.toNat
    act := fun s l o =>
      let n := o.b.toNat
      let q := (s.core l.core).queue n
      if q.count = q.capacity then s.result l o 2 (.word 1)
      else
        let s1 := s.setPoolNat l.core (s.accessor l) (q.entryAddr q.count) 8 o.xw.toNat
        let s2 := s1.setQueue l.core n { q with count := q.count + 1, stamps := q.stamps ++ [s.stampOf l] }
        (s2.release l).result l o 2 (.word 0) }

/-- QGET. -/
def semQget : OpSem :=
  { OpSem.base with
    sel := some [.s]
    outward := true
    encoding := fun _ _ o => if bits o.xw 63 4 ≠ 0 then some 29 else none
    sequence := fun s l o => s.queueTrap l o.xw.toNat
    parts :=
      [.enc [0] (fun _ _ o => if bits o.xw 63 4 ≠ 0 then some 29 else none), .seq [0] (fun s l o => s.queueTrap l o.xw.toNat)]
    blocks := fun s l o => s.queueWaits l o.xw.toNat || decide (((s.core l.core).queue o.xw.toNat).count = 0)
    act := fun s l o =>
      let n := o.xw.toNat
      let q := (s.core l.core).queue n
      let v := s.poolNat l.core (s.accessor l) (q.entryAddr 0) 8
      let s1 := s.setQueue l.core n { q with head := (q.head + 1) % q.capacity, count := q.count - 1, stamps := q.stamps.drop 1 }
      let s2 := match q.stamps with | st :: _ => s1.acquireStamp l st | [] => s1
      let (id, s3) := s2.startLong l o none
      s3.deliverLong l id 3 (some (.word (BitVec.ofNat 64 v))) }

/-- QSEL: one stream bank is cancelled, both are then empty (R219). -/
def semQsel : OpSem :=
  { OpSem.base with
    sel := some [.s]
    outward := true
    act := fun s l o =>
      let x := s.ctx l
      let ids := if truth o.xw then x.qb else x.qa
      let s1 := s.cancelCopies l.core ids
      (s1.setCtx l { s1.ctx l with qa := [], qb := [] }).result l o 1 (.word (BitVec.ofNat 64 ids.length)) }

/-! ### Ring queues (R226, R369) -/

/-- Whether a pavilion is joined across the ring-extension ports on this side (R369). -/
def State.joined (s : State) (pav : Nat) : Bool := bit s.oper.rxcfg 0 && bit s.oper.rxcfg 3 && bits s.oper.rxcfg 7 4 == pav

/-- The relative index that core j of the package across port 1 has after the cores of a joined pavilion of this one (R369). -/
def State.relativeAcross (s : State) (pav j : Nat) : Nat := (s.pav pav).cores.length + j

/-- The core that a direction of travel leads to from a core of a pavilion; 128 across a ring-extension port, and none across a port
that the far side has not joined. While both ports carry the promenade the hop between cores 127 and 0 leaves the package (R14), so the
wrap of a pavilion that is not joined leads across such a port too (log 31). -/
def State.neighbour (s : State) (pav core dir : Nat) : Option Nat :=
  let cs := (s.pav pav).cores
  let i := position core cs
  let edge := if dir = 0 then i + 1 == cs.length else i == 0
  let far := s.joined pav && (if dir = 0 then s.oper.far1 else s.oper.far0)
  if edge && bit s.oper.rxcfg 0 && (s.joined pav || decide (1 < cs.length)) then (if far then some 128 else none)
  else some (cs.getD ((if dir = 0 then i + 1 else i + cs.length - 1) % cs.length) core)

/-- The cycles of one hop from a core (R12). -/
def hopTime (core dir : Nat) : Nat := if (if dir = 0 then core else (core + 127) % 128) % 64 = 63 then 20 else 4

/-- The cycles of the way from a core to another in a direction, of at most a number of hops (R12); 4 to itself (R226). -/
def pathTime (dst dir : Nat) : Nat → Nat → Nat
  | 0, _ => 0
  | n + 1, core =>
    let next := if dir = 0 then (core + 1) % 128 else (core + 127) % 128
    hopTime core dir + if next = dst then 0 else pathTime dst dir n next

/-- The cycles between the port of a direction's output and a core, which the way to core 127 or from it takes ascending, and that to
core 0 or from it descending; bridge 0 lies on it for a core of the other die (R12, R14). -/
def portTime (core : Nat) (last : Bool) : Nat :=
  if last then 4 * (127 - core) + (if core ≤ 63 then 16 else 0) else 4 * core + (if core ≥ 64 then 16 else 0)

/-- The travel time of a ring message: to the port where it leaves the package, or from the port that it came by (R12, R14). -/
def ringTime (src dst dir : Nat) : Nat :=
  if dst = src then 4
  else if dst = 128 then portTime src (dir == 0)
  else if src = 128 then portTime dst (dir != 0)
  else pathTime dst dir 128 src

/-- The core before the crossing of bridge 1 in a direction (R12). -/
def bridgeCore (dir : Nat) : Nat := if dir = 0 then 127 else 0

/-- Whether the way from a core to another in a direction crosses bridge 1 (R12). -/
def crossesBridge (src dst dir : Nat) : Bool := decide (src < 128) && decide (dst < 128) && (if dir = 0 then decide (dst < src) else decide (src < dst))

/-- The cycles from a core to the core before the crossing of bridge 1 (R12). -/
def bridgeTime (src dir : Nat) : Nat := portTime src (dir == 0)

/-- RPUT. -/
def semRput : OpSem :=
  { OpSem.base with
    latches := latch1
    sel := some [.p, .s]
    outward := true
    encoding := fun _ _ o => if bits o.b 63 4 ≠ 0 then some 29 else none
    parts := [.enc [1] fun _ _ o => if bits o.b 63 4 ≠ 0 then some 29 else none]
    act := fun s l o =>
      let a := s.accessor l
      let dir := bits o.b 0 0
      let ch := bits o.b 3 1
      let k := s.core l.core
      let used := k.spent.getD (8 * dir + ch) 0
      match s.neighbour a.pav l.core dir with
      | none => s.result l o 2 (.word 1)
      | some dst =>
        if used ≥ 16 then s.result l o 2 (.word 1)
        else
          let m : RingMsg :=
            { id := s.opId, src := l.core, dst := dst, dir := dir, ch := ch, data := o.xw, vd := a.vd, waiting := dst != l.core,
              held := crossesBridge l.core dst dir, stamp := s.stampOf l
              wait := 1 + if crossesBridge l.core dst dir then bridgeTime l.core dir else ringTime l.core dst dir }
          let s1 : State := { s with opId := s.opId + 1, messages := s.messages ++ [m] }
          ((s1.setCore l.core { k with spent := k.spent.set (8 * dir + ch) (used + 1) }).release l).result l o 2 (.word 0) }

/-- RGET. -/
def semRget : OpSem :=
  { OpSem.base with
    sel := some [.s]
    outward := true
    encoding := fun _ _ o => if bits o.xw 63 4 ≠ 0 then some 29 else none
    parts := [.enc [0] fun _ _ o => if bits o.xw 63 4 ≠ 0 then some 29 else none]
    blocks := fun s l o => ((s.core l.core).ring.getD (8 * bits o.xw 0 0 + bits o.xw 3 1) []).isEmpty
    act := fun s l o =>
      let key := 8 * bits o.xw 0 0 + bits o.xw 3 1
      let k := s.core l.core
      match k.ring.getD key [] with
      | [] => s
      | m :: rest =>
        let s1 := s.setCore l.core { k with ring := k.ring.set key rest }
        let s2 : State :=
          if m.src = 128 then s1
          else { (s1.acquireStamp l m.stamp) with credits := s1.credits ++ [⟨m.src, m.dir, m.ch, 1 + ringTime m.src l.core m.dir⟩] }
        let (id, s3) := s2.startLong l o none
        s3.deliverLong l id 3 (some (.word m.data)) }

/-- Whether the hop over a ring-extension port can take a packet of a direction, out of the package or into it, in this cycle (R14). -/
def State.portTakes (s : State) (dir way : Nat) : Bool := decide (s.portLoad.getD (2 * dir + way) 0 < cycleTime s.oper.cur)

/-- The hop over a ring-extension port takes a packet: of 224 GB/s, its 16 bytes take three forty-seconds of a nanosecond (R14, R381). -/
def State.loadPort (s : State) (dir way : Nat) : State :=
  { s with portLoad := s.portLoad.set (2 * dir + way) (s.portLoad.getD (2 * dir + way) 0 + 3) }

/-- A ring message reaches the receive queue of its direction and channel (R226), after every message sent before it from the same
sender to the same receiver in the same direction (R13). A message across a ring-extension port needs its link (R369) and room on its hop (R14): ascending travel
leaves through port 1, and its credit stays spent until one comes in by the port (log 31). -/
def State.deliverMessage (s : State) (id : Nat) : State :=
  match s.messages.find? fun m => m.id == id with
  | none => s
  | some m =>
    if m.waiting || m.held || decide (m.wait > 0) || s.messages.any (fun e => decide (e.id < m.id) && e.src == m.src && e.dst == m.dst && e.dir == m.dir) then s
    else
      let s1 : State := { s with messages := s.messages.filter fun e => e.id != id }
      let up := bit s.oper.rxcfg 0 && bit s.oper.rxcfg (if m.dir = 0 then 2 else 1)
      if m.dst = 128 then (if up && s.portTakes m.dir 0 then s1.loadPort m.dir 0 else s)
      else
        let k := s1.core m.dst
        let key := 8 * m.dir + m.ch
        s1.setCore m.dst { k with ring := k.ring.set key (k.ring.getD key [] ++ [m]) }

/-- The core to which what comes in by a port goes (R369): a message to the core of pavilion JPAV that its direction reaches first, a credit to
the sender. -/
def State.portGoal (s : State) : PortInput → Nat
  | .message dir _ _ =>
    let cs := (s.pav (bits s.oper.rxcfg 7 4)).cores
    if dir = 0 then cs.headD 0 else cs.getLastD 127
  | .credit core _ _ => core

/-- A message that has come in by a port from the joined package (R369), where the port's link is up: it is on its way to its core, in the
containers that leave the cores from the port on (R12, R381). -/
def State.portMessage (s : State) (dir ch : Nat) (data : Word) : State :=
  let dst := s.portGoal (.message dir ch data)
  let way := ringTime 128 dst dir
  if s.joined (bits s.oper.rxcfg 7 4) && bit s.oper.rxcfg (if dir = 0 then 1 else 2) then
    { s with
      opId := s.opId + 1
      messages := s.messages ++
        [{ id := s.opId, src := 128, dst := dst, dir := dir, ch := ch, data := data, vd := 0, waiting := false, held := false, stamp := (0, 0),
           wait := if way = 0 then 0 else 1 + way }] }
  else s

/-- What has come in by a port enters the promenade. A credit comes after the RGET of the joined package (R226, R369) and has the way from
the port to its sender before it; the model is told when it comes, and holds the credit spent until then (log 31). -/
def State.portEnters (s : State) : PortInput → State
  | .message dir ch data => s.portMessage dir ch data
  | .credit core dir ch => { s with credits := s.credits ++ [⟨core, dir, ch, ringTime core 128 dir⟩] }

/-- What comes in by a port enters if its hop can take it in this cycle (R14), and waits there if not; a credit is no packet (R226). -/
def State.takePort (s : State) (p : PortInput) : State :=
  match p with
  | .message dir _ _ => if s.portTakes dir 1 then (s.portEnters p).loadPort dir 1 else { s with portIn := s.portIn ++ [p] }
  | .credit _ _ _ => s.portEnters p

/-- A core takes what has come in by the ports for it. -/
def State.takePorts (s : State) (core : Nat) : State :=
  (s.portIn.filter fun p => s.portGoal p == core).foldl State.takePort { s with portIn := s.portIn.filter fun p => s.portGoal p != core }

/-- A credit arrives back at the sender (R226). -/
def State.returnCredit (s : State) (core dir ch : Nat) : State :=
  if s.credits.contains ⟨core, dir, ch, 0⟩ then
    let k := s.core core
    let key := 8 * dir + ch
    ({ s with credits := s.credits.erase ⟨core, dir, ch, 0⟩ } : State).setCore core
      { k with spent := k.spent.set key (k.spent.getD key 0 - 1) }
  else s

/-! ### Launches (R228, R265) -/

/-- VDCFG.LSTORE (R349). -/
def Dev.lstore (d : Dev) : Nat := bits d.vdcfg 33 25

/-- The completion places that admitted work of a device holds (R353): its tasks, its walks and its waiting entries. -/
def State.placesHeld (s : State) (pav vd : Nat) : Nat :=
  (s.dev pav vd).entries.length +
    ((s.pav pav).cores.map fun c =>
      ((s.core c).table.filter fun t => t.vd == vd).length +
        (match (s.core c).walker with | some w => b2n (w.vd == vd) | none => 0)).sum

/-- Whether a device accepts no further launch (R265, R353): its store is full, or all its 256 + LSTORE completion places are held. -/
def State.storeFull (s : State) (pav vd : Nat) : Bool :=
  let d := s.dev pav vd
  decide (d.launches.length ≥ d.lstore) || decide (d.launches.length + s.placesHeld pav vd ≥ 256 + d.lstore)

/-- LAUNCH. -/
def semLaunch : OpSem :=
  { OpSem.base with
    xw := .cap
    latches := latch1
    sel := some [.p, .s]
    outward := true
    encoding := fun _ _ o => if bits o.b 63 4 ≠ 0 then some 29 else none
    parts := [.enc [1] fun _ _ o => if bits o.b 63 4 ≠ 0 then some 29 else none]
    capability := fun s l o =>
      let c := o.xc
      match capCheck c (Int.ofNat c.base) 64 grantRD (s.tenantOf l) false with
      | some e => some (capTrap e (BitVec.ofNat 64 c.base))
      | none => if c.base % 64 ≠ 0 then some (capTrap 6 (BitVec.ofNat 64 c.base)) else none
    act := fun s l o =>
      let a := s.accessor l
      let d := s.dev a.pav a.vd
      if s.storeFull a.pav a.vd then s.after l o 2 (.launchFull :: o.resultEffs (.word 1) none)
      else
        let e : Launch :=
          { id := s.opId, queue := o.b.toNat, record := none, tagged := false, stamp := some (s.stampOf l), core := l.core,
            ctx := l.ctx, addr := BitVec.ofNat 64 o.xc.base, walk := none }
        let s1 := ({ s with opId := s.opId + 1 } : State).setDev a.pav a.vd { d with launches := d.launches ++ [e] }
        (s1.release l).result l o 2 (.word 0) }

/-- QPUT (R225). -/
def execQput (m : Mv) (s : State) : Host.Outcome State Fault Refusal :=
  runTrigger semQput .qs .qput m s

/-- QGET (R225). -/
def execQget (m : Mv) (s : State) : Host.Outcome State Fault Refusal :=
  runTrigger semQget .qs .qget m s

/-- QSEL (R219). -/
def execQsel (m : Mv) (s : State) : Host.Outcome State Fault Refusal :=
  runTrigger semQsel .qs .qsel m s

/-- RPUT (R226). -/
def execRput (m : Mv) (s : State) : Host.Outcome State Fault Refusal :=
  runTrigger semRput .qs .rput m s

/-- RGET (R226). -/
def execRget (m : Mv) (s : State) : Host.Outcome State Fault Refusal :=
  runTrigger semRget .qs .rget m s

/-- LAUNCH (R228). -/
def execLaunch (m : Mv) (s : State) : Host.Outcome State Fault Refusal :=
  runTrigger semLaunch .qs .launch m s


/-- The record of a reserved launch is read (R228): an error drops the launch and posts a fault record of ORIGIN 4 (R399). -/
def State.readLaunch (s : State) (pav vd id : Nat) : State :=
  let d := s.dev pav vd
  match d.launches.find? fun e => e.id == id && e.record.isNone with
  | none => s
  | some e =>
    let w : Accessor := ⟨e.core, pav, vd, false⟩
    let fail (cls cause : Nat) : State :=
      (s.setDev pav vd { d with launches := d.launches.filter fun f => f.id != id }).post pav vd
        ⟨4, cls, cause, e.core, e.ctx, 0, 0, e.addr⟩
    match s.range w e.addr.toNat 64 false with
    | .error (c, _) => fail 5 c
    | .ok ps =>
      let (bs, bad) := s.readRange ps
      if bad then fail 11 1
      else
        let tag := match ps with | p :: _ => s.tagOf [Piece.sub p 32 16] | [] => false
        (s.touchRange w ps).setDev pav vd
          { d with launches := d.launches.map fun f => if f.id = id then { f with record := some bs, tagged := tag } else f }

/-- RING_MESSAGE_DELIVERY (R226). -/
def execRingMessageDelivery (msg : Nat) (s : State) : Host.Outcome State Fault Refusal := .next (s.deliverMessage msg)
/-- CREDIT_RETURN (R226). -/
def execCreditReturn (core dir ch : Nat) (s : State) : Host.Outcome State Fault Refusal := .next (s.returnCredit core dir ch)
/-- LAUNCH_RECORD_READ (R228). -/
def execLaunchRecordRead (pav vd entry : Nat) (s : State) : Host.Outcome State Fault Refusal := .next (s.readLaunch pav vd entry)

end Sys2Proof.Machine
end

