-- ==== Sys2Proof/Machine/Integrator.lean ====
section
/-!
DEFINITION. The integrator array dd (R230 to R242): grants and relative numbers, trellis entries, steps and overruns, step-clock
domains, the queue of R238, and records in the pool.
-/

namespace Sys2Proof.Machine

/-! ### Grants and domains (R230, R237) -/

/-- The set bits of the low eight bits of a number. -/
def bitCount8 (n : Nat) : Nat := ((List.range 8).filter fun i => n / 2 ^ i % 2 == 1).length

/-- NC: the cells of a context (R230). -/
def View.cellCount (w : View) : Nat := 64 * bitCount8 (bits w.ctl.ddgrant 7 0)
/-- ND: the domains of a context (R230). -/
def View.domainCount (w : View) : Nat := bitCount8 (bits w.ctl.ddgrant 15 8)

/-- DOMCLK of a relative domain. -/
def View.clk (w : View) (d : Nat) : Word := w.ctl.domclk.getD d 0
/-- DOMCNT of a relative domain. -/
def View.count (w : View) (d : Nat) : Word := w.ctl.domcnt.getD d 0
/-- DOMCLK.RUN. -/
def View.runs (w : View) (d : Nat) : Bool := bit (w.clk d) 16
/-- DOMCLK.MODE of a running domain. -/
def View.stepped (w : View) (d : Nat) : Bool := w.runs d && bit (w.clk d) 17

/-- A relative domain's RUN, MODE, STEPS and REM changed. -/
def View.setDomain (w : View) (d : Nat) (run mode : Bool) (steps rem : Nat) : View :=
  let clk := setBits 0x30000 (w.clk d) (BitVec.ofNat 64 (b2n run * 2 ^ 16 + b2n mode * 2 ^ 17))
  let cnt := BitVec.ofNat 64 (steps % 2 ^ 32 + rem % 2 ^ 16 * 2 ^ 32)
  { w with ctl := { w.ctl with domclk := w.ctl.domclk.set d clk, domcnt := w.ctl.domcnt.set d cnt } }

/-- DDSTAT bits raised (R236). -/
def View.ddRaise (w : View) (b : Nat) : View :=
  { w with ctl := { w.ctl with ddstat := w.ctl.ddstat ||| BitVec.ofNat 64 b } }

/-- A cell of a context by its relative number. -/
def Ctx.cell (x : Ctx) (n : Nat) : Cell := x.cells.getD n .reset

/-- A cell changed. -/
def State.setCell (s : State) (l : Loc) (n : Nat) (c : Cell) : State :=
  let x := s.ctx l
  s.setCtx l { x with cells := x.cells.set n c }

/-! ### Trellis entries (R232, R233) -/

/-- W of a cell. -/
def cellW (w0 : Word) : Nat := bits w0 4 0 + 8
/-- M of a cell. -/
def cellM (w0 : Word) : Nat := 2 ^ bits w0 9 5
/-- DOM of a cell. -/
def cellDom (w0 : Word) : Nat := bits w0 12 10
/-- EN of a cell. -/
def cellEn (w0 : Word) : Bool := bit w0 13

/-- A source descriptor (R232). -/
structure Desc where
  cell : Nat
  neg : Bool
  kind : Nat
  deriving DecidableEq, Repr

/-- The descriptor in 12 bits. -/
def descOf (n : Nat) : Desc := ⟨n % 512, decide (n / 512 % 2 = 1), n / 1024 % 4⟩

/-- XS of an entry. -/
def xSource (w0 : Word) : Desc := descOf (bits w0 27 16)
/-- YS0 to YS3 of an entry. -/
def ySources (w1 : Word) : List Desc := (List.range 4).map fun j => descOf (bits w1 (12 * j + 11) (12 * j))

/-- Whether PATCH refuses an entry (R233). -/
def badTrellis (w0 w1 : Word) (nc nd : Nat) : Bool :=
  let x := xSource w0
  let ys := ySources w1
  let bad (d : Desc) : Bool := if d.kind = 1 then decide (d.cell ≥ nc) else decide (d.cell ≠ 0)
  bits w0 63 28 != 0 || bits w0 15 14 != 0 || bits w1 63 48 != 0 || decide (bits w0 4 0 > 24) || bits w0 9 5 == 0 ||
    decide (bits w0 9 5 > cellW w0) || decide (cellDom w0 ≥ nd) || (x :: ys).any bad || (ys.any fun d => d.kind == 3) ||
    decide (((x :: ys).filter fun d => d.kind == 2).length > 1)

/-- Whether an enabled cell of a domain names a source of another domain (R234). -/
def Ctx.badDomain (x : Ctx) (d : Nat) : Bool :=
  (List.range x.cur.cellCount).any fun n =>
    let c := x.cell n
    cellEn c.w0 && cellDom c.w0 == d &&
      (xSource c.w0 :: ySources c.w1).any fun e => e.kind == 1 && cellDom (x.cell e.cell).w0 != d

/-! ### The step (R234) -/

/-- A number saturated to W bits, and whether it saturated. -/
def satTo (w : Nat) (x : Int) : Int × Bool :=
  let lo : Int := -(2 ^ (w - 1))
  let hi : Int := 2 ^ (w - 1) - 1
  if x < lo then (lo, true) else if x > hi then (hi, true) else (x, false)

/-- The sign of a number. -/
def signOf (x : Int) : Int := if x > 0 then 1 else if x < 0 then -1 else 0

/-- The increment that a descriptor supplies to a cell. -/
def Ctx.sourceOf (x : Ctx) (c : Cell) (d : Desc) : Int :=
  let v : Int := if d.kind = 1 then (x.cell d.cell).out else if d.kind = 2 then signOf c.j else if d.kind = 3 then 1 else 0
  if d.neg then -v else v

/-- A cell after a step, and whether its integrand saturated. -/
def Ctx.stepCell (x : Ctx) (c : Cell) : Cell × Bool :=
  let dx := x.sourceOf c (xSource c.w0)
  let dy := ((ySources c.w1).map (x.sourceOf c)).foldl (· + ·) 0
  let m : Int := Int.ofNat (cellM c.w0)
  let t := Int.ofNat c.r + dx * c.y
  let o : Int := if dx = 0 then 0 else if t ≥ m then 1 else if t < 0 then -1 else 0
  let r := if dx = 0 then c.r else (t - o * m).toNat
  let (y, sat) := satTo (cellW c.w0) (c.y + dy)
  let injects := (xSource c.w0 :: ySources c.w1).any fun d => d.kind == 2
  ({ c with y := y, r := r, out := o, j := if injects then c.j - signOf c.j else c.j, cnt := c.cnt + BitVec.ofInt 32 o }, sat)

/-- The enabled cells of a domain, in ascending number. -/
def Ctx.domainCells (x : Ctx) (d : Nat) : List Nat :=
  (List.range x.cur.cellCount).filter fun n => cellEn (x.cell n).w0 && cellDom (x.cell n).w0 == d

/-- The lowest cell of a domain that overruns (R235). -/
def Ctx.overrunCell (x : Ctx) (d : Nat) : Option Nat :=
  (x.domainCells d).find? fun n =>
    let c := x.cell n
    x.sourceOf c (xSource c.w0) != 0 && decide (c.y.natAbs ≥ cellM c.w0)

/-! ### The queue (R238, R240) -/

/-- Whether an operation is STEP or START. -/
def startsRun (op : Op) : Bool := decide (op = .step) || decide (op = .start)

/-- The operations of a context in the queue. -/
def State.ddOf (s : State) (l : Loc) : List DdOp := (s.core l.core).ddq.filter fun o => o.who.ctx == l.ctx

/-- Whether a domain of a context runs, or is to run by an operation that stands before in the queue (R238). -/
def State.domainBusy (s : State) (l : Loc) (d : Nat) : Bool :=
  (s.ctx l).cur.runs d || (s.ddOf l).any fun o => startsRun o.op && o.x.toWord.toNat == d

/-- A domain stops (R237, R238): its STEP run is over and REM is discarded. -/
def State.stopDomain (s : State) (l : Loc) (d : Nat) : State :=
  let w := (s.ctx l).cur
  let s1 := s.onView l false fun v => v.setDomain d false (bit (w.clk d) 17) (bits (w.count d) 31 0) 0
  let k := s1.core l.core
  s1.setCore l.core { k with ddq := k.ddq.map fun o =>
    if o.who.ctx = l.ctx then { o with bounds := o.bounds.filter (· != d), runs := o.runs.filter (· != d) } else o }

/-- A read of a cell by an operation (R241). -/
def readCell (op : Op) (c : Cell) : Lane :=
  match op with
  | .gety => BitVec.ofInt 32 c.y
  | .getr => BitVec.ofNat 32 c.r
  | _ => c.cnt

/-- A cell operation acts on one cell: the cell, the DDSTAT bits it raises (R241). -/
def DdOp.onCell (o : DdOp) (lane_ : Nat) (c : Cell) : Cell × Nat :=
  let v := (lane o.x.toVec lane_)
  match o.op with
  | .sety => if bit o.lanes lane_ then let r := satTo (cellW c.w0) v.toInt; ({ c with y := r.1 }, b2n r.2) else (c, 0)
  | .setr => if bit o.lanes lane_ then ({ c with r := v.toNat % cellM c.w0 }, 0) else (c, 0)
  | .inject => if bit o.lanes lane_ then let r := satTo 16 (c.j + v.toInt); ({ c with j := r.1 }, 2 * b2n r.2) else (c, 0)
  | .cnt => if bit o.x.toWord 17 then ({ c with cnt := 0 }, 0) else (c, 0)
  | _ => (c, 0)

/-- The cell-range word of an operation: the trigger value of a read, latch o1 of a write (R241). -/
def DdOp.range (o : DdOp) : Word := if o.read.isSome then o.x.toWord else o.o1

/-- A cell operation acts on the cells that it need not wait for. -/
def State.actCells (s : State) (l : Loc) (o : DdOp) : State × DdOp :=
  o.todo.foldl (fun (acc : State × DdOp) n =>
    let (s, o) := acc
    let c := (s.ctx l).cell n
    let d := cellDom c.w0
    if o.bounds.contains d || o.runs.contains d then acc
    else
      let i := n - bits o.range 8 0
      let (c1, b) := o.onCell i c
      let s1 := s.setCell l n c1
      let s2 := if b = 0 then s1 else s1.onView l false fun w => w.ddRaise b
      (s2, { o with todo := o.todo.filter (· != n), got := o.got.set i (readCell o.op c) })) (s, o)

/-- The address and the cells of a save word (R242). -/
def svFirst (v : Word) : Nat := bits v 8 0
/-- The number of cells of a save word. -/
def svCount (v : Word) : Nat := bits v 17 9 + 1
/-- The barrier of a save word, if there is one. -/
def svBar (v : Word) : Option Nat := if bit v 37 then none else some (16 * bits v 36 18)

/-- The record of a cell (R242). -/
def Cell.record (c : Cell) : List Byte :=
  leBytes 4 (BitVec.ofInt 32 c.y).toNat ++ leBytes 4 c.r ++ leBytes 4 c.cnt.toNat ++ leBytes 2 (BitVec.ofInt 16 c.j).toNat ++
    [BitVec.ofInt 8 c.out, 0] ++ leBytes 8 c.w0.toNat ++ leBytes 8 c.w1.toNat

/-- The cell of a record, unless it fails the checks of DLOAD (R242). -/
def cellOfRecord (bs : List Byte) (nc nd : Nat) : Option Cell :=
  let w0 : Word := BitVec.ofNat 64 (fieldOf bs 16 8)
  let w1 : Word := BitVec.ofNat 64 (fieldOf bs 24 8)
  let y := (BitVec.ofNat 32 (fieldOf bs 0 4)).toInt
  let r := fieldOf bs 4 4
  let out := fieldOf bs 14 1
  if badTrellis w0 w1 nc nd || (satTo (cellW w0) y).2 || decide (r ≥ cellM w0) || !(out == 0 || out == 1 || out == 255) ||
      fieldOf bs 15 1 != 0 then none
  else
    some ⟨w0, w1, y, r, (BitVec.ofNat 8 out).toInt, (BitVec.ofNat 16 (fieldOf bs 12 2)).toInt, BitVec.ofNat 32 (fieldOf bs 8 4)⟩

/-- DSAVE writes its records and makes its arrival. -/
def State.saveCells (s : State) (l : Loc) (o : DdOp) : State :=
  let a := o.who.accessor l.core
  let bs := (List.range (svCount o.o1)).flatMap fun i => ((s.ctx l).cell (svFirst o.o1 + i)).record
  let s1 := s.setPoolBytes l.core a (s.dev a.pav a.vd).kidx (32 * o.x.toWord.toNat) bs
  s1.arrival l.core a (svBar o.o1) 0 ((svCount o.o1 + 1) / 2)

/-- DLOAD reads its records and makes its arrival; a record that fails, or whose new domain runs (R233), leaves its cell and sets the
barrier's ERR. -/
def State.loadCells (s : State) (l : Loc) (o : DdOp) : State :=
  let a := o.who.accessor l.core
  let w := (s.ctx l).cur
  let (s1, bad) := (List.range (svCount o.o1)).foldl (fun (acc : State × Bool) i =>
    match cellOfRecord (s.poolBytes l.core a (32 * (o.x.toWord.toNat + i)) 32) w.cellCount w.domainCount with
    | some c => if w.runs (cellDom c.w0) then (acc.1, true) else (acc.1.setCell l (svFirst o.o1 + i) c, acc.2)
    | none => (acc.1, true)) (s, false)
  s1.arrival l.core a (svBar o.o1) (if bad then 3 else 0) ((svCount o.o1 + 1) / 2)

/-- The core cycles from one step of a running domain to the next: 2 under STEP, DIV when it runs freely, at most every 2 (R20, R237,
R241). -/
def View.period (w : View) (d : Nat) : Nat := if w.stepped d then 2 else max 2 (bits (w.clk d) 15 0)

/-- The next step of a running domain comes a period after a cycle. -/
def State.schedule (s : State) (l : Loc) (d cycle : Nat) : State :=
  let x := s.ctx l
  s.setCtx l { x with stepAt := x.stepAt.set d (cycle + x.cur.period d) }

/-- A domain starts to run at the end of the present bundle, by STEP for n steps or freely (R238). The operations that the context has
triggered since, held in the queue until now, find the domain running and wait for its next step boundary. -/
def State.startDomain (s : State) (l : Loc) (id d : Nat) (byStep : Bool) (n : Nat) : State :=
  let s1 := (s.onView l false fun v => v.setDomain d true byStep (bits (((s.ctx l).cur).count d) 31 0) n).schedule l d
    ((s.core l.core).cycle + 1)
  let k := s1.core l.core
  s1.setCore l.core { k with ddq := k.ddq.map fun o =>
    if o.who.ctx = l.ctx ∧ id < o.id then { o with bounds := o.bounds.filter (· != d) ++ [d] } else o }

/-- An operation at the head of its context's operations acts; none when it is done (R238). -/
def State.actDd (s : State) (l : Loc) (o : DdOp) : State × Option DdOp :=
  let d := o.x.toWord.toNat
  let w := (s.ctx l).cur
  match o.op with
  | .patch =>
    let n := o.o1.toNat
    let c := (s.ctx l).cell n
    let w0 := o.x.toWord
    let c1 : Cell := if bits c.w0 9 0 = bits w0 9 0 then c else { c with y := 0, r := 0, out := 0 }
    (s.setCell l n { c1 with w0 := w0, w1 := o.o2 }, none)
  | .step => (s.startDomain l o.id d true o.o1.toNat, none)
  | .start => (s.startDomain l o.id d false 0, none)
  | .stop => if o.bounds.contains d then (s, some o) else if w.runs d then (s.stopDomain l d, none) else (s, none)
  | .dsave => (s.saveCells l o, none)
  | .dload => (s.loadCells l o, none)
  | _ =>
    let (s1, o1) := s.actCells l o
    if o1.todo.isEmpty then
      match o1.read with
      | some id => (s1.deliverLong l id 4 (some (.vec (ofLanes fun i => o1.got.getD i 0))), none)
      | none => (s1, none)
    else (s1, some o1)

/-- The queue of a core acts as far as it can (R238): the operations of one context one at a time, in their order. -/
def State.pumpDd (s : State) (core : Nat) : State :=
  ((s.core core).ddq.foldl (fun (acc : State × List Nat) o =>
    let (s, seen) := acc
    if seen.contains o.who.ctx then acc
    else
      let now := ((s.core core).ddq.find? fun p => p.id == o.id).getD o
      match s.actDd ⟨core, o.who.ctx⟩ now with
      | (s1, none) =>
        let k := s1.core core
        (s1.setCore core { k with ddq := k.ddq.filter fun p => p.id != o.id }, seen)
      | (s1, some o1) =>
        let k := s1.core core
        (s1.setCore core { k with ddq := k.ddq.map fun p => if p.id = o.id then o1 else p }, o.who.ctx :: seen)) (s, [])).1

/-- An operation joins the queue, and the queue acts. -/
def State.queueDd (s : State) (l : Loc) (o : Opd) (read : Option Nat) (todo : List Nat) : State :=
  let w := (s.ctx l).cur
  let ds := List.range w.domainCount
  let soon (d : Nat) : Bool := (s.ddOf l).any fun p => decide (p.op = .step) && p.x.toWord.toNat == d
  let op : DdOp :=
    { id := s.opId, who := s.who l, op := o.op, x := o.x, o1 := o.b, o2 := o.c, lanes := s.laneMask l, dest := o.dest
      step := match o.sel with | some r => r.step | none => 0
      read := read,
      todo := todo, bounds := ds.filter w.runs, runs := ds.filter fun d => w.stepped d || soon d, got := [] }
  let s1 : State := { s with opId := s.opId + 1 }
  let k := s1.core l.core
  (s1.setCore l.core { k with ddq := k.ddq ++ [op] }).pumpDd l.core

/-! ### Triggers (R240 to R242) -/

/-- An operation of dd: a full queue blocks it. -/
def ddSem (xw : Width) (latches : List (Nat × Width)) (encoding sequence : State → Loc → Opd → Option Cause) : OpSem :=
  { OpSem.base with
    xw := xw
    latches := latches
    outward := true
    encoding := encoding
    sequence := sequence
    blocks := fun s l _ => decide ((s.core l.core).ddq.length ≥ 8)
    act := fun s l o => s.queueDd l o none [] }

/-- The refusal of the cell that PATCH names (R230). -/
def badCell (s : State) (l : Loc) (o : Opd) : Option Cause :=
  if bits o.b 63 9 ≠ 0 ∨ o.b.toNat ≥ (s.ctx l).cur.cellCount then some 25 else none

/-- The sequence trap of a running domain (R233). -/
def State.runsTrap (s : State) (l : Loc) (d : Nat) : Option Cause := if s.domainBusy l d then some 11 else none

/-- PATCH. -/
def semPatch : OpSem :=
  { ddSem .word latch12
      (fun s l o =>
        match badCell s l o with
        | some c => some c
        | none => if badTrellis o.xw o.c (s.ctx l).cur.cellCount (s.ctx l).cur.domainCount then some 26 else none)
      fun s l o =>
        match s.runsTrap l (cellDom ((s.ctx l).cell o.b.toNat).w0) with
        | some c => some c
        | none => s.runsTrap l (cellDom o.xw) with
    parts :=
      [.enc [1] badCell,
       .enc [0, 2] (fun s l o => if badTrellis o.xw o.c (s.ctx l).cur.cellCount (s.ctx l).cur.domainCount then some 26 else none),
       .seq [1] (fun s l o => s.runsTrap l (cellDom ((s.ctx l).cell o.b.toNat).w0)),
       .seq [0] (fun s l o => s.runsTrap l (cellDom o.xw))] }

/-- Whether a cell-range word is refused (R240). -/
def badRange (w : View) (cr : Word) : Bool :=
  bits cr 63 18 != 0 || decide (bits cr 16 9 > 127) || decide (bits cr 8 0 + bits cr 16 9 ≥ w.cellCount)

/-- The cells of a cell-range word. -/
def rangeCells (cr : Word) : List Nat := (List.range (bits cr 16 9 + 1)).map fun i => bits cr 8 0 + i

/-- A write of cells (R241). -/
def setCellsSem : OpSem :=
  { ddSem .vec latch1 (fun s l o => if badRange (s.ctx l).cur o.b then some 25 else none) (fun _ _ _ => none) with
    parts := [.enc [1] fun s l o => if badRange (s.ctx l).cur o.b then some 25 else none]
    act := fun s l o => s.queueDd l o none (rangeCells o.b) }

/-- SETY. -/
def semSety : OpSem := setCellsSem
/-- SETR. -/
def semSetr : OpSem := setCellsSem
/-- INJECT. -/
def semInject : OpSem := setCellsSem

/-- A read of cells (R241): every lane of the destination is written, whatever the mask. -/
def getCellsSem : OpSem :=
  { ddSem .word [] (fun s l o => if badRange (s.ctx l).cur o.xw then some 25 else none) (fun _ _ _ => none) with
    sel := some [.v]
    parts := [.enc [0] fun s l o => if badRange (s.ctx l).cur o.xw then some 25 else none]
    act := fun s l o =>
      let (id, s1) := s.startLong l o none
      s1.queueDd l o (some id) (rangeCells o.xw) }

/-- GETY. -/
def semGety : OpSem := getCellsSem
/-- GETR. -/
def semGetr : OpSem := getCellsSem
/-- CNT. -/
def semCnt : OpSem := getCellsSem

/-- The refusal of a domain operand (R230, R241). -/
def badDomainOperand (s : State) (l : Loc) (o : Opd) : Option Cause :=
  if bits o.xw 63 3 ≠ 0 then some 29 else if o.xw.toNat ≥ (s.ctx l).cur.domainCount then some 25 else none

/-- The sequence traps of STEP and START (R234, R241). -/
def runTrap (s : State) (l : Loc) (o : Opd) : Option Cause :=
  if s.domainBusy l o.xw.toNat then some 11 else if (s.ctx l).badDomain o.xw.toNat then some 12 else none

/-- STEP. -/
def semStep : OpSem :=
  { ddSem .word latch1
      (fun s l o =>
        match badDomainOperand s l o with
        | some c => some c
        | none => if bits o.b 63 16 ≠ 0 ∨ o.b = 0 then some 29 else none)
      runTrap with
    parts :=
      [.enc [0] badDomainOperand, .enc [1] (fun _ _ o => if bits o.b 63 16 ≠ 0 ∨ o.b = 0 then some 29 else none), .seq [0] runTrap] }

/-- START. -/
def semStart : OpSem :=
  ddSem .word []
    (fun s l o =>
      match badDomainOperand s l o with
      | some c => some c
      | none => if bits ((s.ctx l).cur.clk o.xw.toNat) 15 0 < 2 then some 29 else none)
    runTrap

/-- STOP. -/
def semStop : OpSem := ddSem .word [] badDomainOperand fun _ _ _ => none

/-- The banks of the pool range of a record operation. -/
def recordBanks (x sv : Word) : List Nat :=
  let lo := 32 * x.toNat / 65536
  let hi := (32 * (x.toNat + svCount sv) - 1) / 65536
  (List.range (hi + 1 - lo)).map fun i => lo + i

/-- The refusal of a save word by itself (R242). -/
def badSaveWord (s : State) (l : Loc) (o : Opd) : Option Cause :=
  if bits o.b 63 38 ≠ 0 then some 29
  else if svFirst o.b + svCount o.b > (s.ctx l).cur.cellCount then some 25
  else if (match svBar o.b with | some i => s.badBarrier l i | none => false) then some 24
  else none

/-- The sequence trap of a record operation whose range has a cell in a running domain (R242). -/
def savedRuns (s : State) (l : Loc) (o : Opd) : Option Cause :=
  if (List.range (svCount o.b)).any fun i => s.domainBusy l (cellDom ((s.ctx l).cell (svFirst o.b + i)).w0) then some 11 else none

/-- DSAVE and DLOAD (R242). -/
def recordSem : OpSem :=
  { ddSem .word latch1
      (fun s l o =>
        let k := s.core l.core
        if bits o.xw 63 18 ≠ 0 then some 29
        else if badSaveWord s l o ≠ none then badSaveWord s l o
        else if (recordBanks o.xw o.b).any fun b => !k.owns (s.progOf l) b || k.frameHeld b then some 27
        else none)
      savedRuns with
    parts := [.enc [0] (fun _ _ o => if bits o.xw 63 18 ≠ 0 then some 29 else none), .enc [1] badSaveWord, .seq [1] savedRuns]
    blocks := fun s l o =>
      let k := s.core l.core
      decide (k.ddq.length ≥ 8) || ((recordBanks o.xw o.b).any fun b => k.pendingOn (s.progOf l) b) ||
        (match svBar o.b with | some i => s.waitsBank l i | none => false) }

/-- DSAVE. -/
def semDsave : OpSem := recordSem
/-- DLOAD. -/
def semDload : OpSem := recordSem

/-- PATCH (R233). -/
def execPatch (m : Mv) (s : State) : Host.Outcome State Fault Refusal :=
  runTrigger semPatch .dd .patch m s

/-- SETY (R241). -/
def execSety (m : Mv) (s : State) : Host.Outcome State Fault Refusal :=
  runTrigger semSety .dd .sety m s

/-- SETR (R241). -/
def execSetr (m : Mv) (s : State) : Host.Outcome State Fault Refusal :=
  runTrigger semSetr .dd .setr m s

/-- GETY (R241). -/
def execGety (m : Mv) (s : State) : Host.Outcome State Fault Refusal :=
  runTrigger semGety .dd .gety m s

/-- GETR (R241). -/
def execGetr (m : Mv) (s : State) : Host.Outcome State Fault Refusal :=
  runTrigger semGetr .dd .getr m s

/-- STEP (R241). -/
def execStep (m : Mv) (s : State) : Host.Outcome State Fault Refusal :=
  runTrigger semStep .dd .step m s

/-- START (R241). -/
def execStart (m : Mv) (s : State) : Host.Outcome State Fault Refusal :=
  runTrigger semStart .dd .start m s

/-- STOP (R241). -/
def execStop (m : Mv) (s : State) : Host.Outcome State Fault Refusal :=
  runTrigger semStop .dd .stop m s

/-- DSAVE (R242). -/
def execDsave (m : Mv) (s : State) : Host.Outcome State Fault Refusal :=
  runTrigger semDsave .dd .dsave m s

/-- DLOAD (R242). -/
def execDload (m : Mv) (s : State) : Host.Outcome State Fault Refusal :=
  runTrigger semDload .dd .dload m s

/-- INJECT (R241). -/
def execInject (m : Mv) (s : State) : Host.Outcome State Fault Refusal :=
  runTrigger semInject .dd .inject m s

/-- CNT (R241). -/
def execCnt (m : Mv) (s : State) : Host.Outcome State Fault Refusal :=
  runTrigger semCnt .dd .cnt m s


/-! ### A step of a domain (R234, R235, R237) -/

/-- The context that a physical domain is granted to, and the domain's relative number (R230). -/
def Core.domainOwner (k : Core) (dom : Nat) : Option (Nat × Nat) :=
  match List.find? (fun e : Nat × Ctx => bit e.2.cur.ctl.ddgrant (8 + dom) && decide (dom < 8)) k.ctxs with
  | some e => some (e.1, ((List.range dom).filter fun i => bit e.2.cur.ctl.ddgrant (8 + i)).length)
  | none => none

/-- An overrun (R235): the domain stops; DDFAULT is recorded and the fault falls due, or MOVR is set. -/
def State.overrun (s : State) (l : Loc) (d cell : Nat) : State :=
  let w := (s.ctx l).cur
  let s1 := s.stopDomain l d
  if bit w.ctl.ddfault 0 then s1.onView l false fun v => v.ddRaise 4
  else
    let rec_ : Word := BitVec.ofNat 64 (1 + d * 2 + cell * 2 ^ 4 + (bits (w.count d) 31 0 + 1) % 2 ^ 32 * 2 ^ 32)
    let s2 := s1.onView l false fun v => { v with ctl := { v.ctl with ddfault := rec_ } }
    s2.setCtx l { s2.ctx l with overrunDue := true }

/-- The cells of a domain after a step, all from the values before it, and whether one saturated. -/
def Ctx.stepCells (x : Ctx) (d : Nat) : Table Cell × Bool :=
  (x.domainCells d).foldl (fun (acc : Table Cell × Bool) n =>
    let r := x.stepCell (x.cell n)
    (acc.1.set n r.1, acc.2 || r.2)) (x.cells, false)

/-- A domain makes a step when it is due (R234, R237): a halted and saved context's domains are paused (R239). -/
def State.domainStep (s : State) (core dom : Nat) : State :=
  match (s.core core).domainOwner dom with
  | none => s
  | some (c, d) =>
    let l : Loc := ⟨core, c⟩
    let x := s.ctx l
    let w := x.cur
    if !w.runs d || x.saved.isSome || decide ((s.core core).cycle < x.stepAt.getD d 0) then s
    else
      match x.overrunCell d with
      | some n => (s.overrun l d n).pumpDd core
      | none =>
        let (cells, sat) := x.stepCells d
        let steps := (bits (w.count d) 31 0 + 1) % 2 ^ 32
        let rem := bits (w.count d) 47 32 - 1
        let s1 := (s.setCtx l { x with cells := cells }).schedule l d (s.core core).cycle
        let s2 := s1.onView l false fun v =>
          (if sat then v.ddRaise 1 else v).setDomain d true (w.stepped d) steps (if w.stepped d then rem else 0)
        let s3 :=
          match w.stepped d, x.binding with
          | true, some b =>
            (s2.setArb core ((s2.arb core).addTokens (devKey b.pav b.vd) (-1))).measured core b 1
          | _, _ => s2
        let excess := (w.stepped d && rem == 0) || (bit (w.clk d) 18 && steps == bits (w.clk d) 63 32)
        let s4 := if excess then s3.stopDomain l d else s3
        let k := s4.core core
        (s4.setCore core { k with ddq := k.ddq.map fun o =>
          if o.who.ctx = c then { o with bounds := o.bounds.filter (· != d) } else o }).pumpDd core

/-- DOMAIN_STEP (R234). -/
def execDomainStep (core dom : Nat) (s : State) : Host.Outcome State Fault Refusal := .next (s.domainStep core dom)

end Sys2Proof.Machine
end

