-- ==== Sys2Proof/Machine/Records.lean ====
section
/-!
DEFINITION. The fields of launch records (R266 to R270) and completion entries (R274).
-/

namespace Sys2Proof.Machine

/-- CTRL of a launch record (R267). -/
def recCtrl (r : List Byte) : Word := BitVec.ofNat 64 (fieldOf r 0 8)
/-- RES of a launch record (R268). -/
def recRes (r : List Byte) : Word := BitVec.ofNat 64 (fieldOf r 8 8)
/-- SETj of a launch record (R269). -/
def recSet (r : List Byte) (j : Nat) : Word := BitVec.ofNat 64 (fieldOf r (16 + 4 * j) 4)
/-- CAP0 of a launch record, without its tag. -/
def recCap (r : List Byte) : BitVec 128 := BitVec.ofNat 128 (fieldOf r 32 16)
/-- ARG0 of a launch record. -/
def recArg0 (r : List Byte) : Word := BitVec.ofNat 64 (fieldOf r 48 8)
/-- ARG1 of a launch record. -/
def recArg1 (r : List Byte) : Word := BitVec.ofNat 64 (fieldOf r 56 8)

/-- IMAGE. -/
def recImage (r : List Byte) : Nat := bits (recCtrl r) 15 0
/-- The text-relative address of the entry: 8 × ENTRY8. -/
def recEntry (r : List Byte) : Nat := 8 * bits (recCtrl r) 39 16
/-- CORE. -/
def recCore (r : List Byte) : Nat := bits (recCtrl r) 46 40
/-- ANY. -/
def recAny (r : List Byte) : Bool := bit (recCtrl r) 47
/-- The members of the gang: GM1 + 1. -/
def recSize (r : List Byte) : Nat := bits (recCtrl r) 49 48 + 1
/-- GID. -/
def recGid (r : List Byte) : Nat := bits (recCtrl r) 55 50
/-- GRAPH. -/
def recGraph (r : List Byte) : Bool := bit (recCtrl r) 56
/-- MIDX. -/
def recMidx (r : List Byte) : Nat := bits (recCtrl r) 58 57
/-- CBLKN. -/
def recBlocks (r : List Byte) : Nat := bits (recRes r) 3 0
/-- DOMN. -/
def recDomains (r : List Byte) : Nat := bits (recRes r) 7 4
/-- PIPES. -/
def recPipes (r : List Byte) : Nat := bits (recRes r) 11 8
/-- TAG. -/
def recTag (r : List Byte) : Nat := bits (recRes r) 63 32

/-- A set entry (R269): its first bank, its number of banks, and whether it is written, may be renamed, and is valid. -/
structure SetEntry where
  first : Nat
  len : Nat
  write : Bool
  ren : Bool
  valid : Bool
  /-- A reserved bit is 1. -/
  bad : Bool
  deriving DecidableEq, Repr

/-- Set entry j of a record. -/
def recEntrySet (r : List Byte) (j : Nat) : SetEntry :=
  let w := recSet r j
  ⟨bits w 6 0, bits w 13 7 + 1, bit w 14, bit w 15, bit w 16, bits w 31 17 != 0⟩

/-- The set entries of a record. -/
def recSets (r : List Byte) : List SetEntry := (List.range 4).map (recEntrySet r)

/-- The gang that a record belongs to has on-core pipes or more than one member. -/
def recGanged (r : List Byte) : Bool := decide (recSize r > 1) || decide (recPipes r > 0)

/-- A completion entry (R274). -/
def completion (tag exit status index place : Nat) : List Byte :=
  leBytes 4 tag ++ leBytes 4 exit ++ leBytes 2 status ++ leBytes 2 index ++ leBytes 4 place

/-- A completion entry falls due and waits in its place (R353). -/
def State.complete (s : State) (pav vd : Nat) (e : List Byte) : State :=
  let d := s.dev pav vd
  s.setDev pav vd { d with entries := d.entries ++ [e] }

/-- CAP0 of a record as a program or the walker receives it, with the tag of R270; a tagged capability covers nothing beyond
2^57 (R101). -/
def recGiven (r : List Byte) (tagged : Bool) (tenant : Nat) : Cap :=
  let c : Cap := ⟨recCap r, true⟩
  ⟨c.raw, tagged && c.tenant == tenant && bits c.raw 127 121 == 0 && decide (c.base + c.len ≤ 2 ^ 57)⟩

end Sys2Proof.Machine
end

