-- ==== Sys2Proof/Machine/Units.lean ====
section
/-!
DEFINITION. The units that ready tasks wait for (R278): what a core has free, what a task needs, and what is held for the tasks that wait.
-/

namespace Sys2Proof.Machine

/-- Whether two ranges of banks share a bank. -/
def overlap (a b : Nat × Nat) : Bool := decide (a.1 < b.1 + b.2 ∧ b.1 < a.1 + a.2)

/-- Whether a range shares a bank with one of a list. -/
def overlapsAny (a : Nat × Nat) (rs : List (Nat × Nat)) : Bool := rs.any (overlap a)

/-- Whether ranges that are read and written conflict with those of a table entry (R275). -/
def conflictsWith (reads writes : List (Nat × Nat)) (u : Task) : Bool :=
  (writes.any fun w => overlapsAny w (u.reads ++ u.writes)) || reads.any fun r => overlapsAny r u.writes

/-- The cell blocks, or from bit 8 the domains, granted to the contexts of a core, as a mask; a task that is parked (R387) keeps what its
context was granted, so that none is granted twice (R230). -/
def Core.granted (k : Core) (lo : Nat) : Nat :=
  (k.ctxs.map Prod.snd ++ k.parked.map fun e => e.2.2).foldl (fun m x => m ||| bits x.cur.ctl.ddgrant (lo + 7) lo) 0

/-- The members of a gang in a dependence table. -/
def Core.gangTasks (k : Core) (g : Nat) : List Task := k.table.filter fun t => t.gang == some g

/-- The pavilion of a core. -/
def State.pavOf (s : State) (core : Nat) : Option Nat := ((s.pavs.filter fun p => p.2.cores.contains core).map Prod.fst).head?

/-- The templates that the image of a task names. -/
def State.templatesOf (s : State) (pav : Nat) (t : Task) : List Nat :=
  match s.images.find? (65536 * pav + recImage t.record) with
  | some i => i.templates.map Prod.fst
  | none => []

/-- What a lone task, or the members of a gang, take. -/
def State.needs (s : State) (pav : Nat) (ts : List Task) : Units :=
  { ctxs := ts.length
    blocks := (ts.map fun t => recBlocks t.record).sum
    domains := (ts.map fun t => recDomains t.record).sum
    queues := (ts.map fun t => recPipes t.record).sum
    templates := (ts.flatMap (s.templatesOf pav)).eraseDups }

/-- Whether a queue is free for a gang (R278): granted to none and owned by none. -/
def Core.queueFree (k : Core) (n : Nat) : Bool := (k.queue n).gang.isNone && (k.queue n).owner.isNone

/-- The free units of a core. -/
def Core.freeUnits (k : Core) : Units :=
  { ctxs := ((List.range 4).filter fun c => decide ((k.ctx c).mode = .off)).length
    blocks := 8 - bitCount8 (k.granted 0)
    domains := 8 - bitCount8 (k.granted 8)
    queues := ((List.range 16).filter k.queueFree).length
    templates := (List.range 64).filter fun n => (k.templates.getD n .reset).owner.isNone }

/-- Whether free units suffice. -/
def Units.covers (f n : Units) : Bool :=
  decide (n.ctxs ≤ f.ctxs ∧ n.blocks ≤ f.blocks ∧ n.domains ≤ f.domains ∧ n.queues ≤ f.queues) && n.templates.all f.templates.contains

/-- The units left when as many as a waiting task needs are held for it. -/
def Units.less (f n : Units) : Units :=
  { ctxs := f.ctxs - n.ctxs, blocks := f.blocks - n.blocks, domains := f.domains - n.domains, queues := f.queues - n.queues
    templates := f.templates.filter fun t => !n.templates.contains t }

/-- Whether a task conflicts with no older unfinished entry (R275). -/
def Core.isReady (k : Core) (t : Task) : Bool :=
  !((k.table.takeWhile fun u => u.id != t.id).any (conflictsWith t.reads t.writes))

/-- The waiting tasks that are ready, in admission order: lone tasks, tasks that are parked (R387), and whole gangs at the place of their first
member (R280). -/
def Core.waiting (k : Core) : List (List Task) :=
  k.table.filterMap fun t =>
    if t.bound.isSome ∨ t.ended.isSome then none
    else if (k.parked.find? t.id).isSome then some [t]
    else
      match t.gang with
      | none => if k.isReady t then some [t] else none
      | some g =>
        let ms := k.gangTasks g
        if (ms.head?.map Task.id) == some t.id && decide (ms.length = recSize t.record) && ms.all k.isReady then some ms else none

/-- What a group of waiting tasks takes; a parked task keeps its blocks, domains and templates. -/
def State.groupNeeds (s : State) (pav core : Nat) (ts : List Task) : Units :=
  match ts with
  | t :: _ => if ((s.core core).parked.find? t.id).isSome then ⟨1, 0, 0, 0, []⟩ else s.needs pav ts
  | [] => ⟨0, 0, 0, 0, []⟩

/-- Two amounts of units together. -/
def Units.plus (a b : Units) : Units :=
  { ctxs := a.ctxs + b.ctxs, blocks := a.blocks + b.blocks, domains := a.domains + b.domains, queues := a.queues + b.queues
    templates := (a.templates ++ b.templates).eraseDups }

/-- What two amounts of units share. -/
def Units.meet (a b : Units) : Units :=
  { ctxs := min a.ctxs b.ctxs, blocks := min a.blocks b.blocks, domains := min a.domains b.domains, queues := min a.queues b.queues
    templates := a.templates.filter b.templates.contains }

/-- No unit. -/
def Units.zero : Units := ⟨0, 0, 0, 0, []⟩

/-- What is held for a group of waiting tasks. -/
def heldUnits (hs : List Hold) (ts : List Task) : Units :=
  match hs.find? fun h => (ts.head?.map Task.id) == some h.task with
  | some h => h.units
  | none => Units.zero

/-- The waiting groups of a core, oldest first, the one that the dispatcher had a context halted for (R387) before them. -/
def Core.inLine (k : Core) : List (List Task) :=
  let favoured (ts : List Task) : Bool := ts.any fun t => k.heldFor == some t.id
  (k.waiting.filter favoured) ++ k.waiting.filter fun ts => !favoured ts

/-- The holds of a core once every free unit that a waiting task lacks is held for the oldest such task (R278); what is held already
stays. -/
def State.holdsNow (s : State) (pav core : Nat) : List Hold :=
  let k := s.core core
  let ws := k.inLine
  let kept := k.holds.filter fun h => ws.any fun ts => (ts.head?.map Task.id) == some h.task
  let free := kept.foldl (fun f h => f.less h.units) k.freeUnits
  (ws.foldl (fun (acc : List Hold × Units) ts =>
    match ts.head? with
    | none => acc
    | some t =>
      let old := heldUnits kept ts
      let more := ((s.groupNeeds pav core ts).less old).meet acc.2
      (acc.1 ++ [⟨t.id, old.plus more⟩], acc.2.less more)) ([], free)).1

/-- The holds of a core are brought up to date (R278): whenever units have become free, and before a task becomes ready. -/
def State.settle (s : State) (core : Nat) : State :=
  match s.pavOf core with
  | none => s
  | some pav => s.setCore core { s.core core with holds := s.holdsNow pav core }

end Sys2Proof.Machine
end

