-- ==== Sys2Proof/Machine/Fence.lean ====
section
/-!
DEFINITION. The fence between access paths (R205) and the release of banks (R207, R298).
-/

namespace Sys2Proof.Machine

/-- XFENCE (R205): the context issues nothing until its operations on the source path that are in flight have completed. Accesses of
the load/store and gather paths are performed when they are accepted (log 6). -/
def semXfence : OpSem :=
  { OpSem.base with
    plainS := true
    encoding := fun _ _ o =>
      let src := bits o.xw 2 0
      let dst := bits o.xw 5 3
      if bits o.xw 63 6 ≠ 0 ∨ src = 7 ∨ dst = 7 ∨ src = dst then some 29 else none
    parts := [.enc [0] fun _ _ o =>
      let src := bits o.xw 2 0
      let dst := bits o.xw 5 3
      if bits o.xw 63 6 ≠ 0 ∨ src = 7 ∨ dst = 7 ∨ src = dst then some 29 else none]
    act := fun s l o =>
      let ids := (s.core l.core).inFlight.filterMap fun e =>
        if e.2.1 = bits o.xw 2 0 ∧ some e.2.2 = s.progOf l then some e.1 else none
      let x := s.ctx l
      s.setCtx l { x with fence := x.fence ++ ids } }

/-! ### What operations touch (R298) -/

/-- The bank of a barrier. -/
def barBank : Option Nat → List Nat
  | some i => [i / 65536]
  | none => []

/-- The banks spanned by tiles; a z tile lies in no scratchpad bank. -/
def refBanks (ts : List TileRef) : List Nat := ts.flatMap fun t => if t.code < 32 then spanned t.desc else []

/-- The banks that the pool hulls of a copy reach. -/
def CpOp.hulls (k : Core) (o : CpOp) : List Nat :=
  let p := shapeOf o.image o.disp
  let df := match o.dst with | some r => k.fmtOf (dBank r.desc) | none => p.dfmt
  let banksOf (hs : List (Int × Int)) : List Nat := hs.flatMap fun h => (hullBanks h).getD []
  (if p.skind = 1 then banksOf (p.srcHull o.image).toList else []) ++ (if p.dkind = 1 then banksOf (p.dstHulls o.image df) else [])

/-- Whether an operation in flight that a program triggered touches a bank: by its declared extent, a copy that is refused as any other. -/
def Core.touches (k : Core) (prog b : Nat) : Bool :=
  let mx (o : MxOp) : Bool := o.who.bind.prog == prog && (refBanks o.tiles).contains b
  let sc (o : ScOp) : Bool := o.who.bind.prog == prog && (refBanks o.tiles).contains b
  let fr (o : FrOp) : Bool :=
    o.who.bind.prog == prog &&
      (let f := k.frameFor o; (frameBanks f.bank f.ne).contains b || (barBank (cmdBar o.cmd)).contains b)
  let cp (o : CpOp) : Bool :=
    o.who.bind.prog == prog &&
      ((o.hulls k).contains b || (refBanks (o.src.toList ++ o.dst.toList)).contains b || (barBank o.bar).contains b)
  let dd (o : DdOp) : Bool :=
    o.who.bind.prog == prog && (decide (o.op = .dsave) || decide (o.op = .dload)) &&
      ((recordBanks o.x.toWord o.o1).contains b || (barBank (svBar o.o1)).contains b)
  k.mxq.any mx || (match k.mxRun with | some r => mx r.op | none => false) || k.scq.any sc ||
    (match k.scRun with | some o => sc o | none => false) || k.frq.any fr || k.cp0q.any cp || k.cp1q.any cp || k.ddq.any dd

/-! ### Claims (R298, R300) -/

/-- Whether a bank is free for a claim of a program (R298). -/
def Core.freeFor (k : Core) (c : Claim) : Bool :=
  k.claims.all fun d => d.prog == c.prog || d.bank != c.bank || decide (d.state = .pending) || (!c.write && !d.write)

/-- A claim becomes held when its bank is free for it and no claim bound before it waits for the bank (R298). -/
def Core.grantClaim (k : Core) (prog b : Nat) : Core :=
  let rec go (before : List Claim) : List Claim → List Claim
    | [] => []
    | c :: rest =>
      if c.prog = prog ∧ c.bank = b ∧ c.state = .pending ∧ k.freeFor c ∧
          (before.all fun d => d.bank != b || d.prog == prog || decide (d.state ≠ .pending) || (!c.write && !d.write)) then
        { c with state := .held } :: go (before ++ [c]) rest
      else c :: go (before ++ [c]) rest
  { k with claims := go [] k.claims }

/-- The context that runs a program. -/
def Core.ctxOf (k : Core) (prog : Nat) : Option Nat :=
  ((k.ctxs.filter fun e => match e.2.binding with | some b => b.prog == prog | none => false).map Prod.fst).head?

/-- A claim that is held acquires the releases of the bank's former owners (R300, R315, R324), in its program's context or, where that is parked
(R387), in what is kept of it. -/
def State.takeOverBank (s : State) (core prog b : Nat) : State :=
  let k := s.core core
  let es := k.passed.getD b []
  let s1 := s.setCore core
    { k with claims := k.claims.map fun c => if c.prog = prog ∧ c.bank = b then { c with taken := es } else c }
  match k.ctxOf prog, k.parked.find? prog with
  | some c, _ => es.foldl (fun s e => s.acquireStamp ⟨core, c⟩ e) s1
  | none, some (c, x) =>
    let v := es.foldl (fun v e => v.acquireFrom (4 * core + c) e.1 e.2 (s.ctx (locOf e.1)).cur.acquired) x.cur
    let k1 := s1.core core
    s1.setCore core { k1 with parked := k1.parked.set prog (c, { x with cur := v }) }
  | none, none => s1

/-- A claim becomes held, and orders memory between the former owner and the new one (R298, R300). -/
def State.holdClaim (s : State) (core prog b : Nat) : State :=
  let k := (s.core core).grantClaim prog b
  let held (k : Core) : Bool := (k.claimsOf (some prog) b).any fun c => decide (c.state = .held)
  let s1 := s.setCore core k
  if held k && !held (s.core core) then s1.takeOverBank core prog b else s1

/-- Releasing claims whose bank no operation of their program touches are gone (R298). -/
def State.endReleases (s : State) (core b : Nat) : State :=
  let k := s.core core
  s.setCore core
    { k with claims := k.claims.filter fun c => !(c.bank == b && decide (c.state = .releasing) && !k.touches c.prog b) }

/-! ### BREL (R207) -/

/-- The banks of a release word. -/
def brelBanks (x : Word) : List Nat := (List.range (bits x 13 7 + 1)).map fun i => bits x 6 0 + i

/-- BREL. The hand-over is a release (R300, R315); a release that a taken branch kills has no effect, and one with S = 1 in a delay bundle of
a branch that is not taken is made when that branch resolves (R37, R207). -/
def semBrel : OpSem :=
  { OpSem.base with
    encoding := fun _ _ o => if bits o.xw 63 14 ≠ 0 ∨ bits o.xw 6 0 + bits o.xw 13 7 > 79 then some 29 else none
    parts := [.enc [0] fun _ _ o => if bits o.xw 63 14 ≠ 0 ∨ bits o.xw 6 0 + bits o.xw 13 7 > 79 then some 29 else none]
    sequence := fun s l o =>
      let k := s.core l.core
      if (brelBanks o.xw).any fun b => !k.owns (s.progOf l) b then some 9
      else if (brelBanks o.xw).any k.frameHeld then some 8
      else none
    blocks := fun s l o =>
      let k := s.core l.core
      (brelBanks o.xw).any fun b =>
        k.pendingOn (s.progOf l) b || (match s.progOf l with | some p => k.touches p b | none => false)
    act := fun s l o =>
      let x := s.ctx l
      if o.prov then s
      else if o.s && decide (x.ctime < x.untaken) then s.setCtx l { x with releases := x.releases ++ [(x.untaken, brelBanks o.xw)] }
      else (s.settle l.core).releaseBanks l (brelBanks o.xw) }

/-- XFENCE_LS0 (R205). -/
def execXfenceLs0 (m : Mv) (s : State) : Host.Outcome State Fault Refusal :=
  runTrigger semXfence .ls0 .xfence m s

/-- XFENCE_LS1 (R205). -/
def execXfenceLs1 (m : Mv) (s : State) : Host.Outcome State Fault Refusal :=
  runTrigger semXfence .ls1 .xfence m s

/-- BREL_LS0 (R207). -/
def execBrelLs0 (m : Mv) (s : State) : Host.Outcome State Fault Refusal :=
  runTrigger semBrel .ls0 .brel m s

/-- BREL_LS1 (R207). -/
def execBrelLs1 (m : Mv) (s : State) : Host.Outcome State Fault Refusal :=
  runTrigger semBrel .ls1 .brel m s


/-- BANK_CLAIM_HELD (R298). -/
def execBankClaimHeld (core task bank : Nat) (s : State) : Host.Outcome State Fault Refusal := .next (s.holdClaim core task bank)
/-- BANK_RELEASE_COMPLETE (R298). -/
def execBankReleaseComplete (core bank : Nat) (s : State) : Host.Outcome State Fault Refusal := .next (s.endReleases core bank)

end Sys2Proof.Machine
end

