-- ==== Sys2Proof/Machine/SaveArea.lean ====
section
/-!
DEFINITION. Live-state lists (R119), and the save area of a halted context (R409 to R411): the layout in which the lodge writes it to the
pavilion's granules, and where it lies there. A restore takes the same content from the context's own fields (log 17).
-/

namespace Sys2Proof.Machine

/-! ### Live-state lists (R119) -/

/-- An entry of a live-state list: its kind, its first register or unit, and its count or ports. -/
structure LiveEntry where
  kind : Nat
  first : Nat
  more : Nat
  deriving DecidableEq, Repr

/-- An entry from its word. -/
def liveEntry (w : Nat) : LiveEntry :=
  if w % 16 = 5 then ⟨5, w / 16 % 32, w / 512 % 32⟩ else ⟨w % 16, w / 16 % 128, w / 2048 % 128⟩

/-- The entries of a list of at most a number of words, up to its end. -/
def liveList : Nat → List Byte → List LiveEntry
  | 0, _ => []
  | n + 1, bs => let w := fieldOf bs 0 4; if w % 16 = 0 then [] else liveEntry w :: liveList n (bs.drop 4)

/-- Whether a list names a register. -/
def keepsReg (ls : List LiveEntry) (kind n : Nat) : Bool :=
  ls.any fun e => e.kind == kind && decide (e.first ≤ n ∧ n ≤ e.first + e.more)

/-- The live-state list at a byte offset of the image of a context. -/
def State.liveOf (s : State) (l : Loc) (off : Nat) : List LiveEntry :=
  match s.imageOf l with
  | some i => liveList 33 (i.live.drop off)
  | none => []

/-! ### The layout of a save area (R409 to R411) -/

/-- Bytes made up to a length with zeros. -/
def padTo (n : Nat) (bs : List Byte) : List Byte := (bs ++ List.replicate n 0).take n

/-- A word in 8 bytes. -/
def wordBytes (w : Word) : List Byte := leBytes 8 w.toNat

/-- A value in 512 bytes, narrower ones in the low bytes; a capability as in R410, with its tag in byte 16. -/
def Value.saveBytes : Value → List Byte
  | .word x => padTo 512 (wordBytes x)
  | .cap c => padTo 512 (leBytes 16 c.raw.toNat ++ [if c.tag then 1 else 0])
  | .vec v => padTo 512 (leBytes 512 v.toNat)
  | .mask m => padTo 512 (leBytes 16 m.toNat)

/-- A port state in 544 bytes (R410): value, step, register-reference word, and whether it is valid and in reference mode. -/
def portBytes (v : Option Value) (step : Word) (ref : Option RegRef) : List Byte :=
  (match v with | some x => x.saveBytes | none => List.replicate 512 0) ++ wordBytes step ++
    wordBytes (match ref with | some r => r.word | none => 0) ++
    padTo 16 [BitVec.ofNat 8 (b2n (v.isSome || ref.isSome) + b2n ref.isSome * 2)]

/-- A latch in 544 bytes. -/
def Latch.saveBytes (t : Latch) : List Byte :=
  match t.content with
  | .invalid => portBytes none t.step none
  | .value v => portBytes (some v) t.step none
  | .ref r => portBytes none t.step (some r)

/-- A selector in 544 bytes: it is valid, and its word is a register-reference word. -/
def selBytes (r : Option RegRef) : List Byte :=
  match r with
  | some x => List.replicate 520 0 ++ wordBytes x.word ++ padTo 16 [1]
  | none => List.replicate 544 0

/-- The named port states of a unit in the order of the PORTS bits (R410). -/
def Port.saveBytes (p : Port) (ports : Nat) : List Byte :=
  (if ports % 2 = 1 then p.o1.saveBytes else []) ++ (if ports / 2 % 2 = 1 then p.o2.saveBytes else []) ++
    (if ports / 4 % 2 = 1 then p.o3.saveBytes else []) ++ (if ports / 8 % 2 = 1 then selBytes p.sel else []) ++
    (if ports / 16 % 2 = 1 then portBytes p.res 0 none else [])

/-- A register of a file of KIND 1 to 4 in the live area (R410). -/
def View.regBytes (w : View) (kind n : Nat) : List Byte :=
  if kind = 1 then wordBytes (w.s.getD n 0)
  else if kind = 2 then
    let c := w.a.getD n ⟨0, false⟩
    padTo 32 (leBytes 16 c.raw.toNat ++ [if c.tag then 1 else 0])
  else if kind = 3 then leBytes 512 (w.v.getD n 0).toNat
  else wordBytes (w.mp.getD n 0)

/-- What an entry of a live-state list saves (R410). -/
def View.entryBytes (w : View) (e : LiveEntry) : List Byte :=
  if e.kind = 5 then ((w.ports.getD e.first .reset).saveBytes e.more)
  else (List.range (e.more + 1)).flatMap fun i => w.regBytes e.kind (e.first + i)

/-- The entries of a lodge save (R409): every register of s, a, v up to the vector count, and mp. -/
def lodgeList (vectors : Nat) : List LiveEntry := [⟨1, 0, 63⟩, ⟨2, 0, 31⟩, ⟨3, 0, vectors - 1⟩, ⟨4, 0, 7⟩]

/-- The code of an operation's trigger (R80). -/
def triggerCode (u : UnitId) (op : Op) : List Byte := leBytes 8 (encodeDst (.trig u op))

/-- VCn of a number of vector registers (R293). -/
def vcCode (n : Nat) : Nat := if n = 16 then 0 else if n = 32 then 1 else 2

/-- The header of a save area (R409). -/
def Ctx.saveHeader (x : Ctx) (v : Saved) : List Byte :=
  let image := match x.binding with | some b => b.image % 65536 | none => 0
  padTo 64 (leBytes 4 0x53415645 ++ leBytes 4 1 ++ wordBytes x.pc ++ leBytes 8 (v.loff.getD (2 ^ 64 - 1)) ++ leBytes 2 image ++ leBytes 2 (vcCode v.vcn) ++
    leBytes 1 v.blocks ++ leBytes 1 v.domains ++ leBytes 1 (b2n x.arithDue + b2n x.overrunDue * 2) ++ [0] ++ leBytes 8 x.cur.region ++
    leBytes 8 x.ctime)

/-- The control words of a save area, with CFCOUNT among them (R409). -/
def View.controlBytes (w : View) : List Byte :=
  let c := w.ctl
  padTo 256 ([c.fpflags, c.gbase, c.tvec, c.tcause, c.tepc, c.tbranch, c.tbtgt, c.hndst, c.memcnt, BitVec.ofNat 64 w.cf.length, c.mxfault,
    c.sccfg, c.loopwd, c.loopsw, c.loopst, c.loopcnt, c.ddstat, c.ddfault].flatMap wordBytes) ++
  ((List.range 8).flatMap fun i => wordBytes (c.domclk.getD i 0)) ++ (List.range 8).flatMap fun i => wordBytes (c.domcnt.getD i 0)

/-- The registers of fixed place in a save area (R409): p, the mask stack, k, the acquire table and the candidate file. -/
def View.fixedBytes (w : View) : List Byte :=
  leBytes 16 w.p.toNat ++ leBytes 16 w.stack.length ++ ((List.range 8).flatMap fun i => leBytes 16 (w.k.getD i 0).toNat) ++
    ((List.range 16).flatMap fun i => leBytes 16 ((w.stack.reverse ++ w.above).getD i 0).toNat) ++
    ((List.range 512).map fun i => match w.acquired.find? i with | some r => BitVec.ofNat 8 (32 + r) | none => 0) ++
    (List.range 64).flatMap fun i => wordBytes (w.candidate i)

/-- The tiles of a save area (R409). -/
def Ctx.tileBytes (x : Ctx) : List Byte :=
  ((List.range 32).flatMap fun i => wordBytes (x.tile i).desc) ++ (List.range 32).flatMap fun i => wordBytes (x.tile i).stat.word

/-- The code of a tile of an operation, or 0. -/
def savedCode (ts : List TileRef) (i : Nat) : List Byte := leBytes 8 (match ts[i]? with | some t => t.code | none => 0)

/-- The record of a stopped call (R411). -/
def MxOp.stoppedBytes (o : MxOp) (r : MxResume) : List Byte :=
  padTo 128 (leBytes 8 (1 + o.routine * 2) ++ leBytes 8 r.next ++ leBytes 2 (BitVec.ofInt 16 r.ik).toNat ++ leBytes 2 (BitVec.ofInt 16 r.inn).toNat ++
    leBytes 4 (r.passes % 256) ++ ((List.range 8).flatMap fun i => wordBytes (o.mp.getD i 0)) ++ leBytes 8 (r.wload.getD 0))

/-- The record of an operation of mx that has not started (R411); of the vector of an AWRITE it has room for the low 8 bytes (log 17). -/
def MxOp.saveBytes (o : MxOp) : List Byte :=
  let none8 := leBytes 8 0
  triggerCode .mx o.op ++
    match o.op with
    | .mcall => leBytes 8 o.routine ++ none8 ++ none8
    | .mwr => wordBytes o.ctl ++ leBytes 8 o.routine ++ none8
    | .quant | .acvt => savedCode o.tiles 1 ++ savedCode o.tiles 0 ++ none8
    | .azero => savedCode o.tiles 0 ++ wordBytes o.ctl ++ none8
    | .awrite => leBytes 8 o.vec.toNat ++ savedCode o.tiles 0 ++ wordBytes o.ctl
    | _ => savedCode o.tiles 0 ++ none8 ++ none8

/-- The record of a scan operation (R411). -/
def ScOp.saveBytes (o : ScOp) : List Byte :=
  triggerCode .sc o.op ++ wordBytes o.cfg ++ savedCode o.tiles 0 ++ savedCode o.tiles 1 ++ savedCode o.tiles 2 ++ leBytes 8 o.next

/-- The record of a held dd operation (R411). -/
def DdOp.saveBytes (o : DdOp) : List Byte :=
  triggerCode .dd o.op ++ wordBytes o.o1 ++ wordBytes o.o2 ++
    wordBytes (match o.dest with | some (f, n) => RegRef.word ⟨some f, n, o.step⟩ | none => 0) ++ List.replicate 32 0 ++ o.x.saveBytes

/-- The engine records of a save area (R411): the stopped call, and the operations that have not started or stopped between blocks. -/
def Ctx.engineBytes (x : Ctx) : List Byte :=
  padTo 128 (x.keptMx.flatMap fun o => match o.resume with | some r => o.stoppedBytes r | none => []) ++
    padTo 256 (x.keptMx.flatMap fun o => if o.resume.isSome then [] else o.saveBytes) ++ padTo 384 (x.keptSc.flatMap ScOp.saveBytes)

/-- The 131,072 bytes that the lodge writes of a context with the entries of its live area (R409). -/
def Ctx.areaBytes (x : Ctx) (v : Saved) (live : List LiveEntry) : List Byte :=
  padTo 0x1000 (x.saveHeader v ++ x.cur.controlBytes ++ x.cur.fixedBytes ++ x.tileBytes ++ x.engineBytes) ++
    padTo 0x17000 (live.flatMap x.cur.entryBytes) ++ padTo 0x4000 (x.keptDd.flatMap DdOp.saveBytes) ++
    padTo 0x4000 ((List.range x.cur.cellCount).flatMap fun n => (x.cell n).record)

/-- The device physical address of the save area of a context (R409): in a granule of its pavilion that the lodge chooses, where the areas of all
its contexts stand in their order. -/
def State.areaPlace (s : State) (pav : Nat) (l : Loc) : Nat :=
  let gs := (s.granules.filter fun g => g.2 == pav).map Prod.fst
  let choice := Config.saveAt pav
  gs.getD (choice % gs.length) 0 * 2 ^ 30 + (choice / 512 % 16 * 512 + (4 * l.core + l.ctx) % 512) * 131072

/-- The save of a context as the lodge makes it (R409): its area is encrypted under the device's key (R364). -/
def State.savedOf (s : State) (l : Loc) (vcn blocks domains : Nat) (loff : Option Nat) : Saved :=
  let (pav, key) := match (s.ctx l).binding with | some b => (b.pav, s.serialOf (s.dev b.pav b.vd).kidx) | none => (16, 0)
  { vcn := vcn, blocks := blocks, domains := domains, loff := loff, place := s.areaPlace pav l, key := key }

/-- The save area of a halted context (R409): 131,072 bytes; none where the context has no save. What falls due while the context is halted, a
boundary trap or the end of a call that stops, is in it. -/
def State.saveArea (s : State) (l : Loc) : Option (List Byte) :=
  let x := s.ctx l
  x.saved.map fun v => x.areaBytes v (match v.loff with | some off => s.liveOf l off | none => lodgeList v.vcn)

/-- The byte that stands at a device physical address in the save area of a halted context, as a key reads it (R364, R409); none elsewhere. -/
def State.areaByte (s : State) (l : Loc) (key pa : Nat) : Option Byte :=
  match (s.ctx l).saved, s.saveArea l with
  | some v, some bs =>
    if pa < v.place then none
    else bs[pa - v.place]?.map fun b => if v.key = key then b else Config.scrambled key v.key pa b
  | _, _ => none

end Sys2Proof.Machine
end

