-- ==== Sys2Proof/Machine/Save.lean ====
section
/-!
DEFINITION. Results that land (R31, R252, R400), the halt of a context at a safe point with its save (R43, R119, R162, R182, R239, R405,
R409), its restore (R407, R408), the selection of contexts (R35, R377, R379), and the end of a program (R249, R277, R298).
-/

namespace Sys2Proof.Machine

/-! ### Landing (R31) -/

/-- A pending result lands in a view: its register and result port are written and the register is full. -/
def View.landLong (w : View) (id : Nat) (v : Value) : View :=
  match w.pending.find? fun p => p.id == id with
  | some p => ({ w with pending := w.pending.filter fun q => q.id != id } : View).deliver p.hset p.unit p.dest v p.lanes
  | none => w

/-- A provisional long-latency operation is dropped (R37): its destination is as full as it is without it, unless another pending result
marks it empty. -/
def View.dropLong (w without : View) (id : Nat) : View :=
  let w1 : View := { w with pending := w.pending.filter fun q => q.id != id }
  match w.pending.find? fun p => p.id == id with
  | some ⟨_, _, some (f, n), _, _⟩ =>
    w1.markEmpty f n (without.isEmpty f n || w1.pending.any fun q => decide (q.dest = some (f, n)))
  | _ => w1

/-- A long-latency result lands (R31). Poisoned data never lands: a memory error falls due (R400), but for a provisional operation, which
raises no trap and is dropped instead (R37). -/
def State.landNow (s : State) (l : Loc) (id : Nat) : State :=
  let x := s.ctx l
  match x.landings.find? id with
  | none => s
  | some r =>
    let y : Ctx := { x with landings := x.landings.erase id }
    let s2 :=
      match r.value with
      | some v => s.setCtx l { y with cur := y.cur.landLong id v, fin := y.fin.map fun w => w.landLong id v }
      | none =>
        if (y.fin.getD y.cur).pending.any fun p => p.id == id then s.setCtx l { y with memErrDue := true }
        else s.setCtx l { y with cur := y.cur.dropLong (y.fin.getD y.cur) id }
    match r.tile, x.binding with
    | some t, some b => s2.onTile l.core ⟨l.ctx, b, 0⟩ t TileRole.source.leave
    | _, _ => s2

/-- A long-latency result lands once its minimum latency has passed (R252). -/
def State.landResult (s : State) (l : Loc) (id : Nat) : State :=
  match (s.ctx l).landings.find? id with
  | some r => if (s.core l.core).cycle < r.cycle then s else s.landNow l id
  | none => s

/-- Every result that is on its way lands, however long that takes: before a halt and at the end of a program (R249, R405). -/
def State.landAll (s : State) (l : Loc) : State := (s.ctx l).landings.foldl (fun s e => s.landNow l e.1) s

/-! ### What a restore finds (R119, R409) -/

/-- The port state of a unit that a list names; the rest is invalid (R43). -/
def Port.kept (p : Port) (ls : List LiveEntry) (unit : Nat) : Port :=
  let named (i : Nat) : Bool := ls.any fun e => e.kind == 5 && e.first == unit && e.more / 2 ^ i % 2 == 1
  { o1 := if named 0 then p.o1 else .reset
    o2 := if named 1 then p.o2 else .reset
    o3 := if named 2 then p.o3 else .reset
    sel := if named 3 then p.sel else none
    res := if named 4 then p.res else none }

/-- A view as a restore finds it (R119, R409): with a list, the registers and the port state that it names; after a lodge save, every
register and no port state. Every register is full but the destinations of reads that are held (R239). -/
def View.saved (w : View) (ls : Option (List LiveEntry)) : View :=
  let keep {α : Type} (kind : Nat) (t : Table α) : Table α :=
    match ls with
    | some es => t.filter fun e => keepsReg es kind e.1
    | none => t
  let w1 : View :=
    { w with
      s := keep 1 w.s, a := keep 2 w.a, v := keep 3 w.v, mp := keep 4 w.mp, emptyS := 0, emptyA := 0, emptyV := 0, hports := []
      ports := match ls with | some es => w.ports.map fun e => (e.1, Port.kept e.2 es e.1) | none => [] }
  w.pending.foldl (fun v p => match p.dest with | some (f, n) => v.markEmpty f n true | none => v) w1

/-! ### The halt (R405, R409) -/

/-- Whether an operation in an engine is one of the program that a context runs. -/
def State.isMine (s : State) (l : Loc) (w : Who) : Bool := w.ctx == l.ctx && s.progOf l == some w.bind.prog

/-- The engines at a halt (R162, R182, R239): a running call is to stop at its next stated step, what has not started leaves the
queues, dd operations that can act do so and the rest are held. -/
def State.stopEngines (s : State) (l : Loc) : State :=
  let k := s.core l.core
  let mine := s.isMine l
  let s1 := s.setCore l.core
    { k with
      mxRun := k.mxRun.map fun r => if mine r.op.who && decide (r.op.op = .mcall) then { r with stopping := true } else r
      mxq := k.mxq.filter fun o => !mine o.who
      scq := k.scq.filter fun o => !mine o.who
      ddq := k.ddq.map fun o => if mine o.who then { o with bounds := [] } else o }
  let s2 := (s1.pumpDd l.core).landAll l
  let held := (s2.core l.core).ddq.filter fun o => mine o.who
  let k2 := s2.core l.core
  let s3 := s2.setCore l.core { k2 with ddq := k2.ddq.filter fun o => !mine o.who }
  let x := s3.ctx l
  s3.setCtx l
    { x with
      keptMx := x.keptMx ++ k.mxq.filter fun o => mine o.who
      keptSc := x.keptSc ++ k.scq.filter fun o => mine o.who
      keptDd := held }

/-- The region counter at a halt for save, and at HALT (R324): the region ends, and sixteen more. -/
def View.leaveRegion (w : View) : View := { w with region := (w.region + 17) % 32 }

/-- A context halts and is saved (R405): at a marker with the LOFF of its live-state list, or by a lodge save before its first bundle. A fence that its
last bundle has left waiting goes on after the restore. -/
def State.haltSave (s : State) (l : Loc) (off : Option Nat) : State :=
  let s1 := ((s.chargeOverrun l).landAll l).stopEngines l
  let x := s1.ctx l
  let k := s1.core l.core
  let w := (x.cur.saved (off.map (s.liveOf l))).leaveRegion
  let y : Ctx :=
    { x with
      mode := .halted, wait := none, held := none, preempt := false, asked := none, waited := 0, marker := none, cur := w, fin := none
      saved := some (s1.savedOf l (k.vcount l.ctx) (bitCount8 (bits w.ctl.ddgrant 7 0)) (bitCount8 (bits w.ctl.ddgrant 15 8)) off) }
  let s2 := s1.setCtx l y
  let k2 := s2.core l.core
  if k2.running = some l.ctx then s2.setCore l.core { k2 with running := none } else s2

/-- A pre-emption request reaches its core (R405): a context that has not started is saved by the lodge, one that waits at a marker
halts at once, any other halts after its next marker; off and halted contexts do nothing. -/
def State.requestHalt (s : State) (l : Loc) : State :=
  let x := s.ctx l
  match x.mode with
  | .off | .halted => s
  | _ =>
    if !x.started && (decide (x.mode = .ready) || decide (x.mode = .running)) then s.haltSave l none
    else
      match x.marker, x.wait with
      | some off, some .bundle => s.haltSave l (some off)
      | _, some (.ending _ _) => s
      | _, _ => s.setCtx l { x with preempt := true, waited := if x.preempt then x.waited else 0 }

/-! ### The restore (R407, R408) -/

/-- The lowest units of eight that a mask leaves free, as a mask; none where there are fewer. -/
def takeUnits (used n : Nat) : Option Nat :=
  let free := (List.range 8).filter fun i => used / 2 ^ i % 2 == 0
  if free.length < n then none else some ((free.take n).foldl (fun m i => m + 2 ^ i) 0)

/-- The grant that a context finds where it resumes: its own on its own core, the lowest free units on another (R239). -/
def State.regrant (s : State) (l dst : Loc) (v : Saved) : Option Word :=
  if l.core = dst.core then some (s.ctx l).cur.ctl.ddgrant
  else
    match takeUnits ((s.core dst.core).granted 0) v.blocks, takeUnits ((s.core dst.core).granted 8) v.domains with
    | some b, some d => some (BitVec.ofNat 64 (b + d * 2 ^ 8))
    | _, _ => none

/-- Whether an engine still runs an operation of a context. -/
def State.engineBusy (s : State) (l : Loc) : Bool :=
  let k := s.core l.core
  (match k.mxRun with | some r => s.isMine l r.op.who | none => false) ||
    (match k.scRun with | some o => s.isMine l o.who | none => false)

/-- Whether a halted context may resume at a place (R408). -/
def State.mayResume (s : State) (l dst : Loc) (v : Saved) : Bool :=
  let x := s.ctx l
  let k := s.core l.core
  let kt := s.core dst.core
  let idle := !s.engineBusy l
  if l = dst then idle
  else
    let fits := decide ((s.ctx dst).mode = .off) && kt.vcount dst.ctx == v.vcn && idle
    if l.core = dst.core then fits
    else
      match x.binding with
      | none => false
      | some b =>
        fits && (s.pav b.pav).cores.contains dst.core && !(k.claims.any fun c => c.prog == b.prog) &&
          !(k.ztiles.any fun z => z.2.owner == some b.prog) && x.keptMx.isEmpty && x.keptSc.isEmpty &&
          (x.tiles.all fun t => t.2.stat.state == 0) && decide (kt.table.length < 64)

/-- The task of a program moves to another core's table. -/
def State.moveTask (s : State) (core dst id : Nat) : State :=
  if core = dst then s
  else
    let k := s.core core
    let s1 := s.setCore core { k with table := k.table.filter fun t => t.id != id }
    let k1 := s1.core dst
    s1.setCore dst { k1 with table := k1.table ++ k.table.filter fun t => t.id == id }

/-- The operations of a program that are queued or run follow its context to another place of the core. -/
def Core.moveOps (k : Core) (prog c : Nat) : Core :=
  let go (w : Who) : Who := if w.bind.prog = prog then { w with ctx := c } else w
  { k with
    mxq := k.mxq.map fun o => { o with who := go o.who }
    scq := k.scq.map fun o => { o with who := go o.who }
    frq := k.frq.map fun o => { o with who := go o.who }
    cp0q := k.cp0q.map fun o => { o with who := go o.who }
    cp1q := k.cp1q.map fun o => { o with who := go o.who } }

/-- A context that its program has left: off, with its region counter and acquire table (R324). -/
def Ctx.vacate (x : Ctx) : Ctx :=
  { Ctx.reset with cur := { View.reset with region := x.cur.region, acquired := x.cur.acquired } }

/-- A halted context is restored (R407): its engine operations re-enter the queues at their tails, then its held dd operations, paused
domains resume, and the boundary traps that the save records are taken. -/
def State.restoreCtx (s : State) (l dst : Loc) : State :=
  let x := s.ctx l
  match x.saved with
  | none => s
  | some v =>
    match s.mayResume l dst v, s.regrant l dst v with
    | true, some g =>
      let moveWho (w : Who) : Who := { w with ctx := dst.ctx }
      let y : Ctx :=
        { x with
          mode := .ready, wait := none, saved := none, keptMx := [], keptSc := [], keptDd := [], stepAt := []
          cur := { x.cur with ctl := { x.cur.ctl with ddgrant := g } } }
      let s1 := if l = dst then s else s.setCtx l x.vacate
      let task := match x.binding with | some b => b.task | none => 0
      let s2 := (s1.moveTask l.core dst.core task).setCtx dst y
      let k := (s2.core dst.core).moveOps (match x.binding with | some b => b.prog | none => 0) dst.ctx
      let ds := (List.range y.cur.domainCount).filter y.cur.runs
      let s3 := s2.setCore dst.core
        { k with
          table := k.table.map fun t => if t.id = task then { t with bound := some dst.ctx } else t
          mxq := k.mxq ++ x.keptMx.map fun o => { o with who := moveWho o.who }
          scq := k.scq ++ x.keptSc.map fun o => { o with who := moveWho o.who }
          ddq := k.ddq ++ x.keptDd.map fun o => { o with who := moveWho o.who, bounds := ds } }
      let s4 := s3.pumpDd dst.core
      let s5 := match (s4.ctx dst).boundaryTrap with | some t => s4.takeBoundary dst t | none => s4
      let s6 := if (s5.ctx dst).fence.isEmpty || !(s5.ctx dst).goesOn then s5 else s5.block dst .fence
      if l = dst then s6 else s6.settle l.core
    | _, _ => s

/-! ### Smooth weighted round robin (R377) -/

/-- Smooth: the member that is chosen among members with weights, and the counters after it; ties go to the first. -/
def smooth (members : List (Nat × Nat)) (counters : Table Int) : Option Nat × Table Int :=
  let c1 := members.foldl (fun t m => t.set m.1 (t.getD m.1 0 + Int.ofNat m.2)) counters
  let total := members.foldl (fun n m => n + m.2) 0
  match members with
  | [] => (none, counters)
  | m :: rest =>
    let best := rest.foldl (fun b e => if c1.getD e.1 0 > c1.getD b 0 then e.1 else b) m.1
    (some best, c1.set best (c1.getD best 0 - Int.ofNat total))

/-- The rate register of a class: 0 issue slots, 2 HBM4, 3 LP6, 4 frame engine, 5 promenade send (R373). -/
def Dev.rate (d : Dev) (cls : Nat) : Word :=
  if cls = 0 then d.riss else if cls = 2 then d.rhbm else if cls = 3 then d.rlp6 else if cls = 4 then d.rfrm else d.rprom

/-- The class of an arbiter by its number. -/
def arbClass (n : Nat) : Nat := if n < 128 then 0 else if n < 256 then 4 else if n < 512 then 5 else if n < 516 then 2 else 3

/-- The rate register of a device in force at an arbiter (R374): the register as it was when the arbiter last took it over. -/
def State.rateAt (s : State) (arb key : Nat) : Word :=
  match (s.arb arb).rates.find? key with
  | some w => w
  | none => (s.dev (key / 128) (key % 128)).rate (arbClass arb)

/-- WT of a rate register. -/
def rateWt (w : Word) : Nat := bits w 39 32
/-- RATE. -/
def rateOf (w : Word) : Nat := bits w 10 0
/-- DEPTH. -/
def rateDepth (w : Word) : Nat := bits w 31 16

/-- LendPick (R377) at an arbiter among devices with waiting requests, given in ascending order; `from_` is the pavilion of the slot's
owner. -/
def State.lendPick (s : State) (arb : Nat) (from_ : Option Nat) (waiting : List Nat) : Option Nat × State :=
  let wt (key : Nat) : Nat := rateWt (s.rateAt arb key)
  let ready := waiting.filter fun key => wt key != 0
  let a := s.arb arb
  let pick (keys : List Nat) (a : Arb) : Option Nat × State :=
    let (d, lc) := smooth (keys.map fun key => (key, wt key)) a.lc
    (d, s.setArb arb { a with lc := lc })
  let own := ready.filter fun key => some (key / 128) == from_
  let lends := match from_ with | some p => bit (s.pav p).pavlend 0 | none => true
  if !own.isEmpty then pick own a
  else if !lends then (none, s)
  else
    let others := (ready.map fun key => key / 128).eraseDups.filter fun p => some p != from_ && bit (s.pav p).pavlend 1
    match smooth (others.map fun p => (p, bits (s.pav p).pavlend 15 8)) a.plc with
    | (some r, plc) => pick (ready.filter fun key => key / 128 == r) { a with plc := plc }
    | (none, _) => (none, s)

/-! ### The selection of contexts (R35, R379) -/

/-- The contexts of a core that are ready to issue, the running one among them. -/
def Core.ready (k : Core) : List Nat :=
  (List.range 4).filter fun c => decide ((k.ctx c).mode = .ready) || decide ((k.ctx c).mode = .running)

/-- The device of a context of a core, as a key. -/
def Core.keyOf (k : Core) (c : Nat) : Nat :=
  match (k.ctx c).binding with
  | some b => devKey b.pav b.vd
  | none => 0

/-- A context of a core is made the running one; a switch costs the present cycle as a bubble, which its task is charged (R35, R386). DESIGN
CHOICE (log 31): the cycle in which a bundle is found to block is spent too, and the bubble of the switch that follows is a second
one. -/
def State.switchTo (s : State) (core c : Nat) : State :=
  let k := s.core core
  if k.running = some c then s
  else
    let s1 := match k.running with
      | some r => s.setCtx ⟨core, r⟩ { k.ctx r with mode := if (k.ctx r).mode = CtxMode.running then CtxMode.ready else (k.ctx r).mode }
      | none => s
    let k1 := s1.core core
    let s2 := s1.setCore core { k1 with running := some c, taken := some c }
    let s3 := s2.setCtx ⟨core, c⟩ { (s2.core core).ctx c with mode := .running }
    match (k.ctx c).binding with
    | some b => s3.measured core b 1
    | none => s3

/-- The selection at a bundle boundary among some ready contexts (R379); a context with a pending pre-emption request comes first
(R405). -/
def State.selectAmong (s : State) (core : Nat) (cs : List Nat) : State :=
  let k := s.core core
  let tok (c : Nat) : Int := (s.arb core).bucket (k.keyOf c)
  let rich := cs.filter fun c => decide (tok c ≥ 1)
  let running := cs.filter fun c => k.running == some c
  match cs.filter fun c => (k.ctx c).preempt with
  | c :: _ => s.switchTo core c
  | [] =>
    match running.filter fun c => decide (tok c ≥ 1) with
    | _ :: _ => s
    | [] =>
      match rich with
      | c :: rest => s.switchTo core (rest.foldl (fun b e => if tok e > tok b then e else b) c)
      | [] =>
        match running with
        | _ :: _ => s
        | [] =>
          let keys := (cs.map k.keyOf).eraseDups
          match s.lendPick core (keys.head?.map (· / 128)) ((List.range 2048).filter keys.contains) with
          | (some d, s1) =>
            match cs.filter fun c => k.keyOf c == d with
            | c :: _ => s1.switchTo core c
            | [] => s1
          | (none, s1) => s1

/-- The context selector of a core acts in a cycle that nothing has taken (R379). -/
def State.select (s : State) (core : Nat) : State :=
  match (s.core core).taken with
  | none => s.selectAmong core (s.core core).ready
  | some _ => s

/-! ### The end of a program (R249, R277, R281, R298, R394) -/

/-- The held claims of a program, but for those on some banks, enter releasing, and its pending ones are gone (R298). -/
def Core.releaseClaims (k : Core) (prog : Nat) (kept : List Nat) : Core :=
  { k with claims := (k.claims.filter fun c => !(c.prog == prog && decide (c.state = .pending))).map fun c =>
      if c.prog = prog ∧ c.bank ∉ kept then { c with state := .releasing } else c }

/-- The banks of a range. -/
def rangeBanks (r : Nat × Nat) : List Nat := (List.range r.2).map fun i => r.1 + i

/-- The banks that stay with a task for the pipes of its gang until the last member halts: those of SET3 of member 0 (R281). -/
def Task.pipeBanks (t : Task) : List Nat :=
  if recMidx t.record = 0 ∧ recPipes t.record > 0 then
    rangeBanks (t.firsts.getD 3 0, (recEntrySet t.record 3).len)
  else []

/-- A task's banks, but for some, leave its table entry, and its claims enter releasing (R298); the region that its HALT ended goes with
them (R300, R324). -/
def Core.passBanks (k : Core) (t : Task) (kept : List Nat) : Core :=
  let k0 : Core :=
    match t.ended with
    | some (_, _, w, r) =>
      (k.claims.filter fun (c : Claim) => c.prog == t.id && decide (c.state = ClaimState.held)).foldl
        (fun (k : Core) (c : Claim) => k.passOn t.id c.bank (w, r)) k
    | none => k
  let k1 := k0.releaseClaims t.id kept
  { k1 with table := k1.table.map fun u =>
      if u.id = t.id then { u with reads := [], writes := kept.map fun b => (b, 1) } else u }

/-- The banks of an ended task pass on, those that hold its gang's pipes when the last member has ended; the pipes are freed then
(R281). The gang's number is that of its member 0. -/
def Core.endTask (k : Core) (id : Nat) : Core :=
  match k.table.find? fun (t : Task) => t.id == id with
  | none => k.releaseClaims id []
  | some t =>
    match t.gang with
    | none => k.passBanks t []
    | some g =>
      let k1 := k.passBanks t t.pipeBanks
      if (k1.gangTasks g).all fun (m : Task) => m.ended.isSome then
        let k2 := k1.releaseClaims g []
        { k2 with
          table := k2.table.map fun u => if u.id = g then { u with writes := [] } else u
          queues := k2.queues.map fun e => if e.2.gang = some g then (e.1, { e.2 with en := false, gang := none }) else e }
      else k1

/-- Scan operations are dropped: each leaves SCNT of its slot (R173). -/
def Core.dropScans (k : Core) (os : List ScOp) : Core :=
  { k with slots := os.foldl (fun t o =>
      let f := t.getD (cfgSlot o.cfg) FrameSlot.reset
      t.set (cfgSlot o.cfg) { f with scnt := f.scnt - 1 }) k.slots }

/-- The control registers once the grant of a program is returned and its domains have stopped (R249). -/
def Ctl.stopped (c : Ctl) : Ctl :=
  { c with ddgrant := 0, domclk := c.domclk.map fun e => (e.1, e.2 &&& ~~~0x10000) }

/-- The arithmetic or overrun fault that is due at a context as it becomes off: it goes to the lodge (R161, R235). -/
def Ctx.lateTrap (x : Ctx) : Option Trap :=
  if x.arithDue || x.overrunDue then x.boundaryTrap else none

/-- The program of a context leaves it (R249, R394): its writes and results are complete, its cells and domains are returned, its region
ends unless a save has ended it before (R324), its table entry keeps the exit, its banks pass on, and the context is off. Its registers stay as
they are until the next binding. -/
def State.leave (s : State) (l : Loc) (exit status : Nat) : State :=
  let s1 := (s.landAll l).settle l.core
  let x := s1.ctx l
  match x.binding with
  | none => s1
  | some b =>
    let w := (x.fin.getD x.cur).complete
    let k := s1.core l.core
    let r := if x.saved.isSome then (w.region + 15) % 32 else w.region
    let k1 : Core :=
      { k with
        ddq := k.ddq.filter fun o => !s1.isMine l o.who
        table := k.table.map fun t =>
          if t.id = b.task then { t with bound := none, ended := some (exit, status, l.phys, r) } else t
        running := if k.running = some l.ctx then none else k.running }
    let v := if x.saved.isSome then w else w.leaveRegion
    let off : Ctx := { Ctx.reset with pc := x.pc, ctime := x.ctime, cur := { v with pending := [], looping := false, ctl := v.ctl.stopped } }
    let k2 := (k1.endTask b.task).dropScans x.keptSc
    let s2 := (s1.setCore l.core k2).setCtx l off
    (match x.lateTrap with
      | some t => s2.post b.pav b.vd ⟨5, t.cls.code, t.cause, l.core, l.ctx, 0, 0, x.pc⟩
      | none => s2).settle l.core

/-- The program of a context ends (R249, R277, R394): at once, or, while integrator operations or kept triggers of it have still to act, once
they have; it issues no
further bundle. -/
def State.endProgram (s : State) (l : Loc) (exit status : Nat) : State :=
  let x := s.ctx l
  if x.saved.isNone && (!x.late.isEmpty || (s.core l.core).ddq.any fun o => s.isMine l o.who) then
    let k := s.core l.core
    let s1 := s.setCore l.core { k with running := if k.running = some l.ctx then none else k.running }
    s1.setCtx l { s1.ctx l with mode := .blocked, wait := some (.ending exit status), held := none, preempt := false, asked := none }
  else s.leave l exit status

/-- A program that has ended leaves its context once its integrator operations, and the triggers that a fence of its last bundle keeps, have
acted (R205, R249). -/
def State.endLate (s : State) (l : Loc) (exit status : Nat) : State :=
  if !(s.ctx l).late.isEmpty || (s.core l.core).ddq.any fun o => s.isMine l o.who then s else s.leave l exit status

/-! ### Steps -/

/-- LONG_LATENCY_LANDING (R31). -/
def execLongLatencyLanding (core ctx op : Nat) (s : State) : Host.Outcome State Fault Refusal := .next (s.landResult ⟨core, ctx⟩ op)
/-- CONTEXT_SELECT (R379). -/
def execContextSelect (core : Nat) (s : State) : Host.Outcome State Fault Refusal := .next (s.select core)
/-- Whether the request of another context of the core is in flight (R405). -/
def Core.requested (k : Core) (c : Nat) : Bool := k.ctxs.any fun e => e.1 != c && e.2.preempt

/-- PREEMPTION_REQUEST (R405): a core has at most one request in flight, and another waits at the lodge until that one is met (log 17). -/
def execPreemptionRequest (core ctx : Nat) (s : State) : Host.Outcome State Fault Refusal :=
  .next (if (s.core core).requested ctx then s else s.requestHalt ⟨core, ctx⟩)
/-- CONTEXT_RESTORE (R407). -/
def execContextRestore (core ctx toCore toCtx : Nat) (s : State) : Host.Outcome State Fault Refusal :=
  .next (s.restoreCtx ⟨core, ctx⟩ ⟨toCore, toCtx⟩)
/-- CONTEXT_RELEASE (R394): the driver releases a halted context, or one that waits without end (R285, log 17); its task ends with
STATUS 4. -/
def execContextRelease (core ctx : Nat) (s : State) : Host.Outcome State Fault Refusal :=
  let l : Loc := ⟨core, ctx⟩
  let x := s.ctx l
  .next (match x.mode with
    | .off => s
    | .halted => s.endProgram l 0 4
    | _ => (s.setCtx l x.settle).endProgram l 0 4)
/-- The 40 µs of the watchdog (R20, R412), in the unit of Ctx.waited. -/
def watchdogTime : Nat := 40000 * 42

/-- WATCHDOG_EXPIRY (R412): a context that has not reached its halt 40 µs after the request is stopped and released without a save; ORIGIN 9 is posted and
its task ends with STATUS 4. -/
def execWatchdogExpiry (core ctx : Nat) (s : State) : Host.Outcome State Fault Refusal :=
  let l : Loc := ⟨core, ctx⟩
  let x := s.ctx l
  match x.preempt && decide (watchdogTime ≤ x.waited), x.binding with
  | true, some b =>
    let s1 := (s.chargeOverrun l).setCtx l x.settle
    .next (((s1.post b.pav b.vd ⟨9, 13, 0, core, ctx, 0, 0, x.pc⟩).countHealth 6).endProgram l 0 4)
  | _, _ => .next s

end Sys2Proof.Machine
end

