-- ==== Sys2Proof/Machine/System.lean ====
section
/-!
DEFINITION. The system operations of the scalar bus: control registers (R223, R224, R237, R244, R245, R281, R295, R296), the rate query
(R250), markers (R118), software traps (R247), handler return and yield (R248) and halt (R249).
-/

namespace Sys2Proof.Machine

/-! ### Control registers -/

/-- The queue of a QCFG number. -/
def qcfgIndex (n : Nat) : Option Nat := if 0x030 ≤ n ∧ n < 0x040 then some (n - 0x030) else none
/-- The bank of a BANKFMT number. -/
def bankfmtIndex (n : Nat) : Option Nat := if 0x041 ≤ n ∧ n < 0x091 then some (n - 0x041) else none
/-- The relative domain of a DOMCLK or DOMCNT number. -/
def domainIndex (n : Nat) : Option Nat := if 0x018 ≤ n ∧ n < 0x028 then some ((n - 0x018) % 8) else none

/-- Whether a number is a control register (R244). -/
def isControl (n : Nat) : Bool :=
  decide (n ≤ 0x012) || (domainIndex n).isSome || (qcfgIndex n).isSome || n == 0x040 || (bankfmtIndex n).isSome ||
    (decide (0x0A0 ≤ n) && decide (n ≤ 0x0A2))

/-- Whether a control register is read-only as a whole (R244, R245). -/
def isReadOnly (n : Nat) : Bool :=
  n == 0x003 || n == 0x007 || n == 0x009 || n == 0x010 || n == 0x040 || (decide (0x0A0 ≤ n) && decide (n ≤ 0x0A2))

/-- QCFG as its map lays it out (R223). -/
def Queue.word (q : Queue) : Word :=
  BitVec.ofNat 64 (q.base8 + q.lcap * 2 ^ 20 + b2n q.en * 2 ^ 24 + q.head * 2 ^ 32 + q.count * 2 ^ 48)

/-- Whether the QCFG of a queue is another's: of a gang that the context is no member of, or of another program (R224, R281). -/
def State.foreignQueue (s : State) (l : Loc) (q : Queue) : Bool :=
  match q.gang, q.owner with
  | some g, _ => s.gangOf l != some g
  | none, some p => s.progOf l != some p
  | none, none => false

/-- Whether the reading program holds the write claim of a bank (R295). -/
def Core.writeClaim (k : Core) (prog : Option Nat) (b : Nat) : Bool :=
  (k.claimsOf prog b).any fun c => c.write && decide (c.state ≠ .releasing)

/-- BANKFMT as a program reads it (R295). -/
def Core.bankWord (k : Core) (prog : Option Nat) (b : Nat) : Word :=
  let scr := k.scratch b
  let own := (k.claimsOf prog b).any fun c => decide (c.state ≠ .releasing)
  BitVec.ofNat 64
    ((if scr then (k.fmtOf b).toNat else 0) + b2n scr * 2 ^ 8 + b2n own * 2 ^ 9 + b2n (k.frameHeld b) * 2 ^ 10 +
      b2n (k.withdrawn.contains b) * 2 ^ 11 + b2n (k.writeClaim prog b) * 2 ^ 12)

/-- POOLPART with SBN as R293 derives it. -/
def Core.partWord (k : Core) : Word :=
  let sbn := ((List.range 80).filter k.scratch).length
  BitVec.ofNat 64 (bits k.poolpart 10 0 + sbn * 2 ^ 11)

/-- A control register as a context reads it (R244). -/
def State.control (s : State) (l : Loc) (n : Nat) : Word :=
  let k := s.core l.core
  let x := s.ctx l
  match qcfgIndex n, bankfmtIndex n with
  | some i, _ => if s.foreignQueue l (k.queue i) then 0 else (k.queue i).word
  | none, some b => k.bankWord (s.progOf l) b
  | none, none =>
    if n = 0x009 then BitVec.ofNat 64 x.cur.cf.length
    else if n = 0x040 then k.partWord
    else if n = 0x0A1 then BitVec.ofNat 64 x.ctime
    else if n = 0x0A2 then BitVec.ofNat 64 k.cycle
    else x.cur.ctl.read n

/-- The refusal of a register number (R237, R244, R245). -/
def State.badControl (s : State) (l : Loc) (n : Word) : Option Cause :=
  if bits n 63 12 ≠ 0 then some 29
  else if !isControl n.toNat then some 28
  else
    match domainIndex n.toNat with
    | some d => if d ≥ (s.ctx l).cur.domainCount then some 25 else none
    | none => none

/-- CRR. -/
def semCrr : OpSem :=
  { OpSem.base with
    sel := some [.s, .mp]
    encoding := fun s l o => s.badControl l o.xw
    parts := [.enc [0] fun s l o => s.badControl l o.xw]
    reads := fun s l o => s.control l o.xw.toNat
    act := fun s l o => s.result l o 1 (.word o.seen) }

/-- BASE8, LCAP and EN of a QCFG word. -/
def qcfgBase (x : Word) : Nat := bits x 19 0
/-- LCAP. -/
def qcfgCap (x : Word) : Nat := bits x 23 20
/-- EN. -/
def qcfgEn (x : Word) : Bool := bit x 24

/-- Whether a QCFG word with EN = 1 is refused (R223). -/
def State.badQcfg (s : State) (l : Loc) (x : Word) : Bool :=
  let k := s.core l.core
  qcfgEn x && (decide (qcfgCap x > 12) || decide (8 * qcfgBase x + 8 * 2 ^ qcfgCap x > 5242880) ||
    (storageBanks (qcfgBase x) (qcfgCap x)).any fun b => !k.owns (s.progOf l) b || k.frameHeld b)

/-- The refusal of the value of a CRW by the register's own checks (R57, R77, R175, R223, R246). -/
def State.badControlValue (s : State) (l : Loc) (n : Nat) (x : Word) : Option Cause :=
  if n = 0x001 && gbaseBad x then some 29
  else if n = 0x002 && bits x 2 1 != 0 then some 29
  else if n = 0x00B && badScfg x then some 21
  else
    match qcfgIndex n, bankfmtIndex n with
    | some _, _ => if s.badQcfg l x then some 29 else none
    | none, some _ => if badFmt (x.setWidth 8) then some 29 else none
    | none, none => none

/-- The queue after a CRW of its QCFG (R223, R224): with EN = 1 it is emptied, and a queue that nobody holds becomes the writer's;
with EN = 0 its owner loses it. -/
def State.queueWritten (s : State) (l : Loc) (q : Queue) (x : Word) : Queue :=
  let q1 : Queue := { q with base8 := qcfgBase x, lcap := qcfgCap x, en := qcfgEn x }
  if qcfgEn x then
    { q1 with head := 0, count := 0, stamps := [], owner := if q.gang.isSome then q.owner else s.progOf l }
  else { q1 with owner := none }

/-- A CRW of a register of the context takes effect at the end of the bundle (R245). -/
def State.flyControl (s : State) (l : Loc) (o : Opd) (n : Nat) : State :=
  match qcfgIndex n, bankfmtIndex n with
  | none, none => s.fly l o.prov (s.ctx l).ctime o.s [.ctl n o.xw]
  | _, _ => s

/-- A CRW of a register of the core takes effect at the end of the bundle, with what it was kept while a taken branch is to withdraw it
(R37, R245). -/
def State.writeControl (s : State) (l : Loc) (o : Opd) (n : Nat) : State :=
  let x := o.xw
  let k := s.core l.core
  let keep (s : State) (w : CoreWord) : State :=
    if o.prov then s.setCtx l { s.ctx l with undo := w :: (s.ctx l).undo } else s
  match qcfgIndex n, bankfmtIndex n with
  | some i, _ => (keep s (.queue i (k.queue i))).setQueue l.core i (s.queueWritten l (k.queue i) x)
  | none, some b =>
    let s1 := keep s (.format b (k.fmtOf b))
    let k1 := s1.core l.core
    s1.setCore l.core { k1 with fmt := k1.fmt.set b (x.setWidth 8) }
  | none, none => s

/-- The sequence traps of a CRW of a register (R237, R245, R296): a loop register in replay, the counter of a running domain, the format of a
frame's bank. They stand before a missing right, by the stages of R392. -/
def State.controlPlace (s : State) (l : Loc) (n : Nat) : Option Cause :=
  let w := (s.ctx l).cur
  let k := s.core l.core
  if 0x00C ≤ n ∧ n ≤ 0x00F ∧ bit w.ctl.loopst 30 ∧ !w.inHandler then some 14
  else if 0x020 ≤ n ∧ n < 0x028 ∧ w.runs (n - 0x020) then some 11
  else
    match bankfmtIndex n with
    | some b => if k.scratch b && k.frameHeld b then some 8 else none
    | none => none

/-- A CRW that lacks the right to its register (R224, R245, R281, R296). -/
def State.controlDenied (s : State) (l : Loc) (n : Nat) : Option Trap :=
  let k := s.core l.core
  let denied := isReadOnly n || (match qcfgIndex n with | some i => s.foreignQueue l (k.queue i) | none => false) ||
    (match bankfmtIndex n with | some b => !k.scratch b || !k.writeClaim (s.progOf l) b | none => false)
  if denied then some (capTrap 4 0) else none

/-- CRW. -/
def semCrw : OpSem :=
  { OpSem.base with
    latches := [(1, .word)]
    sel := some [.s, .mp]
    encoding := fun s l o =>
      match s.badControl l o.b with
      | some c => some c
      | none => s.badControlValue l o.b.toNat o.xw
    sequence := fun s l o => s.controlPlace l o.b.toNat
    capability := fun s l o => s.controlDenied l o.b.toNat
    parts := [.enc [1] fun s l o => s.badControl l o.b, .seq [1] fun s l o => s.controlPlace l o.b.toNat,
      ⟨5, [1], fun s l o => s.controlDenied l o.b.toNat⟩]
    preview := some fun s l o _ => if o.b.toNat = 0x004 then s.onView l false fun w => { w with ctl := w.ctl.write 0x004 o.xw } else s
    blocks := fun s l o =>
      let n := o.b.toNat
      let k := s.core l.core
      match qcfgIndex n, bankfmtIndex n with
      | some _, _ => qcfgEn o.xw && (storageBanks (qcfgBase o.xw) (qcfgCap o.xw)).any fun b => k.pendingOn (s.progOf l) b
      | none, some b => k.pendingOn (s.progOf l) b || k.tilesBusy [b]
      | none, none => false
    reads := fun s l o => s.control l o.b.toNat
    act := fun s l o => (s.flyControl l o o.b.toNat).result l o 1 (.word o.seen)
    finish := fun s l o => s.writeControl l o o.b.toNat }

/-- The bucket or way mask that QOS reads (R250): that of the memory controllers of the core's garden, and of the ascending output. -/
def State.qosWord (s : State) (l : Loc) (cls : Nat) : Word :=
  let a := s.accessor l
  let arb := if cls = 0 then l.core else if cls = 2 then 512 + l.core / 32 else if cls = 3 then 516 + l.core / 32
    else if cls = 4 then 128 + l.core else 256 + 2 * l.core
  if cls = 1 then BitVec.ofNat 64 (s.qosMask a.pav a.vd (sliceOf l.core))
  else BitVec.ofInt 64 ((s.arb arb).bucket (devKey a.pav a.vd))

/-- QOS. -/
def semQos : OpSem :=
  { OpSem.base with
    sel := some [.s, .mp]
    encoding := fun _ _ o => if o.xw.toNat ≥ 6 then some 29 else none
    parts := [.enc [0] fun _ _ o => if o.xw.toNat ≥ 6 then some 29 else none]
    reads := fun s l o => s.qosWord l o.xw.toNat
    act := fun s l o => s.after l o 1 (o.resultEffs (.word o.seen) none ++ [.ctl 0x0A0 o.seen]) }

/-- CRR (R245). -/
def execCrr (m : Mv) (s : State) : Host.Outcome State Fault Refusal :=
  runTrigger semCrr .pd .crr m s

/-- CRW (R245). -/
def execCrw (m : Mv) (s : State) : Host.Outcome State Fault Refusal :=
  runTrigger semCrw .pd .crw m s

/-- QOS (R250). -/
def execQos (m : Mv) (s : State) : Host.Outcome State Fault Refusal :=
  runTrigger semQos .pd .qos m s


/-! ### Markers, traps, return, yield and halt -/

/-- Whether a context stands in the last bundle of a loop body (R116). -/
def View.lastBody (w : View) : Bool := w.looping && bits w.ctl.loopst 5 0 == bits w.ctl.loopwd 5 0

/-- The sequence trap of a marker in a delay bundle of a taken branch, or in a loop body before its last bundle (R43, R116). -/
def safePlace (s : State) (l : Loc) : Option Cause :=
  let x := s.ctx l
  if x.inDelay || (x.cur.looping && !x.cur.lastBody) then some 1 else none

/-- SAFE: in a handler it makes no safe point (R254). -/
def semSafe : OpSem :=
  { OpSem.base with
    plainS := true
    encoding := fun _ _ o => if bits o.xw 63 32 ≠ 0 ∨ bits o.xw 1 0 ≠ 0 then some 29 else none
    sequence := fun s l _ => safePlace s l
    parts := [.enc [0] fun _ _ o => if bits o.xw 63 32 ≠ 0 ∨ bits o.xw 1 0 ≠ 0 then some 29 else none, .seq [] fun s l _ => safePlace s l]
    act := fun s l o =>
      let x := s.ctx l
      if x.cur.inHandler then s else s.setCtx l { x with marker := some (bits o.xw 31 0) }
    after := fun s l _ =>
      let x := s.ctx l
      match x.marker with
      | some off => if x.preempt then s.haltSave l (some off) else s
      | none => s }

/-- TRAP. -/
def semTrap : OpSem :=
  { OpSem.base with
    plainS := true
    encoding := fun _ _ o => if bits o.xw 63 16 ≠ 0 then some 29 else none
    sequence := branchPlace
    parts := [.enc [0] fun _ _ o => if bits o.xw 63 16 ≠ 0 then some 29 else none, .place 3 branchTrap]
    after := fun s l o => s.takeTrap l ⟨.software, 0, 0, 0, bits o.xw 15 0, 0⟩ 0 false (s.ctx l).pc }

/-- A handler return whose TEPC is misaligned (R75, R248): the TEPC that the bundle leaves, with what a CRW in it shows. -/
def rteTarget (s : State) (l : Loc) : Option Cause :=
  let w := (s.ctx l).cur
  if w.inHandler && bits w.ctl.tepc 2 0 != 0 then some 6 else none

/-- The sequence traps of RTE (R39, R116, R248). -/
def rtePlace (s : State) (l : Loc) : Option Cause :=
  if (s.ctx l).inDelay || (s.ctx l).cur.looping then some 1 else if (s.ctx l).cur.inHandler then none else some 13

/-- RTE. -/
def semRte : OpSem :=
  { OpSem.base with
    plainS := true
    encoding := fun s l _ => rteTarget s l
    sequence := fun s l _ => rtePlace s l
    parts := [.enc [] fun s l _ => rteTarget s l, .seq [] fun s l _ => rtePlace s l]
    after := fun s l _ => s.setCtx l (s.ctx l).returnFromTrap }

/-- The context yields at a boundary (R248): it is ready, and the selector chooses among the others if one is ready. The cycle is that of the
yielding bundle, so the bubble of the switch is the next one (R35). -/
def State.yieldAt (s : State) (l : Loc) : State :=
  match (s.core l.core).ready.filter (· != l.ctx) with
  | [] => s
  | cs =>
    let t := s.selectAmong l.core cs
    let k := t.core l.core
    if k.running = some l.ctx then t else t.setCore l.core { k with taken := some l.ctx, bubble := k.running }

/-- YIELD. -/
def semYield : OpSem :=
  { OpSem.base with
    plainS := true
    sequence := branchPlace
    parts := [.place 3 branchTrap]
    after := fun s l _ => s.yieldAt l }

/-- HALT. -/
def semHalt : OpSem :=
  { OpSem.base with
    plainS := true
    encoding := fun _ _ o => if bits o.xw 63 32 ≠ 0 then some 29 else none
    sequence := branchPlace
    parts := [.enc [0] fun _ _ o => if bits o.xw 63 32 ≠ 0 then some 29 else none, .place 3 branchTrap]
    after := fun s l o => s.endProgram l (bits o.xw 31 0) 0 }

/-- SAFE (R118). -/
def execSafe (m : Mv) (s : State) : Host.Outcome State Fault Refusal :=
  runTrigger semSafe .br .safe m s

/-- TRAP (R247). -/
def execTrap (m : Mv) (s : State) : Host.Outcome State Fault Refusal :=
  runTrigger semTrap .br .trap m s

/-- RTE (R248). -/
def execRte (m : Mv) (s : State) : Host.Outcome State Fault Refusal :=
  runTrigger semRte .br .rte m s

/-- YIELD (R248). -/
def execYield (m : Mv) (s : State) : Host.Outcome State Fault Refusal :=
  runTrigger semYield .br .yield m s

/-- HALT (R249). -/
def execHalt (m : Mv) (s : State) : Host.Outcome State Fault Refusal :=
  runTrigger semHalt .br .halt m s


end Sys2Proof.Machine
end

