-- ==== Sys2Proof/Machine/Bundle.lean ====
section
/-!
DEFINITION. The operation of every trigger (R84), the fetch of a bundle (R74, R75, R111), and the steps that concern bundles as wholes:
TRANSPORT_MOVE (R29), ACCESS_ACCEPTANCE (R194) and BLOCK_CLEAR (R34).
-/

namespace Sys2Proof.Machine

/-- What each trigger operation is to the issue of a bundle. -/
def opSem : Op → OpSem
  | .add => semAdd
  | .sub => semSub
  | .mul => semMul
  | .mulh => semMulh
  | .mulhn => semMulhn
  | .and => semAnd
  | .or => semOr
  | .xor => semXor
  | .andn => semAndn
  | .shl => semShl
  | .shr => semShr
  | .sar => semSar
  | .min => semMin
  | .max => semMax
  | .minn => semMinn
  | .maxn => semMaxn
  | .clz => semClz
  | .ctz => semCtz
  | .popc => semPopc
  | .sext => semSext
  | .zext => semZext
  | .sel => semSel
  | .cmpeq => semCmpeq
  | .cmpne => semCmpne
  | .cmplt => semCmplt
  | .cmple => semCmple
  | .cmpltn => semCmpltn
  | .cmplen => semCmplen
  | .cderive => semCderive
  | .cnarrow => semCnarrow
  | .crestrict => semCrestrict
  | .cinc => semCinc
  | .cbase => semCbase
  | .clen => semClen
  | .cperm => semCperm
  | .cseal => semCseal
  | .cunseal => semCunseal
  | .cvalid => semCvalid
  | .jmp => semJmp
  | .jmpa => semJmpa
  | .call => semCall
  | .calla => semCalla
  | .ret => semRet
  | .bmz => semBmz
  | .bmnz => semBmnz
  | .mark => semMark
  | .safe => semSafe
  | .trap => semTrap
  | .rte => semRte
  | .yield => semYield
  | .halt => semHalt
  | .pand => semPand
  | .por => semPor
  | .pxor => semPxor
  | .pandn => semPandn
  | .porn => semPorn
  | .pnot => semPnot
  | .pset => semPset
  | .gbase => semGbase
  | .crr => semCrr
  | .crw => semCrw
  | .qos => semQos
  | .imm => semImm
  | .cat => semCat
  | .fadd => semFadd
  | .fsub => semFsub
  | .fmul => semFmul
  | .fma => semFma
  | .fms => semFms
  | .fnma => semFnma
  | .fmin => semFmin
  | .fmax => semFmax
  | .fabs => semFabs
  | .fneg => semFneg
  | .fcadd => semFcadd
  | .fade => semFade
  | .fademul => semFademul
  | .fadefma => semFadefma
  | .fcmpeq => semFcmpeq
  | .fcmplt => semFcmplt
  | .fcmple => semFcmple
  | .iadd => semIadd
  | .isub => semIsub
  | .imul => semImul
  | .iand => semIand
  | .ior => semIor
  | .ixor => semIxor
  | .ishl => semIshl
  | .ishr => semIshr
  | .isar => semIsar
  | .imin => semImin
  | .imax => semImax
  | .iminn => semIminn
  | .imaxn => semImaxn
  | .icmpeq => semIcmpeq
  | .icmplt => semIcmplt
  | .icmpltn => semIcmpltn
  | .cvtfi => semCvtfi
  | .cvtfiz => semCvtfiz
  | .cvtif => semCvtif
  | .cvtfb => semCvtfb
  | .cvtbf => semCvtbf
  | .vsel => semVsel
  | .vperm => semVperm
  | .vrot => semVrot
  | .xchg => semXchg
  | .radd => semRadd
  | .rmax => semRmax
  | .rmin => semRmin
  | .mpush => semMpush
  | .minv => semMinv
  | .mpop => semMpop
  | .mpeek => semMpeek
  | .mreset => semMreset
  | .tdesc => semTdesc
  | .tstat => semTstat
  | .tset => semTset
  | .mcall => semMcall
  | .mwr => semMwr
  | .quant => semQuant
  | .azero => semAzero
  | .aread => semAread
  | .awrite => semAwrite
  | .anorm => semAnorm
  | .acvt => semAcvt
  | .scfg => semScfg
  | .sload => semSload
  | .scomp => semScomp
  | .scarry => semScarry
  | .sapply => semSapply
  | .sread => semSread
  | .rcp => semRcp
  | .rsqrt => semRsqrt
  | .rcpstep => semRcpstep
  | .rsqstep => semRsqstep
  | .exp2 => semExp2
  | .log2 => semLog2
  | .softplus => semSoftplus
  | .sigmoid => semSigmoid
  | .silu => semSilu
  | .csort => semCsort
  | .cmerge => semCmerge
  | .cthr => semCthr
  | .cread => semCread
  | .cclr => semCclr
  | .patch => semPatch
  | .sety => semSety
  | .setr => semSetr
  | .gety => semGety
  | .getr => semGetr
  | .step => semStep
  | .start => semStart
  | .stop => semStop
  | .dsave => semDsave
  | .dload => semDload
  | .inject => semInject
  | .cnt => semCnt
  | .fbind => semFbind
  | .fswap => semFswap
  | .snap => semSnap
  | .fork => semFork
  | .roll => semRoll
  | .fdrop => semFdrop
  | .fstat => semFstat
  | .ld8 => semLd8
  | .ld16 => semLd16
  | .ld32 => semLd32
  | .ld64 => semLd64
  | .ldn8 => semLdn8
  | .ldn16 => semLdn16
  | .ldn32 => semLdn32
  | .ldc => semLdc
  | .st8 => semSt8
  | .st16 => semSt16
  | .st32 => semSt32
  | .st64 => semSt64
  | .stc => semStc
  | .ldacq32 => semLdacq32
  | .ldacq64 => semLdacq64
  | .strel32 => semStrel32
  | .strel64 => semStrel64
  | .vld => semVld
  | .vst => semVst
  | .gath => semGath
  | .scat => semScat
  | .vldx => semVldx
  | .vstc => semVstc
  | .fence => semFence
  | .fenceSc => semFenceSc
  | .xfence => semXfence
  | .hint => semHint
  | .hres => semHres
  | .cctl => semCctl
  | .brel => semBrel
  | .copy => semCopy
  | .twr => semTwr
  | .atadd32 => semAtadd32
  | .atadd64 => semAtadd64
  | .atand => semAtand
  | .ator => semAtor
  | .atxor => semAtxor
  | .atmax => semAtmax
  | .atmin => semAtmin
  | .atswp => semAtswp
  | .cas64 => semCas64
  | .cas128 => semCas128
  | .qput => semQput
  | .qget => semQget
  | .qsel => semQsel
  | .rput => semRput
  | .rget => semRget
  | .launch => semLaunch
  | .binit => semBinit
  | .barr => semBarr
  | .bwait => semBwait
  | .btest => semBtest
  | .bexp => semBexp

/-- The bundle at the program counter of a context, or the trap of a misaligned address or of one outside the text (R75, R111). DESIGN CHOICE
(log 31), where both rules are silent: a bundle that begins inside the text and runs past its end raises fetch bounds, and a misaligned address
that RTE takes from TBTGT or TEPC raises misaligned target at the fetch of the target. -/
def State.fetch (s : State) (l : Loc) : Except Trap (List Item) :=
  let pc := (s.ctx l).pc
  if bits pc 2 0 ≠ 0 then .error (illegal 6)
  else
    match s.imageOf l with
    | none => .error (capTrap 7 pc)
    | some i =>
      if i.base.toNat ≤ pc.toNat ∧ pc.toNat + 24 ≤ i.base.toNat + i.size then
        .ok (decodeSlots (i.text.nat (pc.toNat - i.base.toNat) 24) 0 8)
      else .error (capTrap 7 pc)

/-- A context whose bundle cannot be fetched: a boundary trap that is due is taken first (R392). -/
def State.fetchTrap (s : State) (l : Loc) (t : Trap) : State :=
  match (s.ctx l).boundaryTrap with
  | some b => s.takeBoundary l b
  | none => s.takeTrap l t 0 false (s.ctx l).pc

/-- The operations of a context that a fence still waits for (R204, R205). -/
def State.fenced (s : State) (l : Loc) : List Nat :=
  (s.ctx l).fence.filter fun i => s.cores.any fun k => k.2.inFlight.any fun e => e.1 == i

/-- Whether the bundle at the program counter of a blocked context would still wait (R34); a boundary trap that is due ends the
wait (R400). -/
def State.stillBlocked (s : State) (l : Loc) : Bool :=
  match (s.ctx l).boundaryTrap with
  | some _ => false
  | none =>
    match s.fetch l with
    | .error _ => false
    | .ok items => decide (judge opSem s l items = .block)

/-- The triggers that a fence of their bundle has kept act once it is over (R205). -/
def State.actLate (s : State) (l : Loc) : State :=
  let x := s.ctx l
  if x.late.isEmpty || !(s.fenced l).isEmpty then s
  else x.late.foldl (fun s o => (opSem o.op).act s l o) (s.setCtx l { x with late := [] })

/-- A blocked context becomes ready when its cause has cleared (R34); with a request pending, one that waits on the bundle after its marker
halts instead (R227, R405), and a program that has ended leaves (R249). -/
def State.clearBlock (s0 : State) (l : Loc) : State :=
  let s := s0.actLate l
  let x := s.ctx l
  match x.mode, x.wait with
  | .blocked, some .bundle =>
    match x.preempt, x.marker with
    | true, some off => if s.stillBlocked l then s.haltSave l (some off) else s.unblock l
    | _, _ => if s.stillBlocked l then s else s.unblock l
  | .blocked, some (.ending exit status) => s.endLate l exit status
  | .blocked, some .fence =>
    if (s.fenced l).isEmpty then (s.setCtx l { x with fence := [] }).unblock l else s
  | _, _ => s

/-- TRANSPORT_MOVE (R29). -/
def execTransportMove (b : List Item) (s : State) : Host.Outcome State Fault Refusal := .next (s.bundle opSem b)
/-- ACCESS_ACCEPTANCE (R194). -/
def execAccessAcceptance (core ctx : Nat) (s : State) : Host.Outcome State Fault Refusal := .next (s.accept opSem ⟨core, ctx⟩)
/-- BLOCK_CLEAR (R34). -/
def execBlockClear (core ctx : Nat) (s : State) : Host.Outcome State Fault Refusal := .next (s.clearBlock ⟨core, ctx⟩)

end Sys2Proof.Machine
end

