-- ==== Sys2Proof/Machine/Fleet.lean ====
section
/-!
DEFINITION. The operator's mode, power and temperature (R19 to R21, R422 to R426), and the ring-extension ports (R369).
-/

namespace Sys2Proof.Machine

/-! ### Modes (R422, R423, R426) -/

/-- The power cap of a mode in watts (R19, R424). -/
def capOf (mode : Nat) : Nat := if mode = 0 then 1400 else if mode = 1 then 1000 else 700

/-- TCRIT (R425). -/
def tcrit : Nat := 105

/-- The full hold (R425): it begins in Edge mode at TCRIT and lasts until both temperatures are below TWARN. -/
def Oper.holdNow (o : Oper) : Oper :=
  if o.cur = 2 ∧ (tcrit ≤ o.t0 ∨ tcrit ≤ o.t1) then { o with fullHold := true }
  else if o.t0 < o.twarn ∧ o.t1 < o.twarn then { o with fullHold := false }
  else o

/-- A mode change completes (R423): the driver's, or after it the lodges' change to Edge mode for a trip (R425, R426). -/
def Oper.changeMode (o : Oper) : Oper :=
  if o.go then { o with cur := o.mode, result := 0, go := false : Oper }.holdNow
  else if o.tripDue then { o with cur := 2, auto := true, tripDue := false : Oper }.holdNow
  else o

/-! ### Power and temperature (R424, R425) -/

/-- A 1 ms window ends with a mean power (R424): a window in which the hold was active is counted, and the hold is active in the next one
where the power exceeded the cap. -/
def Oper.window (o : Oper) (watts : Nat) : Oper :=
  { o with
    pwr := watts % 65536
    holds := if o.hold then min (o.holds + 1) (2 ^ 32 - 1) else o.holds
    hold := decide (watts % 65536 > capOf o.cur) }

/-- The temperature of a die. -/
def Oper.setTemp (o : Oper) (die temp : Nat) : Oper := if die = 0 then { o with t0 := temp % 256 } else { o with t1 := temp % 256 }

/-- The operator block with new temperatures or a new threshold (R425): WARN is set and the interrupt is sent where T0 or T1 has reached TWARN
by the change, and the full hold is found anew. -/
def State.warned (s : State) (o : Oper) : State :=
  let old := s.oper
  let reached := (decide (old.t0 < old.twarn) && decide (o.twarn ≤ o.t0)) || (decide (old.t1 < old.twarn) && decide (o.twarn ≤ o.t1))
  { s with
    oper := ({ o with warn := o.warn || reached } : Oper).holdNow
    msix := if reached then s.msix ++ [(0, 0, 1)] else s.msix }

/-- A die reaches a temperature (R425). -/
def State.warm (s : State) (die temp : Nat) : State := s.warned (s.oper.setTemp die temp)

/-- A die has stayed at or above TCRIT for 1 ms (R425, R426): TRIP, and a change to Edge mode falls due where the mode, or the one that a
change in progress leads to, is another. -/
def State.tripAt (s : State) (die temp : Nat) : State :=
  let o := s.oper
  if temp % 256 < tcrit then s
  else
    let s1 := s.warm die temp
    let o1 := s1.oper
    { s1 with oper := { o1 with trip := true, tripDue := o1.tripDue || o1.cur != 2 || (o.go && o.mode != 2) } }

/-! ### The ring-extension ports (R369) -/

/-- Whether some context of the package is not off. -/
def State.someContextOn (s : State) : Bool := s.cores.any fun k => k.2.ctxs.any fun x => decide (x.2.mode ≠ .off)

/-- A write of RXCFG (R357, R369): a change of EN, JEN or JPAV is refused while a context is not off. -/
def State.writeRxcfg (s : State) (x : Word) : State :=
  let o := s.oper
  let new := setBits 0xF9 o.rxcfg x
  if o.locked || (new != o.rxcfg && s.someContextOn) then s else { s with oper := { o with rxcfg := new } }

/-- A flit is replayed on a port (R369). -/
def Oper.replay (o : Oper) (port : Nat) : Oper :=
  if bit o.rxcfg 0 && bit o.rxcfg (1 + port % 2) then
    { o with rxcfg := setBits 0xFFFFFFFF00000000 o.rxcfg (BitVec.ofNat 64 (min (bits o.rxcfg 63 32 + 1) (2 ^ 32 - 1) * 2 ^ 32)) }
  else o

/-- The link of a port trains or fails, and the package across it has joined or not. -/
def Oper.link (o : Oper) (port : Nat) (up joined : Bool) : Oper :=
  let o1 : Oper := { o with rxcfg := putBit o.rxcfg (1 + port % 2) up }
  if port % 2 = 0 then { o1 with far0 := joined } else { o1 with far1 := joined }

/-! ### Steps -/

/-- MODE_CHANGE (R423). -/
def execModeChange (s : State) : Host.Outcome State Fault Refusal := .next { s with oper := s.oper.changeMode }
/-- POWER_WINDOW (R424). -/
def execPowerWindow (watts : Nat) (s : State) : Host.Outcome State Fault Refusal := .next { s with oper := s.oper.window watts }
/-- THERMAL_WARNING (R425). -/
def execThermalWarning (die temp : Nat) (s : State) : Host.Outcome State Fault Refusal := .next (s.warm die temp)
/-- THERMAL_TRIP (R425). -/
def execThermalTrip (die temp : Nat) (s : State) : Host.Outcome State Fault Refusal := .next (s.tripAt die temp)
/-- RXCFG_WRITE (R369). -/
def execRxcfgWrite (value : Word) (s : State) : Host.Outcome State Fault Refusal := .next (s.writeRxcfg value)
/-- FLIT_REPLAY (R369). -/
def execFlitReplay (port : Nat) (s : State) : Host.Outcome State Fault Refusal := .next { s with oper := s.oper.replay port }
/-- RING_PORT_LINK_CHANGE (R369). -/
def execRingPortLinkChange (port : Nat) (up joined : Bool) (s : State) : Host.Outcome State Fault Refusal :=
  .next { s with oper := s.oper.link port up joined }

end Sys2Proof.Machine
end

