-- ==== Sys2Proof/Machine/Rates.lean ====
section
/-!
DEFINITION. Guaranteed rates: calendars and refill (R371, R372), the rate block and its checks (R373, R374, R382, R384), lending (R375), the
grants of arbiters (R376), the promenade calendar and the placement of packets (R380, R381), and the reclaim of L2 ways (R383).
-/

namespace Sys2Proof.Machine

/-! ### Calendars (R371) -/

/-- The 10-bit bit reversal. -/
def rev10 (n : Nat) : Nat := (List.range 10).foldl (fun a i => a + n / 2 ^ i % 2 * 2 ^ (9 - i)) 0

/-- The enabled devices of a pavilion, in ascending order. -/
def Pav.enabledDevs (p : Pav) : List Nat := p.devs.filterMap fun e => if e.2.enabled then some e.1 else none

/-- Whether a pavilion holds a granule of a range. -/
def State.holdsGranule (s : State) (pav lo n : Nat) : Bool :=
  s.granules.any fun g => g.2 == pav && decide (lo ≤ g.1 ∧ g.1 < lo + n)

/-- Whether a pavilion's devices share an arbiter (R370, R373). -/
def State.usesArb (s : State) (pav arb : Nat) : Bool :=
  if arb < 128 then (s.pav pav).cores.contains arb
  else if arb < 256 then (s.pav pav).cores.contains (arb - 128)
  else if arb < 512 then (s.pav pav).cores.contains ((arb - 256) / 2)
  else if arb < 516 then s.holdsGranule pav (48 * (arb - 512)) 48
  else s.holdsGranule pav (256 + 384 * (arb - 516)) 384

/-- The enabled devices that share an arbiter, in the order of R371. -/
def State.sharing (s : State) (arb : Nat) : List Nat :=
  (s.pavs.filter fun p => p.2.formed && s.usesArb p.1 arb).flatMap fun p => p.2.enabledDevs.map fun d => devKey p.1 d

/-- The member in whose stretch of rates a number lies. -/
def stretch (rate : Nat → Nat) (n : Nat) : List Nat → Nat → Option Nat
  | [], _ => none
  | d :: ds, lo => if n < lo + rate d then (if lo ≤ n then some d else none) else stretch rate n ds (lo + rate d)

/-- The pavilion that owns a slot of the promenade (R380). -/
def State.promenadeOwner (s : State) (slot : Nat) : Option Nat := s.oper.calendar.find? (rev10 slot)

/-- PSLOTS of a pavilion (R375, R380). -/
def State.pslots (s : State) (pav : Nat) : Nat := (s.oper.calendar.filter fun e => e.2 == pav).length

/-- The device that owns a slot of an arbiter (R371); of the promenade, the indices of a pavilion go to its devices in their
order. -/
def State.slotOwner (s : State) (arb slot : Nat) : Option Nat :=
  let rate (key : Nat) : Nat := rateOf (s.rateAt arb key)
  if 256 ≤ arb ∧ arb < 512 then
    match s.promenadeOwner slot with
    | none => none
    | some p =>
      let n := (s.oper.calendar.filter fun e => e.2 == p && decide (e.1 < rev10 slot)).length
      stretch rate n ((s.sharing arb).filter fun key => key / 128 == p) 0
  else stretch rate (rev10 slot) (s.sharing arb) 0

/-! ### Time -/

/-- The cycles of the package: those of the core that has counted most. -/
def State.clock (s : State) : Nat := s.cores.foldl (fun m e => max m e.2.cycle) 0

/-- D(n) of a direction (R381): the cycles of the hops from core 0 to core n; to core 0 itself descending the whole ring, so that a
container's number changes across bridge 1 alone in this direction too (log 20). -/
def ringOffset (core dir : Nat) : Nat :=
  if dir = 0 then 4 * core + (if core ≥ 64 then 16 else 0)
  else if core = 0 then 544
  else 4 * (127 - core) + 20 + (if core ≤ 63 then 16 else 0)

/-- The slot number of the container that leaves a core in this cycle (R381). -/
def State.slotNow (s : State) (core dir : Nat) : Nat := (s.clock + 1024 - ringOffset core dir) % 1024

/-- The slot that an arbiter is at: that of class 5 is the number of the container that leaves its output in this cycle (R381). -/
def State.arbSlot (s : State) (arb : Nat) : Nat :=
  if 256 ≤ arb ∧ arb < 512 then s.slotNow ((arb - 256) / 2) (arb % 2) else (s.arb arb).slot

/-- With the first core whose next cycle begins, the time of the package passes: the hops over the ring-extension ports have that much less to
take (R14). -/
def State.passTime (s : State) (core : Nat) : State :=
  let u := cycleTime s.oper.cur
  if s.clock ≤ (s.core core).cycle then
    { s with time := s.time + u, portLoad := (s.portLoad.map fun e => (e.1, e.2 - u)).filter fun e => decide (e.2 ≠ 0) }
  else s

/-! ### Refill (R372) -/

/-- Whether a device has a waiting request at an arbiter: a ready context, a packet in the send buffer, or a transfer. -/
def State.waitsAt (s : State) (arb key : Nat) : Bool :=
  if arb < 128 then (s.core arb).ready.any fun c => (s.core arb).keyOf c == key && ((s.core arb).ctx c).binding.isSome
  else if 256 ≤ arb ∧ arb < 512 then
    s.messages.any fun m => m.waiting && m.src == (arb - 256) / 2 && m.dir == arb % 2 && m.vd == key % 128 &&
      (s.pav (key / 128)).cores.contains m.src
  else (s.arb arb).reqs.any fun r => devKey r.pav r.vd == key

/-- The rate registers as they stand come into force at an arbiter (R374). -/
def State.takeOver (s : State) (arb : Nat) : State := s.setArb arb { s.arb arb with rates := [] }

/-- The dirty lines of a device in the ways that leave it, in the set that its walker has come to. -/
def State.reclaimLines (s : State) (t : Nat) (r : Reclaim) : List Nat :=
  let kidx := (s.dev r.pav r.vd).kidx
  (s.slice t).filterMap fun e =>
    if e.2.dirty && e.2.kidx == kidx && (r.ways >>> e.2.way) % 2 == 1 && setOf e.1 == r.next then some e.1 else none

/-- The walkers of a slice pass the sets that hold nothing to write back (R383): one set every 2 cycles, up to the last. -/
def State.walkReclaims (s : State) (t : Nat) : State :=
  match s.reclaims.find? t with
  | none => s
  | some rs =>
    { s with reclaims := s.reclaims.set t (rs.map fun r =>
        if r.next < 8192 ∧ (s.reclaimLines t r).isEmpty then { r with next := r.next + 1 } else r) }

/-- A cycle of a core passes (R35): nothing has taken the next one but the bubble of a yield, and what travels to the core on the promenade is a cycle nearer
(R12), what has come in for it by a port enters (R369), the watchdog measures a pending request (R412), and the reclaim walkers of the terrace go on in every other cycle (R383). -/
def State.passCycle (s : State) (core : Nat) : State :=
  let k := s.core core
  let ctxs := if k.ctxs.any fun e => e.2.preempt then
      k.ctxs.map fun e => if e.2.preempt then (e.1, { e.2 with waited := e.2.waited + cycleTime s.oper.cur }) else e
    else k.ctxs
  let s0 := (s.passTime core).setCore core { k with cycle := k.cycle + 1, taken := k.bubble, bubble := none, ctxs := ctxs }
  let first := ((s.cores.map Prod.fst).filter fun c => sliceOf c == sliceOf core).foldl min core
  let s1 := if core = first ∧ k.cycle % 2 = 1 then s0.walkReclaims (sliceOf core) else s0
  ({ s1 with
    messages := s1.messages.map fun m =>
      if !m.waiting ∧ (m.dst = core ∨ m.dst = 128 ∧ m.src = core) then { m with wait := m.wait - 1 } else m
    credits := s1.credits.map fun c => if c.core = core then { c with wait := c.wait - 1 } else c } : State).takePorts core

/-- A slot of an arbiter passes, which for a core's issue slots is a core cycle: its owner's bucket refills (R372), and at the start of a revolution accepted rate writes take
effect (R374). -/
def State.refill (s : State) (arb : Nat) : State :=
  let slot := s.arbSlot arb
  let s0 := if slot = 0 then s.takeOver arb else s
  let a := s0.arb arb
  let a1 :=
    match s0.slotOwner arb slot with
    | some key =>
      if s0.waitsAt arb key ∨ a.bucket key < Int.ofNat (rateDepth (s0.rateAt arb key)) then a.addTokens key 1 else a
    | none => a
  let s1 := s0.setArb arb { a1 with slot := (slot + 1) % 1024, busy := a.busy - 1 }
  if arb < 128 then s1.passCycle arb else s1

/-! ### The rate block (R373, R374) -/

/-- The bits of a rate register that are not reserved: RISS, RL2, RHBM, RLP6, RFRM, RPROM and RDWRR. -/
def rateMask (reg : Nat) : Word := if reg = 1 then 0xFFFF else if reg = 6 then 0xFFFFFF else 0xFFFFFF07FF

/-- The class of a rate register (R370). -/
def rateClass (reg : Nat) : Nat := reg

/-- A rate register of a device changed. -/
def Dev.setRate (d : Dev) (reg : Nat) (w : Word) : Dev :=
  if reg = 0 then { d with riss := w }
  else if reg = 1 then { d with rl2 := w }
  else if reg = 2 then { d with rhbm := w }
  else if reg = 3 then { d with rlp6 := w }
  else if reg = 4 then { d with rfrm := w }
  else if reg = 5 then { d with rprom := w }
  else if reg = 6 then { d with rdwrr := setBits 0xFFFFFF d.rdwrr w }
  else d

/-- RSTAT.ERR of a device. -/
def Dev.setErr (d : Dev) (b : Bool) : Dev := { d with rstat := putBit d.rstat 0 b }

/-- The arbiters of a class that a pavilion's devices use (R373). -/
def State.arbsOf (s : State) (pav cls : Nat) : List Nat :=
  if cls = 0 then (s.pav pav).cores
  else if cls = 4 then (s.pav pav).cores.map (· + 128)
  else if cls = 5 then (s.pav pav).cores.flatMap fun c => [256 + 2 * c, 257 + 2 * c]
  else (if cls = 2 then [512, 513, 514, 515] else [516, 517, 518, 519]).filter (s.usesArb pav)

/-- The sum of RATE, as written, over the other enabled devices that share an arbiter (R374, R430). -/
def State.otherRates (s : State) (arb key cls : Nat) : Nat :=
  (((s.sharing arb).filter (· != key)).map fun k => rateOf ((s.dev (k / 128) (k % 128)).rate cls)).sum

/-- The sum of RPROM.RATE over the other enabled devices of a pavilion. -/
def State.otherProm (s : State) (pav vd : Nat) : Nat :=
  (((s.pav pav).enabledDevs.filter (· != vd)).map fun d => rateOf (s.dev pav d).rprom).sum

/-- Whether a value of a rate register of a class is admitted for a device (R374). -/
def State.rateFits (s : State) (pav vd cls : Nat) (w : Word) : Bool :=
  (w &&& ~~~(rateMask cls)) == 0 && decide (rateOf w ≤ 1024) && !(rateDepth w == 0 && decide (rateOf w > 0)) &&
    (if cls = 5 then decide (s.otherProm pav vd + rateOf w ≤ s.pslots pav)
     else (s.arbsOf pav cls).all fun a => decide (s.otherRates a (devKey pav vd) cls + rateOf w ≤ 1024))

/-- Whether a mask of ways is admitted for a device: disjoint from those of every other enabled device in each terrace that both
pavilions have cores in (R382). -/
def State.waysFit (s : State) (pav vd : Nat) (w : Word) : Bool :=
  (w &&& ~~~(rateMask 1)) == 0 &&
    s.pavs.all fun p =>
      !((List.range 16).any fun t => s.pavInTerrace pav t && s.pavInTerrace p.1 t) ||
        p.2.enabledDevs.all fun d =>
          (p.1 == pav && d == vd) || bits w 15 0 &&& bits (s.dev p.1 d).rl2 15 0 == 0

/-- Whether the rate block of a device is admitted as a whole, as its enable requires (R349, R374). -/
def State.blockFits (s : State) (pav vd : Nat) : Bool :=
  let d := s.dev pav vd
  ([0, 2, 3, 4, 5].all fun c => s.rateFits pav vd c (d.rate c)) && s.waysFit pav vd d.rl2

/-- The rates in force stay at the arbiters of a class until their next revolution (R374). -/
def State.pinRates (s : State) (pav vd cls : Nat) : State :=
  let key := devKey pav vd
  (s.arbsOf pav cls).foldl (fun s n =>
    let a := s.arb n
    match a.rates.find? key with
    | some _ => s
    | none => s.setArb n { a with rates := a.rates.set key ((s.dev pav vd).rate cls) }) s

/-- Ways that leave a device enter reclaim in every slice where it held them (R383). -/
def State.startReclaim (s : State) (pav vd ways : Nat) : State :=
  if ways = 0 then s
  else
    let ts := (List.range 16).filter (s.pavInTerrace pav)
    let s1 : State :=
      { s with reclaims := ts.foldl (fun t n => Table.set t n (Table.getD t n [] ++ [⟨pav, vd, ways, 0⟩])) s.reclaims }
    let d := s1.dev pav vd
    if ts.isEmpty then s1 else s1.setDev pav vd { d with rstat := putBit d.rstat 1 true }

/-- A write to the rate block of a device (R373, R374, R382, R384), which leaves RDWRR as it stands while the device is enabled: registers 0 to 6 are RISS, RL2, RHBM, RLP6, RFRM, RPROM and
RDWRR; RSTAT is read-only. -/
def State.writeRate (s : State) (pav vd reg : Nat) (x : Word) : State :=
  let d := s.dev pav vd
  if reg ≥ 7 ∨ s.oper.inReset then s
  else if !d.enabled then s.setDev pav vd ((d.setRate reg (x &&& rateMask reg)).setErr false)
  else if reg = 6 then s.setDev pav vd (d.setErr (bits x 31 24 != 0))
  else if reg = 1 then
    if s.waysFit pav vd x then
      let s1 := s.setDev pav vd ((d.setRate 1 x).setErr false)
      s1.startReclaim pav vd (bits d.rl2 15 0 &&& (2 ^ 16 - 1 - bits x 15 0))
    else s.setDev pav vd (d.setErr true)
  else if s.rateFits pav vd reg x then
    let s1 := s.pinRates pav vd (rateClass reg)
    s1.setDev pav vd (((s1.dev pav vd).setRate reg x).setErr false)
  else s.setDev pav vd (d.setErr true)

/-- RSTAT.DEBT (R374): some memory bucket of the device is below 0. -/
def State.debt (s : State) (pav vd : Nat) : Bool :=
  s.arbs.any fun a => decide (512 ≤ a.1) && decide (a.2.bucket (devKey pav vd) < 0)

/-- Every lending counter starts again at 0 (R377). -/
def State.resetLending (s : State) : State := { s with arbs := s.arbs.map fun e => (e.1, { e.2 with lc := [], plc := [] }) }

/-- A write of PAVLEND (R375, R377). -/
def State.writePavlend (s : State) (pav : Nat) (x : Word) : State :=
  let p := s.pav pav
  let pwt : Word := if bits x 15 8 = 0 then p.pavlend &&& 0xFF00 else x &&& 0xFF00
  if s.oper.inReset then s else (s.setPav pav { p with pavlend := (x &&& 0x3) ||| pwt }).resetLending

/-! ### The reclaim of ways (R383) -/

/-- The walker writes a line back: the sector is charged to the loser at the line's home, even below its cost, and the line is
clean and stays (R383). -/
def State.reclaimLine (s : State) (t : Nat) (r : Reclaim) (line : Nat) : State :=
  let s1 := s.writeBack line
  let s2 : State :=
    { s1 with l2 := s1.l2.set t (match Table.find? (s1.slice t) line with
        | some e => Table.set (s1.slice t) line { e with dirty := false }
        | none => s1.slice t) }
  s2.setArb (homeArb line) ((s2.arb (homeArb line)).addTokens (devKey r.pav r.vd) (-1))

/-- Whether two reclaims are of one write: of one device and the same ways. -/
def Reclaim.same (r q : Reclaim) : Bool := r.pav == q.pav && r.vd == q.vd && r.ways == q.ways

/-- The walker of the oldest reclaim of a slice has passed every set (R383): when that is so in every slice, its ways leave reclaim;
RSTAT.WRC falls with the device's last. -/
def State.endReclaim (s : State) (t : Nat) : State :=
  match s.reclaims.getD t [] with
  | [] => s
  | r :: _ =>
    if s.reclaims.any fun e => e.2.any fun q => r.same q && decide (q.next < 8192) then s
    else
      let s1 : State := { s with reclaims := s.reclaims.map fun e => (e.1, e.2.filter fun q => !r.same q) }
      if s1.reclaims.any fun e => e.2.any fun q => q.pav == r.pav && q.vd == r.vd then s1
      else
        let d := s1.dev r.pav r.vd
        s1.setDev r.pav r.vd { d with rstat := putBit d.rstat 1 false }

/-- A reclaim write-back that waits at a memory controller: its slice, the reclaim and the line. -/
def State.reclaimAt (s : State) (arb : Nat) : Option (Nat × Reclaim × Nat) :=
  (s.reclaims.flatMap fun e => e.2.filterMap fun r =>
    ((s.reclaimLines e.1 r).find? fun line => homeArb line == arb).map fun line => (e.1, r, line)).head?

/-! ### Grants (R376) -/

/-- The sectors of a request that one grant moves: at most 256 bytes. -/
def Request.part (r : Request) : Nat := min r.cost 4

/-- The oldest waiting request of a device loses the sectors of a grant, and the arbiter is busy for their time. -/
def Arb.serve (a : Arb) (key : Nat) : Arb :=
  let rec go : List Request → List Request × Nat
    | [] => ([], 0)
    | r :: rest =>
      if devKey r.pav r.vd = key then
        ((if r.cost ≤ 4 then rest else { r with cost := r.cost - 4 } :: rest), r.part)
      else let (q, n) := go rest; (r :: q, n)
  let (reqs, n) := go a.reqs
  { a with reqs := reqs, busy := n }

/-- An opportunity of a memory controller or frame engine (R376, R383): a reclaim write-back, else the oldest request among devices with
tokens for it, else a loan. -/
def State.grant (s : State) (arb : Nat) : State :=
  let a := s.arb arb
  if arb < 128 ∨ (256 ≤ arb ∧ arb < 512) ∨ a.busy ≠ 0 then s
  else
    match s.reclaimAt arb with
    | some (t, r, line) =>
      let s1 := s.reclaimLine t r line
      s1.setArb arb { s1.arb arb with busy := 1 }
    | none =>
      let rich := a.reqs.find? fun r =>
        match a.reqs.find? fun q => q.pav == r.pav && q.vd == r.vd with
        | some q => decide (a.bucket (devKey r.pav r.vd) ≥ Int.ofNat q.part)
        | none => false
      match rich with
      | some r =>
        let key := devKey r.pav r.vd
        s.setArb arb ((a.addTokens key (- Int.ofNat r.part)).serve key)
      | none =>
        let owner := (s.slotOwner arb ((a.slot + 1023) % 1024)).map fun k => k / 128
        let keys := (List.range 2048).filter fun k => a.reqs.any fun r => devKey r.pav r.vd == k
        match s.lendPick arb owner keys with
        | (some key, s1) => s1.setArb arb ((s1.arb arb).serve key)
        | (none, s1) => s1

/-! ### The promenade (R380, R381) -/

/-- The sum of RPROM.RATE over the enabled devices of a pavilion. -/
def State.promRates (s : State) (pav : Nat) : Nat := ((s.pav pav).enabledDevs.map fun d => rateOf (s.dev pav d).rprom).sum

/-- The calendar after a write of CALW. -/
def calendarAfter (x : Word) (cal : Table Nat) : Table Nat :=
  (List.range (bits x 20 10)).foldl (fun t i =>
    let j := (bits x 9 0 + i) % 1024
    if bit x 25 then Table.erase t j else Table.set t j (bits x 24 21)) cal

/-- A write of CALW (R357, R380): ignored while a command or a calendar write is in progress, but that one write waits behind a resize (R432, log 20);
with GO its operands are checked, and RESULT says why it is refused. -/
def State.writeCalw (s : State) (x : Word) : State :=
  if s.oper.locked then
    (if s.oper.runs 2 && !bit s.oper.calw 26 && !s.oper.inReset && s.oper.calwHeld.isNone then { s with oper := { s.oper with calwHeld := some x } } else s)
  else
    let fields := x &&& 0x3FFFFFF
    let set (w : Word) : State := { s with oper := { s.oper with calw := w } }
    if !bit x 26 then set (fields ||| (s.oper.calw &&& 0x78000000))
    else if bits x 20 10 = 0 ∨ bits x 20 10 > 1024 ∨ (!bit x 25 ∧ !(s.pav (bits x 24 21)).formed) then set (fields ||| 0x8000000)
    else
      let cal := calendarAfter x s.oper.calendar
      if s.pavs.any fun p => decide ((cal.filter fun e => e.2 == p.1).length < s.promRates p.1) then set (fields ||| 0x28000000)
      else set (fields ||| 0x4000000)

/-- An accepted write of CALW takes effect at the start of a revolution of the promenade (R380). -/
def State.applyCalw (s : State) : State :=
  if bit s.oper.calw 26 ∧ s.clock % 1024 = 0 then
    { s with oper := { s.oper with
        calendar := calendarAfter s.oper.calw s.oper.calendar
        calw := s.oper.calw &&& 0x3FFFFFF } }
  else s

/-- The first packets of a device leave the send buffer of an output. -/
def placePackets (core dir vd : Nat) : Nat → List RingMsg → List RingMsg
  | _, [] => []
  | n, m :: rest =>
    if n ≠ 0 ∧ m.waiting ∧ m.src = core ∧ m.dir = dir ∧ m.vd = vd then
      { m with waiting := false } :: placePackets core dir vd (n - 1) rest
    else m :: placePackets core dir vd n rest

/-- The slot number that the container has across bridge 1 (R381). -/
def State.slotAcross (s : State) (dir : Nat) : Nat := (s.slotNow (bridgeCore dir) dir + 544) % 1024

/-- Whether a packet in transit is in the container that leaves a core in this cycle (R12, R381): it has the way from there
before it, which the core that it leaves alone has. -/
def RingMsg.inContainer (m : RingMsg) (core dir : Nat) (across : Bool) : Bool :=
  let left := if m.held then bridgeTime core dir else ringTime core m.dst dir
  !m.waiting && m.dir == dir && m.src != m.dst && core != m.dst && m.wait == 1 + left &&
    (if across then !m.held && crossesBridge m.src m.dst dir
     else m.held || !crossesBridge m.src m.dst dir || core != bridgeCore dir)

/-- The free bytes of the container that leaves a core in this cycle, or of the same container as it is across bridge 1 (R12): of 1,024
bytes, 16 for each packet. -/
def State.freeNow (s : State) (core dir : Nat) (across : Bool) : Nat :=
  1024 - 16 * (s.messages.filter fun m => m.inContainer core dir across).length

/-- A container takes packets that wait at an output (R381): of its slot's pavilion, those of a device with a token, which a packet from a
send buffer draws, or else of the one that LendPick chooses; of any other, at most 256 bytes if it is empty and LendPick chooses them. -/
def State.fillContainer (s : State) (arb slot free : Nat) (draws : Bool) (waiting : List (Nat × RingMsg))
    (place : State → Nat → Nat → State) : State :=
  let owner := s.promenadeOwner slot
  let own := waiting.filter fun e => owner == some (e.1 / 128)
  let lend (s : State) (ws : List (Nat × RingMsg)) (n : Nat) : State :=
    match s.lendPick arb owner ((List.range 2048).filter fun k => ws.any fun e => e.1 == k) with
    | (some key, s1) => place s1 key n
    | (none, s1) => s1
  if waiting.isEmpty ∨ free / 16 = 0 then s
  else if !own.isEmpty then
    match if draws then own.find? fun e => decide ((s.arb arb).bucket e.1 ≥ 1) else own.head? with
    | some (key, _) => place (if draws then s.setArb arb ((s.arb arb).addTokens key (-1)) else s) key (free / 16)
    | none => lend s own (free / 16)
  else if free < 1024 then s
  else lend s waiting 16

/-- The device of a packet: its key. -/
def State.packetKey (s : State) (m : RingMsg) : Nat := devKey ((s.pavOf m.src).getD 16) m.vd

/-- The first packets of a device that are held at the crossing of bridge 1 go on across it. -/
def State.crossPackets (s : State) (dir key : Nat) : Nat → List RingMsg → List RingMsg
  | _, [] => []
  | n, m :: rest =>
    if n ≠ 0 ∧ m.held ∧ !m.waiting ∧ m.wait ≤ 1 ∧ m.dir = dir ∧ s.packetKey m = key then
      { m with held := false, wait := 1 + ringTime (bridgeCore dir) m.dst dir } :: s.crossPackets dir key (n - 1) rest
    else m :: s.crossPackets dir key n rest

/-- The container with this slot number and these free bytes passes an output of a core (R381): the one that leaves the core in this cycle
takes packets of its send buffer; at the core before bridge 1, the one that it is across the bridge takes the packets that are held
there. A step that names another container does nothing. -/
def State.placePacket (s : State) (core dir slot free : Nat) : State :=
  let arb := 256 + 2 * core + dir
  if slot = s.slotNow core dir ∧ free = s.freeNow core dir false then
    let waiting := s.messages.filter fun m => m.waiting && m.src == core && m.dir == dir
    s.fillContainer arb slot free true (waiting.map fun m => (s.packetKey m, m)) fun s key n =>
      { s with messages := placePackets core dir (key % 128) n s.messages }
  else if core = bridgeCore dir ∧ slot = s.slotAcross dir ∧ free = s.freeNow core dir true then
    let waiting := s.messages.filter fun m => m.held && !m.waiting && decide (m.wait ≤ 1) && m.dir == dir
    s.fillContainer arb slot free false (waiting.map fun m => (s.packetKey m, m)) fun s key n =>
      { s with messages := s.crossPackets dir key n s.messages }
  else s

/-! ### Steps -/

/-- TOKEN_REFILL (R372). -/
def execTokenRefill (arb : Nat) (s : State) : Host.Outcome State Fault Refusal := .next (s.refill arb)
/-- ARBITER_GRANT (R376). -/
def execArbiterGrant (arb : Nat) (s : State) : Host.Outcome State Fault Refusal := .next (s.grant arb)
/-- PACKET_PLACEMENT (R381). -/
def execPacketPlacement (core dir slot free : Nat) (s : State) : Host.Outcome State Fault Refusal :=
  .next (s.placePacket core dir slot free)
/-- PAVLEND_WRITE (R375). -/
def execPavlendWrite (pav : Nat) (value : Word) (s : State) : Host.Outcome State Fault Refusal := .next (s.writePavlend pav value)
/-- RATE_BLOCK_WRITE (R374). -/
def execRateBlockWrite (pav vd reg : Nat) (value : Word) (s : State) : Host.Outcome State Fault Refusal :=
  .next (s.writeRate pav vd reg value)
/-- RATE_WRITE_EFFECT (R374): at the start of a revolution of the arbiter. -/
def execRateWriteEffect (arb : Nat) (s : State) : Host.Outcome State Fault Refusal :=
  .next (if s.arbSlot arb = 0 then s.takeOver arb else s)
/-- RECLAIM_WALK_END (R383). -/
def execReclaimWalkEnd (slice : Nat) (s : State) : Host.Outcome State Fault Refusal := .next (s.endReclaim slice)
/-- CALW_WRITE (R380). -/
def execCalwWrite (value : Word) (s : State) : Host.Outcome State Fault Refusal := .next (s.writeCalw value)
/-- CALENDAR_WRITE_EFFECT (R380). -/
def execCalendarWriteEffect (s : State) : Host.Outcome State Fault Refusal := .next s.applyCalw

end Sys2Proof.Machine
end

