-- ==== Sys2Proof/Machine/Work.lean ====
section
/-!
DEFINITION. The way of a launch (R265 to R281, R384 to R387): the dispatcher's visits, admission and refusal, the dependence table and renaming,
binding with its initial state, pre-emption for a starved device, the finish of a task, and the completion ring (R274, R353).
-/

namespace Sys2Proof.Machine

/-! ### Ranges of banks (R269, R275) -/

/-- Whether a range lies inside another. -/
def inside (a b : Nat × Nat) : Bool := decide (b.1 ≤ a.1 ∧ a.1 + a.2 ≤ b.1 + b.2)

/-- The logical and the physical range of an entry of the rename map. -/
def MapEntry.log (m : MapEntry) : Nat × Nat := (m.logical, m.len)
/-- The physical range of an entry of the rename map. -/
def MapEntry.phys (m : MapEntry) : Nat × Nat := (m.physical, m.len)

/-- The logical range of a set entry. -/
def SetEntry.range (e : SetEntry) : Nat × Nat := (e.first, e.len)

/-- A range by the rename map (R275); none where it partially overlaps a mapped range. -/
def translateRange (map : List MapEntry) (r : Nat × Nat) : Option (Nat × Nat) :=
  match map.find? fun m => overlap r m.log with
  | none => some r
  | some m => if inside r m.log then some (m.physical + (r.1 - m.logical), r.2) else none

/-! ### Refusal (R273) -/

/-- The image of a launch, if its handle serves the device (R264, R273). -/
def State.launchImage (s : State) (pav vd : Nat) (r : List Byte) : Option Image :=
  match s.images.find? (65536 * pav + recImage r) with
  | some i => if i.vd = vd ∨ i.tenant = (s.dev pav vd).tenant then some i else none
  | none => none

/-- The core of a launch (R272): that of its gang's first member, the one of CORE, or the one with the most free table entries. -/
def State.launchCore (s : State) (pav : Nat) (r : List Byte) : Option Nat :=
  let cs := (s.pav pav).cores
  if recAny r then
    cs.foldl (fun best c =>
      match best with
      | none => some c
      | some b => if (s.core c).table.length < (s.core b).table.length then some c else some b) none
  else cs[recCore r]?

/-- The tasks of the dependence table that belong to a gang which still lacks members, for a queue and identifier; a task that has been bound, as
a parked one has (R387), belongs to a whole gang. -/
def Core.openGang (k : Core) (vd queue gid : Nat) : List Task :=
  k.table.filter fun t =>
    t.vd == vd && t.queue == queue && t.gang.isSome && decide (recSize t.record > 1) && recGid t.record == gid && t.bound.isNone &&
      t.ended.isNone && (k.parked.find? t.id).isNone && decide ((k.table.filter fun u => u.gang == t.gang).length < recSize t.record)

/-- The members already admitted of the gang that a launch belongs to, with their core (R280). -/
def State.gangSoFar (s : State) (pav vd queue : Nat) (r : List Byte) : Option (Nat × List Task) :=
  if recSize r = 1 then none
  else
    ((s.pav pav).cores.filterMap fun c =>
      match (s.core c).openGang vd queue (recGid r) with
      | [] => none
      | ts => some (c, ts)).head?

/-- The sum of a field over a record and the members before it. -/
def sumOver (f : List Byte → Nat) (r : List Byte) (ts : List Task) : Nat := f r + (ts.map fun t => f t.record).sum

/-- Whether a set entry is refused on a core (R273, status 2). -/
def Core.badSet (k : Core) (e : SetEntry) : Bool :=
  e.bad || (e.valid &&
    (decide (e.first + e.len > 80) || !(rangeBanks e.range).all k.scratch || (translateRange k.renames e.range).isNone))

/-- The rename map with a logical range at a physical place (R276). -/
def renameTo (map : List MapEntry) (r : Nat × Nat) (p : Nat) : List MapEntry :=
  if map.any fun m => m.log == r then map.map fun m => if m.log == r then { m with physical := p } else m
  else map ++ [⟨r.1, r.2, p⟩]

/-- Whether a bank is spare (R276): scratchpad, named by no table entry, physical in no map entry, owned by no running program and held by
no frame. -/
def Core.spare (k : Core) (map : List MapEntry) (own : List (Nat × Nat)) (b : Nat) : Bool :=
  k.scratch b && !(k.table.any fun t => overlapsAny (b, 1) (t.reads ++ t.writes)) && !(map.any fun m => overlap (b, 1) m.phys) &&
    !overlapsAny (b, 1) own && !(k.claims.any fun c => c.bank == b && decide (c.state ≠ .releasing)) && !k.frameHeld b

/-- The lowest spare run of a length. -/
def Core.spareRun (k : Core) (map : List MapEntry) (own : List (Nat × Nat)) (n : Nat) : Option Nat :=
  (List.range 81).find? fun b => decide (b + n ≤ 80) && (rangeBanks (b, n)).all (k.spare map own)

/-- The translated ranges of a record's set entries, in order, and the rename map after them (R275, R276). -/
def Core.placeSets (k : Core) (r : List Byte) : List (Option (Nat × Nat)) × List MapEntry :=
  let es := recSets r
  let trans := es.map fun e => if e.valid then translateRange k.renames e.range else none
  let reads := (es.filter fun e => e.valid && !e.write).map SetEntry.range
  (es.zip trans).foldl (fun (acc : List (Option (Nat × Nat)) × List MapEntry) et =>
    match et.2 with
    | none => (acc.1 ++ [none], acc.2)
    | some t =>
      let e := et.1
      let map := acc.2
      let exact := map.any fun m => m.log == e.range
      let own := (trans.filterMap id) ++ acc.1.filterMap id
      if e.write && e.ren && (k.table.any fun u => overlapsAny t (u.reads ++ u.writes)) &&
          (exact || !(map.any fun m => overlap e.range m.log)) && !overlapsAny e.range reads &&
          (exact || decide (map.length < 16)) then
        match k.spareRun map own e.len with
        | some p => (acc.1 ++ [some (p, e.len)], renameTo map e.range p)
        | none => (acc.1 ++ [some t], map)
      else (acc.1 ++ [some t], map)) ([], k.renames)

/-- Whether the tile and bank records of an image name only banks of some ranges (R96, R296). -/
def Image.metaFits (i : Image) (ranges : List (Nat × Nat)) : Bool :=
  (i.banks.all fun b => overlapsAny (b.1, 1) ranges) &&
    i.tiles.all fun t => (spanned t.2).all fun b => overlapsAny (b, 1) ranges

/-- Whether a launch belongs to a gang that a status-7 refusal refuses whole (R273). -/
def Dev.refusedGang (d : Dev) (queue : Nat) (r : List Byte) : Bool :=
  decide (recSize r > 1) && d.refused.any fun g => g.1 == queue && g.2.1 == recGid r

/-- Whether a head launch finds room (R272, R282, R353): a completion place, and a free walker or an entry of its core's dependence table for
it and for every member of its gang that is still to come. -/
def State.hasRoom (s : State) (pav vd queue : Nat) (r : List Byte) : Bool :=
  let gang := s.gangSoFar pav vd queue r
  match match gang with | some (c, _) => some c | none => s.launchCore pav r with
  | none => false
  | some c =>
    let members := match gang with | some (_, ts) => ts.length | none => 0
    let k := s.core c
    decide (s.placesHeld pav vd < 256) &&
      (if recGraph r then k.walker.isNone else decide (k.table.length + (recSize r - members) ≤ 64))

/-- The status of the first row of R273 that a launch meets; none where it is not refused. The tile and bank records of its image (R96, R296)
name banks of the sets as they are placed at admission, and are looked at when it would be admitted or refused there. -/
def State.refusal (s : State) (pav vd queue : Nat) (r : List Byte) : Option Nat :=
  let gang := s.gangSoFar pav vd queue r
  let members := match gang with | some (_, ts) => ts | none => []
  let core := match gang with | some (c, _) => some c | none => s.launchCore pav r
  let one := match s.launchImage pav vd r with | some i => !i.entries.contains (recEntry r) | none => true
  let three := decide (recBlocks r > 8) || decide (recDomains r > 8) || core.isNone ||
    (!recAny r && decide (recCore r ≥ (s.pav pav).cores.length)) || bits (recCtrl r) 63 59 != 0 ||
    bits (recRes r) 31 12 != 0 || (recPipes r != 0 && recMidx r != 0) || (recGraph r && decide (recSize r > 1))
  let sets :=
    (match core with | some c => (recSets r).any (s.core c).badSet | none => false) ||
      (decide (recPipes r > 0) && !((recEntrySet r 3).valid && (recEntrySet r 3).write))
  let seven :=
    (members.any fun m =>
      recSize m.record != recSize r || recAny m.record != recAny r || (!recAny r && recCore m.record != recCore r) ||
        recGraph m.record != recGraph r || recMidx m.record == recMidx r) ||
      (decide (recSize r > 1) &&
        (decide (sumOver recBlocks r members > 8) || decide (sumOver recDomains r members > 8) ||
          decide (sumOver recPipes r members > 16))) || (s.dev pav vd).refusedGang queue r
  let unclaimed :=
    !recGraph r && (seven || s.hasRoom pav vd queue r) &&
      match core, s.launchImage pav vd r with
      | some c, some i => !i.metaFits (((s.core c).placeSets r).1.filterMap id)
      | _, _ => false
  if one then some 1 else if three then some 3 else if sets || unclaimed then some 2 else if seven then some 7 else none

/-- The completion entry of a refusal (R274). -/
def refusalEntry (r : List Byte) (status : Nat) : List Byte := completion (recTag r) 0 status (recMidx r) 0

/-- A launch leaves the pending-launch store. -/
def State.dropLaunch (s : State) (pav vd id : Nat) : State :=
  let d := s.dev pav vd
  s.setDev pav vd { d with launches := d.launches.filter fun e => e.id != id }

/-- One member fewer of a refused gang is still to come. -/
def Dev.countRefused (d : Dev) (queue : Nat) (r : List Byte) : Dev :=
  { d with refused := (d.refused.map fun g => if g.1 = queue ∧ g.2.1 = recGid r then (g.1, g.2.1, g.2.2 - 1) else g).filter fun g => g.2.2 != 0 }

/-- A member of a gang, the launches of one queue and identifier, is refused with a status other than 7: it is not to come any more. -/
def Dev.loseMember (d : Dev) (queue : Nat) (r : List Byte) : Dev :=
  if recSize r ≤ 1 then d
  else
    let n := match d.gone.find? fun g => g.1 == queue && g.2.1 == recGid r with | some g => g.2.2 | none => 0
    let rest := d.gone.filter fun g => !(g.1 == queue && g.2.1 == recGid r)
    { d with gone := if n + 1 ≥ recSize r then rest else rest ++ [(queue, recGid r, n + 1)] }

/-- The members of a gang that have been refused so far with another status. -/
def Dev.membersGone (d : Dev) (queue : Nat) (r : List Byte) : Nat :=
  match d.gone.find? fun g => g.1 == queue && g.2.1 == recGid r with | some g => g.2.2 | none => 0

/-- A gang is whole, or is refused as a whole: its count of refused members ends. -/
def Dev.endGang (d : Dev) (queue : Nat) (r : List Byte) : Dev :=
  { d with gone := d.gone.filter fun g => !(g.1 == queue && g.2.1 == recGid r) }

/-- A launch is refused (R273). Status 7 refuses every member of its gang: those of the table lose their entries, and each that is still to
come is refused when it reaches the head of its queue. A launch whose record could not be read (R228) is no known member of a gang (log 22). -/
def State.refuse (s : State) (pav vd : Nat) (e : Launch) (r : List Byte) (status : Nat) : State :=
  let s0 := (s.dropLaunch pav vd e.id).complete pav vd (refusalEntry r status)
  let d := s0.dev pav vd
  if d.refusedGang e.queue r then s0.setDev pav vd (d.countRefused e.queue r)
  else if status ≠ 7 then s0.setDev pav vd (d.loseMember e.queue r)
  else
    let (core, members) : Nat × List Task := match s.gangSoFar pav vd e.queue r with | some g => g | none => (0, [])
    let s1 := s0.settle core
    let k := s1.core core
    let s2 : State := if members.isEmpty then s1 else s1.setCore core { k with table := k.table.filter fun t => !members.any fun m => m.id == t.id }
    let s3 := members.foldl (fun s m => s.complete pav vd (refusalEntry m.record 7)) s2
    let size := match members with | m :: _ => recSize m.record | [] => recSize r
    let rest := size - 1 - members.length - d.membersGone e.queue r
    let d3 := (s3.dev pav vd).endGang e.queue r
    s3.setDev pav vd <| if rest = 0 then d3 else { d3 with refused := d3.refused ++ [(e.queue, recGid r, rest)] }

/-! ### Admission and renaming (R272, R275, R276) -/

/-- A head launch is admitted to a core (R272): its sets are translated and renamed, and its table entry is made. What is free now has been
held for the tasks that wait already (R278). -/
def State.admitTo (s : State) (pav vd core : Nat) (e : Launch) (r : List Byte) : State :=
  let k := (s.settle core).core core
  let (placed, map) := k.placeSets r
  let es := (recSets r).zip placed
  let ranges (w : Bool) : List (Nat × Nat) := es.filterMap fun p => if p.1.write = w then p.2 else none
  let id := s.opId
  let members := match s.gangSoFar pav vd e.queue r with | some (_, ts) => ts | none => []
  let old := match members with | m :: _ => m.gang | [] => none
  let gang := if !recGanged r then none else if recMidx r = 0 then some id else old.getD id
  let t : Task :=
    { id := id, vd := vd, queue := e.queue, record := r, tagged := e.tagged, walk := e.walk, gang := gang
      reads := ranges false, writes := ranges true
      firsts := placed.map fun p => match p with | some q => q.1 | none => 0
      deps := (k.table.filter (conflictsWith (ranges false) (ranges true))).map Task.id
      acquires := e.stamp.toList, bound := none, cycles := 0, ended := none }
  let table := k.table.map fun u => if members.any fun m => m.id == u.id then { u with gang := gang } else u
  let s1 : State := { s with opId := id + 1 }
  let s2 := (s1.setCore core { k with table := table ++ [t], renames := map }).dropLaunch pav vd e.id
  if recGanged r && decide (members.length + 1 ≥ recSize r) then s2.setDev pav vd ((s2.dev pav vd).endGang e.queue r) else s2

/-! ### Starting a graph (R282) -/

/-- The nodes of a graph as the walker reads them at its start: their bytes and the tags of their capabilities, each that of the granule at byte 32
of its node; as LDC it reads at multiples of 16 alone (R197, R282). -/
def State.readNodes (s : State) (a : Accessor) (tenant : Nat) (c : Cap) (off n : Nat) : Option (List (List Byte × Bool) × State) :=
  match capCheck c (Int.ofNat (c.base + off)) (64 * n) grantRD tenant false, decide ((c.base + off) % 16 = 0) with
  | some _, _ | _, false => none
  | none, true =>
    match s.range a (c.base + off) (64 * n) false with
    | .error _ => none
    | .ok ps =>
      let (bs, bad) := s.readRange ps
      if bad then none
      else
        let node (i : Nat) : List Byte × Bool :=
          let va := c.base + off + 64 * i + 32
          let tag := match ps.find? fun p => decide (p.va ≤ va ∧ va < p.va + p.len) with
            | some p => s.tagOf [Piece.sub p (va - p.va) 16]
            | none => false
          ((bs.drop (64 * i)).take 64, tag)
        some ((List.range n).map node, s.touchRange a ps)

/-- A graph launch is taken by the walker of its core (R282); parts that are misplaced or unreadable give status 5 with the first node
(R285). -/
def State.startGraph (s : State) (pav vd core : Nat) (e : Launch) (r : List Byte) : State :=
  let c := recGiven r e.tagged (s.dev pav vd).tenant
  let a0 := recArg0 r
  let a1 := recArg1 r
  let n := bits a0 39 32 + 1
  let first := bits a0 47 40
  let s1 := s.dropLaunch pav vd e.id
  let bad := bits a0 63 48 != 0 || bits a1 63 48 != 0 || bits a0 31 0 % 64 != 0 || bits a1 31 0 % 64 != 0 || decide (first ≥ n)
  match bad, s1.readNodes ⟨core, pav, vd, false⟩ (s.dev pav vd).tenant c (bits a0 31 0) n with
  | false, some (nodes, s2) =>
    let w : Walker :=
      { run := e.id, vd := vd, queue := e.queue, tag := recTag r, cap := c, batch := bits a1 31 0, nent := bits a1 47 32
        nodes := nodes, node := first, passes := [], phases := [], versions := [], snap := none
        stamp := e.stamp }
    s2.setCore core { s2.core core with walker := some w }
  | _, _ => s1.complete pav vd (completion (recTag r) 0 5 first (position core (s.pav pav).cores))

/-! ### The dispatcher (R271, R385, R387) -/

/-- The head launch of a queue, if its record is known (R228, R265). -/
def Dev.head (d : Dev) (q : Nat) : Option (Launch × List Byte) :=
  match d.launches.find? fun e => e.queue == q with
  | some e => e.record.map fun r => (e, r)
  | none => none

/-- The head launch of a queue is offered (R271 to R273): it is refused, admitted, or stays; whether it was admitted. -/
def State.offer (s : State) (pav vd q : Nat) : State × Bool :=
  match (s.dev pav vd).head q with
  | none => (s, false)
  | some (e, r) =>
    match s.refusal pav vd q r with
    | some st => (s.refuse pav vd e r st, false)
    | none =>
      let gang := s.gangSoFar pav vd q r
      let core := match gang with | some (c, _) => some c | none => s.launchCore pav r
      match core, s.hasRoom pav vd q r with
      | some c, true => (if recGraph r then s.startGraph pav vd c e r else s.admitTo pav vd c e r, true)
      | _, _ => (s, false)

/-- The queues that were not empty, in rotation from the one after the last served, each offered once until one launch is
admitted (R271, R385). -/
def State.offerAll (s : State) (pav vd : Nat) : State :=
  let d := s.dev pav vd
  let qs := ((List.range 16).map fun i => (d.served + 1 + i) % 16).filter fun q => d.launches.any fun e => e.queue == q
  (qs.foldl (fun (acc : State × Bool) q =>
    if acc.2 then acc
    else
      let d1 := acc.1.dev pav vd
      (acc.1.setDev pav vd { d1 with served := q }).offer pav vd q) (s, false)).1

/-- Whether some task of a device is bound. -/
def State.hasBound (s : State) (pav vd : Nat) : Bool :=
  (s.pav pav).cores.any fun c => (s.core c).table.any fun t => t.vd == vd && t.bound.isSome

/-- Whether a pavilion is being resized, or loses a core: its admission, its walkers and its bindings stand still (R358, R403). -/
def State.quiet (s : State) (pav : Nat) : Bool :=
  (bit s.oper.pcmd 15 && bits s.oper.pcmd 2 0 == 2 && bits s.oper.pcmd 6 3 == pav) ||
    (s.pav pav).cores.any fun c => (s.core c).failing.any fun f => f.part == 128

/-- Halted contexts whose place the task that the dispatcher had them halted for may take (R387): saved, with nothing of their program in
flight. -/
def Core.yielded (k : Core) : List Nat :=
  (List.range 4).filter fun c =>
    let x := k.ctx c
    x.saved.isSome && decide (x.mode = .halted) &&
      (match x.binding with | some b => !(k.inFlight.any fun e => e.2.2 == b.prog) | none => false)

/-- The group of a task that R278 lets be bound now: the oldest one for which what is held suffices. The context that the dispatcher had
halted for a task is that task's (R387). -/
def State.nextGroup (s : State) (pav core : Nat) : Option (List Task) :=
  let k := s.core core
  k.inLine.find? fun ts =>
    let n := s.groupNeeds pav core ts
    let extra : Units := if ts.any (fun t => k.heldFor == some t.id) then { Units.zero with ctxs := k.yielded.length } else Units.zero
    ((heldUnits k.holds ts).plus extra).covers n && (k.freeUnits.plus extra).covers n

/-! ### Binding (R278 to R280) -/

/-- The place of a halted context is given up: only its save is left (R387). -/
def State.park (s : State) (core c : Nat) : State :=
  let k := s.core core
  let x := k.ctx c
  match x.binding with
  | none => s
  | some b =>
    let k1 : Core := { k with
      parked := k.parked.set b.task (c, x)
      table := k.table.map fun (t : Task) => if t.id = b.task then { t with bound := none } else t }
    s.setCore core (k1.setCtx c x.vacate)

/-- A parked task is bound again (R387): its context is restored at an off context with its vector count (R408). -/
def State.unpark (s : State) (core : Nat) (t : Task) : State :=
  let k := s.core core
  match k.parked.find? t.id with
  | none => s
  | some (_, x) =>
    let places := (List.range 4).filter fun c =>
      decide ((k.ctx c).mode = .off) && (match x.saved with | some v => v.vcn == k.vcount c | none => false)
    match places with
    | [] => s
    | c :: _ =>
      let k1 : Core := { k with
        parked := k.parked.erase t.id
        table := k.table.map fun u => if u.id = t.id then { u with bound := some c } else u }
      (s.setCore core (k1.setCtx c x)).restoreCtx ⟨core, c⟩ ⟨core, c⟩

/-- The pipe map of a gang in s6 (R279). -/
def pipeMap (qs : List Nat) : Word :=
  BitVec.ofNat 64 (((List.range qs.length).zip qs).foldl (fun n e => n + e.2 * 2 ^ (4 * e.1)) 0)

/-- The pipes of a gang are set up (R280): each takes a free queue, 64 entries in the first bank of member 0's SET3. -/
def Core.setPipes (k : Core) (gang first : Nat) (qs : List Nat) : Core :=
  { k with queues := ((List.range qs.length).zip qs).foldl (fun t e =>
      t.set e.2 { base8 := (65536 * first + 512 * e.1) / 8, lcap := 6, en := true, head := 0, count := 0, owner := none
                  gang := some gang, stamps := [] }) k.queues }

/-- The claims of a task (R298): one for each bank of its sets, to write where some set writes it. -/
def Task.claims (t : Task) : List Claim :=
  let ws := t.writes.flatMap rangeBanks
  let rs := (t.reads.flatMap rangeBanks).filter fun b => !ws.contains b
  (ws.eraseDups.map fun b => ⟨t.id, b, true, ClaimState.pending, []⟩) ++ rs.eraseDups.map fun b => ⟨t.id, b, false, ClaimState.pending, []⟩

/-- The scalar registers of a program at its first bundle (R279). -/
def Task.scalars (t : Task) (pipes : Word) : Table Word :=
  let f (j : Nat) : Word := BitVec.ofNat 64 (t.firsts.getD j 0)
  [(0, f 0), (1, f 1), (2, f 2), (3, f 3), (4, recArg0 t.record), (5, recArg1 t.record), (6, pipes),
    (7, BitVec.ofNat 64 (recMidx t.record))]

/-- A context to which a program is bound (R28, R279, R231, R324): its registers, its tiles, its grant and its entry. -/
def Ctx.bind (x : Ctx) (b : Binding) (i : Image) (t : Task) (pipes grant : Word) (cap : Cap) : Ctx :=
  { Ctx.reset with
    mode := .ready
    pc := i.base + BitVec.ofNat 64 (recEntry t.record)
    binding := some b
    tiles := i.tiles.foldl (fun ts e => ts.set e.1 ⟨e.2, .reset⟩) []
    cur := { View.reset with
      region := x.cur.region, s := t.scalars pipes, a := [(0, cap)], ctl := { Ctl.reset with ddgrant := grant } } }

/-- A task is bound to a context (R211, R230, R278, R279, R296, R298). Of two tmpl records of its image with one number, the first is written;
the second finds the template owned by the program (DESIGN CHOICE, log 31: R96 does not say which of the two is). -/
def State.bindTask (s : State) (pav core c : Nat) (t : Task) (qs : List Nat) : State :=
  let k := s.core core
  let key := 65536 * pav + recImage t.record
  match s.images.find? key, takeUnits (k.granted 0) (recBlocks t.record), takeUnits (k.granted 8) (recDomains t.record) with
  | some i, some blocks, some domains =>
    let tenant := (s.dev pav t.vd).tenant
    let b : Binding := ⟨pav, t.vd, tenant, key, t.id, t.id⟩
    let grant := BitVec.ofNat 64 (blocks + domains * 2 ^ 8)
    let x := (k.ctx c).bind b i t (pipeMap qs) grant (recGiven t.record t.tagged tenant)
    let own (n : Nat) (slots : List Byte) (ts : Table Template) : Table Template :=
      if (ts.getD n .reset).owner.isNone then
        ts.set n ⟨some t.id, (List.range 8).map fun j => (j, ⟨BitVec.ofNat 128 (fieldOf slots (16 * j) 16), false⟩)⟩
      else ts
    let k1 : Core :=
      { k with
        table := k.table.map fun u => if u.id = t.id then { u with bound := some c } else u
        claims := k.claims ++ t.claims
        templates := i.templates.foldl (fun ts e => own e.1 e.2 ts) k.templates
        fmt := i.banks.foldl (fun f e => f.set e.1 e.2) k.fmt
        heldFor := if k.heldFor = some t.id then none else k.heldFor }
    let s1 := s.setCore core (k1.setCtx c x)
    let s2 := t.claims.foldl (fun s q => s.holdClaim core t.id q.bank) s1
    t.acquires.foldl (fun s e => s.acquireStamp ⟨core, c⟩ e) s2
  | _, _, _ => s

/-- Every member of a group is bound, at the lowest off contexts, with the pipes of its gang (R278, R280). -/
def State.bindGroup (s : State) (pav core : Nat) (ts : List Task) : State :=
  let k := s.core core
  let off := (List.range 4).filter fun c => decide ((k.ctx c).mode = .off)
  let s1 := (k.yielded.take (ts.length - off.length)).foldl (fun s c => s.park core c) s
  let k1 := s1.core core
  let places := (List.range 4).filter fun c => decide ((k1.ctx c).mode = .off)
  let qs := ((List.range 16).filter k1.queueFree).take ((ts.map fun t => recPipes t.record).sum)
  let holder := ts.find? fun t => decide (recMidx t.record = 0)
  let s2 :=
    match holder with
    | some t => if qs.isEmpty then s1 else s1.setCore core (k1.setPipes (t.gang.getD t.id) (t.firsts.getD 3 0) qs)
    | none => s1
  (ts.zip places).foldl (fun s e => s.bindTask pav core e.2 e.1 qs) s2

/-- A ready task of a core, or its whole gang, is bound, if it is the one that R278 lets be bound now. -/
def State.bind (s : State) (core task : Nat) : State :=
  match s.pavOf core with
  | none => s
  | some p =>
    let s1 := s.settle core
    match if s.quiet p || !(s.core core).failing.isEmpty then none else s1.nextGroup p core with
    | none => s
    | some ts =>
      match ts.find? fun t => t.id == task with
      | none => s
      | some t => (if ((s.core core).parked.find? task).isSome then s1.unpark core t else s1.bindGroup p core ts).settle core

/-! ### Pre-emption for a starved device (R387) -/

/-- The context of another device with the lowest deficit below 0 among those bound in a core. -/
def State.victim (s : State) (core vd : Nat) : Option Nat :=
  let k := s.core core
  let debt (c : Nat) : Int :=
    match (k.ctx c).binding with
    | some b => if b.vd = vd then 0 else (s.dev b.pav b.vd).deficit
    | none => 0
  let cs := (List.range 4).filter fun c => decide (debt c < 0) && decide ((k.ctx c).mode ≠ .halted) && decide ((k.ctx c).mode ≠ .off)
  match cs with
  | [] => none
  | c :: rest => some (rest.foldl (fun b e => if debt e < debt b then e else b) c)

/-- The dispatcher requests the halt of a context on a core where a ready task of a device with a positive deficit lacks only a context
(R387), at most one at a time. -/
def State.preemptFor (s : State) (pav vd core : Nat) : State :=
  let k := s.core core
  let holds := s.holdsNow pav core
  let starved := k.inLine.find? fun ts =>
    let h := heldUnits holds ts
    (ts.all fun t => t.vd == vd) && decide (h.ctxs < ts.length) &&
      ({ h with ctxs := ts.length } : Units).covers (s.groupNeeds pav core ts)
  let busy := k.heldFor.isSome || (List.range 4).any fun c => (k.ctx c).preempt
  match starved, busy, s.victim core vd with
  | some (t :: _), false, some c =>
    let s1 := s.setCore core { k with heldFor := some t.id }
    let x := s1.ctx ⟨core, c⟩
    (s1.setCtx ⟨core, c⟩ { x with asked := some k.cycle }).requestHalt ⟨core, c⟩
  | _, _, _ => s

/-- A visit of the dispatcher to a device (R385, R387). -/
def State.visit (s : State) (pav vd : Nat) : State :=
  let d := s.dev pav vd
  if !d.enabled || s.quiet pav then s
  else
    let quant := Int.ofNat (bits d.rdwrr 23 0)
    let s1 :=
      if d.launches.isEmpty && !s.hasBound pav vd then s.setDev pav vd (d.setDeficit (min d.deficit 0))
      else
        let d1 := d.setDeficit (min (d.deficit + quant) quant)
        let s0 := s.setDev pav vd d1
        if d1.deficit > 0 then s0.offerAll pav vd else s0
    if (s1.dev pav vd).deficit > 0 then (s1.pav pav).cores.foldl (fun s c => s.preemptFor pav vd c) s1 else s1

/-! ### The finish (R277) -/

/-- What a program leaves at its finish is freed (R211, R224, R302). -/
def Core.freeProgram (k : Core) (prog : Nat) : Core :=
  { k with
    ztiles := k.ztiles.map fun e =>
      if e.2.owner = some prog then (e.1, { e.2 with owner := none, stat := TileStat.reset }) else e
    queues := k.queues.map fun e => if e.2.owner = some prog then (e.1, { e.2 with en := false, owner := none }) else e
    templates := k.templates.map fun e => if e.2.owner = some prog then (e.1, Template.reset) else e
    heldFor := if k.heldFor = some prog then none else k.heldFor }

/-- A task finishes (R274, R277): its program has ended and no operation that it triggered is queued or runs. Its entry frees, the tasks
that conflicted with it are to acquire its release, and its completion entry falls due. -/
def State.finish (s : State) (core task : Nat) : State :=
  let k := (s.settle core).core core
  match s.pavOf core, k.table.find? fun t => t.id == task with
  | some p, some t =>
    match t.ended with
    | some (exit, status, w, r) =>
      if k.inFlight.any fun e => e.2.2 == task then s
      else
        let table := (k.table.filter fun u => u.id != task).map fun u =>
          if u.bound.isNone ∧ u.ended.isNone ∧ task ∈ u.deps then { u with acquires := u.acquires ++ [(w, r)] } else u
        let place := position core (s.pav p).cores + w % 4 * 2 ^ 8
        ((s.setCore core ({ k with table := table }.freeProgram task)).settle core).complete p t.vd
          (completion (recTag t.record) exit status (recMidx t.record) place)
    | none => s
  | _, _ => s

/-! ### The completion ring (R353) -/

/-- The entries of a device's completion ring. -/
def Dev.ringSize (d : Dev) : Nat := 16 * 2 ^ bits d.vdcfg 37 34

/-- The oldest waiting entry is written to the ring, unless the ring is full (R353). -/
def State.postEntry (s : State) (pav vd : Nat) : State :=
  let d := s.dev pav vd
  match d.entries with
  | [] => s
  | e :: rest =>
    if (d.crtail + 65536 - d.crhead) % 65536 = d.ringSize then s
    else
      let at_ := bits d.crbase 63 12 * 4096 + 16 * (d.crtail % d.ringSize)
      let s1 := s.setDev pav vd { d with entries := rest, crtail := (d.crtail + 1) % 65536 }
      { s1 with host := s1.host.setBytes at_ e, msix := s1.msix ++ [(pav, vd, 0)] }

/-! ### Steps -/

/-- The clock of a pavilion's dispatcher: the cycles of its first core. -/
def State.pavClock (s : State) (pav : Nat) : Nat :=
  match (s.pav pav).cores with
  | c :: _ => (s.core c).cycle
  | [] => 0

/-- The device that the dispatcher visits next: the enabled ones in ascending index, over and over (R385). -/
def Pav.nextVisit (p : Pav) : Option Nat :=
  let ds := (List.range 128).filter fun d => p.enabledDevs.contains d
  match ds.filter fun d => p.visited.any (· < d) with
  | d :: _ => some d
  | [] => ds.head?

/-- Whether the next visit of a dispatcher is due at a cycle: 8 cycles after the last one (R385). -/
def Pav.visitDue (p : Pav) (cycle : Nat) : Bool := decide (p.visitAt ≤ cycle) || decide (cycle + 8 < p.visitAt)

/-- DISPATCHER_VISIT (R385): of the device whose turn it is, when the visit is due. -/
def execDispatcherVisit (pav vd : Nat) (s : State) : Host.Outcome State Fault Refusal :=
  .next (if (s.pav pav).nextVisit = some vd ∧ (s.pav pav).visitDue (s.pavClock pav) = true then
      (s.setPav pav { s.pav pav with visited := some vd, visitAt := s.pavClock pav + 8 }).visit pav vd
    else s)
/-- TASK_BINDING (R278). -/
def execTaskBinding (core task : Nat) (s : State) : Host.Outcome State Fault Refusal := .next (s.bind core task)
/-- TASK_FINISH (R277). -/
def execTaskFinish (core task : Nat) (s : State) : Host.Outcome State Fault Refusal := .next (s.finish core task)
/-- COMPLETION_ENTRY_POST (R353). -/
def execCompletionEntryPost (pav vd : Nat) (s : State) : Host.Outcome State Fault Refusal := .next (s.postEntry pav vd)

end Sys2Proof.Machine
end

