-- ==== Sys2Proof/Machine/Walker.lean ====
section
/-!
DEFINITION. The graph walker of a core (R282 to R285) and its batch snapshots (R286, R287).
-/

namespace Sys2Proof.Machine

/-! ### Nodes (R283) -/

/-- The LINK word of a node. -/
def nodeLink (r : List Byte) : Word := BitVec.ofNat 64 (fieldOf r 12 4)
/-- KIND: 0 task, 1 conditional, 2 while, 3 join, 4 barrier wait, 5 end. -/
def nodeKind (r : List Byte) : Nat := bits (nodeLink r) 3 0
/-- NEXT. -/
def nodeNext (r : List Byte) : Nat := bits (nodeLink r) 11 4
/-- ALT. -/
def nodeAlt (r : List Byte) : Nat := bits (nodeLink r) 19 12
/-- JCNT. -/
def nodeJcnt (r : List Byte) : Nat := bits (nodeLink r) 27 20
/-- SNAP. -/
def nodeSnap (r : List Byte) : Bool := bit (nodeLink r) 28
/-- COFF of a conditional or while node. -/
def nodeCoff (r : List Byte) : Nat := fieldOf r 0 8
/-- MASK. -/
def nodeMask (r : List Byte) : Word := BitVec.ofNat 64 (fieldOf r 16 8)
/-- MAXIT. -/
def nodeMaxit (r : List Byte) : Nat := fieldOf r 24 8
/-- The pool address of the barrier of a barrier node. -/
def nodeBar (r : List Byte) : Nat := 16 * fieldOf r 0 8
/-- The initial phase of a barrier node. -/
def nodePhase (r : List Byte) : Nat := fieldOf r 16 8

/-- Whether some program of a tenant has a claim of a kind on a bank of a core (R298). -/
def State.tenantClaims (s : State) (pav core tenant bank : Nat) (p : ClaimState → Bool) : Bool :=
  let k := s.core core
  k.claims.any fun c =>
    c.bank == bank && p c.state && k.table.any fun t => t.id == c.prog && decide ((s.dev pav t.vd).tenant = tenant)

/-- Whether a node stops the walk (R285): a reserved KIND or bit, a successor that does not exist, a task node with GRAPH or an untagged
capability, or a barrier operand that R220 refuses, where the programs of the walker's tenant are the ones that may own its bank (log 22). -/
def State.badNode (s : State) (pav core : Nat) (w : Walker) (r : List Byte) (tag : Bool) : Bool :=
  let k := s.core core
  let kind := nodeKind r
  let n := w.nodes.length
  decide (kind > 5) || bits (nodeLink r) 31 29 != 0 || (decide (kind < 5) && decide (nodeNext r ≥ n)) ||
    ((kind == 1 || kind == 2) && (decide (nodeAlt r ≥ n) || nodeCoff r % 8 != 0)) || (kind == 0 && (recGraph r || !tag)) ||
    (kind == 4 && (decide (fieldOf r 0 8 ≥ 2 ^ 19) || decide (nodePhase r > 15) || decide (nodeBar r ≥ Config.poolBytes) ||
      !k.scratch (nodeBar r / 65536) || k.frameHeld (nodeBar r / 65536) ||
      !s.tenantClaims pav core (s.dev pav w.vd).tenant (nodeBar r / 65536) fun c => decide (c ≠ .releasing)))

/-- The tasks that a walk has submitted and that have not finished: launches that wait and entries of the table. -/
def State.unfinished (s : State) (pav core : Nat) (w : Walker) : Nat :=
  ((s.dev pav w.vd).launches.filter fun e => e.walk == some w.run).length +
    ((s.core core).table.filter fun t => t.walk == some w.run).length

/-- A task node as the launch of its walker's core (R283): CORE names it, ANY and GRAPH are ignored. -/
def nodeRecord (r : List Byte) (core : Nat) : List Byte :=
  let c := (recCtrl r &&& ~~~0x0100FF0000000000) ||| BitVec.ofNat 64 (core * 2 ^ 40)
  leBytes 8 c.toNat ++ r.drop 8

/-! ### Memory through CAP0 -/

/-- Bytes that the walker reads through CAP0 at an offset of the region; none where a check or the translation fails or the data is
poisoned. -/
def State.walkRead (s : State) (a : Accessor) (w : Walker) (off n : Nat) : Option (List Byte × State) :=
  match capCheck w.cap (Int.ofNat (w.cap.base + off)) n grantRD (s.dev a.pav a.vd).tenant false with
  | some _ => none
  | none =>
    match s.range a (w.cap.base + off) n false with
    | .error _ => none
    | .ok ps => if (s.readRange ps).2 then none else some ((s.readRange ps).1, s.touchRange a ps)

/-- Bytes that the walker writes through CAP0; the walker is no context, so watched lines lose their record of a writer. -/
def State.walkWrite (s : State) (a : Accessor) (w : Walker) (off : Nat) (bs : List Byte) : Option State :=
  match capCheck w.cap (Int.ofNat (w.cap.base + off)) bs.length grantWR (s.dev a.pav a.vd).tenant false with
  | some _ => none
  | none =>
    match s.range a (w.cap.base + off) bs.length true with
    | .error _ => none
    | .ok ps =>
      if s.writeRefused ps then none
      else
        let s1 := s.writeRange a ps bs
        some { s1 with lineMeta := ps.foldl (fun m p => if s1.keyDead p.place.kidx then m else m.put 0 (p.place.pa / 64) 0) s1.lineMeta }

/-! ### The walk (R284, R285) -/

/-- The walker of a core changed. -/
def State.setWalker (s : State) (core : Nat) (w : Option Walker) : State := s.setCore core { s.core core with walker := w }

/-- The walk stops and its completion entry falls due (R284, R285). -/
def State.endWalk (s : State) (pav core : Nat) (w : Walker) (status index : Nat) : State :=
  (s.setWalker core none).complete pav w.vd (completion w.tag 0 status index (position core (s.pav pav).cores))

/-- The offset of an entry of the batch table. -/
def Walker.entryAt (w : Walker) (i : Nat) : Nat := w.batch + 64 + 64 * i

/-- The first reading of COMMIT of an entry, or the end of the snapshot: ITER rises by 1 and the walker goes on (R287). -/
def State.snapNext (s : State) (pav core : Nat) (w : Walker) (i next : Nat) : State :=
  let a : Accessor := ⟨core, pav, w.vd, false⟩
  if i < w.nent then
    match s.walkRead a w (w.entryAt i) 8 with
    | some (c, s1) => s1.setWalker core (some { w with snap := some (i, BitVec.ofNat 64 (leNat c)) })
    | none => s.endWalk pav core w 5 w.node
  else
    match s.walkRead a w w.batch 8 with
    | none => s.endWalk pav core w 5 w.node
    | some (it, s1) =>
      match s1.walkWrite a w w.batch (leBytes 8 (leNat it + 1)) with
      | some s2 => s2.setWalker core (some { w with snap := none, node := next })
      | none => s1.endWalk pav core w 5 w.node

/-- An entry of a snapshot (R287): the half that the first COMMIT names, the second COMMIT, and the snapshot entry. -/
def State.snapEntry (s : State) (pav core : Nat) (w : Walker) (i : Nat) (c1 : Word) (next : Nat) : State :=
  let a : Accessor := ⟨core, pav, w.vd, false⟩
  match s.walkRead a w (w.entryAt i) 64 with
  | none => s.endWalk pav core w 5 w.node
  | some (bs, s1) =>
    let p := (bs.drop (if bit c1 0 then 36 else 8)).take 28
    let c2 : Word := BitVec.ofNat 64 (fieldOf bs 0 8)
    let fresh := p ++ leBytes 2 (bits c1 47 32)
    let (v, flags) : Option (List Byte) × Nat :=
      if c2 = c1 then (some fresh, 0) else match w.versions.find? i with | some o => (some o, 1) | none => (none, 2)
    let out : List Byte :=
      match v with
      | some o => o.take 28 ++ leBytes 2 flags ++ o.drop 28
      | none => List.replicate 28 0 ++ leBytes 2 flags ++ leBytes 2 0
    let w1 : Walker := { w with versions := match v with | some o => w.versions.set i o | none => w.versions }
    match s1.walkWrite a w (w.batch + 64 + 64 * w.nent + 32 * i) out with
    | none => s1.endWalk pav core w 5 w.node
    | some s2 => s2.snapNext pav core w1 (i + 1) next

/-- A conditional or while node whose tasks have finished reads its condition word (R284). -/
def State.walkCond (s : State) (pav core : Nat) (w : Walker) (r : List Byte) : State :=
  match if (w.cap.base + nodeCoff r) % 8 = 0 then s.walkRead ⟨core, pav, w.vd, false⟩ w (nodeCoff r) 8 else none with
  | none => s.endWalk pav core w 5 w.node
  | some (bs, s1) =>
    let met := (BitVec.ofNat 64 (leNat bs) : Word) &&& nodeMask r != 0
    if nodeKind r = 1 then s1.setWalker core (some { w with node := if met then nodeNext r else nodeAlt r })
    else
      let n := w.passes.getD w.node 0
      if met ∧ ¬ (nodeMaxit r ≠ 0 ∧ n ≥ nodeMaxit r) then
        let w1 : Walker := { w with passes := w.passes.set w.node (n + 1) }
        if nodeSnap r ∧ w.nent > 0 then s1.snapNext pav core w1 0 (nodeNext r)
        else s1.setWalker core (some { w1 with node := nodeNext r })
      else s1.setWalker core (some { w with passes := w.passes.set w.node 0, node := nodeAlt r })

/-- A task node is submitted to the queue of its graph launch when an entry of the store is free (R284). -/
def State.walkTask (s : State) (pav core : Nat) (w : Walker) (r : List Byte) : State :=
  let d := s.dev pav w.vd
  if s.storeFull pav w.vd then s
  else
    let e : Launch :=
      { id := s.opId, queue := w.queue, record := some (nodeRecord r (position core (s.pav pav).cores)), tagged := true, stamp := w.stamp
        core := core, ctx := 0, addr := 0, walk := some w.run }
    let s1 := ({ s with opId := s.opId + 1 } : State).setDev pav w.vd { d with launches := d.launches ++ [e] }
    s1.setWalker core (some { w with node := nodeNext r })

/-- The walker of a core acts on its node, if its wait has ended (R284). -/
def State.walk (s : State) (core : Nat) : State :=
  match s.pavOf core, (s.core core).walker with
  | some pav, some w =>
    match if s.quiet pav then some ([], false) else w.nodes[w.node]? with
    | none => s.endWalk pav core w 5 w.node
    | some ([], _) => s
    | some (r, tag) =>
      match w.snap with
      | some (i, c1) => s.snapEntry pav core w i c1 (nodeNext r)
      | none =>
        let left := s.unfinished pav core w
        if s.badNode pav core w r tag then s.endWalk pav core w 5 w.node
        else if nodeKind r = 0 then s.walkTask pav core w r
        else if nodeKind r = 3 then
          if left ≤ nodeJcnt r then s.setWalker core (some { w with node := nodeNext r }) else s
        else if nodeKind r = 4 then
          let q := w.phases.getD w.node (nodePhase r)
          if (s.barrier core ⟨core, pav, w.vd, false⟩ (nodeBar r)).phase = q ∨
              s.tenantClaims pav core (s.dev pav w.vd).tenant (nodeBar r / 65536) (fun c => decide (c = .held)) = false then s
          else s.setWalker core (some { w with phases := w.phases.set w.node ((q + 1) % 16), node := nodeNext r })
        else if left ≠ 0 then s
        else if nodeKind r = 5 then s.endWalk pav core w 0 0
        else s.walkCond pav core w r
  | _, _ => s

/-- WALKER_NODE (R284). -/
def execWalkerNode (core : Nat) (s : State) : Host.Outcome State Fault Refusal := .next (s.walk core)

end Sys2Proof.Machine
end

