-- ==== Sys2Proof/Machine/Host.lean ====
section
/-!
DEFINITION. What the host does through the registers and windows of its functions (R346 to R356): launches, the memory window, the completion
ring's head, VDCFG, the fault log, invalidation, the clearing of rename maps, the partition word (R294), and the registers that have no
step of their own (R5, R6).
-/

namespace Sys2Proof.Machine

/-! ### Host launches (R351, R352) -/

/-- A counter of 32 bits that wraps. -/
def count32 (n : Nat) : Nat := (n + 1) % 2 ^ 32

/-- The host advances CRHEAD (R353): a value that would pass an unwritten entry is ignored, and BAR2 of a pavilion that is not formed drops it (R347). -/
def State.writeCrhead (s : State) (pav vd : Nat) (x : Word) : State :=
  let d := s.dev pav vd
  let n := bits x 15 0
  if !(s.pav pav).formed ∨ s.oper.inReset then s
  else if (n + 65536 - d.crhead) % 65536 > (d.crtail + 65536 - d.crhead) % 65536 then s
  else s.setDev pav vd { d with crhead := n }

/-- A write to BAR2 (R351, R352): an aligned 64-byte write to the aperture is accepted into its queue or counted in FULL; any other write is
dropped and counted in MALF, but for CRHEAD. The writes of a pavilion that is not formed are dropped (R347). -/
def State.hostWrite (s : State) (pav vd off : Nat) (bs : List Byte) : State :=
  let d := s.dev pav vd
  if !(s.pav pav).formed ∨ s.oper.inReset then s
  else if off = 0x1100 then s.writeCrhead pav vd (BitVec.ofNat 64 (leNat bs))
  else if off < 0x400 ∧ off % 64 = 0 ∧ bs.length = 64 ∧ d.enabled ∧ bit d.vdctl 0 = false then
    let q := off / 64
    if s.storeFull pav vd then s.setDev pav vd { d with full := d.full.set q (count32 (d.full.getD q 0)) }
    else
      let e : Launch :=
        { id := s.opId, queue := q, record := some bs, tagged := true, stamp := none, core := 0, ctx := 0, addr := 0, walk := none }
      ({ s with opId := s.opId + 1 } : State).setDev pav vd
        { d with launches := d.launches ++ [e], acc := d.acc.set q (count32 (d.acc.getD q 0)) }
  else s.setDev pav vd { d with malf := count32 d.malf }

/-! ### The memory window (R354) -/

/-- The tenant virtual address of a window offset (R354). -/
def Dev.windowAddr (d : Dev) (off : Nat) : Nat := bits d.wbase 56 16 * 65536 + off % 2 ^ 39

/-- The accessor of a function's window. -/
def windowOf (pav vd : Nat) : Accessor := ⟨0, pav, vd, false⟩

/-- A part of a line that a host writes (R195, R310, R322, R360, R365): every L2 copy is invalidated, the home holds the line, tags are
cleared, and the line records no writer. -/
def State.hostWritePiece (s : State) (p : Piece) (bs : List Byte) : State :=
  let line := p.place.pa / 64
  if s.keyDead p.place.kidx then s
  else if s.poison.getD line false && p.len < 64 then s
  else
    let s1 := s.rekey line (s.serialOf p.place.kidx)
    let s2 : State :=
      { s1 with
        mem := s1.mem.setBytes p.place.pa bs
        poison := s1.poison.put false line false
        home := s1.home.erase line
        l2 := s1.l2.map fun e => (e.1, Table.erase e.2 line)
        lineMeta := if p.place.watched then s1.lineMeta.put 0 line 0 else s1.lineMeta }
    s2.clearTags p.place.pa p.len

/-- The parts of a host write in order. -/
def State.hostWriteRange (s : State) : List Piece → List Byte → State
  | [], _ => s
  | p :: ps, bs => State.hostWriteRange (s.hostWritePiece p (bs.take p.len)) ps (bs.drop p.len)

/-- The transfers of a window access wait at the memory controllers for the device of the function (R372). -/
def State.windowRequests (s : State) (pav vd : Nat) (ps : List Piece) : State :=
  ps.foldl (fun s p => s.request (homeArb (p.place.pa / 64)) pav vd 1) s

/-- A host write through BAR4 (R354): a failed translation drops it. -/
def State.windowWrite (s : State) (pav vd off : Nat) (bs : List Byte) : State :=
  if s.oper.inReset then s
  else
  match s.range (windowOf pav vd) ((s.dev pav vd).windowAddr off) bs.length true with
  | .error _ => s
  | .ok ps => (s.windowRequests pav vd ps).hostWriteRange ps bs

/-- The bytes that the home of a part holds, without the dirty copies of L2 (R251, R354), as the key of its page reads them (R364, R365). -/
def State.homePiece (s : State) (p : Piece) : List Byte :=
  let line := p.place.pa / 64
  match s.home.find? line with
  | none => s.readPiece p
  | some old =>
    if s.keyDead p.place.kidx then List.replicate p.len 0
    else
      (List.range p.len).map fun i =>
        let b := old.bytes.getD (p.place.pa % 64 + i) 0
        if old.key = s.serialOf p.place.kidx then b else Config.scrambled (s.serialOf p.place.kidx) old.key (p.place.pa + i) b

/-- A host read through BAR4 (R354, R360): its status is 0, 1 for Unsupported Request, or 2 for poisoned data; the last two carry bytes
0xFF. Offsets from 2^39 read the home. -/
def State.windowRead (s : State) (pav vd off len : Nat) : State :=
  let reply (s : State) (status : Nat) (bs : List Byte) : State := { s with reads := s.reads ++ [(pav, vd, status, bs)] }
  if s.oper.inReset then s
  else
  match s.range (windowOf pav vd) ((s.dev pav vd).windowAddr off) len false with
  | .error _ => reply s 1 (List.replicate len 0xFF)
  | .ok ps =>
    let s1 := s.windowRequests pav vd ps
    if ps.any s.piecePoisoned then reply s1 2 (List.replicate len 0xFF)
    else reply s1 0 (ps.flatMap (if off / 2 ^ 39 % 2 = 1 then s.homePiece else s.readPiece))

/-! ### VDCFG (R349, R364, R374, R417) -/

/-- The sum of LSTORE over the enabled devices of the package. -/
def State.storesTotal (s : State) : Nat :=
  (s.pavs.map fun p => (p.2.devs.map fun d => if d.2.enabled then d.2.lstore else 0).sum).sum

/-- Whether a write of VDCFG that sets EN is refused (R349, R374, R417). -/
def State.enableRefused (s : State) (pav vd : Nat) (x : Word) : Bool :=
  let p := s.pav pav
  let lstore := bits x 33 25
  let hvd := bits x 23 17
  decide (lstore = 0) || decide (lstore > 256) || decide (bits x 37 34 > 11) || decide (s.storesTotal + lstore > 8192) ||
    (bit x 24 && (hvd == vd || !(s.dev pav hvd).enabled)) || (vd != 0 && decide (vd > p.vfs)) || !s.blockFits pav vd || p.slot.isNone

/-- The lowest key index that no device holds (R364). -/
def State.freeKey (s : State) : Nat :=
  ((List.range 256).find? fun k => decide (k > 0) && (match s.keys.find? k with | some e => !e.live | none => true)).getD 0

/-- A write of VDCFG through the PF (R349): ignored while EN is 1; an enable that is refused changes nothing but ERR; an enable gives the lowest
free key index and a fresh key, a deficit of 0 and lending counters of 0. -/
def State.writeVdcfg (s : State) (pav vd : Nat) (x : Word) : State :=
  let d := s.dev pav vd
  let fields : Word := x &&& 0x3FFFFE01FE
  if d.enabled ∨ s.oper.inReset then s
  else if !bit x 0 then s.setDev pav vd { d with vdcfg := fields ||| (d.vdcfg &&& 0x1FE00) }
  else if s.enableRefused pav vd x then s.setDev pav vd ({ d with vdctl := putBit d.vdctl 1 true }.setErr true)
  else
    let k := s.freeKey
    let d1 : Dev := { d with vdcfg := fields ||| 1 ||| BitVec.ofNat 64 (k * 2 ^ 9), vdctl := putBit d.vdctl 1 false, refused := [], gone := [] }
    let s1 := s.setDev pav vd ((d1.setErr false).setDeficit 0)
    ({ s1 with keys := s1.keys.set k ⟨pav, vd, s1.keySerial, true⟩, keySerial := s1.keySerial + 1 } : State).resetLending

/-! ### Small commands -/

/-- The oldest fault record of a device is removed (R398). -/
def State.popFault (s : State) (pav vd : Nat) : State :=
  let d := s.dev pav vd
  s.setDev pav vd { d with flog := d.flog.drop 1 }

/-- Whether an invalidation covers an entry that is held (R356, R363): the entries of stage 1 of device VD, or of stage 2, for every address or
for the page at PAGE. A stage-2 page takes the stage-1 entries that were read through it with it. -/
def State.coversHeld (s : State) (pav : Nat) (e : HeldEntry) : Bool :=
  let v := (s.pav pav).pavinv
  let all := bit v 9
  let page := bits v 56 16 * 65536
  let at_ (lv : Nat) (a : Nat) : Nat := a >>> (match lv with | 0 => 48 | 1 => 39 | 2 => 30 | 3 => 21 | _ => 16)
  let second := bit v 1
  e.pav == pav &&
    (if second then
      if e.vd == 128 then all || e.tag == at_ e.level page
      else all || e.place / 65536 == page / 65536 ||
        s.tlb.any fun f => f.pav == pav && f.vd == 128 && bit f.word 1 && f.tag == at_ f.level page && f.tag == at_ f.level e.place
    else e.vd == bits v 8 2 && (all || e.tag == at_ e.level page))

/-- An invalidation completes (R363): what it covers is held no longer, and GO falls. -/
def State.invalidate (s : State) (pav : Nat) : State :=
  let p := s.pav pav
  ((s.dropHeld (s.coversHeld pav)).setPav pav { p with pavinv := putBit p.pavinv 0 false }).dropUnwatched

/-- The rename map of each core for which RMCLR is pending is cleared if its dependence table is empty (R276, R356). -/
def State.clearMaps (s : State) (pav : Nat) : State :=
  let p := s.pav pav
  let done := p.rmclr.filter fun c => (s.core c).table.isEmpty
  let s1 := s.setPav pav { p with rmclr := p.rmclr.filter fun c => !done.contains c }
  done.foldl (fun s c => s.setCore c { s.core c with renames := [] }) s1

/-! ### The partition word (R292 to R294) -/

/-- A partition word with SBN derived for the banks in service (R293). -/
def partWith (part : Word) (service : List Nat) : Word :=
  let w := part &&& 0x7FF
  let sbn := service.length - vectorBanks w - accBanks w
  w ||| BitVec.ofNat 64 (sbn * 2 ^ 11)

/-- Whether some engine queue of a core holds an operation. -/
def Core.enginesBusy (k : Core) : Bool := !k.inFlight.isEmpty

/-- The banks whose role a partition word and a set of banks in service change. -/
def Core.roleChanges (k : Core) (part : Word) (service : List Nat) : List Nat :=
  (List.range 80).filter fun b => bankRole k.poolpart k.inService b != bankRole part service b

/-- The banks of a pool-backed z tile (R293): four of the accumulator banks, in ascending order from z2 on. -/
def zBanks (part : Word) (service : List Nat) (i : Nat) : List Nat :=
  ((((List.range 80).filter fun b => bankRole part service b == 1).drop (4 * (i - 2))).take 4)

/-- Whether a z tile lies in banks whose role changes, as it stands or as it is to stand; z0 and z1 are no pool banks (R292). -/
def Core.zChanged (k : Core) (part : Word) (service : List Nat) (i : Nat) : Bool :=
  decide (2 ≤ i) && (zBanks k.poolpart k.inService i ++ zBanks part service i).any (k.roleChanges part service).contains

/-- Banks set to zero, with no key index and format descriptor 0 (R294). -/
def Core.zeroBanks (k : Core) (bs : List Nat) : Core :=
  { k with
    pool := k.pool.filter fun e => !bs.contains (e.1 / 65536)
    sectorKey := k.sectorKey.filter fun e => !bs.contains (e.1 / 1024)
    fmt := k.fmt.filter fun e => !bs.contains e.1 }

/-- Whether the lodge refuses a partition word (R294). -/
def Core.partRefused (k : Core) (x : Word) : Bool :=
  ((List.range 4).any fun c => bits x (2 * c + 1) (2 * c) == 3) || decide (bits x 10 8 > 6) ||
    decide (k.inService.length ≤ vectorBanks (x &&& 0x7FF) + accBanks (x &&& 0x7FF)) ||
    ((List.range 4).any fun c => decide ((k.ctx c).mode ≠ .off)) || !k.table.isEmpty || k.walker.isSome || k.enginesBusy ||
    (k.ztiles.any fun z => z.2.owner.isSome) ||
    (k.roleChanges (x &&& 0x7FF) k.inService).any k.frameHeld

/-- The lodge writes the partition word of a core at the driver's request (R294). -/
def State.writePoolpart (s : State) (core : Nat) (x : Word) : State :=
  let k := s.core core
  if k.partRefused x then s
  else
    let part := partWith x k.inService
    let k1 := k.zeroBanks (k.roleChanges part k.inService)
    s.setCore core
      { k1 with
        poolpart := part
        ztiles := k1.ztiles.filter fun z => !k.zChanged part k.inService z.1
        ctxs := k1.ctxs.map fun e => (e.1, { e.2 with cur := { e.2.cur with v := [], emptyV := 0 } }) }

/-! ### Registers without a step of their own (R5, R6) -/

/-- A write of PCMD (R357): with GO the command starts; a reserved OP gives RESULT 1. -/
def Oper.writePcmd (o : Oper) (x : Word) : Oper :=
  let op := bits x 2 0
  let fields : Word := x &&& 0x7FFF
  if !bit x 15 then { o with pcmd := fields ||| (o.pcmd &&& 0xF0000) }
  else if op = 0 ∨ op > 5 then { o with pcmd := fields ||| 0x10000 }
  else { o with pcmd := fields ||| 0x8000 }

/-- A write of PMODE (R422): ignored while a change is in progress, the lodges' own for a trip among them (R426); with GO it is refused with RESULT 1 or 5, or starts the change and
clears AUTO (R425). -/
def Oper.writePmode (o : Oper) (x : Word) : Oper :=
  let m := bits x 1 0
  if o.go || o.tripDue then o
  else if !bit x 2 then { o with mode := m }
  else if m = 3 then { o with mode := m, result := 1 }
  else if m ≠ 2 ∧ (!o.cool ∨ o.trip) then { o with mode := m, result := 5 }
  else { o with mode := m, result := 0, go := true, auto := false }

/-- A write of THERM (R425): TWARN from 60 to 104; WARN and TRIP are cleared by 1, TRIP only while both temperatures are below
TWARN. A temperature that a lower TWARN meets has reached it, and the full hold ends where a higher one lies above both (log 24). -/
def State.writeTherm (s : State) (x : Word) : State :=
  let o := s.oper
  let tw := bits x 23 16
  let twarn := if 60 ≤ tw ∧ tw ≤ 104 then tw else o.twarn
  let o1 : Oper :=
    { o with
      twarn := twarn
      warn := o.warn && !bit x 32
      trip := o.trip && !(bit x 33 && decide (o.t0 < twarn) && decide (o.t1 < twarn)) }
  s.warned o1

/-- A write of IMGCTL, IMGADDR or IMGDATA is ignored while a command is in progress (R264). -/
def Pav.imgBusy (p : Pav) : Bool := bit p.imgctl 0

/-- A write to a register that has no step of its own (R5, R6): its fields are set by their access codes. A write of PMODE does not depend on a
command of PCMD (R432). -/
def State.writeRegister (s : State) (r : HostReg) (x : Word) : State :=
  let dev (pav vd : Nat) (f : Dev → Dev) : State := s.setDev pav vd (f (s.dev pav vd))
  let pav (n : Nat) (f : Pav → Pav) : State := s.setPav n (f (s.pav n))
  let oper (f : Oper → Oper) : State := if s.oper.locked then s else { s with oper := f s.oper }
  if s.oper.inReset then s
  else
  match r with
  | .s1root p d => dev p d fun v => { v with s1root := x &&& 0x0000FFFFFFFFF000 }
  | .wbase p d => dev p d fun v => { v with wbase := x &&& 0x01FFFFFFFFFF0000 }
  | .crbase p d => dev p d fun v => { v with crbase := x &&& 0xFFFFFFFFFFFFF000 }
  | .vdctl p d => dev p d fun v => { v with vdctl := v.vdctl ||| (x &&& 1) }
  | .s2root p => pav p fun v => { v with s2root := x &&& 0x0000FFFFFFFFF000 }
  | .stbase p => pav p fun v => { v with stbase := x &&& 0x0000FFFFFFFFF000 }
  | .pavctl p => pav p fun v => { v with rmclr := if bit x 0 then v.cores else v.rmclr }
  | .pavinv p => pav p fun v => { v with pavinv := (x &&& 0x01FFFFFFFFFF03FE) ||| ((v.pavinv ||| x) &&& 1) }
  | .fwctl p => pav p fun v => { v with fwctl := v.fwctl ||| (x &&& 1) }
  | .fwaddr p => pav p fun v => { v with fwaddr := x &&& 0xFFFFFFFFFFFFF000 }
  | .atctl p => pav p fun v => { v with atctl := (x &&& 2) ||| (v.atctl &&& 0x1C) ||| ((v.atctl ||| x) &&& 1) }
  | .ataddr p => pav p fun v => { v with ataddr := x &&& 0xFFFFFFFFFFFFF000 }
  | .imgctl p =>
    pav p fun v => if v.imgBusy then v else { v with imgctl := (x &&& 0xFFFFFFFFFFFF01FF) ||| (v.imgctl &&& 0x1E00) }
  | .imgaddr p => pav p fun v => if v.imgBusy then v else { v with imgaddr := x &&& 0xFFFFFFFFFFFFF000 }
  | .imgdata p => pav p fun v => if v.imgBusy then v else { v with imgdata := x &&& 0x01FFFFFFFFFF0000 }
  | .numVfs p => pav p fun v => if bits x 15 0 ≤ v.nvf then { v with vfs := bits x 15 0 } else v
  | .pcmd => oper fun o => o.writePcmd x
  | .pcore0 => oper fun o => { o with pcore0 := x }
  | .pcore1 => oper fun o => { o with pcore1 := x }
  | .pmem => oper fun o => { o with pmem := x &&& 0xFFFFFFFFFF }
  | .pmode => if bit s.oper.calw 26 then s else { s with oper := s.oper.writePmode x }
  | .therm => if s.oper.locked then s else s.writeTherm x

/-! ### Steps -/

/-- HOST_LAUNCH (R351). -/
def execHostLaunch (pav vd off : Nat) (bytes : List Byte) (s : State) : Host.Outcome State Fault Refusal :=
  .next (s.hostWrite pav vd off bytes)
/-- WINDOW_WRITE (R354). -/
def execWindowWrite (pav vd off : Nat) (bytes : List Byte) (s : State) : Host.Outcome State Fault Refusal :=
  .next (s.windowWrite pav vd off bytes)
/-- WINDOW_READ (R354). -/
def execWindowRead (pav vd off len : Nat) (s : State) : Host.Outcome State Fault Refusal := .next (s.windowRead pav vd off len)
/-- CRHEAD_WRITE (R353). -/
def execCrheadWrite (pav vd : Nat) (value : Word) (s : State) : Host.Outcome State Fault Refusal := .next (s.writeCrhead pav vd value)
/-- VDCFG_WRITE (R349). -/
def execVdcfgWrite (pav vd : Nat) (value : Word) (s : State) : Host.Outcome State Fault Refusal := .next (s.writeVdcfg pav vd value)
/-- FAULT_LOG_POP (R398). -/
def execFaultLogPop (pav vd : Nat) (s : State) : Host.Outcome State Fault Refusal := .next (s.popFault pav vd)
/-- PAVINV (R363). -/
def execPavinv (pav : Nat) (s : State) : Host.Outcome State Fault Refusal := .next (s.invalidate pav)
/-- RMCLR (R356). -/
def execRmclr (pav : Nat) (s : State) : Host.Outcome State Fault Refusal := .next (s.clearMaps pav)
/-- POOLPART_WRITE (R294). -/
def execPoolpartWrite (core : Nat) (value : Word) (s : State) : Host.Outcome State Fault Refusal := .next (s.writePoolpart core value)
/-- REGISTER_WRITE (R5). -/
def execRegisterWrite (reg : HostReg) (value : Word) (s : State) : Host.Outcome State Fault Refusal := .next (s.writeRegister reg value)

end Sys2Proof.Machine
end

