-- ==== Sys2Proof/Machine/MlDsa.lean ====
section
/-!
DEFINITION. ML-DSA-44 in pure mode with an empty context string (R413), from the standard FIPS 204 that the rule names (log 9): the check of a
signature, and the keys and signatures of the lodge's identity (R419). A polynomial is the list of its 256 coefficients, each below q.
-/

namespace Sys2Proof.Machine

/-- The modulus q. -/
def dsaQ : Nat := 8380417
/-- Twice γ2, by which a coefficient is divided into its high and low part. -/
def dsaAlpha : Nat := 190464

/-- Eight bits reversed. -/
def reverse8 (n : Nat) : Nat := ((List.range 8).map fun i => n / 2 ^ i % 2 * 2 ^ (7 - i)).sum

/-- A power modulo q; an exponent below 512. -/
def dsaPow (x e : Nat) : Nat :=
  (List.range 9).foldl (fun acc i => let sq := acc * acc % dsaQ; if e / 2 ^ (8 - i) % 2 = 1 then sq * x % dsaQ else sq) 1

/-- The factor of a node of the transform: ζ to the reversed number of the node. -/
def dsaZeta (k : Nat) : Nat := dsaPow 1753 (reverse8 k)
/-- The inverse of that factor. -/
def dsaZetaInv (k : Nat) : Nat := dsaPow 1753 ((512 - reverse8 k) % 512)

/-- The number theoretic transform below a node, for lists of 2 ^ depth coefficients. -/
def ntt : Nat → Nat → List Nat → List Nat
  | 0, _, w => w
  | d + 1, k, w =>
    let z := dsaZeta k
    let lo := w.take (2 ^ d)
    let hi := (w.drop (2 ^ d)).map fun x => x * z % dsaQ
    ntt d (2 * k) (List.zipWith (fun x y => (x + y) % dsaQ) lo hi) ++
      ntt d (2 * k + 1) (List.zipWith (fun x y => (x + dsaQ - y) % dsaQ) lo hi)

/-- The inverse transform below a node, before the division by the length. -/
def inverseNtt : Nat → Nat → List Nat → List Nat
  | 0, _, w => w
  | d + 1, k, w =>
    let z := dsaZetaInv k
    let lo := inverseNtt d (2 * k) (w.take (2 ^ d))
    let hi := inverseNtt d (2 * k + 1) (w.drop (2 ^ d))
    List.zipWith (fun x y => (x + y) % dsaQ) lo hi ++ List.zipWith (fun x y => (x + dsaQ - y) * z % dsaQ) lo hi

/-- The transform of a polynomial. -/
def toNtt (w : List Nat) : List Nat := ntt 8 1 w
/-- The polynomial of a transform: 8347681 is the inverse of 256. -/
def ofNtt (w : List Nat) : List Nat := (inverseNtt 8 1 w).map fun x => x * 8347681 % dsaQ

/-- The product of two transforms. -/
def nttMul (a b : List Nat) : List Nat := List.zipWith (fun x y => x * y % dsaQ) a b
/-- The sum of two lists of coefficients. -/
def polyAdd (a b : List Nat) : List Nat := List.zipWith (fun x y => (x + y) % dsaQ) a b
/-- The difference of two lists of coefficients. -/
def polySub (a b : List Nat) : List Nat := List.zipWith (fun x y => (x + dsaQ - y) % dsaQ) a b

/-- Fields of some bits each, the lowest first. -/
def unpackBits (bits : Nat) (bs : List Byte) (n : Nat) : List Nat :=
  let v := leNat bs
  (List.range n).map fun i => v >>> (bits * i) % 2 ^ bits

/-- Values packed into bytes, some bits each. -/
def packBits (bits : Nat) (vs : List Nat) : List Byte :=
  leBytes (bits * vs.length / 8) ((vs.zipIdx.map fun e => e.1 <<< (bits * e.2)).sum)

/-- Lists of a fixed length of a list. -/
def chunks {α : Type} (size n : Nat) (l : List α) : List (List α) := (List.range n).map fun i => (l.drop (size * i)).take size

/-- The coefficients below q among triples of a stream, each without its top bit. -/
def rejectNtt : List Byte → List Nat
  | a :: b :: c :: rest =>
    let z := a.toNat + 256 * b.toNat + 65536 * (c.toNat % 128)
    if z < dsaQ then z :: rejectNtt rest else rejectNtt rest
  | _ => []

/-- An entry of the matrix that a seed gives, as a transform (log 9: of 1,344 bytes of the stream). -/
def dsaEntry (rho : List Byte) (r s : Nat) : List Nat :=
  (rejectNtt (shake128 (rho ++ [BitVec.ofNat 8 s, BitVec.ofNat 8 r]) 1344)).take 256

/-- The challenge of a seed: from place i on, each byte of the stream that is not above i swaps a sign into its place. -/
def dsaBall : Nat → List Byte → List Nat → Nat → List Nat
  | _, [], c, _ => c
  | signs, j :: rest, c, i =>
    if i > 255 then c
    else if j.toNat > i then dsaBall signs rest c i
    else
      let c1 := (c.set i (c.getD j.toNat 0)).set j.toNat (if signs % 2 = 1 then dsaQ - 1 else 1)
      dsaBall (signs / 2) rest c1 (i + 1)

/-- The polynomial of 39 signs that a challenge names. -/
def dsaChallenge (seed : List Byte) : List Nat :=
  let h := shake256 seed 680
  dsaBall (leNat (h.take 8)) (h.drop 8) (List.replicate 256 0) 217

/-- Whether some numbers rise strictly. -/
def rises : List Byte → Bool
  | x :: y :: rest => decide (x < y) && rises (y :: rest)
  | _ => true

/-- The hints of a signature by polynomial; none where their coding is not the one that the standard allows. -/
def dsaHints (y : List Byte) : Option (List (List Byte)) :=
  let ends := 0 :: (y.drop 80).map BitVec.toNat
  let hs := (List.range 4).map fun i => (y.take (ends.getD (i + 1) 0)).drop (ends.getD i 0)
  let fits := (List.range 4).all fun i => decide (ends.getD i 0 ≤ ends.getD (i + 1) 0) && decide (ends.getD (i + 1) 0 ≤ 80)
  if fits && hs.all rises && ((y.take 80).drop (ends.getD 4 0)).all (fun b => b == 0) then some hs else none

/-- The high part of a coefficient, corrected by its hint. -/
def dsaUseHint (hint : Bool) (r : Nat) : Nat :=
  let m := r % dsaAlpha
  let neg := decide (m > dsaAlpha / 2)
  let top := if neg then r / dsaAlpha + 1 else r / dsaAlpha
  -- the last interval belongs to the first one, with a low part below 0
  let wrap := decide (top = 44)
  let r1 := if wrap then 0 else top
  if !hint then r1 else if !neg && m ≠ 0 then (r1 + 1) % 44 else (r1 + 43) % 44

/-- Whether ML-DSA-44 accepts a signature of a message of 32 bytes under a public key (R413). -/
def mlDsaAccepts (key : List Byte) (m sig : List Byte) : Bool :=
  if key.length ≠ 1312 ∨ sig.length ≠ 2420 then false
  else
    match dsaHints (sig.drop 2336) with
    | none => false
    | some hints =>
      let rho := key.take 32
      let t1 := (chunks 320 4 (key.drop 32)).map fun c => unpackBits 10 c 256
      let seed := sig.take 32
      let zs := (chunks 576 4 (sig.drop 32)).map fun c => unpackBits 18 c 256
      let zn := zs.map fun z => toNtt (z.map fun x => (131072 + dsaQ - x) % dsaQ)
      let c := toNtt (dsaChallenge seed)
      let mu := shake256 (shake256 key 64 ++ [0, 0] ++ m) 64
      let w1 := (List.range 4).map fun i =>
        let az := ((List.range 4).map fun j => nttMul (dsaEntry rho i j) (zn.getD j [])).foldl polyAdd (List.replicate 256 0)
        let ct := nttMul c (toNtt ((t1.getD i []).map fun x => x * 8192 % dsaQ))
        let w := ofNtt (polySub az ct)
        let h := (hints.getD i []).map BitVec.toNat
        w.zipIdx.map fun e => dsaUseHint (h.contains e.2) e.1
      -- every coefficient of z, 131,072 minus its field, lies within 130,994 of 0
      (zs.flatten.all fun x => decide (78 < x) && decide (x < 262066)) && shake256 (mu ++ w1.flatMap (packBits 6)) 32 == seed

/-! ### Keys and signatures (R419) -/

/-- The coefficients from -2 to 2 that the half bytes of a stream give: 15 gives none. -/
def rejectBounded : List Byte → List Nat
  | [] => []
  | b :: rest =>
    let half (h : Nat) : List Nat := if h < 15 then [(dsaQ + 2 - h % 5) % dsaQ] else []
    half (b.toNat % 16) ++ half (b.toNat / 16) ++ rejectBounded rest

/-- A short polynomial of a seed by its number (log 9: of 544 bytes of the stream). -/
def dsaShort (seed : List Byte) (n : Nat) : List Nat := (rejectBounded (shake256 (seed ++ leBytes 2 n) 544)).take 256

/-- The parts of a key pair: the seed of the matrix, the secret vectors, the high and the low part of the public vector, and the secret and the
public bytes that signatures are made with. -/
structure DsaKey where
  rho : List Byte
  s1 : List (List Nat)
  s2 : List (List Nat)
  t1 : List (List Nat)
  t0 : List (List Nat)
  secret : List Byte

/-- The product of the matrix of a seed with a vector of transforms. -/
def dsaMatrix (rho : List Byte) (v : List (List Nat)) : List (List Nat) :=
  (List.range 4).map fun i =>
    ((List.range 4).map fun j => nttMul (dsaEntry rho i j) (v.getD j [])).foldl polyAdd (List.replicate 256 0)

/-- The key pair of a seed. -/
def dsaKeyOf (seed : List Byte) : DsaKey :=
  let h := shake256 (seed ++ [4, 4]) 128
  let rho := h.take 32
  let short := (h.drop 32).take 64
  let s1 := (List.range 4).map (dsaShort short)
  let s2 := (List.range 4).map fun i => dsaShort short (i + 4)
  let t := List.zipWith polyAdd ((dsaMatrix rho (s1.map toNtt)).map ofNtt) s2
  -- the low part of a coefficient lies from -4,095 to 4,096
  let high := t.map fun p => p.map fun x => (x + 4095) / 8192
  { rho := rho, s1 := s1, s2 := s2, t1 := high, t0 := List.zipWith (fun p h => polySub p (h.map fun x => x * 8192 % dsaQ)) t high,
    secret := h.drop 96 }

/-- The public key in bytes. -/
def DsaKey.bytes (k : DsaKey) : List Byte := k.rho ++ k.t1.flatMap (packBits 10)

/-- The distance of a coefficient from 0. -/
def dsaSize (x : Nat) : Nat := min x (dsaQ - x)

/-- The low part of a coefficient, modulo q. -/
def dsaLow (x : Nat) : Nat := (x + dsaQ - dsaUseHint false x * dsaAlpha) % dsaQ

/-- The places of the hints of a polynomial: those at which a correction changes the high part. -/
def dsaMark (correction base : List Nat) : List Nat :=
  (List.range 256).filter fun i =>
    dsaUseHint false (base.getD i 0) != dsaUseHint false ((base.getD i 0 + correction.getD i 0) % dsaQ)

/-- The signatures that some attempts make, of which the first one that the standard lets pass counts (log 9). -/
def dsaAttempt (k : DsaKey) (mu mask : List Byte) : Nat → Nat → List Byte
  | 0, _ => []
  | n + 1, kappa =>
    let y := (List.range 4).map fun r =>
      (unpackBits 18 (shake256 (mask ++ leBytes 2 (kappa + r)) 576) 256).map fun x => (131072 + dsaQ - x) % dsaQ
    let w := (dsaMatrix k.rho (y.map toNtt)).map ofNtt
    let seed := shake256 (mu ++ w.flatMap fun p => packBits 6 (p.map (dsaUseHint false))) 32
    let c := toNtt (dsaChallenge seed)
    let times (v : List (List Nat)) : List (List Nat) := v.map fun p => ofNtt (nttMul c (toNtt p))
    let z := List.zipWith polyAdd y (times k.s1)
    let base := List.zipWith polySub w (times k.s2)
    let ct := times k.t0
    let sum := List.zipWith polyAdd base ct
    let hints := List.zipWith dsaMark (ct.map fun p => p.map fun x => (dsaQ - x) % dsaQ) sum
    let below (bound : Nat) (v : List (List Nat)) : Bool := v.all fun p => p.all fun x => decide (dsaSize x < bound)
    if below 130994 z && below 95154 (base.map fun p => p.map dsaLow) && below 95232 ct && decide ((hints.map List.length).sum ≤ 80) then
      let places := hints.flatMap fun h => h.map (BitVec.ofNat 8)
      seed ++ (z.flatMap fun p => packBits 18 (p.map fun x => (131072 + dsaQ - x) % dsaQ)) ++ (places ++ List.replicate 80 0).take 80 ++
        (List.range 4).map fun i => BitVec.ofNat 8 (((hints.take (i + 1)).map List.length).sum)
    else dsaAttempt k mu mask n (kappa + 4)

/-- The signature of a message of 32 bytes by the key pair of a seed, with random bytes. -/
def mlDsaSign (seed random m : List Byte) : List Byte :=
  let k := dsaKeyOf seed
  let mu := shake256 (shake256 k.bytes 64 ++ [0, 0] ++ m) 64
  dsaAttempt k mu (shake256 (k.secret ++ random ++ mu) 64) 814 0

/-- Whether a signature of a digest verifies under a public key (R413). -/
def verifies (key : List Byte) (d : BitVec 256) (sig : List Byte) : Bool := mlDsaAccepts key (digestBytes d) sig

end Sys2Proof.Machine
end

