-- ==== Sys2Proof/Machine/Verify.lean ====
section
/-!
DEFINITION. The checks that the loader makes of an image's text without running it (R43, R87, R116, R118, R119, R227, R254 to R258, R260,
R261): causes that a bundle's bits decide, markers, live-state lists, loop bodies, and the weights of segments and handlers.
-/

namespace Sys2Proof.Machine

/-! ### Bundles of a text (R74, R87) -/

/-- The items of the bundle at an offset of a text. -/
def textItems (text : List Byte) (off : Nat) : Option (List Item) :=
  if off % 8 = 0 ∧ off + 24 ≤ text.length then some (decodeSlots (leNat ((text.drop off).take 24)) 0 8) else none

/-- The moves of a bundle that name a destination, whatever their guards. -/
def textMoves : Nat → List Item → List (BitVec 4 × Live)
  | _, [] => []
  | slot, .imm _ :: rest => textMoves (slot + 1) rest
  | slot, .move g s b src dst :: rest =>
    match dst with
    | .null | .nop _ => textMoves (slot + 1) rest
    | _ => (g, ⟨slot, s, b, src, dst⟩) :: textMoves (slot + 1) rest

/-- A package in which context 0 of core 0 has the largest partition and full registers: what no cause of R87 depends on. -/
def probe : State := State.reset.setCore 0 { Core.reset with poolpart := 0xAA }

/-- Whether a source is an immediate. -/
def immSource : Src → Bool
  | .short _ | .imms _ | .immz _ | .immw _ => true
  | _ => false

/-- Whether an operation is a transfer (R110). -/
def isTransfer : Op → Bool
  | .jmp | .jmpa | .call | .calla | .ret | .bmz | .bmnz => true
  | _ => false

/-- Whether a move has a cause that its bits decide (R87, R261): not a missing result or operand, nor a number beyond the partition, nor a
reference word or a target that a register holds. -/
def staticCause (items : List Item) (m : Live) : Bool :=
  match m.dst with
  | .trig _ op =>
    let sm := opSem op
    match readSrc probe ⟨0, 0⟩ items m.slot m.src with
    | .error c => c != 8 && c != 11
    | .ok (v, _) =>
      (v.adapt sm.xw).isNone || (m.s && sm.outward) || (isTransfer op && immSource m.src && bits v.toWord 2 0 != 0)
  | _ =>
    match examinePlain probe ⟨0, 0⟩ items m with
    | .trap _ t => t.cause != 8 && t.cause != 11 && (t.cause != 9 || immSource m.src)
    | _ => false

/-- Whether two moves that are enabled together name one destination (R24): both always, or under one guard. -/
def staticConflict (ms : List (BitVec 4 × Live)) : Bool :=
  ms.any fun e => (conflictSlot View.reset 64 ((ms.filter fun f => f.1 == e.1 || f.1 == 0).map Prod.snd)).isSome

/-- Whether a bundle may stand in a text (R261). -/
def bundleFits (items : List Item) : Bool :=
  let ms := textMoves 0 items
  ms.all (fun e => !staticCause items e.2) && !staticConflict ms

/-- The value of an immediate source of a bundle. -/
def immValue (items : List Item) (m : Live) : Option Word :=
  if immSource m.src then
    match readSrc probe ⟨0, 0⟩ items m.slot m.src with
    | .ok (v, _) => some v.toWord
    | .error _ => none
  else none

/-- The triggers of a bundle: the guard, the move, the unit and the operation. -/
def triggersOf (items : List Item) : List (BitVec 4 × Live × UnitId × Op) :=
  (textMoves 0 items).filterMap fun e =>
    match e.2.dst with
    | .trig u op => some (e.1, e.2, u, op)
    | _ => none

/-- Whether a bundle triggers an operation of a set. -/
def hasOp (items : List Item) (p : Op → Bool) : Bool := (triggersOf items).any fun t => p t.2.2.2

/-- Whether a bundle is a safe-point marker that no guard disables (R118). -/
def isMarker (items : List Item) : Bool := (triggersOf items).any fun t => t.1 == 0 && t.2.2.2 == Op.safe

/-- Whether a bundle holds a br trigger other than the marker's. -/
def hasBranch (items : List Item) : Bool := (triggersOf items).any fun t => t.2.2.1 == UnitId.br && t.2.2.2 != Op.safe

/-- The operations that only a bundle directly after a marker may hold (R227). -/
def isGated : Op → Bool
  | .qget | .rget | .bwait => true
  | _ => false

/-- The long-latency operations of the memory path (R252). -/
def isMemoryLong : Op → Bool
  | .ld8 | .ld16 | .ld32 | .ld64 | .ldn8 | .ldn16 | .ldn32 | .ldc | .ldacq32 | .ldacq64 | .vld | .vldx | .gath => true
  | .atadd32 | .atadd64 | .atand | .ator | .atxor | .atmax | .atmin | .atswp | .cas64 | .cas128 => true
  | _ => false

/-- Whether an operation can block on a tile, an engine queue, a frame slot or, as a release, a bank (R257). SCFG, TSTAT and FSTAT never block
(R150, R173, R175), and TWR has nothing to wait for (R210); a CRW of a BANKFMT is looked for by `Paths.bankWrites` (R296), a TSET that
sets a state by `Paths.stateSets` (R151). -/
def mayWait : Op → Bool
  | .copy | .sload | .scomp | .sapply | .scarry | .sread => true
  | .fbind | .fswap | .snap | .fork | .roll | .fdrop => true
  | .tdesc | .mcall | .mwr | .quant | .azero | .aread | .awrite | .anorm | .acvt => true
  | .patch | .sety | .setr | .gety | .getr | .step | .start | .stop | .dsave | .dload | .inject | .cnt => true
  | .brel => true
  | _ => false

/-- The fixed latency of an operation (R84); 1 where it writes no register or is long. -/
def fixedLatency : Op → Nat
  | .mul | .mulh | .mulhn => 3
  | .fadd | .fsub | .fmul | .fma | .fms | .fnma | .fade | .fademul | .fadefma => 4
  | .fmin | .fmax | .fabs | .fneg | .fcmpeq | .fcmplt | .fcmple => 2
  | .fcadd | .radd | .rmax | .rmin => 5
  | .imul | .cvtfi | .cvtfiz | .cvtif | .cvtfb | .cvtbf => 3
  | .iadd | .isub | .iand | .ior | .ixor | .ishl | .ishr | .isar | .imin | .imax | .iminn | .imaxn => 2
  | .icmpeq | .icmplt | .icmpltn | .vsel | .vperm | .vrot => 2
  | .xchg | .exp2 | .log2 => 6
  | .rcp | .rsqrt => 4
  | .rcpstep | .rsqstep | .csort | .cmerge => 8
  | .softplus | .sigmoid | .silu => 10
  | .cthr | .cread | .qput | .rput | .launch | .btest => 2
  | _ => 1

/-! ### Paths (R36, R110, R253) -/

/-- What the checks of a text start from: its bytes, its load address, its symbols of KIND 1 to 4 with their kinds, and the bytes of the live
section. -/
structure TextCheck where
  text : List Byte
  base : Nat
  symbols : List (Nat × Nat)
  live : List Byte

/-- A point of a path: the bundle that issues next, the delay bundles that are left of a taken branch, its target where the text
decides it, and, on a path that is followed through its calls, the link addresses of the calls that it stands in. -/
structure Point where
  off : Nat
  left : Nat
  target : Option Nat
  links : List Nat
  deriving DecidableEq, Repr

/-- A point with no branch pending. -/
def Point.at (off : Nat) : Point := ⟨off, 0, none, []⟩

/-- A loop body (R112): its first and last bundle and its passes. -/
structure Body where
  first : Nat
  last : Nat
  passes : Nat
  deriving DecidableEq, Repr

/-- The first marker behind a bundle, within the bundles of a loop body: it ends the body where a register holds the loop word (R116, R258). -/
def TextCheck.markedEnd (c : TextCheck) (off : Nat) : Option Nat :=
  ((List.range 64).map fun i => off + 24 * (i + 1)).find? fun o => isMarker ((textItems c.text o).getD [])

/-- The loop bodies that the MARK triggers of a bundle start: from an immediate loop word, or up to the marker that is to end the body, whose
passes are then segments of their own (R258). -/
def TextCheck.bodiesOf (c : TextCheck) (off : Nat) (items : List Item) : List Body :=
  (triggersOf items).filterMap fun t =>
    if t.2.2.2 = .mark then
      match immValue items t.2.1 with
      | some w => some ⟨off + 24, off + 24 * (bits w 5 0 + 1), bits w 48 25⟩
      | none => (c.markedEnd off).map fun e => ⟨off + 24, e, 1⟩
    else none

/-- A transfer of a bundle (R110): its guard, whether it is taken wherever its guard enables it, the bundles that it may go to, whether it is
a call, and whether it returns through a register. -/
structure Transfer where
  guard : BitVec 4
  always : Bool
  targets : List Nat
  call : Bool
  ret : Bool
  deriving DecidableEq, Repr

/-- The offset of an address of the text. -/
def TextCheck.offsetOf (c : TextCheck) (a : Int) : List Nat :=
  if a < Int.ofNat c.base then [] else [(a - Int.ofNat c.base).toNat]

/-- The bundles that a transfer through a register is required to go to: the symbols of kind function and indirect target (R260). -/
def TextCheck.indirect (c : TextCheck) : List Nat := (c.symbols.filter fun e => e.2 == 2 || e.2 == 3).map Prod.fst

/-- The transfers of a bundle (R110, R260). -/
def TextCheck.transfersOf (c : TextCheck) (off : Nat) (items : List Item) : List Transfer :=
  (triggersOf items).filterMap fun t =>
    let x := immValue items t.2.1
    let rel : List Nat := match x with | some w => if Int.ofNat off + w.toInt < 0 then [] else [(Int.ofNat off + w.toInt).toNat] | none => []
    let abs : List Nat := match x with | some w => c.offsetOf (Int.ofNat w.toNat) | none => c.indirect
    match t.2.2.2 with
    | .jmp => some ⟨t.1, true, rel, false, false⟩
    | .bmz | .bmnz => some ⟨t.1, false, rel, false, false⟩
    | .call => some ⟨t.1, true, rel, true, false⟩
    | .jmpa => some ⟨t.1, true, abs, false, false⟩
    | .calla => some ⟨t.1, true, abs, true, false⟩
    | .ret => some ⟨t.1, true, if x.isSome then abs else [], false, x.isNone⟩
    | _ => none

/-- The guards under which a path does not go on with the bundle that follows: those of the transfers that are taken wherever their guards
enable them, and of HALT and RTE, which end the path (R110, R248, R249). -/
def leaveGuards (items : List Item) (ts : List Transfer) : List (BitVec 4) :=
  (ts.filter Transfer.always).map Transfer.guard ++
    ((triggersOf items).filter fun t => t.2.2.2 == Op.halt || t.2.2.2 == Op.rte).map Prod.fst

/-- Whether a path leaves whatever the predicates hold: under a guard that disables nothing, or under two complementary guards. -/
def neverFalls (gs : List (BitVec 4)) : Bool := gs.any fun g => g == 0 || gs.contains (g ^^^ 8)

/-- How the paths of a text are followed: the loop bodies whose passes they follow (R115), the link addresses that a return through a register
may go to (R260), and whether a path keeps the calls that it stands in, so that a return goes back to its own. -/
structure Paths where
  check : TextCheck
  bodies : List Body
  links : List Nat
  deep : Bool

/-- The items at a point; none beyond the text. -/
def Paths.items (w : Paths) (p : Point) : List Item := (textItems w.check.text p.off).getD []

/-- The points after a point whose bundle takes a transfer. -/
def Paths.taken (w : Paths) (p : Point) (t : Transfer) : List Point :=
  let goals := if t.ret then (match p.links with | l :: _ => [l] | [] => w.links) else t.targets
  let links := if t.call && w.deep then (p.off + 72) :: p.links else if t.ret then p.links.tail else p.links
  if goals.isEmpty then [⟨p.off + 24, 2, none, links⟩] else goals.map fun g => ⟨p.off + 24, 2, some g, links⟩

/-- The points after one. A transfer whose target no immediate and no symbol gives ends its path after its delay bundles. -/
def Paths.next (w : Paths) (p : Point) : List Point :=
  match textItems w.check.text p.off with
  | none => []
  | some items =>
    if p.left = 2 then [{ p with off := p.off + 24, left := 1 }]
    else if p.left = 1 then (p.target.map fun t => ⟨t, 0, none, p.links⟩).toList
    else
      let again := (w.bodies.filter fun b => b.last == p.off).map fun b => (⟨b.first, 0, none, p.links⟩ : Point)
      let ts := w.check.transfersOf p.off items
      let taken := ts.flatMap (w.taken p)
      if neverFalls (leaveGuards items ts) then taken else { p with off := p.off + 24 } :: taken ++ again

/-- A list and the members of another that it lacks. -/
def joinNew {α : Type} [BEq α] (xs ys : List α) : List α := ys.foldl (fun acc y => if acc.contains y then acc else acc ++ [y]) xs

/-- The points that some points reach in at most a number of steps, where those of a kind are not passed. -/
def Paths.reach (w : Paths) (stop : Point → Bool) : Nat → List Point → List Point
  | 0, ps => ps
  | n + 1, ps =>
    let qs := joinNew ps ((ps.filter fun p => !stop p).flatMap w.next)
    if qs.length = ps.length then ps else w.reach stop n qs

/-- The steps within which every point of a text without kept calls is reached. -/
def TextCheck.size (c : TextCheck) : Nat := 3 * c.text.length + 3

/-- The link addresses of the calls of some points. -/
def TextCheck.linksOf (c : TextCheck) (ps : List Point) : List Nat :=
  (ps.filter fun p => (c.transfersOf p.off ((textItems c.text p.off).getD [])).any Transfer.call).map fun p => p.off + 72

/-- The link addresses and the targets of the calls of some points. -/
def TextCheck.callRoots (c : TextCheck) (ps : List Point) : List Nat :=
  c.linksOf ps ++ ps.flatMap fun p =>
    ((c.transfersOf p.off ((textItems c.text p.off).getD [])).filter Transfer.call).flatMap Transfer.targets

/-- The points that a set of roots reaches, calls included. -/
def TextCheck.close (c : TextCheck) : Nat → List Point → List Point
  | 0, ps => ps
  | n + 1, ps =>
    let qs := (⟨c, [], [], false⟩ : Paths).reach (fun _ => false) c.size ps
    let rs := joinNew qs ((c.callRoots qs).map Point.at)
    if rs.length = qs.length then qs else c.close n rs

/-- The points that an entry or symbol of a text reaches. -/
def TextCheck.points (c : TextCheck) : List Point :=
  c.close c.text.length (c.symbols.map fun e => Point.at e.1)

/-- The items at a point; none beyond the text. -/
def TextCheck.items (c : TextCheck) (p : Point) : List Item := (textItems c.text p.off).getD []

/-- The loop bodies that a text starts. -/
def TextCheck.bodies (c : TextCheck) : List Body := (c.points.flatMap fun p => c.bodiesOf p.off (c.items p)).eraseDups

/-- The paths of a text: through calls and returns, keeping the calls or not. -/
def TextCheck.walk (c : TextCheck) (deep : Bool) : Paths := ⟨c, c.bodies, (c.linksOf c.points).eraseDups, deep⟩

/-! ### Live-state lists (R119) -/

/-- What an entry names: registers by kind and number, port states by 16 + unit and port; none where the entry is refused. -/
def liveNames (w : Nat) : Option (List (Nat × Nat)) :=
  let kind := w % 16
  let regs (size : Nat) : Option (List (Nat × Nat)) :=
    let first := w / 16 % 128
    let n := w / 2048 % 128 + 1
    if w ≥ 2 ^ 18 ∨ first + n > size then none else some ((List.range n).map fun i => (kind, first + i))
  if kind = 1 then regs 64
  else if kind = 2 then regs 32
  else if kind = 3 then regs 64
  else if kind = 4 then regs 8
  else if kind = 5 then
    let ports := (List.range 5).filter fun i => w / 2 ^ (9 + i) % 2 == 1
    match unitOfNum (w / 16 % 32) with
    | none => none
    | some u =>
      let has (i : Nat) : Bool := if i < 3 then (unitLatch u.kind (i + 1)).isSome else if i = 3 then unitHasSel u.kind else true
      if w ≥ 2 ^ 14 ∨ !ports.all has then none else some (ports.map fun i => (16 + w / 16 % 32, i))
  else none

/-- Whether words are a list that the loader accepts: at most 32 entries, an end, and nothing named twice. DESIGN CHOICE (log 31), where R119
gives the bits [17:4] of an end entry no meaning: they are 0. -/
def liveListFits : Nat → List (Nat × Nat) → List Byte → Bool
  | 0, _, _ => false
  | n + 1, named, bs =>
    if bs.length < 4 then false
    else
      let w := leNat (bs.take 4)
      if w % 16 = 0 then w == 0
      else if n = 0 then false
      else
        match liveNames w with
        | none => false
        | some ns => !(ns.any named.contains) && liveListFits n (named ++ ns) (bs.drop 4)

/-- Whether the markers of a bundle name lists that the loader accepts (R118). -/
def TextCheck.listsFit (c : TextCheck) (items : List Item) : Bool :=
  (triggersOf items).all fun t =>
    if t.2.2.2 = .safe then
      match immValue items t.2.1 with
      | some w => decide (w.toNat < 2 ^ 32) && w.toNat % 4 == 0 && liveListFits 33 [] (c.live.drop w.toNat)
      | none => true
    else true

/-! ### Where markers stand (R43, R116, R227, R260) -/

/-- Whether a marker stands within some bundles on some path from a point, itself included; for a write with S = 1 the paths end with the
resolution of a taken branch, which kills what has not landed (R37). -/
def Paths.markerWithin (w : Paths) (killed : Bool) : Nat → List Point → Bool
  | 0, _ => false
  | n + 1, ps =>
    (ps.any fun p => hasOp (w.items p) fun op => op == Op.safe) ||
      w.markerWithin killed n (joinNew [] ((ps.filter fun p => !(killed && p.left == 1)).flatMap w.next))

/-- Whether no write with a fixed latency crosses the end of a marker, into a callee and back to a link address too, and no marker stands in
a delay bundle (R43). -/
def TextCheck.markersFit (c : TextCheck) : Bool :=
  let w := c.walk false
  c.points.all fun p =>
    let items := c.items p
    !(p.left != 0 && hasOp items fun op => op == Op.safe) &&
      (triggersOf items).all fun t =>
        !w.markerWithin (t.2.1.s && !(opSem t.2.2.2).plainS) (fixedLatency t.2.2.2 - 1) [p]

/-- Whether QGET, RGET and BWAIT follow a marker directly on every path (R227): none stands where an entry, a call or a return goes. -/
def TextCheck.gatesFit (c : TextCheck) : Bool :=
  let ps := c.points
  let w := c.walk false
  ps.all fun p =>
    !hasOp (c.items p) isGated ||
      (p.left == 0 && !(c.symbols.any fun e => e.1 == p.off) && !w.links.contains p.off &&
        !(w.bodies.any fun b => decide (b.first ≤ p.off ∧ p.off ≤ b.last)) &&
        (ps.all fun q => !((w.next q).any fun r => r.off == p.off) || (q.left == 0 && isMarker (c.items q))))

/-- The bundles of a loop body, by offset. -/
def Body.offs (b : Body) : List Nat := (List.range ((b.last - b.first) / 24 + 1)).map fun i => b.first + 24 * i

/-- Whether a loop body fits (R116): inside the text, with no br trigger but a final marker's. -/
def TextCheck.bodyFits (c : TextCheck) (b : Body) : Bool :=
  b.offs.all fun o =>
    match textItems c.text o with
    | none => false
    | some items => !hasBranch items && (o == b.last || !hasOp items fun op => op == Op.safe)

/-- Whether a MARK whose loop word a register holds is followed by a body that ends in a marker (R258). -/
def TextCheck.markedBody (c : TextCheck) (off : Nat) : Bool :=
  match c.markedEnd off with
  | none => false
  | some e => ((List.range 64).map fun i => off + 24 * (i + 1)).all fun o => decide (e < o) || !hasBranch (c.items (Point.at o))

/-- Whether the loop bodies of a text fit (R116, R258). -/
def TextCheck.bodiesFit (c : TextCheck) : Bool :=
  c.bodies.all c.bodyFits &&
    c.points.all fun p =>
      let items := c.items p
      (triggersOf items).all fun t =>
        t.2.2.2 != Op.mark || (immValue items t.2.1).isSome || c.markedBody p.off

/-- Whether functions, indirect targets and link addresses begin with a marker (R260). -/
def TextCheck.callsFit (c : TextCheck) : Bool :=
  (c.indirect ++ c.linksOf c.points).all fun o => isMarker (c.items (Point.at o))

/-! ### Weights (R254 to R258) -/

/-- Whether a body carries no marker of its own, so that its passes count together (R258). -/
def TextCheck.unmarked (c : TextCheck) (b : Body) : Bool := !isMarker (c.items (Point.at b.last))

/-- The points of a walk at which something may stand in a latch that a move of a kind puts there: those that hold such a move, and those
that a path reaches from one with no bundle between, or at its end, that puts something else there. -/
def Paths.holding (w : Paths) (ps : List Point) (puts clears : List Item → Bool) : List Point :=
  let gens := ps.filter fun p => puts (w.items p)
  let met := w.reach (fun p => clears (w.items p)) w.check.size (joinNew [] (gens.flatMap w.next))
  joinNew gens (met.filter fun p => !clears (w.items p))

/-- Whether a source is a register-reference word that may name an s, a or v register. -/
def mayRefer (items : List Item) (m : Live) : Bool :=
  match immValue items m with
  | none => true
  | some x =>
    match regRefOf 64 x with
    | some r => r.file == some .s || r.file == some .a || r.file == some .v
    | none => true

/-- The offsets of the bundles with a trigger of B = 1 that may read an s, a or v register through a latch in reference mode (R255). -/
def Paths.refReads (w : Paths) (ps : List Point) : List Nat :=
  let latches := (ps.flatMap fun p => (textMoves 0 (w.items p)).filterMap fun e =>
    match e.2.dst with | .latchRef u i => some (u, i) | _ => none).eraseDups
  (latches.flatMap fun ui =>
    let puts (items : List Item) : Bool := (textMoves 0 items).any fun e => e.2.dst == .latchRef ui.1 ui.2 && mayRefer items e.2
    let clears (items : List Item) : Bool := (textMoves 0 items).any fun e =>
      e.1 == 0 && (e.2.dst == .latch ui.1 ui.2 || (e.2.dst == .latchRef ui.1 ui.2 && !mayRefer items e.2))
    ((w.holding ps puts clears).filter fun p => (triggersOf (w.items p)).any fun t =>
      t.2.1.b && t.2.2.1 == ui.1 && (opSem t.2.2.2).latches.any fun l => l.1 == ui.2).map Point.off).eraseDups

/-- The offsets of the bundles with a trigger of an operation whose latch o1 may hold a word of a kind: unless what stands there is an
immediate of another kind. -/
def Paths.mayHold (w : Paths) (ps : List Point) (op : Op) (u : UnitId) (kind : Word → Bool) : List Nat :=
  let named (items : List Item) (m : Live) : Bool := match immValue items m with | some x => kind x | none => true
  let steps := ps.any fun p => (textMoves 0 (w.items p)).any fun e => e.2.dst == .latchStep u 1
  let puts (items : List Item) : Bool := (textMoves 0 items).any fun e =>
    e.2.dst == .latchRef u 1 || (e.2.dst == .latch u 1 && named items e.2)
  let clears (items : List Item) : Bool := (textMoves 0 items).any fun e => e.1 == 0 && e.2.dst == .latch u 1 && !named items e.2
  ((if steps then ps else w.holding ps puts clears).filter fun p => hasOp (w.items p) (· == op)).map Point.off |>.eraseDups

/-- The offsets of the bundles with a CRW that may name a BANKFMT, which blocks on a tile (R257, R296). -/
def Paths.bankWrites (w : Paths) (ps : List Point) : List Nat := w.mayHold ps .crw .pd fun x => (bankfmtIndex x.toNat).isSome

/-- The offsets of the bundles with a TSET that may set a state, which names its tile in a role and so can block on it (R151, R257). -/
def Paths.stateSets (w : Paths) (ps : List Point) : List Nat := w.mayHold ps .tset .mx tsetSst

/-- The paths of a text with what its weights look at: the bundles that read registers through reference latches, and those that write a
bank's descriptor or set a tile's state. -/
structure Scale where
  walk : Paths
  refs : List Nat
  tiles : List Nat

/-- The scale of a text. -/
def TextCheck.scale (c : TextCheck) (deep : Bool) : Scale :=
  let w := c.walk false
  ⟨c.walk deep, w.refReads c.points, w.bankWrites c.points ++ w.stateSets c.points⟩

/-- Whether a bundle has a move of B = 1 that reads an s, a or v register, directly or through a latch in reference mode (R255). -/
def Scale.waitsRead (k : Scale) (p : Point) : Bool :=
  k.refs.contains p.off || (textMoves 0 (k.walk.items p)).any fun e =>
    e.2.b && (match e.2.src with
      | .reg .s _ | .reg .a _ | .reg .v _ => true
      | _ => false)

/-- Whether a bundle is a waiting bundle (R257). -/
def Scale.waits (k : Scale) (p : Point) : Bool := k.tiles.contains p.off || hasOp (k.walk.items p) mayWait

/-- The points after a point: a segment ends with a marker, a handler with RTE. -/
def Scale.onward (k : Scale) (cut : Bool) (p : Point) : List Point :=
  if cut && isMarker (k.walk.items p) then [] else k.walk.next p

/-- What the bundles of a segment, or of a handler, weigh from a start: the bundles that a load of it precedes on some path, the bodies whose
passes count together, and the weight of a pass that nothing bounds. -/
structure Segment where
  scale : Scale
  cut : Bool
  after : List Nat
  plain : List Body
  most : Nat

/-- The segment, or the handler, that begins at a point. `loaded`: the marker that it follows holds a load itself, which then precedes every
bundle of the segment (DEDUCED, log 27: the weights of the hash-table program count it). -/
def Scale.segment (k : Scale) (cut : Bool) (most : Nat) (loaded : Bool) (start : Point) : Segment :=
  let w := k.walk
  let seg := w.reach (fun p => cut && isMarker (w.items p)) w.check.size [start]
  let mem := seg.filter fun p => hasOp (w.items p) isMemoryLong
  let after := w.reach (fun p => cut && isMarker (w.items p)) w.check.size (joinNew [] ((if loaded then [start] else []) ++ mem.flatMap (k.onward cut)))
  ⟨k, cut, (after.map Point.off).eraseDups, if cut then w.bodies.filter w.check.unmarked else w.bodies, most⟩

/-- The weight of a bundle (R255), as often as the loop bodies without a marker that it stands in, and all those of a handler, are passed (R256,
R258); a handler's loop whose passes a register gives has no bound. `marked`: a marker directly precedes it. -/
def Segment.weight (g : Segment) (marked : Bool) (p : Point) : Nat :=
  let items := g.scale.walk.items p
  let open_ := !g.cut && (triggersOf items).any fun t => t.2.2.2 == Op.mark && (immValue items t.2.1).isNone
  let w := if (g.after.contains p.off && g.scale.waitsRead p) || (g.scale.waits p && !marked) then 1400 else 1
  let n := (g.plain.filter fun b => decide (b.first ≤ p.off ∧ p.off ≤ b.last)).foldl (fun n b => n * max 1 b.passes) 1
  if open_ then g.most + 1 else w * n

/-- One more round of the longest weights from a start: each point with the largest weight of a path up to and with it. -/
def Segment.relax (g : Segment) (ds : List (Point × Nat)) : List (Point × Nat) :=
  let k := { g.scale with walk := { g.scale.walk with bodies := [] } }
  ds.foldl (fun acc e =>
    (k.onward g.cut e.1).foldl (fun acc q =>
      let d := e.2 + g.weight (e.1.left == 0 && isMarker (k.walk.items e.1)) q
      if acc.any fun f => f.1 == q then acc.map fun f => if f.1 = q then (q, max f.2 d) else f else acc ++ [(q, d)]) acc) ds

/-- The longest weights from a start, until they stand or one is above the bound. -/
def Segment.settle (g : Segment) : Nat → List (Point × Nat) → List (Point × Nat)
  | 0, ds => ds
  | n + 1, ds =>
    if ds.any fun e => decide (e.2 > g.most) then ds
    else
      let es := g.relax ds
      if es = ds then ds else g.settle n es

/-- The weight of the heaviest path from a point up to its end, as far as it is within a bound; a cycle that nothing cuts weighs more
(R254 to R256, R258). `before`: the marker that directly precedes the point. -/
def Scale.heaviest (k : Scale) (cut : Bool) (most : Nat) (before : Option Point) (start : Point) : Nat :=
  let g := k.segment cut most (match before with | some m => hasOp (k.walk.items m) isMemoryLong | none => false) start
  ((g.settle (most + 1) [(start, g.weight before.isSome start)]).map Prod.snd).foldl max 0

/-- Whether every segment and every handler of a text weighs little enough (R254, R256). -/
def TextCheck.weightsFit (c : TextCheck) : Bool :=
  let k := c.scale false
  let fits (before : Option Point) (p : Point) : Bool := decide (k.heaviest true 5880 before p ≤ 5880)
  (c.symbols.all fun e => e.2 == 4 || fits none (Point.at e.1)) && (c.callRoots c.points).all (fun o => fits none (Point.at o)) &&
    (c.points.all fun m => !isMarker (c.items m) || (k.walk.next m).all (fits (some m))) &&
    c.symbols.all fun e => e.2 != 4 || decide ((c.scale true).heaviest false 1400 none (Point.at e.1) ≤ 1400)

/-- The checks of R261 that concern the text and the live section. A path that runs past the text is no ground of rejection: it takes the fault
of R111 when it issues. -/
def TextCheck.fits (c : TextCheck) : Bool :=
  (c.points.all fun p =>
    match textItems c.text p.off with
    | none => true
    | some items => bundleFits items && c.listsFit items) &&
    c.markersFit && c.gatesFit && c.bodiesFit && c.callsFit && c.weightsFit

end Sys2Proof.Machine
end

