-- ==== Sys2Proof/Machine/Loader.lean ====
section
/-!
DEFINITION. The loader (R94 to R96, R261 to R264, R413 to R415, R418): the format of a BIF image, its signature, its rebinding records, its
placement, its data and its micro records; the removal of an image; and the firmware slot that it runs in (R413 to R418).
-/

namespace Sys2Proof.Machine

/-! ### The BIF image (R94 to R96) -/

/-- An entry of the section table. -/
structure Section where
  typ : Nat
  flags : Nat
  off : Nat
  size : Nat
  align : Nat
  name : Nat
  deriving DecidableEq, Repr

/-- The entries of the section table. -/
def bifSections (b : List Byte) : List Section :=
  (List.range (fieldOf b 6 2)).map fun i =>
    let o := fieldOf b 24 8 + 32 * i
    ⟨fieldOf b o 4, fieldOf b (o + 4) 4, fieldOf b (o + 8) 8, fieldOf b (o + 16) 8, fieldOf b (o + 24) 4, fieldOf b (o + 28) 4⟩

/-- The bytes of a section in the file; a bss section has none. -/
def Section.bytes (c : Section) (b : List Byte) : List Byte := if c.typ = 4 then [] else (b.drop c.off).take c.size

/-- The bytes of every section of a type, in table order. -/
def bifBytes (b : List Byte) (typ : Nat) : List Byte := ((bifSections b).filter fun c => c.typ == typ).flatMap fun c => c.bytes b

/-- The file ranges of an image: its header, its table and its sections. -/
def bifRanges (b : List Byte) : List (Nat × Nat) :=
  (0, 64) :: (fieldOf b 24 8, 32 * fieldOf b 6 2) ::
    ((bifSections b).filter fun c => c.typ != 4 && c.size != 0).map fun c => (c.off, c.size)

/-- Whether ranges are disjoint. -/
def disjointAll : List (Nat × Nat) → Bool
  | [] => true
  | r :: rs => rs.all (fun q => decide (r.1 + r.2 ≤ q.1 ∨ q.1 + q.2 ≤ r.1)) && disjointAll rs

/-- Whether an offset begins a name of a strings section (R95). -/
def beginsName (strings : List Byte) (k : Nat) : Bool :=
  decide (k < strings.length) && (k == 0 || strings.getD (k - 1) 1 == 0) && (strings.drop k).contains 0

/-- The name at an offset. -/
def nameAt (strings : List Byte) (k : Nat) : List Byte := (strings.drop k).takeWhile fun c => c != 0

/-- A symbol record (R95). -/
structure Symbol where
  name : Nat
  kind : Nat
  sect : Nat
  flags : Nat
  value : Nat
  rest : Nat
  deriving DecidableEq, Repr

/-- Records of a size in a section's bytes. -/
def recordsOf (bs : List Byte) (size : Nat) : List (List Byte) := (List.range (bs.length / size)).map fun i => (bs.drop (size * i)).take size

/-- The symbols of an image. -/
def bifSymbols (b : List Byte) : List Symbol :=
  (recordsOf (bifBytes b 7) 24).map fun r =>
    ⟨fieldOf r 0 4, fieldOf r 4 1, fieldOf r 5 1, fieldOf r 6 2, fieldOf r 8 8, fieldOf r 16 8⟩

/-- The type of the section at an index; 0 where there is none. -/
def sectType (b : List Byte) (i : Nat) : Nat := match (bifSections b)[i]? with | some c => c.typ | none => 0

/-- Whether a symbol record is as R95 requires. -/
def symbolFits (b : List Byte) (y : Symbol) : Bool :=
  decide (y.kind ≤ 6) && decide (y.flags ≤ 1) && y.rest == 0 && beginsName (bifBytes b 11) y.name &&
    (if 1 ≤ y.kind ∧ y.kind ≤ 4 then sectType b y.sect == 1 && y.value % 8 == 0
     else if y.kind = 5 then decide (2 ≤ sectType b y.sect ∧ sectType b y.sect ≤ 4)
     else if y.kind = 6 then y.sect == 0xFF
     else sectType b y.sect != 0)

/-- Whether no name is carried by two exported records (R95). -/
def namesUnique (b : List Byte) : Bool :=
  let ns := ((bifSymbols b).filter fun y => y.flags == 1).map fun y => nameAt (bifBytes b 11) y.name
  ns.eraseDups.length == ns.length

/-- The records of a meta section's bytes: KIND, N, the reserved bytes and VALUE (R96). -/
def metaOf (bs : List Byte) : List (Nat × Nat × Nat × Word) :=
  (recordsOf bs 16).map fun r => (fieldOf r 0 1, fieldOf r 1 1, fieldOf r 2 6, BitVec.ofNat 64 (fieldOf r 8 8))

/-- The records of the meta section of an image. -/
def bifMeta (b : List Byte) : List (Nat × Nat × Nat × Word) := metaOf (bifBytes b 10)

/-- NE of a frame record (R96). -/
def metaNe (v : Word) : Nat := bits v 27 8

/-- Whether a meta record is as R96 requires. -/
def metaFits (m : Nat × Nat × Nat × Word) : Bool :=
  let (kind, n, rest, v) := m
  rest == 0 &&
    (if kind = 1 then decide (n < 32) && bits v 63 44 == 0
     else if kind = 2 then decide (n < 80) && bits v 63 8 == 0
     else if kind = 3 then decide (n < 16) && bits v 63 28 == 0 && metaNe v % 32 == 0 && decide (32 ≤ metaNe v ∧ metaNe v ≤ 262144)
     else false)

/-- Whether the header of an image is as R94 gives it. -/
def headerFits (b : List Byte) : Bool :=
  decide (64 ≤ b.length) && fieldOf b 0 4 == 0x01464942 && fieldOf b 4 2 == 64 && fieldOf b 8 8 % 8 == 0 && fieldOf b 16 8 == 0 &&
    ((b.drop 32).take 32).all (fun x => x == 0) && decide (fieldOf b 24 8 + 32 * fieldOf b 6 2 ≤ b.length)

/-- Whether an entry of the section table is as R94 gives it. DESIGN CHOICE (log 31), where R94 names no ground of rejection: an entry whose
alignment is 0 or whose name offset begins no name is refused too. -/
def sectionFits (b : List Byte) (c : Section) : Bool :=
  decide (1 ≤ c.typ ∧ c.typ ≤ 12) && c.flags == 0 && decide (1 ≤ c.align) && beginsName (bifBytes b 11) c.name &&
    (c.typ == 4 || decide (c.off + c.size ≤ b.length)) && (c.typ != 1 || c.align % 64 == 0)

/-- Whether an image has the format of R94 to R96. DESIGN CHOICE (log 31), where R94 is silent: exactly one section is of type text, sections
of one other type are read one after another in the order of the table, and the header and the table are ranges that no section may
overlap. -/
def formatFits (b : List Byte) : Bool :=
  headerFits b && (bifSections b).all (sectionFits b) && disjointAll (bifRanges b) &&
    (((bifSections b).filter fun c => c.typ == 1).length == 1) &&
    (bifBytes b 11).head? == some 0 && (bifBytes b 7).length % 24 == 0 && (bifSymbols b).all (symbolFits b) && namesUnique b &&
    ((bifSymbols b).any fun y => y.kind == 1 && y.value == fieldOf b 8 8) &&
    (bifBytes b 5).length % 136 == 0 && ((recordsOf (bifBytes b 5) 136).all fun r => decide (fieldOf r 0 8 < 64)) &&
    (bifBytes b 6).length % 16 == 0 && ((recordsOf (bifBytes b 6) 16).all fun r => decide (fieldOf r 0 8 < 4096)) &&
    (bifBytes b 10).length % 16 == 0 && (bifMeta b).all metaFits && (bifBytes b 9).length % 4 == 0

/-! ### Signatures and measurements (R413, R415, R418) -/

/-- The sig sections of an image. -/
def sigSections (b : List Byte) : List Section := (bifSections b).filter fun c => c.typ == 12

/-- The digest of an image: with the bytes of its sig section taken as 0 (R415). -/
def imageDigest (b : List Byte) : BitVec 256 :=
  sha3 ((sigSections b).foldl (fun b c => b.take c.off ++ List.replicate c.size 0 ++ b.drop (c.off + c.size)) b)

/-- Whether the signature of an image verifies for a tenant under the key table of a slot (R415): it has one sig section, of 2,424 bytes. -/
def signatureFits (b : List Byte) (slot : Option Firmware) (tenant : Nat) : Bool :=
  let g := bifBytes b 12
  match slot with
  | none => false
  | some f =>
    match f.keys[fieldOf g 0 2]? with
    | none => false
    | some r =>
      (sigSections b).length == 1 && g.length == 2424 && fieldOf g 2 2 == 0 && r.tenant == tenant &&
        verifies r.key (imageDigest b) ((g.drop 4).take 2420)

/-! ### Rebinding (R262, R263) -/

/-- A reloc record. -/
structure Reloc where
  off : Nat
  sect : Nat
  kind : Nat
  form : Nat
  rest : Nat
  add : Int
  deriving DecidableEq, Repr

/-- The reloc records of an image. -/
def bifRelocs (b : List Byte) : List Reloc :=
  (recordsOf (bifBytes b 8) 16).map fun r =>
    ⟨fieldOf r 0 8, fieldOf r 8 1, fieldOf r 9 1, fieldOf r 10 1, fieldOf r 11 1, (BitVec.ofNat 32 (fieldOf r 12 4)).toInt⟩

/-- The gardens, or the LP6 channel groups, in which a pavilion holds a granule: its memory ports (log 27). -/
def State.memoryPorts (s : State) (pav kind : Nat) : List Nat :=
  (List.range 4).filter fun g => if kind = 5 then s.holdsGranule pav (48 * g) 48 else s.holdsGranule pav (256 + 384 * g) 384

/-- The value of a rebinding record (R263): its base plus its addend; none where the pavilion has no such core or port. -/
def State.rebound (s : State) (pav base kind : Nat) (add : Int) : Option Int :=
  if kind = 1 ∨ kind = 2 then some (Int.ofNat base + add)
  else if add < 0 then none
  else
    let of (n : Option Nat) : Option Int := n.map fun c => Int.ofNat c + add
    if kind = 3 ∨ kind = 4 then of (s.pav pav).cores[add.toNat]?
    else if kind = 5 ∨ kind = 6 then of (s.memoryPorts pav kind)[add.toNat]?
    else none

/-- Bytes with others in their place. -/
def patchBytes (bs : List Byte) (off : Nat) (new : List Byte) : List Byte := bs.take off ++ new ++ bs.drop (off + new.length)

/-- The low 20 bits of a bundle slot replaced; none where it is no immediate slot. -/
def patchSlot (bs : List Byte) (off x : Nat) : Option (List Byte) :=
  let w := fieldOf bs off 3
  if off + 3 ≤ bs.length ∧ w / 2 ^ 20 = 8 then some (patchBytes bs off (leBytes 3 (w / 2 ^ 20 * 2 ^ 20 + x % 2 ^ 20))) else none

/-- A value put into a section by a form (R262); none where it does not fit. -/
def patchForm (bs : List Byte) (off form : Nat) (x : Int) : Option (List Byte) :=
  if form = 0 then
    if off + 8 ≤ bs.length ∧ - (2 ^ 63) ≤ x ∧ x < 2 ^ 64 then some (patchBytes bs off (leBytes 8 (BitVec.ofInt 64 x).toNat)) else none
  else if off % 3 ≠ 0 then none
  else if form = 1 then if - (2 ^ 19) ≤ x ∧ x < 2 ^ 20 then patchSlot bs off (BitVec.ofInt 20 x).toNat else none
  else if form = 2 then
    if off % 24 / 3 % 2 = 0 ∧ - (2 ^ 39) ≤ x ∧ x < 2 ^ 39 then
      let w := (BitVec.ofInt 40 x).toNat
      match patchSlot bs off w with
      | some b1 => patchSlot b1 (off + 3) (w / 2 ^ 20)
      | none => none
    else none
  else none

/-- Whether a reloc record is as R262 gives it: it names a section of the table; only a text section has bundle slots. -/
def relocFits (b : List Byte) (r : Reloc) : Bool :=
  decide (1 ≤ r.kind ∧ r.kind ≤ 6) && decide (r.form ≤ 2) && r.rest == 0 && sectType b r.sect != 0 &&
    (r.form == 0 || sectType b r.sect == 1) && (r.kind != 1 || r.form == 0) && (r.kind != 2 || r.form == 2)

/-- The sections with the reloc records applied, by index; none where one does not fit. -/
def State.relocated (s : State) (pav base : Nat) : List Reloc → Table (List Byte) → Option (Table (List Byte))
  | [], t => some t
  | r :: rs, t =>
    match s.rebound pav base r.kind r.add with
    | none => none
    | some x =>
      match patchForm (t.getD r.sect []) r.off r.form x with
      | some bs => s.relocated pav base rs (t.set r.sect bs)
      | none => none

/-- The sections of an image by index. -/
def bifTable (b : List Byte) : Table (List Byte) := ((List.range (bifSections b).length).zip (bifSections b)).map fun e => (e.1, e.2.bytes b)

/-- The bytes of an image with its sections as they stand once the reloc records have been applied. -/
def bifPatched (b : List Byte) (t : Table (List Byte)) : List Byte :=
  (((List.range (bifSections b).length).zip (bifSections b)).filter fun e => e.2.typ != 4).foldl (fun acc e => patchBytes acc e.2.off (t.getD e.1 [])) b

/-! ### Placement (R264) -/

/-- A multiple of an alignment not below an address. -/
def alignUp (a n : Nat) : Nat := (a + n - 1) / n * n

/-- The images of a pavilion. -/
def State.imagesOf (s : State) (pav : Nat) : List (Nat × Image) := s.images.filter fun e => e.1 / 65536 == pav

/-- The text load address: the lowest multiple of 4,096, but not 0, from which the text meets no other image (log 12). -/
def State.textBase (s : State) (pav size : Nat) : Nat :=
  let ends := (s.imagesOf pav).map fun e => alignUp (e.2.base.toNat + e.2.size) 4096
  let free (b : Nat) : Bool := (s.imagesOf pav).all fun e => decide (b + size ≤ e.2.base.toNat ∨ e.2.base.toNat + e.2.size ≤ b)
  let cands := (4096 :: ends).filter free
  cands.foldl min (ends.foldl max 4096)

/-- The granules that a pavilion holds. -/
def State.granuleCount (s : State) (pav : Nat) : Nat := (s.granules.filter fun g => g.2 == pav).length

/-- The entries of a stage-2 table in memory that are not 0, by index. -/
def State.listedEntries (s : State) (table : Nat) (lv : Level) : List Nat :=
  ((s.mem.filter fun c => decide (table ≤ c.1 ∧ c.1 < table + 8 * 2 ^ (lv.hi + 1 - lv.lo))).map fun c => (c.1 - table) / 8).eraseDups

/-- The pages that a stage-2 table maps, as physical address and size (R361, R362). -/
def State.mappedPages (s : State) : List Level → Nat → List (Nat × Nat)
  | [], _ => []
  | lv :: rest, table =>
    (s.listedEntries table lv).flatMap fun i =>
      let e : Word := BitVec.ofNat 64 (s.mem.nat (table + 8 * i) 8)
      if !bit e 0 then []
      else if bit e 1 then [(bits e 47 8 * 256, 2 ^ lv.lo)]
      else s.mappedPages rest (bits e 47 8 * 256)

/-- The bytes of a pavilion's granules that stage 2 maps, each once: a page is inside another or apart from it. -/
def State.mappedBytes (s : State) (pav : Nat) : Nat :=
  let ps := (s.mappedPages levels1 (bits (s.pav pav).s2root 47 12 * 4096)).eraseDups.filter fun p => s.granules.find? (p.1 / 2 ^ 30) == some pav
  ((ps.filter fun p => !ps.any fun q => decide (q.2 > p.2 ∧ q.1 ≤ p.1 ∧ p.1 < q.1 + q.2)).map Prod.snd).sum

/-- Whether the texts of a pavilion, with one more, fit its granules outside every stage-2 mapping (R264). -/
def State.textRoom (s : State) (pav size : Nat) : Bool :=
  decide (((s.imagesOf pav).map fun e => e.2.size).sum + size + s.mappedBytes pav ≤ s.granuleCount pav * 2 ^ 30)

/-- The lowest free handle. -/
def State.freeHandle (s : State) (pav : Nat) : Option Nat :=
  (List.range 65535).map (· + 1) |>.find? fun h => (s.images.find? (65536 * pav + h)).isNone

/-- The addresses of the data sections (R264 step 5): rodata, data and bss, each at its alignment, by index. -/
def dataPlaces (b : List Byte) (start : Nat) : Table Nat :=
  let cs := (List.range (bifSections b).length).zip (bifSections b)
  let order := [2, 3, 4].flatMap fun t => cs.filter fun e => e.2.typ == t
  (order.foldl (fun (acc : Table Nat × Nat) e =>
    let at_ := alignUp acc.2 e.2.align
    (acc.1.set e.1 at_, at_ + e.2.size)) (([] : Table Nat), start)).1

/-- The writes of the data sections, as address and bytes. -/
def dataWrites (b : List Byte) (start : Nat) (t : Table (List Byte)) : List (Nat × List Byte) :=
  (dataPlaces b start).map fun e =>
    match (bifSections b)[e.1]? with
    | some c => (e.2, if c.typ = 4 then List.replicate c.size 0 else t.getD e.1 [])
    | none => (e.2, [])

/-- The stores of the loader through the translation of a device (R264 step 5), all or none. -/
def State.loaderWrites (s : State) (pav vd : Nat) : List (Nat × List Byte) → Option State
  | [] => some s
  | (va, bs) :: rest =>
    match s.range (windowOf pav vd) va bs.length true with
    | .error _ => none
    | .ok ps => ((s.windowRequests pav vd ps).hostWriteRange ps bs).loaderWrites pav vd rest

/-! ### The checks of R261 and of the micro section -/

/-- The micro records of a micro section's bytes. -/
def microOf (bs : List Byte) : List (Nat × Word) := (recordsOf bs 16).map fun r => (fieldOf r 0 8, BitVec.ofNat 64 (fieldOf r 8 8))

/-- The micro records of an image: address and word. -/
def bifMicro (b : List Byte) : List (Nat × Word) := microOf (bifBytes b 6)

/-- A core's store with micro records written in order, if each passes (R158, R159, R264). -/
def Core.writeMicro (k : Core) : List (Nat × Word) → Option Core
  | [] => some k
  | (n, x) :: rest =>
    if lockedWord n ∨ (n < 64 ∧ (dirLock x ∨ (dirValid x ∧ !k.validEntry x))) then none else (k.writeStore n x).writeMicro rest

/-- Whether the micro section of an image passes (R264 step 4). -/
def State.microFits (s : State) (pav vd : Nat) (b : List Byte) : Bool :=
  let ms := bifMicro b
  let rows := match (s.pav pav).slot with | some f => f.keys | none => []
  ms.isEmpty ||
    ((rows.any fun r => r.mwr && r.tenant == (s.dev pav vd).tenant) &&
      ms.all (fun m => (s.imagesOf pav).all fun e => e.2.micro.all fun o => o.1 != m.1 || o.2 == m.2) &&
      (s.pav pav).cores.all fun c => ((s.core c).writeMicro ms).isSome)

/-- The scratchpad banks of the smallest core of a pavilion. -/
def State.smallestPad (s : State) (pav : Nat) : List Nat :=
  let pads := (s.pav pav).cores.map fun c => (List.range 80).filter (s.core c).scratch
  match pads with
  | [] => []
  | p :: ps => ps.foldl (fun a q => if q.length < a.length then q else a) p

/-- Whether the meta records of an image fit the partition of the pavilion's smallest core (R96, R261). -/
def State.metaFitsPad (s : State) (pav : Nat) (b : List Byte) : Bool :=
  let pad := s.smallestPad pav
  let frames := ((bifMeta b).filter fun m => m.1 == 3).map fun m => (frameBytes (metaNe m.2.2.2) + 65535) / 65536
  decide (frames.sum ≤ pad.length) &&
    (bifMeta b).all fun m =>
      if m.1 = 1 then !badDesc m.2.2.2 && (spanned m.2.2.2).all pad.contains
      else if m.1 = 2 then !badFmt (m.2.2.2.setWidth 8) && pad.contains m.2.1
      else true

/-- What the checks of a text look at in an image. -/
def textCheckOf (b text : List Byte) (base : Nat) : TextCheck :=
  ⟨text, base, ((bifSymbols b).filter fun y => decide (1 ≤ y.kind ∧ y.kind ≤ 4)).map fun y => (y.value, y.kind), bifBytes b 9⟩

/-! ### The load (R264) -/

/-- LEN, VD, HANDLE and OP of IMGCTL. -/
def imgLen (w : Word) : Nat := bits w 63 32
/-- VD of IMGCTL. -/
def imgVd (w : Word) : Nat := bits w 8 2
/-- HANDLE of IMGCTL. -/
def imgHandle (w : Word) : Nat := bits w 31 16

/-- A command of the loader ends with a result and, for a load that is done, a handle. -/
def State.endImage (s : State) (pav result : Nat) (handle : Option Nat) : State :=
  let p := s.pav pav
  let w := setBits 0x1E01 p.imgctl (BitVec.ofNat 64 (result * 2 ^ 9))
  s.setPav pav { p with imgctl := match handle with | some h => setBits 0xFFFF0000 w (BitVec.ofNat 64 (h * 2 ^ 16)) | none => w }

/-- Whether a command of the operator block is in progress for a pavilion among some operations (R264, R417). -/
def State.commandFor (s : State) (pav : Nat) (ops : List Nat) : Bool :=
  bit s.oper.pcmd 15 && ops.contains (bits s.oper.pcmd 2 0) && bits s.oper.pcmd 6 3 == pav

/-- An image with the records that the bytes of its sections hold (R96). -/
def Image.readTables (i : Image) : Image :=
  let ms := metaOf (i.tables.getD 10 [])
  { i with
    templates := (recordsOf (i.tables.getD 5 []) 136).map fun r => (fieldOf r 0 8, r.drop 8)
    tiles := (ms.filter fun m => m.1 == 1).map fun m => (m.2.1, m.2.2.2)
    banks := (ms.filter fun m => m.1 == 2).map fun m => (m.2.1, m.2.2.2.setWidth 8)
    micro := microOf (i.tables.getD 6 [])
    live := i.tables.getD 9 [] }

/-- Where a section's bytes begin among those of its type. -/
def sectStart (b : List Byte) (i : Nat) : Nat :=
  ((((bifSections b).take i).filter fun c => c.typ == sectType b i).map Section.size).sum

/-- The image that a load makes of bytes to which the reloc records have been applied. -/
def bifImage (b : List Byte) (pav vd tenant base start : Nat) : Image :=
  let text := bifBytes b 1
  Image.readTables {
    pav := pav, vd := vd, tenant := tenant, base := BitVec.ofNat 64 base, size := text.length, text := Memory.setBytes [] 0 text
    entries := ((bifSymbols b).filter fun y => y.kind == 1).map Symbol.value
    templates := [], tiles := [], banks := [], micro := [], live := []
    rebinds := ((bifRelocs b).filter fun r => decide (3 ≤ r.kind)).map fun r =>
      let typ := sectType b r.sect
      ⟨typ, (if typ = 2 ∨ typ = 3 then (dataPlaces b start).getD r.sect 0 else sectStart b r.sect) + r.off, r.kind, r.form, r.add⟩
    tables := [5, 6, 9, 10].map fun typ => (typ, bifBytes b typ) }

/-- The micro records of an image written into the store of every core of a pavilion (R264 step 6). -/
def State.spreadMicro (s : State) (pav : Nat) (ms : List (Nat × Word)) : State :=
  (s.pav pav).cores.foldl (fun s c => s.setCore c (((s.core c).writeMicro ms).getD (s.core c))) s

/-- Whether a call of a routine that the micro records of an image change is queued or runs: MWR waits for it (R159). -/
def State.microWaits (s : State) (pav : Nat) (ms : List (Nat × Word)) : Bool :=
  (s.pav pav).cores.any fun c => ms.any fun m => (s.core c).callUses m.1

/-- The memory of the host holds some bytes at an address: what a lodge then reads there (R264, R416, R419). -/
def State.hostHolds (s : State) (a : Nat) (bs : List Byte) : State := { s with host := s.host.setBytes a bs }

/-- The host bus address of the image (R264). -/
def Pav.imageBuffer (p : Pav) : Nat := 4096 * bits p.imgaddr 63 12

/-- The load of an image, of the bytes that the host holds at IMGADDR (R264): it stops at the first step that fails. -/
def State.loadBytes (s : State) (pav : Nat) (b : List Byte) : State :=
  let p := s.pav pav
  let w := p.imgctl
  let vd := imgVd w
  let tenant := (s.dev pav vd).tenant
  let start := 65536 * bits p.imgdata 56 16
  if s.commandFor pav [1, 2, 4] then s.endImage pav 5 none
  else if !(s.dev pav vd).enabled then s.endImage pav 8 none
  else if !formatFits b then s.endImage pav 1 none
  else if !signatureFits b p.slot tenant then s.endImage pav 2 none
  else
    let textSize := (bifBytes b 1).length
    let base := s.textBase pav textSize
    match s.freeHandle pav, s.textRoom pav textSize with
    | some h, true =>
      match (if (bifBytes b 8).length % 16 = 0 ∧ (bifRelocs b).all (relocFits b) then s.relocated pav base (bifRelocs b) (bifTable b)
             else none) with
      | none => s.endImage pav 3 none
      | some t =>
        let c := bifPatched b t
        let i := bifImage c pav vd tenant base start
        if !(textCheckOf c (bifBytes c 1) base).fits || !s.metaFitsPad pav c || !s.microFits pav vd c then s.endImage pav 3 none
        else if s.microWaits pav i.micro then s
        else
          match s.loaderWrites pav vd (dataWrites b start t) with
          | none => s.endImage pav 7 none
          | some s1 =>
            let s2 := s1.spreadMicro pav i.micro
            let q := s2.pav pav
            let s3 := s2.setPav pav { q with m2 := sha3 (digestBytes q.m2 ++ digestBytes (imageDigest b)) }
            ({ s3 with images := s3.images.set (65536 * pav + h) i } : State).endImage pav 0 (some h)
    | _, _ => s.endImage pav 4 none

/-- The load of the LEN bytes that the host holds at IMGADDR. -/
def State.loadImage (s : State) (pav : Nat) (b : List Byte) : State :=
  let p := s.pav pav
  if !bit p.imgctl 0 || bit p.imgctl 1 || b.length != imgLen p.imgctl then s else (s.hostHolds p.imageBuffer b).loadBytes pav b

/-! ### The unload (R264) -/

/-- Whether a launch, a task, a gang or a graph of a pavilion names a handle. -/
def State.handleUsed (s : State) (pav h : Nat) : Bool :=
  let p := s.pav pav
  (p.devs.any fun d => d.2.launches.any fun e => match e.record with | some r => recImage r == h | none => false) ||
    p.cores.any fun c =>
      ((s.core c).table.any fun t => recImage t.record == h) ||
        (match (s.core c).walker with
          | some w => w.nodes.any fun n => nodeKind n.1 == 0 && recImage (nodeRecord n.1 0) == h
          | none => false)

/-- The directory entries that only one image wrote leave the store of a core. -/
def Core.dropEntries (k : Core) (ns : List Nat) : Core := { k with store := k.store.filter fun e => !ns.contains e.1 }

/-- Whether the record of some launch of a pavilion has still to be read: what it names is not known yet (R228, log 27). -/
def State.launchUnread (s : State) (pav : Nat) : Bool := (s.pav pav).devs.any fun d => d.2.launches.any fun e => e.record.isNone

/-- An image is removed: its text, its handle and the directory entries that only it wrote; its data stay. -/
def State.unloadImage (s : State) (pav : Nat) : State :=
  let p := s.pav pav
  let w := p.imgctl
  let h := imgHandle w
  if !bit w 0 || !bit w 1 then s
  else if s.commandFor pav [1, 2, 4] then s.endImage pav 5 none
  else if s.launchUnread pav then s
  else if s.handleUsed pav h then s.endImage pav 6 none
  else
    match s.images.find? (65536 * pav + h) with
    | none => s.endImage pav 0 none
    | some i =>
      let s1 : State := { s with images := s.images.erase (65536 * pav + h) }
      let ns := (i.micro.map Prod.fst).filter fun n => decide (n < 64) && (s1.imagesOf pav).all fun e => e.2.micro.all fun o => o.1 != n
      let s2 := p.cores.foldl (fun s c => s.setCore c ((s.core c).dropEntries ns)) s1
      s2.endImage pav 0 none

/-! ### The rebinding of resident images (R263, R358) -/

/-- One rebinding record of an image applied again; an item that no longer fits stays. -/
def State.rebind (s : State) (key : Nat) (r : Rebind) : State :=
  match s.images.find? key with
  | none => s
  | some i =>
    match s.rebound i.pav i.base.toNat r.kind r.add with
    | none => s
    | some x =>
      if r.sect = 1 then
        match patchForm (i.text.bytes 0 i.size) r.place r.form x with
        | some bs => { s with images := s.images.set key { i with text := Memory.setBytes [] 0 bs } }
        | none => s
      else if r.sect = 2 ∨ r.sect = 3 then (s.loaderWrites i.pav i.vd [(r.place, leBytes 8 (BitVec.ofInt 64 x).toNat)]).getD s
      else
        match patchForm (i.tables.getD r.sect []) r.place r.form x with
        | some bs => { s with images := s.images.set key ({ i with tables := i.tables.set r.sect bs } : Image).readTables }
        | none => s

/-- The rebinding records of every resident image of a pavilion applied again. -/
def State.rebindAll (s : State) (pav : Nat) : State :=
  (s.imagesOf pav).foldl (fun s e => e.2.rebinds.foldl (fun s r => s.rebind e.1 r) s) s

/-! ### Steps -/

/-- IMAGE_LOAD (R264). -/
def execImageLoad (pav : Nat) (bytes : List Byte) (s : State) : Host.Outcome State Fault Refusal := .next (s.loadImage pav bytes)
/-- IMAGE_UNLOAD (R264). -/
def execImageUnload (pav : Nat) (s : State) : Host.Outcome State Fault Refusal := .next (s.unloadImage pav)

end Sys2Proof.Machine
end

