-- ==== Sys2Proof/Machine/Lodge.lean ====
section
/-!
DEFINITION. The firmware slot of a pavilion (R413, R414, R416 to R418) and attestation (R418, R419).
-/

namespace Sys2Proof.Machine

/-! ### Firmware images (R413, R414) -/

/-- BLEN of a firmware image. -/
def fwBody (b : List Byte) : Nat := fieldOf b 8 8
/-- SVN of a firmware image. -/
def fwSvn (b : List Byte) : Nat := fieldOf b 4 4
/-- SIGNER of a firmware image. -/
def fwSigner (b : List Byte) : Nat := fieldOf b (64 + fwBody b) 2
/-- NKEY of a firmware image. -/
def fwKeys (b : List Byte) : Nat := fieldOf b 64 4

/-- An entry of the key table. -/
def fwRow (b : List Byte) (k : Nat) : KeyRow :=
  let o := 64 + 64 + 1344 * k
  ⟨fieldOf b o 1, fieldOf b (o + 1) 1 % 2 == 1, (b.drop (o + 32)).take 1312⟩

/-- Whether a firmware image has the format of R413 and R414. -/
def firmwareFits (b : List Byte) : Bool :=
  let n := fwBody b
  decide (64 ≤ b.length) && fieldOf b 0 4 == 0x0157464C && n % 64 == 0 && decide (n ≤ 16 * 2 ^ 20) &&
    ((b.drop 16).take 48).all (fun x => x == 0) && decide (64 + n + 2424 ≤ b.length) && fieldOf b (64 + n + 2) 2 == 0 &&
    decide (4 ≤ n) && decide (fwKeys b ≤ 8) && decide (64 + 1344 * fwKeys b ≤ n ∨ fwKeys b = 0) &&
    (List.range (fwKeys b)).all fun k => ((b.drop (64 + 64 + 1344 * k + 2)).take 30).all fun x => x == 0

/-- The digest that a firmware image is signed over: that of its header and body. -/
def fwDigest (b : List Byte) : BitVec 256 := firmwareDigest b

/-- The signature of a firmware image. -/
def fwSignature (b : List Byte) : List Byte := (b.drop (64 + fwBody b + 4)).take 2420

/-- The key of a signer; none where the package refuses it (R413). -/
def signerKey (signer : Nat) : Option (List Byte) :=
  if signer = 0 then some Config.harastKey
  else if signer = 1 ∧ Config.operatorDigest = some (sha3 Config.operatorKey) then some Config.operatorKey
  else none

/-- Whether a firmware image verifies (R413): its format, its signer and its signature. -/
def fwVerifies (b : List Byte) : Bool :=
  firmwareFits b && match signerKey (fwSigner b) with
    | some key => verifies key (fwDigest b) (fwSignature b)
    | none => false

/-- The result of a firmware image (R416, R417); 0 stages it. -/
def fwResult (p : Pav) (busy : Bool) (b : List Byte) : Nat :=
  if busy then 5
  else if !firmwareFits b then 1
  else
    match signerKey (fwSigner b) with
    | none => 3
    | some key => if !verifies key (fwDigest b) (fwSignature b) then 2 else if fwSvn b < p.topSvn then 4 else 0

/-- The bytes that the lodge copies of a firmware image: its header, and what BLEN says where that is in range (R413, R417). -/
def fwLength (b : List Byte) : Nat := if fwBody b ≤ 16 * 2 ^ 20 then 64 + fwBody b + 2424 else 64

/-- The host bus address of the firmware image (R416). -/
def Pav.firmwareBuffer (p : Pav) : Nat := 4096 * bits p.fwaddr 63 12

/-- A GO of FWCTL completes with the bytes that the host holds at FWADDR (R416, R417): an image that passes is staged. -/
def State.stageFirmware (s : State) (pav : Nat) (b : List Byte) : State :=
  let p := s.pav pav
  if !bit p.fwctl 0 || b.length != fwLength b then s
  else
    let r := fwResult p (s.commandFor pav [1, 4]) b
    let q : Pav := { p with fwctl := BitVec.ofNat 64 (r * 2) }
    (s.hostHolds p.firmwareBuffer b).setPav pav (if r = 0 then { q with staged := some ⟨fwSvn b, fwDigest b, (List.range (fwKeys b)).map (fwRow b)⟩ } else q)

/-- The slot of a pavilion starts (R417, R418): a staged image becomes the running one, and M2 begins with its digest. -/
def Pav.startSlot (p : Pav) : Pav :=
  match p.staged <|> p.slot with
  | none => p
  | some f =>
    { p with
      slot := some f, staged := none, topSvn := max p.topSvn f.svn
      m2 := sha3 (List.replicate 32 0 ++ digestBytes f.digest) }

/-- FWCTL as the driver reads it (R416). -/
def Pav.fwctlWord (p : Pav) : Word :=
  (p.fwctl &&& 0xF) ||| (match p.slot with | some f => BitVec.ofNat 64 (2 ^ 4 + f.svn * 2 ^ 16) | none => 0)

/-- PAVCFG as the driver reads it (R356). -/
def Pav.cfgWord (p : Pav) : Word :=
  BitVec.ofNat 64 (p.cores.length + p.stk * 2 ^ 8 + p.lpg * 2 ^ 12 + b2n p.contained * 2 ^ 16 + b2n p.formed * 2 ^ 17 + p.nvf * 2 ^ 18)

/-! ### Attestation (R418, R419) -/

/-- The die of the host lodge of a pavilion (R17): that of its lowest core. -/
def Pav.hostDie (p : Pav) : Nat := p.cores.headD 0 / 64

/-- The public key of the identity of a die (R419). -/
def identityKey (die : Nat) : List Byte := (dsaKeyOf (Config.identitySeed die)).bytes

/-- The signature of a digest by the identity key of a die (R413, R419), drawn with random bytes. -/
def identitySign (die : Nat) (random : List Byte) (d : BitVec 256) : List Byte := mlDsaSign (Config.identitySeed die) random (digestBytes d)

/-- The report of a pavilion for a nonce, without its signature. -/
def State.reportBody (s : State) (pav : Nat) (nonce : List Byte) : List Byte :=
  let p := s.pav pav
  let m := s.oper.measures.getD p.hostDie (0, 0)
  [0x41, 0x54, 0x54, 0x01] ++ leBytes 4 2612 ++ nonce ++ digestBytes m.1 ++ digestBytes m.2 ++ digestBytes p.m2 ++ leBytes 8 p.cfgWord.toNat ++ leBytes 8 s.oper.resets ++
    digestBytes (sha3 (identityKey p.hostDie)) ++ List.replicate 8 0

/-- A request of ATCTL ends with a result. -/
def Pav.endRequest (p : Pav) (result : Nat) : Pav := { p with atctl := (p.atctl &&& 2) ||| BitVec.ofNat 64 (result * 2 ^ 2) }

/-- The address of the buffer of ATADDR. -/
def Pav.buffer (p : Pav) : Nat := 4096 * bits p.ataddr 63 12

/-- Whether the 8 KiB from the buffer's address run past the last host bus address: a bad address (log 26). -/
def Pav.badBuffer (p : Pav) : Bool := decide (p.buffer + 8192 > 2 ^ 64)

/-- A report request completes with the 32 bytes of nonce that the host holds in the buffer (R419); one that finds a form or pavilion reset in
progress waits. -/
def State.report (s : State) (pav : Nat) (nonce : List Byte) : State :=
  let p := s.pav pav
  if !bit p.atctl 0 || bit p.atctl 1 || s.commandFor pav [1, 4] then s
  else if p.badBuffer || nonce.length != 32 then s.setPav pav (p.endRequest 1)
  else
    let body := s.reportBody pav nonce
    let (i, s1) := s.takeFree
    let sig := identitySign p.hostDie (Config.signRandom i) (sha3 body)
    { s1.setPav pav (p.endRequest 0) with host := (s.host.setBytes p.buffer nonce).setBytes (p.buffer + 64) (body ++ sig) }

/-- A chain request completes (R419); a chain that does not fit the buffer gives RESULT 2. -/
def State.chainRequest (s : State) (pav : Nat) : State :=
  let p := s.pav pav
  if !bit p.atctl 0 || !bit p.atctl 1 || s.commandFor pav [1, 4] then s
  else if p.badBuffer then s.setPav pav (p.endRequest 1)
  else
    let c := Config.chain p.hostDie
    if c.length + 68 > 8192 then s.setPav pav (p.endRequest 2)
    else { s.setPav pav (p.endRequest 0) with host := s.host.setBytes (p.buffer + 64) (leBytes 4 c.length ++ c) }

/-! ### Steps -/

/-- FIRMWARE_STAGE (R417). -/
def execFirmwareStage (pav : Nat) (bytes : List Byte) (s : State) : Host.Outcome State Fault Refusal := .next (s.stageFirmware pav bytes)
/-- ATTESTATION_REPORT (R419). -/
def execAttestationReport (pav : Nat) (nonce : List Byte) (s : State) : Host.Outcome State Fault Refusal := .next (s.report pav nonce)
/-- CERTIFICATE_CHAIN (R419). -/
def execCertificateChain (pav : Nat) (s : State) : Host.Outcome State Fault Refusal := .next (s.chainRequest pav)

end Sys2Proof.Machine
end

