-- ==== Sys2Proof/Machine/Reset.lean ====
section
/-!
DEFINITION. Resets (R366 to R368, R420, R421) and the commands that form, resize and dissolve a pavilion (R357 to R359, R431).
-/

namespace Sys2Proof.Machine

/-! ### Cancelled operations (R219, R367) -/

/-- A frame operation cancelled: a frame that it was to load or to drop is gone, and its arrival reports no error (log 28). -/
def State.cancelFrame (s : State) (core : Nat) (o : FrOp) : State :=
  let k := s.core core
  let n := cmdSlot o.cmd
  let t := k.slot n
  let lost := binds o.op || decide (o.op = .fdrop)
  let ne := (k.frames.getD o.frame .none).ne
  let s1 := s.setCore core
    { k with
      frq := k.frq.filter fun p => p.id != o.id
      frames := if lost then k.frames.erase o.frame else k.frames
      slots := k.slots.set n { t with fcnt := t.fcnt - 1, frame := if lost ∧ t.frame = some o.frame then none else t.frame } }
  s1.arrival core (o.who.accessor core) (cmdBar o.cmd) 0 (o.sectors ne)

/-- The operations of mx, sc and dd that some programs triggered leave a core. -/
def Core.dropEngines (k : Core) (mine : Who → Bool) : Core :=
  let run := k.scRun.toList
  let k1 := k.dropScans ((run ++ k.scq).filter fun o => mine o.who)
  { k1 with
    mxq := k1.mxq.filter fun o => !mine o.who
    mxRun := k1.mxRun.bind fun r => if mine r.op.who then none else some r
    scq := k1.scq.filter fun o => !mine o.who
    scRun := k1.scRun.bind fun o => if mine o.who then none else some o
    ddq := k1.ddq.filter fun o => !mine o.who }

/-- Every operation of some programs in a core is cancelled (R367). -/
def State.cancelWork (s : State) (core : Nat) (mine : Who → Bool) : State :=
  let k := s.core core
  let ids := ((k.cp0q ++ k.cp1q).filter fun o => mine o.who).map CpOp.id
  let s1 := s.cancelCopies core ids
  let s2 := ((s1.core core).frq.filter fun o => mine o.who).foldl (fun s o => s.cancelFrame core o) s1
  s2.setCore core ((s2.core core).dropEngines mine)

/-! ### Released contexts (R367, R420) -/

/-- A context is released with no save: off, its region ended unless the halt for its save has ended it before (R324). -/
def State.dropContext (s : State) (l : Loc) : State :=
  let x := s.ctx l
  let w := x.fin.getD x.cur
  let v := if x.saved.isSome then w else w.leaveRegion
  let s1 := (s.restoreCore l x.undo).setCtx l { Ctx.reset with cur := { View.reset with region := v.region, acquired := v.acquired } }
  let k := s1.core l.core
  if k.running = some l.ctx then s1.setCore l.core { k with running := none } else s1

/-- What a task held is free: its table entry, its claims, its tiles, queues and templates, the pipes of its gang (R211, R298, R302). -/
def Core.dropTask (k : Core) (id : Nat) : Core :=
  let k1 := k.freeProgram id
  { k1 with
    table := k1.table.filter fun t => t.id != id
    claims := k1.claims.filter fun c => c.prog != id
    parked := k1.parked.erase id
    queues := k1.queues.map fun e => if e.2.gang = some id then (e.1, { e.2 with en := false, gang := none }) else e }

/-! ### Completion entries of a reset (R367) -/

/-- An entry is written to the ring if it fits, and else counted (R353, R367). -/
def State.postOrLose (s : State) (pav vd : Nat) (acc : Nat) (e : List Byte) : State × Nat :=
  let d := s.dev pav vd
  if (d.crtail + 65536 - d.crhead) % 65536 = d.ringSize then (s, acc + 1)
  else (({ s with } : State).setDev pav vd { d with entries := [e] } |>.postEntry pav vd, acc)

/-- Every entry in order, with the number that did not fit. -/
def State.postAll (s : State) (pav vd : Nat) (es : List (List Byte)) : State × Nat :=
  es.foldl (fun a e => a.1.postOrLose pav vd a.2 e) (s, 0)

/-- Entries sorted by the number of their launch or task. -/
def insertEntry (e : Nat × List Byte) : List (Nat × List Byte) → List (Nat × List Byte)
  | [] => [e]
  | f :: fs => if e.1 < f.1 then e :: f :: fs else f :: insertEntry e fs

/-- The entries of the tasks and walks of a device with a status, in admission order. -/
def State.taskEntries (s : State) (pav vd status : Nat) : List (List Byte) :=
  let cs := (s.pav pav).cores
  let es := cs.flatMap fun c =>
    let place (x : Nat) : Nat := position c cs + x * 2 ^ 8
    (((s.core c).table.filter fun t => t.vd == vd).map fun t =>
      (t.id, completion (recTag t.record) 0 status (recMidx t.record) (place (t.bound.getD 0)))) ++
      (match (s.core c).walker with
        | some w => if w.vd = vd then [(w.run, completion w.tag 0 status 0 (place 0))] else []
        | none => [])
  (es.foldl (fun acc e => insertEntry e acc) []).map Prod.snd

/-- The entries of the launches of a device, by queue; one whose record has not been read has a tag of free value (log 28). -/
def State.launchEntries (s : State) (pav vd status : Nat) : State × List (List Byte) :=
  let ls := (List.range 16).flatMap fun q => (s.dev pav vd).launches.filter fun e => e.queue == q
  ls.foldl (fun acc e =>
    match e.record with
    | some r => (acc.1, acc.2 ++ [refusalEntry r status])
    | none =>
      let (i, s1) := acc.1.takeFree
      (s1, acc.2 ++ [completion (bits (Config.freeWord i) 31 0) 0 status 0 0])) (s, [])

/-! ### The key of a device that is reset (R365) -/

/-- The lines of a slice that carry a key index are gone, without write-back. -/
def State.dropLines (s : State) (kidx : Nat) : State :=
  let lines := s.l2.flatMap fun e => e.2.filterMap fun l => if l.2.kidx = kidx then some l.1 else none
  let mem := lines.foldl (fun m l =>
    match s.home.find? l with
    | some h => Memory.setBytes m (64 * l) h.bytes
    | none => m) s.mem
  { s with
    mem := mem
    lineKey := lines.foldl (fun t l => match s.home.find? l with | some h => t.put 0 l h.key | none => t) s.lineKey
    home := s.home.filter fun e => !lines.contains e.1
    l2 := s.l2.map fun e => (e.1, e.2.filter fun l => l.2.kidx != kidx) }

/-- The sectors of a pool that carry a key index become zero under no key. -/
def Core.zeroKey (k : Core) (kidx : Nat) : Core :=
  { k with
    pool := k.pool.filter fun e => k.sectorKey.getD (e.1 / 64) 0 != kidx
    sectorKey := k.sectorKey.filter fun e => e.2 != kidx }

/-- A key index becomes dead. -/
def State.killKey (s : State) (kidx : Nat) : State :=
  if kidx = 0 then s
  else
    let s1 := s.dropLines kidx
    { s1 with
      keys := match s1.keys.find? kidx with | some e => s1.keys.set kidx { e with live := false } | none => s1.keys
      cores := s1.cores.map fun e => (e.1, e.2.zeroKey kidx) }

/-! ### The charge of a client (R368) -/

/-- The key index of the page on which the home of a frame lies for a host device. -/
def State.homeKey (s : State) (a : Accessor) (tenant : Nat) (f : Frame) : Option Nat :=
  match s.areaOf a tenant f.sid f.layer with
  | .fault _ => none
  | .found base _ =>
    match s.translate a base false with
    | .ok p => some p.kidx
    | .error _ => none

/-- The bound frames of a core: slot and frame. -/
def Core.boundFrames (k : Core) : List (Nat × Frame) :=
  k.slots.filterMap fun e => e.2.frame.map fun i => (e.1, k.frames.getD i .none)

/-- Every byte of a frame in the pool becomes zero, in sectors of no key. -/
def Core.zeroFrame (k : Core) (f : Frame) : Core :=
  let lo := 65536 * f.bank
  let out (a : Nat) : Bool := decide (a < lo) || decide (lo + areaBytes f.ne ≤ a)
  { k with
    pool := k.pool.filter fun e => out e.1
    sectorKey := k.sectorKey.filter fun e => out (64 * e.1)
    frames := k.frames.map fun e => if e.2.bank = f.bank then (e.1, { e.2 with pos := 0, stag := 0 }) else e }

/-- The frames of a core whose homes lie on pages of a key index are zeroed (R368). -/
def State.zeroClientFrames (s : State) (pav kidx core : Nat) : State :=
  let k := s.core core
  let dead := (k.boundFrames.map Prod.snd).filter fun f => s.homeKey ⟨core, pav, f.vd, false⟩ (s.dev pav f.vd).tenant f == some kidx
  s.setCore core (dead.foldl Core.zeroFrame k)

/-- The share of the cycles of a host's task on a core that falls to a client: by the host's slots, those of whose frames its program owns the
first bank (R303). -/
def State.clientShare (s : State) (pav host core kidx : Nat) (t : Task) : Nat :=
  let k := s.core core
  let fs := (k.slots.filterMap fun e => e.2.frame.map fun i => k.frames.getD i .none).filter fun f => k.owns (some t.id) f.bank
  let a : Accessor := ⟨core, pav, host, false⟩
  let mine := fs.filter fun f => s.homeKey a (s.dev pav host).tenant f == some kidx
  if fs.isEmpty then 0 else t.cycles * mine.length / fs.length

/-- The charge of a device for the tasks of its batch host (R368). -/
def State.chargeClient (s : State) (pav vd : Nat) : State :=
  let d := s.dev pav vd
  let host := bits d.vdcfg 23 17
  if !bit d.vdcfg 24 then s
  else
    let n := ((s.pav pav).cores.map fun c =>
      (((s.core c).table.filter fun t => t.vd == host && t.bound.isSome).map fun t => s.clientShare pav host c d.kidx t).sum).sum
    s.setDev pav vd (d.setDeficit (d.deficit - Int.ofNat n))

/-! ### The device reset (R367) -/

/-- Step 2 on one core: contexts, tasks, walk and operations of a device are gone. -/
def State.clearDevice (s : State) (pav vd core : Nat) : State :=
  let mine (w : Who) : Bool := w.bind.pav == pav && w.bind.vd == vd
  let s1 := (s.settle core).cancelWork core mine
  let cs := (s1.core core).ctxs.filterMap fun e =>
    match e.2.binding with
    | some b => if b.pav = pav ∧ b.vd = vd then some e.1 else none
    | none => none
  let s2 := cs.foldl (fun s c => s.dropContext ⟨core, c⟩) s1
  let ids := ((s2.core core).table.filter fun t => t.vd == vd).map Task.id
  let k := ids.foldl Core.dropTask (s2.core core)
  (s2.setCore core { k with walker := k.walker.bind fun w => if w.vd = vd then none else some w }).settle core

/-- The end of a reset is told to a function by vector 1 of MSI-X (R346, log 28). -/
def State.sayReset (s : State) (pav vd : Nat) : State := { s with msix := s.msix ++ [(pav, vd, 1)] }

/-- A device is reset (R367); `posts`: the reset was started through VDCTL. -/
def State.resetDevice (s : State) (pav vd : Nat) (posts : Bool) : State :=
  let tasks := s.taskEntries pav vd 6
  let (s1, launches) := s.launchEntries pav vd 6
  let due := (s1.dev pav vd).entries
  let kidx := (s1.dev pav vd).kidx
  let s2 := s1.chargeClient pav vd
  let s3 := ((s2.pav pav).cores.foldl (fun s c => s.clearDevice pav vd c) s2).setDev pav vd
    { (s2.dev pav vd) with launches := [], entries := [] }
  let dead := (s3.dev pav vd).enabled
  let s3z := if dead ∧ kidx ≠ 0 then (s3.pav pav).cores.foldl (fun s c => s.zeroClientFrames pav kidx c) s3 else s3
  let s4 := ((if dead then s3z.killKey kidx else s3z).dropHeld fun e => e.pav == pav && e.vd == vd).keepWatches fun e => !(e.pav == pav && e.vd == vd)
  let (s5, lost) := if posts then s4.postAll pav vd (due ++ tasks ++ launches) else (s4, 0)
  let s6 := if posts then s5.sayReset pav vd else s5
  let d := s6.dev pav vd
  s6.setDev pav vd
    { d with
      vdcfg := putBit d.vdcfg 0 false
      vdctl := (d.vdctl &&& 2) ||| BitVec.ofNat 64 (min lost 65535 * 2 ^ 16)
      entries := [], flog := [], lost := 0, acc := [], full := [], malf := 0, crhead := 0, crtail := 0, refused := [], gone := [] }

/-! ### The pavilion reset (R367) -/

/-- A command of the operator block ends with a result (R357); a write of CALW that has waited behind it is checked then (R432). -/
def State.endCommand (s : State) (result : Nat) : State :=
  let s1 : State :=
    { s with oper := { s.oper with pcmd := (s.oper.pcmd &&& 0x7FFF) ||| BitVec.ofNat 64 (result * 2 ^ 16), calwHeld := none } }
  match s.oper.calwHeld with
  | some x => s1.writeCalw x
  | none => s1

/-- PAV of PCMD. -/
def Oper.target (o : Oper) : Nat := bits o.pcmd 6 3

/-- The images of a pavilion are gone, with the directory entries that they wrote (R264). -/
def State.dropImages (s : State) (pav : Nat) : State :=
  let ns := ((s.imagesOf pav).flatMap fun e => e.2.micro.map Prod.fst).filter fun n => decide (n < 64)
  let s1 : State := { s with images := s.images.filter fun e => e.1 / 65536 != pav }
  (s.pav pav).cores.foldl (fun s c => s.setCore c ((s.core c).dropEntries ns)) s1

/-- A pavilion is reset: each of its devices, then its pools, its images and its firmware slot. -/
def State.resetPavilion (s : State) (pav : Nat) : State :=
  let s1 := (s.pav pav).devs.foldl (fun s d => s.resetDevice pav d.1 false) s
  let s2 := (s1.pav pav).cores.foldl (fun s c => s.setCore c { s.core c with pool := [], sectorKey := [] }) s1
  let s3 := s2.dropImages pav
  s3.setPav pav { s3.pav pav with imgctl := 0, imgaddr := 0, imgdata := 0 : Pav }.startSlot

/-! ### Granules (R359, R431) -/

/-- Whether a granule lies in a named HBM4 stack or LP6 group. -/
def namedGranule (stk lpg g : Nat) : Bool :=
  if g < 192 then stk / 2 ^ (g / 48) % 2 == 1 else lpg / 2 ^ ((g - 256) / 384) % 2 == 1

/-- Free granules of a range for a number, the lowest of the named ones first (R359); none where they run short. -/
def State.pickFrom (s : State) (lo n stk lpg : Nat) (contained : Bool) (want : Nat) : Option (List Nat) :=
  let free := ((List.range n).map (lo + ·)).filter fun g => (s.granules.find? g).isNone
  let named := free.filter (namedGranule stk lpg)
  let others := free.filter fun g => !namedGranule stk lpg g
  let all := if contained then named else named ++ others
  if all.length < want then none else some (all.take want)

/-- The granules that PMEM adds to a pavilion with the stacks and groups named, if there are enough. The package is a BMY-128M, which has LP6
groups (R2, R359, DESIGN CHOICE: log 31). -/
def State.pickGranules (s : State) (stk lpg : Nat) (contained : Bool) : Option (List Nat) :=
  match s.pickFrom 0 192 stk lpg contained (bits s.oper.pmem 23 8), s.pickFrom 256 1536 stk lpg contained (bits s.oper.pmem 39 24) with
  | some hs, some ls => some (hs ++ ls)
  | _, _ => none

/-- Whether new granules would overload a memory controller (R431). -/
def State.overloads (s : State) (pav : Nat) (gs : List Nat) : Bool :=
  ((gs.map fun g => homeArb (g * 2 ^ 24)).eraseDups).any fun a =>
    let cls := arbClass a
    let rate (k : Nat) : Nat := rateOf ((s.dev (k / 128) (k % 128)).rate cls)
    !s.usesArb pav a &&
      decide (((s.sharing a).map rate).sum + ((s.pav pav).enabledDevs.map fun d => rate (devKey pav d)).sum > 1024)

/-- Granules are zeroed under no key and given to a pavilion (R359). -/
def State.giveGranules (s : State) (pav : Nat) (gs : List Nat) : State :=
  let old (line : Nat) : Bool := !gs.contains (line / 2 ^ 24)
  { s with
    mem := s.mem.filter fun e => old (e.1 / 64)
    tags := s.tags.filter fun e => old (e.1 / 4)
    lineMeta := s.lineMeta.filter fun e => old e.1
    poison := s.poison.filter fun e => old e.1
    lineKey := s.lineKey.filter fun e => old e.1
    home := s.home.filter fun e => old e.1
    l2 := s.l2.map fun e => (e.1, e.2.filter fun l => old l.1)
    granules := gs.foldl (fun t g => t.set g pav) s.granules }

/-! ### Cores that join and leave (R294, R358, R420) -/

/-- A core after a core reset (R420): withdrawn banks stay withdrawn. -/
def Core.afterReset (k : Core) : Core :=
  { Core.reset with withdrawn := k.withdrawn, removed := k.removed, poolpart := partWith 0x27855 k.inService }

/-- A core outside every pavilion: its pool stays until it joins one. -/
def Core.left (k : Core) : Core :=
  { Core.reset with
    withdrawn := k.withdrawn, removed := k.removed, poolpart := k.poolpart, pool := k.pool, sectorKey := k.sectorKey, fmt := k.fmt
    cycle := k.cycle }

/-- The cores that PCORE0 and PCORE1 name. -/
def Oper.named (o : Oper) : List Nat :=
  (List.range 128).filter fun c => if c < 64 then bit o.pcore0 c else bit o.pcore1 (c - 64)

/-- Whether a core may be added to a pavilion. -/
def State.coreFree (s : State) (c : Nat) : Bool := !(s.core c).removed && (s.pavOf c).isNone

/-- The device to which a frame belongs: that of the program that bound its slot or last swapped it, in the pavilion of its core (R183,
R361). -/
def State.frameDev (s : State) (core : Nat) (f : Frame) : Option (Nat × Nat) := (s.pavOf core).map fun pav => (pav, f.vd)

/-- A frame is written to its home as FDROP with WB = 1 would write it (R358); a failure posts a fault record. -/
def State.writeFrameHome (s : State) (core slot : Nat) (f : Frame) : State :=
  match s.frameDev core f with
  | none => s
  | some (pav, vd) =>
    let a : Accessor := ⟨core, pav, vd, false⟩
    let tenant := (s.dev pav vd).tenant
    let fail (e : EngineFault) : State := s.post pav vd ⟨3, e.cls, e.cause, core, 0, slot, 0, e.addr⟩
    match s.areaOf a tenant f.sid f.layer with
    | .fault e => fail e
    | .found base _ =>
      let img := s.frameImage core a f tenant
      match s.range a base img.length true with
      | .error (c, at_) => fail (translationFault c at_)
      | .ok ps => if s.writeRefused ps then fail (poisonFault base) else s.hostWriteRange ps img

/-- Every completion entry of the tasks and the walk of a core falls due: the exit of a program that has ended, else STATUS 4 (R358). -/
def State.releaseTasks (s : State) (pav core : Nat) : State :=
  let k := s.core core
  let cs := (s.pav pav).cores
  let s1 := k.table.foldl (fun s t =>
    let (exit, status, x) := match t.ended with | some (e, st, w, _) => (e, st, w % 4) | none => (0, 4, t.bound.getD 0)
    s.complete pav t.vd (completion (recTag t.record) exit status (recMidx t.record) (position core cs + x * 2 ^ 8))) s
  match k.walker with
  | some w => s1.complete pav w.vd (completion w.tag 0 4 0 (position core cs))
  | none => s1

/-- A core leaves its pavilion (R358 step 2): its frames go home, its tasks post, and it is free. -/
def State.leaveCore (s : State) (pav core : Nat) : State :=
  let s1 := (s.core core).boundFrames.foldl (fun s e => s.writeFrameHome core e.1 e.2) s
  let s2 := s1.releaseTasks pav core
  s2.setCore core (s2.core core).left

/-- The ring of some cores is emptied, with every credit (R358 step 3). -/
def State.clearRing (s : State) (cs : List Nat) : State :=
  let s1 := cs.foldl (fun s c => s.setCore c { s.core c with ring := [], spent := [] }) s
  { s1 with
    messages := s1.messages.filter fun m => !cs.contains m.src && !cs.contains m.dst
    credits := s1.credits.filter fun e => !cs.contains e.core }

/-- A core joins a pavilion with the micro records of every image of it (R264). -/
def State.joinCore (s : State) (pav core : Nat) : State :=
  let k := (s.core core).afterReset
  s.setCore core ((k.writeMicro ((s.imagesOf pav).flatMap fun e => e.2.micro)).getD k)

/-- The images of a pavilion whose micro sections rebinding has changed are written again into a core that stays (R263). -/
def State.respread (s : State) (pav core : Nat) : State :=
  let ms := (s.imagesOf pav).flatMap fun e => if e.2.rebinds.any fun r => r.sect == 6 then e.2.micro else []
  s.setCore core (((s.core core).writeMicro ms).getD (s.core core))

/-- The halted contexts of a core resume (R358 step 6). -/
def State.resumeCore (s : State) (core : Nat) : State :=
  (List.range 4).foldl (fun s c => if (s.ctx ⟨core, c⟩).mode = .halted then s.restoreCtx ⟨core, c⟩ ⟨core, c⟩ else s) s

/-- Steps 2 to 6 of R358 for the new cores of a pavilion. -/
def State.reshape (s : State) (pav : Nat) (new : List Nat) : State :=
  let old := (s.pav pav).cores
  let s1 := (old.filter fun c => !new.contains c).foldl (fun s c => s.leaveCore pav c) s
  let s2 := s1.clearRing (old ++ new)
  let p := s2.pav pav
  let s3 := s2.setPav pav { p with cores := new, rmclr := p.rmclr.filter new.contains }
  let s4 := (new.filter old.contains).foldl (fun s c => s.respread pav c) (s3.rebindAll pav)
  let s5 := (new.filter fun c => !old.contains c).foldl (fun s c => s.joinCore pav c) s4
  new.foldl State.resumeCore s5

/-! ### The quiesce (R358, R405) -/

/-- The lodge requests the halt of the next context of a core, one at a time (R405). -/
def State.haltNext (s : State) (core : Nat) : State :=
  let k := s.core core
  let live (c : Nat) : Bool := decide ((k.ctx c).mode ≠ .off) && decide ((k.ctx c).mode ≠ .halted)
  if (List.range 4).any fun c => (k.ctx c).preempt then s
  else
    match (List.range 4).filter live with
    | c :: _ => s.requestHalt ⟨core, c⟩
    | [] => s

/-- Whether every context of a core is off or halted. -/
def Core.stopped (k : Core) : Bool :=
  (List.range 4).all fun c => decide ((k.ctx c).mode = .off) || decide ((k.ctx c).mode = .halted)

/-- Whether nothing that has started still runs on a core. -/
def Core.settled (k : Core) : Bool :=
  k.stopped && k.mxRun.isNone && k.scRun.isNone && !((k.cp0q ++ k.cp1q).any CpOp.running) && !(k.frq.any FrOp.running)

/-- Whether a pavilion is quiesced for new cores: the frame operations of a core that leaves have completed. -/
def State.quiesced (s : State) (pav : Nat) (new : List Nat) : Bool :=
  (s.pav pav).cores.all fun c => (s.core c).settled && (new.contains c || (s.core c).frq.isEmpty)

/-! ### The commands (R357, R358) -/

/-- The virtual functions of the formed pavilions but one. -/
def State.otherVfs (s : State) (pav : Nat) : Nat := ((s.pavs.filter fun e => e.1 != pav && e.2.formed).map fun e => e.2.nvf).sum

/-- NVF of PCMD. -/
def Oper.nvf (o : Oper) : Nat := bits o.pcmd 13 7

/-- A form (R357, R358): its refusals in order, or the pavilion. -/
def State.formPavilion (s : State) : State :=
  let o := s.oper
  let pav := o.target
  let p := s.pav pav
  let cs := o.named
  let stk := bits o.pmem 3 0
  let lpg := bits o.pmem 7 4
  if !o.runs 1 then s
  else if p.formed then s.endCommand 5
  else if cs.isEmpty then s.endCommand 1
  else if !cs.all s.coreFree then s.endCommand 2
  else if s.otherVfs pav + o.nvf > 128 then s.endCommand 3
  else
    match s.pickGranules stk lpg (bit o.pcmd 14) with
    | none => s.endCommand 4
    | some gs =>
      if s.overloads pav gs then s.endCommand 5
      else
        let s1 := s.giveGranules pav gs
        let s2 := s1.setPav pav
          { p with formed := true, nvf := o.nvf, stk := stk, lpg := lpg, contained := bit o.pcmd 14, cores := cs, rmclr := [] : Pav }.startSlot
        (cs.foldl (fun s c => s.joinCore pav c) s2).endCommand 0

/-- Whether a virtual function above an index is enabled. -/
def Pav.enabledAbove (p : Pav) (nvf : Nat) : Bool := decide (p.vfs > nvf) || p.devs.any fun d => decide (d.1 > nvf) && d.2.enabled

/-- A resize (R357 to R359, R431): its refusals in order; then its pavilion is quiesced, and when it stands still it takes its new cores. -/
def State.resizePavilion (s : State) : State :=
  let o := s.oper
  let pav := o.target
  let p := s.pav pav
  let new := o.named
  let stk := bits o.pmem 3 0
  let lpg := bits o.pmem 7 4
  if !o.runs 2 then s
  else if !p.formed then s.endCommand 5
  else if new.isEmpty then s.endCommand 1
  else if !new.all (fun c => p.cores.contains c || s.coreFree c) then s.endCommand 2
  else if s.otherVfs pav + o.nvf > 128 then s.endCommand 3
  else if p.enabledAbove o.nvf then s.endCommand 5
  else
    match s.pickGranules (if p.contained then stk &&& p.stk else stk) (if p.contained then lpg &&& p.lpg else lpg) p.contained with
    | none => s.endCommand 4
    | some gs =>
      if s.overloads pav gs then s.endCommand 5
      else if !s.quiesced pav new then p.cores.foldl State.haltNext s
      else
        let s1 := s.giveGranules pav gs
        let q := s1.pav pav
        ((s1.setPav pav { q with nvf := o.nvf }).reshape pav new).endCommand 0

/-- A dissolve (R357 to R359): its cores and granules are free. -/
def State.dissolvePavilion (s : State) : State :=
  let pav := s.oper.target
  let p := s.pav pav
  if !s.oper.runs 3 then s
  else if !p.formed ∨ !p.enabledDevs.isEmpty then s.endCommand 5
  else if !s.quiesced pav [] then p.cores.foldl State.haltNext s
  else
    let s1 := (s.dropImages pav).reshape pav []
    let q := s1.pav pav
    let s2 : State := { s1 with granules := s1.granules.filter fun g => g.2 != pav }
    ((s2.dropHeld fun e => e.pav == pav).setPav pav { q with formed := false, nvf := 0, stk := 0, lpg := 0, contained := false, vfs := 0, cores := [], visited := none, visitAt := 0 }).endCommand 0

/-- The pavilion reset of PCMD (R366). -/
def State.commandReset (s : State) : State :=
  if !s.oper.runs 4 then s
  else if !(s.pav s.oper.target).formed then s.endCommand 5
  else
    let pav := s.oper.target
    ((List.range ((s.pav pav).vfs + 1)).foldl (fun s vd => s.sayReset pav vd) (s.resetPavilion pav)).endCommand 0

/-! ### The package reset (R421) -/

/-- The operator block after a package reset: what the lodges keep is the strap, the links, the counters since manufacture. -/
def Oper.afterReset (o : Oper) : Oper :=
  { Oper.reset with
    cool := o.cool
    far0 := o.far0
    far1 := o.far1
    resets := o.resets + 1
    measures := measuresAt (o.resets + 1)
    inReset := !([0, 1].all fun die => fwVerifies (Config.lodgeImage (o.resets + 1) die))
    health := o.health.map fun e => (e.1, { e.2 with now := 0 }) }

/-- A core as the self-test of a package reset leaves it (R421): its failing banks are withdrawn; one that fails, or that has too few banks for
its partition word, is out of use. -/
def Core.tested (n c : Nat) : Core :=
  let bad := (List.range 80).filter (Config.bankFails n c)
  let k : Core := { Core.reset with withdrawn := bad }
  { k with
    poolpart := partWith k.poolpart k.inService
    removed := Config.coreFails n c || decide (k.inService.length ≤ vectorBanks k.poolpart + accBanks k.poolpart) }

/-- HCAP after the tests of a package reset (R428). -/
def Oper.capacity (o : Oper) (ks : List Core) (lines : Nat) : Oper :=
  let good := ks.filter fun k => !k.removed
  { o with hcores := good.length, hbanks := (good.map fun k => k.inService.length).sum, hlines := lines }

/-- The package after a reset (R421): its cores and lines are tested; bytes of memory and of the host, what the host has received, and M2 of each
slot stay. -/
def State.afterReset (s : State) : State :=
  let n := s.oper.resets + 1
  let ks := (List.range 128).map fun c => (c, Core.tested n c)
  let lines := (Config.failingLines n).eraseDups
  { State.reset with
    cores := ks
    retired := lines
    pavs := s.pavs.map fun e => (e.1, { Pav.reset with m2 := e.2.m2 })
    oper := s.oper.afterReset.capacity (ks.map Prod.snd) lines.length, msix := s.msix, host := s.host, reads := s.reads, mem := s.mem, tags := s.tags, lineMeta := s.lineMeta
    poison := s.poison, lineKey := s.lineKey, keySerial := s.keySerial, freeCtr := s.freeCtr, waits := s.waits, opId := s.opId }

/-- The package reset of PCMD (R357, R420, R421): refused while a device is enabled. -/
def State.packageReset (s : State) : State :=
  if !s.oper.runs 5 then s
  else if s.pavs.any fun p => !p.2.enabledDevs.isEmpty then s.endCommand 5
  else s.afterReset

/-- Power-on (R420): memory holds what an unwritten byte holds (log 5). -/
def State.powerOn (s : State) : State := { s.afterReset with mem := [], tags := [], lineMeta := [], poison := [], lineKey := [] }

/-! ### Steps -/

/-- DEVICE_RESET (R367). -/
def execDeviceReset (pav vd : Nat) (s : State) : Host.Outcome State Fault Refusal :=
  .next (if bit (s.dev pav vd).vdctl 0 then s.resetDevice pav vd true else s)
/-- FUNCTION_LEVEL_RESET (R366): of a virtual function its device's reset, of the physical function the pavilion's. -/
def execFunctionLevelReset (pav vf : Nat) (s : State) : Host.Outcome State Fault Refusal :=
  .next (if vf = 0 then s.resetPavilion pav else s.resetDevice pav vf false)
/-- FORM (R357). -/
def execForm (s : State) : Host.Outcome State Fault Refusal := .next s.formPavilion
/-- RESIZE (R357). -/
def execResize (s : State) : Host.Outcome State Fault Refusal := .next s.resizePavilion
/-- DISSOLVE (R357). -/
def execDissolve (s : State) : Host.Outcome State Fault Refusal := .next s.dissolvePavilion
/-- PAVILION_RESET (R366). -/
def execPavilionReset (s : State) : Host.Outcome State Fault Refusal := .next s.commandReset
/-- PACKAGE_RESET (R421). -/
def execPackageReset (s : State) : Host.Outcome State Fault Refusal := .next s.packageReset
/-- POWER_ON (R420). -/
def execPowerOn (s : State) : Host.Outcome State Fault Refusal := .next s.powerOn

end Sys2Proof.Machine
end

