-- ==== Sys2Proof/Machine/Errors.lean ====
section
/-!
DEFINITION. Uncorrectable errors (R399 to R403) and what the lodge then withdraws: an L2 line, a pool bank, a core.
-/

namespace Sys2Proof.Machine

/-! ### Records (R398, R399) -/

/-- The device whose key a line of memory was last written under, if it is live. -/
def State.keyOwner (s : State) (serial : Nat) : Option (Nat × Nat) :=
  if serial = 0 then none
  else ((s.keys.filter fun e => e.2.serial == serial && e.2.live).head?).map fun e => (e.2.pav, e.2.vd)

/-- The device and context to which a record goes for who met the error; `owner`: the device whose key index a line carries. -/
def State.metBy (s : State) (met : ErrorMet) (owner : Option (Nat × Nat)) : Option (Nat × Nat) × Loc :=
  match met with
  | .context core ctx => ((s.ctx ⟨core, ctx⟩).binding.map fun b => (b.pav, b.vd), ⟨core, ctx⟩)
  | .host pav vd => (some (pav, vd), ⟨0, 0⟩)
  | .nobody => (owner, ⟨0, 0⟩)

/-- A record of ORIGIN 6 or 7 goes to a device, if there is one. -/
def State.postTo (s : State) (dev : Option (Nat × Nat)) (l : Loc) (origin item : Nat) (addr : Word) : State :=
  match dev with
  | some (pav, vd) => s.post pav vd ⟨origin, TrapClass.memory.code, 1, l.core, l.ctx, item, 0, addr⟩
  | none => s

/-- A record about a line: to no device of a pavilion that does not own the line's granule, and to none for a line under key index 0, whoever met
it (R360, R399). -/
def State.postLine (s : State) (met : ErrorMet) (keyed : Bool) (owner : Option (Nat × Nat)) (line origin item : Nat) : State :=
  let (dev, l) := s.metBy met owner
  s.postTo (dev.filter fun d => keyed && s.granules.find? (line / 2 ^ 24) == some d.1) l origin item (BitVec.ofNat 64 (64 * line))

/-- The device of a key index. -/
def State.indexOwner (s : State) (kidx : Nat) : Option (Nat × Nat) :=
  if kidx = 0 then none else (s.keys.find? kidx).map fun e => (e.pav, e.vd)

/-! ### Lines (R401) -/

/-- A line of HBM4 or LP6 is poisoned (R360); what a slice had not written back is lost. -/
def State.poisonLine (s : State) (line : Nat) : State :=
  ({ s with poison := s.poison.put false line true, home := s.home.erase line } : State).countHealth 4

/-- A lasting error of a line that a slice holds: the line is retired; a dirty one leaves its home poisoned. -/
def State.retireLine (s : State) (t line : Nat) (e : L2Line) (met : ErrorMet) : State :=
  let s1 : State :=
    { s with
      l2 := s.l2.set t ((s.slice t).erase line)
      retired := s.retired ++ [(t, setOf line, e.way)]
      oper := { s.oper with hlines := s.oper.hlines + 1 } }
  let s2 := (s1.postLine met (e.kidx != 0) (s.indexOwner e.kidx) line 7 e.way).countHealth 1
  if e.dirty then s2.poisonLine line else s2

/-! ### Lost frames (R402 to R404) -/

/-- A frame is lost: it is unbound without a write, its slot has ERR, and ORIGIN 8 is posted. The operations on it that are queued or run find it
gone (R188). -/
def State.loseFrame (s : State) (core slot : Nat) (f : Frame) : State :=
  let k := s.core core
  let t := k.slot slot
  let s1 := s.setCore core
    { k with
      frames := match t.frame with | some i => k.frames.erase i | none => k.frames
      frq := k.frq.map fun o => if t.frame = some o.frame ∧ o.gone.isNone then { o with gone := some f } else o
      slots := k.slots.set slot { t with frame := none, err := true } }
  let s2 :=
    match s.frameDev core f with
    | some (pav, vd) =>
      s1.post pav vd ⟨8, TrapClass.memory.code, 2, core, 0, slot, 0, BitVec.ofNat 64 (f.sid + f.layer * 2 ^ 16)⟩
    | none => s1
  s2.countHealth 5

/-- Every bound frame of a core that meets a test is lost. -/
def State.loseFrames (s : State) (core : Nat) (hit : Frame → Bool) : State :=
  ((s.core core).boundFrames.filter fun e => hit e.2).foldl (fun s e => s.loseFrame core e.1 e.2) s

/-! ### The withdrawal of a bank (R402) -/

/-- Banks in service but one. -/
def Core.without (k : Core) (bank : Nat) : List Nat := k.inService.filter fun b => b != bank

/-- Whether SBN would become 0 without a bank. -/
def Core.lastBank (k : Core) (bank : Nat) : Bool :=
  decide ((k.without bank).length ≤ vectorBanks k.poolpart + accBanks k.poolpart)

/-- The contexts whose programs are ended: those with a claim on the bank or on a bank whose role changes. -/
def Core.endedBy (k : Core) (banks : List Nat) : List Nat :=
  (List.range 4).filter fun c =>
    match (k.ctx c).binding with
    | some b => k.claims.any fun e => e.prog == b.prog && banks.contains e.bank
    | none => false

/-- The parked tasks (R387) that are ended: those with such a claim. -/
def Core.endedParked (k : Core) (banks : List Nat) : List Nat :=
  (k.parked.map Prod.fst).filter fun t => k.claims.any fun e => e.prog == t && banks.contains e.bank

/-- A parked task ends with a status: its banks pass on, its kept operations are dropped, and its table entry keeps the exit. -/
def Core.endParked (k : Core) (core task status : Nat) : Core :=
  match k.parked.find? task with
  | none => k
  | some (c, x) =>
    let r := ((x.fin.getD x.cur).region + 15) % 32
    let k1 : Core :=
      { k with
        parked := k.parked.erase task
        table := k.table.map fun t => if t.id = task then { t with bound := none, ended := some (0, status, 4 * core + c, r) } else t }
    (k1.endTask task).dropScans x.keptSc

/-- The partition word of a core without a bank, and the banks that go or whose role changes. -/
def Core.partWithout (k : Core) (bank : Nat) : Word × List Nat :=
  let part := partWith k.poolpart (k.without bank)
  (part, bank :: k.roleChanges part (k.without bank))

/-- Steps 2 and 3 of R402, once the contexts of the core have halted: the frames of the bank are unbound, the tasks with a claim on it or on a bank
whose role changes are ended, and the z tiles of such banks are free. -/
def State.beginWithdrawal (s : State) (core : Nat) (f : Failing) : State :=
  let k := s.core core
  let (part, banks) := k.partWithout f.part
  let s1 := s.loseFrames core fun fr => (frameBanks fr.bank fr.ne).contains f.part
  let s2 := (k.endedBy banks).foldl (fun s c => s.endProgram ⟨core, c⟩ 0 4) s1
  let k1 := ((s2.core core).endedParked banks).foldl (fun k t => k.endParked core t 4) (s2.core core)
  s2.setCore core
    { k1 with
      ztiles := k1.ztiles.filter fun z => !k.zChanged part (k.without f.part) z.1
      failing := { f with begun := true } :: k1.failing.drop 1 }

/-- Steps 5 and 6 of R402, once the queues of the core are empty: the partition word is rewritten, the banks that change role are zeroed, and the
remaining contexts are restored. -/
def State.withdrawBank (s : State) (core : Nat) (f : Failing) : State :=
  let k := s.core core
  let (part, banks) := k.partWithout f.part
  let k1 := k.zeroBanks banks
  let s3 := s.setCore core { k1 with poolpart := part, withdrawn := k1.withdrawn ++ [f.part], failing := k1.failing.drop 1 }
  let s4 : State := { s3 with oper := { s3.oper with hbanks := s3.oper.hbanks - 1 } }
  ((s4.postTo f.dev ⟨core, f.ctx⟩ 7 f.part (BitVec.ofNat 64 f.part)).countHealth 2).resumeCore core

/-! ### The removal of a core (R403) -/

/-- Where a halted context may resume on another core of its pavilion (R408): the first place in ascending order. -/
def State.refuge (s : State) (pav : Nat) (l : Loc) : Option Loc :=
  match (s.ctx l).saved with
  | none => none
  | some v =>
    let places := ((s.pav pav).cores.filter fun c => c != l.core).flatMap fun c => (List.range 4).map fun x => (⟨c, x⟩ : Loc)
    places.find? fun dst => s.mayResume l dst v && (s.regrant l dst v).isSome

/-- The halted contexts of a core that may resume elsewhere do so. -/
def State.evacuate (s : State) (pav core : Nat) : State :=
  (List.range 4).foldl (fun s c =>
    match s.refuge pav ⟨core, c⟩ with
    | some dst => s.restoreCtx ⟨core, c⟩ dst
    | none => s) s

/-- A core is out of use; its record is posted and the capacity falls. -/
def State.markRemoved (s : State) (core : Nat) (f : Failing) : State :=
  let k := s.core core
  let s1 := s.setCore core { k with removed := true, failing := [] }
  let s2 : State := { s1 with oper := { s1.oper with hcores := s1.oper.hcores - 1, hbanks := s1.oper.hbanks - k.inService.length } }
  (s2.postTo f.dev ⟨core, f.ctx⟩ 7 0 (BitVec.ofNat 64 core)).countHealth 3

/-- A core leaves its pavilion by the steps of R358, without its frames; where the pavilion does not stand still, the halt of its
contexts goes on. -/
def State.removeCore (s : State) (core : Nat) (f : Failing) : State :=
  match s.pavOf core with
  | none => s.markRemoved core f
  | some pav =>
    let cs := (s.pav pav).cores
    let new := cs.filter fun c => c != core
    if !s.quiesced pav new then cs.foldl State.haltNext s
    else (((s.loseFrames core fun _ => true).evacuate pav core).reshape pav new).markRemoved core f

/-! ### The lodge goes on with a withdrawal -/

/-- The first withdrawal of a core proceeds as far as it can. -/
def State.withdraw (s : State) (core : Nat) : State :=
  let k := s.core core
  match k.failing with
  | [] => s
  | f :: rest =>
    if f.part = 128 then s.removeCore core f
    else if k.withdrawn.contains f.part then s.setCore core { k with failing := rest }
    else if k.lastBank f.part then (s.setCore core { k with failing := { f with part := 128 } :: rest }).removeCore core { f with part := 128 }
    else if !k.stopped then s.haltNext core
    else if !f.begun then s.beginWithdrawal core f
    else if k.inFlight.isEmpty then s.withdrawBank core f
    else s

/-- A part of a core fails; a core that is out of use has none. -/
def State.failPart (s : State) (core part : Nat) (dev : Option (Nat × Nat)) (ctx : Nat) : State :=
  let k := s.core core
  if k.removed ∨ (k.failing.any fun f => f.part == part) then s.withdraw core
  else (s.setCore core { k with failing := if part = 128 then ⟨part, dev, ctx, false⟩ :: k.failing else k.failing ++ [⟨part, dev, ctx, false⟩] }).withdraw core

/-! ### The error (R401) -/

/-- An error that does not recur is absorbed: ORIGIN 6 and a count (log 25: the address of one that no line holds is 0). -/
def State.transient (s : State) (site : ErrorSite) (met : ErrorMet) : State :=
  (match site with
    | .l2Line t line =>
      match (s.slice t).find? line with
      | some e => s.postLine met (e.kidx != 0) (s.indexOwner e.kidx) line 6 e.way
      | none => s.postLine met (s.lineKey.getD line 0 != 0) none line 6 0
    | .memoryLine line => s.postLine met (s.lineKey.getD line 0 != 0) (s.keyOwner (s.lineKey.getD line 0)) line 6 0
    | .bank _ b => s.postTo (s.metBy met none).1 (s.metBy met none).2 6 b 0
    | .state core ctx => s.postTo (s.metBy (.context core ctx) none).1 ⟨core, ctx⟩ 6 0 0).countHealth 0

/-- A lasting error. -/
def State.lasting (s : State) (site : ErrorSite) (met : ErrorMet) : State :=
  match site with
  | .l2Line t line =>
    match (s.slice t).find? line with
    | some e => s.retireLine t line e met
    | none => s
  | .memoryLine line => if physical (64 * line) then s.poisonLine line else s
  | .bank core b => if b < 80 then s.failPart core b (s.metBy met none).1 (s.metBy met none).2.ctx else s
  | .state core ctx =>
    let l : Loc := ⟨core, ctx⟩
    let dev := (s.metBy (.context core ctx) none).1
    let s1 :=
      match (s.ctx l).mode with
      | .off | .halted => s
      | _ => s.takeTrap l ⟨.memory, 2, 0, 0, 0, 0⟩ 0 true (s.ctx l).pc
    s1.failPart core 128 dev ctx

/-! ### Steps -/

/-- UNCORRECTABLE_ERROR (R401): an error, or the next move of a withdrawal that the same error began. -/
def execUncorrectableError (site : ErrorSite) (lasting : Bool) (met : ErrorMet) (s : State) : Host.Outcome State Fault Refusal :=
  .next (if lasting then s.lasting site met else s.transient site met)

end Sys2Proof.Machine
end

