-- ==== Sys2Proof/Machine/Dispatch.lean ====
section
/-!
DEFINITION. The dispatch: one arm for each constructor of Instr.
-/

namespace Sys2Proof.Machine

/-- The meaning of an instruction. -/
def exec (i : Instr) (s : State) : Host.Outcome State Fault Refusal :=
  match i with
  | .transportMove b => Sys2Proof.Machine.execTransportMove b s
  | .blockClear core ctx => Sys2Proof.Machine.execBlockClear core ctx s
  | .contextSelect core => Sys2Proof.Machine.execContextSelect core s
  | .tokenRefill arb => Sys2Proof.Machine.execTokenRefill arb s
  | .arbiterGrant arb => Sys2Proof.Machine.execArbiterGrant arb s
  | .add unit m => Sys2Proof.Machine.execAdd unit m s
  | .sub unit m => Sys2Proof.Machine.execSub unit m s
  | .mul unit m => Sys2Proof.Machine.execMul unit m s
  | .mulh unit m => Sys2Proof.Machine.execMulh unit m s
  | .mulhn unit m => Sys2Proof.Machine.execMulhn unit m s
  | .and unit m => Sys2Proof.Machine.execAnd unit m s
  | .or unit m => Sys2Proof.Machine.execOr unit m s
  | .xor unit m => Sys2Proof.Machine.execXor unit m s
  | .andn unit m => Sys2Proof.Machine.execAndn unit m s
  | .shl unit m => Sys2Proof.Machine.execShl unit m s
  | .shr unit m => Sys2Proof.Machine.execShr unit m s
  | .sar unit m => Sys2Proof.Machine.execSar unit m s
  | .min unit m => Sys2Proof.Machine.execMin unit m s
  | .max unit m => Sys2Proof.Machine.execMax unit m s
  | .minn unit m => Sys2Proof.Machine.execMinn unit m s
  | .maxn unit m => Sys2Proof.Machine.execMaxn unit m s
  | .clz unit m => Sys2Proof.Machine.execClz unit m s
  | .ctz unit m => Sys2Proof.Machine.execCtz unit m s
  | .popc unit m => Sys2Proof.Machine.execPopc unit m s
  | .sext unit m => Sys2Proof.Machine.execSext unit m s
  | .zext unit m => Sys2Proof.Machine.execZext unit m s
  | .sel unit m => Sys2Proof.Machine.execSel unit m s
  | .cmpeq unit m => Sys2Proof.Machine.execCmpeq unit m s
  | .cmpne unit m => Sys2Proof.Machine.execCmpne unit m s
  | .cmplt unit m => Sys2Proof.Machine.execCmplt unit m s
  | .cmple unit m => Sys2Proof.Machine.execCmple unit m s
  | .cmpltn unit m => Sys2Proof.Machine.execCmpltn unit m s
  | .cmplen unit m => Sys2Proof.Machine.execCmplen unit m s
  | .cderive unit m => Sys2Proof.Machine.execCderive unit m s
  | .cnarrow unit m => Sys2Proof.Machine.execCnarrow unit m s
  | .crestrict unit m => Sys2Proof.Machine.execCrestrict unit m s
  | .cinc unit m => Sys2Proof.Machine.execCinc unit m s
  | .cbase unit m => Sys2Proof.Machine.execCbase unit m s
  | .clen unit m => Sys2Proof.Machine.execClen unit m s
  | .cperm unit m => Sys2Proof.Machine.execCperm unit m s
  | .cseal unit m => Sys2Proof.Machine.execCseal unit m s
  | .cunseal unit m => Sys2Proof.Machine.execCunseal unit m s
  | .cvalid unit m => Sys2Proof.Machine.execCvalid unit m s
  | .jmp m => Sys2Proof.Machine.execJmp m s
  | .jmpa m => Sys2Proof.Machine.execJmpa m s
  | .call m => Sys2Proof.Machine.execCall m s
  | .calla m => Sys2Proof.Machine.execCalla m s
  | .ret m => Sys2Proof.Machine.execRet m s
  | .bmz m => Sys2Proof.Machine.execBmz m s
  | .bmnz m => Sys2Proof.Machine.execBmnz m s
  | .mark m => Sys2Proof.Machine.execMark m s
  | .safe m => Sys2Proof.Machine.execSafe m s
  | .trap m => Sys2Proof.Machine.execTrap m s
  | .rte m => Sys2Proof.Machine.execRte m s
  | .yield m => Sys2Proof.Machine.execYield m s
  | .halt m => Sys2Proof.Machine.execHalt m s
  | .pand m => Sys2Proof.Machine.execPand m s
  | .por m => Sys2Proof.Machine.execPor m s
  | .pxor m => Sys2Proof.Machine.execPxor m s
  | .pandn m => Sys2Proof.Machine.execPandn m s
  | .porn m => Sys2Proof.Machine.execPorn m s
  | .pnot m => Sys2Proof.Machine.execPnot m s
  | .pset m => Sys2Proof.Machine.execPset m s
  | .gbase m => Sys2Proof.Machine.execGbase m s
  | .crr m => Sys2Proof.Machine.execCrr m s
  | .crw m => Sys2Proof.Machine.execCrw m s
  | .qos m => Sys2Proof.Machine.execQos m s
  | .imm m => Sys2Proof.Machine.execImm m s
  | .cat m => Sys2Proof.Machine.execCat m s
  | .fadd unit m => Sys2Proof.Machine.execFadd unit m s
  | .fsub unit m => Sys2Proof.Machine.execFsub unit m s
  | .fmul unit m => Sys2Proof.Machine.execFmul unit m s
  | .fma unit m => Sys2Proof.Machine.execFma unit m s
  | .fms unit m => Sys2Proof.Machine.execFms unit m s
  | .fnma unit m => Sys2Proof.Machine.execFnma unit m s
  | .fmin unit m => Sys2Proof.Machine.execFmin unit m s
  | .fmax unit m => Sys2Proof.Machine.execFmax unit m s
  | .fabs unit m => Sys2Proof.Machine.execFabs unit m s
  | .fneg unit m => Sys2Proof.Machine.execFneg unit m s
  | .fcadd unit m => Sys2Proof.Machine.execFcadd unit m s
  | .fade unit m => Sys2Proof.Machine.execFade unit m s
  | .fademul unit m => Sys2Proof.Machine.execFademul unit m s
  | .fadefma unit m => Sys2Proof.Machine.execFadefma unit m s
  | .fcmpeq unit m => Sys2Proof.Machine.execFcmpeq unit m s
  | .fcmplt unit m => Sys2Proof.Machine.execFcmplt unit m s
  | .fcmple unit m => Sys2Proof.Machine.execFcmple unit m s
  | .iadd unit m => Sys2Proof.Machine.execIadd unit m s
  | .isub unit m => Sys2Proof.Machine.execIsub unit m s
  | .imul unit m => Sys2Proof.Machine.execImul unit m s
  | .iand unit m => Sys2Proof.Machine.execIand unit m s
  | .ior unit m => Sys2Proof.Machine.execIor unit m s
  | .ixor unit m => Sys2Proof.Machine.execIxor unit m s
  | .ishl unit m => Sys2Proof.Machine.execIshl unit m s
  | .ishr unit m => Sys2Proof.Machine.execIshr unit m s
  | .isar unit m => Sys2Proof.Machine.execIsar unit m s
  | .imin unit m => Sys2Proof.Machine.execImin unit m s
  | .imax unit m => Sys2Proof.Machine.execImax unit m s
  | .iminn unit m => Sys2Proof.Machine.execIminn unit m s
  | .imaxn unit m => Sys2Proof.Machine.execImaxn unit m s
  | .icmpeq unit m => Sys2Proof.Machine.execIcmpeq unit m s
  | .icmplt unit m => Sys2Proof.Machine.execIcmplt unit m s
  | .icmpltn unit m => Sys2Proof.Machine.execIcmpltn unit m s
  | .cvtfi unit m => Sys2Proof.Machine.execCvtfi unit m s
  | .cvtfiz unit m => Sys2Proof.Machine.execCvtfiz unit m s
  | .cvtif unit m => Sys2Proof.Machine.execCvtif unit m s
  | .cvtfb unit m => Sys2Proof.Machine.execCvtfb unit m s
  | .cvtbf unit m => Sys2Proof.Machine.execCvtbf unit m s
  | .vsel unit m => Sys2Proof.Machine.execVsel unit m s
  | .vperm unit m => Sys2Proof.Machine.execVperm unit m s
  | .vrot unit m => Sys2Proof.Machine.execVrot unit m s
  | .xchg unit m => Sys2Proof.Machine.execXchg unit m s
  | .radd unit m => Sys2Proof.Machine.execRadd unit m s
  | .rmax unit m => Sys2Proof.Machine.execRmax unit m s
  | .rmin unit m => Sys2Proof.Machine.execRmin unit m s
  | .mpush m => Sys2Proof.Machine.execMpush m s
  | .minv m => Sys2Proof.Machine.execMinv m s
  | .mpop m => Sys2Proof.Machine.execMpop m s
  | .mpeek m => Sys2Proof.Machine.execMpeek m s
  | .mreset m => Sys2Proof.Machine.execMreset m s
  | .tdesc m => Sys2Proof.Machine.execTdesc m s
  | .tstat m => Sys2Proof.Machine.execTstat m s
  | .tset m => Sys2Proof.Machine.execTset m s
  | .mcall m => Sys2Proof.Machine.execMcall m s
  | .mwr m => Sys2Proof.Machine.execMwr m s
  | .quant m => Sys2Proof.Machine.execQuant m s
  | .azero m => Sys2Proof.Machine.execAzero m s
  | .aread m => Sys2Proof.Machine.execAread m s
  | .awrite m => Sys2Proof.Machine.execAwrite m s
  | .anorm m => Sys2Proof.Machine.execAnorm m s
  | .acvt m => Sys2Proof.Machine.execAcvt m s
  | .scfg m => Sys2Proof.Machine.execScfg m s
  | .sload m => Sys2Proof.Machine.execSload m s
  | .scomp m => Sys2Proof.Machine.execScomp m s
  | .scarry m => Sys2Proof.Machine.execScarry m s
  | .sapply m => Sys2Proof.Machine.execSapply m s
  | .sread m => Sys2Proof.Machine.execSread m s
  | .rcp m => Sys2Proof.Machine.execRcp m s
  | .rsqrt m => Sys2Proof.Machine.execRsqrt m s
  | .rcpstep m => Sys2Proof.Machine.execRcpstep m s
  | .rsqstep m => Sys2Proof.Machine.execRsqstep m s
  | .exp2 m => Sys2Proof.Machine.execExp2 m s
  | .log2 m => Sys2Proof.Machine.execLog2 m s
  | .softplus m => Sys2Proof.Machine.execSoftplus m s
  | .sigmoid m => Sys2Proof.Machine.execSigmoid m s
  | .silu m => Sys2Proof.Machine.execSilu m s
  | .csort m => Sys2Proof.Machine.execCsort m s
  | .cmerge m => Sys2Proof.Machine.execCmerge m s
  | .cthr m => Sys2Proof.Machine.execCthr m s
  | .cread m => Sys2Proof.Machine.execCread m s
  | .cclr m => Sys2Proof.Machine.execCclr m s
  | .patch m => Sys2Proof.Machine.execPatch m s
  | .sety m => Sys2Proof.Machine.execSety m s
  | .setr m => Sys2Proof.Machine.execSetr m s
  | .gety m => Sys2Proof.Machine.execGety m s
  | .getr m => Sys2Proof.Machine.execGetr m s
  | .step m => Sys2Proof.Machine.execStep m s
  | .start m => Sys2Proof.Machine.execStart m s
  | .stop m => Sys2Proof.Machine.execStop m s
  | .dsave m => Sys2Proof.Machine.execDsave m s
  | .dload m => Sys2Proof.Machine.execDload m s
  | .inject m => Sys2Proof.Machine.execInject m s
  | .cnt m => Sys2Proof.Machine.execCnt m s
  | .fbind m => Sys2Proof.Machine.execFbind m s
  | .fswap m => Sys2Proof.Machine.execFswap m s
  | .snap m => Sys2Proof.Machine.execSnap m s
  | .fork m => Sys2Proof.Machine.execFork m s
  | .roll m => Sys2Proof.Machine.execRoll m s
  | .fdrop m => Sys2Proof.Machine.execFdrop m s
  | .fstat m => Sys2Proof.Machine.execFstat m s
  | .ld8Ls0 m => Sys2Proof.Machine.execLd8Ls0 m s
  | .ld8Ls1 m => Sys2Proof.Machine.execLd8Ls1 m s
  | .ld16Ls0 m => Sys2Proof.Machine.execLd16Ls0 m s
  | .ld16Ls1 m => Sys2Proof.Machine.execLd16Ls1 m s
  | .ld32Ls0 m => Sys2Proof.Machine.execLd32Ls0 m s
  | .ld32Ls1 m => Sys2Proof.Machine.execLd32Ls1 m s
  | .ld64Ls0 m => Sys2Proof.Machine.execLd64Ls0 m s
  | .ld64Ls1 m => Sys2Proof.Machine.execLd64Ls1 m s
  | .ldn8Ls0 m => Sys2Proof.Machine.execLdn8Ls0 m s
  | .ldn8Ls1 m => Sys2Proof.Machine.execLdn8Ls1 m s
  | .ldn16Ls0 m => Sys2Proof.Machine.execLdn16Ls0 m s
  | .ldn16Ls1 m => Sys2Proof.Machine.execLdn16Ls1 m s
  | .ldn32Ls0 m => Sys2Proof.Machine.execLdn32Ls0 m s
  | .ldn32Ls1 m => Sys2Proof.Machine.execLdn32Ls1 m s
  | .ldcLs0 m => Sys2Proof.Machine.execLdcLs0 m s
  | .ldcLs1 m => Sys2Proof.Machine.execLdcLs1 m s
  | .st8Ls0 m => Sys2Proof.Machine.execSt8Ls0 m s
  | .st8Ls1 m => Sys2Proof.Machine.execSt8Ls1 m s
  | .st16Ls0 m => Sys2Proof.Machine.execSt16Ls0 m s
  | .st16Ls1 m => Sys2Proof.Machine.execSt16Ls1 m s
  | .st32Ls0 m => Sys2Proof.Machine.execSt32Ls0 m s
  | .st32Ls1 m => Sys2Proof.Machine.execSt32Ls1 m s
  | .st64Ls0 m => Sys2Proof.Machine.execSt64Ls0 m s
  | .st64Ls1 m => Sys2Proof.Machine.execSt64Ls1 m s
  | .stcLs0 m => Sys2Proof.Machine.execStcLs0 m s
  | .stcLs1 m => Sys2Proof.Machine.execStcLs1 m s
  | .ldacq32Ls0 m => Sys2Proof.Machine.execLdacq32Ls0 m s
  | .ldacq32Ls1 m => Sys2Proof.Machine.execLdacq32Ls1 m s
  | .ldacq64Ls0 m => Sys2Proof.Machine.execLdacq64Ls0 m s
  | .ldacq64Ls1 m => Sys2Proof.Machine.execLdacq64Ls1 m s
  | .strel32Ls0 m => Sys2Proof.Machine.execStrel32Ls0 m s
  | .strel32Ls1 m => Sys2Proof.Machine.execStrel32Ls1 m s
  | .strel64Ls0 m => Sys2Proof.Machine.execStrel64Ls0 m s
  | .strel64Ls1 m => Sys2Proof.Machine.execStrel64Ls1 m s
  | .vldLs0 m => Sys2Proof.Machine.execVldLs0 m s
  | .vldLs1 m => Sys2Proof.Machine.execVldLs1 m s
  | .vstLs0 m => Sys2Proof.Machine.execVstLs0 m s
  | .vstLs1 m => Sys2Proof.Machine.execVstLs1 m s
  | .gathLs0 m => Sys2Proof.Machine.execGathLs0 m s
  | .gathLs1 m => Sys2Proof.Machine.execGathLs1 m s
  | .scatLs0 m => Sys2Proof.Machine.execScatLs0 m s
  | .scatLs1 m => Sys2Proof.Machine.execScatLs1 m s
  | .vldxLs0 m => Sys2Proof.Machine.execVldxLs0 m s
  | .vldxLs1 m => Sys2Proof.Machine.execVldxLs1 m s
  | .vstcLs0 m => Sys2Proof.Machine.execVstcLs0 m s
  | .vstcLs1 m => Sys2Proof.Machine.execVstcLs1 m s
  | .fenceLs0 m => Sys2Proof.Machine.execFenceLs0 m s
  | .fenceLs1 m => Sys2Proof.Machine.execFenceLs1 m s
  | .fenceScLs0 m => Sys2Proof.Machine.execFenceScLs0 m s
  | .fenceScLs1 m => Sys2Proof.Machine.execFenceScLs1 m s
  | .xfenceLs0 m => Sys2Proof.Machine.execXfenceLs0 m s
  | .xfenceLs1 m => Sys2Proof.Machine.execXfenceLs1 m s
  | .hintLs0 m => Sys2Proof.Machine.execHintLs0 m s
  | .hintLs1 m => Sys2Proof.Machine.execHintLs1 m s
  | .hresLs0 m => Sys2Proof.Machine.execHresLs0 m s
  | .hresLs1 m => Sys2Proof.Machine.execHresLs1 m s
  | .cctlLs0 m => Sys2Proof.Machine.execCctlLs0 m s
  | .cctlLs1 m => Sys2Proof.Machine.execCctlLs1 m s
  | .brelLs0 m => Sys2Proof.Machine.execBrelLs0 m s
  | .brelLs1 m => Sys2Proof.Machine.execBrelLs1 m s
  | .copyCp0 m => Sys2Proof.Machine.execCopyCp0 m s
  | .copyCp1 m => Sys2Proof.Machine.execCopyCp1 m s
  | .twrCp0 m => Sys2Proof.Machine.execTwrCp0 m s
  | .twrCp1 m => Sys2Proof.Machine.execTwrCp1 m s
  | .atadd32 m => Sys2Proof.Machine.execAtadd32 m s
  | .atadd64 m => Sys2Proof.Machine.execAtadd64 m s
  | .atand m => Sys2Proof.Machine.execAtand m s
  | .ator m => Sys2Proof.Machine.execAtor m s
  | .atxor m => Sys2Proof.Machine.execAtxor m s
  | .atmax m => Sys2Proof.Machine.execAtmax m s
  | .atmin m => Sys2Proof.Machine.execAtmin m s
  | .atswp m => Sys2Proof.Machine.execAtswp m s
  | .cas64 m => Sys2Proof.Machine.execCas64 m s
  | .cas128 m => Sys2Proof.Machine.execCas128 m s
  | .qput m => Sys2Proof.Machine.execQput m s
  | .qget m => Sys2Proof.Machine.execQget m s
  | .qsel m => Sys2Proof.Machine.execQsel m s
  | .rput m => Sys2Proof.Machine.execRput m s
  | .rget m => Sys2Proof.Machine.execRget m s
  | .launch m => Sys2Proof.Machine.execLaunch m s
  | .binit m => Sys2Proof.Machine.execBinit m s
  | .barr m => Sys2Proof.Machine.execBarr m s
  | .bwait m => Sys2Proof.Machine.execBwait m s
  | .btest m => Sys2Proof.Machine.execBtest m s
  | .bexp m => Sys2Proof.Machine.execBexp m s
  | .accessAcceptance core ctx => Sys2Proof.Machine.execAccessAcceptance core ctx s
  | .longLatencyLanding core ctx op => Sys2Proof.Machine.execLongLatencyLanding core ctx op s
  | .mxOperationStart core => Sys2Proof.Machine.execMxOperationStart core s
  | .mxWload core => Sys2Proof.Machine.execMxWload core s
  | .mxStream core => Sys2Proof.Machine.execMxStream core s
  | .mxPromote core => Sys2Proof.Machine.execMxPromote core s
  | .mxLoop core => Sys2Proof.Machine.execMxLoop core s
  | .mxNop core => Sys2Proof.Machine.execMxNop core s
  | .mxEnd core => Sys2Proof.Machine.execMxEnd core s
  | .mxOperationCompletion core => Sys2Proof.Machine.execMxOperationCompletion core s
  | .scanOperationStart core => Sys2Proof.Machine.execScanOperationStart core s
  | .scanBlock core => Sys2Proof.Machine.execScanBlock core s
  | .frameOperationStart core => Sys2Proof.Machine.execFrameOperationStart core s
  | .frameOperationCompletion core op => Sys2Proof.Machine.execFrameOperationCompletion core op s
  | .copyBegin core ch => Sys2Proof.Machine.execCopyBegin core ch s
  | .copyCompletion core ch op => Sys2Proof.Machine.execCopyCompletion core ch op s
  | .launchRecordRead pav vd entry => Sys2Proof.Machine.execLaunchRecordRead pav vd entry s
  | .domainStep core dom => Sys2Proof.Machine.execDomainStep core dom s
  | .ringMessageDelivery msg => Sys2Proof.Machine.execRingMessageDelivery msg s
  | .creditReturn core dir ch => Sys2Proof.Machine.execCreditReturn core dir ch s
  | .packetPlacement core dir slot free => Sys2Proof.Machine.execPacketPlacement core dir slot free s
  | .dispatcherVisit pav vd => Sys2Proof.Machine.execDispatcherVisit pav vd s
  | .taskBinding core task => Sys2Proof.Machine.execTaskBinding core task s
  | .taskFinish core task => Sys2Proof.Machine.execTaskFinish core task s
  | .completionEntryPost pav vd => Sys2Proof.Machine.execCompletionEntryPost pav vd s
  | .walkerNode core => Sys2Proof.Machine.execWalkerNode core s
  | .bankClaimHeld core task bank => Sys2Proof.Machine.execBankClaimHeld core task bank s
  | .bankReleaseComplete core bank => Sys2Proof.Machine.execBankReleaseComplete core bank s
  | .preemptionRequest core ctx => Sys2Proof.Machine.execPreemptionRequest core ctx s
  | .contextRestore core ctx toCore toCtx => Sys2Proof.Machine.execContextRestore core ctx toCore toCtx s
  | .contextRelease core ctx => Sys2Proof.Machine.execContextRelease core ctx s
  | .watchdogExpiry core ctx => Sys2Proof.Machine.execWatchdogExpiry core ctx s
  | .uncorrectableError site lasting met => Sys2Proof.Machine.execUncorrectableError site lasting met s
  | .hostLaunch pav vd off bytes => Sys2Proof.Machine.execHostLaunch pav vd off bytes s
  | .windowWrite pav vd off bytes => Sys2Proof.Machine.execWindowWrite pav vd off bytes s
  | .windowRead pav vd off len => Sys2Proof.Machine.execWindowRead pav vd off len s
  | .crheadWrite pav vd value => Sys2Proof.Machine.execCrheadWrite pav vd value s
  | .vdcfgWrite pav vd value => Sys2Proof.Machine.execVdcfgWrite pav vd value s
  | .deviceReset pav vd => Sys2Proof.Machine.execDeviceReset pav vd s
  | .functionLevelReset pav vf => Sys2Proof.Machine.execFunctionLevelReset pav vf s
  | .rmclr pav => Sys2Proof.Machine.execRmclr pav s
  | .pavinv pav => Sys2Proof.Machine.execPavinv pav s
  | .pavlendWrite pav value => Sys2Proof.Machine.execPavlendWrite pav value s
  | .rateBlockWrite pav vd reg value => Sys2Proof.Machine.execRateBlockWrite pav vd reg value s
  | .rateWriteEffect arb => Sys2Proof.Machine.execRateWriteEffect arb s
  | .reclaimWalkEnd slice => Sys2Proof.Machine.execReclaimWalkEnd slice s
  | .form => Sys2Proof.Machine.execForm s
  | .resize => Sys2Proof.Machine.execResize s
  | .dissolve => Sys2Proof.Machine.execDissolve s
  | .pavilionReset => Sys2Proof.Machine.execPavilionReset s
  | .packageReset => Sys2Proof.Machine.execPackageReset s
  | .powerOn => Sys2Proof.Machine.execPowerOn s
  | .calwWrite value => Sys2Proof.Machine.execCalwWrite value s
  | .calendarWriteEffect => Sys2Proof.Machine.execCalendarWriteEffect s
  | .rxcfgWrite value => Sys2Proof.Machine.execRxcfgWrite value s
  | .flitReplay port => Sys2Proof.Machine.execFlitReplay port s
  | .imageLoad pav bytes => Sys2Proof.Machine.execImageLoad pav bytes s
  | .imageUnload pav => Sys2Proof.Machine.execImageUnload pav s
  | .firmwareStage pav bytes => Sys2Proof.Machine.execFirmwareStage pav bytes s
  | .attestationReport pav nonce => Sys2Proof.Machine.execAttestationReport pav nonce s
  | .certificateChain pav => Sys2Proof.Machine.execCertificateChain pav s
  | .faultLogPop pav vd => Sys2Proof.Machine.execFaultLogPop pav vd s
  | .modeChange => Sys2Proof.Machine.execModeChange s
  | .powerWindow watts => Sys2Proof.Machine.execPowerWindow watts s
  | .thermalWarning die temp => Sys2Proof.Machine.execThermalWarning die temp s
  | .thermalTrip die temp => Sys2Proof.Machine.execThermalTrip die temp s
  | .registerWrite reg value => Sys2Proof.Machine.execRegisterWrite reg value s
  | .poolpartWrite core value => Sys2Proof.Machine.execPoolpartWrite core value s
  | .ringPortLinkChange port up joined => Sys2Proof.Machine.execRingPortLinkChange port up joined s

end Sys2Proof.Machine
end

