-- ==== Sys2Proof/Machine/Schedule.lean ====
section
/-!
DEFINITION. The model's own schedule (log 3): which step comes next where the agenda says nothing. Every order that the rules leave open
between agents is one of the agenda's; the default order lets each pending step that changes something come before the next bundle.
-/

namespace Sys2Proof.Machine

/-- The outcome of a step that no bundle holds. -/
def runEvent (e : Event) (s : State) : Host.Outcome State Fault Refusal :=
  match e with
  | .blockClear core ctx => execBlockClear core ctx s
  | .contextSelect core => execContextSelect core s
  | .tokenRefill arb => execTokenRefill arb s
  | .arbiterGrant arb => execArbiterGrant arb s
  | .accessAcceptance core ctx => execAccessAcceptance core ctx s
  | .longLatencyLanding core ctx op => execLongLatencyLanding core ctx op s
  | .mxOperationStart core => execMxOperationStart core s
  | .mxWload core => execMxWload core s
  | .mxStream core => execMxStream core s
  | .mxPromote core => execMxPromote core s
  | .mxLoop core => execMxLoop core s
  | .mxNop core => execMxNop core s
  | .mxEnd core => execMxEnd core s
  | .mxOperationCompletion core => execMxOperationCompletion core s
  | .scanOperationStart core => execScanOperationStart core s
  | .scanBlock core => execScanBlock core s
  | .frameOperationStart core => execFrameOperationStart core s
  | .frameOperationCompletion core op => execFrameOperationCompletion core op s
  | .copyBegin core ch => execCopyBegin core ch s
  | .copyCompletion core ch op => execCopyCompletion core ch op s
  | .launchRecordRead pav vd entry => execLaunchRecordRead pav vd entry s
  | .domainStep core dom => execDomainStep core dom s
  | .ringMessageDelivery msg => execRingMessageDelivery msg s
  | .creditReturn core dir ch => execCreditReturn core dir ch s
  | .packetPlacement core dir slot free => execPacketPlacement core dir slot free s
  | .dispatcherVisit pav vd => execDispatcherVisit pav vd s
  | .taskBinding core task => execTaskBinding core task s
  | .taskFinish core task => execTaskFinish core task s
  | .completionEntryPost pav vd => execCompletionEntryPost pav vd s
  | .walkerNode core => execWalkerNode core s
  | .bankClaimHeld core task bank => execBankClaimHeld core task bank s
  | .bankReleaseComplete core bank => execBankReleaseComplete core bank s
  | .preemptionRequest core ctx => execPreemptionRequest core ctx s
  | .contextRestore core ctx toCore toCtx => execContextRestore core ctx toCore toCtx s
  | .contextRelease core ctx => execContextRelease core ctx s
  | .watchdogExpiry core ctx => execWatchdogExpiry core ctx s
  | .uncorrectableError site lasting met => execUncorrectableError site lasting met s
  | .hostLaunch pav vd off bytes => execHostLaunch pav vd off bytes s
  | .windowWrite pav vd off bytes => execWindowWrite pav vd off bytes s
  | .windowRead pav vd off len => execWindowRead pav vd off len s
  | .crheadWrite pav vd value => execCrheadWrite pav vd value s
  | .vdcfgWrite pav vd value => execVdcfgWrite pav vd value s
  | .deviceReset pav vd => execDeviceReset pav vd s
  | .functionLevelReset pav vf => execFunctionLevelReset pav vf s
  | .rmclr pav => execRmclr pav s
  | .pavinv pav => execPavinv pav s
  | .pavlendWrite pav value => execPavlendWrite pav value s
  | .rateBlockWrite pav vd reg value => execRateBlockWrite pav vd reg value s
  | .rateWriteEffect arb => execRateWriteEffect arb s
  | .reclaimWalkEnd slice => execReclaimWalkEnd slice s
  | .form => execForm s
  | .resize => execResize s
  | .dissolve => execDissolve s
  | .pavilionReset => execPavilionReset s
  | .packageReset => execPackageReset s
  | .powerOn => execPowerOn s
  | .calwWrite value => execCalwWrite value s
  | .calendarWriteEffect => execCalendarWriteEffect s
  | .rxcfgWrite value => execRxcfgWrite value s
  | .flitReplay port => execFlitReplay port s
  | .imageLoad pav bytes => execImageLoad pav bytes s
  | .imageUnload pav => execImageUnload pav s
  | .firmwareStage pav bytes => execFirmwareStage pav bytes s
  | .attestationReport pav nonce => execAttestationReport pav nonce s
  | .certificateChain pav => execCertificateChain pav s
  | .faultLogPop pav vd => execFaultLogPop pav vd s
  | .modeChange => execModeChange s
  | .powerWindow watts => execPowerWindow watts s
  | .thermalWarning die temp => execThermalWarning die temp s
  | .thermalTrip die temp => execThermalTrip die temp s
  | .registerWrite reg value => execRegisterWrite reg value s
  | .poolpartWrite core value => execPoolpartWrite core value s
  | .ringPortLinkChange port up joined => execRingPortLinkChange port up joined s

/-- The step of the matrix sequencer that comes next in a core (R157). -/
def Core.mxEvent (k : Core) (core : Nat) : List Event :=
  match k.mxRun with
  | none => match k.mxq with | [] => [] | _ => [.mxOperationStart core]
  | some r =>
    if r.done then [.mxOperationCompletion core]
    else
      let w := stKind (k.word r.next)
      if w = 0 then [.mxEnd core] else if w = 1 then [.mxWload core] else if w = 2 then [.mxStream core]
      else if w = 3 then [.mxPromote core] else if w = 4 then [.mxLoop core] else [.mxNop core]

/-- The steps of the engines of a core that may be due: within one cycle the arrivals of cp0, of cp1 and of the frame engine come first, in
that order, and what a program does last (R222). -/
def Core.engineEvents (k : Core) (core : Nat) : List Event :=
  (match k.cp0q with | [] => [] | o :: _ => [if o.running then .copyCompletion core 0 o.id else .copyBegin core 0]) ++
  (match k.cp1q with | [] => [] | o :: _ => [if o.running then .copyCompletion core 1 o.id else .copyBegin core 1]) ++
  ((k.frq.filter FrOp.running).map fun o => .frameOperationCompletion core o.id) ++
  (match k.frq with | [] => [] | _ => [.frameOperationStart core]) ++
  k.mxEvent core ++
  (match k.scRun with | some _ => [.scanBlock core] | none => match k.scq with | [] => [] | _ => [.scanOperationStart core]) ++
  (k.ctxs.flatMap fun e => e.2.landings.map fun i => .longLatencyLanding core e.1 i.1) ++
  k.ctxs.filterMap fun e => if e.2.wait = some .acceptance then some (.accessAcceptance core e.1) else none

/-- The steps of the lodge, the walker and the selector of a core that may be due. -/
def Core.lodgeEvents (k : Core) (core : Nat) : List Event :=
  (k.claims.filterMap fun c =>
    match c.state with
    | .pending => some (Event.bankClaimHeld core c.prog c.bank)
    | .releasing => some (Event.bankReleaseComplete core c.bank)
    | .held => none) ++
  (k.table.flatMap fun t => [.taskFinish core t.id, .taskBinding core t.id]) ++
  (match k.walker with | some _ => [.walkerNode core] | none => []) ++
  (match k.failing with
    | [] => []
    | f :: _ => [.uncorrectableError (if f.part = 128 then .state core 4 else .bank core f.part) true .nobody]) ++
  (k.ctxs.filterMap fun e => if e.2.mode = .blocked ∨ !e.2.late.isEmpty then some (Event.blockClear core e.1) else none) ++
  (k.ctxs.filterMap fun e => if e.2.preempt ∧ watchdogTime ≤ e.2.waited then some (Event.watchdogExpiry core e.1) else none)

/-- The steps of a device that may be due. -/
def Dev.events (d : Dev) (pav vd : Nat) : List Event :=
  (if bit d.vdctl 0 then [.deviceReset pav vd] else []) ++
    (d.launches.filterMap fun e => if e.record.isNone then some (Event.launchRecordRead pav vd e.id) else none) ++
    (match d.entries with | [] => [] | _ => [.completionEntryPost pav vd])

/-- The steps of the ring that may be due. -/
def State.ringEvents (s : State) : List Event :=
  (s.messages.flatMap fun m =>
    if m.waiting then [.packetPlacement m.src m.dir (s.slotNow m.src m.dir) (s.freeNow m.src m.dir false)]
    else if m.held then
      [.packetPlacement (bridgeCore m.dir) m.dir (s.slotAcross m.dir) (s.freeNow (bridgeCore m.dir) m.dir true)]
    else [.ringMessageDelivery m.id]) ++
  s.credits.map fun c => .creditReturn c.core c.dir c.ch

/-- The command of the operator block that has been started (R357). -/
def Oper.command (o : Oper) : List Event :=
  if !bit o.pcmd 15 then []
  else
    let op := bits o.pcmd 2 0
    if op = 1 then [.form] else if op = 2 then [.resize] else if op = 3 then [.dissolve] else if op = 4 then [.pavilionReset]
    else if op = 5 then [.packageReset] else []

/-- Every step that may be due, in the default order. -/
def State.candidates (s : State) : List Event :=
  (s.cores.flatMap fun e => e.2.engineEvents e.1) ++ s.ringEvents ++
    (s.pavs.flatMap fun p =>
      (if bit p.2.pavinv 0 then [.pavinv p.1] else []) ++ (if p.2.rmclr.isEmpty then [] else [.rmclr p.1]) ++
        (if bit p.2.imgctl 0 && bit p.2.imgctl 1 then [.imageUnload p.1] else []) ++
        (if bit p.2.atctl 0 && bit p.2.atctl 1 then [.certificateChain p.1] else []) ++
        p.2.devs.flatMap fun d => d.2.events p.1 d.1) ++
    s.oper.command ++ (if bit s.oper.calw 26 then [.calendarWriteEffect] else []) ++ (if s.oper.go || s.oper.tripDue then [.modeChange] else []) ++
    (s.reclaims.flatMap fun r => if r.2.isEmpty then [] else [.reclaimWalkEnd r.1]) ++
    (s.cores.flatMap fun e => e.2.lodgeEvents e.1)

/-- Whether a step changes the state. -/
def State.changedBy (s : State) (e : Event) : Bool :=
  match runEvent e s with
  | .next t => decide (t ≠ s)
  | _ => false

/-- The domains of a core whose step is due once its next cycle has begun (R237, R241). -/
def Core.domainsDue (k : Core) : List Nat :=
  (List.range 8).filter fun dom =>
    match k.domainOwner dom with
    | none => false
    | some (c, d) =>
      let x := k.ctx c
      x.cur.runs d && x.saved.isNone && decide (x.stepAt.getD d 0 ≤ k.cycle + 1)

/-- The arbiters whose slots the schedule counts: those of a class beyond 0 that something has reached, or at which some device has a rate. At
any other one a slot changes nothing. -/
def State.slottedArbs (s : State) : List Nat :=
  let cs := s.cores.map Prod.fst
  ((cs.map (128 + ·)) ++ (cs.flatMap fun c => [256 + 2 * c, 257 + 2 * c]) ++ (List.range 8).map (512 + ·)).filter fun n =>
    (s.arbs.find? n).isSome || (s.sharing n).any fun k => decide (rateOf (s.rateAt n k) > 0)

/-- Whether an arbiter of memory or of a frame engine has something to grant (R376, R383). -/
def State.mayGrant (s : State) (n : Nat) : Bool := !(s.arb n).reqs.isEmpty || (decide (512 ≤ n) && !s.reclaims.isEmpty)

/-- The slots of the arbiters beyond class 0 in a core cycle (R370, R423): one of a promenade output, and of the others as many as the time of
the cycle holds; a slot at which the arbiter is free is an opportunity (R376). -/
def State.slotTurns (s : State) : List Turn :=
  s.slottedArbs.flatMap fun n =>
    if 256 ≤ n ∧ n < 512 then [.event (.tokenRefill n)]
    else
      let one : List Turn := .event (.tokenRefill n) :: if s.mayGrant n then [.event (.arbiterGrant n)] else []
      (List.replicate (slotsBefore n (s.time + cycleTime s.oper.cur) - slotsBefore n s.time) one).flatten

/-- Whether a visit of the dispatcher could still change a device (R385, R387). -/
def State.wantsVisit (s : State) (pav vd : Nat) : Bool :=
  let d := s.dev pav vd
  let quant := Int.ofNat (bits d.rdwrr 23 0)
  if d.launches.isEmpty && !s.hasBound pav vd then decide (d.deficit > 0)
  else
    decide (quant > 0) &&
      (!d.launches.isEmpty || decide (d.deficit < quant) || (s.pav pav).cores.any fun c => !(s.core c).inLine.isEmpty)

/-- The visits of dispatchers that are due once the next cycle has begun (R385); a dispatcher passes over none while one of its devices wants a
visit. -/
def State.visitsDue (s : State) : List Event :=
  s.pavs.filterMap fun p =>
    if p.2.visitDue (s.pavClock p.1 + 1) && p.2.enabledDevs.any (s.wantsVisit p.1) then p.2.nextVisit.map fun d => .dispatcherVisit p.1 d else none

/-- One core cycle of the package: time passes in every core (R35, R372) with the steps of domains that are due, then each core selects a
context, if it must, and issues. -/
def State.cycleTurns (s : State) : List Turn :=
  (s.cores.flatMap fun e => .event (.tokenRefill e.1) :: e.2.domainsDue.map fun d => .event (.domainStep e.1 d)) ++
    s.slotTurns ++ (s.visitsDue.map .event) ++
    s.cores.flatMap fun e =>
      match e.2.ready with
      | [] => []
      | _ => [.event (.contextSelect e.1), .issue e.1]

/-- Whether time changes anything in a core: a context is ready, a result, a step or a block is to be complete at a later cycle, or a
domain runs. -/
def Core.waitsTime (k : Core) : Bool :=
  !k.ready.isEmpty || (k.ctxs.any fun e => e.2.preempt) || (k.ctxs.any fun e => e.2.landings.any fun i => decide (k.cycle < i.2.cycle)) ||
    (match k.mxRun with | some r => decide (k.cycle < r.due) | none => false) ||
    (match k.scRun with | some o => decide (k.cycle < o.due) | none => false) ||
    ([k.mxWait, k.scWait].any fun w => match w with | some w => decide (k.cycle < w.2) | none => false) ||
    (List.range 8).any fun dom => match k.domainOwner dom with | some (c, d) => (k.ctx c).cur.runs d && (k.ctx c).saved.isNone | none => false

/-- Whether a request waits that some slot may grant: its device has a rate or a lending weight (R372, R377). -/
def State.waitsGrant (s : State) : Bool :=
  s.arbs.any fun a => a.2.reqs.any fun r => let w := s.rateAt a.1 (devKey r.pav r.vd); decide (rateOf w > 0) || rateWt w != 0

/-- Whether time changes anything in the package. -/
def State.waitsTime (s : State) : Bool :=
  (s.cores.any fun e => e.2.waitsTime) || (s.messages.any fun m => m.waiting || m.held || decide (m.wait > 0)) ||
    bit s.oper.calw 26 || s.waitsGrant || (s.reclaims.any fun e => e.2.any fun r => decide (r.next < 8192)) ||
    (s.credits.any fun c => decide (c.wait > 0)) || !s.portIn.isEmpty || s.pavs.any fun p => p.2.enabledDevs.any (s.wantsVisit p.1)

/-- The next entry of the schedule and the state that has taken it off; none where nothing is left to do. -/
def State.nextTurn (s : State) : Option (Turn × State) :=
  match s.agenda with
  | t :: rest => some (t, { s with agenda := rest })
  | [] =>
    match s.candidates.find? s.changedBy with
    | some e => some (.event e, s)
    | none =>
      if s.waitsTime then
        match s.cycleTurns with
        | t :: rest => some (t, { s with agenda := rest })
        | [] => none
      else none

/-- What the context that runs in a core comes to: its bundle's items at the state in which the core is in focus, or the state after
the trap of a fetch; nothing changes where no context runs. -/
def State.fetchTurn (s : State) (core : Nat) : Except State (List Item × State) :=
  let s1 := { s with focus := core }
  match s1.turn with
  | none => .error s1
  | some l =>
    match s1.fetch l with
    | .ok items => .ok (items, s1)
    | .error t => .error ((s1.take l).fetchTrap l t)

/-! ### Placing an instruction (log 2) -/

/-- The image that holds one bundle at an address. -/
def oneBundle (pc : Word) (bytes : List Byte) : Image :=
  { pav := 0, vd := 0, tenant := 0, base := pc, size := 24, text := Memory.setBytes [] 0 bytes, entries := [0], templates := [],
    tiles := [], banks := [], micro := [], live := [], rebinds := [], tables := [] }

/-- The state in which the next step runs the bundle of these bytes at the context in focus (log 2): the context runs a program
whose text holds them at its program counter, and the schedule issues its bundle next. -/
def State.withBundle (s : State) (bytes : List Byte) : State :=
  let k := s.core s.focus
  let c := k.running.getD 0
  let l : Loc := ⟨s.focus, c⟩
  let x := k.ctx c
  let pc := x.pc &&& ~~~0x7
  let b : Binding := x.binding.getD ⟨0, 0, 0, 1, 0, 0⟩
  let img : Image :=
    match s.images.find? b.image with
    | some i =>
      if i.base.toNat ≤ pc.toNat ∧ pc.toNat + 24 ≤ i.base.toNat + i.size then
        { i with text := i.text.setBytes (pc.toNat - i.base.toNat) bytes }
      else oneBundle pc bytes
    | none => oneBundle pc bytes
  let s1 := s.setCore s.focus { k with running := some c, taken := none }
  { s1.setCtx l { x with pc := pc, binding := some b, mode := .running, wait := none } with
    images := s.images.set b.image img
    agenda := [.issue s.focus] }

end Sys2Proof.Machine
end

