-- ==== Sys2Proof/Machine/Step.lean ====
section
/-!
DEFINITION. The step: the next entry of the schedule, whose instruction runs; and the state in which a given instruction runs next.
-/

namespace Sys2Proof.Machine

/-- One step of the package (log 3): the next step that no bundle holds, or the bundle of a running context; nothing where nothing is left
to do. -/
noncomputable def step (s : State) : Host.Outcome State Fault Refusal :=
  match s.nextTurn with
  | none => .next s
  | some (.event e, t) => exec e.instr t
  | some (.issue core, t) =>
    match t.fetchTurn core with
    | .error u => .next u
    | .ok (items, u) => exec (rowOf items) u

/-- The unit whose row a trigger is (R82): the unit itself where a row names several, else the one unit of the operation. -/
def trigUnit (u : UnitId) (op : Op) : UnitId :=
  match op with
  | .add | .sub | .mul | .mulh | .mulhn | .and | .or | .xor | .andn | .shl | .shr | .sar | .min | .max | .minn | .maxn
    | .clz | .ctz | .popc | .sext | .zext | .sel | .cmpeq | .cmpne | .cmplt | .cmple | .cmpltn | .cmplen | .cderive
    | .cnarrow | .crestrict | .cinc | .cbase | .clen | .cperm | .cseal | .cunseal | .cvalid => if u = .sx1 then .sx1 else .sx0
  | .jmp | .jmpa | .call | .calla | .ret | .bmz | .bmnz | .mark | .safe | .trap | .rte | .yield | .halt => .br
  | .pand | .por | .pxor | .pandn | .porn | .pnot | .pset | .gbase | .crr | .crw | .qos => .pd
  | .imm | .cat => .im
  | .fadd | .fsub | .fmul | .fma | .fms | .fnma | .fmin | .fmax | .fabs | .fneg | .fcadd | .fade | .fademul | .fadefma
    | .fcmpeq | .fcmplt | .fcmple | .iadd | .isub | .imul | .iand | .ior | .ixor | .ishl | .ishr | .isar | .imin | .imax
    | .iminn | .imaxn | .icmpeq | .icmplt | .icmpltn | .cvtfi | .cvtfiz | .cvtif | .cvtfb | .cvtbf | .vsel | .vperm
    | .vrot | .xchg | .radd | .rmax | .rmin => if u = .vx2 then .vx2 else if u = .vx1 then .vx1 else .vx0
  | .mpush | .minv | .mpop | .mpeek | .mreset => .mk
  | .tdesc | .tstat | .tset | .mcall | .mwr | .quant | .azero | .aread | .awrite | .anorm | .acvt => .mx
  | .scfg | .sload | .scomp | .scarry | .sapply | .sread => .sc
  | .rcp | .rsqrt | .rcpstep | .rsqstep | .exp2 | .log2 | .softplus | .sigmoid | .silu => .sf
  | .csort | .cmerge | .cthr | .cread | .cclr => .so
  | .patch | .sety | .setr | .gety | .getr | .step | .start | .stop | .dsave | .dload | .inject | .cnt => .dd
  | .fbind | .fswap | .snap | .fork | .roll | .fdrop | .fstat => .fr
  | .ld8 | .ld16 | .ld32 | .ld64 | .ldn8 | .ldn16 | .ldn32 | .ldc | .st8 | .st16 | .st32 | .st64 | .stc | .ldacq32
    | .ldacq64 | .strel32 | .strel64 | .vld | .vst | .gath | .scat | .vldx | .vstc | .fence | .fenceSc | .xfence | .hint
    | .hres | .cctl | .brel => if u = .ls1 then .ls1 else .ls0
  | .copy | .twr => if u = .cp1 then .cp1 else .cp0
  | .atadd32 | .atadd64 | .atand | .ator | .atxor | .atmax | .atmin | .atswp | .cas64 | .cas128 => .atu
  | .qput | .qget | .qsel | .rput | .rget | .launch => .qs
  | .binit | .barr | .bwait | .btest | .bexp => .tb

/-- The outcome of a bundle by its items. -/
def runItems (items : List Item) (s : State) : Host.Outcome State Fault Refusal :=
  match occupied 0 items with
  | [(slot, .move g sq b src (.trig u op))] => runTrigger (opSem op) (trigUnit u op) op ⟨slot, g, sq, b, src⟩ s
  | _ => .next (s.bundle opSem items)

/-- The same step without the row of the opcode table between the schedule and the meaning: the form that is compiled. -/
def stepFast (s : State) : Host.Outcome State Fault Refusal :=
  match s.nextTurn with
  | none => .next s
  | some (.event e, t) => runEvent e t
  | some (.issue core, t) =>
    match t.fetchTurn core with
    | .error u => .next u
    | .ok (items, u) => runItems items u

theorem runEvent_eq (e : Event) (s : State) : exec e.instr s = runEvent e s := by
  cases e <;> rfl

theorem exec_ofTrigger_sx1 (op : Op) (m : Mv) (s : State) :
    exec (ofTrigger .sx1 op m) s = runTrigger (opSem op) (trigUnit .sx1 op) op m s := by
  cases op <;> rfl

theorem exec_ofTrigger_vx1 (op : Op) (m : Mv) (s : State) :
    exec (ofTrigger .vx1 op m) s = runTrigger (opSem op) (trigUnit .vx1 op) op m s := by
  cases op <;> rfl

theorem exec_ofTrigger_vx2 (op : Op) (m : Mv) (s : State) :
    exec (ofTrigger .vx2 op m) s = runTrigger (opSem op) (trigUnit .vx2 op) op m s := by
  cases op <;> rfl

theorem exec_ofTrigger_ls1 (op : Op) (m : Mv) (s : State) :
    exec (ofTrigger .ls1 op m) s = runTrigger (opSem op) (trigUnit .ls1 op) op m s := by
  cases op <;> rfl

theorem exec_ofTrigger_cp1 (op : Op) (m : Mv) (s : State) :
    exec (ofTrigger .cp1 op m) s = runTrigger (opSem op) (trigUnit .cp1 op) op m s := by
  cases op <;> rfl

theorem exec_ofTrigger_br (op : Op) (m : Mv) (s : State) :
    exec (ofTrigger .br op m) s = runTrigger (opSem op) (trigUnit .br op) op m s := by
  cases op <;> rfl

theorem trigger_other (u : UnitId) (op : Op) (m : Mv) (h1 : u ≠ .sx1) (h2 : u ≠ .vx1) (h3 : u ≠ .vx2) (h4 : u ≠ .ls1)
    (h5 : u ≠ .cp1) : ofTrigger u op m = ofTrigger .br op m ∧ trigUnit u op = trigUnit .br op := by
  unfold ofTrigger trigUnit
  simp [h1, h2, h3, h4, h5]

theorem exec_ofTrigger (u : UnitId) (op : Op) (m : Mv) (s : State) :
    exec (ofTrigger u op m) s = runTrigger (opSem op) (trigUnit u op) op m s := by
  by_cases h1 : u = .sx1
  · subst h1; exact exec_ofTrigger_sx1 op m s
  by_cases h2 : u = .vx1
  · subst h2; exact exec_ofTrigger_vx1 op m s
  by_cases h3 : u = .vx2
  · subst h3; exact exec_ofTrigger_vx2 op m s
  by_cases h4 : u = .ls1
  · subst h4; exact exec_ofTrigger_ls1 op m s
  by_cases h5 : u = .cp1
  · subst h5; exact exec_ofTrigger_cp1 op m s
  obtain ⟨e1, e2⟩ := trigger_other u op m h1 h2 h3 h4 h5
  rw [e1, e2]
  exact exec_ofTrigger_br op m s

theorem runItems_eq (items : List Item) (s : State) : exec (rowOf items) s = runItems items s := by
  unfold rowOf runItems
  generalize occupied 0 items = l
  rcases l with _ | ⟨⟨slot, i⟩, _ | ⟨_, _⟩⟩
  · rfl
  · cases i with
    | move g sq b src d =>
      cases d with
      | trig u op => exact exec_ofTrigger u op _ s
      | _ => rfl
    | _ => rfl
  · cases i with
    | move g sq b src d => cases d <;> rfl
    | _ => rfl

/-- The compiled form is the step. -/
@[csimp] theorem step_eq_stepFast : @step = @stepFast := by
  funext s
  unfold step stepFast
  simp only [runEvent_eq, runItems_eq]

/-- The state in which an instruction of the opcode table is the next to run (log 2). -/
def State.withFetchWord (s : State) (nbits w : Nat) : State := s.withBundle (leBytes 24 (tableBundle nbits w))

end Sys2Proof.Machine
end

