-- ==== Sys2Proof/Machine/Bars.lean ====
section
/-!
DEFINITION. The register maps that a host sees through BAR0 and BAR2 of a function (R5, R6, R348, R352, R355): the word that a read returns, and
the step that a write is. Accesses are of one aligned word of 8 bytes; what a read returns has no effect on the machine.
-/

namespace Sys2Proof.Machine

/-! ### The words of the registers -/

/-- VDCTL as it reads (R350): reserved bits are 0. -/
def Dev.vdctlWord (d : Dev) : Word := d.vdctl &&& 0xFFFF0003

/-- FLOGCTL as it reads (R398); POP is always 0, since a pop is done at once. -/
def Dev.flogctl (d : Dev) : Word := BitVec.ofNat 64 (d.flog.length + min d.lost (2 ^ 32 - 1) * 2 ^ 16)

/-- FLOGD0 of a record (R398). -/
def FaultRec.d0 (r : FaultRec) : Word :=
  BitVec.ofNat 64 (r.origin % 16 + r.cls % 16 * 2 ^ 4 + r.cause % 256 * 2 ^ 8 + r.core % 128 * 2 ^ 16 + r.ctx % 4 * 2 ^ 23 +
    r.item % 128 * 2 ^ 25 + r.seq % 2 ^ 32 * 2 ^ 32)

/-- FLOGD0: the oldest record, or 0 (R398). -/
def Dev.flogd0 (d : Dev) : Word := match d.flog with | r :: _ => r.d0 | [] => 0
/-- FLOGD1: the address of the oldest record, or 0 (R398). -/
def Dev.flogd1 (d : Dev) : Word := match d.flog with | r :: _ => r.addr | [] => 0

/-- RSTAT as it reads (R374): DEBT is derived. -/
def State.rstatWord (s : State) (pav vd : Nat) : Word :=
  ((s.dev pav vd).rstat &&& 0xFFFFFFFF00000003) ||| BitVec.ofNat 64 (b2n (s.debt pav vd) * 4)

/-- A word of the block of a device (R349, R350, R398); offsets of no register read 0. -/
def State.deviceWord (s : State) (pav vd off : Nat) : Word :=
  let d := s.dev pav vd
  match off with
  | 0x00 => d.vdcfg
  | 0x08 => d.s1root
  | 0x10 => d.wbase
  | 0x18 => d.crbase
  | 0x20 => d.vdctlWord
  | 0x28 => d.flogctl
  | 0x30 => d.flogd0
  | 0x38 => d.flogd1
  | _ => 0

/-- A word of the rate block of a device (R373, R374, R382, R384). -/
def State.rateWord (s : State) (pav vd off : Nat) : Word :=
  let d := s.dev pav vd
  match off with
  | 0x00 => d.riss
  | 0x08 => d.rl2
  | 0x10 => d.rhbm
  | 0x18 => d.rlp6
  | 0x20 => d.rfrm
  | 0x28 => d.rprom
  | 0x30 => d.rdwrr
  | 0x38 => s.rstatWord pav vd
  | _ => 0

/-- PAVLEND as it reads (R375): PSLOTS is derived from the calendar. -/
def State.pavlendWord (s : State) (pav : Nat) : Word :=
  (s.pav pav).pavlend ||| BitVec.ofNat 64 (s.pslots pav * 2 ^ 16)

/-- A word of the pavilion block (R264, R356, R375, R416, R419). -/
def State.pavilionWord (s : State) (pav off : Nat) : Word :=
  let p := s.pav pav
  match off with
  | 0x00 => p.cfgWord
  | 0x08 => p.s2root
  | 0x10 => p.stbase
  | 0x18 => BitVec.ofNat 64 (b2n !p.rmclr.isEmpty)
  | 0x20 => p.pavinv
  | 0x28 => s.pavlendWord pav
  | 0x30 => p.fwctlWord
  | 0x38 => p.fwaddr
  | 0x40 => p.atctl
  | 0x48 => p.ataddr
  | 0x50 => p.imgctl
  | 0x58 => p.imgaddr
  | 0x60 => p.imgdata
  | _ => 0

/-- PMODE as it reads (R422). -/
def Oper.pmodeWord (o : Oper) : Word :=
  BitVec.ofNat 64 (o.mode % 4 + b2n o.go * 2 ^ 2 + o.cur % 4 * 2 ^ 3 + o.result % 8 * 2 ^ 5 + b2n o.cool * 2 ^ 8 + b2n o.auto * 2 ^ 9)

/-- PWRSTAT as it reads (R424). -/
def Oper.pwrstatWord (o : Oper) : Word := BitVec.ofNat 64 (o.pwr % 2 ^ 16 + capOf o.cur * 2 ^ 16 + o.holds * 2 ^ 32)

/-- THERM as it reads (R425). -/
def Oper.thermWord (o : Oper) : Word :=
  BitVec.ofNat 64 (o.t0 + o.t1 * 2 ^ 8 + o.twarn * 2 ^ 16 + tcrit * 2 ^ 24 + b2n o.warn * 2 ^ 32 + b2n o.trip * 2 ^ 33)

/-- A health counter as it reads (R427). -/
def Oper.healthWord (o : Oper) (n : Nat) : Word :=
  let h := o.health.getD n ⟨0, 0⟩
  BitVec.ofNat 64 (h.now + h.life * 2 ^ 32)

/-- HCAP as it reads (R428). -/
def Oper.hcapWord (o : Oper) : Word := BitVec.ofNat 64 (o.hcores + o.hbanks * 2 ^ 8 + o.hlines * 2 ^ 32)

/-- A word of the operator block (R357, R369, R380, R422, R424, R425, R427, R428). -/
def Oper.word (o : Oper) (off : Nat) : Word :=
  match off with
  | 0x8000 => o.pcmd
  | 0x8008 => o.pcore0
  | 0x8010 => o.pcore1
  | 0x8018 => o.pmem
  | 0x8020 => o.rxcfg
  | 0x8028 => o.calw
  | 0x8030 => o.pmodeWord
  | 0x8038 => o.pwrstatWord
  | 0x8040 => o.thermWord
  | 0x8048 => o.healthWord 0
  | 0x8050 => o.healthWord 1
  | 0x8058 => o.healthWord 2
  | 0x8060 => o.healthWord 3
  | 0x8068 => o.healthWord 4
  | 0x8070 => o.healthWord 5
  | 0x8078 => o.healthWord 6
  | 0x8080 => o.hcapWord
  | _ => 0

/-! ### The maps of BAR0 (R348, R349, R373) -/

/-- A register of BAR0: the block and the offset in it. -/
inductive Bar0 where
  | pavilion (off : Nat)
  | device (vd off : Nat)
  | rate (vd off : Nat)
  | operator (off : Nat)
  | none
  deriving DecidableEq, Repr

/-- What stands at an offset of BAR0 of a function of a pavilion: 0 is the physical function. -/
def bar0Map (pav fn off : Nat) : Bar0 :=
  if off % 8 ≠ 0 then .none
  else if fn = 0 then
    if off < 0x1000 then .pavilion off
    else if off < 0x3000 then .device ((off - 0x1000) / 64) (off % 64)
    else if 0x4000 ≤ off ∧ off < 0x6000 then .rate ((off - 0x4000) / 64) (off % 64)
    else if 0x8000 ≤ off ∧ pav = 0 then .operator off
    else .none
  else if off < 64 then .device fn off
  else if 0x400 ≤ off ∧ off < 0x440 then .rate fn (off - 0x400)
  else .none

/-- The word at an offset of BAR0 (R5, R6, R348); an offset of no register reads 0. -/
def State.bar0Word (s : State) (pav fn off : Nat) : Word :=
  match bar0Map pav fn off with
  | .pavilion o => s.pavilionWord pav o
  | .device vd o => s.deviceWord pav vd o
  | .rate vd o => s.rateWord pav vd o
  | .operator o => s.oper.word o
  | .none => 0

/-- What a read of BAR0 returns: nothing while the package does not leave reset, since its edge has not trained (R421). -/
def State.bar0Read (s : State) (pav fn off : Nat) : Option Word := if s.oper.inReset then none else some (s.bar0Word pav fn off)

/-- The step that a write of a word of BAR0 is (R5, R348, R349, R373); none where the write is ignored. -/
noncomputable def bar0Write (pav fn off : Nat) (x : Word) : Option Instr :=
  match bar0Map pav fn off with
  | .pavilion o =>
    match o with
    | 0x08 => some (.registerWrite (.s2root pav) x)
    | 0x10 => some (.registerWrite (.stbase pav) x)
    | 0x18 => some (.registerWrite (.pavctl pav) x)
    | 0x20 => some (.registerWrite (.pavinv pav) x)
    | 0x28 => some (.pavlendWrite pav x)
    | 0x30 => some (.registerWrite (.fwctl pav) x)
    | 0x38 => some (.registerWrite (.fwaddr pav) x)
    | 0x40 => some (.registerWrite (.atctl pav) x)
    | 0x48 => some (.registerWrite (.ataddr pav) x)
    | 0x50 => some (.registerWrite (.imgctl pav) x)
    | 0x58 => some (.registerWrite (.imgaddr pav) x)
    | 0x60 => some (.registerWrite (.imgdata pav) x)
    | _ => none
  | .device vd o =>
    match o with
    | 0x00 => if fn = 0 then some (.vdcfgWrite pav vd x) else none
    | 0x08 => some (.registerWrite (.s1root pav vd) x)
    | 0x10 => some (.registerWrite (.wbase pav vd) x)
    | 0x18 => some (.registerWrite (.crbase pav vd) x)
    | 0x20 => some (.registerWrite (.vdctl pav vd) x)
    | 0x28 => if bit x 7 then some (.faultLogPop pav vd) else none
    | _ => none
  | .rate vd o => if fn = 0 ∧ o < 56 then some (.rateBlockWrite pav vd (o / 8) x) else none
  | .operator o =>
    match o with
    | 0x8000 => some (.registerWrite .pcmd x)
    | 0x8008 => some (.registerWrite .pcore0 x)
    | 0x8010 => some (.registerWrite .pcore1 x)
    | 0x8018 => some (.registerWrite .pmem x)
    | 0x8020 => some (.rxcfgWrite x)
    | 0x8028 => some (.calwWrite x)
    | 0x8030 => some (.registerWrite .pmode x)
    | 0x8040 => some (.registerWrite .therm x)
    | _ => none
  | .none => none

/-! ### The map of BAR2 (R351, R352) -/

/-- LQSTAT of a queue (R352). -/
def Dev.lqstat (d : Dev) (q : Nat) : Word := BitVec.ofNat 64 (d.acc.getD q 0 + d.full.getD q 0 * 2 ^ 32)

/-- The word at an offset of BAR2: the launch aperture and offsets of no register read 0 (R351, R352). -/
def State.bar2Word (s : State) (pav vd off : Nat) : Word :=
  let d := s.dev pav vd
  if off % 8 ≠ 0 then 0
  else if 0x1000 ≤ off ∧ off < 0x1080 then d.lqstat ((off - 0x1000) / 8)
  else if off = 0x1080 then BitVec.ofNat 64 d.malf
  else if off = 0x1100 then BitVec.ofNat 64 d.crhead
  else if off = 0x1108 then BitVec.ofNat 64 d.crtail
  else 0

/-- What a read of BAR2 returns: nothing while the package does not leave reset (R421). -/
def State.bar2Read (s : State) (pav vd off : Nat) : Option Word := if s.oper.inReset then none else some (s.bar2Word pav vd off)

end Sys2Proof.Machine
end

