-- ==== Sys2Proof/Safety.lean ====
section
/-!
DEFINITION. What counts as a safe run, and the terms in which statements about one instruction are made: the operands with which a
trigger row issues, the checks that it passes, and the state after a bundle whose one move it is.
-/

namespace Sys2Proof.Machine

/-- A step that answers a next state: it stops with no fault and no refusal. -/
def Proceeds (s : State) : Prop := ∃ t, step s = .next t

/-- A run of some steps that never stops. -/
def RunsOn : Nat → State → Prop
  | 0, _ => True
  | k + 1, s => ∃ t, step s = .next t ∧ RunsOn k t

/-- What holds of a state and of every state that steps lead to from it. -/
def Always (P : State → Prop) (s : State) : Prop := ∀ k t, Sys2Proof.core.run k s = .next t → P t

/-! ### One trigger row -/

/-- The operands with which a trigger that stands alone in its bundle issues at a context: its guard is 1 (R77), its source is connected and
full and adapts to the width of its operation (R33, R80, R86), the latches that the operation consumes are valid and full (R27, R28),
its selector names a file that the operation allows (R28), and S = 1 does not stand on an operation that acts outside the context (R38). -/
def State.operands (s : State) (l : Loc) (u : UnitId) (op : Op) (m : Mv) : Option Opd :=
  let x := s.ctx l
  let sm := opSem op
  if m.slot < 8 ∧ x.cur.guard m.g = true ∧ (m.s && sm.outward) = false then
    match readSrc s l (oneItem m.slot (m.item u op)) m.slot m.src with
    | .ok (v, false) =>
      match v.adapt sm.xw with
      | some v' =>
        match readLatches x.cur (x.cur.port u) (if sm.needs v' then sm.latches else []), readSel (x.cur.port u) sm.sel with
        | .ok (vs, false), .ok r =>
          let o : Opd :=
            { slot := m.slot, unit := u, op := op, s := m.s && !sm.plainS, prov := m.s && x.inDelay && !sm.plainS, x := v',
              o1 := Table.find? vs 1, o2 := Table.find? vs 2, o3 := Table.find? vs 3, sel := r, seen := 0 }
          some { o with seen := sm.reads (s.take l) l o }
        | _, _ => none
      | none => none
    | _ => none
  else none

/-- The operands with which a row of the opcode table issues at a context. -/
def State.rowOperands (s : State) (l : Loc) (i : Instr) : Option Opd :=
  match i.trigger? with
  | some (u, op, m) => s.operands l u op m
  | none => none

/-- It is the turn of a context, and no boundary trap is due there (R35, R392 stage 1). -/
abbrev State.mayIssue (s : State) (l : Loc) : Prop := s.turn = some l ∧ (s.ctx l).boundaryTrap = none

/-- A trigger passes the checks of its own operation (R392 stages 2, 3 and 5) and has nothing to wait for (R34). -/
abbrev State.passes (s : State) (l : Loc) (o : Opd) : Prop :=
  (opSem o.op).encoding s l o = none ∧ (opSem o.op).sequence s l o = none ∧ (opSem o.op).capability s l o = none ∧
    (opSem o.op).blocks s l o = false

/-- The state in which the effects of a bundle begin: its context has taken the cycle, and the bundle is charged (R35, R379, R386). -/
def State.issued (s : State) (l : Loc) : State := (s.take l).charge l

/-- The context after a bundle whose one move is a trigger of fixed latency: its effects are in flight to the end of the bundle at
context time j + latency − 1 (R30), the latches and the selector that it consumed have stepped (R27), and the bundle has ended. -/
def Ctx.afterFixed (x : Ctx) (vc : Nat) (o : Opd) (lat : Nat) (effs : List Eff) : Ctx :=
  (x.unmarked.onView o.prov fun w =>
    ({ w with flights := w.flights ++ [⟨x.ctime + lat - 1, o.s, x.cur.inHandler, effs⟩] } : View).increment (opSem o.op) vc o.unit
      o.x).endBundle x.cur.looping

/-- No taken branch resolves at the end of this bundle, and the context waits at no fence. -/
abbrev Ctx.settled (x : Ctx) : Prop := x.resolving = false ∧ x.fence = []

/-- The state after a bundle whose one move is a trigger of fixed latency. -/
def State.fixedNext (s : State) (l : Loc) (o : Opd) (lat : Nat) (effs : List Eff) : State :=
  (s.issued l).setCtx l ((s.ctx l).afterFixed ((s.core l.core).vcount l.ctx) o lat effs)

/-- The end of a bundle whose one move was a trigger, when its operation has acted (R29 steps 5 and 6): what the operation does to the core
when every trigger has started (R245) comes first. -/
def State.closeBundle (s : State) (l : Loc) (o : Opd) (vc : Nat) (wasLooping : Bool) : State :=
  let t := ((opSem o.op).finish s l o).onView l o.prov fun w => w.increment (opSem o.op) vc o.unit o.x
  t.setCtx l ((t.ctx l).endBundle wasLooping)

/-- The state after a bundle whose one move is a trigger, when its operation has left a state. -/
def State.completed (s : State) (l : Loc) (o : Opd) (t : State) : State :=
  t.closeBundle l o ((s.core l.core).vcount l.ctx) (s.ctx l).cur.looping

/-- No taken branch is pending and no loop body is in replay: the next bundle follows in the text (R35, R36, R112). -/
abbrev Ctx.straight (x : Ctx) : Prop := x.branch = none ∧ x.fin = none ∧ x.cur.looping = false

/-- The state in which the operation of a bundle's one trigger acts. -/
def State.acting (s : State) (l : Loc) : State := (s.issued l).setCtx l (s.ctx l).unmarked

/-- The state after a row that accesses memory has issued: its bundle is held until the access is accepted (R194). -/
def State.waiting (s : State) (l : Loc) (o : Opd) : State :=
  ((s.issued l).setCtx l { (s.issued l).ctx l with held := some [.trig o] }).block l .acceptance

/-- At its acceptance the checks of an access find no fault (R193), and nothing is left for which its bundle waits (R34). -/
def State.accessible (s : State) (l : Loc) (o : Opd) : Prop :=
  ∃ check, (opSem o.op).access = some check ∧ check (s.waiting l o) l o = none ∧ (opSem o.op).blocks (s.waiting l o) l o = false

/-- A row is ready: its operands are read, it is its context's turn, and nothing else ends with its bundle. -/
abbrev State.ready (s : State) (l : Loc) (i : Instr) (o : Opd) : Prop :=
  s.rowOperands l i = some o ∧ s.mayIssue l ∧ (s.ctx l).settled

end Sys2Proof.Machine
end

