-- ==== Sys2Proof/WellFormed.lean ====
section
/-!
DEFINITION. Which terms of the syntax stand for something: the ranges of register numbers, codes, slots and unit numbers that
the encoding admits (R22, R76 to R83).
-/

namespace Sys2Proof

/-- The number of registers of a file that a source code can name (R44, R79). -/
def RFile.codes : RFile → Nat
  | .s => 64
  | .v => 64
  | .a => 32
  | .p => 128
  | .k => 8
  | .mp => 8

/-- The source codes that R79 reserves. -/
def reservedSrc (c : Nat) : Bool :=
  (0x0B0 ≤ c && c < 0x0C0) || (0x196 ≤ c && c < 0x1C0) || (0x1D4 ≤ c && c < 0x1E0) || (0x1E3 ≤ c && c < 0x200)

/-- A source that some code names. -/
def Src.wf : Src → Bool
  | .reg f n => decide (n < f.codes)
  | .imms slot | .immz slot => decide (slot < 8)
  | .immw slot => slot == 0 || slot == 2 || slot == 4 || slot == 6
  | .reserved c => reservedSrc c
  | .short _ | .res _ | .pc | .ident | .lane => true

/-- The size of a unit's block (R82). -/
def UnitId.blockSize (u : UnitId) : Nat :=
  match u.kind with
  | .sx | .vx | .dd => 0x40
  | .ls => 0x30
  | _ => 0x20

/-- The destination codes that R81 to R83 reserve on a bus class: those of no register and no unit, and offsets 10 to 15 of
each unit's block. -/
def reservedDst (bus : Bus) (c : Nat) : Bool :=
  (0xC0 ≤ c && c < 0x100) ||
    (0x100 ≤ c && c < 0x200 &&
      match findBlock c (unitBlocks bus) with
      | some (_, off) => decide (10 ≤ off ∧ off < 16)
      | none => true)

/-- A destination that some code of a bus class names. -/
def Dst.wf (bus : Bus) : Dst → Bool
  | .null => true
  | .nop c => decide (1 ≤ c ∧ c < 16)
  | .reg f n => f != .p && decide (n < f.codes)
  | .latch u i | .latchRef u i | .latchStep u i => decide (u.bus = bus ∧ 1 ≤ i ∧ i ≤ 3)
  | .sel u => decide (u.bus = bus)
  | .trig u op => decide (u.bus = bus ∧ op ∈ opsOf u.kind)
  | .unassigned u off => decide (u.bus = bus ∧ 16 + (opsOf u.kind).length ≤ off ∧ off < u.blockSize)
  | .reserved c => reservedDst bus c

/-- An item that some 24 bits of a slot stand for: a transport move has a guard field other than 0b1000 (R76). -/
def Item.wf (slot : Nat) : Item → Bool
  | .imm _ => true
  | .move g _ _ src dst => decide (g ≠ 8) && src.wf && dst.wf (slotBus slot)

/-- Items that stand in consecutive slots. -/
def itemsWf : Nat → List Item → Bool
  | _, [] => true
  | slot, it :: rest => it.wf slot && itemsWf (slot + 1) rest

/-- The move of a trigger row: a slot of the unit's bus class, a guard and a source. -/
def Mv.wf (u : UnitId) (m : Mv) : Bool :=
  decide (m.slot < 8 ∧ slotBus m.slot = u.bus ∧ m.g ≠ 8) && m.src.wf

/-- The unit number of a row that names one: 0 or 1 for sx, 0 to 2 for vx. -/
def unitNumberWf : Instr → Bool
  | .add unit _ => decide (unit < 2)
  | .sub unit _ => decide (unit < 2)
  | .mul unit _ => decide (unit < 2)
  | .mulh unit _ => decide (unit < 2)
  | .mulhn unit _ => decide (unit < 2)
  | .and unit _ => decide (unit < 2)
  | .or unit _ => decide (unit < 2)
  | .xor unit _ => decide (unit < 2)
  | .andn unit _ => decide (unit < 2)
  | .shl unit _ => decide (unit < 2)
  | .shr unit _ => decide (unit < 2)
  | .sar unit _ => decide (unit < 2)
  | .min unit _ => decide (unit < 2)
  | .max unit _ => decide (unit < 2)
  | .minn unit _ => decide (unit < 2)
  | .maxn unit _ => decide (unit < 2)
  | .clz unit _ => decide (unit < 2)
  | .ctz unit _ => decide (unit < 2)
  | .popc unit _ => decide (unit < 2)
  | .sext unit _ => decide (unit < 2)
  | .zext unit _ => decide (unit < 2)
  | .sel unit _ => decide (unit < 2)
  | .cmpeq unit _ => decide (unit < 2)
  | .cmpne unit _ => decide (unit < 2)
  | .cmplt unit _ => decide (unit < 2)
  | .cmple unit _ => decide (unit < 2)
  | .cmpltn unit _ => decide (unit < 2)
  | .cmplen unit _ => decide (unit < 2)
  | .cderive unit _ => decide (unit < 2)
  | .cnarrow unit _ => decide (unit < 2)
  | .crestrict unit _ => decide (unit < 2)
  | .cinc unit _ => decide (unit < 2)
  | .cbase unit _ => decide (unit < 2)
  | .clen unit _ => decide (unit < 2)
  | .cperm unit _ => decide (unit < 2)
  | .cseal unit _ => decide (unit < 2)
  | .cunseal unit _ => decide (unit < 2)
  | .cvalid unit _ => decide (unit < 2)
  | .fadd unit _ => decide (unit < 3)
  | .fsub unit _ => decide (unit < 3)
  | .fmul unit _ => decide (unit < 3)
  | .fma unit _ => decide (unit < 3)
  | .fms unit _ => decide (unit < 3)
  | .fnma unit _ => decide (unit < 3)
  | .fmin unit _ => decide (unit < 3)
  | .fmax unit _ => decide (unit < 3)
  | .fabs unit _ => decide (unit < 3)
  | .fneg unit _ => decide (unit < 3)
  | .fcadd unit _ => decide (unit < 3)
  | .fade unit _ => decide (unit < 3)
  | .fademul unit _ => decide (unit < 3)
  | .fadefma unit _ => decide (unit < 3)
  | .fcmpeq unit _ => decide (unit < 3)
  | .fcmplt unit _ => decide (unit < 3)
  | .fcmple unit _ => decide (unit < 3)
  | .iadd unit _ => decide (unit < 3)
  | .isub unit _ => decide (unit < 3)
  | .imul unit _ => decide (unit < 3)
  | .iand unit _ => decide (unit < 3)
  | .ior unit _ => decide (unit < 3)
  | .ixor unit _ => decide (unit < 3)
  | .ishl unit _ => decide (unit < 3)
  | .ishr unit _ => decide (unit < 3)
  | .isar unit _ => decide (unit < 3)
  | .imin unit _ => decide (unit < 3)
  | .imax unit _ => decide (unit < 3)
  | .iminn unit _ => decide (unit < 3)
  | .imaxn unit _ => decide (unit < 3)
  | .icmpeq unit _ => decide (unit < 3)
  | .icmplt unit _ => decide (unit < 3)
  | .icmpltn unit _ => decide (unit < 3)
  | .cvtfi unit _ => decide (unit < 3)
  | .cvtfiz unit _ => decide (unit < 3)
  | .cvtif unit _ => decide (unit < 3)
  | .cvtfb unit _ => decide (unit < 3)
  | .cvtbf unit _ => decide (unit < 3)
  | .vsel unit _ => decide (unit < 3)
  | .vperm unit _ => decide (unit < 3)
  | .vrot unit _ => decide (unit < 3)
  | .xchg unit _ => decide (unit < 3)
  | .radd unit _ => decide (unit < 3)
  | .rmax unit _ => decide (unit < 3)
  | .rmin unit _ => decide (unit < 3)
  | _ => true

/-- A well-formed row: a trigger in range, or a whole bundle of eight items that no trigger row stands for, or a step without
an encoding. -/
noncomputable def wellFormed (i : Instr) : Bool :=
  match i with
  | .transportMove b => decide (b.length = 8 ∧ rowOf b = .transportMove b) && itemsWf 0 b
  | _ =>
    match i.trigger? with
    | some (u, _, m) => unitNumberWf i && m.wf u
    | none => true

end Sys2Proof
end

