-- ==== Sys2Proof/Certificates/Slice0/Obligations.lean ====
section
/-!
DEFINITION. The statements for the provers, and the tables of results from which they are made, written from the rules.
-/

namespace Sys2Proof.Spec

open Sys2Proof Sys2Proof.Machine

/-- The result and the latency of an integer operation of sx, from the trigger value and the latches b and c (R99). -/
def integer (op : Op) (x b c : Word) : Option (Word × Nat) :=
  let n := b.toNat % 64
  match op with
  | .add => some (x + b, 1)
  | .sub => some (x - b, 1)
  | .mul => some (BitVec.ofNat 64 (x.toNat * b.toNat), 3)
  | .mulh => some (BitVec.ofInt 64 ((x.toInt * b.toInt) / 2 ^ 64), 3)
  | .mulhn => some (BitVec.ofNat 64 ((x.toNat * b.toNat) / 2 ^ 64), 3)
  | .and => some (x &&& b, 1)
  | .or => some (x ||| b, 1)
  | .xor => some (x ^^^ b, 1)
  | .andn => some (x &&& ~~~b, 1)
  | .shl => some (BitVec.ofNat 64 (x.toNat * 2 ^ n), 1)
  | .shr => some (BitVec.ofNat 64 (x.toNat / 2 ^ n), 1)
  | .sar => some (BitVec.ofInt 64 (x.toInt / 2 ^ n), 1)
  | .min => some (BitVec.ofInt 64 (min x.toInt b.toInt), 1)
  | .max => some (BitVec.ofInt 64 (max x.toInt b.toInt), 1)
  | .minn => some (BitVec.ofNat 64 (min x.toNat b.toNat), 1)
  | .maxn => some (BitVec.ofNat 64 (max x.toNat b.toNat), 1)
  | .clz => some (BitVec.ofNat 64 ((List.range 64).takeWhile fun i => !x.getLsbD (63 - i)).length, 1)
  | .ctz => some (BitVec.ofNat 64 ((List.range 64).takeWhile fun i => !x.getLsbD i).length, 1)
  | .popc => some (BitVec.ofNat 64 ((List.range 64).filter fun i => x.getLsbD i).length, 1)
  | .sext => some ((x.setWidth (n + 1)).signExtend 64, 1)
  | .zext => some ((x.setWidth (n + 1)).setWidth 64, 1)
  | .sel => some (if x = 0 then c else b, 1)
  | _ => none

/-- The relation of a compare (R100). -/
def relation (op : Op) (x b : Word) : Option Bool :=
  match op with
  | .cmpeq => some (decide (x = b))
  | .cmpne => some (decide (x ≠ b))
  | .cmplt => some (decide (x.toInt < b.toInt))
  | .cmple => some (decide (x.toInt ≤ b.toInt))
  | .cmpltn => some (decide (x.toNat < b.toNat))
  | .cmplen => some (decide (x.toNat ≤ b.toNat))
  | _ => none

/-- The result of a predicate operation (R107), where T(v) is v ≠ 0. -/
def predicate (op : Op) (x b : Word) : Option Bool :=
  let tx := decide (x ≠ 0)
  let tb := decide (b ≠ 0)
  match op with
  | .pand => some (tx && tb)
  | .por => some (tx || tb)
  | .pxor => some (tx != tb)
  | .pandn => some (tx && !tb)
  | .porn => some (tx || !tb)
  | .pnot => some (!tx)
  | .pset => some (x.getLsbD (b.toNat % 64))
  | _ => none

/-- A capability with its tag at 1 and given BASE, LEN, PERM and TENANT; the reserved bits are 0 (R101). -/
def capability (base len : BitVec 57) (perm tenant : Byte) : Cap :=
  ⟨(0 : BitVec 7) ++ tenant ++ perm ++ (len.setWidth 48) ++ base, true⟩

/-- What a deriving operation requires of its operand and what it makes of it: the capability, or the cause of the fault (R105). The cause
codes are those of R397: 1 tag, 2 sealed, 4 permission, 5 bounds. -/
def derive (op : Op) (x : Cap) (b c : Word) (k : Cap) : Option (Except Nat Cap) :=
  let base : BitVec 57 := x.raw.extractLsb' 0 57
  let len : BitVec 48 := x.raw.extractLsb' 57 48
  let perm : Byte := x.raw.extractLsb' 105 8
  let tenant : Byte := x.raw.extractLsb' 113 8
  let kbase : BitVec 57 := k.raw.extractLsb' 0 57
  let klen : BitVec 48 := k.raw.extractLsb' 57 48
  let kperm : Byte := k.raw.extractLsb' 105 8
  let ktenant : Byte := k.raw.extractLsb' 113 8
  let unsealed (r : Except Nat Cap) : Except Nat Cap := if !x.tag then .error 1 else if perm.getLsbD 6 then .error 2 else r
  match op with
  | .cderive =>
    some (unsealed (if b.toNat ≤ len.toNat ∧ c.toNat ≤ len.toNat - b.toNat then
      .ok (capability (base + b.setWidth 57) (c.setWidth 57) perm tenant) else .error 5))
  | .cnarrow =>
    some (unsealed (if b.toNat ≤ len.toNat then .ok (capability base (b.setWidth 57) perm tenant) else .error 5))
  | .cinc =>
    some (unsealed (if b.toNat ≤ len.toNat then
      .ok (capability (base + b.setWidth 57) (len.setWidth 57 - b.setWidth 57) perm tenant) else .error 5))
  | .crestrict =>
    let m : Byte := b.setWidth 8
    some (unsealed (.ok (capability base (len.setWidth 57) ((perm &&& m &&& 0x8F) ||| (perm &&& 0x70) ||| (m &&& 0x30)) tenant)))
  | .cseal => some (unsealed (.ok (capability base (len.setWidth 57) (perm ||| 0x40) tenant)))
  | .cunseal =>
    some (if !x.tag then .error 1 else if !perm.getLsbD 6 then .error 2
      else if k.tag ∧ kperm.getLsbD 6 = false ∧ ktenant = tenant ∧ kbase.toNat ≤ base.toNat ∧
          base.toNat + len.toNat ≤ kbase.toNat + klen.toNat ∧ perm &&& ~~~kperm &&& 0x8F = 0 ∧ kperm &&& ~~~perm &&& 0x30 = 0 then
        .ok (capability base (len.setWidth 57) (perm &&& ~~~0x40) tenant)
      else .error 4)
  | _ => none

/-- What an inspecting operation reads from a capability (R106). -/
def inspect (op : Op) (x : Cap) : Option Word :=
  match op with
  | .cbase => some ((x.raw.extractLsb' 0 57).setWidth 64)
  | .clen => some ((x.raw.extractLsb' 57 48).setWidth 64)
  | .cperm => some ((BitVec.ofBool x.tag ++ x.raw.extractLsb' 113 8 ++ x.raw.extractLsb' 105 8 : BitVec 17).setWidth 64)
  | .cvalid => some (if x.tag then 1 else 0)
  | _ => none

/-- The mask stack, top first, and the result of an operation of mk, where its condition on the depth holds; else the cause of the sequence
trap (R136): 2 mask overflow, 3 mask underflow (R396). -/
def stack (op : Op) (ms : List Mask) (x : Mask) : Option (Except Nat (List Mask × Mask)) :=
  let entry (k : Nat) : Mask := ms.getD k (BitVec.allOnes 128)
  match op with
  | .mpush => some (if ms.length < 16 then .ok ((entry 0 &&& x) :: ms, entry 0 &&& x) else .error 2)
  | .minv => some (if ms.length ≥ 1 then .ok ((entry 1 &&& ~~~entry 0) :: ms.tail, entry 1 &&& ~~~entry 0) else .error 3)
  | .mpop => some (if ms.length ≥ 1 then .ok (ms.tail, entry 1) else .error 3)
  | .mpeek => some (.ok (ms, entry (x.toNat % 16)))
  | .mreset => some (.ok ([], BitVec.allOnes 128))
  | _ => none

/-- Lane i of the result, the flags it raises, and the latency, for the operations of vx and sf that work on each lane alone: of the
lanes i of the trigger value, of b and of c (R125, R126, R128, R130, R132, R137). -/
def laneOp (op : Op) (x b c : Lane) : Option (Lane × Nat × Nat) :=
  let n := b.toNat % 32
  let plain (lat : Nat) (y : Lane) : Option (Lane × Nat × Nat) := some (y, 0, lat)
  let flagged (lat : Nat) (y : Lane × Nat) : Option (Lane × Nat × Nat) := some (y.1, y.2, lat)
  match op with
  | .fadd => flagged 4 (fadd x b)
  | .fsub => flagged 4 (fsub x b)
  | .fmul => flagged 4 (fmul x b)
  | .fma => flagged 4 (ffma x b c)
  | .fms => flagged 4 (ffma x b (c ^^^ 0x80000000))
  | .fnma => flagged 4 (ffma (x ^^^ 0x80000000) b c)
  | .fmin => flagged 2 (fpick false x b)
  | .fmax => flagged 2 (fpick true x b)
  | .fabs => plain 2 (x &&& 0x7FFFFFFF)
  | .fneg => plain 2 (x ^^^ 0x80000000)
  | .fade => flagged 4 (faded (canonical x))
  | .fademul => flagged 4 (faded (fmul x b))
  | .fadefma => flagged 4 (faded (ffma x b c))
  | .iadd => plain 2 (x + b)
  | .isub => plain 2 (x - b)
  | .imul => plain 3 (BitVec.ofNat 32 (x.toNat * b.toNat))
  | .iand => plain 2 (x &&& b)
  | .ior => plain 2 (x ||| b)
  | .ixor => plain 2 (x ^^^ b)
  | .ishl => plain 2 (BitVec.ofNat 32 (x.toNat * 2 ^ n))
  | .ishr => plain 2 (BitVec.ofNat 32 (x.toNat / 2 ^ n))
  | .isar => plain 2 (BitVec.ofInt 32 (x.toInt / 2 ^ n))
  | .imin => plain 2 (BitVec.ofInt 32 (min x.toInt b.toInt))
  | .imax => plain 2 (BitVec.ofInt 32 (max x.toInt b.toInt))
  | .iminn => plain 2 (BitVec.ofNat 32 (min x.toNat b.toNat))
  | .imaxn => plain 2 (BitVec.ofNat 32 (max x.toNat b.toNat))
  | .cvtfi => flagged 3 (cvtfi true x)
  | .cvtfiz => flagged 3 (cvtfi false x)
  | .cvtif => flagged 3 (cvtif x.toInt)
  | .cvtfb => some ((toB16 b).1 ++ (toB16 x).1, (toB16 x).2 ||| (toB16 b).2, 3)
  | .cvtbf => plain 3 (ofB16 (x.extractLsb' (if b.getLsbD 0 then 16 else 0) 16))
  | .rcp => flagged 4 (rcp x)
  | .rsqrt => flagged 4 (rsqrt x)
  | .rcpstep => flagged 8 (rcpstep b x)
  | .rsqstep => flagged 8 (rsqstep b x)
  | .exp2 => flagged 6 (exp2 x)
  | .log2 => flagged 6 (log2 x)
  | .softplus => flagged 10 (softplus x)
  | .sigmoid => flagged 10 (sigmoid x)
  | .silu => flagged 10 (silu x)
  | _ => none

/-- Lane i of the result and the latency of the operations that move lanes (R133), with c := i div 16 and j := i mod 16. -/
def laneMove (op : Op) (o : Opd) (i : Nat) : Option (Lane × Nat) :=
  match op with
  | .vsel => some (if o.xm.getLsbD i then lane o.bv i else lane o.cv i, 2)
  | .vperm => some (lane o.xv (16 * (i / 16) + (lane o.bv i).toNat % 16), 2)
  | .vrot => some (lane o.xv (16 * (i / 16) + (i % 16 + (lane o.bv (16 * (i / 16))).toNat % 16) % 16), 2)
  | .xchg => some (lane o.xv (16 * ((lane o.bv i).toNat % 8) + i % 16), 6)
  | _ => none

/-- The relation of a vector compare in one lane and the flags it raises (R129, R131). -/
def laneRelation (op : Op) (x b : Lane) : Option (Bool × Nat) :=
  match op with
  | .fcmpeq => some (fequal x b, compareFlags false x b)
  | .fcmplt => some (fless x b, compareFlags true x b)
  | .fcmple => some (fless x b || fequal x b, compareFlags true x b)
  | .icmpeq => some (decide (x = b), 0)
  | .icmplt => some (decide (x.toInt < b.toInt), 0)
  | .icmpltn => some (decide (x.toNat < b.toNat), 0)
  | _ => none

/-- The lane mask: the top of the mask stack, all ones at depth 0 (R124). -/
def mask (x : Ctx) : Mask := x.cur.stack.getD 0 (BitVec.allOnes 128)

/-- The flags that the enabled lanes raise together. -/
def flagsOf (m : Mask) (f : Nat → Nat) (fl : Nat) : Prop :=
  ∀ k, fl.testBit k = true ↔ ∃ i, i < 128 ∧ m.getLsbD i = true ∧ (f i).testBit k = true

/-- The fixed tree of a reduction over 2^k places from place m on (R134): an absent argument passes the other unchanged. -/
def tree (f : Lane → Lane → Lane × Nat) (t : Nat → Option Lane) : Nat → Nat → Option Lane
  | 0, m => t m
  | k + 1, m =>
    match tree f t k (2 * m), tree f t k (2 * m + 1) with
    | some p, some q => some (f p q).1
    | some p, none => some p
    | none, q => q

/-- The flags of the operations of that tree that are performed (R134): those with both arguments. -/
def treeFlags (f : Lane → Lane → Lane × Nat) (t : Nat → Option Lane) : Nat → Nat → Nat
  | 0, _ => 0
  | k + 1, m =>
    treeFlags f t k (2 * m) ||| treeFlags f t k (2 * m + 1) |||
      match tree f t k (2 * m), tree f t k (2 * m + 1) with
      | some p, some q => (f p q).2
      | _, _ => 0

/-- The operation of a reduction, with its flags (R134). -/
def treeOp (op : Op) : Option (Lane → Lane → Lane × Nat) :=
  match op with
  | .radd => some fadd
  | .rmax => some (fpick true)
  | .rmin => some (fpick false)
  | _ => none

/-- The score of a candidate as a number that orders scores, with +0 and −0 equal (R139, R140). -/
def score (c : Word) : Int :=
  if c.getLsbD 31 then -Int.ofNat (c.extractLsb' 0 31).toNat else Int.ofNat (c.extractLsb' 0 31).toNat

/-- Whether a candidate ranks before another (R140), each with its place among the entries of the file and, after them, the new candidates
in lane order: the higher score, then the lower identifier, then the earlier place. -/
def ranks (p q : Word × Nat) : Prop :=
  score q.1 < score p.1 ∨ (score p.1 = score q.1 ∧
    ((p.1.extractLsb' 32 32).toNat < (q.1.extractLsb' 32 32).toNat ∨
      ((p.1.extractLsb' 32 32).toNat = (q.1.extractLsb' 32 32).toNat ∧ p.2 < q.2)))

/-- The word 0 or 1. -/
def flag (b : Bool) : Word := if b then 1 else 0

/-- The trigger codes of sx0 for the integer operations (R99). -/
def integerCodes : List (Op × Nat) :=
  [(.add, 0x110), (.sub, 0x111), (.mul, 0x112), (.mulh, 0x113), (.mulhn, 0x114), (.and, 0x115), (.or, 0x116), (.xor, 0x117),
    (.andn, 0x118), (.shl, 0x119), (.shr, 0x11A), (.sar, 0x11B), (.min, 0x11C), (.max, 0x11D), (.minn, 0x11E), (.maxn, 0x11F),
    (.clz, 0x120), (.ctz, 0x121), (.popc, 0x122), (.sext, 0x123), (.zext, 0x124), (.sel, 0x125)]

/-- The trigger codes of sx0 for the deriving capability operations (R105). -/
def deriveCodes : List (Op × Nat) :=
  [(.cderive, 0x12C), (.cnarrow, 0x12D), (.cinc, 0x12F), (.crestrict, 0x12E), (.cseal, 0x133), (.cunseal, 0x134)]

end Sys2Proof.Spec

open Sys2Proof Sys2Proof.Machine

/-- The operations of a list require a selector that names one of some files: one that names another file is an illegal encoding of
cause 9 at the slot of the trigger (R28, R395). -/
def Sys2Proof.Spec.SelectorsMustName (ops : List (Op × Nat)) (files : List RFile) : Prop :=
  ∀ (i : Instr) (s : State) (l : Loc) (u : UnitId) (op : Op) (m : Mv) (v v' : Value) (vs : List (Nat × Value)) (r : RegRef) (f : RFile),
    s.mayIssue l → i.trigger? = some (u, op, m) → op ∈ ops.map Prod.fst → m.slot < 8 → (s.ctx l).cur.guard m.g = true →
    readSrc s l (oneItem m.slot (m.item u op)) m.slot m.src = .ok (v, false) → v.adapt (opSem op).xw = some v' →
    readLatches (s.ctx l).cur ((s.ctx l).cur.port u) (opSem op).latches = .ok (vs, false) →
    ((s.ctx l).cur.port u).sel = some r → r.file = some f → f ∉ files →
    exec i s = .next ((s.take l).takeTrap l (illegal 9) m.slot false (s.ctx l).pc)

/-- The trigger codes of a list of operations: those of sx0 as listed, those of sx1 0x40 higher (R84). -/
def Sys2Proof.Spec.CodesOfSx (ops : List (Op × Nat)) : Prop :=
  ∀ p ∈ ops, encodeDst (.trig .sx0 p.1) = p.2 ∧ encodeDst (.trig .sx1 p.1) = p.2 + 0x40

/-- The integer operations of sx (R99): each completes with the result of the table at its latency, written to the register that its selector
names and to unit.res, and the state after it is given whole, so nothing else changes; a selector that names a file other than s and mp is an illegal
encoding; and the trigger codes are those of the table. -/
def Obligations.IntegerOperationsGiveTheTableResult : Prop :=
  (∀ (i : Instr) (s : State) (l : Loc) (o : Opd) (r : Word) (lat : Nat), s.ready l i o →
    Spec.integer o.op o.xw o.b o.c = some (r, lat) →
    exec i s = .next (s.fixedNext l o lat (o.resultEffs (.word r) none))) ∧
  Spec.SelectorsMustName Spec.integerCodes [.s, .mp] ∧ Spec.CodesOfSx Spec.integerCodes

/-- The compares of sx (R100) and the predicate operations of pd (R107): 1 where the relation or the result holds, else 0, with latency 1. -/
def Sys2Proof.Spec.ComparesAndPredicatesGiveZeroOrOne : Prop :=
  ∀ (i : Instr) (s : State) (l : Loc) (o : Opd) (r : Bool), s.ready l i o →
    (Spec.relation o.op o.xw o.b = some r ∨ Spec.predicate o.op o.xw o.b = some r) →
    exec i s = .next (s.fixedNext l o 1 (o.resultEffs (.word (Spec.flag r)) none))

/-- The deriving capability operations (R105): each completes with the derived capability where its requirements hold, and takes the capability
fault of the first requirement that fails, before anything of its bundle takes effect; a selector that names a file other than a is an illegal
encoding; and the trigger codes are those of the table. A BASE of 2^57, for which its field has no room, becomes 0: the model's choice (log 31). -/
def Obligations.CapabilityDerivationsOrTheirFault : Prop :=
  (∀ (i : Instr) (s : State) (l : Loc) (o : Opd) (r : Except Nat Cap), s.ready l i o →
    Spec.derive o.op o.xc o.b o.c o.k = some r →
    match r with
    | .ok y => exec i s = .next (s.fixedNext l o 1 (o.resultEffs (.cap y) none))
    | .error c => o.prov = false → exec i s = .next ((s.take l).takeTrap l (capTrap c 0) o.slot false (s.ctx l).pc)) ∧
  Spec.SelectorsMustName Spec.deriveCodes [.a] ∧ Spec.CodesOfSx Spec.deriveCodes

/-- The inspecting capability operations (R106) never fault: for any capability, sealed or untagged, each completes with the field it reads. -/
def Sys2Proof.Spec.CapabilityInspectionsNeverFault : Prop :=
  ∀ (i : Instr) (s : State) (l : Loc) (o : Opd) (r : Word), s.ready l i o → Spec.inspect o.op o.xc = some r →
    exec i s = .next (s.fixedNext l o 1 (o.resultEffs (.word r) none))

/-- IMM delivers x; CAT places x mod 2^32 above b mod 2^32 (R109). -/
def Sys2Proof.Spec.ImmediateOperationsDeliverConstants : Prop :=
  ∀ (i : Instr) (s : State) (l : Loc) (o : Opd), s.ready l i o →
    (o.op = .imm → exec i s = .next (s.fixedNext l o 1 (o.resultEffs (.word o.xw) none))) ∧
    (o.op = .cat → exec i s = .next
      (s.fixedNext l o 1 (o.resultEffs (.word ((o.xw.setWidth 32 ++ o.b.setWidth 32 : BitVec 64))) none)))

/-- The compares, the predicate operations, the inspections of a capability and the immediates (R100, R106, R107, R109) complete with their
results. -/
def Obligations.ScalarTestsInspectionsAndImmediatesGiveTheirResult : Prop :=
  Spec.ComparesAndPredicatesGiveZeroOrOne ∧ Spec.CapabilityInspectionsNeverFault ∧ Spec.ImmediateOperationsDeliverConstants

/-- The mask-stack operations (R135, R136): each sets the depth of the stack and writes an entry of it, which make the new stack of the table, with
its result; or it takes the sequence trap by the depth. Outside loop bodies and delay bundles the context then has the new stack. -/
def Obligations.MaskOperationsChangeTheStack : Prop :=
  ∀ (i : Instr) (s : State) (l : Loc) (o : Opd) (r : Except Nat (List Mask × Mask)), s.ready l i o →
    Spec.stack o.op (s.ctx l).cur.stack o.xm = some r →
    match r with
    | .ok (ms, y) => ∃ depth put, ((s.ctx l).cur.effect o.s (.stack depth put)).stack = ms ∧
        exec i s = .next (s.fixedNext l o 1 (.stack depth put :: o.resultEffs (.mask y) none)) ∧
        ((s.ctx l).straight → (s.ctx l).cur.flights = [] →
          ((s.fixedNext l o 1 (.stack depth put :: o.resultEffs (.mask y) none)).ctx l).cur.stack = ms)
    | .error c => o.prov = false → exec i s = .next ((s.take l).takeTrap l (sequenceTrap c) o.slot false (s.ctx l).pc)

/-- The lane operations of vx and sf (R125, R126, R128, R130, R132, R137) complete: each enabled lane receives the table's result, and the flags
are those that the enabled lanes raise (R124). -/
def Sys2Proof.Spec.LaneOperationsGiveTheTableResult : Prop :=
  ∀ (i : Instr) (s : State) (l : Loc) (o : Opd) (f : Nat → Lane × Nat) (lat : Nat), s.ready l i o →
    (∀ j, j < 128 → Spec.laneOp o.op (lane o.xv j) (lane o.bv j) (lane o.cv j) = some ((f j).1, (f j).2, lat)) →
    ∃ v fl, exec i s = .next (s.fixedNext l o lat (o.resultEffs (.vec v) (some (Spec.mask (s.ctx l))) ++ [.flags fl])) ∧
      (∀ j, j < 128 → (Spec.mask (s.ctx l)).getLsbD j = true → lane v j = (f j).1) ∧
      Spec.flagsOf (Spec.mask (s.ctx l)) (fun j => (f j).2) fl

/-- VSEL, VPERM, VROT and XCHG (R133) complete: each enabled lane receives the lane that the table names, from enabled and disabled lanes
alike, and no flag is raised. -/
def Sys2Proof.Spec.LaneMovesGiveTheTableResult : Prop :=
  ∀ (i : Instr) (s : State) (l : Loc) (o : Opd) (f : Nat → Lane) (lat : Nat), s.ready l i o →
    (∀ j, j < 128 → Spec.laneMove o.op o j = some (f j, lat)) →
    ∃ v, exec i s = .next (s.fixedNext l o lat (o.resultEffs (.vec v) (some (Spec.mask (s.ctx l))) ++ [.flags 0])) ∧
      ∀ j, j < 128 → (Spec.mask (s.ctx l)).getLsbD j = true → lane v j = f j

/-- The vector compares (R129, R131) complete: each enabled bit of the result is the relation of its lane. -/
def Sys2Proof.Spec.VectorComparesGiveTheRelation : Prop :=
  ∀ (i : Instr) (s : State) (l : Loc) (o : Opd) (f : Nat → Bool × Nat), s.ready l i o →
    (∀ j, j < 128 → Spec.laneRelation o.op (lane o.xv j) (lane o.bv j) = some (f j)) →
    ∃ k fl, exec i s = .next (s.fixedNext l o 2 (o.resultEffs (.mask k) (some (Spec.mask (s.ctx l))) ++ [.flags fl])) ∧
      (∀ j, j < 128 → (Spec.mask (s.ctx l)).getLsbD j = true → k.getLsbD j = (f j).1) ∧
      Spec.flagsOf (Spec.mask (s.ctx l)) (fun j => (f j).2) fl

/-- The operations of vx and sf on lanes, the lane moves and the vector compares (R124 to R126, R128 to R133, R137) complete with the results of
their tables. -/
def Obligations.LaneOperationsMovesAndComparesGiveTheTableResult : Prop :=
  Spec.LaneOperationsGiveTheTableResult ∧ Spec.LaneMovesGiveTheTableResult ∧ Spec.VectorComparesGiveTheRelation

/-- RADD, RMAX and RMIN (R134) complete: every enabled lane of a cluster receives the value of the cluster's tree over its enabled lanes, and the
flags are those of the operations that the trees of the eight clusters perform. -/
def Sys2Proof.Spec.ReductionsFollowTheFixedTree : Prop :=
  ∀ (i : Instr) (s : State) (l : Loc) (o : Opd) (f : Lane → Lane → Lane × Nat), s.ready l i o → Spec.treeOp o.op = some f →
    let t (m : Nat) : Option Lane := if (Spec.mask (s.ctx l)).getLsbD m then some (lane o.xv m) else none
    ∃ v fl, exec i s = .next (s.fixedNext l o 5 (o.resultEffs (.vec v) (some (Spec.mask (s.ctx l))) ++ [.flags fl])) ∧
      (∀ j, j < 128 → (Spec.mask (s.ctx l)).getLsbD j = true → some (lane v j) = Spec.tree f t 4 (j / 16)) ∧
      ∀ k, fl.testBit k = true ↔ ∃ c, c < 8 ∧ (Spec.treeFlags f t 4 c).testBit k = true

/-- FCADD (R127) completes: in each enabled lane the sum goes to v[n] and to vx.res and the compensation to v[(n + 1) mod V] at one result time;
with a selector of no file the compensation is discarded; the flags are those of the roundings of the sum and of the compensation. -/
def Sys2Proof.Spec.CompensatedAddWritesBothRegisters : Prop :=
  ∀ (i : Instr) (s : State) (l : Loc) (o : Opd), s.ready l i o → o.op = .fcadd →
    ∃ v c fl, exec i s = .next (s.fixedNext l o 5
        (o.resultEffs (.vec v) (some (Spec.mask (s.ctx l))) ++
          (match o.dest with
          | some (_, n) => [.reg .v ((n + 1) % (s.core l.core).vcount l.ctx) (.vec c) (some (Spec.mask (s.ctx l)))]
          | none => []) ++ [.flags fl])) ∧
      let sum (j : Nat) : Lane × Nat := fadd (lane o.bv j) (lane o.xv j)
      let comp (j : Nat) : Lane × Nat :=
        let z := (fsub (sum j).1 (lane o.bv j)).1
        let e := (fadd (fsub (lane o.bv j) (fsub (sum j).1 z).1).1 (fsub (lane o.xv j) z).1).1
        fadd (lane o.cv j) (if bits (sum j).1 30 23 = 255 then 0 else e)
      (∀ j, j < 128 → (Spec.mask (s.ctx l)).getLsbD j = true → lane v j = (sum j).1 ∧ lane c j = (comp j).1) ∧
      Spec.flagsOf (Spec.mask (s.ctx l)) (fun j => (sum j).2 ||| (comp j).2) fl

/-- What the operations of so do to the candidate file when they act (R139 to R142). A merge ranks the entries, or none of them for CSORT, with
the new candidates, the NaN scores left out, keeps the first 64, raises NV for a NaN and returns the score of cf.63, or minus infinity
where the file is not full, and the count. CTHR leaves the file and gives 1 in each lane that would enter it. CREAD gives an entry, empty
beyond the count. CCLR empties the file and gives the count that it had. -/
def Sys2Proof.Spec.CandidateFileFollowsTheRanking : Prop :=
  ∀ (h : Bool) (w : View) (u : UnitId) (dest : Option (RFile × Nat)),
    let entry (j : Nat) : Word := w.cf.getD j 0xFFFFFFFFFF800000
    (∀ (fresh : Bool) (cands : List (Lane × Lane)),
      let old := if fresh then [] else w.cf
      let new := (cands.filter fun c => !isNaN c.1).map fun c => (c.2 ++ c.1 : Word)
      old.zipIdx.Pairwise Spec.ranks →
      ∃ c : List (Word × Nat), c.Perm (old ++ new).zipIdx ∧ c.Pairwise Spec.ranks ∧
        let file := (c.map Prod.fst).take 64
        let w1 : View := { w with cf := file }
        let last : Lane := if file.length = 64 then (file.getD 63 0).setWidth 32 else 0xFF800000
        w.effect h (.merge u dest fresh cands) =
          (if ∃ d ∈ cands, isNaN d.1 = true then w1.raise 1 else w1).deliver h u dest
            (.word ((BitVec.ofNat 32 file.length ++ last : Word))) none) ∧
    (∀ (x : Vec) (m : Mask), ∃ v, w.effect h (.threshold u dest x m) = w.deliver h u dest (.vec v) (some m) ∧
      ∀ j, j < 128 → lane v j =
        if isNaN (lane x j) = false ∧ (w.cf.length < 64 ∨ Spec.score (entry 63) < Spec.score ((lane x j).setWidth 64)) then 1 else 0) ∧
    (∀ j, w.effect h (.candidate u dest j) = w.deliver h u dest (.word (entry j)) none) ∧
    w.effect h (.clear u dest) = ({ w with cf := [] } : View).deliver h u dest (.word (BitVec.ofNat 64 w.cf.length)) none

/-- The operations of so (R141, R142) complete: each acts on the candidate file at its result time, with the enabled lanes' scores and
identifiers of its trigger. -/
def Sys2Proof.Spec.SorterOperationsActAtTheirResultTime : Prop :=
  ∀ (i : Instr) (s : State) (l : Loc) (o : Opd), s.ready l i o →
    let m := Spec.mask (s.ctx l)
    let cands := ((List.range 128).filter fun j => m.getLsbD j).map fun j => (lane o.xv j, lane o.bv j)
    (o.op = .csort → exec i s = .next (s.fixedNext l o 8 [.merge o.unit o.dest true cands])) ∧
    (o.op = .cmerge → exec i s = .next (s.fixedNext l o 8 [.merge o.unit o.dest false cands])) ∧
    (o.op = .cthr → exec i s = .next (s.fixedNext l o 2 [.threshold o.unit o.dest o.xv m])) ∧
    (o.op = .cread → exec i s = .next (s.fixedNext l o 2 [.candidate o.unit o.dest (o.xw.toNat % 64)])) ∧
    (o.op = .cclr → exec i s = .next (s.fixedNext l o 1 [.clear o.unit o.dest]))

/-- The reductions, FCADD and the operations of the sorter (R127, R134, R139 to R142) complete, with their flags and with what the sorter does to
the candidate file. -/
def Obligations.ReductionsCompensatedAddsAndSorterComplete : Prop :=
  Spec.ReductionsFollowTheFixedTree ∧ Spec.CompensatedAddWritesBothRegisters ∧ Spec.SorterOperationsActAtTheirResultTime ∧
    Spec.CandidateFileFollowsTheRanking

/-! ### Control -/

/-- Whether a transfer is relative to the bundle, whether it is taken by the top of the mask stack, and whether it links (R110). -/
def Sys2Proof.Spec.transferOf (op : Op) (top : Mask) : Option (Bool × Bool × Bool) :=
  match op with
  | .jmp => some (true, true, false)
  | .jmpa => some (false, true, false)
  | .call => some (true, true, true)
  | .calla => some (false, true, true)
  | .ret => some (false, true, false)
  | .bmz => some (true, decide (top = 0), false)
  | .bmnz => some (true, decide (top ≠ 0), false)
  | _ => none

/-- The transfers of br (R36, R110): from a bundle that is no delay bundle and in no loop body, to an aligned target that lies in the text where
the transfer is taken, each completes; a taken one has its target pending for after two delay bundles, one that is not taken goes on, and a
call writes the address of the bundle after the delay bundles to the register that its selector names. -/
def Obligations.TransfersPendTheirTarget : Prop :=
  ∀ (i : Instr) (s : State) (l : Loc) (o : Opd) (rel taken link : Bool), s.ready l i o → (s.ctx l).straight →
    Spec.transferOf o.op (Spec.mask (s.ctx l)) = some (rel, taken, link) →
    let target : Word := if rel then (s.ctx l).pc + o.xw else o.xw
    target.toNat % 8 = 0 → (taken = true → s.inText l target = true) →
    ∃ t, exec i s = .next t ∧ (t.ctx l).pc = (s.ctx l).pc + 24 ∧
      (t.ctx l).branch = (if taken then some (1, target) else none) ∧
      ∀ n, link = true → o.dest = some (.s, n) → (t.ctx l).cur.readReg .s n = .word ((s.ctx l).pc + 72)

/-- The operand of a br trigger is no illegal encoding (R75, R113, R118, R247 to R249), which would stand before a sequence trap: an aligned
target, a loop word that MARK accepts, a list offset, a code, an exit code, and an aligned TEPC in a handler. -/
def Sys2Proof.Spec.branchOperandFits (x : Ctx) (o : Opd) : Prop :=
  let stages := (o.xw.extractLsb' 6 5).toNat
  let sp := (o.xw.extractLsb' 11 7).toNat
  let passes := (o.xw.extractLsb' 25 24).toNat
  match o.op with
  | .jmpa | .calla | .ret => o.xw.toNat % 8 = 0
  | .jmp | .call | .bmz | .bmnz => (x.pc + o.xw).toNat % 8 = 0
  | .mark =>
    passes ≠ 0 ∧ o.xw.extractLsb' 49 15 = 0 ∧ (stages ≠ 0 → sp ≠ 0 ∧ sp + stages ≤ 128 ∧ stages ≤ passes) ∧
      (o.xw.getLsbD 24 = true → (o.xw.extractLsb' 18 6).toNat ≤ 58)
  | .safe => o.xw.toNat < 2 ^ 32 ∧ o.xw.toNat % 4 = 0
  | .trap => o.xw.toNat < 2 ^ 16
  | .halt => o.xw.toNat < 2 ^ 32
  | .rte => x.cur.ctl.hndst.getLsbD 0 = true → x.cur.ctl.tepc.toNat % 8 = 0
  | _ => True

/-- Any br trigger, with S = 0 or 1, in a delay bundle of a taken branch, or in a loop body, but for a marker in the body's last bundle, takes the
sequence trap of cause 1 (R39, R116), and its bundle takes no effect. -/
def Sys2Proof.Spec.BranchTriggersInDelayBundlesOrLoopsTrap : Prop :=
  ∀ (i : Instr) (s : State) (l : Loc) (o : Opd), s.rowOperands l i = some o → s.mayIssue l → o.op ∈ opsOf .br →
    Spec.branchOperandFits (s.ctx l) o →
    ((s.ctx l).branch.isSome = true ∨ ((s.ctx l).cur.looping = true ∧
      ¬ (o.op = .safe ∧ (s.ctx l).cur.ctl.loopst.extractLsb' 0 6 = (s.ctx l).cur.ctl.loopwd.extractLsb' 0 6))) →
    exec i s = .next ((s.take l).takeTrap l (sequenceTrap 1) o.slot false (s.ctx l).pc)

/-- An empty bundle (R76) moves nothing: without a branch the next bundle follows; as the first delay bundle of a taken branch it leaves the
branch to the second, and after the second the next bundle is at the target, with what the branch is to kill withdrawn (R36, R37). -/
def Obligations.TakenBranchResolvesAfterTwoDelayBundles : Prop :=
  ∀ (s : State) (l : Loc), s.mayIssue l → (s.ctx l).fence = [] → (s.ctx l).cur.looping = false →
    ∃ t, exec (.transportMove (List.replicate 8 Item.empty)) s = .next t ∧ (t.ctx l).ctime = (s.ctx l).ctime + 1 ∧
      ((s.ctx l).branch = none → (t.ctx l).branch = none ∧ (t.ctx l).pc = (s.ctx l).pc + 24) ∧
      (∀ target, (s.ctx l).branch = some (1, target) → (t.ctx l).branch = some (2, target) ∧ (t.ctx l).pc = (s.ctx l).pc + 24) ∧
      (∀ target w, (s.ctx l).branch = some (2, target) → (s.ctx l).fin = some w → w.flights = [] → (s.ctx l).releases = [] →
        (t.ctx l).branch = none ∧ (t.ctx l).fin = none ∧ (t.ctx l).pc = target ∧ (t.ctx l).cur = w)

/-- MARK (R112, R113) with a loop word that it accepts completes: loop replay begins with the next bundle, LOOPWD and LOOPSW hold its words,
BIDX and PASS are 0, and of the stage predicates the first is 1 and the others 0. -/
def Sys2Proof.Spec.MarkStartsLoopReplay : Prop :=
  ∀ (i : Instr) (s : State) (l : Loc) (o : Opd), s.ready l i o → (s.ctx l).straight → o.op = .mark →
    let stages := (o.xw.extractLsb' 6 5).toNat
    let sp := (o.xw.extractLsb' 11 7).toNat
    let wb := (o.xw.extractLsb' 18 6).toNat
    let passes := (o.xw.extractLsb' 25 24).toNat
    passes ≠ 0 → o.xw.extractLsb' 49 15 = 0 → (stages ≠ 0 → sp ≠ 0 ∧ sp + stages ≤ 128 ∧ stages ≤ passes) →
    (o.xw.getLsbD 24 = true → wb ≤ 58) →
    ∃ t, exec i s = .next t ∧ (t.ctx l).pc = (s.ctx l).pc + 24 ∧ (t.ctx l).cur.looping = true ∧
      (t.ctx l).cur.ctl.loopwd = o.xw ∧ (t.ctx l).cur.ctl.loopsw = o.b ∧ (t.ctx l).cur.ctl.loopst = 0x40000000 ∧
      (t.ctx l).cur.ctl.loopcnt = 0 ∧ ∀ j, j < stages → (t.ctx l).cur.pred (sp + j) = decide (j = 0)

/-- What MARK refuses (R113): PASSES = 0, a reserved bit, stages whose predicates are not p1 to p127 or that outnumber the passes, and a walker
without its registers are an illegal encoding of the cause bad operand, and nothing changes. -/
def Sys2Proof.Spec.MarkRefusesBadLoopWords : Prop :=
  ∀ (i : Instr) (s : State) (l : Loc) (o : Opd), s.ready l i o → o.op = .mark →
    let stages := (o.xw.extractLsb' 6 5).toNat
    let sp := (o.xw.extractLsb' 11 7).toNat
    let wb := (o.xw.extractLsb' 18 6).toNat
    let passes := (o.xw.extractLsb' 25 24).toNat
    (passes = 0 ∨ o.xw.extractLsb' 49 15 ≠ 0 ∨ (0 < stages ∧ (sp = 0 ∨ 127 < sp + stages - 1 ∨ passes < stages)) ∨
      (o.xw.getLsbD 24 = true ∧ 58 < wb)) →
    exec i s = .next ((s.take l).takeTrap l (illegal 29) o.slot false (s.ctx l).pc)

/-- The boundaries of a loop body (R112, R115): within the body the next bundle follows; at its end the replay goes back to its first bundle
with the next pass, or ends after the last pass with ACTIVE 0. -/
def Sys2Proof.Spec.LoopBoundariesFollowTheBodyCount : Prop :=
  ∀ (s : State) (l : Loc), s.mayIssue l → (s.ctx l).fence = [] → (s.ctx l).branch = none → (s.ctx l).cur.looping = true →
    (s.ctx l).cur.flights = [] →
    let c := (s.ctx l).cur.ctl
    let bidx := (c.loopst.extractLsb' 0 6).toNat
    let pass := (c.loopst.extractLsb' 6 24).toNat
    let nm1 := (c.loopwd.extractLsb' 0 6).toNat
    let passes := (c.loopwd.extractLsb' 25 24).toNat
    ∃ t, exec (.transportMove (List.replicate 8 Item.empty)) s = .next t ∧
      (bidx < nm1 → (t.ctx l).pc = (s.ctx l).pc + 24 ∧ (t.ctx l).cur.ctl.loopst = c.loopst + 1) ∧
      (bidx = nm1 → pass + 1 = passes → (t.ctx l).pc = (s.ctx l).pc + 24 ∧ (t.ctx l).cur.looping = false ∧
        (t.ctx l).cur.ctl.loopst.getLsbD 30 = false) ∧
      (bidx = nm1 → pass + 1 < passes → (t.ctx l).pc = (s.ctx l).pc - BitVec.ofNat 64 (24 * nm1) ∧ (t.ctx l).cur.looping = true ∧
        (t.ctx l).cur.ctl.loopst.extractLsb' 0 6 = 0 ∧ ((t.ctx l).cur.ctl.loopst.extractLsb' 6 24).toNat = pass + 1 ∧
        (t.ctx l).cur.ctl.loopst.getLsbD 30 = true)

/-- Loop replay (R112, R113, R115) starts at a MARK that is not refused, goes through its body and its passes, and ends. -/
def Obligations.LoopReplayStartsAndFollowsTheBodyCount : Prop :=
  Spec.MarkStartsLoopReplay ∧ Spec.MarkRefusesBadLoopWords ∧ Spec.LoopBoundariesFollowTheBodyCount

/-- SAFE (R118, R254, R405): the context stands at a marker with the live-state list that the word names; with a pre-emption request it halts there
and is saved; in a handler it is no marker. -/
def Sys2Proof.Spec.SafeMarksOrHalts : Prop :=
  ∀ (i : Instr) (s : State) (l : Loc) (o : Opd), s.ready l i o → (s.ctx l).straight → o.op = .safe →
    o.xw.toNat < 2 ^ 32 → o.xw.toNat % 4 = 0 →
    ∃ t, exec i s = .next t ∧
      ((s.ctx l).cur.ctl.hndst.getLsbD 0 = true → (t.ctx l).marker = none ∧ (t.ctx l).pc = (s.ctx l).pc + 24) ∧
      ((s.ctx l).cur.ctl.hndst.getLsbD 0 = false → (s.ctx l).preempt = false →
        (t.ctx l).marker = some o.xw.toNat ∧ (t.ctx l).pc = (s.ctx l).pc + 24 ∧ (t.ctx l).mode = (s.ctx l).mode) ∧
      ((s.ctx l).cur.ctl.hndst.getLsbD 0 = false → (s.ctx l).preempt = true →
        (t.ctx l).mode = .halted ∧ (t.ctx l).saved.isSome = true ∧ (t.ctx l).preempt = false ∧
          (t.core l.core).running ≠ some l.ctx)

/-- TRAP (R247): at the boundary after its bundle it takes the software trap with its code: into the handler at 8 × HADDR where TVEC.EN is 1 and
no handler runs (R246), else to the lodge, which halts the context and keeps the record (R394). -/
def Obligations.TrapTakesTheSoftwareTrap : Prop :=
  ∀ (i : Instr) (s : State) (l : Loc) (o : Opd), s.ready l i o → (s.ctx l).straight → o.op = .trap → o.xw.toNat < 2 ^ 16 →
    (s.ctx l).cur.flights = [] →
    let c := (s.ctx l).cur.ctl
    ∃ t, exec i s = .next t ∧
      (c.tvec.getLsbD 0 = true → c.hndst.getLsbD 0 = false →
        let u := (t.ctx l).cur
        (t.ctx l).pc = c.tvec &&& ~~~0x7 ∧ u.ctl.tepc = (s.ctx l).pc + 24 ∧ u.ctl.tcause = 10 + (o.xw <<< 16) ∧
          u.ctl.hndst = 1 + ((c.gbase &&& 0x7F) <<< 1) ∧ u.ctl.gbase = 0 ∧ (t.ctx l).mode = (s.ctx l).mode) ∧
      (c.tvec.getLsbD 0 = false ∨ c.hndst.getLsbD 0 = true →
        (t.ctx l).mode = .halted ∧ ∃ r, (t.ctx l).record = some r ∧ r.tcause = 10 + (o.xw <<< 16) ∧ r.tepc = (s.ctx l).pc + 24)

/-- RTE (R41, R248): in a handler, with an aligned TEPC, it completes: the next bundle is at TEPC, GBASE receives SGBASE, IN becomes 0 and the rest of HNDST
stays, with DIDX 1 or 2 the interrupted taken branch is pending again, and the registers, the mask stack and the other contexts keep their
content. -/
def Obligations.RteReturnsFromTheHandler : Prop :=
  ∀ (i : Instr) (s : State) (l : Loc) (o : Opd), s.ready l i o → (s.ctx l).straight → o.op = .rte → (s.ctx l).cur.flights = [] →
    let c := (s.ctx l).cur.ctl
    let didx := (c.tbranch.extractLsb' 0 2).toNat
    c.hndst.getLsbD 0 = true → c.tepc.toNat % 8 = 0 →
    ∃ t, exec i s = .next t ∧ (t.ctx l).pc = c.tepc ∧ (t.ctx l).cur.ctl.hndst = c.hndst &&& ~~~0x1 ∧
      (t.ctx l).cur.ctl.gbase = (c.hndst >>> 1) &&& 0x7F ∧
      ((t.ctx l).branch = if didx = 1 ∨ didx = 2 then some (didx, c.tbtgt) else none) ∧ (t.ctx l).mode = (s.ctx l).mode ∧
      (∀ f n, (t.ctx l).cur.readReg f n = (s.ctx l).cur.readReg f n) ∧ (t.ctx l).cur.stack = (s.ctx l).cur.stack ∧
      (∀ m, m ≠ l → t.ctx m = s.ctx m) ∧ t.mem = s.mem

/-- RTE outside a handler takes the sequence trap of cause 13 (R248). -/
def Sys2Proof.Spec.RteOutsideAHandlerTraps : Prop :=
  ∀ (i : Instr) (s : State) (l : Loc) (o : Opd), s.ready l i o → (s.ctx l).straight → o.op = .rte →
    (s.ctx l).cur.ctl.hndst.getLsbD 0 = false → o.prov = false →
    exec i s = .next ((s.take l).takeTrap l (sequenceTrap 13) o.slot false (s.ctx l).pc)

/-- A br trigger in a delay bundle or a loop body, and an RTE outside a handler, take a sequence trap (R39, R116, R248). -/
def Obligations.MisplacedTransfersAndReturnsTrap : Prop :=
  Spec.BranchTriggersInDelayBundlesOrLoopsTrap ∧ Spec.RteOutsideAHandlerTraps

/-- YIELD (R248): the next bundle follows; where no other context of the core is ready the context goes on, and where just one other is,
which a pending pre-emption request lets issue without a token (R379), that one runs next, after the one bubble of the switch (R35), and this
one is ready. -/
def Sys2Proof.Spec.YieldLetsAnotherContextRun : Prop :=
  ∀ (i : Instr) (s : State) (l : Loc) (o : Opd), s.ready l i o → (s.ctx l).straight → o.op = .yield → l.ctx < 4 →
    ∃ t, exec i s = .next t ∧ (t.ctx l).pc = (s.ctx l).pc + 24 ∧
      ((∀ c, c < 4 → c ≠ l.ctx → (s.ctx ⟨l.core, c⟩).mode ≠ .ready ∧ (s.ctx ⟨l.core, c⟩).mode ≠ .running) →
        (t.core l.core).running = some l.ctx) ∧
      (∀ d, d < 4 → d ≠ l.ctx → (s.ctx l).mode = .running → (s.ctx ⟨l.core, d⟩).mode = .ready →
        (s.ctx ⟨l.core, d⟩).preempt = true →
        (∀ c, c < 4 → c ≠ l.ctx → c ≠ d → (s.ctx ⟨l.core, c⟩).mode ≠ .ready ∧ (s.ctx ⟨l.core, c⟩).mode ≠ .running) →
        (t.core l.core).running = some d ∧ (t.core l.core).bubble = some d ∧ (t.ctx l).mode = .ready ∧
          (t.ctx ⟨l.core, d⟩).mode = .running)

/-- HALT (R249, R277): with no operation of its program held in the integrator queue, the program ends: its context is off with no program, nothing runs in
its core, the entry of its task keeps the exit code with STATUS 0, its grant is returned, and its registers stay; with such an operation the
context first waits for it. -/
def Sys2Proof.Spec.HaltEndsTheProgram : Prop :=
  ∀ (i : Instr) (s : State) (l : Loc) (o : Opd) (b : Binding) (u : Task), s.ready l i o → (s.ctx l).straight → o.op = .halt →
    o.xw.toNat < 2 ^ 32 → (s.ctx l).binding = some b → (s.ctx l).landings = [] → (s.ctx l).late = [] → (s.ctx l).saved = none →
    u ∈ (s.core l.core).table → u.id = b.task →
    let held := ∃ e ∈ (s.core l.core).ddq, e.who.ctx = l.ctx ∧ e.who.bind.prog = b.prog
    ∃ t, exec i s = .next t ∧ (t.core l.core).running = none ∧
      (¬ held → (t.ctx l).mode = .off ∧ (t.ctx l).binding = none ∧ (t.ctx l).cur.ctl.ddgrant = 0 ∧
        (∃ v ∈ (t.core l.core).table, v.id = b.task ∧ v.bound = none ∧ ∃ w r, v.ended = some (o.xw.toNat, 0, w, r)) ∧
        ((s.ctx l).cur.flights = [] → ∀ f n, (t.ctx l).cur.readReg f n = (s.ctx l).cur.readReg f n)) ∧
      (held → (t.ctx l).mode = .blocked ∧ (t.ctx l).wait = some (.ending o.xw.toNat 0) ∧ (t.ctx l).binding = some b)

/-- SAFE marks or halts, YIELD lets another context run, and HALT ends the program (R118, R248, R249, R405). -/
def Obligations.SafePointsYieldsAndHaltsComplete : Prop :=
  Spec.SafeMarksOrHalts ∧ Spec.YieldLetsAnotherContextRun ∧ Spec.HaltEndsTheProgram

/-- GBASE (R77, R108): with a base of at most 120 the guard base is the trigger value from the next bundle on, and pd.res receives it. -/
def Sys2Proof.Spec.GbaseSetsTheGuardBase : Prop :=
  ∀ (i : Instr) (s : State) (l : Loc) (o : Opd), s.ready l i o → (s.ctx l).straight → o.op = .gbase → o.xw.toNat ≤ 120 →
    exec i s = .next (s.fixedNext l o 1 [.ctl 0x001 o.xw, .res o.unit (.word o.xw) none])

/-- A word below 2^12 that is the number of no control register (R244). -/
def Sys2Proof.Spec.noControl (n : Word) : Prop :=
  (0x013 ≤ n.toNat ∧ n.toNat ≤ 0x017) ∨ (0x028 ≤ n.toNat ∧ n.toNat ≤ 0x02F) ∨ (0x091 ≤ n.toNat ∧ n.toNat ≤ 0x09F) ∨
    (0x0A3 ≤ n.toNat ∧ n.toNat < 2 ^ 12)

/-- CRR (R244, R245) completes for the registers that a context holds, with the register's value. -/
def Sys2Proof.Spec.CrrReadsTheNamedRegister : Prop :=
  ∀ (i : Instr) (s : State) (l : Loc) (o : Opd) (v : Word), s.ready l i o → o.op = .crr →
    (let x := s.ctx l
     let c := x.cur.ctl
     (o.xw, v) ∈ ([(0x000, c.fpflags), (0x001, c.gbase), (0x002, c.tvec), (0x003, c.tcause), (0x004, c.tepc), (0x005, c.tbranch),
       (0x006, c.tbtgt), (0x007, c.hndst), (0x008, c.memcnt), (0x009, BitVec.ofNat 64 x.cur.cf.length), (0x00A, c.mxfault),
       (0x00B, c.sccfg), (0x00C, c.loopwd), (0x00D, c.loopsw), (0x00E, c.loopst), (0x00F, c.loopcnt), (0x010, c.ddgrant),
       (0x011, c.ddstat), (0x012, c.ddfault), (0x0A0, c.qosrem), (0x0A1, BitVec.ofNat 64 x.ctime),
       (0x0A2, BitVec.ofNat 64 (s.core l.core).cycle)] : List (Word × Word))) →
    exec i s = .next (s.fixedNext l o 1 (o.resultEffs (.word v) none))

/-- CRR (R223, R224, R237, R244, R245, R281, R293, R295) of the step-clock registers of a domain that the context has, of a queue's QCFG, which
reads 0 where the queue is another's, of POOLPART and of BANKFMT completes with the register's value. -/
def Sys2Proof.Spec.CrrReadsDomainsQueuesAndBanks : Prop :=
  ∀ (i : Instr) (s : State) (l : Loc) (o : Opd), s.ready l i o → o.op = .crr →
    let k := s.core l.core
    let c := (s.ctx l).cur.ctl
    let reads (v : Word) : Prop := exec i s = .next (s.fixedNext l o 1 (o.resultEffs (.word v) none))
    (∀ d, d < 8 → d < (s.ctx l).cur.domainCount →
      (o.xw = BitVec.ofNat 64 (0x018 + d) → reads (c.domclk.getD d 0)) ∧ (o.xw = BitVec.ofNat 64 (0x020 + d) → reads (c.domcnt.getD d 0))) ∧
    (∀ n, n < 16 → o.xw = BitVec.ofNat 64 (0x030 + n) →
      let q := k.queue n
      let mine := match q.gang, q.owner with
        | some g, _ => s.gangOf l = some g
        | none, some p => s.progOf l = some p
        | none, none => True
      (mine → reads (BitVec.ofNat 64 (q.base8 + q.lcap * 2 ^ 20 + (if q.en then 2 ^ 24 else 0) + q.head * 2 ^ 32 + q.count * 2 ^ 48))) ∧
      (¬ mine → reads 0)) ∧
    (o.xw = 0x040 →
      reads (BitVec.ofNat 64 ((k.poolpart.extractLsb' 0 11).toNat + ((List.range 80).filter fun b => k.scratch b).length * 2 ^ 11))) ∧
    (∀ b, b < 80 → o.xw = BitVec.ofNat 64 (0x041 + b) → ∃ v, reads v ∧
      v.extractLsb' 0 8 = (if k.scratch b then k.fmtOf b else 0) ∧ v.getLsbD 8 = k.scratch b ∧
      (v.getLsbD 9 = true ↔ ∃ m ∈ k.claims, s.progOf l = some m.prog ∧ m.bank = b ∧ m.state ≠ .releasing) ∧
      v.getLsbD 10 = k.frameHeld b ∧ v.getLsbD 11 = k.withdrawn.contains b ∧
      (v.getLsbD 12 = true ↔ ∃ m ∈ k.claims, s.progOf l = some m.prog ∧ m.bank = b ∧ m.state ≠ .releasing ∧ m.write = true) ∧
      v.extractLsb' 13 51 = 0)

/-- CRW (R5, R77, R245, R246) completes on registers that a context holds: by its map a written FPFLAGS clears the flags written 1, and TVEC,
TEPC, TBTGT and GBASE take the value; the register that the selector names receives the old value. -/
def Sys2Proof.Spec.CrwWritesByTheRegisterMap : Prop :=
  ∀ (i : Instr) (s : State) (l : Loc) (o : Opd), s.ready l i o → (s.ctx l).straight → o.op = .crw → (s.ctx l).cur.flights = [] →
    let c := (s.ctx l).cur.ctl
    (o.b = 0x000 → ∃ t, exec i s = .next t ∧ (t.ctx l).cur.ctl.fpflags = c.fpflags &&& ~~~(o.xw &&& 0xFF) ∧
      ∀ n, o.dest = some (.s, n) → (t.ctx l).cur.readReg .s n = .word c.fpflags) ∧
    (o.b = 0x001 → o.xw.toNat ≤ 120 → ∃ t, exec i s = .next t ∧ (t.ctx l).cur.ctl.gbase = o.xw ∧
      ∀ n, o.dest = some (.s, n) → (t.ctx l).cur.readReg .s n = .word c.gbase) ∧
    (o.b = 0x002 → o.xw &&& 0x6 = 0 → ∃ t, exec i s = .next t ∧ (t.ctx l).cur.ctl.tvec = o.xw ∧
      ∀ n, o.dest = some (.s, n) → (t.ctx l).cur.readReg .s n = .word c.tvec) ∧
    (o.b = 0x004 → ∃ t, exec i s = .next t ∧ (t.ctx l).cur.ctl.tepc = o.xw ∧
      ∀ n, o.dest = some (.s, n) → (t.ctx l).cur.readReg .s n = .word c.tepc) ∧
    (o.b = 0x006 → ∃ t, exec i s = .next t ∧ (t.ctx l).cur.ctl.tbtgt = o.xw ∧
      ∀ n, o.dest = some (.s, n) → (t.ctx l).cur.readReg .s n = .word c.tbtgt)

/-- CRW (R208, R223, R224, R236, R237, R245, R295, R296) of the other registers of a context, of QCFG and of BANKFMT: DIDX, MEMCNT, the
flags of the integrator, DIV, STOPEN and STOPAT, and STEPS are written by their maps; EN = 1 empties a queue that the writer may write and makes
the writer the owner where no gang holds it, EN = 0 ends the ownership; and the format of a bank takes the value. -/
def Sys2Proof.Spec.CrwWritesDomainsQueuesAndBanks : Prop :=
  ∀ (i : Instr) (s : State) (l : Loc) (o : Opd), s.ready l i o → (s.take l).passes l o → (s.ctx l).straight → o.op = .crw →
    (s.ctx l).cur.flights = [] →
    let c := (s.ctx l).cur.ctl
    let old := s.control l o.b.toNat
    ∃ t, exec i s = .next t ∧ (∀ n, o.dest = some (.s, n) → (t.ctx l).cur.readReg .s n = .word old) ∧
      let c' := (t.ctx l).cur.ctl
      (o.b = 0x005 → c'.tbranch = o.xw &&& 0x3) ∧ (o.b = 0x008 → c'.memcnt = o.xw) ∧
      (o.b = 0x011 → c'.ddstat = c.ddstat &&& ~~~(o.xw &&& 0x7)) ∧ (o.b = 0x012 → c'.ddfault = c.ddfault &&& ~~~(o.xw &&& 0x1)) ∧
      (∀ d, d < 8 → o.b = BitVec.ofNat 64 (0x018 + d) →
        c'.domclk.getD d 0 = (c.domclk.getD d 0 &&& 0xFFFB0000) ||| (o.xw &&& 0xFFFFFFFF0004FFFF)) ∧
      (∀ d, d < 8 → o.b = BitVec.ofNat 64 (0x020 + d) →
        c'.domcnt.getD d 0 = (c.domcnt.getD d 0 &&& 0xFFFFFFFF00000000) ||| (o.xw &&& 0xFFFFFFFF)) ∧
      (∀ n, n < 16 → o.b = BitVec.ofNat 64 (0x030 + n) →
        let q := (s.core l.core).queue n
        let q' := (t.core l.core).queue n
        q'.base8 = (o.xw.extractLsb' 0 20).toNat ∧ q'.lcap = (o.xw.extractLsb' 20 4).toNat ∧ q'.en = o.xw.getLsbD 24 ∧ q'.gang = q.gang ∧
          (o.xw.getLsbD 24 = true → q'.head = 0 ∧ q'.count = 0 ∧ (q.gang = none → q'.owner = s.progOf l)) ∧
          (o.xw.getLsbD 24 = false → q'.head = q.head ∧ q'.count = q.count ∧ q'.owner = none)) ∧
      (∀ b, b < 80 → o.b = BitVec.ofNat 64 (0x041 + b) → (t.core l.core).fmtOf b = o.xw.setWidth 8)

/-- A CRR or CRW of a number that names no register is an illegal encoding of cause 28, and a CRW of a read-only one a capability fault of
cause 4 (R244, R245). -/
def Sys2Proof.Spec.ControlRegisterRefusals : Prop :=
  ∀ (i : Instr) (s : State) (l : Loc) (o : Opd), s.ready l i o →
    (o.op = .crr → Spec.noControl o.xw →
      exec i s = .next ((s.take l).takeTrap l (illegal 28) o.slot false (s.ctx l).pc)) ∧
    (o.op = .crw → Spec.noControl o.b →
      exec i s = .next ((s.take l).takeTrap l (illegal 28) o.slot false (s.ctx l).pc)) ∧
    (o.op = .crw → o.b ∈ ([0x003, 0x007, 0x009, 0x010, 0x040, 0x0A0, 0x0A1, 0x0A2] : List Word) → o.prov = false →
      exec i s = .next ((s.take l).takeTrap l (capTrap 4 0) o.slot false (s.ctx l).pc))

/-- QOS (R250) reads the tokens of its device, as they stand before its bundle draws one, at the issue slots of its core (class 0), the HBM4
stack (2) and the LP6 group (3) of its garden, the frame engine (4) and the ascending output (5) of its core, or the way mask of its garden's
terrace (1): the value is its result and QOSREM. The arbiters of classes 2, 3 and 5 that the word stands for are the model's reading (log 19);
the other classes are an illegal encoding. -/
def Sys2Proof.Spec.QosReadsTheBucketOfItsClass : Prop :=
  ∀ (i : Instr) (s : State) (l : Loc) (o : Opd) (b : Binding), s.ready l i o → o.op = .qos → (s.ctx l).binding = some b →
    let reads (v : Word) : Prop := exec i s = .next (s.fixedNext l o 1 (o.resultEffs (.word v) none ++ [.ctl 0x0A0 v]))
    let tokens (arbiter : Nat) : Word := BitVec.ofInt 64 ((s.arb arbiter).bucket (128 * b.pav + b.vd))
    (o.xw = 0 → reads (tokens l.core)) ∧ (o.xw = 1 → reads (BitVec.ofNat 64 (s.qosMask b.pav b.vd (l.core / 8)))) ∧
    (o.xw = 2 → reads (tokens (512 + l.core / 32))) ∧ (o.xw = 3 → reads (tokens (516 + l.core / 32))) ∧
    (o.xw = 4 → reads (tokens (128 + l.core))) ∧ (o.xw = 5 → reads (tokens (256 + 2 * l.core))) ∧
    (6 ≤ o.xw.toNat → exec i s = .next ((s.take l).takeTrap l (illegal 29) o.slot false (s.ctx l).pc))

/-- The operations of cr, and GBASE (R77, R108, R244, R245, R250): what is read, what is written by the register map, and what is refused. -/
def Obligations.ControlRegistersAreReadWrittenOrRefused : Prop :=
  Spec.GbaseSetsTheGuardBase ∧ Spec.CrrReadsTheNamedRegister ∧ Spec.CrrReadsDomainsQueuesAndBanks ∧ Spec.CrwWritesByTheRegisterMap ∧
    Spec.CrwWritesDomainsQueuesAndBanks ∧ Spec.ControlRegisterRefusals ∧ Spec.QosReadsTheBucketOfItsClass

/-! ### Encoding (R22, R74 to R85) -/

/-- Every well-formed row that stands in a bundle decodes from its encoding: the encoding is the 24 bytes of R74, and decoding it gives the row
back with every operand, and the bytes that follow. -/
def Obligations.EncodedRowsDecodeToThemselves : Prop :=
  ∀ (i : Instr) (bs rest : List Byte), wellFormed i = true → encode i = some bs → bs.length = 24 ∧ decode (bs ++ rest) = .ok (i, rest)

/-- Any 24 bytes are a bundle (R74): they decode to a well-formed row whose encoding they are, and which holds eight items and nothing else; the
item of slot n is the one of the bytes 3n to 3n + 2, the least significant first; fewer bytes are none. -/
def Obligations.EveryBundleWordHasOneRow : Prop :=
  ∀ bs : List Byte, (bs.length = 24 → ∃ i items, decode bs = .ok (i, []) ∧ wellFormed i = true ∧ encode i = some bs ∧
      itemsOf i = some items ∧ items.length = 8 ∧
      ∀ n, n < 8 → items[n]? = some (decodeItem n (bs.getD (3 * n + 2) 0 ++ bs.getD (3 * n + 1) 0 ++ bs.getD (3 * n) 0 : BitVec 24))) ∧
    (bs.length < 24 → decode bs = .error .short)

/-- Words written out from the encoding tables (R74, R76, R79, R82, R84), each in slot 5 of a bundle whose other slots are empty, decode to the rows
they stand for: s5 to fr.snap, #3 to sc.scarry and #0 to dd.step. -/
def Obligations.WrittenWordsDecodeToTheirRows : Prop :=
  ∀ e ∈ ([([0xD2, 0x0B, 0x04], .snap ⟨5, 0, false, true, .reg .s 5⟩), ([0x33, 0x87, 0x05], .scarry ⟨5, 0, false, true, .short 3⟩),
      ([0x95, 0x81, 0x05], .step ⟨5, 0, false, true, .short 0⟩)] : List (List Byte × Instr)),
    decode (List.replicate 15 0 ++ e.1 ++ List.replicate 6 0) = .ok (e.2, [])

/-! ### The step -/

/-- A step runs the bundle that it fetches (R29, R75): where the schedule gives the turn to a core whose context has an aligned program counter at
24 bytes of its image's text, and those bytes decode to a row, the step is the execution of that row with the core in focus. -/
def Sys2Proof.Spec.StepRunsTheDecodedBundle : Prop :=
  ∀ (s : State) (core c : Nat) (rest : List Turn) (b : Binding) (g : Image) (i : Instr) (bs : List Byte),
    s.agenda = .issue core :: rest → (s.core core).running = some c → (s.core core).taken = none →
    (s.ctx ⟨core, c⟩).binding = some b → s.images.find? b.image = some g →
    let pc := (s.ctx ⟨core, c⟩).pc.toNat
    pc % 8 = 0 → g.base.toNat ≤ pc → pc + 24 ≤ g.base.toNat + g.size →
    bs = g.text.bytes (pc - g.base.toNat) 24 → decode bs = .ok (i, []) →
    step s = exec i { s with agenda := rest, focus := core }

/-- A fetch outside the text is a capability fault of cause 7, and one at a misaligned address an illegal encoding of cause 6 (R75, R111), unless a
boundary trap is due. That the trap of a misaligned address stands at the fetch where no earlier bundle has taken it, and that a bundle which
begins inside the text and runs past its end is outside it, are the model's choices (log 31). -/
def Sys2Proof.Spec.StepTrapsWhereNothingCanBeFetched : Prop :=
  ∀ (s : State) (core c : Nat) (rest : List Turn) (b : Binding) (g : Image),
    s.agenda = .issue core :: rest → (s.core core).running = some c → (s.core core).taken = none →
    (s.ctx ⟨core, c⟩).binding = some b → s.images.find? b.image = some g → (s.ctx ⟨core, c⟩).boundaryTrap = none →
    let pc := (s.ctx ⟨core, c⟩).pc
    let t := ({ s with agenda := rest, focus := core } : State).take ⟨core, c⟩
    (pc.toNat % 8 ≠ 0 → step s = .next (t.takeTrap ⟨core, c⟩ (illegal 6) 0 false pc)) ∧
    (pc.toNat % 8 = 0 → (pc.toNat < g.base.toNat ∨ g.base.toNat + g.size < pc.toNat + 24) →
      step s = .next (t.takeTrap ⟨core, c⟩ (capTrap 7 pc) 0 false pc))

/-- A step that no bundle holds runs when the schedule comes to it (the model's own schedule, log 3). -/
def Sys2Proof.Spec.StepRunsTheScheduledEvent : Prop :=
  ∀ (s : State) (e : Event) (rest : List Turn), s.agenda = .event e :: rest → step s = exec e.instr { s with agenda := rest }

/-- A step is the execution of the bundle that it fetches, or of the event to which the schedule has come. -/
def Obligations.StepRunsTheDecodedBundleOrTheScheduledEvent : Prop :=
  Spec.StepRunsTheDecodedBundle ∧ Spec.StepRunsTheScheduledEvent

/-! ### Reset (R244, R279, R292, R421, R422) -/

/-- What the package reset leaves: every context is off, no pavilion is formed, TCAUSE and the other control registers are 0, the package is in
mode Edge, and T_WARN is 95; memory is in its canonical form. The rules give these values, but for TEPC and QOSREM, for which they give
none and which are 0 by the model's choice (log 4). -/
def Obligations.ResetLeavesTheStatedValues : Prop :=
  (∀ l, (State.reset.ctx l).mode = .off ∧ (State.reset.ctx l).cur.ctl = Ctl.reset ∧ (State.reset.ctx l).cur.p = 1) ∧
  (∀ n, Ctl.reset.read n = 0) ∧
  (∀ n, (State.reset.pav n).formed = false) ∧ State.reset.mem.wf = true ∧ State.reset.oper.mode = 2 ∧ State.reset.oper.cur = 2 ∧ State.reset.oper.twarn = 95

/-! ### Operands (R27 to R33, R77, R80, R86) -/

/-- A row whose guard is 0 (R77) has the effect of an empty bundle. -/
def Obligations.GuardedOffRowsMoveNothing : Prop :=
  ∀ (i : Instr) (s : State) (l : Loc) (u : UnitId) (op : Op) (m : Mv), s.mayIssue l → i.trigger? = some (u, op, m) →
    (s.ctx l).cur.guard m.g = false → exec i s = exec (.transportMove (List.replicate 8 Item.empty)) s

/-- A row whose source register is empty (R33, R392), outside the delay bundles of a taken branch, whose latches are full and whose selector is valid,
with S = 0, or S = 1 on an operation that does not act outside its context, none of whose operation's checks finds a trap without the
source: with B = 1 its context waits, with B = 0 it takes the trap EMPTYREAD at its slot; in both no effect of its bundle takes place. A check
that does not read the source and finds a trap of the stages before is taken instead. -/
def Sys2Proof.Spec.EmptySourcesWaitOrTrap : Prop :=
  ∀ (i : Instr) (s : State) (l : Loc) (u : UnitId) (op : Op) (m : Mv) (f : RFile) (n : Nat) (vs : List (Nat × Value)) (r : Option RegRef),
    s.mayIssue l → i.trigger? = some (u, op, m) → m.slot < 8 → (s.ctx l).cur.guard m.g = true → (s.ctx l).straight →
    (m.s && (opSem op).outward) = false →
    m.src = .reg f n → f ∈ busReads (slotBus m.slot) → (f = .v → n < (s.core l.core).vcount l.ctx) →
    (s.ctx l).cur.isEmpty f n = true → (fileWidth f).adapts (opSem op).xw = true →
    readLatches (s.ctx l).cur ((s.ctx l).cur.port u) (if (opSem op).needs (.word 0) then (opSem op).latches else []) = .ok (vs, false) →
    readSel ((s.ctx l).cur.port u) (opSem op).sel = .ok r →
    let mine (o : Opd) : Prop := o.slot = m.slot ∧ o.unit = u ∧ o.op = op ∧ o.prov = false ∧ o.sel = r ∧
      o.o1 = Table.find? vs 1 ∧ o.o2 = Table.find? vs 2 ∧ o.o3 = Table.find? vs 3
    ((∀ p ∈ (opSem op).parts, 0 ∉ p.uses → ∀ o, mine o → p.test (s.take l) l o = none) →
      (m.b = true → exec i s = .next ((s.take l).block l .bundle)) ∧
      (m.b = false → exec i s = .next ((s.take l).takeTrap l emptyReadTrap m.slot false (s.ctx l).pc))) ∧
    (∀ before p rest tr, (opSem op).parts = before ++ p :: rest →
      (∀ q ∈ before, 0 ∈ q.uses ∨ ∀ o, mine o → q.test (s.take l) l o = none) →
      0 ∉ p.uses → p.stage < 4 → (∀ o, mine o → p.test (s.take l) l o = some tr) →
      exec i s = .next ((s.take l).takeTrap l tr m.slot false (s.ctx l).pc))

/-- A source that its bus does not connect, or that does not adapt to the width of the trigger, is an illegal encoding of cause 2 or 4 at its slot
(R80, R86, R395). That these causes stand before those of the S bit, the latches and the selector of the same slot is log 10. -/
def Sys2Proof.Spec.UnconnectedSourcesTrap : Prop :=
  ∀ (i : Instr) (s : State) (l : Loc) (u : UnitId) (op : Op) (m : Mv) (f : RFile) (n : Nat), s.mayIssue l →
    i.trigger? = some (u, op, m) → m.slot < 8 → (s.ctx l).cur.guard m.g = true → (s.ctx l).straight → m.src = .reg f n →
    (f ∉ busReads (slotBus m.slot) →
      exec i s = .next ((s.take l).takeTrap l (illegal 2) m.slot false (s.ctx l).pc)) ∧
    (f ∈ busReads (slotBus m.slot) → (f = .v → n < (s.core l.core).vcount l.ctx) → (fileWidth f).adapts (opSem op).xw = false →
      exec i s = .next ((s.take l).takeTrap l (illegal 4) m.slot false (s.ctx l).pc))

/-- Moves between registers (R29, R32): the sources of a bundle are read before its destinations are written, so two moves of one bundle exchange
two s registers; every other register keeps its content. -/
def Obligations.MovesOfABundleReadBeforeTheyWrite : Prop :=
  ∀ (s : State) (l : Loc) (a b : Nat), s.mayIssue l → (s.ctx l).fence = [] → (s.ctx l).straight → (s.ctx l).cur.flights = [] →
    a < 64 → b < 64 → a ≠ b → (s.ctx l).cur.isEmpty .s a = false → (s.ctx l).cur.isEmpty .s b = false →
    ∃ t, exec (.transportMove ([.move 0 false false (.reg .s a) (.reg .s b), .move 0 false false (.reg .s b) (.reg .s a)] ++
        List.replicate 6 Item.empty)) s = .next t ∧
      (t.ctx l).cur.readReg .s b = (s.ctx l).cur.readReg .s a ∧ (t.ctx l).cur.readReg .s a = (s.ctx l).cur.readReg .s b ∧
      ∀ f n, (f = .s → n ≠ a ∧ n ≠ b) → (t.ctx l).cur.readReg f n = (s.ctx l).cur.readReg f n

/-- Two moves of a bundle to one register are an illegal encoding of cause 7 (R24, R83, R395), at the lower slot by log 10. -/
def Sys2Proof.Spec.TwoWritesOfARegisterTrap : Prop :=
  ∀ (s : State) (l : Loc) (a b c : Nat), s.mayIssue l → (s.ctx l).straight → a < 64 → b < 64 → c < 64 →
    exec (.transportMove ([.move 0 false false (.reg .s a) (.reg .s c), .move 0 false false (.reg .s b) (.reg .s c)] ++
        List.replicate 6 Item.empty)) s =
      .next ((s.take l).takeTrap l (illegal 7) 0 false (s.ctx l).pc)

/-- The checks of the moves of a bundle: empty sources (R33), buses and widths (R80, R86), and two writes of one register (R24, R83). Which illegal
cause is reported where a slot has several, and at which slot a conflict is, is the model's reading (log 10). -/
def Obligations.SourcesAndDestinationsAreChecked : Prop :=
  Spec.EmptySourcesWaitOrTrap ∧ Spec.UnconnectedSourcesTrap ∧ Spec.TwoWritesOfARegisterTrap

/-! ### Traps (R41, R42, R246, R389 to R394) -/

/-- A trap that the tenant may handle (R389). -/
abbrev Sys2Proof.Spec.handled (t : Trap) : Prop :=
  t.cls ≠ .illegal ∧ t.cls ≠ .memory ∧ (t.cls = .capability → t.cause ≠ 7) ∧ (t.cls = .translation → t.cause % 8 ≠ 6)

/-- A trap that the tenant may handle, with TVEC.EN = 1 and IN = 0, enters the handler (R41, R42, R246, R391): provisional effects are withdrawn, the
exception registers receive the record, s62 and s63 its words, GBASE and the handler set are cleared, the next bundle is at 8 × HADDR, and no
other register and nothing outside the context changes. -/
def Obligations.HandledTrapsEnterTheHandler : Prop :=
  ∀ (s : State) (l : Loc) (t : Trap) (slot : Nat) (bd : Bool) (tepc : Word), Spec.handled t →
    let x := s.ctx l
    let w := x.fin.getD x.cur
    w.flights = [] → x.undo = [] → x.releases = [] → w.ctl.tvec.getLsbD 0 = true → w.ctl.hndst.getLsbD 0 = false →
    let y := (s.takeTrap l t slot bd tepc).ctx l
    s.takeTrap l t slot bd tepc = s.setCtx l y ∧ y.pc = w.ctl.tvec &&& ~~~0x7 ∧ y.branch = none ∧ y.fin = none ∧ y.cur.looping = false ∧
      y.cur.ctl.tepc = tepc ∧ y.cur.ctl.tcause = t.word slot bd ∧
      y.cur.ctl.tbranch = BitVec.ofNat 64 (match x.branch with | some (d, _) => d | none => 0) ∧
      (∀ d g, x.branch = some (d, g) → y.cur.ctl.tbtgt = g) ∧ y.cur.ctl.hndst = 1 + ((w.ctl.gbase &&& 0x7F) <<< 1) ∧
      y.cur.ctl.gbase = 0 ∧ y.cur.hports = [] ∧ y.cur.readReg .s 62 = .word t.w62 ∧ y.cur.readReg .s 63 = .word t.w63 ∧
      ∀ f n, (f = .s → n ≠ 62 ∧ n ≠ 63) → y.cur.readReg f n = w.readReg f n

/-- Any other trap goes to the lodge (R394): the context halts with the record kept and no save, nothing runs in its core, and the device receives a
fault record of ORIGIN 5 with the class, the cause, the place and TEPC (R398, R399). -/
def Obligations.OtherTrapsHaltTheContext : Prop :=
  ∀ (s : State) (l : Loc) (t : Trap) (slot : Nat) (bd : Bool) (tepc : Word) (b : Binding),
    let x := s.ctx l
    let w := x.fin.getD x.cur
    w.flights = [] → x.undo = [] → x.binding = some b → x.saved = none →
    (¬ Spec.handled t ∨ w.ctl.tvec.getLsbD 0 = false ∨ w.ctl.hndst.getLsbD 0 = true) → (s.dev b.pav b.vd).flog.length < 64 →
    let u := s.takeTrap l t slot bd tepc
    (u.ctx l).mode = .halted ∧ (u.ctx l).saved = none ∧ (u.core l.core).running ≠ some l.ctx ∧
      (∃ r, (u.ctx l).record = some r ∧ r.tcause = t.word slot bd ∧ r.tepc = tepc ∧ r.w62 = t.w62 ∧ r.w63 = t.w63) ∧
      (u.dev b.pav b.vd).flog = (s.dev b.pav b.vd).flog ++
        [⟨5, t.cls.code, t.cause, l.core, l.ctx, 0, (s.dev b.pav b.vd).seq, tepc⟩] ∧ u.mem = s.mem

/-- A boundary trap that is due is taken before the bundle (R392, R393): an accumulator overflow, with PEND for an increment overrun that is due with it,
else the overrun, and with neither a memory error, which otherwise stays due for the next boundary (the order of the memory error is the
model's, log 25). -/
def Sys2Proof.Spec.BoundaryTrapsComeBeforeTheBundle : Prop :=
  ∀ (i : Instr) (s : State) (l : Loc) (u : UnitId) (op : Op) (m : Mv), s.turn = some l → i.trigger? = some (u, op, m) →
    let x := s.ctx l
    let c := x.cur.ctl
    let y : Ctx := { x with arithDue := false, overrunDue := false, memErrDue := x.memErrDue && (x.arithDue || x.overrunDue) }
    let go (t : Trap) := exec i s = .next (((s.take l).setCtx l y).takeTrap l t 0 true x.pc)
    (x.arithDue = true → go ⟨.arithmetic, 1, c.mxfault, c.ddfault, 0, if x.overrunDue then 2 else 0⟩) ∧
    (x.arithDue = false → x.overrunDue = true → go ⟨.overrun, 0, c.mxfault, c.ddfault, 0, 0⟩) ∧
    (x.arithDue = false → x.overrunDue = false → x.memErrDue = true → go ⟨.memory, 1, 0, 0, 0, 0⟩)

/-- Boundary traps that are due (R392, R393), and a bundle that cannot be fetched (R75, R111). -/
def Obligations.FetchAndBoundaryTrapsComeBeforeTheBundle : Prop :=
  Spec.BoundaryTrapsComeBeforeTheBundle ∧ Spec.StepTrapsWhereNothingCanBeFetched

/-- The frame of memory (R193, R194, R251): a row of any unit that answers a next state leaves every byte of memory, every tag and every poison bit as it
was, since what a store writes it writes when its access is accepted; a row of the scalar, predicate, immediate, vector, mask, special-function
and sorter units leaves the pools, the records of writers and the queues of the engines as well. -/
def Obligations.RowsLeaveMemoryUntilAcceptance : Prop :=
  ∀ (i : Instr) (s t : State) (u : UnitId) (op : Op) (m : Mv), i.trigger? = some (u, op, m) → exec i s = .next t →
    (∀ a, t.mem.byte a = s.mem.byte a) ∧ t.tags = s.tags ∧ t.poison = s.poison ∧
    (u.kind ∈ [UnitKind.sx, UnitKind.pd, UnitKind.im, UnitKind.vx, UnitKind.mk, UnitKind.sf, UnitKind.so] → t.lineMeta = s.lineMeta ∧
      ∀ c, (t.core c).pool = (s.core c).pool ∧ (t.core c).mxq = (s.core c).mxq ∧ (t.core c).frq = (s.core c).frq)

/-- The frame of the transfers, of MARK and of YIELD (R36, R110, R112, R248): where no trap enters a handler, every register but the one that the selector
names, and for MARK the predicates, keeps its content, and the mask stack and FPFLAGS stay. -/
def Obligations.TransfersKeepTheOtherRegisters : Prop :=
  ∀ (i : Instr) (s t : State) (l : Loc) (o : Opd), s.ready l i o → (s.ctx l).straight → (s.ctx l).cur.flights = [] →
    o.op ∈ [Op.jmp, Op.jmpa, Op.call, Op.calla, Op.ret, Op.bmz, Op.bmnz, Op.mark, Op.yield] → exec i s = .next t →
    (t.ctx l).cur.ctl.hndst = (s.ctx l).cur.ctl.hndst →
    (∀ f n, o.dest ≠ some (f, n) → (o.op = .mark → f ≠ .p) → (t.ctx l).cur.readReg f n = (s.ctx l).cur.readReg f n) ∧
      (t.ctx l).cur.stack = (s.ctx l).cur.stack ∧ (t.ctx l).cur.ctl.fpflags = (s.ctx l).cur.ctl.fpflags

/-! ### Tiles and the matrix sequencer (R144 to R168) -/

/-- TDESC, TSTAT and TSET (R147, R148, R150, R151, R302) complete: TDESC gives a t tile its descriptor and makes it empty with its flags and ERR 0; TSTAT
returns the status word of a t tile, or of a z tile that the program owns, and 0 for another z tile, with latency 1; TSET without SST clears the
flags that CLR names and sets TE where STE is 1, with SST it sets STATE too, but with SST and ST 0 it takes its owner from a z tile, whose
status returns to its reset value. -/
def Obligations.TileControlOperationsComplete : Prop :=
  ∀ (i : Instr) (s : State) (l : Loc) (o : Opd), s.ready l i o → (s.take l).passes l o →
    (o.op = .tdesc → ∃ t, exec i s = .next t ∧ o.b.toNat < 32 ∧
      let st := ((s.ctx l).tile o.b.toNat).stat
      (t.ctx l).tile o.b.toNat = ⟨o.xw, { st with state := 0, flags := 0, err := false }⟩ ∧
        ∀ n, n ≠ o.b.toNat → (t.ctx l).tile n = (s.ctx l).tile n) ∧
    (o.op = .tstat → o.xw.toNat < 32 →
      let st := ((s.ctx l).tile o.xw.toNat).stat
      let word := st.state + 4 * st.rcnt + 256 * st.flags.toNat + (if st.te then 2 ^ 16 else 0) + (if st.err then 2 ^ 17 else 0)
      exec i s = .next (s.fixedNext l o 1 (o.resultEffs (.word (BitVec.ofNat 64 word)) none))) ∧
    (o.op = .tset → o.xw.toNat < 32 → ∃ t, exec i s = .next t ∧
      let a := (s.ctx l).tile o.xw.toNat
      let b := (t.ctx l).tile o.xw.toNat
      b.desc = a.desc ∧ b.stat.flags = a.stat.flags &&& ~~~(o.b.extractLsb' 8 8) ∧ b.stat.rcnt = a.stat.rcnt ∧
        b.stat.te = (if o.b.getLsbD 4 then o.b.getLsbD 3 else a.stat.te) ∧
        b.stat.state = (if o.b.getLsbD 2 then (o.b.extractLsb' 0 2).toNat else a.stat.state)) ∧
    (o.op = .tstat → 32 ≤ o.xw.toNat →
      let z := (s.core l.core).ztile (o.xw.toNat - 32)
      let st := z.stat
      let word := st.state + 4 * st.rcnt + 256 * st.flags.toNat + (if st.te then 2 ^ 16 else 0) + (if st.err then 2 ^ 17 else 0)
      exec i s = .next (s.fixedNext l o 1
        (o.resultEffs (.word (if z.owner.isSome ∧ z.owner = s.progOf l then BitVec.ofNat 64 word else 0)) none))) ∧
    (o.op = .tset → 32 ≤ o.xw.toNat → ∃ t, exec i s = .next t ∧
      let a := (s.core l.core).ztile (o.xw.toNat - 32)
      let b := (t.core l.core).ztile (o.xw.toNat - 32)
      (o.b.getLsbD 2 = true ∧ o.b.extractLsb' 0 2 = 0 → b.owner = none ∧ b.stat.state = 0 ∧ b.stat.rcnt = 0 ∧ b.stat.flags = 0 ∧
        b.stat.te = false ∧ b.stat.err = false) ∧
      (¬ (o.b.getLsbD 2 = true ∧ o.b.extractLsb' 0 2 = 0) → b.owner = a.owner ∧ (∀ n, b.elem n = a.elem n) ∧
        b.stat.flags = a.stat.flags &&& ~~~(o.b.extractLsb' 8 8) ∧ b.stat.rcnt = a.stat.rcnt ∧
        b.stat.te = (if o.b.getLsbD 4 then o.b.getLsbD 3 else a.stat.te) ∧
        b.stat.state = (if o.b.getLsbD 2 then (o.b.extractLsb' 0 2).toNat else a.stat.state)))

/-- The operations of the matrix sequencer (R152, R154, R159, R163 to R168) that pass their checks complete: each joins the tail of its queue with its
operands, MCALL with copies of mp0 to mp7; MWR writes its word of the store, and AZERO takes the z tile for its program. -/
def Sys2Proof.Spec.MatrixOperationsJoinTheQueue : Prop :=
  ∀ (i : Instr) (s : State) (l : Loc) (o : Opd), s.ready l i o → (s.take l).passes l o →
    o.op ∈ [Op.mcall, Op.mwr, Op.quant, Op.azero, Op.awrite, Op.anorm, Op.acvt] →
    ∃ t e, exec i s = .next t ∧ (t.core l.core).mxq = (s.core l.core).mxq ++ [e] ∧ e.op = o.op ∧ e.id = s.opId ∧ e.who.ctx = l.ctx ∧
      e.lanes = Spec.mask (s.ctx l) ∧ e.resume = none ∧
      (o.op = .mcall → e.routine = o.xw.toNat ∧ e.mp = (List.range 8).map fun j => (s.ctx l).cur.mp.getD j 0) ∧
      (o.op = .mwr → (t.core l.core).store.getD o.b.toNat 0 = o.xw ∧ e.routine = o.b.toNat ∧ e.ctl = o.xw) ∧
      (o.op = .quant → e.tiles.map TileRef.code = [o.b.toNat, o.xw.toNat] ∧ e.tiles.map TileRef.role = [.source, .destination]) ∧
      (o.op = .azero → e.tiles.map TileRef.code = [o.xw.toNat] ∧ e.ctl = o.b &&& 0xFFFF ∧
        ((t.core l.core).ztile (o.xw.toNat - 32)).owner = s.progOf l ∧ ((t.core l.core).ztile (o.xw.toNat - 32)).stat.state = 1) ∧
      (o.op = .awrite → e.tiles.map TileRef.code = [o.b.toNat] ∧ e.ctl = o.c ∧ e.vec = o.xv) ∧
      (o.op = .anorm → e.tiles.map TileRef.code = [o.xw.toNat] ∧ ((t.core l.core).ztile (o.xw.toNat - 32)).stat.state = 1) ∧
      (o.op = .acvt → e.tiles.map TileRef.code = [o.b.toNat, o.xw.toNat] ∧ e.tiles.map TileRef.role = [.source, .destination])

/-- F[n] of a frame (R172, R305), as a device reads it. -/
def Sys2Proof.Spec.fadeOf (s : State) (core : Nat) (a : Accessor) (f : Frame) (n : Nat) : Bool :=
  (s.poolByte core a (65536 * f.bank + 64 + 8 * f.ne + n / 8)).getLsbD (n % 8)

/-- AREAD, SREAD and FSTAT (R31, R165, R181, R187, R252) that pass their checks complete: the destination is empty, and the value of the row, of the
frame (h, c or F of 128 elements) or of the slot (its status, POS and NE, or 64 fade bits) is on its way, to land after the operation's minimum
latency. -/
def Obligations.EngineReadsAreOnTheirWay : Prop :=
  ∀ (i : Instr) (s : State) (l : Loc) (o : Opd), s.ready l i o → (s.take l).passes l o → (s.ctx l).straight → (s.ctx l).cur.flights = [] →
    o.op ∈ [Op.aread, Op.sread, Op.fstat] →
    ∃ t lat v tile, exec i s = .next t ∧ (t.ctx l).landings.find? s.opId = some ⟨(s.core l.core).cycle + 1 + lat, some v, tile⟩ ∧
      lat = (if o.op = .fstat then 4 else 6) ∧
      (∀ f n, o.dest = some (f, n) → (f = .s ∨ f = .v) → n < 64 → (t.ctx l).cur.isEmpty f n = true) ∧
      (o.op = .aread → tile = some o.xw.toNat ∧ ∃ y, v = .vec y ∧ ∀ j, j < 128 →
        let e := ((s.core l.core).ztile (o.xw.toNat - 32)).elem (128 * (o.b.extractLsb' 0 7).toNat + j)
        lane y j = match (o.b.extractLsb' 7 2).toNat with
          | 0 => e.w.extractLsb' 0 32
          | 1 => e.w.extractLsb' 32 32
          | 2 => e.e.signExtend 32
          | _ => BitVec.ofNat 32 e.status) ∧
      (o.op = .sread → ∃ y, v = .vec y ∧ ∀ j, j < 128 →
        let f := (s.core l.core).frameOf ((s.ctx l).cur.ctl.sccfg.extractLsb' 3 4).toNat
        let n := (o.xw.extractLsb' 0 18).toNat + j
        lane y j = if f.ne ≤ n then 0 else match (o.xw.extractLsb' 18 2).toNat with
          | 0 => BitVec.ofNat 32 (s.poolNat l.core (s.accessor l) (65536 * f.bank + 64 + 4 * n) 4)
          | 1 => BitVec.ofNat 32 (s.poolNat l.core (s.accessor l) (65536 * f.bank + 64 + 4 * f.ne + 4 * n) 4)
          | _ => if Spec.fadeOf s l.core (s.accessor l) f n then 1 else 0) ∧
      (o.op = .fstat →
        let p := (s.core l.core).slot (o.xw.extractLsb' 0 4).toNat
        let f := (s.core l.core).frameOf (o.xw.extractLsb' 0 4).toNat
        let fade := Spec.fadeOf s l.core (s.accessor l) f
        let n0 := (o.b.extractLsb' 2 18).toNat
        match (o.b.extractLsb' 0 2).toNat with
        | 0 => if p.frame.isSome then ∃ faded : Nat, v = .word (BitVec.ofNat 64 (1 + (if f.cow then 2 else 0) + (if p.err then 4 else 0) +
            8 * faded + 2 ^ 4 * min p.fcnt 15 + 2 ^ 8 * min p.scnt 15 + 2 ^ 12 * f.sid + 2 ^ 28 * f.layer + 2 ^ 36 * f.stag +
            2 ^ 52 * f.bank)) ∧ (f.ne % 32 = 0 → faded = if ∃ n < f.ne, fade n = true then 1 else 0)
          else v = .word (if p.err then 4 else 0)
        | 1 => v = .word (if p.frame.isSome then BitVec.ofNat 64 (f.pos + f.ne * 2 ^ 32) else 0)
        | _ => ∃ y, v = .word y ∧ ∀ j, j < 64 → y.getLsbD j = (p.frame.isSome && decide (n0 + j < f.ne) && fade (n0 + j)))

/-- SCFG and the scan operations (R175 to R180, R182): SCFG writes SCCFG for the bundles that follow; each scan operation that passes its checks joins the tail
of the queue with its copy of SCCFG, and SCNT of its slot counts it. -/
def Sys2Proof.Spec.ScanOperationsJoinTheQueue : Prop :=
  ∀ (i : Instr) (s : State) (l : Loc) (o : Opd), s.ready l i o → (s.take l).passes l o →
    (o.op = .scfg → (s.ctx l).cur.flights = [] → ∃ t, exec i s = .next t ∧ (t.ctx l).cur.ctl.sccfg = o.xw) ∧
    (o.op ∈ [Op.sload, Op.scomp, Op.scarry, Op.sapply] →
      let c := (s.ctx l).cur.ctl.sccfg
      let n := (c.extractLsb' 3 4).toNat
      ∃ t e, exec i s = .next t ∧ (t.core l.core).scq = (s.core l.core).scq ++ [e] ∧ e.op = o.op ∧ e.id = s.opId ∧ e.who.ctx = l.ctx ∧
        e.cfg = c ∧ e.next = 0 ∧ ((t.core l.core).slot n).scnt = ((s.core l.core).slot n).scnt + 1 ∧
        e.tiles.map TileRef.code = (match o.op with
          | .sload => [o.xw.toNat]
          | .sapply => [o.xw.toNat, o.b.toNat, o.c.toNat]
          | _ => [o.xw.toNat, o.b.toNat]))

/-- The queued frame operations (R173, R183 to R186) that pass their checks complete: each joins the tail of the queue and FCNT of its slot counts it; FBIND and
FORK bind a new frame with the key, the first bank and the length that its latches give, for the device of their program, and FDROP unbinds the slot.
That POS, STAG and COW of the new frame are 0 until the operation brings its content is the model's choice (log 15). -/
def Sys2Proof.Spec.FrameOperationsJoinTheQueue : Prop :=
  ∀ (i : Instr) (s : State) (l : Loc) (o : Opd), s.ready l i o → (s.take l).passes l o →
    o.op ∈ [Op.fbind, Op.fswap, Op.snap, Op.fork, Op.roll, Op.fdrop] →
    let n := (o.xw.extractLsb' 0 4).toNat
    let f := (s.core l.core).slot n
    ∃ t e, exec i s = .next t ∧ (t.core l.core).frq = (s.core l.core).frq ++ [e] ∧ e.op = o.op ∧ e.id = s.opId ∧ e.who.ctx = l.ctx ∧
      e.cmd = o.xw ∧ e.o1 = o.b ∧ e.o2 = o.c ∧ e.running = false ∧ ((t.core l.core).slot n).fcnt = f.fcnt + 1 ∧
      (o.op ∈ [Op.fbind, Op.fork] → ((t.core l.core).slot n).err = false ∧ (t.core l.core).frameOf n =
        ⟨(o.b.extractLsb' 0 16).toNat, (o.b.extractLsb' 16 8).toNat, (o.c.extractLsb' 0 7).toNat, 32 * ((o.c.extractLsb' 7 13).toNat + 1), 0, 0,
          false, ((s.ctx l).binding.map Binding.vd).getD 256⟩) ∧
      (o.op = .fdrop → ((t.core l.core).slot n).frame = none) ∧
      (o.op ∈ [Op.fswap, Op.snap, Op.roll] → ((t.core l.core).slot n).frame = f.frame)

/-- The triggers of the matrix sequencer, the scan engine and the frame engine join the tails of their queues. -/
def Obligations.EngineOperationsJoinTheirQueue : Prop :=
  Spec.MatrixOperationsJoinTheQueue ∧ Spec.ScanOperationsJoinTheQueue ∧ Spec.FrameOperationsJoinTheQueue

/-! ### Integrators (R230 to R242) -/

/-- A number saturated to w bits. -/
def Sys2Proof.Spec.saturated (w : Nat) (x : Int) : Int := max (-(2 ^ (w - 1))) (min (2 ^ (w - 1) - 1) x)

/-- The operations of dd (R233, R238, R240 to R242) that pass their checks, with an empty queue and no domain that runs: each completes and acts at once. PATCH
writes its entry, and clears y, r and the output where W or M changes; SETY, SETR and INJECT write their cells in the enabled lanes; GETY, GETR and
CNT deliver the lanes of their cells, and CNT with CLR clears the counts; STEP and START let their domain run; DSAVE writes and DLOAD reads the
records of its cells. -/
def Obligations.IntegratorOperationsAct : Prop :=
  ∀ (i : Instr) (s : State) (l : Loc) (o : Opd), s.ready l i o → (s.take l).passes l o → (s.core l.core).ddq = [] →
    (∀ d, (s.ctx l).cur.runs d = false) → o.op ∈ opsOf .dd →
    let m := Spec.mask (s.ctx l)
    let first (cr : Word) : Nat := (cr.extractLsb' 0 9).toNat
    let count (cr : Word) : Nat := (cr.extractLsb' 9 8).toNat + 1
    let records (sv : Word) : Nat := (sv.extractLsb' 9 9).toNat + 1
    let width (c : Cell) : Nat := (c.w0.extractLsb' 0 5).toNat + 8
    ∃ t, exec i s = .next t ∧ (t.core l.core).ddq = [] ∧
      (o.op = .patch →
        let c := (s.ctx l).cell o.b.toNat
        let keep := decide (c.w0.extractLsb' 0 10 = o.xw.extractLsb' 0 10)
        (t.ctx l).cell o.b.toNat =
          ⟨o.xw, o.c, if keep then c.y else 0, if keep then c.r else 0, if keep then c.out else 0, c.j, c.cnt⟩) ∧
      (∀ j, j < count o.b →
        let c := (s.ctx l).cell (first o.b + j)
        let v := lane o.xv j
        (o.op = .sety → (t.ctx l).cell (first o.b + j) = if m.getLsbD j then { c with y := Spec.saturated (width c) v.toInt } else c) ∧
        (o.op = .setr → (t.ctx l).cell (first o.b + j) =
          if m.getLsbD j then { c with r := v.toNat % 2 ^ (c.w0.extractLsb' 5 5).toNat } else c) ∧
        (o.op = .inject → (t.ctx l).cell (first o.b + j) = if m.getLsbD j then { c with j := Spec.saturated 16 (c.j + v.toInt) } else c)) ∧
      (o.op ∈ [Op.gety, Op.getr, Op.cnt] →
        ∃ y, (t.ctx l).landings.find? s.opId = some ⟨(s.core l.core).cycle + 5, some (.vec y), none⟩ ∧ ∀ j, j < 128 →
          let c := (s.ctx l).cell (first o.xw + j)
          (lane y j = if j < count o.xw then
              (if o.op = .gety then BitVec.ofInt 32 c.y else if o.op = .getr then BitVec.ofNat 32 c.r else c.cnt)
            else 0) ∧
          (o.op = .cnt → o.xw.getLsbD 17 = true → j < count o.xw → (t.ctx l).cell (first o.xw + j) = { c with cnt := 0 })) ∧
      (o.op = .step → (t.ctx l).cur.runs o.xw.toNat = true ∧ (t.ctx l).cur.stepped o.xw.toNat = true ∧
        (((t.ctx l).cur.count o.xw.toNat).extractLsb' 32 16).toNat = o.b.toNat) ∧
      (o.op = .start → (t.ctx l).cur.runs o.xw.toNat = true ∧ (t.ctx l).cur.stepped o.xw.toNat = false) ∧
      (o.op = .stop → (t.ctx l).cur.runs o.xw.toNat = false) ∧
      (o.op = .dsave → o.b.getLsbD 37 = true → ∀ a, 32 * o.xw.toNat ≤ a → (s.core l.core).reservedByte a = false →
        a < 32 * (o.xw.toNat + records o.b) →
        (t.core l.core).pool.byte a =
          (((s.ctx l).cell (first o.b + (a / 32 - o.xw.toNat))).record).getD (a % 32) 0) ∧
      (o.op = .dload → o.b.getLsbD 37 = true → ∀ j c, j < records o.b →
        cellOfRecord (s.poolBytes l.core (s.accessor l) (32 * (o.xw.toNat + j)) 32) (s.ctx l).cur.cellCount (s.ctx l).cur.domainCount = some c →
        (t.ctx l).cell (first o.b + j) = c)

/-! ### Memory (R191 to R207, R251) -/

/-- The size of a load and whether it extends the sign (R196). -/
def Sys2Proof.Spec.loadOf (op : Op) : Option (Nat × Bool) :=
  match op with
  | .ld8 => some (1, true)
  | .ld16 => some (2, true)
  | .ld32 | .ldacq32 => some (4, true)
  | .ld64 | .ldacq64 => some (8, true)
  | .ldn8 => some (1, false)
  | .ldn16 => some (2, false)
  | .ldn32 => some (4, false)
  | _ => none

/-- The loads (R193, R194, R196, R197, R252): a row whose access passes its checks waits for acceptance; accepted, its context goes on, its destination is
empty and the extended bytes, or the 16 bytes with the tag of their granule (0 for bytes of another key than the page's, R101), land after the
minimum latency of 24 cycles; memory stays. -/
def Obligations.LoadsDeliverTheirBytes : Prop :=
  ∀ (i : Instr) (s : State) (l : Loc) (o : Opd), s.ready l i o → (s.ctx l).straight → (s.ctx l).cur.flights = [] → s.accessible l o →
    let t := s.waiting l o
    let done (u : State) (v : Value) : Prop :=
      exec i s = .next t ∧ exec (.accessAcceptance l.core l.ctx) t = .next u ∧ (u.ctx l).mode = .running ∧ (u.ctx l).wait = none ∧
        (u.ctx l).pc = (s.ctx l).pc + 24 ∧
        (u.ctx l).landings.find? s.opId = some ⟨(s.core l.core).cycle + 25, some v, none⟩ ∧
        (∀ f n, o.dest = some (f, n) → (f = .s ∧ n < 64 ∨ f = .a ∧ n < 32) → (u.ctx l).cur.isEmpty f n = true) ∧ u.mem = s.mem
    (∀ size signed, Spec.loadOf o.op = some (size, signed) →
      let ps := t.parts l o.loadAddr size false
      let n := leNat (t.readRange ps).1
      (∀ p ∈ ps, t.piecePoisoned p = false) →
      ∃ u, done u (.word (if signed then (BitVec.ofNat (8 * size) n).signExtend 64 else BitVec.ofNat 64 n))) ∧
    (o.op = .ldc →
      let ps := t.parts l o.loadAddr 16 false
      (∀ p ∈ ps, t.piecePoisoned p = false) →
      ∃ u, done u (.cap ⟨BitVec.ofNat 128 (leNat (t.readRange ps).1), match ps with
        | p :: _ => !t.keyDead p.place.kidx && t.lineKey.getD (p.place.pa / 64) 0 == t.serialOf p.place.kidx &&
          t.tags.getD (p.place.pa / 16) false
        | [] => false⟩))

/-- The size and the data of a store (R196, R197). -/
def Sys2Proof.Spec.storeOf (o : Opd) : Option (Nat × Nat) :=
  match o.op with
  | .st8 => some (1, o.xw.toNat)
  | .st16 => some (2, o.xw.toNat)
  | .st32 | .strel32 => some (4, o.xw.toNat)
  | .st64 | .strel64 => some (8, o.xw.toNat)
  | .stc => some (16, o.xc.raw.toNat)
  | _ => none

/-- The scalar stores (R193 to R197): a row whose access passes its checks waits for acceptance; accepted, its context goes on and its bytes stand at the place
that its address translates to, as a reader under the key of the page finds them; every other byte reads as before, the tags of the granules it
covers are 0, and that of STC is what R197 gives; every other tag stays, but for those of a line that another key wrote, which are 0. -/
def Obligations.StoresWriteTheirBytes : Prop :=
  ∀ (i : Instr) (s : State) (l : Loc) (o : Opd) (size x : Nat) (p : Piece), s.ready l i o → (s.ctx l).straight → s.accessible l o →
    Spec.storeOf o = some (size, x) →
    let t := s.waiting l o
    t.parts l o.storeAddr size true = [p] → p.len = size → p.place.pa % 64 + size ≤ 64 → t.keyDead p.place.kidx = false →
    t.poison.getD (p.place.pa / 64) false = false →
    let key := t.serialOf p.place.kidx
    let pa := p.place.pa
    ∃ u, exec i s = .next t ∧ exec (.accessAcceptance l.core l.ctx) t = .next u ∧ (u.ctx l).mode = .running ∧
      (u.ctx l).pc = (s.ctx l).pc + 24 ∧
      (∀ j, j < size → u.byteUnder key (pa + j) = BitVec.ofNat 8 (x / 256 ^ j)) ∧
      (∀ a, a < pa ∨ pa + size ≤ a → u.byteUnder key a = s.byteUnder key a) ∧
      (o.op ≠ .stc → ∀ j, j < size → u.tags.getD ((pa + j) / 16) false = false) ∧
      (o.op = .stc → u.tags.getD (pa / 16) false =
        (o.xc.tag && o.cap.perm.getLsbD 3 && (!o.xc.perm.getLsbD 5 || o.cap.perm.getLsbD 5))) ∧
      ∀ g, g < pa / 16 ∨ (pa + size - 1) / 16 < g → u.tags.getD g false =
        (s.tags.getD g false && !(g / 4 == pa / 64 && t.lineKey.getD (pa / 64) 0 != key))

/-- An access whose checks find a fault (R193, R194): at acceptance the context takes the trap at the slot, and no move of the bundle takes effect; a scalar
access fails first by its capability, in the order tag, seal, tenant, grant, bounds, and then by its alignment (R104, R397). -/
def Obligations.FailingAccessesTrapAtAcceptance : Prop :=
  ∀ (i : Instr) (s : State) (l : Loc) (o : Opd), s.ready l i o → (s.take l).passes l o → o.prov = false →
    let t := s.waiting l o
    (∀ check tr, (opSem o.op).access = some check → check t l o = some tr →
      exec i s = .next t ∧
        exec (.accessAcceptance l.core l.ctx) t = .next ((t.endWait l).takeTrap l tr o.slot false (s.ctx l).pc)) ∧
    (∀ size addr need, ((∃ sg, Spec.loadOf o.op = some (size, sg)) ∧ addr = o.loadAddr ∧ need = 0x01 ∨
        (∃ x, Spec.storeOf o = some (size, x)) ∧ addr = o.storeAddr ∧ need = 0x02) →
      let k := o.cap
      let go (c : Nat) : Prop := exec (.accessAcceptance l.core l.ctx) t =
        .next ((t.endWait l).takeTrap l (capTrap c (BitVec.ofInt 64 addr)) o.slot false (s.ctx l).pc)
      (k.tag = false → go 1) ∧
      (k.tag = true → k.perm.getLsbD 6 = true → go 2) ∧
      (k.tag = true → k.perm.getLsbD 6 = false → k.tenant ≠ s.tenantOf l → go 3) ∧
      (k.tag = true → k.perm.getLsbD 6 = false → k.tenant = s.tenantOf l → (k.perm &&& need = 0 ∨ k.perm.getLsbD 4 = true) → go 4) ∧
      (k.tag = true → k.perm.getLsbD 6 = false → k.tenant = s.tenantOf l → k.perm &&& need ≠ 0 → k.perm.getLsbD 4 = false →
        (addr < k.base ∨ (k.base + k.len : Int) < addr + size) → go 5) ∧
      (k.tag = true → k.perm.getLsbD 6 = false → k.tenant = s.tenantOf l → k.perm &&& need ≠ 0 → k.perm.getLsbD 4 = false →
        k.base ≤ addr → addr + size ≤ (k.base + k.len : Int) → addr % size ≠ 0 → go 6))

/-- The vector loads (R199, R202, R252) with an enabled lane: accepted, they deliver to the enabled lanes alone: VLD the 128 words of its range, GATH for each
enabled lane the word at its own address, VLDX the values of its record in the halves of the mask's ones and 0 in the others. -/
def Sys2Proof.Spec.VectorLoadsDeliverTheirLanes : Prop :=
  ∀ (i : Instr) (s : State) (l : Loc) (o : Opd), s.ready l i o → (s.ctx l).straight → s.accessible l o →
    o.op ∈ [Op.vld, Op.gath, Op.vldx] →
    let m := Spec.mask (s.ctx l)
    m ≠ 0 →
    let t := s.waiting l o
    let lat := if o.op = .gath then 32 else 28
    let word (ps : List Piece) : Lane := BitVec.ofNat 32 (leNat (t.readRange ps).1)
    let head := (t.readRange (t.parts l o.loadAddr 36 false)).1
    (∀ a n p, p ∈ t.parts l a n false → t.piecePoisoned p = false) →
    ∃ u y, exec i s = .next t ∧ exec (.accessAcceptance l.core l.ctx) t = .next u ∧ (u.ctx l).mode = .running ∧
      (u.ctx l).pc = (s.ctx l).pc + 24 ∧ u.mem = s.mem ∧
      (u.ctx l).landings.find? s.opId = some ⟨(s.core l.core).cycle + 1 + lat, some (.vec y), none⟩ ∧
      (∃ q ∈ (u.ctx l).cur.pending, q.id = s.opId ∧ q.dest = o.dest ∧ q.lanes = some m) ∧
      (o.op = .vld → ∀ j, j < 128 →
        lane y j = BitVec.ofNat 32 (leNat (((t.readRange (t.parts l o.loadAddr 512 false)).1.drop (4 * j)).take 4))) ∧
      (o.op = .gath → ∀ j, j < 128 → m.getLsbD j = true → lane y j = word (t.parts l (laneAddr o o.xv j) 4 false)) ∧
      (o.op = .vldx → ∀ h, h < 256 →
        let ones := leNat (head.drop 4)
        let rank := ((List.range h).filter fun g => ones.testBit g).length
        let value (b : Nat) : Byte := t.valueByte l o.cap (o.loadAddr.toNat + 36 + b)
        y.extractLsb' (16 * h) 16 = if ones.testBit h then value (2 * rank + 1) ++ value (2 * rank) else 0)

/-- The vector stores (R199 to R201): accepted, VST writes the enabled lanes of its range and VSTC the record of its vector, each byte where its address
translates to, in lines that differ; VSTC advances its address latch by the size of the record; SCAT writes its lanes in ascending order, so that
its last enabled lane stands in memory. With no enabled lane nothing is written. -/
def Sys2Proof.Spec.VectorStoresWriteTheirLanes : Prop :=
  ∀ (i : Instr) (s : State) (l : Loc) (o : Opd), s.ready l i o → (s.ctx l).straight → s.accessible l o →
    o.op ∈ [Op.vst, Op.vstc, Op.scat] →
    let m := Spec.mask (s.ctx l)
    let t := s.waiting l o
    let record := recordOf ((List.range 256).map fun h => if m.getLsbD (h / 2) then o.xv.extractLsb' (16 * h) 16 else 0)
    let writable (ps : List Piece) : Prop :=
      (ps.map fun p => p.place.pa / 64).Nodup ∧ ∀ p ∈ ps, t.keyDead p.place.kidx = false ∧
        t.poison.getD (p.place.pa / 64) false = false ∧ p.place.pa % 64 + p.len ≤ 64
    ∃ u, exec i s = .next t ∧ exec (.accessAcceptance l.core l.ctx) t = .next u ∧ (u.ctx l).mode = .running ∧
      (u.ctx l).pc = (s.ctx l).pc + 24 ∧ (m = 0 → u.mem = s.mem) ∧
      (o.op = .vst → m ≠ 0 → writable (t.parts l o.storeAddr 512 true) → ∀ p ∈ t.parts l o.storeAddr 512 true, ∀ k, k < p.len →
        let n := p.va + k - o.storeAddr.toNat
        let key := t.serialOf p.place.kidx
        u.byteUnder key (p.place.pa + k) =
          if m.getLsbD (n / 4) then (lane o.xv (n / 4)).extractLsb' (8 * (n % 4)) 8 else s.byteUnder key (p.place.pa + k)) ∧
      (o.op = .vstc → m ≠ 0 → writable (t.parts l o.storeAddr record.length true) →
        (∀ p ∈ t.parts l o.storeAddr record.length true, ∀ k, k < p.len →
          u.byteUnder (t.serialOf p.place.kidx) (p.place.pa + k) = record.getD (p.va + k - o.storeAddr.toNat) 0) ∧
        ∀ x, (((s.ctx l).cur.port o.unit).latch 2) = ⟨.value (.word x), 0⟩ →
          (((u.ctx l).cur.port o.unit).latch 2).content = .value (.word (x + BitVec.ofNat 64 record.length))) ∧
      (o.op = .scat → ∀ j p, j < 128 → m.getLsbD j = true → (∀ q, q < 128 → j < q → m.getLsbD q = false) →
        (∀ q r, r ∈ t.parts l (laneAddr o o.offsets q) 4 true → t.keyDead r.place.kidx = false ∧
          t.poison.getD (r.place.pa / 64) false = false) →
        t.parts l (laneAddr o o.offsets j) 4 true = [p] → p.len = 4 → p.place.pa % 64 + 4 ≤ 64 →
        ∀ k, k < 4 → u.byteUnder (t.serialOf p.place.kidx) (p.place.pa + k) = (lane o.xv j).extractLsb' (8 * k) 8)

/-- The vector loads and stores (R199 to R202, R252). -/
def Obligations.VectorLoadsAndStoresMoveTheirLanes : Prop :=
  Spec.VectorLoadsDeliverTheirLanes ∧ Spec.VectorStoresWriteTheirLanes

/-- The size of an atomic, the number that it writes, if it writes, from the number in memory (R203). -/
def Sys2Proof.Spec.atomicOf (o : Opd) (m : Nat) : Option (Nat × Option Nat) :=
  let x := o.xw.toNat
  let i (n : Nat) : Int := (BitVec.ofNat 64 n).toInt
  match o.op with
  | .atadd32 => some (4, some ((m + x) % 2 ^ 32))
  | .atadd64 => some (8, some ((m + x) % 2 ^ 64))
  | .atand => some (8, some (m &&& x))
  | .ator => some (8, some (m ||| x))
  | .atxor => some (8, some (m ^^^ x))
  | .atmax => some (8, some (if i m < i x then x else m))
  | .atmin => some (8, some (if i x < i m then x else m))
  | .atswp => some (8, some x)
  | .cas64 => some (8, if m = o.k.raw.toNat % 2 ^ 64 then some x else none)
  | .cas128 => some (16, if m = o.k.raw.toNat then some o.xc.raw.toNat else none)
  | _ => none

/-- The atomics (R203, R252): accepted, they read the number in memory and write the new one in one step; a CAS that fails writes nothing; the old number lands
after the minimum latency of 40 cycles, sign-extended for ATADD32 and untagged for CAS128. Every other byte reads as before. -/
def Obligations.AtomicsReadAndWriteInOneStep : Prop :=
  ∀ (i : Instr) (s : State) (l : Loc) (o : Opd) (size : Nat) (new : Option Nat) (p : Piece), s.ready l i o → (s.ctx l).straight →
    s.accessible l o →
    let t := s.waiting l o
    let m := leNat (t.readPiece p)
    Spec.atomicOf o m = some (size, new) → t.parts l o.storeAddr size true = [p] → p.len = size → p.place.pa % 64 + size ≤ 64 →
    t.keyDead p.place.kidx = false → t.poison.getD (p.place.pa / 64) false = false →
    let key := t.serialOf p.place.kidx
    let pa := p.place.pa
    ∃ u, exec i s = .next t ∧ exec (.accessAcceptance l.core l.ctx) t = .next u ∧ (u.ctx l).mode = .running ∧
      (u.ctx l).pc = (s.ctx l).pc + 24 ∧
      (u.ctx l).landings.find? s.opId = some ⟨(s.core l.core).cycle + 41, some
        (if o.op = .cas128 then .cap ⟨BitVec.ofNat 128 m, false⟩
          else if o.op = .atadd32 then .word ((BitVec.ofNat 32 m).signExtend 64) else .word (BitVec.ofNat 64 m)), none⟩ ∧
      (∀ j, j < size → u.byteUnder key (pa + j) = match new with
        | some x => BitVec.ofNat 8 (x / 256 ^ j)
        | none => s.byteUnder key (pa + j)) ∧
      ∀ a, a < pa ∨ pa + size ≤ a → u.byteUnder key a = s.byteUnder key a

/-- Fences, hints and cache control (R204 to R206, R251, R318) that pass their checks complete. FENCE and FENCE.SC only pass on, since every access of their
paths has been performed when it was accepted (log 6); XFENCE keeps its context from issuing exactly while an operation of its program is in
flight on the source path; a hint changes no byte, and one that is dropped counts in HDROP; HRES sets the class of a line that the slice
holds; CCTL leaves no dirty copy of the lines it covers, or their bytes 0. -/
def Sys2Proof.Spec.FencesHintsAndCacheControlComplete : Prop :=
  ∀ (i : Instr) (s : State) (l : Loc) (o : Opd), s.ready l i o → (s.ctx l).straight → (s.take l).passes l o →
    (o.op ∈ [Op.fence, Op.fenceSc] → exec i s = .next (s.completed l o (s.acting l))) ∧
    (o.op = .xfence →
      let waits := ∃ e ∈ (s.core l.core).inFlight, e.2.1 = (o.xw.extractLsb' 0 3).toNat ∧ some e.2.2 = s.progOf l
      ∃ t, exec i s = .next t ∧ (t.ctx l).pc = (s.ctx l).pc + 24 ∧
        (waits → (t.ctx l).mode = .blocked ∧ (t.ctx l).wait = some .fence) ∧ (¬ waits → (t.ctx l).mode = (s.ctx l).mode)) ∧
    (o.op ∈ [Op.hint, Op.hres] → ∃ t, exec i s = .next t ∧ (t.ctx l).pc = (s.ctx l).pc + 24 ∧ t.mem = s.mem ∧
      let addr := if o.op = .hint then o.loadAddr else o.storeAddr
      ((s.acting l).hintPlace l o.cap addr = none → (s.ctx l).cur.flights = [] → (s.ctx l).cur.ctl.memcnt.extractLsb' 0 32 ≠ 0xFFFFFFFF →
        (t.ctx l).cur.ctl.memcnt = (s.ctx l).cur.ctl.memcnt + 1) ∧
      (o.op = .hres → ∀ p e, (s.acting l).hintPlace l o.cap addr = some p → (o.xw.extractLsb' 0 2).toNat ≠ 3 →
        (s.slice (l.core / 8)).find? (p.pa / 64) = some e →
        (t.slice (l.core / 8)).find? (p.pa / 64) = some { e with cls := (o.xw.extractLsb' 0 2).toNat })) ∧
    (o.op = .cctl → s.accessible l o →
      let t := s.waiting l o
      let zero := decide ((o.xw.extractLsb' 0 2).toNat = 2)
      let ps := t.parts l o.storeAddr (64 * ((o.xw.extractLsb' 2 8).toNat + 1)) zero
      ∃ u, exec i s = .next t ∧ exec (.accessAcceptance l.core l.ctx) t = .next u ∧ (u.ctx l).pc = (s.ctx l).pc + 24 ∧
        (zero = false → u.mem = s.mem ∧ ∀ p ∈ ps, u.home.find? (p.place.pa / 64) = none ∧
          ∀ n e, (u.slice n).find? (p.place.pa / 64) = some e → e.dirty = false) ∧
        (zero = true → ∀ p, ps = [p] → t.keyDead p.place.kidx = false → p.place.pa % 64 = 0 → p.len = 64 →
          ∀ j, j < 64 → u.byteUnder (t.serialOf p.place.kidx) (p.place.pa + j) = 0))

/-- BREL (R37, R207, R298, R300): the banks of its word leave the claims of its program, and its region ends; one with S = 1 in a delay bundle of a
branch that was not taken is kept until that branch resolves. -/
def Sys2Proof.Spec.BrelReleasesItsBanks : Prop :=
  ∀ (i : Instr) (s : State) (l : Loc) (o : Opd) (b : Binding), s.ready l i o → (s.take l).passes l o → o.op = .brel → o.prov = false →
    (s.ctx l).binding = some b → (s.ctx l).cur.flights = [] →
    let first := (o.xw.extractLsb' 0 7).toNat
    let last := first + (o.xw.extractLsb' 7 7).toNat
    let later := o.s = true ∧ (s.ctx l).ctime < (s.ctx l).untaken
    ∃ t, exec i s = .next t ∧
      (¬ later → (∀ c, c ∈ (t.core l.core).claims ↔ c ∈ (s.core l.core).claims ∧ ¬ (c.prog = b.prog ∧ first ≤ c.bank ∧ c.bank ≤ last)) ∧
        (t.ctx l).cur.region = ((s.ctx l).cur.region + 1) % 32) ∧
      (later → (t.core l.core).claims = (s.core l.core).claims ∧ (t.ctx l).cur.region = (s.ctx l).cur.region ∧
        ∃ bs, (t.ctx l).releases = (s.ctx l).releases ++ [((s.ctx l).untaken, bs)] ∧ ∀ n, n ∈ bs ↔ first ≤ n ∧ n ≤ last)

/-- Fences, hints, cache control and BREL (R204 to R207, R251, R298, R300, R318). -/
def Obligations.FencesHintsCacheControlAndReleasesComplete : Prop :=
  Spec.FencesHintsAndCacheControlComplete ∧ Spec.BrelReleasesItsBanks

/-! ### Copies, barriers and queues (R209 to R228) -/

/-- A result of latency 2 is on its way: it lands at the end of the next bundle (R30). -/
def Sys2Proof.Spec.nextBundle (x y : Ctx) (effs : List Eff) : Prop := ∃ f ∈ y.cur.flights, f.due = x.ctime + 1 ∧ f.effs = effs

/-- COPY and TWR (R209, R210, R215, R219) that pass their checks complete: COPY joins the tail of its channel's queue with the image of its template, its
displacements and its trigger value, not running, and its number joins the stream bank that STRM names; TWR writes its capability with its tag to the
slot, keeps the others, and makes its program the owner of a template that has none. -/
def Sys2Proof.Spec.CopyOperationsComplete : Prop :=
  ∀ (i : Instr) (s : State) (l : Loc) (o : Opd), s.ready l i o → (s.take l).passes l o →
    let k := s.core l.core
    (o.op = .copy →
      let strm := (o.xw.extractLsb' 26 2).toNat
      let channel (k : Core) : List CpOp := if o.unit = .cp1 then k.cp1q else k.cp0q
      ∃ t e, exec i s = .next t ∧ channel (t.core l.core) = channel k ++ [e] ∧ e.id = s.opId ∧ e.x = o.xw ∧ e.disp = o.b ∧ e.running = false ∧
        (e.image = (List.range 8).map fun j => ((k.templates.getD (o.xw.extractLsb' 0 6).toNat .reset).slots.getD j ⟨0, false⟩)) ∧
        (t.ctx l).qa = (s.ctx l).qa ++ (if strm = 1 then [s.opId] else []) ∧
        (t.ctx l).qb = (s.ctx l).qb ++ (if strm = 2 then [s.opId] else [])) ∧
    (o.op = .twr →
      let n := (o.c.extractLsb' 3 6).toNat
      ∃ t, exec i s = .next t ∧
        let u := k.templates.getD n .reset
        let v := (t.core l.core).templates.getD n .reset
        v.slots.getD (o.c.extractLsb' 0 3).toNat ⟨0, false⟩ = o.xc ∧
          (∀ j, j ≠ (o.c.extractLsb' 0 3).toNat → v.slots.getD j ⟨0, false⟩ = u.slots.getD j ⟨0, false⟩) ∧
          v.owner = (if u.owner = none then s.progOf l else u.owner) ∧
          ∀ m, m ≠ n → (t.core l.core).templates.getD m .reset = k.templates.getD m .reset)

/-- A barrier after an arrival that carries n sectors (R221): an underflow is the first error 7, and with both counts at 0 the next phase begins. -/
def Sys2Proof.Spec.arrived (b : Barrier) (n : Nat) : Barrier :=
  let under := b.arr = 0 ∨ b.sec < n
  let e := if under ∧ b.err = false then 7 else b.ecause
  if b.arr ≤ 1 ∧ b.sec ≤ n then ⟨(b.phase + 1) % 16, b.err || decide under, e, b.iarr, b.isec, b.iarr, b.isec⟩
  else ⟨b.phase, b.err || decide under, e, b.arr - 1, b.sec - n, b.iarr, b.isec⟩

/-- A barrier whose counts are raised (R221): a sum beyond its field is the first error 7, and the count stays at the most of its field. -/
def Sys2Proof.Spec.expected (b : Barrier) (a n : Nat) : Barrier :=
  let beyond := 2 ^ 24 ≤ b.arr + a ∨ 2 ^ 32 ≤ b.sec + n
  ⟨b.phase, b.err || decide beyond, if beyond ∧ b.err = false then 7 else b.ecause, min (b.arr + a) (2 ^ 24 - 1), min (b.sec + n) (2 ^ 32 - 1),
    b.iarr, b.isec⟩

/-- The operations of tb (R220, R221) that pass their checks complete on a barrier that their device can read and write: BINIT sets its counts, BARR
arrives, BEXP raises the counts, BWAIT goes on in another phase, and BTEST gives the low half, or for a predicate whether the phase is
another; a BWAIT for the phase in force waits. -/
def Obligations.BarrierOperationsFollowTheCounts : Prop :=
  ∀ (i : Instr) (s : State) (l : Loc) (o : Opd), s.ready l i o → (s.ctx l).straight →
    let a := s.accessor l
    let n := o.xw.toNat
    let b := s.barrier l.core a n
    (∀ j, j < 16 → (s.core l.core).reservedByte (n + j) = false) →
    ((s.dev a.pav a.vd).kidx = 0 ∨ s.keyAllows a (s.dev a.pav a.vd).kidx = true) →
    ((s.take l).passes l o →
      (o.op = .binit → ∃ t, exec i s = .next t ∧
        let arr := (o.b.extractLsb' 0 24).toNat
        let sec := (o.b.extractLsb' 24 32).toNat
        t.barrier l.core a n = ⟨0, false, 0, arr, sec, arr, sec⟩) ∧
      (o.op = .barr → ∃ t, exec i s = .next t ∧ t.barrier l.core a n = Spec.arrived b (o.b.extractLsb' 0 32).toNat) ∧
      (o.op = .bexp → ∃ t, exec i s = .next t ∧
        t.barrier l.core a n = Spec.expected b (o.b.extractLsb' 0 24).toNat (o.b.extractLsb' 24 32).toNat) ∧
      (o.op = .bwait → ∃ t, exec i s = .next t ∧ (t.ctx l).pc = (s.ctx l).pc + 24 ∧ (t.core l.core).pool = (s.core l.core).pool) ∧
      (o.op = .btest →
        let v : Word := match o.dest with
          | some (.p, _) => Spec.flag (decide (b.phase ≠ o.b.toNat))
          | _ => BitVec.ofNat 64 (s.poolNat l.core a n 8)
        exec i s = .next (s.fixedNext l o 2 (o.resultEffs (.word v) none)))) ∧
    (o.op = .bwait → (s.take l).badBarrier l n = false → o.b.toNat < 16 → b.phase = o.b.toNat →
      exec i s = .next ((s.take l).block l .bundle))

/-- The queue operations of qs (R223 to R226) that pass their checks complete: QPUT appends its value, and QGET takes the oldest entry, whose value is on
its way to land after 3 cycles at least; a QPUT on a full queue gives 1 and changes nothing else. RPUT with a neighbour and a credit spends the credit
and sends its message, else it gives 1; RGET takes the oldest message and starts its credit back, but for one that came by a port, whose
credit is the joined package's (R369). -/
def Sys2Proof.Spec.QueueOperationsMoveTheirEntries : Prop :=
  ∀ (i : Instr) (s : State) (l : Loc) (o : Opd), s.ready l i o → (s.take l).passes l o → (s.ctx l).straight →
    let a := s.accessor l
    let k := s.core l.core
    let landing (t : State) (v : Word) : Prop :=
      (t.ctx l).landings.find? s.opId = some ⟨(s.core l.core).cycle + 4, some (.word v), none⟩ ∧
        ∃ q ∈ (t.ctx l).cur.pending, q.id = s.opId ∧ q.dest = o.dest
    let refused := exec i s = .next (s.fixedNext l o 2 (o.resultEffs (.word 1) none))
    (o.op = .qput →
      let n := o.b.toNat
      let q := k.queues.getD n .reset
      let place := 8 * q.base8 + 8 * ((q.head + q.count) % 2 ^ q.lcap)
      (q.count = 2 ^ q.lcap → refused) ∧
      (q.count ≠ 2 ^ q.lcap → ∃ t, exec i s = .next t ∧
        let r := (t.core l.core).queues.getD n .reset
        r.count = q.count + 1 ∧ r.head = q.head ∧ r.base8 = q.base8 ∧ r.lcap = q.lcap ∧ r.owner = q.owner ∧
          (t.ctx l).cur.region = ((s.ctx l).cur.region + 1) % 32 ∧ Spec.nextBundle (s.ctx l) (t.ctx l) (o.resultEffs (.word 0) none) ∧
          ((∀ j, j < 8 → k.reservedByte (place + j) = false) →
            ((s.dev a.pav a.vd).kidx = 0 ∨ s.keyAllows a (s.dev a.pav a.vd).kidx = true) → t.poolNat l.core a place 8 = o.xw.toNat))) ∧
    (o.op = .qget →
      let n := o.xw.toNat
      let q := k.queues.getD n .reset
      ∃ t, exec i s = .next t ∧
        let r := (t.core l.core).queues.getD n .reset
        r.count = q.count - 1 ∧ r.head = (q.head + 1) % 2 ^ q.lcap ∧ r.base8 = q.base8 ∧ r.lcap = q.lcap ∧ r.owner = q.owner ∧
          landing t (BitVec.ofNat 64 (s.poolNat l.core a (8 * q.base8 + 8 * (q.head % 2 ^ q.lcap)) 8))) ∧
    (o.op = .rput →
      let dir := (o.b.extractLsb' 0 1).toNat
      let ch := (o.b.extractLsb' 1 3).toNat
      let used := k.spent.getD (8 * dir + ch) 0
      (s.neighbour a.pav l.core dir = none ∨ 16 ≤ used → refused) ∧
      (∀ dst, s.neighbour a.pav l.core dir = some dst → used < 16 → ∃ t m, exec i s = .next t ∧ t.messages = s.messages ++ [m] ∧
        m.id = s.opId ∧ m.src = l.core ∧ m.dst = dst ∧ m.dir = dir ∧ m.ch = ch ∧ m.data = o.xw ∧
        (t.core l.core).spent.getD (8 * dir + ch) 0 = used + 1 ∧ Spec.nextBundle (s.ctx l) (t.ctx l) (o.resultEffs (.word 0) none))) ∧
    (o.op = .rget →
      let key := 8 * (o.xw.extractLsb' 0 1).toNat + (o.xw.extractLsb' 1 3).toNat
      ∀ m rest, k.ring.getD key [] = m :: rest → ∃ t e, exec i s = .next t ∧ (t.core l.core).ring.getD key [] = rest ∧
        (m.src ≠ 128 → t.credits = s.credits ++ [e] ∧ e.core = m.src ∧ e.dir = m.dir ∧ e.ch = m.ch) ∧
        (m.src = 128 → t.credits = s.credits) ∧ landing t m.data)

/-- QSEL (R219) empties both stream banks, gives the number of copies that it cancels, and those copies leave their queues; the copies of the other bank
and all others stay in theirs. -/
def Sys2Proof.Spec.QselCancelsOneStreamBank : Prop :=
  ∀ (i : Instr) (s : State) (l : Loc) (o : Opd), s.ready l i o → (s.ctx l).straight → o.op = .qsel → (s.ctx l).cur.flights = [] →
    let x := s.ctx l
    let ids := if o.xw = 0 then x.qa else x.qb
    ∃ t, exec i s = .next t ∧ (t.ctx l).qa = [] ∧ (t.ctx l).qb = [] ∧
      (∀ n, o.dest = some (.s, n) → (t.ctx l).cur.readReg .s n = .word (BitVec.ofNat 64 ids.length)) ∧
      (t.core l.core).cp0q = (s.core l.core).cp0q.filter (fun e => !ids.contains e.id) ∧
      (t.core l.core).cp1q = (s.core l.core).cp1q.filter fun e => !ids.contains e.id

/-- COPY, TWR and QSEL (R209, R210, R215, R219). -/
def Obligations.CopyOperationsQueueOrCancel : Prop :=
  Spec.CopyOperationsComplete ∧ Spec.QselCancelsOneStreamBank

/-- LAUNCH (R228, R349, R353) that passes its checks completes: with a free entry it reserves one for its queue and record with result 0; with none, and where
all 256 + LSTORE completion places of the device are held (that such a launch is refused as well is the model's, log 31), its result is 1, MEMCNT.LFULL
counts it together with that result, and nothing else changes. -/
def Sys2Proof.Spec.LaunchReservesAnEntryOrCounts : Prop :=
  ∀ (i : Instr) (s : State) (l : Loc) (o : Opd), s.ready l i o → (s.take l).passes l o → (s.ctx l).straight → o.op = .launch →
    let a := s.accessor l
    let d := s.dev a.pav a.vd
    let lstore := (d.vdcfg.extractLsb' 25 9).toNat
    let free := d.launches.length < lstore ∧ d.launches.length + s.placesHeld a.pav a.vd < 256 + lstore
    (free → ∃ t, exec i s = .next t ∧ Spec.nextBundle (s.ctx l) (t.ctx l) (o.resultEffs (.word 0) none) ∧
      ∃ e, (t.dev a.pav a.vd).launches = d.launches ++ [e] ∧ e.id = s.opId ∧ e.queue = o.b.toNat ∧ e.record = none ∧ e.core = l.core ∧
        e.ctx = l.ctx ∧ e.addr = BitVec.ofNat 64 o.xc.base) ∧
    (¬ free → exec i s = .next (s.fixedNext l o 2 (.launchFull :: o.resultEffs (.word 1) none))) ∧
    ∀ w h, ((w : View).ctl.memcnt.extractLsb' 32 32 ≠ 0xFFFFFFFF → (w.effect h .launchFull).ctl.memcnt = w.ctl.memcnt + 0x100000000) ∧
      ∀ f j, (w.effect h .launchFull).readReg f j = w.readReg f j

/-- The queue, ring and launch operations of qs (R223 to R228). -/
def Obligations.QueueRingAndLaunchOperationsComplete : Prop :=
  Spec.QueueOperationsMoveTheirEntries ∧ Spec.LaunchReservesAnEntryOrCounts

/-! ### Steps of the engines (R149, R152, R157 to R162, R173, R182, R183, R215, R234, R235, R237) -/

/-- A call of the matrix sequencer stands at a step word, which is due (R157, R158). -/
def Sys2Proof.Spec.callAt (s : State) (c : Nat) (r : MxRun) (w : Word) (kind : Nat) : Prop :=
  (s.core c).mxRun = some r ∧ r.op.op = .mcall ∧ r.done = false ∧ r.due ≤ (s.core c).cycle ∧ w = (s.core c).word r.next ∧
    (w.extractLsb' 0 3).toNat = kind

/-- The holds let an engine of a core start an operation (R424, R425): the full hold is not active, and while the hold is, the engine has
waited its 256 cycles with the operation. -/
def Sys2Proof.Spec.holdsAllow (s : State) (wait : Option (Nat × Nat)) (op cycle : Nat) : Prop :=
  s.oper.fullHold = false ∧ (s.oper.hold = true → ∃ n, wait = some (op, n) ∧ n ≤ cycle)

/-- The cycles of the step at which a call stands (R158): WLOAD 32, PROMOTE 128, LOOP, NOP and END 1, and STREAM 8 and two for each row, where A or the W
of the last WLOAD is BF16, and otherwise an eighth of the planes of W for each row, the most of any of its banks (log 15), rounded up. -/
def Sys2Proof.Spec.stepCycles (k : Core) (r : MxRun) : Nat :=
  let w := k.word r.next
  let a := r.op.tile (w.extractLsb' 4 3).toNat
  let b := match r.wload with | some n => r.op.tile ((k.word n).extractLsb' 7 3).toNat | none => none
  let wide (x : Option TileRef) : Bool := match x with | some t => dEw t.desc != 0 | none => false
  let planes := match b with
    | some t => ((spanned t.desc).map fun n => ((k.fmtOf n).extractLsb' 3 4).toNat).foldl max 0
    | none => 0
  match (w.extractLsb' 0 3).toNat with
  | 1 => 32
  | 2 => 8 + (((w.extractLsb' 36 7).toNat + 1) * (if wide a || wide b then 16 else planes) + 7) / 8
  | 3 => 128
  | _ => 1

/-- The next step of the call that runs after a step ends its cycles later (R158). -/
def Sys2Proof.Spec.timed (s t : State) (c : Nat) : Prop :=
  ∀ r, (t.core c).mxRun = some r → r.done = false → r.due = (s.core c).cycle + Spec.stepCycles (s.core c) r

/-- m × 2^k truncated toward minus infinity, and whether bits were lost (R62, R66, R67). -/
def Sys2Proof.Spec.floored (m k : Int) : Int × Bool :=
  if 0 ≤ k then (m * 2 ^ k.toNat, false) else (m / 2 ^ (-k).toNat, decide (m % 2 ^ (-k).toNat ≠ 0))

/-- A product of the matrix array (R65): exact, and a bad one where a factor is no number. -/
def Sys2Proof.Spec.product (x y : Exact) : Exact := ⟨x.mant * y.mant, x.exp + y.exp, x.bad || y.bad⟩

/-- A group of products (R66), a bad one as 0: G and X, where one is not 0, and whether a truncation lost bits. -/
def Sys2Proof.Spec.groupOf (ps : List Exact) : Option (Int × Int) × Bool :=
  let nz := ps.filter fun p => !p.bad && decide (p.mant ≠ 0)
  match (nz.map fun p => Int.ofNat (Nat.log2 p.mant.natAbs) + p.exp).max? with
  | none => (none, false)
  | some x =>
    (some ((nz.map fun p => (Spec.floored p.mant (p.exp - (x - 24))).1).sum, x), nz.any fun p => (Spec.floored p.mant (p.exp - (x - 24))).2)

/-- G on the grid of X entered into an inner accumulator (R67): I and Xw, whether bits were lost, whether I saturated. -/
def Sys2Proof.Spec.entered (i : Option (Int × Int)) (g x : Int) : (Int × Int) × Bool × Bool :=
  let (i0, xw, lost) := match i with
    | none => ((0 : Int), x, false)
    | some (a, w) => if w < x then ((Spec.floored a (w - x)).1, x, (Spec.floored a (w - x)).2) else (a, w, false)
  let t := i0 + (Spec.floored g (x - xw)).1
  ((Spec.saturated 36 t, xw), lost || (Spec.floored g (x - xw)).2, decide (Spec.saturated 36 t ≠ t))

/-- AccAdd of m × 2^x (R62). -/
def Sys2Proof.Spec.added (a : Acc) (m x : Int) : Acc :=
  let r := Spec.floored m (x - a.e.toInt)
  let t := a.w.toInt + r.1
  { a with w := BitVec.ofInt 64 (Spec.saturated 64 t), ovf := a.ovf || decide (Spec.saturated 64 t ≠ t), inx := a.inx || r.2 }

/-- The inner accumulator and the element after an inner accumulator ends (R67). -/
def Sys2Proof.Spec.promoted (i : Option (Int × Int)) (a : Acc) : Acc :=
  match i with
  | none => a
  | some (v, xw) => Spec.added a v (xw - 24)

/-- A group of products that enters an inner accumulator under the promotion interval P (R65 to R67): the inner accumulator and the element. -/
def Sys2Proof.Spec.groupEnters (p : Nat) (c : Inner × Acc) (ps : List Exact) : Inner × Acc :=
  let g := Spec.groupOf ps
  let e : Option (Int × Int) × Bool × Bool := match g.1 with
    | none => (c.1.acc, false, false)
    | some (sum, x) => let r := Spec.entered c.1.acc sum x; (some r.1, r.2.1, r.2.2)
  let a : Acc := { c.2 with inx := c.2.inx || g.2 || e.2.1, inv := c.2.inv || ps.any Exact.bad, ovf := c.2.ovf || e.2.2 }
  if p ≤ c.1.count + 1 then (⟨none, 0⟩, Spec.promoted e.1 a) else (⟨e.1, c.1.count + 1⟩, a)

/-- The inner accumulator of element (m, n) of z tile z of a call (R67). -/
def Sys2Proof.Spec.innerOf (r : MxRun) (z m n : Nat) : Inner := (r.inner.getD (128 * z + m) []).getD n ⟨none, 0⟩

/-- A z tile keeps its owner and its status but for AOVF, AINV and AINX, which are raised where an element gained OVF, INV or INX (R148, R157). -/
def Sys2Proof.Spec.gains (a b : ZTile) : Prop :=
  b.owner = a.owner ∧ b.stat = { a.stat with flags := b.stat.flags } ∧ (∀ j, j < 5 → b.stat.flags.getLsbD j = a.stat.flags.getLsbD j) ∧
    (b.stat.flags.getLsbD 5 = true ↔ a.stat.flags.getLsbD 5 = true ∨ ∃ n, (a.elem n).ovf = false ∧ (b.elem n).ovf = true) ∧
    (b.stat.flags.getLsbD 6 = true ↔ a.stat.flags.getLsbD 6 = true ∨ ∃ n, (a.elem n).inv = false ∧ (b.elem n).inv = true) ∧
    (b.stat.flags.getLsbD 7 = true ↔ a.stat.flags.getLsbD 7 = true ∨ ∃ n, (a.elem n).inx = false ∧ (b.elem n).inx = true)

/-- The start and the completion of an operation of the matrix sequencer (R149, R152, R157, R158, R164, R166, R424): while the power hold is active the
sequencer first waits 256 cycles; the oldest queued operation leaves the queue and
runs, a call from the START of its directory entry with ik and in at 0; AZERO gives every element of its tile the value 0 with its exponent, and
AWRITE writes the low word of the enabled lanes' elements of its row; when an operation with no fault due has done its last step, the sequencer
is free and its tiles are ready. -/
def Obligations.MatrixOperationsStartAndComplete : Prop :=
  ∀ (s : State) (c : Nat),
    (∀ o rest, (s.core c).mxRun = none → (s.core c).mxq = o :: rest → s.oper.hold = true → s.oper.fullHold = false → (s.core c).mxWait = none →
      ∃ t, exec (.mxOperationStart c) s = .next t ∧ (t.core c).mxRun = none ∧ (t.core c).mxq = o :: rest ∧
        (t.core c).mxWait = some (o.id, (s.core c).cycle + 256)) ∧
    (∀ o rest, (s.core c).mxRun = none → (s.core c).mxq = o :: rest → Spec.holdsAllow s (s.core c).mxWait o.id (s.core c).cycle →
      ∃ t r, exec (.mxOperationStart c) s = .next t ∧ (t.core c).mxq = rest ∧ (t.core c).mxRun = some r ∧ r.op = o ∧
        (o.op = .mcall → o.resume = none → r.next = (((s.core c).word o.routine).extractLsb' 0 12).toNat ∧ r.ik = 0 ∧ r.inn = 0 ∧ r.done = false ∧ Spec.timed s t c) ∧
        (∀ x, o.op = .azero → o.tiles = [x] → r.done = true ∧ ∀ n,
          ((t.core c).ztile (x.code - 32)).elem n = ⟨0, o.ctl.setWidth 16, false, false, false, false⟩) ∧
        ∀ x n, o.op = .awrite → o.tiles = [x] → (o.ctl.extractLsb' 7 2).toNat = 0 → n < 128 →
          (((t.core c).ztile (x.code - 32)).elem (128 * (o.ctl.extractLsb' 0 7).toNat + n)).w.extractLsb' 0 32 =
            if o.lanes.getLsbD n then lane o.vec n
            else (((s.core c).ztile (x.code - 32)).elem (128 * (o.ctl.extractLsb' 0 7).toNat + n)).w.extractLsb' 0 32) ∧
    (∀ r, (s.core c).mxRun = some r → r.done = true → r.trip = false →
      ∃ t, exec (.mxOperationCompletion c) s = .next t ∧ (t.core c).mxRun = none ∧
        ∀ x, r.op.tiles = [x] → x.role ≠ .source → s.tileStands c r.op.who x.code = true →
          (t.tileStat ⟨c, r.op.who.ctx⟩ x.code).state = 2)

/-- The step words of a call (R65 to R67, R157, R158, R161, R162): WLOAD places the block of W at its tile's k and n, a place outside it as 0; STREAM enters the
groups of products of A's rows and the array into the inner accumulators of its tile's elements, and changes no element outside
its tile and its rows; PROMOTE ends the reductions of its tile, and a stated one stops the call for a fault that is due or for a pre-emption; LOOP
goes back until its count is done; NOP goes on; END ends the call, or takes the fault that is due. Each next step takes its cycles. -/
def Obligations.StepWordsRunTheCall : Prop :=
  ∀ (s : State) (c : Nat) (r : MxRun) (w : Word),
    (Spec.callAt s c r w 1 → ∀ x, r.op.tile (w.extractLsb' 7 3).toNat = some x →
      ∃ t blk n, exec (.mxWload c) s = .next t ∧
        (t.core c).mxRun = some { r with array := blk, wload := some r.next, next := r.next + 1, due := n } ∧ Spec.timed s t c ∧
        ∀ i j : Nat, i < 128 → j < 128 →
          let k := 128 * (r.ik + Int.ofNat (w.extractLsb' 13 8).toNat) + Int.ofNat i
          let m := 128 * (r.inn + Int.ofNat (w.extractLsb' 21 8).toNat) + Int.ofNat j
          let v := (Table.getD blk j (List.replicate 128 ⟨0, 0, false⟩)).getD i ⟨0, 0, false⟩
          let e : Exact := if 0 ≤ k ∧ 0 ≤ m ∧ m < Int.ofNat (dCols x.desc) then s.matrixElem c (r.op.who.accessor c) x.desc k.toNat m.toNat
            else ⟨0, 0, false⟩
          v.mant = e.mant ∧ v.bad = e.bad ∧ (e.mant ≠ 0 → v.exp = e.exp)) ∧
    (Spec.callAt s c r w 2 → ∀ x y, r.op.tile (w.extractLsb' 4 3).toNat = some x → r.op.tile (w.extractLsb' 10 3).toNat = some y →
      ∃ t r1, exec (.mxStream c) s = .next t ∧ (t.core c).mxRun = some r1 ∧ r1.op = r.op ∧ r1.next = r.next + 1 ∧ r1.ik = r.ik ∧
        r1.inn = r.inn ∧ r1.array = r.array ∧ (t.core c).pool = (s.core c).pool ∧ Spec.timed s t c ∧
        let m0 := (w.extractLsb' 29 7).toNat
        let mc := (w.extractLsb' 36 7).toNat
        (∀ z n, (z ≠ y.code - 32 ∨ n / 128 < m0 ∨ m0 + mc < n / 128) → ((t.core c).ztile z).elem n = ((s.core c).ztile z).elem n) ∧
        (m0 + mc ≤ 127 →
          let z := y.code - 32
          let p := (((s.core c).word r.op.routine).extractLsb' 40 6).toNat + 1
          let zero : Exact := ⟨0, 0, false⟩
          let row (m i : Nat) : Exact :=
            let k := 128 * (r.ik + Int.ofNat (w.extractLsb' 13 8).toNat) + Int.ofNat i
            if 0 ≤ k ∧ m < dRows x.desc ∧ k < Int.ofNat (dCols x.desc) then s.matrixElem c (r.op.who.accessor c) x.desc m k.toNat else zero
          Spec.gains ((s.core c).ztile z) ((t.core c).ztile z) ∧
          ∀ m n, m0 ≤ m → m ≤ m0 + mc → n < 128 →
            let col (i : Nat) : Exact := (r.array.getD n []).getD i zero
            let e := (List.range 4).foldl
              (fun e g => Spec.groupEnters p e ((List.range 32).map fun i => Spec.product (row m (32 * g + i)) (col (32 * g + i))))
              (Spec.innerOf r z m n, ((s.core c).ztile z).elem (128 * m + n))
            Spec.innerOf r1 z m n = e.1 ∧ ((t.core c).ztile z).elem (128 * m + n) = e.2)) ∧
    (Spec.callAt s c r w 3 → ∀ x, r.op.tile (w.extractLsb' 10 3).toNat = some x →
      ∃ t, exec (.mxPromote c) s = .next t ∧ Spec.timed s t c ∧
        (let z := x.code - 32
         (r.trip = false → ((s.core c).ztile z).stat.te = false → Spec.gains ((s.core c).ztile z) ((t.core c).ztile z)) ∧
         ∀ m n, m < 128 → n < 128 → ((t.core c).ztile z).elem (128 * m + n) =
            Spec.promoted (Spec.innerOf r z m n).acc (((s.core c).ztile z).elem (128 * m + n))) ∧
        (w.getLsbD 3 = false → ∃ r1, (t.core c).mxRun = some r1 ∧ r1.next = r.next + 1 ∧ ∀ e ∈ r1.inner, e.1 / 128 ≠ x.code - 32) ∧
        (w.getLsbD 3 = true → r.trip = true → (t.core c).mxRun = none ∧
          (s.progOf ⟨c, r.op.who.ctx⟩ = some r.op.who.bind.prog → (t.ctx ⟨c, r.op.who.ctx⟩).arithDue = true)) ∧
        (w.getLsbD 3 = true → r.trip = false → ((s.core c).ztile (x.code - 32)).stat.te = false → r.stopping = true →
          (t.core c).mxRun = none ∧ ∃ o m rest, (t.ctx ⟨c, r.op.who.ctx⟩).keptMx = o :: rest ∧ o.id = r.op.id ∧ o.resume = some m ∧
            m.next = r.next + 1 ∧ m.ik = r.ik ∧ m.inn = r.inn)) ∧
    (Spec.callAt s c r w 4 →
      let cnt := (w.extractLsb' 9 8).toNat
      let count := if cnt = 0 then max 1 ((r.op.mp.getD (w.extractLsb' 17 3).toNat 0).extractLsb' 0 16).toNat else cnt
      ∃ t n, exec (.mxLoop c) s = .next t ∧ Spec.timed s t c ∧ (t.core c).mxRun = some
        (if r.passes + 1 < count then
          { r with ik := r.ik + (w.extractLsb' 20 4).toInt, inn := r.inn + (w.extractLsb' 24 4).toInt, passes := r.passes + 1,
                   next := r.next - (w.extractLsb' 4 5).toNat, due := n }
        else { r with passes := 0, next := r.next + 1, due := n })) ∧
    (Spec.callAt s c r w 5 → ∃ t n, exec (.mxNop c) s = .next t ∧ Spec.timed s t c ∧ (t.core c).mxRun = some { r with next := r.next + 1, due := n }) ∧
    (Spec.callAt s c r w 0 → ∃ t, exec (.mxEnd c) s = .next t ∧
      (r.trip = false → ∃ n, (t.core c).mxRun = some { r with done := true, due := n }) ∧
      (r.trip = true → (t.core c).mxRun = none ∧
        (s.progOf ⟨c, r.op.who.ctx⟩ = some r.op.who.bind.prog → (t.ctx ⟨c, r.op.who.ctx⟩).arithDue = true)))

/-- Compose (R70), each delivered value faded (R69), and whether a fade replaced a value that is not 0. -/
def Sys2Proof.Spec.composed (x y : Lane × Lane) : (Lane × Lane) × Bool :=
  let a := fadeRounded (fmul x.1 y.1)
  let b := fadeRounded (ffma x.1 y.2 x.2)
  ((a.1, b.1), a.2 || b.2)

/-- The operator at position i of a chunk after j stages of the inclusive prefix (R70), and whether a fade on its way replaced a value. -/
def Sys2Proof.Spec.prefixAt (op : Nat → (Lane × Lane) × Bool) : Nat → Nat → (Lane × Lane) × Bool
  | 0, i => op i
  | j + 1, i =>
    let x := Spec.prefixAt op j i
    if i < 2 ^ j then x
    else
      let r := Spec.composed x.1 (Spec.prefixAt op j (i - 2 ^ j)).1
      (r.1, x.2 || r.2)

/-- An operator applied to a carried pair (R71), with the flush of R69, and whether the fade of h replaced a value. -/
def Sys2Proof.Spec.carried (op pair : Lane × Lane) : (Lane × Lane) × Bool :=
  let p := (fmul op.1 pair.1).1
  let e1 := (ffma op.1 pair.1 (p ^^^ 0x80000000)).1
  let sum := (fadd p op.2).1
  let z := (fsub sum p).1
  let e2 := (fadd (fsub p (fsub sum z).1).1 (fsub op.2 z).1).1
  let h := fade sum
  let c := (ffma op.1 pair.2 (fadd e1 e2).1).1
  ((h.1, if h.2 = true ∨ c.extractLsb' 23 8 = 0 then 0 else c), h.2)

/-- Column n of a scan operation (R176 to R180): what it writes to its tiles and to frame element EBASE + n, and the fade bit, set where a fade replaced a
value, which SLOAD clears first. -/
def Sys2Proof.Spec.scanned (c : Nat) (o : ScOp) (s : State) (n : Nat) : State :=
  let a := o.who.accessor c
  let f := (s.core c).frameOf (o.cfg.extractLsb' 3 4).toNat
  let log := (o.cfg.extractLsb' 0 3).toNat
  let m := (o.cfg.extractLsb' 19 18).toNat + n
  let hAt := 65536 * f.bank + 64 + 4 * m
  let pair : Lane × Lane := (BitVec.ofNat 32 (s.poolNat c a hAt 4), BitVec.ofNat 32 (s.poolNat c a (hAt + 4 * f.ne) 4))
  let get (x : TileRef) (t : Nat) : Lane := BitVec.ofNat 32 (s.wordElem c a x.desc (elemNumber x.desc t n))
  let put (u : State) (x : TileRef) (t : Nat) (v : Lane) : State := u.setWordElem c a x.desc (elemNumber x.desc t n) v.toNat
  let putPair (u : State) (v : Lane × Lane) : State := (u.setPoolNat c a hAt 4 v.1.toNat).setPoolNat c a (hAt + 4 * f.ne) 4 v.2.toNat
  let mark (b : Bool) (u : State) : State := if b then u.setFadeBit c a f m true else u
  let op (x y : TileRef) (t : Nat) : (Lane × Lane) × Bool :=
    (((scanFade (get x t)).1, (scanFade (get y t)).1), (scanFade (get x t)).2 || (scanFade (get y t)).2)
  match o.op, o.tiles with
  | .sload, [x] =>
    let h := scanFade (get x 0)
    let low := if 2 ≤ dRows x.desc then (canonical (get x 1)).1 else 0
    mark h.2 (putPair (s.setFadeBit c a f m false) (h.1, if h.2 = true ∨ low.extractLsb' 23 8 = 0 then 0 else low))
  | .scomp, [x, y] =>
    let r (t : Nat) := Spec.prefixAt (op x y) log t
    mark ((List.range (2 ^ log)).any fun t => (r t).2)
      ((List.range (2 ^ log)).foldl (fun u t => put (put u x t (r t).1.1) y t (r t).1.2) s)
  | .sapply, [x, y, z] =>
    let r (t : Nat) := Spec.carried (op y z t).1 pair
    mark ((List.range (2 ^ log)).any fun t => (op y z t).2 || (r t).2)
      ((List.range (2 ^ log)).foldl (fun u t => put u x t (r t).1.1) s)
  | .scarry, [x, y] =>
    let e := op x y (2 ^ log - 1)
    mark (e.2 || (Spec.carried e.1 pair).2) (putPair s (Spec.carried e.1 pair).1)
  | _, _ => s

/-- A block of a scan operation (R176 to R180, R182): the pool after it is that after its columns in ascending order, but for the header that SCARRY writes
when it completes (R179, R305), and the next block takes the cycles of its operation. -/
def Sys2Proof.Spec.ScanBlocksComputeTheirColumns : Prop :=
  ∀ (s t : State) (c : Nat) (o : ScOp), (s.core c).scRun = some o → o.due ≤ (s.core c).cycle → exec (.scanBlock c) s = .next t →
    let ne := (o.cfg.extractLsb' 7 12).toNat + 1
    let f := (s.core c).frameOf (o.cfg.extractLsb' 3 4).toNat
    let len := 2 ^ (o.cfg.extractLsb' 0 3).toNat
    let u := ((List.range ne).filter fun n => decide (128 * o.next ≤ n ∧ n < 128 * o.next + 128)).foldl (Spec.scanned c o) s
    (o.op ≠ .scarry → (t.core c).pool = (u.core c).pool) ∧
    (∀ a, (a < 65536 * f.bank ∨ 65536 * f.bank + 64 ≤ a) → (t.core c).pool.byte a = (u.core c).pool.byte a) ∧
    ∀ p, (t.core c).scRun = some p → p.due = (s.core c).cycle +
      (match o.op with | .sload => 4 | .scomp => 4 + (o.cfg.extractLsb' 0 3).toNat * len / 2 | .sapply => 4 + len | _ => 6)

/-- The 64 bytes of a frame's header (R305). -/
def Sys2Proof.Spec.header (f : Frame) (tenant : Nat) : List Byte :=
  leBytes 2 f.sid ++ leBytes 1 f.layer ++ [1] ++ leBytes 4 f.pos ++ leBytes 2 f.stag ++ [0, 0] ++ leBytes 4 f.ne ++ leBytes 1 tenant ++
    List.replicate 47 0

/-- The number in n bytes of a record from a place on. -/
def Sys2Proof.Spec.field (bs : List Byte) (at_ n : Nat) : Nat := leNat ((bs.drop at_).take n)

/-- The bytes of a home or record: 64 × S (R172, R305). -/
def Sys2Proof.Spec.area (f : Frame) : Nat := (8 * f.ne + f.ne / 8 + 64 + 63) / 64 * 64

/-- A frame loaded from a home or record at an address (R184 to R186, R305): where what the frame engine reads there is valid and has the frame's NE, every
byte of the frame's banks up to 64 × S comes from it, under a header with the frame's SID and LAYER, and POS and STAG come from it. -/
def Sys2Proof.Spec.frameLoaded (s : State) (c : Nat) (o : FrOp) (f : Frame) (va : Nat) (cow : Bool) (t : State) : Prop :=
  ∀ ps bs, va % 64 = 0 → s.frameRead c o.who va (Spec.area f) = .ok (ps, bs) → Spec.field bs 3 1 % 2 = 1 → Spec.field bs 12 4 = f.ne →
    let g : Frame := { f with pos := Spec.field bs 4 4, stag := Spec.field bs 8 2, cow := cow }
    (t.core c).frames.find? o.frame = some g ∧ ∀ i, i < Spec.area f →
      (t.core c).pool.byte (65536 * f.bank + i) = (Spec.header g (Spec.field bs 16 1) ++ bs.drop 64).getD i 0

/-- What the frame operations move when they complete (R184 to R186, R305), each without a barrier (NOBAR 1): the image of a frame, its header, h, c and
F and zeros up to 64 × S, goes to the home (FDROP with WB, FSWAP) or to the record (SNAP of a record to which no child refers); a frame comes from its
home, or from the parent's record to which its home refers (FBIND with LOAD, FSWAP), from the record (ROLL that acts) or from the parent's record
(FORK, which makes the child's home a reference and its four records empty); FBIND without LOAD makes it 0. -/
def Sys2Proof.Spec.FrameOperationsMoveTheFrame : Prop :=
  ∀ (s t : State) (c : Nat) (o : FrOp) (f : Frame) (base size : Nat),
    (s.core c).frq.find? (fun p => p.id == o.id && p.running) = some o → o.gone = none → (s.core c).frames.find? o.frame = some f →
    o.area = .found base size → o.cmd.getLsbD 23 = true → exec (.frameOperationCompletion c o.id) s = .next t →
    let a := o.who.accessor c
    let tenant := o.who.bind.tenant
    let rec0 := (o.cmd.extractLsb' 24 2).toNat
    let image := Spec.header f tenant ++ s.poolBytes c a (65536 * f.bank + 64) (8 * f.ne + f.ne / 8) ++
      List.replicate (Spec.area f - (8 * f.ne + f.ne / 8 + 64)) 0
    let home (s : State) (g : Frame) (va : Nat) (t : State) : Prop := ∀ ps h, s.frameRead c o.who va 64 = .ok (ps, h) →
      Spec.field h 3 1 % 2 = 1 →
      (Spec.field h 3 1 / 2 % 2 = 0 → Spec.frameLoaded s c o g va false t) ∧
      (Spec.field h 3 1 / 2 % 2 = 1 → ∀ b n, s.areaOf a tenant (Spec.field h 17 2) g.layer = .found b n →
        Spec.frameLoaded s c o g (b + n * (1 + Spec.field h 19 1)) true t)
    (∀ u, o.op = .snap → (∀ child, s.refersTo c o.who f.sid f.layer rec0 child = none) →
      s.frameWrite c o.who (base + size * (1 + rec0)) image = .ok u → t.mem = u.mem ∧ (t.core c).pool = (s.core c).pool) ∧
    (∀ u, o.op = .fdrop → o.cmd.getLsbD 26 = true → s.frameWrite c o.who base image = .ok u → t.mem = u.mem) ∧
    (o.op = .fdrop → o.cmd.getLsbD 26 = false → t.mem = s.mem) ∧
    (∀ u b n, o.op = .fswap → s.frameWrite c o.who base image = .ok u → o.area2 = .found b n →
      t.mem = u.mem ∧
      home u { f with sid := (o.o1.extractLsb' 0 16).toNat, layer := (o.o1.extractLsb' 16 8).toNat, cow := false, vd := o.who.bind.vd } b t) ∧
    (o.op = .fbind → o.o2.getLsbD 20 = true → home s f base t ∧ t.mem = s.mem) ∧
    (o.op = .fbind → o.o2.getLsbD 20 = false → t.mem = s.mem ∧ ∀ i, i < Spec.area f →
      (t.core c).pool.byte (65536 * f.bank + i) = (Spec.header f tenant).getD i 0) ∧
    (o.op = .roll → t.mem = s.mem ∧ (o.acts = true → Spec.frameLoaded s c o f (base + size * (1 + rec0)) f.cow t) ∧
      (o.acts = false → (t.core c).pool = (s.core c).pool ∧ (t.core c).frames.find? o.frame = some f)) ∧
    (∀ b n u0 u1 u2 u3 u4 u5, o.op = .fork → o.area2 = .found b n →
      s.loadFrom c o.who o.frame f (b + n * (1 + rec0)) true = .ok u0 →
      u0.frameWrite c o.who base ((Spec.header f tenant).take 3 ++ [3] ++ ((Spec.header f tenant).drop 4).take 13 ++
        leBytes 2 (o.o1.extractLsb' 32 16).toNat ++ leBytes 1 rec0 ++ List.replicate 44 0) = .ok u1 →
      u1.frameWrite c o.who (base + size) (List.replicate 64 0) = .ok u2 →
      u2.frameWrite c o.who (base + 2 * size) (List.replicate 64 0) = .ok u3 →
      u3.frameWrite c o.who (base + 3 * size) (List.replicate 64 0) = .ok u4 →
      u4.frameWrite c o.who (base + 4 * size) (List.replicate 64 0) = .ok u5 →
      t.mem = u5.mem ∧ Spec.frameLoaded s c o f (b + n * (1 + rec0)) true t)

/-- The scan engine and the frame engine (R173, R182 to R184, R187, R424): the oldest operation starts when nothing runs, for a scan after the
256 cycles of a power hold; a block of a scan that has more goes on to
the next, and its last completes it: SCNT of its slot falls, and SCARRY gives its frame's header STAG and, with advance, the position; a frame
operation that completes leaves the queue and FCNT of its slot falls, and an FDROP ends its frame. -/
def Sys2Proof.Spec.EnginesStartAndComplete : Prop :=
  ∀ (s : State) (c : Nat),
    (∀ o rest, (s.core c).scRun = none → (s.core c).scq = o :: rest → s.oper.hold = true → s.oper.fullHold = false → (s.core c).scWait = none →
      ∃ t, exec (.scanOperationStart c) s = .next t ∧ (t.core c).scRun = none ∧ (t.core c).scq = o :: rest ∧
        (t.core c).scWait = some (o.id, (s.core c).cycle + 256)) ∧
    (∀ o rest, (s.core c).scRun = none → (s.core c).scq = o :: rest → Spec.holdsAllow s (s.core c).scWait o.id (s.core c).cycle →
      ∃ t n, exec (.scanOperationStart c) s = .next t ∧ (t.core c).scq = rest ∧ (t.core c).scRun = some { o with due := n }) ∧
    (∀ o, (s.core c).scRun = some o → o.due ≤ (s.core c).cycle →
      let last := (o.cfg.extractLsb' 7 12).toNat + 1 ≤ 128 * o.next + 128
      ∃ t, exec (.scanBlock c) s = .next t ∧
        (¬ last → (s.ctx ⟨c, o.who.ctx⟩).saved = none → ∃ n, (t.core c).scRun = some { o with next := o.next + 1, due := n }) ∧
        (last → (t.core c).scRun = none ∧ ((t.core c).slot (o.cfg.extractLsb' 3 4).toNat).scnt =
          ((s.core c).slot (o.cfg.extractLsb' 3 4).toNat).scnt - 1 ∧
          ∀ f, o.op = .scarry → ((s.core c).slot (o.cfg.extractLsb' 3 4).toNat).frame = some f →
            let g := (s.core c).frameOf (o.cfg.extractLsb' 3 4).toNat
            (t.core c).frameOf (o.cfg.extractLsb' 3 4).toNat =
              { g with stag := (o.cfg.extractLsb' 37 16).toNat, pos := if o.cfg.getLsbD 53 then (g.pos + 2 ^ (o.cfg.extractLsb' 0 3).toNat) % 2 ^ 32 else g.pos })) ∧
    (∀ o rest, (s.core c).frq = o :: rest → (∀ p ∈ (s.core c).frq, p.running = false) →
      ∃ t e tail, exec (.frameOperationStart c) s = .next t ∧ (t.core c).frq = e :: tail ∧ e.id = o.id ∧ e.running = true) ∧
    (∀ o, (s.core c).frq.find? (fun p => p.id == o.id && p.running) = some o →
      let n := (o.cmd.extractLsb' 0 4).toNat
      ∃ t, exec (.frameOperationCompletion c o.id) s = .next t ∧
        (t.core c).frq.map FrOp.id = ((s.core c).frq.filter (fun p => p.id != o.id)).map FrOp.id ∧
        ((t.core c).slot n).fcnt = ((s.core c).slot n).fcnt - 1 ∧ (o.op = .fdrop → (t.core c).frames.find? o.frame = none))

/-- The scan engine and the frame engine (R69 to R71, R173, R176 to R180, R182 to R186, R305): their operations start, do what their rules say to the tiles,
the frames and the records, and complete. -/
def Obligations.ScanAndFrameOperationsStartAndComplete : Prop :=
  Spec.EnginesStartAndComplete ∧ Spec.ScanBlocksComputeTheirColumns ∧ Spec.FrameOperationsMoveTheFrame

/-- The indices of the n-th element of a pattern (R213): i0 varies fastest. -/
def Sys2Proof.Spec.digits : List Nat → Nat → List Nat
  | [], _ => []
  | c :: cs, n => n % c :: Spec.digits cs (n / c)

/-- The address of an index tuple on a memory or pool side (R213): base, displacement and the sum of its indices times the signed deltas. -/
def Sys2Proof.Spec.patternAddr (base off : Nat) (dels t : List Nat) : Int :=
  Int.ofNat (base + off) + ((t.zip dels).map fun x => Int.ofNat x.1 * (BitVec.ofNat 24 x.2).toInt).sum

/-- The element number of an index tuple in a tile (R146, R209, R212, R213): rows from bits [11:0], columns from bits [23:12]. -/
def Sys2Proof.Spec.patternElem (d : Word) (base off : Nat) (dels t : List Nat) : Nat :=
  elemNumber d (base % 4096 + off % 4096 + ((t.zip dels).map fun x => x.1 * (x.2 % 4096)).sum)
    (base / 4096 % 4096 + off / 4096 % 4096 + ((t.zip dels).map fun x => x.1 * (x.2 / 4096 % 4096)).sum)

/-- The source element of an index tuple (R213): PAD where an index is at or beyond its limit, else the element of memory, of the pool or of the tile: its
bits, and its value where it is of BPI; or the failure of its read. -/
def Sys2Proof.Spec.copyValue (s : State) (c : Nat) (o : CpOp) (p : Shape) (sf : Byte) (t : List Nat) : Except EngineFault (Nat × Exact) :=
  let a := o.who.accessor c
  let plain : Exact := ⟨0, 0, false⟩
  if (t.zip p.slim).any fun x => x.2 != 0 && decide (x.2 ≤ x.1) then
    .ok (p.pad % 2 ^ (8 * p.esz), if sf.extractLsb' 0 3 = 4 then decodeBpi (BitVec.ofNat 8 p.pad).toInt 0x7F 8 false else plain)
  else
    let addr := Spec.patternAddr p.sbase p.soff p.sdel t
    match p.skind, o.src with
    | 0, _ => (s.engineRead c o.who (Int.ofNat p.scap.base + addr).toNat p.esz).map fun r => (leNat r.2, plain)
    | 1, _ => .ok (s.poolNat c a addr.toNat p.esz, plain)
    | _, none => .ok (0, plain)
    | _, some r =>
      let e := Spec.patternElem r.desc p.sbase p.soff p.sdel t
      if dEw r.desc = 0 then
        .ok ((s.bpiInt c a (elemBlock r.desc e).1 (elemBlock r.desc e).2 (e % 32)).toNat, s.bpiElem c a r.desc e)
      else .ok (s.wordElem c a r.desc e, plain)

/-- A pattern copy (R213) moves its elements in the order of their tuples, and one element goes, converted by R58 where CONV is 1, as the bytes of its
value to the address or the place of its tuple on the destination side, in memory through the translation of its device, and nowhere else but for what
the keys do to the other bytes of a pool sector; after a failure no further element moves. Conversions into BPI collect blocks of 32 (R59). -/
def Sys2Proof.Spec.PatternsMoveTheirElements : Prop :=
  (∀ cs : List Nat, (tuples cs).length = cs.foldl (· * ·) 1 ∧ ∀ n, n < (tuples cs).length → (tuples cs)[n]? = some (Spec.digits cs n)) ∧
  ∀ (c : Nat) (o : CpOp) (fl : Flow) (sf df : Byte) (t : List Nat),
    let p := shapeOf o.image o.disp
    let a := o.who.accessor c
    let out := Flow.element c o p sf df fl t
    (∀ e, fl.fault = some e → out = fl) ∧
    (fl.fault = none → (p.conv = false ∨ df.extractLsb' 0 3 ≠ 4) →
      match Spec.copyValue fl.state c o p sf t with
      | .error e => out.fault = some e ∧ out.state = fl.state
      | .ok (raw, val) =>
        let moved := convertTo (sf.extractLsb' 0 3).toNat (df.extractLsb' 0 3).toNat raw val
        let x := if p.conv then moved.1 else raw
        let bytes := leBytes (if p.conv then fmtBytes df else p.esz) x
        let addr := Spec.patternAddr p.dbase p.doff p.ddel t
        out.flags = (if p.conv then fl.flags ||| moved.2 else fl.flags) ∧
        ∃ s1 key, s1.mem = fl.state.mem ∧ (∀ n, (s1.core n).pool = (fl.state.core n).pool) ∧
          match p.dkind, o.dst with
          | 0, _ => match s1.engineWrite c o.who (Int.ofNat p.dcap.base + addr).toNat bytes with
            | .ok u => out.state = u ∧ out.fault = none
            | .error e => out.state = s1 ∧ out.fault = some e
          | 1, _ => out.state = s1.setPoolBytes c a key addr.toNat bytes ∧ out.fault = none
          | _, none => out.state = s1
          | _, some r =>
            let e := Spec.patternElem r.desc p.dbase p.doff p.ddel t
            out.fault = none ∧ (dEw r.desc ≠ 0 → out.state = s1.setPoolBytes c a key (elemAddr r.desc e) bytes) ∧
              (dEw r.desc = 0 → out.state = s1.setBpiInt c a key r.desc e (BitVec.ofNat 8 x)))

/-- An entry of a sparse-row walk (R217): the column index of entry a + e goes to entry e of the index buffer, and then its value to entry e of the
value buffer. -/
def Sys2Proof.Spec.WalkEntriesMove : Prop :=
  ∀ (c : Nat) (o : CpOp) (fl : Flow) (first e : Nat) (ix vl : List (Byte × Nat)) (s1 s2 s3 s4 : State),
    let p := shapeOf o.image o.disp
    let w (j : Nat) : BitVec 128 := (o.image.getD j ⟨0, false⟩).raw
    let cols := ((w 5).extractLsb' 0 64).toNat
    let vals := ((w 5).extractLsb' 64 64).toNat
    let vbuf := ((w 6).extractLsb' 0 64).toNat
    fl.fault = none →
    fl.state.copyRead c o p (Int.ofNat (cols + 4 * (first + e))) 4 = .ok (ix, s1) →
    s1.copyBytes c o p (Int.ofNat (p.dbase + p.doff + 4 * e)) ix = .ok s2 →
    s2.copyRead c o p (Int.ofNat (vals + p.esz * (first + e))) p.esz = .ok (vl, s3) →
    s3.copyBytes c o p (Int.ofNat (vbuf + p.esz * e)) vl = .ok s4 →
    (Flow.walkEntry c o p first fl e).state = s4 ∧ (Flow.walkEntry c o p first fl e).fault = none

/-- A sparse-row walk (R217) whose ranges pass and whose entries and total are written: with ENDROW ≤ FIRSTROW the total is 0, else it is the difference of
the row pointers, of which at most MAXN entries are moved; the total goes to NADDR, and the bytes written are counted. A difference below 0 is
a format error with nothing written. -/
def Sys2Proof.Spec.WalksWriteTheirTotal : Prop :=
  ∀ (s t : State) (c ch : Nat) (o : CpOp) (rest : List CpOp),
    let p := shapeOf o.image o.disp
    let w (j : Nat) : BitVec 128 := (o.image.getD j ⟨0, false⟩).raw
    let firstRow := ((w 4).extractLsb' 0 32).toNat
    let endRow := ((w 4).extractLsb' 32 32).toNat
    let maxN := ((w 4).extractLsb' 64 32).toNat
    let naddr := ((w 6).extractLsb' 64 64).toNat
    let queue (k : Core) : List CpOp := if ch = 0 then k.cp0q else k.cp1q
    let total (s0 : State) (n first : Nat) : Prop :=
      let m := min n maxN
      let fl := (List.range m).foldl (Flow.walkEntry c o p first) ⟨s0, 0, none, s.ownKey o.who, m * (4 + p.esz) + 4, [], 0⟩
      p.walkFault o first m = none → fl.fault = none → ∀ u,
        fl.state.copyBytes c o p (Int.ofNat naddr) ((leBytes 4 n).map fun b => (b, s0.ownKey o.who)) = .ok u →
        t.mem = u.mem ∧ (t.core c).pool = (u.core c).pool ∧ ∃ e tail, queue (t.core c) = e :: tail ∧ e.ecause = 0 ∧ e.bytes = m * (4 + p.esz) + 4
    queue (s.core c) = o :: rest → o.running = false → o.refused = 0 → p.op = 1 → exec (.copyBegin c ch) s = .next t →
    (endRow ≤ firstRow → total s 0 0) ∧
    (firstRow < endRow → ∀ x y s1 s2, s.copyRead c o p (Int.ofNat (p.sbase + p.soff + 4 * firstRow)) 4 = .ok (x, s1) →
      s1.copyRead c o p (Int.ofNat (p.sbase + p.soff + 4 * endRow)) 4 = .ok (y, s2) →
      let first := leNat (x.map Prod.fst)
      let last := leNat (y.map Prod.fst)
      (first ≤ last → total s2 (last - first) first) ∧
      (last < first → t.mem = s.mem ∧ (t.core c).pool = (s.core c).pool ∧ ∃ e tail, queue (t.core c) = e :: tail ∧ e.ecause = 3))

/-- Compress and expand (R200, R218): a run of 256 halves of the source becomes one record, packed after the records before it, and a record becomes 256
halves along the destination pattern: those of its mask from its values in ascending order, the others 0. -/
def Sys2Proof.Spec.RecordsArePackedAndUnpacked : Prop :=
  ∀ (c : Nat) (o : CpOp) (fl : Flow) (run : List (List Nat)) (runs : List (List (List Nat))), fl.fault = none → run.length = 256 →
    let p := shapeOf o.image o.disp
    (∀ hs s0, fl.state.copyHalves c o p run = .ok (hs, s0) →
      let record := recordOf (hs.map Prod.fst)
      hs.length = 256 ∧ ∃ bs : List (Byte × Nat), bs.map Prod.fst = record ∧ ∀ s1,
        s0.copyBytes c o p (Int.ofNat (p.dbase + p.doff + fl.bytes)) bs = .ok s1 →
        Flow.compress c o p fl (run :: runs) = Flow.compress c o p { fl with state := s1, bytes := fl.bytes + record.length } runs) ∧
    (∀ h s0 bs s1, fl.state.copyRead c o p (Int.ofNat (p.sbase + p.soff + fl.first)) 36 = .ok (h, s0) →
      let mask := leNat ((h.map Prod.fst).drop 4)
      let below (j : Nat) : Nat := ((List.range j).filter mask.testBit).length
      let n := below 256
      (if n = 0 then bs = [] ∧ s1 = s0
        else s0.copyRead c o p (Int.ofNat (p.sbase + p.soff + fl.first) + 36) (2 * n) = .ok (bs, s1)) →
      let half (j : Nat) : Nat := if mask.testBit j then leNat (((bs.map Prod.fst).drop (2 * below j)).take 2) else 0
      ∃ keys : Nat → Nat, ∀ s2, (run.zipIdx).foldlM (fun u x => u.copyDest c o p x.1 2 (half x.2) (keys x.2)) s1 = .ok s2 →
        Flow.expand c o p fl (run :: runs) = Flow.expand c o p { fl with state := s2, first := fl.first + 36 + 4 * ((n + 1) / 2) } runs)

/-- A copy that begins (R213, R215 to R218) leaves memory and the pool as its elements, its runs of 256, or its walk leave them, and keeps the first failure and
the flags; a copy with a count of 0 moves nothing. -/
def Sys2Proof.Spec.CopiesRunTheirPattern : Prop :=
  ∀ (s t : State) (c ch : Nat) (o : CpOp) (rest : List CpOp),
    let p := shapeOf o.image o.disp
    let queue (k : Core) : List CpOp := if ch = 0 then k.cp0q else k.cp1q
    let fmt (side : Option TileRef) (f : Byte) : Byte := match side with | some r => (s.core c).fmtOf (dBank r.desc) | none => f
    let start (n : Nat) : Flow := ⟨s, 0, none, s.ownKey o.who, n, [], 0⟩
    let runs := (List.range (p.cnt.foldl (· * ·) 1 / 256)).map fun n => ((tuples p.cnt).drop (256 * n)).take 256
    queue (s.core c) = o :: rest → o.running = false → o.refused = 0 → p.op ≠ 1 → exec (.copyBegin c ch) s = .next t →
    let fl := if p.op = 2 then Flow.compress c o p (start 0) runs
      else if p.op = 3 then Flow.expand c o p (start o.bytes) runs
      else (tuples p.cnt).foldl (Flow.element c o p (fmt o.src p.sfmt) (fmt o.dst p.dfmt)) (start o.bytes)
    t.mem = fl.state.mem ∧ (t.core c).pool = (fl.state.core c).pool ∧ ∃ e tail, queue (t.core c) = e :: tail ∧ e.id = o.id ∧ e.running = true ∧
      e.ecause = (match fl.fault with | some f => f.ecause | none => 0) ∧ e.flags = fl.flags ∧ e.bytes = fl.bytes

/-- The begin and the completion of a copy (R52, R214 to R216, R219): the oldest copy of a channel begins, a refused one with its error and with nothing written;
one that completes leaves its queue, its destination tile becomes ready, or empty with ERR after an error, its source tile becomes ready, its flags are
raised, and with a barrier it makes its one arrival, which carries its sectors, after the first error that it reports. -/
def Sys2Proof.Spec.CopiesBeginAndEnd : Prop :=
  ∀ (s : State) (c ch : Nat),
    let queue (k : Core) : List CpOp := if ch = 0 then k.cp0q else k.cp1q
    (∀ o rest, queue (s.core c) = o :: rest → o.running = false →
      ∃ t e tail, exec (.copyBegin c ch) s = .next t ∧ queue (t.core c) = e :: tail ∧ e.id = o.id ∧ e.running = true ∧
        (o.refused ≠ 0 → e.ecause = o.refused ∧ t.mem = s.mem ∧ (t.core c).pool = (s.core c).pool)) ∧
    (∀ o, (queue (s.core c)).find? (fun p => p.id == o.id && p.running) = some o →
      ∃ t, exec (.copyCompletion c ch o.id) s = .next t ∧ queue (t.core c) = (queue (s.core c)).filter (fun p => p.id != o.id) ∧
        (∀ x, o.dst = some x → (∀ y, o.src = some y → y.code ≠ x.code) → s.tileStands c o.who x.code = true →
          let u := t.tileStat ⟨c, o.who.ctx⟩ x.code
          if o.ecause = 0 then u.state = 2 else u.state = 0 ∧ u.err = true) ∧
        (∀ y, o.src = some y → s.tileStands c o.who y.code = true → (t.tileStat ⟨c, o.who.ctx⟩ y.code).state = 2) ∧
        (s.progOf ⟨c, o.who.ctx⟩ = some o.who.bind.prog → ∀ j, (t.ctx ⟨c, o.who.ctx⟩).cur.ctl.fpflags.getLsbD j =
          ((s.ctx ⟨c, o.who.ctx⟩).cur.ctl.fpflags.getLsbD j || (decide (j < 64) && o.flags.testBit j))) ∧
        (o.x.getLsbD 25 = true → (t.core c).pool = (s.core c).pool) ∧
        (o.x.getLsbD 25 = false → o.ecause < 8 →
          let a : Accessor := ⟨c, o.who.bind.pav, o.who.bind.vd, false⟩
          let failed (b : Barrier) : Barrier := if o.ecause = 0 ∨ b.err = true then b else { b with err := true, ecause := o.ecause }
          let n := 16 * (o.x.extractLsb' 6 19).toNat
          (∀ j, j < 16 → (s.core c).reservedByte (n + j) = false) →
          ((s.dev a.pav a.vd).kidx = 0 ∨ s.keyAllows a (s.dev a.pav a.vd).kidx = true) →
          t.barrier c a n = Spec.arrived (failed (s.barrier c a n)) ((o.bytes + 63) / 64)))

/-- Copies (R58, R213 to R219): what they write, element by element, entry by entry and record by record, how they begin and how they complete. -/
def Obligations.CopiesBeginAndComplete : Prop :=
  Spec.CopiesBeginAndEnd ∧ Spec.CopiesRunTheirPattern ∧ Spec.PatternsMoveTheirElements ∧ Spec.WalkEntriesMove ∧ Spec.WalksWriteTheirTotal ∧
    Spec.RecordsArePackedAndUnpacked

/-- The increment that a source descriptor supplies to a cell (R232, R234). -/
def Sys2Proof.Spec.source (x : Ctx) (c : Cell) (d : BitVec 12) : Int :=
  let v : Int := match (d.extractLsb' 10 2).toNat with
    | 0 => 0
    | 1 => (x.cell (d.extractLsb' 0 9).toNat).out
    | 2 => Int.sign c.j
    | _ => 1
  if d.getLsbD 9 then -v else v

/-- A cell after a step of its domain (R234). -/
def Sys2Proof.Spec.stepped (x : Ctx) (c : Cell) : Cell :=
  let descs : List (BitVec 12) := (List.range 4).map fun j => c.w1.extractLsb' (12 * j) 12
  let dx := Spec.source x c (c.w0.extractLsb' 16 12)
  let dy := (descs.map (Spec.source x c)).sum
  let m : Int := 2 ^ (c.w0.extractLsb' 5 5).toNat
  let t := Int.ofNat c.r + dx * c.y
  let o : Int := if dx = 0 then 0 else if m ≤ t then 1 else if t < 0 then -1 else 0
  { c with
    y := Spec.saturated ((c.w0.extractLsb' 0 5).toNat + 8) (c.y + dy)
    r := if dx = 0 then c.r else (t - o * m).toNat
    out := o
    j := if ∃ d ∈ c.w0.extractLsb' 16 12 :: descs, (d.extractLsb' 10 2).toNat = 2 then c.j - Int.sign c.j else c.j
    cnt := c.cnt + BitVec.ofInt 32 o }

/-- A step of a domain (R234, R235, R237): with no overrun every enabled cell of the domain takes its new values from the old ones, the other cells stay and STEPS
rises by 1; with an overrun no cell changes, the domain stops, and with DDFAULT.V at 0 the fault is recorded and due. -/
def Obligations.DomainStepAdvancesItsCells : Prop :=
  ∀ (s : State) (c dom n d : Nat), (s.core c).domainOwner dom = some (n, d) → (s.core c).ddq = [] →
    let l : Loc := ⟨c, n⟩
    let x := s.ctx l
    let mine (i : Nat) : Prop := i < x.cur.cellCount ∧ (x.cell i).w0.getLsbD 13 = true ∧ ((x.cell i).w0.extractLsb' 10 3).toNat = d
    let overrun (i : Nat) : Prop := mine i ∧ Spec.source x (x.cell i) ((x.cell i).w0.extractLsb' 16 12) ≠ 0 ∧
      2 ^ ((x.cell i).w0.extractLsb' 5 5).toNat ≤ (x.cell i).y.natAbs
    let steps := ((x.cur.count d).extractLsb' 0 32).toNat
    x.cur.runs d = true → x.saved = none → x.stepAt.getD d 0 ≤ (s.core c).cycle →
    ((∀ i, ¬ overrun i) → ∃ t, exec (.domainStep c dom) s = .next t ∧
      (∀ i, mine i → (t.ctx l).cell i = Spec.stepped x (x.cell i)) ∧ (∀ i, ¬ mine i → (t.ctx l).cell i = x.cell i) ∧
      (((t.ctx l).cur.count d).extractLsb' 0 32).toNat = (steps + 1) % 2 ^ 32) ∧
    (∀ i, overrun i → (∀ j, j < i → ¬ overrun j) → ∃ t, exec (.domainStep c dom) s = .next t ∧ (∀ j, (t.ctx l).cell j = x.cell j) ∧
      (t.ctx l).cur.runs d = false ∧ (((t.ctx l).cur.count d).extractLsb' 0 32).toNat = steps ∧
      (x.cur.ctl.ddfault.getLsbD 0 = false → (t.ctx l).overrunDue = true ∧
        (t.ctx l).cur.ctl.ddfault = BitVec.ofNat 64 (1 + d * 2 + i * 2 ^ 4 + (steps + 1) % 2 ^ 32 * 2 ^ 32)))

/-! ### Contexts (R31, R34, R35, R252, R379, R387, R394, R405 to R408, R412) -/

/-- A long-latency value lands when its minimum latency has passed (R31, R252), and not before: its register is full and holds the value, and the result is no
longer on its way. -/
def Sys2Proof.Spec.LongLatencyValuesLand : Prop :=
  ∀ (s : State) (c n id : Nat) (r : Landing), (s.ctx ⟨c, n⟩).landings.find? id = some r →
    let l : Loc := ⟨c, n⟩
    (r.cycle ≤ (s.core c).cycle → ∃ t, exec (.longLatencyLanding c n id) s = .next t ∧ (t.ctx l).landings.find? id = none ∧
      (∀ v, r.value = some (.word v) → r.tile = none → ∀ p d, (s.ctx l).cur.pending.find? (fun p => p.id == id) = some p →
        p.dest = some (.s, d) → d < 64 → p.lanes = none →
        (t.ctx l).cur.readReg .s d = .word v ∧ (t.ctx l).cur.isEmpty .s d = false)) ∧
    ((s.core c).cycle < r.cycle → exec (.longLatencyLanding c n id) s = .next s)

/-- The steps of a context at its boundary: a blocked context becomes ready when nothing that it waits for at a fence is in flight (R34, R205); a core that has
not taken its cycle runs its one ready context, and one that has selects nothing (R35, R379); a pre-emption request leaves an off or a halted
context as it is, is held by a context that runs, and halts at once, with its save, one that waits at a marker and one that has issued no bundle
yet, which the lodge saves; while the request of another context of the core is in flight it waits at the lodge (R405; log 17). -/
def Sys2Proof.Spec.ContextsAreClearedSelectedAndHalted : Prop :=
  ∀ (s : State) (c n : Nat),
    let l : Loc := ⟨c, n⟩
    let x := s.ctx l
    (x.mode = .blocked → x.wait = some .fence → x.late = [] → (∀ i ∈ x.fence, ∀ k ∈ s.cores, ∀ e ∈ k.2.inFlight, e.1 ≠ i) →
      ∃ t, exec (.blockClear c n) s = .next t ∧
      (t.ctx l).mode = .ready ∧ (t.ctx l).wait = none ∧ (t.ctx l).fence = [] ∧ (t.ctx l).pc = x.pc) ∧
    ((s.core c).taken = none → n < 4 → (s.core c).running = none → x.mode = .ready → x.preempt = true →
      (∀ m, m < 4 → m ≠ n → (s.ctx ⟨c, m⟩).mode ≠ .ready ∧ (s.ctx ⟨c, m⟩).mode ≠ .running) →
      ∃ t, exec (.contextSelect c) s = .next t ∧ (t.core c).running = some n ∧ (t.core c).taken = some n ∧ (t.ctx l).mode = .running) ∧
    ((s.core c).taken ≠ none → exec (.contextSelect c) s = .next s) ∧
    (x.mode = .off ∨ x.mode = .halted → exec (.preemptionRequest c n) s = .next s) ∧
    ((∃ m, m < 4 ∧ m ≠ n ∧ (s.ctx ⟨c, m⟩).preempt = true) → exec (.preemptionRequest c n) s = .next s) ∧
    let alone := ∀ e ∈ (s.core c).ctxs, e.1 ≠ n → e.2.preempt = false
    (alone → x.mode = .running → x.wait = none → x.started = true → ∃ t, exec (.preemptionRequest c n) s = .next t ∧ (t.ctx l).preempt = true ∧
      (t.ctx l).mode = .running ∧ (t.ctx l).cur = x.cur) ∧
    (alone → x.mode = .running ∨ x.mode = .ready → x.started = false → ∃ t, exec (.preemptionRequest c n) s = .next t ∧
      (t.ctx l).mode = .halted ∧ (t.ctx l).preempt = false ∧ (t.ctx l).pc = x.pc ∧ ∃ v, (t.ctx l).saved = some v ∧ v.loff = none) ∧
    (alone → x.mode = .blocked → x.wait = some .bundle → x.marker.isSome = true → ∃ t, exec (.preemptionRequest c n) s = .next t ∧
      (t.ctx l).mode = .halted ∧ (t.ctx l).saved.isSome = true ∧ (t.ctx l).preempt = false ∧ (t.ctx l).marker = none ∧ (t.ctx l).pc = x.pc)

/-- Long-latency values land, and contexts are cleared, selected and halted (R31, R34, R35, R252, R379, R405). -/
def Obligations.LandingsAndContextBoundariesAct : Prop :=
  Spec.LongLatencyValuesLand ∧ Spec.ContextsAreClearedSelectedAndHalted

/-- The end of a halt (R385, R394, R398, R407, R408, R412): a halted context with a save, with idle engines and with nothing held resumes in its place with its
registers and at its bundle; a halted context that is released, and one that has not reached its halt 40 µs after the request, is off and its task
ends with STATUS 4, the latter with a record of ORIGIN 9. R119 gives this of the registers that the live-state list names; that every register, the unlisted
ones included, reads as in the halted context is the model's (log 17). -/
def Sys2Proof.Spec.HaltedContextsResumeOrLeave : Prop :=
  ∀ (s : State) (c n : Nat),
    let l : Loc := ⟨c, n⟩
    let x := s.ctx l
    let ended (t : State) (b : Binding) : Prop := (t.ctx l).mode = .off ∧ (t.ctx l).binding = none ∧
      ∀ u ∈ (s.core c).table, u.id = b.task → ∃ v ∈ (t.core c).table, v.id = b.task ∧ v.bound = none ∧ ∃ w r, v.ended = some (0, 4, w, r)
    (x.mode = .halted → x.saved.isSome = true → x.fence = [] → (s.core c).mxRun = none → (s.core c).scRun = none → (s.core c).ddq = [] → x.keptDd = [] →
      x.boundaryTrap = none → ∃ t, exec (.contextRestore c n c n) s = .next t ∧ (t.ctx l).mode = .ready ∧ (t.ctx l).saved = none ∧
        (t.ctx l).pc = x.pc ∧ (∀ f m, (t.ctx l).cur.readReg f m = x.cur.readReg f m) ∧ (t.ctx l).cur.stack = x.cur.stack) ∧
    (x.mode = .off → exec (.contextRelease c n) s = .next s) ∧
    (∀ b, x.mode = .halted → x.binding = some b → x.landings = [] → (x.saved.isSome = true ∨ x.late = [] ∧ (s.core c).ddq = []) →
      ∃ t, exec (.contextRelease c n) s = .next t ∧ ended t b) ∧
    (∀ b, x.preempt = true → 40000 * 42 ≤ x.waited → x.binding = some b → x.landings = [] → x.late = [] → (s.core c).ddq = [] →
      x.arithDue = false → x.overrunDue = false → (s.dev b.pav b.vd).flog.length < 64 →
      ∃ t, exec (.watchdogExpiry c n) s = .next t ∧ ended t b ∧ (t.dev b.pav b.vd).flog = (s.dev b.pav b.vd).flog ++
        [⟨9, 13, 0, c, n, 0, (s.dev b.pav b.vd).seq, x.pc⟩]) ∧
    (x.preempt = false ∨ x.waited < 40000 * 42 → exec (.watchdogExpiry c n) s = .next s)

/-- The save area of a halted context (R409): it has 131,072 bytes, and its header names the layout, the resume PC, and the LOFF of the marker or all
ones for a lodge save; it stands at the place that the lodge chose, under the key of the device (a free place, log 17); a context with no save has none. -/
def Sys2Proof.Spec.SaveAreasHaveTheirHeader : Prop :=
  ∀ (s : State) (l : Loc),
    ((s.ctx l).saved = none → s.saveArea l = none) ∧
    (∀ v, (s.ctx l).saved = some v → ∃ bs, s.saveArea l = some bs ∧ bs.length = 131072 ∧ leNat (bs.take 4) = 0x53415645 ∧
      leNat ((bs.drop 4).take 4) = 1 ∧ leNat ((bs.drop 8).take 8) = (s.ctx l).pc.toNat ∧
      leNat ((bs.drop 16).take 8) = (v.loff.getD (2 ^ 64 - 1)) % 2 ^ 64 ∧ ∀ j, j < 131072 → s.areaByte l v.key (v.place + j) = bs[j]?)

/-- The end of a halt, and the area in which a halted context is kept (R119, R385, R394, R398, R407 to R409, R412; log 17). -/
def Obligations.ContextsAreRestoredAndReleased : Prop :=
  Spec.HaltedContextsResumeOrLeave ∧ Spec.SaveAreasHaveTheirHeader

/-! ### Rates (R371 to R377, R383, R385) -/

/-- The steps of the arbiters (R371, R372, R374, R376, R383): a slot passes and its owner's bucket below its cap takes a token; where the owner has its tokens a
free controller serves the oldest request for at most four sectors and draws them; written rates come into force at the start of a revolution
alone; and the reclaim of a device's ways ends when it has passed every set of every slice. The slot of an arbiter of the promenade is the number of the
container that leaves its output (R381). -/
def Obligations.ArbitersRefillGrantAndTakeOver : Prop :=
  ∀ (s : State) (n : Nat),
    let a := s.arb n
    let slot := if 256 ≤ n ∧ n < 512 then s.slotNow ((n - 256) / 2) (n % 2) else a.slot
    (∀ key, slot ≠ 0 → s.slotOwner n slot = some key → a.bucket key < Int.ofNat ((s.rateAt n key).extractLsb' 16 16).toNat →
      a.bucket key < 2 ^ 31 - 1 → -(2 ^ 31) ≤ a.bucket key → ∃ t, exec (.tokenRefill n) s = .next t ∧ (t.arb n).bucket key = a.bucket key + 1 ∧
        (∀ k, k ≠ key → (t.arb n).bucket k = a.bucket k) ∧ (t.arb n).slot = (slot + 1) % 1024 ∧
        (n < 128 → (t.core n).cycle = (s.core n).cycle + 1 ∧ (t.core n).taken = (s.core n).bubble)) ∧
    (∀ r rest, 512 ≤ n → a.busy = 0 → s.reclaimAt n = none → a.reqs = r :: rest →
      let key := 128 * r.pav + r.vd
      let c := min r.cost 4
      Int.ofNat c ≤ a.bucket key → a.bucket key < 2 ^ 31 → ∃ t, exec (.arbiterGrant n) s = .next t ∧
        (t.arb n).bucket key = a.bucket key - Int.ofNat c ∧ (t.arb n).busy = c ∧
        (t.arb n).reqs = (if r.cost ≤ 4 then rest else { r with cost := r.cost - 4 } :: rest)) ∧
    (slot = 0 → ∃ t, exec (.rateWriteEffect n) s = .next t ∧ (t.arb n).rates = [] ∧ (t.arb n).tok = a.tok) ∧
    (slot ≠ 0 → exec (.rateWriteEffect n) s = .next s) ∧
    (∀ r rest, s.reclaims.getD n [] = r :: rest →
      let same (q : Reclaim) : Prop := q.pav = r.pav ∧ q.vd = r.vd ∧ q.ways = r.ways
      ((∀ e ∈ s.reclaims, ∀ q ∈ e.2, same q → 8192 ≤ q.next) → ∃ t, exec (.reclaimWalkEnd n) s = .next t ∧
        ∀ m q, q ∈ t.reclaims.getD m [] ↔ q ∈ s.reclaims.getD m [] ∧ ¬ same q) ∧
      ((∃ e ∈ s.reclaims, ∃ q ∈ e.2, same q ∧ q.next < 8192) → exec (.reclaimWalkEnd n) s = .next s))

/-- The writes of rates and the visits of the dispatcher (R373 to R375, R377, R384, R385): a disabled device takes what is written but for reserved bits, which
are not kept (R6, by the reading of log 23); an enabled one
refuses a RATE above 1,024 with ERR and keeps its register; PAVLEND takes LEND, BORROW and a PWT that is not 0, and every lending counter starts again
at 0; a visit gives a device with launches or a bound task its quantum, up to one quantum, and leaves an idle device with at most 0; the next visit of the
pavilion is 8 cycles later. -/
def Obligations.RatesAreWrittenAndDevicesVisited : Prop :=
  ∀ (s : State) (p d : Nat),
    let v := s.dev p d
    (∀ x : Word, s.oper.inReset = false → v.enabled = false → ∃ t, exec (.rateBlockWrite p d 0 x) s = .next t ∧ (t.dev p d).riss = x &&& 0xFFFFFF07FF ∧
      (t.dev p d).rstat.getLsbD 0 = false) ∧
    (∀ x : Word, s.oper.inReset = false → v.enabled = true → 1024 < (x.extractLsb' 0 11).toNat → ∃ t, exec (.rateBlockWrite p d 0 x) s = .next t ∧
      (t.dev p d).riss = v.riss ∧ (t.dev p d).rstat.getLsbD 0 = true) ∧
    (∀ x : Word, s.oper.inReset = false → ∃ t, exec (.pavlendWrite p x) s = .next t ∧ (t.pav p).pavlend.extractLsb' 0 2 = x.extractLsb' 0 2 ∧
      (t.pav p).pavlend.extractLsb' 8 8 = (if x.extractLsb' 8 8 = 0 then (s.pav p).pavlend.extractLsb' 8 8 else x.extractLsb' 8 8) ∧
      ∀ n, (t.arb n).lc = [] ∧ (t.arb n).plc = []) ∧
    ((s.pav p).nextVisit = some d → (s.pav p).visitDue (s.pavClock p) = true → v.enabled = true → s.quiet p = false →
      ∃ t, exec (.dispatcherVisit p d) s = .next t ∧ (t.pav p).visited = some d ∧ (t.pav p).visitAt = s.pavClock p + 8 ∧
        let quant := Int.ofNat (v.rdwrr.extractLsb' 0 24).toNat
        (v.launches = [] → s.hasBound p d = false → (t.dev p d).deficit = min v.deficit 0) ∧
        (v.launches ≠ [] ∨ s.hasBound p d = true → (t.dev p d).deficit = min (v.deficit + quant) quant))

/-! ### The promenade (R226, R369, R380, R381) -/

/-- The steps of the promenade (R12, R13, R226, R381): a placed message that has travelled its way and that no earlier one of its path precedes joins the receive
queue of its direction and channel; a credit that has arrived is the sender's again; and the container of the pavilion's own slot that leaves a core,
with its free bytes, takes the waiting packet of a device with a token, which it draws. The number of the container that leaves core n in a cycle c
is c less the cycles of the hops from core 0, of 4 cycles each in the first die; a step that names another does nothing (which cycle a container's number
counts is log 20). A message or a credit that has come in by a port is taken at the next cycle of the core that it goes to, with the hops from the port
before it, where the hop over the port has room, and waits there where it has none (R12, R14, R369; the cycle is log 3, and the 180 ns of the
crossing lie outside the package); a message that leaves by a port goes where the hop has room. -/
def Sys2Proof.Spec.PromenadeMessagesArrive : Prop :=
  ∀ (s : State),
    (∀ m, s.messages.find? (fun e => e.id == m.id) = some m → m.waiting = false → m.held = false → m.wait = 0 → m.dst < 128 →
      (∀ e ∈ s.messages, e.id < m.id → ¬ (e.src = m.src ∧ e.dst = m.dst ∧ e.dir = m.dir)) →
      let key := 8 * m.dir + m.ch
      ∃ t, exec (.ringMessageDelivery m.id) s = .next t ∧ t.messages = s.messages.filter (fun e => e.id != m.id) ∧
        (t.core m.dst).ring.getD key [] = (s.core m.dst).ring.getD key [] ++ [m]) ∧
    (∀ c dir ch, ⟨c, dir, ch, 0⟩ ∈ s.credits → ∃ t, exec (.creditReturn c dir ch) s = .next t ∧
      t.credits = s.credits.erase ⟨c, dir, ch, 0⟩ ∧ (t.core c).spent.getD (8 * dir + ch) 0 = (s.core c).spent.getD (8 * dir + ch) 0 - 1) ∧
    (∀ c dir m p,
      let slot := s.slotNow c dir
      let free := s.freeNow c dir false
      s.pavOf c = some p → s.promenadeOwner slot = some p → 16 ≤ free → m.vd < 128 →
      s.messages.filter (fun e => e.waiting && e.src == c && e.dir == dir) = [m] →
      let n := 256 + 2 * c + dir
      1 ≤ (s.arb n).bucket (128 * p + m.vd) → (s.arb n).bucket (128 * p + m.vd) < 2 ^ 31 →
      ∃ t, exec (.packetPlacement c dir slot free) s = .next t ∧
        t.messages = s.messages.map (fun e => if e.waiting ∧ e.src = c ∧ e.dir = dir then { e with waiting := false } else e) ∧
        (t.arb n).bucket (128 * p + m.vd) = (s.arb n).bucket (128 * p + m.vd) - 1) ∧
    (∀ c slot free, 0 < c → c < 64 → slot ≠ (s.clock + 1024 - 4 * c) % 1024 → exec (.packetPlacement c 0 slot free) s = .next s) ∧
    (∀ c dir ch data, c < 128 → dir < 2 → s.portIn = [.message dir ch data] → s.portGoal (.message dir ch data) = c →
      s.oper.rxcfg.getLsbD 0 = true → s.oper.rxcfg.getLsbD 3 = true → s.oper.rxcfg.getLsbD (1 + dir) = true →
      (∀ e ∈ s.portLoad, e.1 = 2 * dir + 1 → e.2 < cycleTime s.oper.cur) →
      ∃ t m, exec (.tokenRefill c) s = .next t ∧ t.portIn = [] ∧ m ∈ t.messages ∧ m.src = 128 ∧ m.dst = c ∧ m.dir = dir ∧ m.ch = ch ∧
        m.data = data ∧ m.waiting = false ∧ m.held = false ∧
        let way := if dir = 0 then 4 * c + (if 64 ≤ c then 16 else 0) else 4 * (127 - c) + (if c ≤ 63 then 16 else 0)
        m.wait = if way = 0 then 0 else 1 + way) ∧
    (∀ c dir ch data, c < 128 → dir < 2 → s.portIn = [.message dir ch data] → s.portGoal (.message dir ch data) = c →
      2 * cycleTime s.oper.cur ≤ s.portLoad.getD (2 * dir + 1) 0 →
      ∃ t, exec (.tokenRefill c) s = .next t ∧ t.portIn = s.portIn ∧ t.messages.map RingMsg.id = s.messages.map RingMsg.id) ∧
    (∀ m, s.messages = [m] → m.waiting = false → m.held = false → m.wait = 0 → m.dst = 128 → m.dir < 2 →
      let up := s.oper.rxcfg.getLsbD 0 = true ∧ s.oper.rxcfg.getLsbD (2 - m.dir) = true
      let room := s.portLoad.getD (2 * m.dir) 0 < cycleTime s.oper.cur
      (up ∧ room → ∃ t, exec (.ringMessageDelivery m.id) s = .next t ∧ t.messages = [] ∧
        t.portLoad.getD (2 * m.dir) 0 = s.portLoad.getD (2 * m.dir) 0 + 3) ∧
      (¬ (up ∧ room) → exec (.ringMessageDelivery m.id) s = .next s)) ∧
    (∀ c dir ch, c < 128 → dir < 2 → s.portIn = [.credit c dir ch] → ∃ t e, exec (.tokenRefill c) s = .next t ∧ t.portIn = [] ∧
      e ∈ t.credits ∧ e.core = c ∧ e.dir = dir ∧ e.ch = ch ∧
      e.wait = if dir = 0 then 4 * (127 - c) + (if c ≤ 63 then 16 else 0) else 4 * c + (if 64 ≤ c then 16 else 0))

/-- The ring-extension ports and the calendar (R357, R369, R380): RXCFG takes EN, JEN and JPAV while every context is off and no command is in progress, and keeps
its other bits; a replay counts on a port whose link is up; a link change shows in its bit; CALW is ignored while a command other than a resize is in
progress and one write waits behind a resize (R432; that it is one write, and that others are ignored, is log 20), is refused
with RESULT 1 for a COUNT or a pavilion that is out of range and with 5 where a pavilion's devices would be left with more RATE than indices, and is
accepted otherwise, with GO at 1 and RESULT 0; at the start of a revolution an accepted one gives its indices to its pavilion, or to none, and no
others. -/
def Sys2Proof.Spec.PortsAndCalendarAreWritten : Prop :=
  ∀ (s : State),
    (∀ x : Word, s.someContextOn = false → s.oper.pcmd.getLsbD 15 = false → s.oper.calw.getLsbD 26 = false → s.oper.inReset = false → ∃ t,
      exec (.rxcfgWrite x) s = .next t ∧ t.oper.rxcfg = (x &&& 0xF9) ||| (s.oper.rxcfg &&& ~~~0xF9)) ∧
    (∀ port, port < 2 → s.oper.rxcfg.getLsbD 0 = true → s.oper.rxcfg.getLsbD (1 + port) = true →
      (s.oper.rxcfg.extractLsb' 32 32).toNat < 2 ^ 32 - 1 → ∃ t, exec (.flitReplay port) s = .next t ∧
        t.oper.rxcfg = s.oper.rxcfg + 0x100000000) ∧
    (∀ port up joined, port < 2 → ∃ t, exec (.ringPortLinkChange port up joined) s = .next t ∧ t.oper.rxcfg.getLsbD (1 + port) = up ∧
      (if port = 0 then t.oper.far0 else t.oper.far1) = joined) ∧
    (∀ x : Word, s.oper.pcmd.getLsbD 15 = true → s.oper.pcmd.extractLsb' 0 3 ≠ 2 → exec (.calwWrite x) s = .next s) ∧
    (∀ x : Word, s.oper.pcmd.getLsbD 15 = true → s.oper.pcmd.extractLsb' 0 3 = 2 → s.oper.calw.getLsbD 26 = false → s.oper.inReset = false →
      (s.oper.calwHeld = none → exec (.calwWrite x) s = .next { s with oper := { s.oper with calwHeld := some x } }) ∧
      (∀ y, s.oper.calwHeld = some y → exec (.calwWrite x) s = .next s)) ∧
    (∀ x : Word, s.oper.pcmd.getLsbD 15 = false → s.oper.calw.getLsbD 26 = false → s.oper.inReset = false →
      let count := (x.extractLsb' 10 11).toNat
      let bad := count = 0 ∨ 1024 < count ∨ (x.getLsbD 25 = false ∧ (s.pav (x.extractLsb' 21 4).toNat).formed = false)
      let short := ∃ p ∈ s.pavs, ((calendarAfter x s.oper.calendar).filter fun e => e.2 == p.1).length < s.promRates p.1
      ∃ t, exec (.calwWrite x) s = .next t ∧ t.oper.calendar = s.oper.calendar ∧
        (x.getLsbD 26 = true → ¬ bad → ¬ short → t.oper.calw = (x &&& 0x3FFFFFF) ||| 0x4000000) ∧
        (x.getLsbD 26 = true → bad → t.oper.calw.extractLsb' 27 4 = 1 ∧ t.oper.calw.getLsbD 26 = false) ∧
        (x.getLsbD 26 = true → ¬ bad → short → t.oper.calw.extractLsb' 27 4 = 5 ∧ t.oper.calw.getLsbD 26 = false) ∧
        (x.getLsbD 26 = false → t.oper.calw.extractLsb' 0 26 = x.extractLsb' 0 26 ∧ t.oper.calw.getLsbD 26 = false)) ∧
    (s.oper.calw.getLsbD 26 = true → s.clock % 1024 ≠ 0 → exec .calendarWriteEffect s = .next s) ∧
    (s.oper.calw.getLsbD 26 = true → s.clock % 1024 = 0 →
      let w := s.oper.calw
      let inside (j : Nat) : Prop := ∃ i, i < (w.extractLsb' 10 11).toNat ∧ j = ((w.extractLsb' 0 10).toNat + i) % 1024
      ∃ t, exec .calendarWriteEffect s = .next t ∧ t.oper.calw.getLsbD 26 = false ∧
        ∀ j, (inside j → t.oper.calendar.find? j = if w.getLsbD 25 then none else some (w.extractLsb' 21 4).toNat) ∧
          (¬ inside j → t.oper.calendar.find? j = s.oper.calendar.find? j))

/-- Messages, credits and packets of the promenade, its ports and its calendar (R12 to R14, R226, R357, R369, R380, R381, R432; log 3, log 20). -/
def Obligations.PromenadePortsAndCalendarAct : Prop :=
  Spec.PromenadeMessagesArrive ∧ Spec.PortsAndCalendarAreWritten

/-! ### Work (R207, R228, R274, R277 to R279, R282 to R285, R298, R353) -/

/-- The binding and the finish of a task (R274, R277, R278, R279, R353): the one task of a core with every unit free starts in context 0 at the entry of its
image with its initial registers; one whose program has ended and of which no operation is in flight leaves the table and its completion entry falls
due with its tag, exit code and status; and the oldest entry is written to a ring that is not full, at its tail, which advances. -/
def Obligations.TasksBindFinishAndPost : Prop :=
  ∀ (s : State) (c : Nat) (u : Task),
    (∀ p g, s.pavOf c = some p → s.quiet p = false → (s.core c).failing = [] → (s.core c).ctxs = [] → (s.core c).table = [u] →
      (s.core c).parked = [] → (s.core c).holds = [] → (s.core c).heldFor = none → u.gang = none → u.bound = none → u.ended = none →
      recPipes u.record = 0 → recBlocks u.record ≤ 8 → recDomains u.record ≤ 8 → s.images.find? (65536 * p + recImage u.record) = some g →
      g.templates = [] → ∃ t, exec (.taskBinding c u.id) s = .next t ∧
        let x := t.ctx ⟨c, 0⟩
        x.mode = .ready ∧ x.pc = g.base + BitVec.ofNat 64 (recEntry u.record) ∧ (∃ b, x.binding = some b ∧ b.task = u.id ∧ b.vd = u.vd) ∧
          (∀ j, j < 4 → x.cur.readReg .s j = .word (BitVec.ofNat 64 (u.firsts.getD j 0))) ∧
          x.cur.readReg .s 4 = .word (recArg0 u.record) ∧ x.cur.readReg .s 5 = .word (recArg1 u.record) ∧
          x.cur.readReg .s 7 = .word (BitVec.ofNat 64 (recMidx u.record)) ∧ x.cur.ctl.tvec = 0 ∧ x.cur.p = 1) ∧
    (∀ p exit status w r, s.pavOf c = some p → (s.core c).table.find? (fun v => v.id == u.id) = some u →
      u.ended = some (exit, status, w, r) → (s.core c).inFlight = [] → ∃ t, exec (.taskFinish c u.id) s = .next t ∧
        (t.core c).table.map Task.id = ((s.core c).table.filter fun v => v.id != u.id).map Task.id ∧
        ∃ e, (t.dev p u.vd).entries = (s.dev p u.vd).entries ++ [e] ∧ e.length = 16 ∧ leNat (e.take 4) = recTag u.record % 2 ^ 32 ∧
          leNat ((e.drop 4).take 4) = exit % 2 ^ 32 ∧ leNat ((e.drop 8).take 2) = status % 2 ^ 16) ∧
    (∀ p d e rest, (s.dev p d).entries = e :: rest →
      let v := s.dev p d
      let size := 16 * 2 ^ (v.vdcfg.extractLsb' 34 4).toNat
      let place := (v.crbase.extractLsb' 12 52).toNat * 4096 + 16 * (v.crtail % size)
      (v.crtail + 65536 - v.crhead) % 65536 ≠ size → ∃ t, exec (.completionEntryPost p d) s = .next t ∧ (t.dev p d).entries = rest ∧
        (t.dev p d).crtail = (v.crtail + 1) % 65536 ∧ (∀ j (h : j < e.length), t.host.byte (place + j) = e[j]) ∧
        t.msix = s.msix ++ [(p, d, 0)])

/-- The walker of a core at a node of its graph (R284, R285). -/
def Sys2Proof.Spec.walkerAt (s : State) (c p : Nat) (w : Walker) (r : List Byte) (tag : Bool) : Prop :=
  s.pavOf c = some p ∧ (s.core c).walker = some w ∧ s.quiet p = false ∧ w.snap = none ∧ w.nodes[w.node]? = some (r, tag) ∧ r ≠ []

/-- The nodes of a graph (R282 to R285): a walker submits a task node to the queue of its graph launch, on its own core, where an entry of the store is free, and
waits where none is (that all completion places held count as none free is log 31); at a conditional or a while node it waits for all its tasks, then reads the condition word through CAP0 and goes on to NEXT or ALT,
a while node counting its passes into NEXT up to MAXIT; a join waits for all but JCNT of its tasks; a barrier wait goes on where the phase is another
and a program of its tenant holds the bank (this last is log 22); an end node posts a completion entry of status 0 with the TAG of the launch and frees the
walker; and a node that stops the walk posts one of status 5 with its index. -/
def Sys2Proof.Spec.WalkersFollowTheirNodes : Prop :=
  ∀ (s : State) (c p : Nat) (w : Walker) (r : List Byte) (tag : Bool), Spec.walkerAt s c p w r tag →
    let link : Word := BitVec.ofNat 64 (leNat ((r.drop 12).take 4))
    let kind := (link.extractLsb' 0 4).toNat
    let nextNode := (link.extractLsb' 4 8).toNat
    let alt := (link.extractLsb' 12 8).toNat
    let left := s.unfinished p c w
    let d := s.dev p w.vd
    let lstore := (d.vdcfg.extractLsb' 25 9).toNat
    let room := d.launches.length < lstore ∧ d.launches.length + s.placesHeld p w.vd < 256 + lstore
    let posted (t : State) (status index : Nat) : Prop := (t.core c).walker = none ∧
      ∃ e, (t.dev p w.vd).entries = d.entries ++ [e] ∧ leNat (e.take 4) = w.tag % 2 ^ 32 ∧ leNat ((e.drop 4).take 4) = 0 ∧
        leNat ((e.drop 8).take 2) = status ∧ leNat ((e.drop 10).take 2) = index % 2 ^ 16
    (s.badNode p c w r tag = true → ∃ t, exec (.walkerNode c) s = .next t ∧ posted t 5 w.node) ∧
    (s.badNode p c w r tag = false →
      (kind = 0 → room → position c (s.pav p).cores < 128 → ∃ t e, exec (.walkerNode c) s = .next t ∧ (t.core c).walker = some { w with node := nextNode } ∧
        (t.dev p w.vd).launches = d.launches ++ [e] ∧ e.queue = w.queue ∧ e.walk = some w.run ∧ e.core = c ∧
        ∃ b, e.record = some b ∧ b.drop 8 = r.drop 8 ∧ recAny b = false ∧ recGraph b = false ∧ recCore b = position c (s.pav p).cores) ∧
      (kind = 0 → ¬ room → exec (.walkerNode c) s = .next s) ∧
      (kind = 1 ∨ kind = 2 ∨ kind = 5 → left ≠ 0 → exec (.walkerNode c) s = .next s) ∧
      (∀ ps, kind = 1 ∨ kind = 2 → left = 0 →
        let coff := leNat (r.take 8)
        let mask : Word := BitVec.ofNat 64 (leNat ((r.drop 16).take 8))
        let maxit := leNat ((r.drop 24).take 8)
        let met : Prop := (BitVec.ofNat 64 (leNat (s.readRange ps).1) : Word) &&& mask ≠ 0
        let n := w.passes.getD w.node 0
        let a : Accessor := ⟨c, p, w.vd, false⟩
        (w.cap.base + coff) % 8 = 0 → capCheck w.cap (Int.ofNat (w.cap.base + coff)) 8 grantRD d.tenant false = none →
        s.range a (w.cap.base + coff) 8 false = .ok ps → (s.readRange ps).2 = false →
        (kind = 1 → ∃ t, exec (.walkerNode c) s = .next t ∧ (met → (t.core c).walker = some { w with node := nextNode }) ∧
          (¬ met → (t.core c).walker = some { w with node := alt })) ∧
        (kind = 2 → link.getLsbD 28 = false ∨ w.nent = 0 → ∃ t, exec (.walkerNode c) s = .next t ∧
          (met ∧ (maxit = 0 ∨ n < maxit) → (t.core c).walker = some { w with passes := w.passes.set w.node (n + 1), node := nextNode }) ∧
          (¬ (met ∧ (maxit = 0 ∨ n < maxit)) → (t.core c).walker = some { w with passes := w.passes.set w.node 0, node := alt }))) ∧
      (kind = 3 → left ≤ (link.extractLsb' 20 8).toNat →
        ∃ t, exec (.walkerNode c) s = .next t ∧ (t.core c).walker = some { w with node := nextNode }) ∧
      (kind = 3 → (link.extractLsb' 20 8).toNat < left → exec (.walkerNode c) s = .next s) ∧
      (kind = 4 →
        let bar := 16 * leNat (r.take 8)
        let q := w.phases.getD w.node (leNat ((r.drop 16).take 8))
        let holds := ∃ k ∈ (s.core c).claims, k.bank = bar / 65536 ∧ k.state = .held ∧
          ∃ t ∈ (s.core c).table, t.id = k.prog ∧ (s.dev p t.vd).tenant = d.tenant
        ((s.barrier c ⟨c, p, w.vd, false⟩ bar).phase ≠ q → holds → ∃ t, exec (.walkerNode c) s = .next t ∧
          (t.core c).walker = some { w with phases := w.phases.set w.node ((q + 1) % 16), node := nextNode }) ∧
        ((s.barrier c ⟨c, p, w.vd, false⟩ bar).phase = q ∨ ¬ holds → exec (.walkerNode c) s = .next s)) ∧
      (kind = 5 → left = 0 → ∃ t, exec (.walkerNode c) s = .next t ∧ posted t 0 0))

/-- Banks and launches (R228, R298, R300): a claim with none before it on its bank is held, and has taken what the former owners of the bank passed on; a release
whose program touches the bank no more is gone; and the record of a reserved launch is read from memory. -/
def Sys2Proof.Spec.BanksAndLaunchesGoOn : Prop :=
  ∀ (s : State) (c : Nat),
    (∀ k, (s.core c).claims = [k] → k.state = .pending → ∃ t, exec (.bankClaimHeld c k.prog k.bank) s = .next t ∧
      (t.core c).claims = [{ k with state := .held, taken := (s.core c).passed.getD k.bank [] }]) ∧
    (∀ k, (s.core c).claims = [k] → k.state = .releasing → (s.core c).touches k.prog k.bank = false →
      ∃ t, exec (.bankReleaseComplete c k.bank) s = .next t ∧ (t.core c).claims = []) ∧
    (∀ p d e ps, (s.dev p d).launches = [e] → e.record = none → s.range ⟨e.core, p, d, false⟩ e.addr.toNat 64 false = .ok ps →
      (∀ q ∈ ps, s.piecePoisoned q = false) → ∃ t, exec (.launchRecordRead p d e.id) s = .next t ∧
        ∃ f, (t.dev p d).launches = [f] ∧ f.record = some (s.readRange ps).1 ∧ f.id = e.id ∧ f.queue = e.queue)

/-- Banks, launches and the walkers of graphs (R228, R282 to R285, R298, R300; log 22, log 31). -/
def Obligations.BanksLaunchesAndWalkersGoOn : Prop := Spec.BanksAndLaunchesGoOn ∧ Spec.WalkersFollowTheirNodes

/-! ### The host and the lodges (R264, R349 to R359, R366, R367, R398, R401, R413 to R426) -/

/-- What the host does through a function's BARs: an aligned 64-byte write to the launch aperture of an enabled device with a free entry is accepted into its
queue (R351); where none is free, FULL of the queue counts it and nothing else changes (R351; that all completion places held count as none free is
log 31); one that is unaligned or of another size, one to a device that is disabled or resetting, and an aligned one behind the aperture are
dropped and counted in MALF (R351, R352); one to the offset of CRHEAD is its write, whatever its size (log 23), and a pavilion that is not formed
drops all (R347); a window write that translates stores its bytes and clears the tags of the granules that it covers, and one any part of
which does not is dropped whole (R354; the whole is log 23); a window read answers the bytes, or Unsupported Request with bytes 0xFF, or poisoned data
(R354, R360); the direct view answers what the home holds, without the dirty copies of L2 (R251, R354);
CRHEAD takes a value that passes no unwritten entry (R353). -/
def Sys2Proof.Spec.HostWindowsAndLaunchesAct : Prop :=
  ∀ (s : State) (pav vd off : Nat) (bs : List Byte),
    let d := s.dev pav vd
    let lstore := (d.vdcfg.extractLsb' 25 9).toNat
    let free := d.launches.length < lstore ∧ d.launches.length + s.placesHeld pav vd < 256 + lstore
    let launch := off < 0x400 ∧ off % 64 = 0 ∧ bs.length = 64 ∧ d.enabled = true ∧ d.vdctl.getLsbD 0 = false
    let queue := off / 64
    s.oper.inReset = false →
    ((s.pav pav).formed = true → launch → free → ∃ t, exec (.hostLaunch pav vd off bs) s = .next t ∧
      ∃ e, (t.dev pav vd).launches = d.launches ++ [e] ∧ e.queue = queue ∧ e.record = some bs ∧
        (t.dev pav vd).acc.getD queue 0 = (d.acc.getD queue 0 + 1) % 2 ^ 32) ∧
    ((s.pav pav).formed = true → launch → ¬ free → exec (.hostLaunch pav vd off bs) s =
      .next (s.setDev pav vd { d with full := d.full.set queue ((d.full.getD queue 0 + 1) % 2 ^ 32) })) ∧
    ((s.pav pav).formed = true → off ≠ 0x1100 → ¬ launch → exec (.hostLaunch pav vd off bs) s =
      .next (s.setDev pav vd { d with malf := (d.malf + 1) % 2 ^ 32 })) ∧
    ((s.pav pav).formed = true → off = 0x1100 → exec (.hostLaunch pav vd off bs) s = exec (.crheadWrite pav vd (BitVec.ofNat 64 (leNat bs))) s) ∧
    ((s.pav pav).formed = false → exec (.hostLaunch pav vd off bs) s = .next s) ∧
    (∀ p, s.range (windowOf pav vd) (d.windowAddr off) bs.length true = .ok [p] → p.len = bs.length → p.place.pa % 64 + p.len ≤ 64 →
      s.keyDead p.place.kidx = false → s.poison.getD (p.place.pa / 64) false = false → ∃ t, exec (.windowWrite pav vd off bs) s = .next t ∧
        (∀ j (h : j < bs.length), t.byteUnder (s.serialOf p.place.kidx) (p.place.pa + j) = bs[j]) ∧
        (∀ a, a / 64 ≠ p.place.pa / 64 → t.mem.byte a = s.mem.byte a) ∧
        ∀ j, j < bs.length → t.tags.getD ((p.place.pa + j) / 16) false = false) ∧
    (∀ e, s.range (windowOf pav vd) (d.windowAddr off) bs.length true = .error e → exec (.windowWrite pav vd off bs) s = .next s) ∧
    (∀ n ps, s.range (windowOf pav vd) (d.windowAddr off) n false = .ok ps → (∀ p ∈ ps, s.piecePoisoned p = false) → off < 2 ^ 39 →
      ∃ t, exec (.windowRead pav vd off n) s = .next t ∧ t.reads = s.reads ++ [(pav, vd, 0, (s.readRange ps).1)] ∧ t.mem = s.mem) ∧
    (∀ n p, s.range (windowOf pav vd) (d.windowAddr off) n false = .ok [p] → s.piecePoisoned p = false → 2 ^ 39 ≤ off → off < 2 ^ 40 →
      ∃ t b, exec (.windowRead pav vd off n) s = .next t ∧ t.reads = s.reads ++ [(pav, vd, 0, b)] ∧ t.mem = s.mem ∧
        (s.home.find? (p.place.pa / 64) = none → b = (s.readRange [p]).1) ∧
        ∀ h, s.home.find? (p.place.pa / 64) = some h → s.keyDead p.place.kidx = false → h.key = s.serialOf p.place.kidx →
          b = (List.range p.len).map fun i => h.bytes.getD (p.place.pa % 64 + i) 0) ∧
    (∀ n ps, s.range (windowOf pav vd) (d.windowAddr off) n false = .ok ps → (∃ p ∈ ps, s.piecePoisoned p = true) →
      ∃ t, exec (.windowRead pav vd off n) s = .next t ∧ t.reads = s.reads ++ [(pav, vd, 2, List.replicate n 0xFF)]) ∧
    (∀ n e, s.range (windowOf pav vd) (d.windowAddr off) n false = .error e → ∃ t, exec (.windowRead pav vd off n) s = .next t ∧
      t.reads = s.reads ++ [(pav, vd, 1, List.replicate n 0xFF)]) ∧
    (∀ x : Word, let n := (x.extractLsb' 0 16).toNat
      (s.pav pav).formed = true → (n + 65536 - d.crhead) % 65536 ≤ (d.crtail + 65536 - d.crhead) % 65536 →
      ∃ t, exec (.crheadWrite pav vd x) s = .next t ∧ (t.dev pav vd).crhead = n) ∧
    (∀ x : Word, let n := (x.extractLsb' 0 16).toNat
      (d.crtail + 65536 - d.crhead) % 65536 < (n + 65536 - d.crhead) % 65536 → exec (.crheadWrite pav vd x) s = .next s)

/-- What the host reads (R6, R348, R349, R352, R373, R398): the launch aperture reads 0, and behind it stand the counters of each queue, MALF, CRHEAD
and CRTAIL; through BAR0 the physical function sees the blocks of every device, a virtual one its own, and the operator block answers pavilion
0 alone; an empty fault log reads 0, and COUNT is the number of its records; a write of BAR0 to VDCFG of a device is its VDCFG_WRITE through
the physical function and nothing through the device's own. A package that does not leave reset answers no read (R421). -/
def Sys2Proof.Spec.RegistersReadByTheirMaps : Prop :=
  ∀ (s : State) (pav vd : Nat),
    let d := s.dev pav vd
    let trained := s.oper.inReset = false
    (¬ trained → ∀ fn off, s.bar0Read pav fn off = none ∧ s.bar2Read pav fn off = none) ∧
    (trained → (∀ off, off < 0x1000 → s.bar2Read pav vd off = some 0) ∧
      (∀ q, q < 16 → s.bar2Read pav vd (0x1000 + 8 * q) = some (BitVec.ofNat 64 (d.acc.getD q 0 + 2 ^ 32 * d.full.getD q 0))) ∧
      s.bar2Read pav vd 0x1080 = some (BitVec.ofNat 64 d.malf) ∧ s.bar2Read pav vd 0x1100 = some (BitVec.ofNat 64 d.crhead) ∧
      s.bar2Read pav vd 0x1108 = some (BitVec.ofNat 64 d.crtail) ∧
      (vd < 128 → s.bar0Read pav 0 (0x1000 + 64 * vd) = some d.vdcfg ∧ s.bar0Read pav 0 (0x4000 + 64 * vd) = some d.riss) ∧
      (0 < vd → s.bar0Read pav vd 0 = some d.vdcfg ∧ s.bar0Read pav vd 0x400 = some d.riss ∧
        ∀ off, 0x440 ≤ off → s.bar0Read pav vd off = some 0) ∧
      (∀ fn off, 0x8000 ≤ off → (fn ≠ 0 ∨ pav ≠ 0) → s.bar0Read pav fn off = some 0) ∧ s.bar0Read 0 0 0x8000 = some s.oper.pcmd) ∧
    (d.flog = [] → d.flogd0 = 0 ∧ d.flogd1 = 0) ∧ (d.flog.length ≤ 64 → (d.flogctl.extractLsb' 0 7).toNat = d.flog.length) ∧
    (∀ x : Word, vd < 128 → bar0Write pav 0 (0x1000 + 64 * vd) x = some (.vdcfgWrite pav vd x)) ∧
    (∀ x : Word, 0 < vd → bar0Write pav vd 0 x = none)

/-- What a host does and reads through the BARs of a function (R5, R6, R251, R347 to R355, R360, R373, R398, R421; log 23, log 31). -/
def Obligations.HostWindowsAndLaunchesAct : Prop :=
  Spec.HostWindowsAndLaunchesAct ∧ Spec.RegistersReadByTheirMaps

/-- The part of an address that indexes the tables down to a level (R361). -/
def Sys2Proof.Spec.upTo (level a : Nat) : Nat :=
  a / 2 ^ (match level with | 0 => 48 | 1 => 39 | 2 => 30 | 3 => 21 | _ => 16)

/-- What the driver writes for a device, a pavilion and a core: VDCFG while EN is 1 changes nothing, and an enable that is not refused gives the lowest free key
index a fresh key and a deficit of 0 (R349, R364, R384); a pop removes the oldest fault record (R398); an invalidation completes and
leaves no entry held that it covers, of one page the entries of every level on its way and, for a stage-2 page, the stage-1 entries formed through
it, and the clearing of the rename maps of cores without tasks completes (R276, R356, R363); the lodge writes a partition word that it does not refuse, derives SBN, and
zeroes the vector registers (R293, R294); a root takes its address bits (R361) and its reserved bits are not kept (R6, R350, by the reading of log 23), and
a write of the operator block during a command is ignored (R357). -/
def Obligations.DriverWritesAct : Prop :=
  ∀ (s : State) (pav vd : Nat) (x : Word),
    let d := s.dev pav vd
    (d.enabled = true → exec (.vdcfgWrite pav vd x) s = .next s) ∧
    (∀ k, s.oper.inReset = false → d.enabled = false → x.getLsbD 0 = true → s.enableRefused pav vd x = false → 0 < k → k < 256 →
      (∀ e, s.keys.find? k = some e → e.live = false) → (∀ j, 0 < j → j < k → ∃ e, s.keys.find? j = some e ∧ e.live = true) →
      ∃ t, exec (.vdcfgWrite pav vd x) s = .next t ∧ (t.dev pav vd).enabled = true ∧ (t.dev pav vd).kidx = k ∧
        (t.dev pav vd).tenant = (x.extractLsb' 1 8).toNat ∧ (t.dev pav vd).deficit = 0 ∧
        t.keys.find? k = some ⟨pav, vd, s.keySerial, true⟩ ∧ t.keySerial = s.keySerial + 1) ∧
    (∃ t, exec (.faultLogPop pav vd) s = .next t ∧ (t.dev pav vd).flog = d.flog.drop 1) ∧
    (let v := (s.pav pav).pavinv
      ∃ t, exec (.pavinv pav) s = .next t ∧ (t.pav pav).pavinv.getLsbD 0 = false ∧ (∀ e ∈ t.tlb, e ∈ s.tlb) ∧
        let page := 65536 * (v.extractLsb' 16 41).toNat
        (v.getLsbD 1 = false → ∀ e ∈ t.tlb, e.pav = pav → e.vd = (v.extractLsb' 2 7).toNat →
          v.getLsbD 9 = false ∧ e.tag ≠ Spec.upTo e.level page) ∧
        (v.getLsbD 1 = true → ∀ e ∈ t.tlb, e.pav = pav → v.getLsbD 9 = false ∧
          (e.vd = 128 → e.tag ≠ Spec.upTo e.level page) ∧
          (e.vd ≠ 128 → e.place / 65536 ≠ page / 65536 ∧ ∀ f ∈ s.tlb, f.pav = pav → f.vd = 128 → f.word.getLsbD 1 = true →
            f.tag = Spec.upTo f.level page → f.tag ≠ Spec.upTo f.level e.place))) ∧
    (∀ c, (s.pav pav).rmclr = [c] → (s.core c).table = [] → ∃ t, exec (.rmclr pav) s = .next t ∧ (t.core c).renames = [] ∧
      (t.pav pav).rmclr = []) ∧
    (∀ c, (s.core c).partRefused x = false → ∃ t, exec (.poolpartWrite c x) s = .next t ∧
      (t.core c).poolpart.extractLsb' 0 11 = x.extractLsb' 0 11 ∧
      ((t.core c).poolpart.extractLsb' 11 7).toNat =
        (s.core c).inService.length - vectorBanks (x &&& 0x7FF) - accBanks (x &&& 0x7FF) ∧
      ∀ n j, n < 4 → (t.ctx ⟨c, n⟩).cur.readReg .v j = .vec 0) ∧
    (s.oper.inReset = false → ∃ t, exec (.registerWrite (.s1root pav vd) x) s = .next t ∧ (t.dev pav vd).s1root = x &&& 0x0000FFFFFFFFF000) ∧
    (s.oper.pcmd.getLsbD 15 = true → exec (.registerWrite .pcore0 x) s = .next s)

/-- The resets (R366, R367, R420, R421): a device reset, which VDCTL.RST starts and a function-level reset of a virtual function as well, disables the device, empties
its launches and its fault log (R398) and ends its key; a pavilion reset, of PCMD or of the physical function, disables every device, clears the pools
and removes the images (R264); a package reset with no device enabled leaves no pavilion and every context
off, keeps M2 (R418) and the bytes of memory (that it keeps memory is the model's, log 28), is counted, withdraws the cores that fail their test, and
leaves the package in reset where a lodge's firmware image does not verify by the check of R413 (the images and the failing cores are free values,
log 28); power-on leaves no pavilion and every context off. -/
def Obligations.ResetsLeaveTheStatedState : Prop :=
  ∀ (s : State) (pav vd : Nat),
    let idle (t : State) : Prop := (t.dev pav vd).enabled = false ∧ (t.dev pav vd).launches = [] ∧ (t.dev pav vd).flog = [] ∧
      (t.dev pav vd).malf = 0 ∧ (t.dev pav vd).crhead = 0 ∧ (t.dev pav vd).crtail = 0 ∧
      ∀ e, (s.dev pav vd).enabled = true → (s.dev pav vd).kidx ≠ 0 → s.keys.find? (s.dev pav vd).kidx = some e →
        t.keys.find? (s.dev pav vd).kidx = some { e with live := false }
    let cleared (t : State) : Prop := (∀ d, (t.dev pav d).enabled = false ∧ (t.dev pav d).launches = []) ∧
      (∀ c ∈ (s.pav pav).cores, (t.core c).pool = []) ∧ (∀ h, h < 65536 → t.images.find? (65536 * pav + h) = none)
    let dead (t : State) : Prop := (∀ p, (t.pav p).formed = false) ∧ (∀ l, (t.ctx l).mode = .off) ∧ t.images = []
    ((s.dev pav vd).vdctl.getLsbD 0 = true → ∃ t, exec (.deviceReset pav vd) s = .next t ∧ idle t ∧ (t.dev pav vd).vdctl.getLsbD 0 = false) ∧
    (vd ≠ 0 → ∃ t, exec (.functionLevelReset pav vd) s = .next t ∧ idle t) ∧
    (∃ t, exec (.functionLevelReset pav 0) s = .next t ∧ cleared t) ∧
    (s.oper.pcmd.getLsbD 15 = true → s.oper.pcmd.extractLsb' 0 3 = 4 → (s.oper.pcmd.extractLsb' 3 4).toNat = pav → (s.pav pav).formed = true →
      ∃ t, exec .pavilionReset s = .next t ∧ cleared t ∧ t.oper.pcmd = s.oper.pcmd &&& 0x7FFF) ∧
    (s.oper.pcmd.getLsbD 15 = true → s.oper.pcmd.extractLsb' 0 3 = 5 → (∀ p ∈ s.pavs, ∀ d ∈ p.2.devs, d.2.enabled = false) →
      ∃ t, exec .packageReset s = .next t ∧ dead t ∧ t.mem = s.mem ∧ t.oper.resets = s.oper.resets + 1 ∧ (∀ p, (t.pav p).m2 = (s.pav p).m2) ∧
        (t.oper.inReset = true ↔ ∃ die, die < 2 ∧ fwVerifies (Config.lodgeImage (s.oper.resets + 1) die) = false) ∧
        ∀ c, c < 128 → Config.coreFails (s.oper.resets + 1) c = true → (t.core c).removed = true) ∧
    (∃ t, exec .powerOn s = .next t ∧ dead t)

/-- The commands of the operator block (R357 to R359): a form whose checks pass makes the pavilion of the named cores, and gives it granules that read as zero; a
resize of a pavilion that stands still gives it its new cores and its new NVF; a dissolve takes its cores, its granules and its images (that the images go
is the model's reading, log 26: R264 says it of a pavilion reset); each ends with GO at 0 and RESULT 0. -/
def Obligations.PavilionCommandsComplete : Prop :=
  ∀ (s : State),
    let o := s.oper
    let pav := o.target
    let p := s.pav pav
    let stk := (o.pmem.extractLsb' 0 4).toNat
    let lpg := (o.pmem.extractLsb' 4 4).toNat
    let bare (c : Nat) : Prop := (s.core c).slots = [] ∧ (s.core c).table = [] ∧ (s.core c).walker = none ∧
      ∀ x, x < 4 → (s.ctx ⟨c, x⟩).mode = .off
    o.pcmd.getLsbD 15 = true →
    (∀ gs, o.pcmd.extractLsb' 0 3 = 1 → p.formed = false → o.named ≠ [] → (∀ c ∈ o.named, s.coreFree c = true) → s.otherVfs pav + o.nvf ≤ 128 →
      s.pickGranules stk lpg (o.pcmd.getLsbD 14) = some gs → s.overloads pav gs = false →
      ∃ t, exec .form s = .next t ∧ t.oper.pcmd = o.pcmd &&& 0x7FFF ∧ (t.pav pav).formed = true ∧ (t.pav pav).cores = o.named ∧
        (t.pav pav).nvf = o.nvf ∧ (∀ g ∈ gs, t.granules.find? g = some pav ∧ ∀ a, a / 2 ^ 30 = g → t.mem.byte a = 0)) ∧
    (∀ gs, o.pcmd.extractLsb' 0 3 = 2 → p.formed = true → o.named ≠ [] → (∀ c ∈ o.named, c ∈ p.cores ∨ s.coreFree c = true) →
      s.otherVfs pav + o.nvf ≤ 128 → p.enabledAbove o.nvf = false → p.contained = false → s.pickGranules stk lpg false = some gs →
      s.overloads pav gs = false → s.quiesced pav o.named = true → (∀ c, bare c) → s.images = [] →
      ∃ t, exec .resize s = .next t ∧ t.oper.pcmd = o.pcmd &&& 0x7FFF ∧ (t.pav pav).cores = o.named ∧ (t.pav pav).nvf = o.nvf ∧
        ∀ g ∈ gs, t.granules.find? g = some pav) ∧
    (o.pcmd.extractLsb' 0 3 = 3 → p.formed = true → p.enabledDevs = [] → s.quiesced pav [] = true → (∀ c, bare c) →
      ∃ t, exec .dissolve s = .next t ∧ t.oper.pcmd = o.pcmd &&& 0x7FFF ∧ (t.pav pav).formed = false ∧ (t.pav pav).cores = [] ∧
        (∀ g ∈ t.granules, g.2 ≠ pav) ∧ ∀ h, h < 65536 → t.images.find? (65536 * pav + h) = none)

/-- The loader and the lodge (R264, R416, R417, R419): an image that passes every check is loaded under the lowest free handle; an unload removes an image that
nothing names; a firmware image that passes is staged; a report, with its magic, its length and the nonce, or the certificate chain stands in the host's
buffer. Each command ends with GO at 0 and RESULT 0. A signature verifies by ML-DSA-44 (R413, R415; its definition is that of FIPS 204, log 9). -/
def Obligations.LoaderAndLodgeCommandsComplete : Prop :=
  ∀ (s : State) (pav : Nat) (b : List Byte),
    let before := s
    let p := s.pav pav
    let w := p.imgctl
    (∀ h ts u, w.getLsbD 0 = true → w.getLsbD 1 = false → b.length = (w.extractLsb' 32 32).toNat → s.commandFor pav [1, 2, 4] = false →
      let s := s.hostHolds p.imageBuffer b
      let vd := (w.extractLsb' 2 7).toNat
      let base := s.textBase pav (bifBytes b 1).length
      let start := 65536 * (p.imgdata.extractLsb' 16 41).toNat
      let c := bifPatched b ts
      let i := bifImage c pav vd (s.dev pav vd).tenant base start
      (s.dev pav vd).enabled = true → formatFits b = true → signatureFits b p.slot (s.dev pav vd).tenant = true → s.freeHandle pav = some h →
      s.textRoom pav (bifBytes b 1).length = true → (bifBytes b 8).length % 16 = 0 → (bifRelocs b).all (relocFits b) = true →
      s.relocated pav base (bifRelocs b) (bifTable b) = some ts → (textCheckOf c (bifBytes c 1) base).fits = true →
      s.metaFitsPad pav c = true → s.microFits pav vd c = true → s.microWaits pav i.micro = false →
      s.loaderWrites pav vd (dataWrites b start ts) = some u →
      ∃ t, exec (.imageLoad pav b) before = .next t ∧ t.images.find? (65536 * pav + h) = some i ∧ (t.pav pav).imgctl.getLsbD 0 = false ∧
        (t.pav pav).imgctl.extractLsb' 9 4 = 0 ∧ ((t.pav pav).imgctl.extractLsb' 16 16).toNat = h) ∧
    (∀ i, w.getLsbD 0 = true → w.getLsbD 1 = true → s.commandFor pav [1, 2, 4] = false →
      let h := (w.extractLsb' 16 16).toNat
      s.launchUnread pav = false → s.handleUsed pav h = false → s.images.find? (65536 * pav + h) = some i → ∃ t, exec (.imageUnload pav) s = .next t ∧
        t.images.find? (65536 * pav + h) = none ∧ (∀ k, k ≠ 65536 * pav + h → t.images.find? k = s.images.find? k) ∧
        (t.pav pav).imgctl.getLsbD 0 = false ∧ (t.pav pav).imgctl.extractLsb' 9 4 = 0 ∧ t.mem = s.mem) ∧
    (∀ key, p.fwctl.getLsbD 0 = true → s.commandFor pav [1, 4] = false → b.length = fwLength b → firmwareFits b = true →
      signerKey (fwSigner b) = some key → verifies key (fwDigest b) (fwSignature b) = true → p.topSvn ≤ fwSvn b → ∃ t, exec (.firmwareStage pav b) s = .next t ∧
        (t.pav pav).fwctl = 0 ∧ ∃ f, (t.pav pav).staged = some f ∧ f.svn = fwSvn b ∧ f.digest = fwDigest b) ∧
    (p.atctl.getLsbD 0 = true → p.atctl.getLsbD 1 = false → s.commandFor pav [1, 4] = false → b.length = 32 → p.buffer + 8192 ≤ 2 ^ 64 →
      ∃ t, exec (.attestationReport pav b) s = .next t ∧ (t.pav pav).atctl = 0 ∧ t.host.nat (p.buffer + 64) 4 = 0x01545441 ∧
        t.host.nat (p.buffer + 68) 4 = 2612 ∧ ∀ j (h : j < b.length), t.host.byte (p.buffer + 72 + j) = b[j]) ∧
    (p.atctl.getLsbD 0 = true → p.atctl.getLsbD 1 = true → s.commandFor pav [1, 4] = false → p.buffer + 8192 ≤ 2 ^ 64 →
      let chain := Config.chain p.hostDie
      ∃ t, exec (.certificateChain pav) s = .next t ∧ (t.pav pav).atctl.getLsbD 0 = false ∧
        (chain.length ≤ 8124 → ∀ j (h : j < chain.length), t.host.byte (p.buffer + 68 + j) = chain[j]) ∧
        (8124 < chain.length → (t.pav pav).atctl.extractLsb' 2 3 = 2 ∧ t.host = s.host))

/-- Modes, power, temperature and errors (R401, R422 to R427): a mode change in progress takes effect with RESULT 0, and one that a trip made due goes to
Edge mode with AUTO 1; a window records its mean power and holds in the
next one where that exceeded the cap of the mode; a temperature that reaches TWARN raises WARN and is sent to the host; one at 105 degrees or more
raises TRIP, and a change to Edge mode falls due from another mode; an error that recurs at a line of memory poisons it, and one that does
not is counted in the health counter HTRANS (R427), with memory as it was. -/
def Obligations.OperatorEventsAndErrorsAct : Prop :=
  ∀ (s : State),
    let o := s.oper
    (o.go = true → ∃ t, exec .modeChange s = .next t ∧ t.oper.cur = o.mode ∧ t.oper.go = false ∧ t.oper.result = 0) ∧
    (o.go = false → o.tripDue = true → ∃ t, exec .modeChange s = .next t ∧ t.oper.cur = 2 ∧ t.oper.auto = true ∧ t.oper.tripDue = false) ∧
    (∀ n, n < 65536 → ∃ t, exec (.powerWindow n) s = .next t ∧ t.oper.pwr = n ∧ (t.oper.hold = true ↔ capOf o.cur < n)) ∧
    (∀ n, n < 256 → o.t0 < o.twarn → o.twarn ≤ n → ∃ t, exec (.thermalWarning 0 n) s = .next t ∧ t.oper.t0 = n ∧ t.oper.warn = true ∧
      t.msix = s.msix ++ [(0, 0, 1)]) ∧
    (∀ n, n < 256 → 105 ≤ n → ∃ t, exec (.thermalTrip 0 n) s = .next t ∧ t.oper.trip = true ∧ t.oper.t0 = n ∧
      (o.cur ≠ 2 → t.oper.tripDue = true)) ∧
    (∀ line, line < 3 * 2 ^ 30 → ∃ t, exec (.uncorrectableError (.memoryLine line) true .nobody) s = .next t ∧
      t.poison.getD line false = true) ∧
    (∀ line, (∃ t, exec (.uncorrectableError (.memoryLine line) false .nobody) s = .next t ∧ t.mem = s.mem ∧ t.poison = s.poison ∧
      (t.oper.health.getD 0 ⟨0, 0⟩).now = min ((o.health.getD 0 ⟨0, 0⟩).now + 1) (2 ^ 32 - 1)))

/-! ### The frame and the invariant of memory -/

/-- The frame of the steps that move no data to memory: those of the matrix sequencer, the scan engine and the integrators, landings, the selection of
contexts, refills and grants, the ring, and the steps of tasks and claims leave every byte of memory and every tag as they were; so does the end of a
wait, where no trigger of the bundle was kept for it (R205). -/
def Obligations.StepsOfEnginesAndTasksLeaveMemory : Prop :=
  ∀ (s t : State) (i : Instr) (c n m d : Nat),
    i ∈ [Instr.mxOperationStart c, .mxWload c, .mxStream c, .mxPromote c, .mxLoop c, .mxEnd c, .mxNop c, .mxOperationCompletion c,
      .scanOperationStart c, .scanBlock c, .domainStep c n, .longLatencyLanding c n m, .blockClear c n, .contextSelect c, .tokenRefill c,
      .arbiterGrant c, .ringMessageDelivery n, .creditReturn c n m, .packetPlacement c n m d, .taskBinding c n, .taskFinish c n,
      .completionEntryPost c n, .bankClaimHeld c n m, .bankReleaseComplete c n] →
    (i = .blockClear c n → (s.ctx ⟨c, n⟩).late = []) → exec i s = .next t → (∀ a, t.mem.byte a = s.mem.byte a) ∧ t.tags = s.tags

/-- Global memory stays in its one canonical form, addresses strictly rising and no byte of 0 listed, whatever the step. -/
def Obligations.StepsKeepTheMemoryCanonical : Prop :=
  ∀ (s t : State), s.mem.wf = true → step s = .next t → t.mem.wf = true
end

