-- ==== Sys2Proof/Laws/Table.lean ====
section
/-!
SUPPORT. What reading and writing an entry of a table does, and that writing keeps the keys rising.
-/

namespace Sys2Proof

variable {α : Type}

@[simp] theorem Table.find?_set_self (t : Table α) (k : Nat) (v : α) : (t.set k v).find? k = some v := by
  induction t with
  | nil => simp [Table.set, Table.find?]
  | cons e t ih =>
    obtain ⟨j, w⟩ := e
    unfold Table.set
    split
    · simp [Table.find?]
    · split <;> simp_all [Table.find?]

theorem Table.find?_set_ne (t : Table α) {i k : Nat} (h : i ≠ k) (v : α) : (t.set k v).find? i = t.find? i := by
  induction t with
  | nil => simp [Table.set, Table.find?, Ne.symm h]
  | cons e t ih =>
    obtain ⟨j, w⟩ := e
    unfold Table.set
    split
    · rename_i h1
      subst h1
      simp [Table.find?, Ne.symm h]
    · split <;> simp [Table.find?, Ne.symm h, ih]

@[simp] theorem Table.getD_set_self (t : Table α) (k : Nat) (v d : α) : (t.set k v).getD k d = v := by
  simp [Table.getD]

theorem Table.getD_set_ne (t : Table α) {i k : Nat} (h : i ≠ k) (v d : α) : (t.set k v).getD i d = t.getD i d := by
  simp [Table.getD, Table.find?_set_ne t h]

@[simp] theorem Table.set_set (t : Table α) (k : Nat) (v w : α) : (t.set k v).set k w = t.set k w := by
  induction t with
  | nil => simp [Table.set]
  | cons e t ih =>
    obtain ⟨j, x⟩ := e
    by_cases h1 : j = k
    · simp [Table.set, h1]
    · by_cases h2 : k < j
      · simp [Table.set, h1, h2]
      · simp [Table.set, h1, h2, ih]

@[simp] theorem Table.getD_nil (k : Nat) (d : α) : Table.getD ([] : Table α) k d = d := rfl

@[simp] theorem Table.find?_erase_self (t : Table α) (k : Nat) : (t.erase k).find? k = none := by
  induction t with
  | nil => rfl
  | cons e t ih =>
    unfold Table.erase
    split <;> simp_all [Table.find?]

theorem Table.find?_erase_ne (t : Table α) {i k : Nat} (h : i ≠ k) : (t.erase k).find? i = t.find? i := by
  induction t with
  | nil => rfl
  | cons e t ih =>
    unfold Table.erase
    split
    · rename_i h1
      simp [Table.find?, h1, Ne.symm h, ih]
    · simp [Table.find?, ih]

@[simp] theorem Table.getD_put_self [DecidableEq α] (t : Table α) (d : α) (k : Nat) (v : α) : (t.put d k v).getD k d = v := by
  unfold Table.put
  split
  · rename_i h
    simp [Table.getD, h]
  · simp

theorem Table.getD_put_ne [DecidableEq α] (t : Table α) {i k : Nat} (d : α) (v : α) (h : i ≠ k) :
    (t.put d k v).getD i d = t.getD i d := by
  unfold Table.put
  split
  · simp [Table.getD, Table.find?_erase_ne t h]
  · exact Table.getD_set_ne t h v d

theorem Table.risesFrom_mono {t : Table α} {a b : Nat} (h : b ≤ a) (ht : t.risesFrom a = true) : t.risesFrom b = true := by
  cases t with
  | nil => rfl
  | cons e t =>
    simp only [Table.risesFrom, Bool.and_eq_true, decide_eq_true_eq] at ht ⊢
    exact ⟨by omega, ht.2⟩

theorem Table.risesFrom_set {t : Table α} {b k : Nat} (v : α) (ht : t.risesFrom b = true) (h : b ≤ k) :
    (t.set k v).risesFrom b = true := by
  induction t generalizing b with
  | nil => simp [Table.set, Table.risesFrom, h]
  | cons e t ih =>
    obtain ⟨j, w⟩ := e
    simp only [Table.risesFrom, Bool.and_eq_true, decide_eq_true_eq] at ht
    unfold Table.set
    split
    · rename_i h1
      subst h1
      simp [Table.risesFrom, ht]
    · split
      · simp only [Table.risesFrom, Bool.and_eq_true, decide_eq_true_eq]
        exact ⟨h, by omega, ht.2⟩
      · simp only [Table.risesFrom, Bool.and_eq_true, decide_eq_true_eq]
        exact ⟨ht.1, ih ht.2 (by omega)⟩

theorem Table.risesFrom_erase {t : Table α} {b : Nat} (k : Nat) (ht : t.risesFrom b = true) :
    (t.erase k).risesFrom b = true := by
  induction t generalizing b with
  | nil => rfl
  | cons e t ih =>
    obtain ⟨j, w⟩ := e
    simp only [Table.risesFrom, Bool.and_eq_true, decide_eq_true_eq] at ht
    unfold Table.erase
    split
    · exact ih (Table.risesFrom_mono (by omega) ht.2)
    · simp only [Table.risesFrom, Bool.and_eq_true, decide_eq_true_eq]
      exact ⟨ht.1, ih ht.2⟩

theorem Table.risesFrom_put [DecidableEq α] {t : Table α} (d : α) (k : Nat) (v : α) (ht : t.risesFrom 0 = true) :
    (t.put d k v).risesFrom 0 = true := by
  unfold Table.put
  split
  · exact Table.risesFrom_erase k ht
  · exact Table.risesFrom_set v ht (Nat.zero_le k)

end Sys2Proof
end

