-- ==== Sys2Proof/Laws/State.lean ====
section
/-!
SUPPORT. What each named update of the state leaves and what it changes: one lemma for each field and update.
-/

namespace Sys2Proof.Machine

/-! ### What an update wrote -/

@[simp] theorem State.core_setCore (s : State) (c : Nat) (k : Core) : (s.setCore c k).core c = k :=
  Table.getD_set_self s.cores c k .reset

theorem State.core_setCore_ne (s : State) {c d : Nat} (h : d ≠ c) (k : Core) : (s.setCore c k).core d = s.core d :=
  Table.getD_set_ne s.cores h k .reset

@[simp] theorem State.setCore_setCore (s : State) (c : Nat) (j k : Core) : (s.setCore c j).setCore c k = s.setCore c k := by
  simp [State.setCore]

@[simp] theorem Core.ctx_setCtx (k : Core) (n : Nat) (x : Ctx) : (k.setCtx n x).ctx n = x :=
  Table.getD_set_self k.ctxs n x .reset

theorem Core.ctx_setCtx_ne (k : Core) {n m : Nat} (h : m ≠ n) (x : Ctx) : (k.setCtx n x).ctx m = k.ctx m :=
  Table.getD_set_ne k.ctxs h x .reset

@[simp] theorem Core.setCtx_setCtx (k : Core) (n : Nat) (x y : Ctx) : (k.setCtx n x).setCtx n y = k.setCtx n y := by
  simp [Core.setCtx]

@[simp] theorem State.ctx_setCtx (s : State) (l : Loc) (x : Ctx) : (s.setCtx l x).ctx l = x := by
  simp [State.ctx, State.setCtx]

theorem State.ctx_setCtx_ne (s : State) {l m : Loc} (h : m ≠ l) (x : Ctx) : (s.setCtx l x).ctx m = s.ctx m := by
  unfold State.ctx State.setCtx
  by_cases hc : m.core = l.core
  · have hx : m.ctx ≠ l.ctx := fun e => h (by cases m; cases l; simp_all)
    rw [hc, State.core_setCore, Core.ctx_setCtx_ne _ hx]
  · rw [State.core_setCore_ne _ hc]

@[simp] theorem State.setCtx_setCtx (s : State) (l : Loc) (x y : Ctx) : (s.setCtx l x).setCtx l y = s.setCtx l y := by
  simp [State.setCtx]

@[simp] theorem State.core_setCtx (s : State) (l : Loc) (x : Ctx) :
    (s.setCtx l x).core l.core = (s.core l.core).setCtx l.ctx x := by
  simp [State.setCtx]

theorem State.core_setCtx_ne (s : State) {l : Loc} {c : Nat} (h : c ≠ l.core) (x : Ctx) : (s.setCtx l x).core c = s.core c :=
  State.core_setCore_ne s h _

@[simp] theorem State.onView_ctx (s : State) (l : Loc) (p : Bool) (f : View → View) :
    (s.onView l p f).ctx l = (s.ctx l).onView p f := by
  simp [State.onView]

@[simp] theorem Ctx.onView_cur (x : Ctx) (p : Bool) (f : View → View) : (x.onView p f).cur = f x.cur := rfl

theorem Ctx.onView_fin (x : Ctx) (f : View → View) : (x.onView false f).fin = x.fin.map f := rfl

theorem Ctx.onView_fin_provisional (x : Ctx) (f : View → View) : (x.onView true f).fin = x.fin := rfl

@[simp] theorem State.take_ctx (s : State) (l m : Loc) : (s.take l).ctx m = s.ctx m := by
  unfold State.take State.ctx
  by_cases h : m.core = l.core
  · rw [h, State.core_setCore]; rfl
  · rw [State.core_setCore_ne _ h]

@[simp] theorem State.take_core_taken (s : State) (l : Loc) : ((s.take l).core l.core).taken = some l.ctx := by
  simp [State.take]

@[simp] theorem State.pav_setPav (s : State) (n : Nat) (p : Pav) : (s.setPav n p).pav n = p :=
  Table.getD_set_self s.pavs n p .reset

theorem State.pav_setPav_ne (s : State) {n m : Nat} (h : m ≠ n) (p : Pav) : (s.setPav n p).pav m = s.pav m :=
  Table.getD_set_ne s.pavs h p .reset

@[simp] theorem State.dev_setDev (s : State) (n d : Nat) (x : Dev) : (s.setDev n d x).dev n d = x := by
  simp [State.dev, State.setDev]

theorem State.dev_setDev_ne (s : State) {n d m e : Nat} (h : ¬ (m = n ∧ e = d)) (x : Dev) :
    (s.setDev n d x).dev m e = s.dev m e := by
  unfold State.dev State.setDev
  by_cases hn : m = n
  · subst hn
    have he : e ≠ d := fun q => h ⟨rfl, q⟩
    rw [State.pav_setPav]
    exact Table.getD_set_ne _ he x .reset
  · rw [State.pav_setPav_ne _ hn]

@[simp] theorem State.arb_setArb (s : State) (n : Nat) (a : Arb) : (s.setArb n a).arb n = a :=
  Table.getD_set_self s.arbs n a _

theorem State.arb_setArb_ne (s : State) {n m : Nat} (h : m ≠ n) (a : Arb) : (s.setArb n a).arb m = s.arb m :=
  Table.getD_set_ne s.arbs h a _

/-! ### What an update left -/

@[simp] theorem State.setCore_pavs (s : State) (c : Nat) (k : Core) : (s.setCore c k).pavs = s.pavs := rfl
@[simp] theorem State.setCore_oper (s : State) (c : Nat) (k : Core) : (s.setCore c k).oper = s.oper := rfl
@[simp] theorem State.setCore_msix (s : State) (c : Nat) (k : Core) : (s.setCore c k).msix = s.msix := rfl
@[simp] theorem State.setCore_images (s : State) (c : Nat) (k : Core) : (s.setCore c k).images = s.images := rfl
@[simp] theorem State.setCore_host (s : State) (c : Nat) (k : Core) : (s.setCore c k).host = s.host := rfl
@[simp] theorem State.setCore_reads (s : State) (c : Nat) (k : Core) : (s.setCore c k).reads = s.reads := rfl
@[simp] theorem State.setCore_arbs (s : State) (c : Nat) (k : Core) : (s.setCore c k).arbs = s.arbs := rfl
@[simp] theorem State.setCore_messages (s : State) (c : Nat) (k : Core) : (s.setCore c k).messages = s.messages := rfl
@[simp] theorem State.setCore_credits (s : State) (c : Nat) (k : Core) : (s.setCore c k).credits = s.credits := rfl
@[simp] theorem State.setCore_portIn (s : State) (c : Nat) (k : Core) : (s.setCore c k).portIn = s.portIn := rfl
@[simp] theorem State.setCore_portLoad (s : State) (c : Nat) (k : Core) : (s.setCore c k).portLoad = s.portLoad := rfl
@[simp] theorem State.setCore_time (s : State) (c : Nat) (k : Core) : (s.setCore c k).time = s.time := rfl
@[simp] theorem State.setCore_mem (s : State) (c : Nat) (k : Core) : (s.setCore c k).mem = s.mem := rfl
@[simp] theorem State.setCore_tags (s : State) (c : Nat) (k : Core) : (s.setCore c k).tags = s.tags := rfl
@[simp] theorem State.setCore_lineMeta (s : State) (c : Nat) (k : Core) : (s.setCore c k).lineMeta = s.lineMeta := rfl
@[simp] theorem State.setCore_poison (s : State) (c : Nat) (k : Core) : (s.setCore c k).poison = s.poison := rfl
@[simp] theorem State.setCore_watched (s : State) (c : Nat) (k : Core) : (s.setCore c k).watched = s.watched := rfl
@[simp] theorem State.setCore_lineKey (s : State) (c : Nat) (k : Core) : (s.setCore c k).lineKey = s.lineKey := rfl
@[simp] theorem State.setCore_l2 (s : State) (c : Nat) (k : Core) : (s.setCore c k).l2 = s.l2 := rfl
@[simp] theorem State.setCore_home (s : State) (c : Nat) (k : Core) : (s.setCore c k).home = s.home := rfl
@[simp] theorem State.setCore_retired (s : State) (c : Nat) (k : Core) : (s.setCore c k).retired = s.retired := rfl
@[simp] theorem State.setCore_reclaims (s : State) (c : Nat) (k : Core) : (s.setCore c k).reclaims = s.reclaims := rfl
@[simp] theorem State.setCore_granules (s : State) (c : Nat) (k : Core) : (s.setCore c k).granules = s.granules := rfl
@[simp] theorem State.setCore_keys (s : State) (c : Nat) (k : Core) : (s.setCore c k).keys = s.keys := rfl
@[simp] theorem State.setCore_keySerial (s : State) (c : Nat) (k : Core) : (s.setCore c k).keySerial = s.keySerial := rfl
@[simp] theorem State.setCore_agenda (s : State) (c : Nat) (k : Core) : (s.setCore c k).agenda = s.agenda := rfl
@[simp] theorem State.setCore_focus (s : State) (c : Nat) (k : Core) : (s.setCore c k).focus = s.focus := rfl
@[simp] theorem State.setCore_freeCtr (s : State) (c : Nat) (k : Core) : (s.setCore c k).freeCtr = s.freeCtr := rfl
@[simp] theorem State.setCore_tlb (s : State) (c : Nat) (k : Core) : (s.setCore c k).tlb = s.tlb := rfl
@[simp] theorem State.setCore_waits (s : State) (c : Nat) (k : Core) : (s.setCore c k).waits = s.waits := rfl
@[simp] theorem State.setCore_opId (s : State) (c : Nat) (k : Core) : (s.setCore c k).opId = s.opId := rfl
@[simp] theorem State.setCtx_pavs (s : State) (l : Loc) (x : Ctx) : (s.setCtx l x).pavs = s.pavs := rfl
@[simp] theorem State.setCtx_oper (s : State) (l : Loc) (x : Ctx) : (s.setCtx l x).oper = s.oper := rfl
@[simp] theorem State.setCtx_msix (s : State) (l : Loc) (x : Ctx) : (s.setCtx l x).msix = s.msix := rfl
@[simp] theorem State.setCtx_images (s : State) (l : Loc) (x : Ctx) : (s.setCtx l x).images = s.images := rfl
@[simp] theorem State.setCtx_host (s : State) (l : Loc) (x : Ctx) : (s.setCtx l x).host = s.host := rfl
@[simp] theorem State.setCtx_reads (s : State) (l : Loc) (x : Ctx) : (s.setCtx l x).reads = s.reads := rfl
@[simp] theorem State.setCtx_arbs (s : State) (l : Loc) (x : Ctx) : (s.setCtx l x).arbs = s.arbs := rfl
@[simp] theorem State.setCtx_messages (s : State) (l : Loc) (x : Ctx) : (s.setCtx l x).messages = s.messages := rfl
@[simp] theorem State.setCtx_credits (s : State) (l : Loc) (x : Ctx) : (s.setCtx l x).credits = s.credits := rfl
@[simp] theorem State.setCtx_portIn (s : State) (l : Loc) (x : Ctx) : (s.setCtx l x).portIn = s.portIn := rfl
@[simp] theorem State.setCtx_portLoad (s : State) (l : Loc) (x : Ctx) : (s.setCtx l x).portLoad = s.portLoad := rfl
@[simp] theorem State.setCtx_time (s : State) (l : Loc) (x : Ctx) : (s.setCtx l x).time = s.time := rfl
@[simp] theorem State.setCtx_mem (s : State) (l : Loc) (x : Ctx) : (s.setCtx l x).mem = s.mem := rfl
@[simp] theorem State.setCtx_tags (s : State) (l : Loc) (x : Ctx) : (s.setCtx l x).tags = s.tags := rfl
@[simp] theorem State.setCtx_lineMeta (s : State) (l : Loc) (x : Ctx) : (s.setCtx l x).lineMeta = s.lineMeta := rfl
@[simp] theorem State.setCtx_poison (s : State) (l : Loc) (x : Ctx) : (s.setCtx l x).poison = s.poison := rfl
@[simp] theorem State.setCtx_watched (s : State) (l : Loc) (x : Ctx) : (s.setCtx l x).watched = s.watched := rfl
@[simp] theorem State.setCtx_lineKey (s : State) (l : Loc) (x : Ctx) : (s.setCtx l x).lineKey = s.lineKey := rfl
@[simp] theorem State.setCtx_l2 (s : State) (l : Loc) (x : Ctx) : (s.setCtx l x).l2 = s.l2 := rfl
@[simp] theorem State.setCtx_home (s : State) (l : Loc) (x : Ctx) : (s.setCtx l x).home = s.home := rfl
@[simp] theorem State.setCtx_retired (s : State) (l : Loc) (x : Ctx) : (s.setCtx l x).retired = s.retired := rfl
@[simp] theorem State.setCtx_reclaims (s : State) (l : Loc) (x : Ctx) : (s.setCtx l x).reclaims = s.reclaims := rfl
@[simp] theorem State.setCtx_granules (s : State) (l : Loc) (x : Ctx) : (s.setCtx l x).granules = s.granules := rfl
@[simp] theorem State.setCtx_keys (s : State) (l : Loc) (x : Ctx) : (s.setCtx l x).keys = s.keys := rfl
@[simp] theorem State.setCtx_keySerial (s : State) (l : Loc) (x : Ctx) : (s.setCtx l x).keySerial = s.keySerial := rfl
@[simp] theorem State.setCtx_agenda (s : State) (l : Loc) (x : Ctx) : (s.setCtx l x).agenda = s.agenda := rfl
@[simp] theorem State.setCtx_focus (s : State) (l : Loc) (x : Ctx) : (s.setCtx l x).focus = s.focus := rfl
@[simp] theorem State.setCtx_freeCtr (s : State) (l : Loc) (x : Ctx) : (s.setCtx l x).freeCtr = s.freeCtr := rfl
@[simp] theorem State.setCtx_tlb (s : State) (l : Loc) (x : Ctx) : (s.setCtx l x).tlb = s.tlb := rfl
@[simp] theorem State.setCtx_waits (s : State) (l : Loc) (x : Ctx) : (s.setCtx l x).waits = s.waits := rfl
@[simp] theorem State.setCtx_opId (s : State) (l : Loc) (x : Ctx) : (s.setCtx l x).opId = s.opId := rfl
@[simp] theorem State.onView_pavs (s : State) (l : Loc) (p : Bool) (f : View → View) : (s.onView l p f).pavs = s.pavs := rfl
@[simp] theorem State.onView_oper (s : State) (l : Loc) (p : Bool) (f : View → View) : (s.onView l p f).oper = s.oper := rfl
@[simp] theorem State.onView_msix (s : State) (l : Loc) (p : Bool) (f : View → View) : (s.onView l p f).msix = s.msix := rfl
@[simp] theorem State.onView_images (s : State) (l : Loc) (p : Bool) (f : View → View) : (s.onView l p f).images = s.images := rfl
@[simp] theorem State.onView_host (s : State) (l : Loc) (p : Bool) (f : View → View) : (s.onView l p f).host = s.host := rfl
@[simp] theorem State.onView_reads (s : State) (l : Loc) (p : Bool) (f : View → View) : (s.onView l p f).reads = s.reads := rfl
@[simp] theorem State.onView_arbs (s : State) (l : Loc) (p : Bool) (f : View → View) : (s.onView l p f).arbs = s.arbs := rfl
@[simp] theorem State.onView_messages (s : State) (l : Loc) (p : Bool) (f : View → View) : (s.onView l p f).messages = s.messages := rfl
@[simp] theorem State.onView_credits (s : State) (l : Loc) (p : Bool) (f : View → View) : (s.onView l p f).credits = s.credits := rfl
@[simp] theorem State.onView_portIn (s : State) (l : Loc) (p : Bool) (f : View → View) : (s.onView l p f).portIn = s.portIn := rfl
@[simp] theorem State.onView_portLoad (s : State) (l : Loc) (p : Bool) (f : View → View) : (s.onView l p f).portLoad = s.portLoad := rfl
@[simp] theorem State.onView_time (s : State) (l : Loc) (p : Bool) (f : View → View) : (s.onView l p f).time = s.time := rfl
@[simp] theorem State.onView_mem (s : State) (l : Loc) (p : Bool) (f : View → View) : (s.onView l p f).mem = s.mem := rfl
@[simp] theorem State.onView_tags (s : State) (l : Loc) (p : Bool) (f : View → View) : (s.onView l p f).tags = s.tags := rfl
@[simp] theorem State.onView_lineMeta (s : State) (l : Loc) (p : Bool) (f : View → View) : (s.onView l p f).lineMeta = s.lineMeta := rfl
@[simp] theorem State.onView_poison (s : State) (l : Loc) (p : Bool) (f : View → View) : (s.onView l p f).poison = s.poison := rfl
@[simp] theorem State.onView_watched (s : State) (l : Loc) (p : Bool) (f : View → View) : (s.onView l p f).watched = s.watched := rfl
@[simp] theorem State.onView_lineKey (s : State) (l : Loc) (p : Bool) (f : View → View) : (s.onView l p f).lineKey = s.lineKey := rfl
@[simp] theorem State.onView_l2 (s : State) (l : Loc) (p : Bool) (f : View → View) : (s.onView l p f).l2 = s.l2 := rfl
@[simp] theorem State.onView_home (s : State) (l : Loc) (p : Bool) (f : View → View) : (s.onView l p f).home = s.home := rfl
@[simp] theorem State.onView_retired (s : State) (l : Loc) (p : Bool) (f : View → View) : (s.onView l p f).retired = s.retired := rfl
@[simp] theorem State.onView_reclaims (s : State) (l : Loc) (p : Bool) (f : View → View) : (s.onView l p f).reclaims = s.reclaims := rfl
@[simp] theorem State.onView_granules (s : State) (l : Loc) (p : Bool) (f : View → View) : (s.onView l p f).granules = s.granules := rfl
@[simp] theorem State.onView_keys (s : State) (l : Loc) (p : Bool) (f : View → View) : (s.onView l p f).keys = s.keys := rfl
@[simp] theorem State.onView_keySerial (s : State) (l : Loc) (p : Bool) (f : View → View) : (s.onView l p f).keySerial = s.keySerial := rfl
@[simp] theorem State.onView_agenda (s : State) (l : Loc) (p : Bool) (f : View → View) : (s.onView l p f).agenda = s.agenda := rfl
@[simp] theorem State.onView_focus (s : State) (l : Loc) (p : Bool) (f : View → View) : (s.onView l p f).focus = s.focus := rfl
@[simp] theorem State.onView_freeCtr (s : State) (l : Loc) (p : Bool) (f : View → View) : (s.onView l p f).freeCtr = s.freeCtr := rfl
@[simp] theorem State.onView_tlb (s : State) (l : Loc) (p : Bool) (f : View → View) : (s.onView l p f).tlb = s.tlb := rfl
@[simp] theorem State.onView_waits (s : State) (l : Loc) (p : Bool) (f : View → View) : (s.onView l p f).waits = s.waits := rfl
@[simp] theorem State.onView_opId (s : State) (l : Loc) (p : Bool) (f : View → View) : (s.onView l p f).opId = s.opId := rfl
@[simp] theorem State.take_pavs (s : State) (l : Loc) : (s.take l).pavs = s.pavs := rfl
@[simp] theorem State.take_oper (s : State) (l : Loc) : (s.take l).oper = s.oper := rfl
@[simp] theorem State.take_msix (s : State) (l : Loc) : (s.take l).msix = s.msix := rfl
@[simp] theorem State.take_images (s : State) (l : Loc) : (s.take l).images = s.images := rfl
@[simp] theorem State.take_host (s : State) (l : Loc) : (s.take l).host = s.host := rfl
@[simp] theorem State.take_reads (s : State) (l : Loc) : (s.take l).reads = s.reads := rfl
@[simp] theorem State.take_arbs (s : State) (l : Loc) : (s.take l).arbs = s.arbs := rfl
@[simp] theorem State.take_messages (s : State) (l : Loc) : (s.take l).messages = s.messages := rfl
@[simp] theorem State.take_credits (s : State) (l : Loc) : (s.take l).credits = s.credits := rfl
@[simp] theorem State.take_portIn (s : State) (l : Loc) : (s.take l).portIn = s.portIn := rfl
@[simp] theorem State.take_portLoad (s : State) (l : Loc) : (s.take l).portLoad = s.portLoad := rfl
@[simp] theorem State.take_time (s : State) (l : Loc) : (s.take l).time = s.time := rfl
@[simp] theorem State.take_mem (s : State) (l : Loc) : (s.take l).mem = s.mem := rfl
@[simp] theorem State.take_tags (s : State) (l : Loc) : (s.take l).tags = s.tags := rfl
@[simp] theorem State.take_lineMeta (s : State) (l : Loc) : (s.take l).lineMeta = s.lineMeta := rfl
@[simp] theorem State.take_poison (s : State) (l : Loc) : (s.take l).poison = s.poison := rfl
@[simp] theorem State.take_watched (s : State) (l : Loc) : (s.take l).watched = s.watched := rfl
@[simp] theorem State.take_lineKey (s : State) (l : Loc) : (s.take l).lineKey = s.lineKey := rfl
@[simp] theorem State.take_l2 (s : State) (l : Loc) : (s.take l).l2 = s.l2 := rfl
@[simp] theorem State.take_home (s : State) (l : Loc) : (s.take l).home = s.home := rfl
@[simp] theorem State.take_retired (s : State) (l : Loc) : (s.take l).retired = s.retired := rfl
@[simp] theorem State.take_reclaims (s : State) (l : Loc) : (s.take l).reclaims = s.reclaims := rfl
@[simp] theorem State.take_granules (s : State) (l : Loc) : (s.take l).granules = s.granules := rfl
@[simp] theorem State.take_keys (s : State) (l : Loc) : (s.take l).keys = s.keys := rfl
@[simp] theorem State.take_keySerial (s : State) (l : Loc) : (s.take l).keySerial = s.keySerial := rfl
@[simp] theorem State.take_agenda (s : State) (l : Loc) : (s.take l).agenda = s.agenda := rfl
@[simp] theorem State.take_focus (s : State) (l : Loc) : (s.take l).focus = s.focus := rfl
@[simp] theorem State.take_freeCtr (s : State) (l : Loc) : (s.take l).freeCtr = s.freeCtr := rfl
@[simp] theorem State.take_tlb (s : State) (l : Loc) : (s.take l).tlb = s.tlb := rfl
@[simp] theorem State.take_waits (s : State) (l : Loc) : (s.take l).waits = s.waits := rfl
@[simp] theorem State.take_opId (s : State) (l : Loc) : (s.take l).opId = s.opId := rfl
@[simp] theorem State.setPav_cores (s : State) (n : Nat) (p : Pav) : (s.setPav n p).cores = s.cores := rfl
@[simp] theorem State.setPav_oper (s : State) (n : Nat) (p : Pav) : (s.setPav n p).oper = s.oper := rfl
@[simp] theorem State.setPav_msix (s : State) (n : Nat) (p : Pav) : (s.setPav n p).msix = s.msix := rfl
@[simp] theorem State.setPav_images (s : State) (n : Nat) (p : Pav) : (s.setPav n p).images = s.images := rfl
@[simp] theorem State.setPav_host (s : State) (n : Nat) (p : Pav) : (s.setPav n p).host = s.host := rfl
@[simp] theorem State.setPav_reads (s : State) (n : Nat) (p : Pav) : (s.setPav n p).reads = s.reads := rfl
@[simp] theorem State.setPav_arbs (s : State) (n : Nat) (p : Pav) : (s.setPav n p).arbs = s.arbs := rfl
@[simp] theorem State.setPav_messages (s : State) (n : Nat) (p : Pav) : (s.setPav n p).messages = s.messages := rfl
@[simp] theorem State.setPav_credits (s : State) (n : Nat) (p : Pav) : (s.setPav n p).credits = s.credits := rfl
@[simp] theorem State.setPav_portIn (s : State) (n : Nat) (p : Pav) : (s.setPav n p).portIn = s.portIn := rfl
@[simp] theorem State.setPav_portLoad (s : State) (n : Nat) (p : Pav) : (s.setPav n p).portLoad = s.portLoad := rfl
@[simp] theorem State.setPav_time (s : State) (n : Nat) (p : Pav) : (s.setPav n p).time = s.time := rfl
@[simp] theorem State.setPav_mem (s : State) (n : Nat) (p : Pav) : (s.setPav n p).mem = s.mem := rfl
@[simp] theorem State.setPav_tags (s : State) (n : Nat) (p : Pav) : (s.setPav n p).tags = s.tags := rfl
@[simp] theorem State.setPav_lineMeta (s : State) (n : Nat) (p : Pav) : (s.setPav n p).lineMeta = s.lineMeta := rfl
@[simp] theorem State.setPav_poison (s : State) (n : Nat) (p : Pav) : (s.setPav n p).poison = s.poison := rfl
@[simp] theorem State.setPav_watched (s : State) (n : Nat) (p : Pav) : (s.setPav n p).watched = s.watched := rfl
@[simp] theorem State.setPav_lineKey (s : State) (n : Nat) (p : Pav) : (s.setPav n p).lineKey = s.lineKey := rfl
@[simp] theorem State.setPav_l2 (s : State) (n : Nat) (p : Pav) : (s.setPav n p).l2 = s.l2 := rfl
@[simp] theorem State.setPav_home (s : State) (n : Nat) (p : Pav) : (s.setPav n p).home = s.home := rfl
@[simp] theorem State.setPav_retired (s : State) (n : Nat) (p : Pav) : (s.setPav n p).retired = s.retired := rfl
@[simp] theorem State.setPav_reclaims (s : State) (n : Nat) (p : Pav) : (s.setPav n p).reclaims = s.reclaims := rfl
@[simp] theorem State.setPav_granules (s : State) (n : Nat) (p : Pav) : (s.setPav n p).granules = s.granules := rfl
@[simp] theorem State.setPav_keys (s : State) (n : Nat) (p : Pav) : (s.setPav n p).keys = s.keys := rfl
@[simp] theorem State.setPav_keySerial (s : State) (n : Nat) (p : Pav) : (s.setPav n p).keySerial = s.keySerial := rfl
@[simp] theorem State.setPav_agenda (s : State) (n : Nat) (p : Pav) : (s.setPav n p).agenda = s.agenda := rfl
@[simp] theorem State.setPav_focus (s : State) (n : Nat) (p : Pav) : (s.setPav n p).focus = s.focus := rfl
@[simp] theorem State.setPav_freeCtr (s : State) (n : Nat) (p : Pav) : (s.setPav n p).freeCtr = s.freeCtr := rfl
@[simp] theorem State.setPav_tlb (s : State) (n : Nat) (p : Pav) : (s.setPav n p).tlb = s.tlb := rfl
@[simp] theorem State.setPav_waits (s : State) (n : Nat) (p : Pav) : (s.setPav n p).waits = s.waits := rfl
@[simp] theorem State.setPav_opId (s : State) (n : Nat) (p : Pav) : (s.setPav n p).opId = s.opId := rfl
@[simp] theorem State.setDev_cores (s : State) (n d : Nat) (x : Dev) : (s.setDev n d x).cores = s.cores := rfl
@[simp] theorem State.setDev_oper (s : State) (n d : Nat) (x : Dev) : (s.setDev n d x).oper = s.oper := rfl
@[simp] theorem State.setDev_msix (s : State) (n d : Nat) (x : Dev) : (s.setDev n d x).msix = s.msix := rfl
@[simp] theorem State.setDev_images (s : State) (n d : Nat) (x : Dev) : (s.setDev n d x).images = s.images := rfl
@[simp] theorem State.setDev_host (s : State) (n d : Nat) (x : Dev) : (s.setDev n d x).host = s.host := rfl
@[simp] theorem State.setDev_reads (s : State) (n d : Nat) (x : Dev) : (s.setDev n d x).reads = s.reads := rfl
@[simp] theorem State.setDev_arbs (s : State) (n d : Nat) (x : Dev) : (s.setDev n d x).arbs = s.arbs := rfl
@[simp] theorem State.setDev_messages (s : State) (n d : Nat) (x : Dev) : (s.setDev n d x).messages = s.messages := rfl
@[simp] theorem State.setDev_credits (s : State) (n d : Nat) (x : Dev) : (s.setDev n d x).credits = s.credits := rfl
@[simp] theorem State.setDev_portIn (s : State) (n d : Nat) (x : Dev) : (s.setDev n d x).portIn = s.portIn := rfl
@[simp] theorem State.setDev_portLoad (s : State) (n d : Nat) (x : Dev) : (s.setDev n d x).portLoad = s.portLoad := rfl
@[simp] theorem State.setDev_time (s : State) (n d : Nat) (x : Dev) : (s.setDev n d x).time = s.time := rfl
@[simp] theorem State.setDev_mem (s : State) (n d : Nat) (x : Dev) : (s.setDev n d x).mem = s.mem := rfl
@[simp] theorem State.setDev_tags (s : State) (n d : Nat) (x : Dev) : (s.setDev n d x).tags = s.tags := rfl
@[simp] theorem State.setDev_lineMeta (s : State) (n d : Nat) (x : Dev) : (s.setDev n d x).lineMeta = s.lineMeta := rfl
@[simp] theorem State.setDev_poison (s : State) (n d : Nat) (x : Dev) : (s.setDev n d x).poison = s.poison := rfl
@[simp] theorem State.setDev_watched (s : State) (n d : Nat) (x : Dev) : (s.setDev n d x).watched = s.watched := rfl
@[simp] theorem State.setDev_lineKey (s : State) (n d : Nat) (x : Dev) : (s.setDev n d x).lineKey = s.lineKey := rfl
@[simp] theorem State.setDev_l2 (s : State) (n d : Nat) (x : Dev) : (s.setDev n d x).l2 = s.l2 := rfl
@[simp] theorem State.setDev_home (s : State) (n d : Nat) (x : Dev) : (s.setDev n d x).home = s.home := rfl
@[simp] theorem State.setDev_retired (s : State) (n d : Nat) (x : Dev) : (s.setDev n d x).retired = s.retired := rfl
@[simp] theorem State.setDev_reclaims (s : State) (n d : Nat) (x : Dev) : (s.setDev n d x).reclaims = s.reclaims := rfl
@[simp] theorem State.setDev_granules (s : State) (n d : Nat) (x : Dev) : (s.setDev n d x).granules = s.granules := rfl
@[simp] theorem State.setDev_keys (s : State) (n d : Nat) (x : Dev) : (s.setDev n d x).keys = s.keys := rfl
@[simp] theorem State.setDev_keySerial (s : State) (n d : Nat) (x : Dev) : (s.setDev n d x).keySerial = s.keySerial := rfl
@[simp] theorem State.setDev_agenda (s : State) (n d : Nat) (x : Dev) : (s.setDev n d x).agenda = s.agenda := rfl
@[simp] theorem State.setDev_focus (s : State) (n d : Nat) (x : Dev) : (s.setDev n d x).focus = s.focus := rfl
@[simp] theorem State.setDev_freeCtr (s : State) (n d : Nat) (x : Dev) : (s.setDev n d x).freeCtr = s.freeCtr := rfl
@[simp] theorem State.setDev_tlb (s : State) (n d : Nat) (x : Dev) : (s.setDev n d x).tlb = s.tlb := rfl
@[simp] theorem State.setDev_waits (s : State) (n d : Nat) (x : Dev) : (s.setDev n d x).waits = s.waits := rfl
@[simp] theorem State.setDev_opId (s : State) (n d : Nat) (x : Dev) : (s.setDev n d x).opId = s.opId := rfl
@[simp] theorem State.setArb_cores (s : State) (n : Nat) (a : Arb) : (s.setArb n a).cores = s.cores := rfl
@[simp] theorem State.setArb_pavs (s : State) (n : Nat) (a : Arb) : (s.setArb n a).pavs = s.pavs := rfl
@[simp] theorem State.setArb_oper (s : State) (n : Nat) (a : Arb) : (s.setArb n a).oper = s.oper := rfl
@[simp] theorem State.setArb_msix (s : State) (n : Nat) (a : Arb) : (s.setArb n a).msix = s.msix := rfl
@[simp] theorem State.setArb_images (s : State) (n : Nat) (a : Arb) : (s.setArb n a).images = s.images := rfl
@[simp] theorem State.setArb_host (s : State) (n : Nat) (a : Arb) : (s.setArb n a).host = s.host := rfl
@[simp] theorem State.setArb_reads (s : State) (n : Nat) (a : Arb) : (s.setArb n a).reads = s.reads := rfl
@[simp] theorem State.setArb_messages (s : State) (n : Nat) (a : Arb) : (s.setArb n a).messages = s.messages := rfl
@[simp] theorem State.setArb_credits (s : State) (n : Nat) (a : Arb) : (s.setArb n a).credits = s.credits := rfl
@[simp] theorem State.setArb_portIn (s : State) (n : Nat) (a : Arb) : (s.setArb n a).portIn = s.portIn := rfl
@[simp] theorem State.setArb_portLoad (s : State) (n : Nat) (a : Arb) : (s.setArb n a).portLoad = s.portLoad := rfl
@[simp] theorem State.setArb_time (s : State) (n : Nat) (a : Arb) : (s.setArb n a).time = s.time := rfl
@[simp] theorem State.setArb_mem (s : State) (n : Nat) (a : Arb) : (s.setArb n a).mem = s.mem := rfl
@[simp] theorem State.setArb_tags (s : State) (n : Nat) (a : Arb) : (s.setArb n a).tags = s.tags := rfl
@[simp] theorem State.setArb_lineMeta (s : State) (n : Nat) (a : Arb) : (s.setArb n a).lineMeta = s.lineMeta := rfl
@[simp] theorem State.setArb_poison (s : State) (n : Nat) (a : Arb) : (s.setArb n a).poison = s.poison := rfl
@[simp] theorem State.setArb_watched (s : State) (n : Nat) (a : Arb) : (s.setArb n a).watched = s.watched := rfl
@[simp] theorem State.setArb_lineKey (s : State) (n : Nat) (a : Arb) : (s.setArb n a).lineKey = s.lineKey := rfl
@[simp] theorem State.setArb_l2 (s : State) (n : Nat) (a : Arb) : (s.setArb n a).l2 = s.l2 := rfl
@[simp] theorem State.setArb_home (s : State) (n : Nat) (a : Arb) : (s.setArb n a).home = s.home := rfl
@[simp] theorem State.setArb_retired (s : State) (n : Nat) (a : Arb) : (s.setArb n a).retired = s.retired := rfl
@[simp] theorem State.setArb_reclaims (s : State) (n : Nat) (a : Arb) : (s.setArb n a).reclaims = s.reclaims := rfl
@[simp] theorem State.setArb_granules (s : State) (n : Nat) (a : Arb) : (s.setArb n a).granules = s.granules := rfl
@[simp] theorem State.setArb_keys (s : State) (n : Nat) (a : Arb) : (s.setArb n a).keys = s.keys := rfl
@[simp] theorem State.setArb_keySerial (s : State) (n : Nat) (a : Arb) : (s.setArb n a).keySerial = s.keySerial := rfl
@[simp] theorem State.setArb_agenda (s : State) (n : Nat) (a : Arb) : (s.setArb n a).agenda = s.agenda := rfl
@[simp] theorem State.setArb_focus (s : State) (n : Nat) (a : Arb) : (s.setArb n a).focus = s.focus := rfl
@[simp] theorem State.setArb_freeCtr (s : State) (n : Nat) (a : Arb) : (s.setArb n a).freeCtr = s.freeCtr := rfl
@[simp] theorem State.setArb_tlb (s : State) (n : Nat) (a : Arb) : (s.setArb n a).tlb = s.tlb := rfl
@[simp] theorem State.setArb_waits (s : State) (n : Nat) (a : Arb) : (s.setArb n a).waits = s.waits := rfl
@[simp] theorem State.setArb_opId (s : State) (n : Nat) (a : Arb) : (s.setArb n a).opId = s.opId := rfl
@[simp] theorem State.block_pavs (s : State) (l : Loc) (w : Wait) : (s.block l w).pavs = s.pavs := by
  unfold State.block; dsimp only; split <;> rfl
@[simp] theorem State.block_oper (s : State) (l : Loc) (w : Wait) : (s.block l w).oper = s.oper := by
  unfold State.block; dsimp only; split <;> rfl
@[simp] theorem State.block_msix (s : State) (l : Loc) (w : Wait) : (s.block l w).msix = s.msix := by
  unfold State.block; dsimp only; split <;> rfl
@[simp] theorem State.block_images (s : State) (l : Loc) (w : Wait) : (s.block l w).images = s.images := by
  unfold State.block; dsimp only; split <;> rfl
@[simp] theorem State.block_host (s : State) (l : Loc) (w : Wait) : (s.block l w).host = s.host := by
  unfold State.block; dsimp only; split <;> rfl
@[simp] theorem State.block_reads (s : State) (l : Loc) (w : Wait) : (s.block l w).reads = s.reads := by
  unfold State.block; dsimp only; split <;> rfl
@[simp] theorem State.block_arbs (s : State) (l : Loc) (w : Wait) : (s.block l w).arbs = s.arbs := by
  unfold State.block; dsimp only; split <;> rfl
@[simp] theorem State.block_messages (s : State) (l : Loc) (w : Wait) : (s.block l w).messages = s.messages := by
  unfold State.block; dsimp only; split <;> rfl
@[simp] theorem State.block_credits (s : State) (l : Loc) (w : Wait) : (s.block l w).credits = s.credits := by
  unfold State.block; dsimp only; split <;> rfl
@[simp] theorem State.block_portIn (s : State) (l : Loc) (w : Wait) : (s.block l w).portIn = s.portIn := by
  unfold State.block; dsimp only; split <;> rfl
@[simp] theorem State.block_mem (s : State) (l : Loc) (w : Wait) : (s.block l w).mem = s.mem := by
  unfold State.block; dsimp only; split <;> rfl
@[simp] theorem State.block_tags (s : State) (l : Loc) (w : Wait) : (s.block l w).tags = s.tags := by
  unfold State.block; dsimp only; split <;> rfl
@[simp] theorem State.block_lineMeta (s : State) (l : Loc) (w : Wait) : (s.block l w).lineMeta = s.lineMeta := by
  unfold State.block; dsimp only; split <;> rfl
@[simp] theorem State.block_poison (s : State) (l : Loc) (w : Wait) : (s.block l w).poison = s.poison := by
  unfold State.block; dsimp only; split <;> rfl
@[simp] theorem State.block_watched (s : State) (l : Loc) (w : Wait) : (s.block l w).watched = s.watched := by
  unfold State.block; dsimp only; split <;> rfl
@[simp] theorem State.block_lineKey (s : State) (l : Loc) (w : Wait) : (s.block l w).lineKey = s.lineKey := by
  unfold State.block; dsimp only; split <;> rfl
@[simp] theorem State.block_l2 (s : State) (l : Loc) (w : Wait) : (s.block l w).l2 = s.l2 := by
  unfold State.block; dsimp only; split <;> rfl
@[simp] theorem State.block_home (s : State) (l : Loc) (w : Wait) : (s.block l w).home = s.home := by
  unfold State.block; dsimp only; split <;> rfl
@[simp] theorem State.block_retired (s : State) (l : Loc) (w : Wait) : (s.block l w).retired = s.retired := by
  unfold State.block; dsimp only; split <;> rfl
@[simp] theorem State.block_reclaims (s : State) (l : Loc) (w : Wait) : (s.block l w).reclaims = s.reclaims := by
  unfold State.block; dsimp only; split <;> rfl
@[simp] theorem State.block_granules (s : State) (l : Loc) (w : Wait) : (s.block l w).granules = s.granules := by
  unfold State.block; dsimp only; split <;> rfl
@[simp] theorem State.block_keys (s : State) (l : Loc) (w : Wait) : (s.block l w).keys = s.keys := by
  unfold State.block; dsimp only; split <;> rfl
@[simp] theorem State.block_keySerial (s : State) (l : Loc) (w : Wait) : (s.block l w).keySerial = s.keySerial := by
  unfold State.block; dsimp only; split <;> rfl
@[simp] theorem State.block_agenda (s : State) (l : Loc) (w : Wait) : (s.block l w).agenda = s.agenda := by
  unfold State.block; dsimp only; split <;> rfl
@[simp] theorem State.block_focus (s : State) (l : Loc) (w : Wait) : (s.block l w).focus = s.focus := by
  unfold State.block; dsimp only; split <;> rfl
@[simp] theorem State.block_freeCtr (s : State) (l : Loc) (w : Wait) : (s.block l w).freeCtr = s.freeCtr := by
  unfold State.block; dsimp only; split <;> rfl
@[simp] theorem State.block_tlb (s : State) (l : Loc) (w : Wait) : (s.block l w).tlb = s.tlb := by
  unfold State.block; dsimp only; split <;> rfl
@[simp] theorem State.block_opId (s : State) (l : Loc) (w : Wait) : (s.block l w).opId = s.opId := by
  unfold State.block; dsimp only; split <;> rfl
@[simp] theorem State.fly_pavs (s : State) (l : Loc) (p : Bool) (due : Nat) (sb : Bool) (es : List Eff) : (s.fly l p due sb es).pavs = s.pavs := rfl
@[simp] theorem State.fly_oper (s : State) (l : Loc) (p : Bool) (due : Nat) (sb : Bool) (es : List Eff) : (s.fly l p due sb es).oper = s.oper := rfl
@[simp] theorem State.fly_msix (s : State) (l : Loc) (p : Bool) (due : Nat) (sb : Bool) (es : List Eff) : (s.fly l p due sb es).msix = s.msix := rfl
@[simp] theorem State.fly_images (s : State) (l : Loc) (p : Bool) (due : Nat) (sb : Bool) (es : List Eff) : (s.fly l p due sb es).images = s.images := rfl
@[simp] theorem State.fly_host (s : State) (l : Loc) (p : Bool) (due : Nat) (sb : Bool) (es : List Eff) : (s.fly l p due sb es).host = s.host := rfl
@[simp] theorem State.fly_reads (s : State) (l : Loc) (p : Bool) (due : Nat) (sb : Bool) (es : List Eff) : (s.fly l p due sb es).reads = s.reads := rfl
@[simp] theorem State.fly_arbs (s : State) (l : Loc) (p : Bool) (due : Nat) (sb : Bool) (es : List Eff) : (s.fly l p due sb es).arbs = s.arbs := rfl
@[simp] theorem State.fly_messages (s : State) (l : Loc) (p : Bool) (due : Nat) (sb : Bool) (es : List Eff) : (s.fly l p due sb es).messages = s.messages := rfl
@[simp] theorem State.fly_credits (s : State) (l : Loc) (p : Bool) (due : Nat) (sb : Bool) (es : List Eff) : (s.fly l p due sb es).credits = s.credits := rfl
@[simp] theorem State.fly_portIn (s : State) (l : Loc) (p : Bool) (due : Nat) (sb : Bool) (es : List Eff) : (s.fly l p due sb es).portIn = s.portIn := rfl
@[simp] theorem State.fly_mem (s : State) (l : Loc) (p : Bool) (due : Nat) (sb : Bool) (es : List Eff) : (s.fly l p due sb es).mem = s.mem := rfl
@[simp] theorem State.fly_tags (s : State) (l : Loc) (p : Bool) (due : Nat) (sb : Bool) (es : List Eff) : (s.fly l p due sb es).tags = s.tags := rfl
@[simp] theorem State.fly_lineMeta (s : State) (l : Loc) (p : Bool) (due : Nat) (sb : Bool) (es : List Eff) : (s.fly l p due sb es).lineMeta = s.lineMeta := rfl
@[simp] theorem State.fly_poison (s : State) (l : Loc) (p : Bool) (due : Nat) (sb : Bool) (es : List Eff) : (s.fly l p due sb es).poison = s.poison := rfl
@[simp] theorem State.fly_watched (s : State) (l : Loc) (p : Bool) (due : Nat) (sb : Bool) (es : List Eff) : (s.fly l p due sb es).watched = s.watched := rfl
@[simp] theorem State.fly_lineKey (s : State) (l : Loc) (p : Bool) (due : Nat) (sb : Bool) (es : List Eff) : (s.fly l p due sb es).lineKey = s.lineKey := rfl
@[simp] theorem State.fly_l2 (s : State) (l : Loc) (p : Bool) (due : Nat) (sb : Bool) (es : List Eff) : (s.fly l p due sb es).l2 = s.l2 := rfl
@[simp] theorem State.fly_home (s : State) (l : Loc) (p : Bool) (due : Nat) (sb : Bool) (es : List Eff) : (s.fly l p due sb es).home = s.home := rfl
@[simp] theorem State.fly_retired (s : State) (l : Loc) (p : Bool) (due : Nat) (sb : Bool) (es : List Eff) : (s.fly l p due sb es).retired = s.retired := rfl
@[simp] theorem State.fly_reclaims (s : State) (l : Loc) (p : Bool) (due : Nat) (sb : Bool) (es : List Eff) : (s.fly l p due sb es).reclaims = s.reclaims := rfl
@[simp] theorem State.fly_granules (s : State) (l : Loc) (p : Bool) (due : Nat) (sb : Bool) (es : List Eff) : (s.fly l p due sb es).granules = s.granules := rfl
@[simp] theorem State.fly_keys (s : State) (l : Loc) (p : Bool) (due : Nat) (sb : Bool) (es : List Eff) : (s.fly l p due sb es).keys = s.keys := rfl
@[simp] theorem State.fly_keySerial (s : State) (l : Loc) (p : Bool) (due : Nat) (sb : Bool) (es : List Eff) : (s.fly l p due sb es).keySerial = s.keySerial := rfl
@[simp] theorem State.fly_agenda (s : State) (l : Loc) (p : Bool) (due : Nat) (sb : Bool) (es : List Eff) : (s.fly l p due sb es).agenda = s.agenda := rfl
@[simp] theorem State.fly_focus (s : State) (l : Loc) (p : Bool) (due : Nat) (sb : Bool) (es : List Eff) : (s.fly l p due sb es).focus = s.focus := rfl
@[simp] theorem State.fly_freeCtr (s : State) (l : Loc) (p : Bool) (due : Nat) (sb : Bool) (es : List Eff) : (s.fly l p due sb es).freeCtr = s.freeCtr := rfl
@[simp] theorem State.fly_tlb (s : State) (l : Loc) (p : Bool) (due : Nat) (sb : Bool) (es : List Eff) : (s.fly l p due sb es).tlb = s.tlb := rfl
@[simp] theorem State.fly_waits (s : State) (l : Loc) (p : Bool) (due : Nat) (sb : Bool) (es : List Eff) : (s.fly l p due sb es).waits = s.waits := rfl
@[simp] theorem State.fly_opId (s : State) (l : Loc) (p : Bool) (due : Nat) (sb : Bool) (es : List Eff) : (s.fly l p due sb es).opId = s.opId := rfl
@[simp] theorem Core.setCtx_running (k : Core) (n : Nat) (x : Ctx) : (k.setCtx n x).running = k.running := rfl
@[simp] theorem Core.setCtx_taken (k : Core) (n : Nat) (x : Ctx) : (k.setCtx n x).taken = k.taken := rfl
@[simp] theorem Core.setCtx_cycle (k : Core) (n : Nat) (x : Ctx) : (k.setCtx n x).cycle = k.cycle := rfl
@[simp] theorem Core.setCtx_poolpart (k : Core) (n : Nat) (x : Ctx) : (k.setCtx n x).poolpart = k.poolpart := rfl
@[simp] theorem Core.setCtx_pool (k : Core) (n : Nat) (x : Ctx) : (k.setCtx n x).pool = k.pool := rfl
@[simp] theorem Core.setCtx_sectorKey (k : Core) (n : Nat) (x : Ctx) : (k.setCtx n x).sectorKey = k.sectorKey := rfl
@[simp] theorem Core.setCtx_fmt (k : Core) (n : Nat) (x : Ctx) : (k.setCtx n x).fmt = k.fmt := rfl
@[simp] theorem Core.setCtx_withdrawn (k : Core) (n : Nat) (x : Ctx) : (k.setCtx n x).withdrawn = k.withdrawn := rfl
@[simp] theorem Core.setCtx_claims (k : Core) (n : Nat) (x : Ctx) : (k.setCtx n x).claims = k.claims := rfl
@[simp] theorem Core.setCtx_ztiles (k : Core) (n : Nat) (x : Ctx) : (k.setCtx n x).ztiles = k.ztiles := rfl
@[simp] theorem Core.setCtx_store (k : Core) (n : Nat) (x : Ctx) : (k.setCtx n x).store = k.store := rfl
@[simp] theorem Core.setCtx_mxq (k : Core) (n : Nat) (x : Ctx) : (k.setCtx n x).mxq = k.mxq := rfl
@[simp] theorem Core.setCtx_mxRun (k : Core) (n : Nat) (x : Ctx) : (k.setCtx n x).mxRun = k.mxRun := rfl
@[simp] theorem Core.setCtx_scq (k : Core) (n : Nat) (x : Ctx) : (k.setCtx n x).scq = k.scq := rfl
@[simp] theorem Core.setCtx_scRun (k : Core) (n : Nat) (x : Ctx) : (k.setCtx n x).scRun = k.scRun := rfl
@[simp] theorem Core.setCtx_mxWait (k : Core) (n : Nat) (x : Ctx) : (k.setCtx n x).mxWait = k.mxWait := rfl
@[simp] theorem Core.setCtx_scWait (k : Core) (n : Nat) (x : Ctx) : (k.setCtx n x).scWait = k.scWait := rfl
@[simp] theorem Core.setCtx_slots (k : Core) (n : Nat) (x : Ctx) : (k.setCtx n x).slots = k.slots := rfl
@[simp] theorem Core.setCtx_frames (k : Core) (n : Nat) (x : Ctx) : (k.setCtx n x).frames = k.frames := rfl
@[simp] theorem Core.setCtx_frameId (k : Core) (n : Nat) (x : Ctx) : (k.setCtx n x).frameId = k.frameId := rfl
@[simp] theorem Core.setCtx_frq (k : Core) (n : Nat) (x : Ctx) : (k.setCtx n x).frq = k.frq := rfl
@[simp] theorem Core.setCtx_templates (k : Core) (n : Nat) (x : Ctx) : (k.setCtx n x).templates = k.templates := rfl
@[simp] theorem Core.setCtx_cp0q (k : Core) (n : Nat) (x : Ctx) : (k.setCtx n x).cp0q = k.cp0q := rfl
@[simp] theorem Core.setCtx_cp1q (k : Core) (n : Nat) (x : Ctx) : (k.setCtx n x).cp1q = k.cp1q := rfl
@[simp] theorem Core.setCtx_ddq (k : Core) (n : Nat) (x : Ctx) : (k.setCtx n x).ddq = k.ddq := rfl
@[simp] theorem Core.setCtx_queues (k : Core) (n : Nat) (x : Ctx) : (k.setCtx n x).queues = k.queues := rfl
@[simp] theorem Core.setCtx_ring (k : Core) (n : Nat) (x : Ctx) : (k.setCtx n x).ring = k.ring := rfl
@[simp] theorem Core.setCtx_spent (k : Core) (n : Nat) (x : Ctx) : (k.setCtx n x).spent = k.spent := rfl
@[simp] theorem Core.setCtx_arrived (k : Core) (n : Nat) (x : Ctx) : (k.setCtx n x).arrived = k.arrived := rfl
@[simp] theorem Core.setCtx_passed (k : Core) (n : Nat) (x : Ctx) : (k.setCtx n x).passed = k.passed := rfl
@[simp] theorem Core.setCtx_table (k : Core) (n : Nat) (x : Ctx) : (k.setCtx n x).table = k.table := rfl
@[simp] theorem Core.setCtx_renames (k : Core) (n : Nat) (x : Ctx) : (k.setCtx n x).renames = k.renames := rfl
@[simp] theorem Core.setCtx_walker (k : Core) (n : Nat) (x : Ctx) : (k.setCtx n x).walker = k.walker := rfl
@[simp] theorem Core.setCtx_parked (k : Core) (n : Nat) (x : Ctx) : (k.setCtx n x).parked = k.parked := rfl
@[simp] theorem Core.setCtx_holds (k : Core) (n : Nat) (x : Ctx) : (k.setCtx n x).holds = k.holds := rfl
@[simp] theorem Core.setCtx_heldFor (k : Core) (n : Nat) (x : Ctx) : (k.setCtx n x).heldFor = k.heldFor := rfl
@[simp] theorem Core.setCtx_failing (k : Core) (n : Nat) (x : Ctx) : (k.setCtx n x).failing = k.failing := rfl
@[simp] theorem Core.setCtx_bubble (k : Core) (n : Nat) (x : Ctx) : (k.setCtx n x).bubble = k.bubble := rfl
@[simp] theorem Core.setCtx_removed (k : Core) (n : Nat) (x : Ctx) : (k.setCtx n x).removed = k.removed := rfl
@[simp] theorem Ctx.onView_mode (x : Ctx) (p : Bool) (f : View → View) : (x.onView p f).mode = x.mode := rfl
@[simp] theorem Ctx.onView_wait (x : Ctx) (p : Bool) (f : View → View) : (x.onView p f).wait = x.wait := rfl
@[simp] theorem Ctx.onView_branch (x : Ctx) (p : Bool) (f : View → View) : (x.onView p f).branch = x.branch := rfl
@[simp] theorem Ctx.onView_untaken (x : Ctx) (p : Bool) (f : View → View) : (x.onView p f).untaken = x.untaken := rfl
@[simp] theorem Ctx.onView_pc (x : Ctx) (p : Bool) (f : View → View) : (x.onView p f).pc = x.pc := rfl
@[simp] theorem Ctx.onView_ctime (x : Ctx) (p : Bool) (f : View → View) : (x.onView p f).ctime = x.ctime := rfl
@[simp] theorem Ctx.onView_held (x : Ctx) (p : Bool) (f : View → View) : (x.onView p f).held = x.held := rfl
@[simp] theorem Ctx.onView_fence (x : Ctx) (p : Bool) (f : View → View) : (x.onView p f).fence = x.fence := rfl
@[simp] theorem Ctx.onView_late (x : Ctx) (p : Bool) (f : View → View) : (x.onView p f).late = x.late := rfl
@[simp] theorem Ctx.onView_releases (x : Ctx) (p : Bool) (f : View → View) : (x.onView p f).releases = x.releases := rfl
@[simp] theorem Ctx.onView_landings (x : Ctx) (p : Bool) (f : View → View) : (x.onView p f).landings = x.landings := rfl
@[simp] theorem Ctx.onView_undo (x : Ctx) (p : Bool) (f : View → View) : (x.onView p f).undo = x.undo := rfl
@[simp] theorem Ctx.onView_arithDue (x : Ctx) (p : Bool) (f : View → View) : (x.onView p f).arithDue = x.arithDue := rfl
@[simp] theorem Ctx.onView_overrunDue (x : Ctx) (p : Bool) (f : View → View) : (x.onView p f).overrunDue = x.overrunDue := rfl
@[simp] theorem Ctx.onView_memErrDue (x : Ctx) (p : Bool) (f : View → View) : (x.onView p f).memErrDue = x.memErrDue := rfl
@[simp] theorem Ctx.onView_preempt (x : Ctx) (p : Bool) (f : View → View) : (x.onView p f).preempt = x.preempt := rfl
@[simp] theorem Ctx.onView_asked (x : Ctx) (p : Bool) (f : View → View) : (x.onView p f).asked = x.asked := rfl
@[simp] theorem Ctx.onView_waited (x : Ctx) (p : Bool) (f : View → View) : (x.onView p f).waited = x.waited := rfl
@[simp] theorem Ctx.onView_marker (x : Ctx) (p : Bool) (f : View → View) : (x.onView p f).marker = x.marker := rfl
@[simp] theorem Ctx.onView_started (x : Ctx) (p : Bool) (f : View → View) : (x.onView p f).started = x.started := rfl
@[simp] theorem Ctx.onView_binding (x : Ctx) (p : Bool) (f : View → View) : (x.onView p f).binding = x.binding := rfl
@[simp] theorem Ctx.onView_record (x : Ctx) (p : Bool) (f : View → View) : (x.onView p f).record = x.record := rfl
@[simp] theorem Ctx.onView_tiles (x : Ctx) (p : Bool) (f : View → View) : (x.onView p f).tiles = x.tiles := rfl
@[simp] theorem Ctx.onView_qa (x : Ctx) (p : Bool) (f : View → View) : (x.onView p f).qa = x.qa := rfl
@[simp] theorem Ctx.onView_qb (x : Ctx) (p : Bool) (f : View → View) : (x.onView p f).qb = x.qb := rfl
@[simp] theorem Ctx.onView_cells (x : Ctx) (p : Bool) (f : View → View) : (x.onView p f).cells = x.cells := rfl
@[simp] theorem Ctx.onView_stepAt (x : Ctx) (p : Bool) (f : View → View) : (x.onView p f).stepAt = x.stepAt := rfl
@[simp] theorem Ctx.onView_saved (x : Ctx) (p : Bool) (f : View → View) : (x.onView p f).saved = x.saved := rfl
@[simp] theorem Ctx.onView_killed (x : Ctx) (p : Bool) (f : View → View) : (x.onView p f).killed = x.killed := rfl
@[simp] theorem Ctx.onView_keptMx (x : Ctx) (p : Bool) (f : View → View) : (x.onView p f).keptMx = x.keptMx := rfl
@[simp] theorem Ctx.onView_keptSc (x : Ctx) (p : Bool) (f : View → View) : (x.onView p f).keptSc = x.keptSc := rfl
@[simp] theorem Ctx.onView_keptDd (x : Ctx) (p : Bool) (f : View → View) : (x.onView p f).keptDd = x.keptDd := rfl
@[simp] theorem View.setPortOf_s (w : View) (h : Bool) (u : UnitId) (p : Port) : (w.setPortOf h u p).s = w.s := by
  unfold View.setPortOf; split <;> rfl
@[simp] theorem View.setPortOf_a (w : View) (h : Bool) (u : UnitId) (p : Port) : (w.setPortOf h u p).a = w.a := by
  unfold View.setPortOf; split <;> rfl
@[simp] theorem View.setPortOf_v (w : View) (h : Bool) (u : UnitId) (p : Port) : (w.setPortOf h u p).v = w.v := by
  unfold View.setPortOf; split <;> rfl
@[simp] theorem View.setPortOf_p (w : View) (h : Bool) (u : UnitId) (p : Port) : (w.setPortOf h u p).p = w.p := by
  unfold View.setPortOf; split <;> rfl
@[simp] theorem View.setPortOf_k (w : View) (h : Bool) (u : UnitId) (p : Port) : (w.setPortOf h u p).k = w.k := by
  unfold View.setPortOf; split <;> rfl
@[simp] theorem View.setPortOf_mp (w : View) (h : Bool) (u : UnitId) (p : Port) : (w.setPortOf h u p).mp = w.mp := by
  unfold View.setPortOf; split <;> rfl
@[simp] theorem View.setPortOf_emptyS (w : View) (h : Bool) (u : UnitId) (p : Port) : (w.setPortOf h u p).emptyS = w.emptyS := by
  unfold View.setPortOf; split <;> rfl
@[simp] theorem View.setPortOf_emptyA (w : View) (h : Bool) (u : UnitId) (p : Port) : (w.setPortOf h u p).emptyA = w.emptyA := by
  unfold View.setPortOf; split <;> rfl
@[simp] theorem View.setPortOf_emptyV (w : View) (h : Bool) (u : UnitId) (p : Port) : (w.setPortOf h u p).emptyV = w.emptyV := by
  unfold View.setPortOf; split <;> rfl
@[simp] theorem View.setPortOf_stack (w : View) (h : Bool) (u : UnitId) (p : Port) : (w.setPortOf h u p).stack = w.stack := by
  unfold View.setPortOf; split <;> rfl
@[simp] theorem View.setPortOf_cf (w : View) (h : Bool) (u : UnitId) (p : Port) : (w.setPortOf h u p).cf = w.cf := by
  unfold View.setPortOf; split <;> rfl
@[simp] theorem View.setPortOf_ctl (w : View) (h : Bool) (u : UnitId) (p : Port) : (w.setPortOf h u p).ctl = w.ctl := by
  unfold View.setPortOf; split <;> rfl
@[simp] theorem View.setPortOf_looping (w : View) (h : Bool) (u : UnitId) (p : Port) : (w.setPortOf h u p).looping = w.looping := by
  unfold View.setPortOf; split <;> rfl
@[simp] theorem View.setPortOf_flights (w : View) (h : Bool) (u : UnitId) (p : Port) : (w.setPortOf h u p).flights = w.flights := by
  unfold View.setPortOf; split <;> rfl
@[simp] theorem View.setPortOf_pending (w : View) (h : Bool) (u : UnitId) (p : Port) : (w.setPortOf h u p).pending = w.pending := by
  unfold View.setPortOf; split <;> rfl
@[simp] theorem View.setPortOf_region (w : View) (h : Bool) (u : UnitId) (p : Port) : (w.setPortOf h u p).region = w.region := by
  unfold View.setPortOf; split <;> rfl
@[simp] theorem View.setPortOf_acquired (w : View) (h : Bool) (u : UnitId) (p : Port) : (w.setPortOf h u p).acquired = w.acquired := by
  unfold View.setPortOf; split <;> rfl

end Sys2Proof.Machine
end

