-- ==== Sys2Proof/Laws/Issue.lean ====
section
/-!
SUPPORT. What the issue of a bundle whose one move is a trigger does: the checks it runs, and its effects.
-/

namespace Sys2Proof.Machine

/-- Every row with an encoding runs its operation. -/
theorem exec_trigger {i : Instr} {u : UnitId} {op : Op} {m : Mv} (h : i.trigger? = some (u, op, m)) (s : State) :
    exec i s = runTrigger (opSem op) u op m s := by
  cases i <;> first | (cases h; rfl) | exact nomatch h

@[simp] theorem State.take_vcount (s : State) (l : Loc) (c x : Nat) : ((s.take l).core c).vcount x = (s.core c).vcount x := by
  unfold State.take
  by_cases h : c = l.core
  · subst h; rw [State.core_setCore]; rfl
  · rw [State.core_setCore_ne _ h]

@[simp] theorem State.take_relativeCore (s : State) (l m : Loc) : (s.take l).relativeCore m = s.relativeCore m := by
  unfold State.relativeCore
  rw [State.take_ctx]
  rfl

@[simp] theorem readSrc_take (s : State) (l m : Loc) (items : List Item) (slot : Nat) (src : Src) :
    readSrc (s.take l) m items slot src = readSrc s m items slot src := by
  unfold readSrc
  simp only [State.take_ctx, State.take_vcount, State.take_relativeCore]

/-- The enabled moves of a bundle with one trigger whose guard is 1. -/
theorem liveMoves_oneItem (w : View) (u : UnitId) (op : Op) (m : Mv) (hs : m.slot < 8) (hg : w.guard m.g = true) :
    liveMoves w 0 (oneItem m.slot (m.item u op)) = [⟨m.slot, m.s, m.b, m.src, .trig u op⟩] := by
  obtain ⟨slot, g, s, b, src⟩ := m
  simp only at hs hg
  match slot, hs with
  | 0, _ | 1, _ | 2, _ | 3, _ | 4, _ | 5, _ | 6, _ | 7, _ =>
    simp [oneItem, List.replicate, List.set, Mv.item, Item.empty, liveMoves, hg]

/-- Without its guard a trigger row moves nothing. -/
theorem liveMoves_oneItem_off (w : View) (u : UnitId) (op : Op) (m : Mv) (h : w.guard m.g = false) :
    liveMoves w 0 (oneItem m.slot (m.item u op)) = [] := by
  obtain ⟨slot, g, s, b, src⟩ := m
  simp only at h
  by_cases hs : slot < 8
  · match slot, hs with
    | 0, _ | 1, _ | 2, _ | 3, _ | 4, _ | 5, _ | 6, _ | 7, _ =>
      simp [oneItem, List.replicate, List.set, Mv.item, Item.empty, liveMoves, h]
  · have : oneItem slot (.move g s b src (.trig u op)) = List.replicate 8 Item.empty := by
      unfold oneItem
      exact List.set_eq_of_length_le (by simpa using Nat.le_of_not_lt hs)
    simp only [Mv.item]
    rw [this]
    simp [List.replicate, Item.empty, liveMoves]

/-- A trigger does not look ahead at what it shows itself. -/
theorem lookAhead_self (sem : Op → OpSem) (s : State) (l : Loc) (slot : Nat) (e : Exam) : s.lookAhead sem l slot [(slot, e)] = s := by
  cases e with
  | ok r =>
    cases r with
    | trig o =>
      unfold State.lookAhead
      split <;> simp [State.lookAhead]
    | _ => rfl
  | _ => rfl

/-- The examination of a bundle with one trigger: of its operands. -/
theorem examine_oneItem (sem : Op → OpSem) (s : State) (l : Loc) (u : UnitId) (op : Op) (m : Mv) (hs : m.slot < 8)
    (hg : (s.ctx l).cur.guard m.g = true) :
    examine sem s l (oneItem m.slot (m.item u op)) =
      [(m.slot, examineTrigger sem s l (oneItem m.slot (m.item u op)) (s.ctx l).cur [] ⟨m.slot, m.s, m.b, m.src, .trig u op⟩ u op)] := by
  unfold examine
  simp [liveMoves_oneItem _ u op m hs hg, Live.isTrigger, Live.unset, lookAhead_self, State.lookAhead]

/-- A bundle with one trigger is judged by the examination of that trigger. -/
theorem judge_oneItem (sem : Op → OpSem) (s : State) (l : Loc) (u : UnitId) (op : Op) (m : Mv) (hs : m.slot < 8)
    (hg : (s.ctx l).cur.guard m.g = true) :
    judge sem s l (oneItem m.slot (m.item u op)) =
      match examineTrigger sem s l (oneItem m.slot (m.item u op)) (s.ctx l).cur [] ⟨m.slot, m.s, m.b, m.src, .trig u op⟩ u op with
      | .trap _ t => .trap m.slot t
      | .block => .block
      | .drop => .go []
      | .ok r => .go [r] := by
  unfold judge
  simp only [examine_oneItem sem s l u op m hs hg, liveMoves_oneItem _ u op m hs hg, conflictSlot]
  generalize examineTrigger sem s l (oneItem m.slot (m.item u op)) (s.ctx l).cur []
    ⟨m.slot, m.s, m.b, m.src, .trig u op⟩ u op = e
  cases e <;> simp [firstTrap, passed]

/-- A trigger whose operands are read is examined by its operation's own checks. -/
theorem examineTrigger_operands {s : State} {l : Loc} {u : UnitId} {op : Op} {m : Mv} {o : Opd} (h : s.operands l u op m = some o) :
    m.slot < 8 ∧ (s.ctx l).cur.guard m.g = true ∧ o.slot = m.slot ∧ o.unit = u ∧ o.op = op ∧
      examineTrigger (fun _ => opSem op) (s.take l) l (oneItem m.slot (m.item u op)) (s.ctx l).cur []
        ⟨m.slot, m.s, m.b, m.src, .trig u op⟩ u op = examineOperand (opSem op) (s.take l) l o := by
  unfold State.operands at h
  dsimp only at h
  split at h
  · rename_i hc
    obtain ⟨h1, h2, h3⟩ := hc
    split at h
    · rename_i v hr
      split at h
      · rename_i v' ha
        split at h
        · rename_i vs r hl hsel
          simp only [Option.some.injEq] at h
          subst h
          refine ⟨h1, h2, rfl, rfl, rfl, ?_⟩
          unfold examineTrigger
          simp only [readSrc_take, State.take_ctx, hr, ha, h3]
          simp [hl, hsel]
        · cases h
      · cases h
    · cases h
  · cases h

/-- The issue of a trigger row (R392): with its operands read and its own checks passed, the bundle is charged and its one move takes
effect, or it is held until its access is accepted. -/
theorem exec_operands {i : Instr} {s : State} {l : Loc} {o : Opd} (hi : s.rowOperands l i = some o) (hm : s.mayIssue l)
    (hp : (s.take l).passes l o) :
    exec i s = .next
      (if (opSem o.op).access.isSome then
        ((s.issued l).setCtx l { (s.issued l).ctx l with held := some [.trig o] }).block l .acceptance
      else (s.issued l).perform (fun _ => opSem o.op) l [.trig o]) := by
  unfold State.rowOperands at hi
  split at hi
  · rename_i u op m ht
    obtain ⟨h1, h2, h3, h4, h5, h6⟩ := examineTrigger_operands hi
    obtain ⟨hp1, hp2, hp3, hp4⟩ := hp
    rw [exec_trigger ht]
    unfold runTrigger State.bundle
    rw [hm.1]
    simp only
    unfold State.issue
    rw [State.take_ctx, hm.2]
    simp only
    subst h5
    rw [judge_oneItem _ _ _ _ _ _ h1 (by simpa using h2), State.take_ctx, h6]
    unfold examineOperand
    simp only [hp1, hp2, hp3, hp4, Bool.false_eq_true, if_false, List.any_cons, List.any_nil, Bool.or_false, RMove.isAccess]
    rfl
  · cases hi

/-- A trigger row whose operands are read is judged by its operation's own checks (R392): the trap of the first that fails, or a wait. -/
theorem exec_examined {i : Instr} {s : State} {l : Loc} {o : Opd} (hi : s.rowOperands l i = some o) (hm : s.mayIssue l) :
    (∀ st t, examineOperand (opSem o.op) (s.take l) l o = .trap st t →
      exec i s = .next ((s.take l).takeTrap l t o.slot false (s.ctx l).pc)) ∧
    (examineOperand (opSem o.op) (s.take l) l o = .block → exec i s = .next ((s.take l).block l .bundle)) := by
  unfold State.rowOperands at hi
  split at hi
  · rename_i u op m ht
    obtain ⟨h1, h2, h3, h4, h5, h6⟩ := examineTrigger_operands hi
    rw [exec_trigger ht]
    unfold runTrigger State.bundle
    rw [hm.1]
    simp only
    unfold State.issue
    rw [State.take_ctx, hm.2]
    simp only
    subst h5
    rw [judge_oneItem _ _ _ _ _ _ h1 (by simpa using h2), State.take_ctx, h6]
    refine ⟨fun st t e => ?_, fun e => ?_⟩
    · simp [e, h3]
    · simp [e]
  · cases hi

/-- A trigger row whose selector names a file that its operation does not allow (R28): an illegal encoding of cause 9. -/
theorem exec_selector {i : Instr} {s : State} {l : Loc} {u : UnitId} {op : Op} {m : Mv} {v v' : Value} {vs : List (Nat × Value)}
    {r : RegRef} {f : RFile} {fs : List RFile} (hm : s.mayIssue l) (ht : i.trigger? = some (u, op, m)) (h1 : m.slot < 8)
    (h2 : (s.ctx l).cur.guard m.g = true)
    (hr : readSrc s l (oneItem m.slot (m.item u op)) m.slot m.src = .ok (v, false)) (ha : v.adapt (opSem op).xw = some v')
    (hl : readLatches (s.ctx l).cur ((s.ctx l).cur.port u) (opSem op).latches = .ok (vs, false))
    (hsel : ((s.ctx l).cur.port u).sel = some r) (hf : r.file = some f) (hn : f ∉ fs) (hfs : (opSem op).sel = some fs)
    (ho : (opSem op).outward = false) (hneeds : ∀ x, (opSem op).needs x = true) :
    exec i s = .next ((s.take l).takeTrap l (illegal 9) m.slot false (s.ctx l).pc) := by
  rw [exec_trigger ht]
  unfold runTrigger State.bundle
  rw [hm.1]
  simp only
  unfold State.issue
  rw [State.take_ctx, hm.2]
  simp only
  have e : examineTrigger (fun _ => opSem op) (s.take l) l (oneItem m.slot (m.item u op)) (s.ctx l).cur []
      ⟨m.slot, m.s, m.b, m.src, .trig u op⟩ u op = .trap 2 (illegal 9) := by
    unfold examineTrigger
    simp only [readSrc_take, State.take_ctx, hr, ha, ho, hneeds, Bool.and_false, Bool.false_eq_true, if_false, if_true]
    simp [hl, readSel, hfs, hsel, hf, hn]
  rw [judge_oneItem _ _ _ _ _ _ h1 (by simpa using h2), State.take_ctx, e]

/-- A trigger row whose operation refuses its operands (R392 stage 2). -/
theorem exec_encoding {i : Instr} {s : State} {l : Loc} {o : Opd} {c : Cause} (hr : s.ready l i o)
    (h : (opSem o.op).encoding (s.take l) l o = some c) :
    exec i s = .next ((s.take l).takeTrap l (illegal c) o.slot false (s.ctx l).pc) :=
  (exec_examined hr.1 hr.2.1).1 2 _ (by simp [examineOperand, h])

/-- A trigger row whose operation may not stand there (R392 stage 3). -/
theorem exec_sequence {i : Instr} {s : State} {l : Loc} {o : Opd} {c : Cause} (hr : s.ready l i o) (hp : o.prov = false)
    (he : (opSem o.op).encoding (s.take l) l o = none) (h : (opSem o.op).sequence (s.take l) l o = some c) :
    exec i s = .next ((s.take l).takeTrap l (sequenceTrap c) o.slot false (s.ctx l).pc) :=
  (exec_examined hr.1 hr.2.1).1 3 _ (by simp [examineOperand, he, h, Exam.later, hp])

/-- A trigger row whose operation lacks a right (R392 stage 5). -/
theorem exec_capability {i : Instr} {s : State} {l : Loc} {o : Opd} {t : Trap} (hr : s.ready l i o) (hp : o.prov = false)
    (he : (opSem o.op).encoding (s.take l) l o = none) (hs : (opSem o.op).sequence (s.take l) l o = none)
    (h : (opSem o.op).capability (s.take l) l o = some t) :
    exec i s = .next ((s.take l).takeTrap l t o.slot false (s.ctx l).pc) :=
  (exec_examined hr.1 hr.2.1).1 5 _ (by simp [examineOperand, he, hs, h, Exam.later, hp])

/-- A trigger row whose operation waits (R34). -/
theorem exec_blocks {i : Instr} {s : State} {l : Loc} {o : Opd} (hr : s.ready l i o)
    (he : (opSem o.op).encoding (s.take l) l o = none) (hs : (opSem o.op).sequence (s.take l) l o = none)
    (hc : (opSem o.op).capability (s.take l) l o = none) (hb : (opSem o.op).blocks (s.take l) l o = true) :
    exec i s = .next ((s.take l).block l .bundle) :=
  (exec_examined hr.1 hr.2.1).2 (by simp [examineOperand, he, hs, hc, hb])

theorem State.measured_ctx (s : State) (c : Nat) (b : Binding) (n : Nat) (l : Loc) : (s.measured c b n).ctx l = s.ctx l := by
  unfold State.measured State.ctx
  dsimp only
  by_cases h : l.core = c
  · rw [h, State.core_setCore]; rfl
  · rw [State.core_setCore_ne _ h]; rfl

@[simp] theorem State.charge_ctx (s : State) (l m : Loc) : (s.charge l).ctx m = s.ctx m := by
  unfold State.charge
  split
  · rfl
  · dsimp only
    rw [State.measured_ctx]
    split <;> rfl

@[simp] theorem State.issued_ctx (s : State) (l m : Loc) : (s.issued l).ctx m = s.ctx m := by
  simp [State.issued]

theorem State.measured_poolpart (s : State) (c d : Nat) (b : Binding) (n : Nat) :
    ((s.measured c b n).core d).poolpart = (s.core d).poolpart := by
  unfold State.measured
  dsimp only
  by_cases h : d = c
  · rw [h, State.core_setCore]; rfl
  · rw [State.core_setCore_ne _ h]; rfl

@[simp] theorem State.charge_poolpart (s : State) (l : Loc) (c : Nat) : ((s.charge l).core c).poolpart = (s.core c).poolpart := by
  unfold State.charge
  split
  · rfl
  · dsimp only
    rw [State.measured_poolpart]
    split <;> rfl

theorem Core.vcount_congr {k k' : Core} (h : k.poolpart = k'.poolpart) (x : Nat) : k.vcount x = k'.vcount x := by
  simp [Core.vcount, h]

@[simp] theorem State.issued_vcount (s : State) (l : Loc) (c x : Nat) : ((s.issued l).core c).vcount x = (s.core c).vcount x := by
  unfold State.issued
  rw [Core.vcount_congr (State.charge_poolpart (s.take l) l c), State.take_vcount]

/-! ### Effects -/

@[simp] theorem Ctx.onView_onView (x : Ctx) (p : Bool) (f g : View → View) :
    (x.onView p f).onView p g = x.onView p fun w => g (f w) := by
  unfold Ctx.onView
  cases p <;> simp [Function.comp_def]

@[simp] theorem State.onView_onView (s : State) (l : Loc) (p : Bool) (f g : View → View) :
    (s.onView l p f).onView l p g = s.onView l p fun w => g (f w) := by
  simp [State.onView]

theorem State.onView_setCtx (s : State) (l : Loc) (x : Ctx) (p : Bool) (f : View → View) :
    (s.setCtx l x).onView l p f = s.setCtx l (x.onView p f) := by
  simp [State.onView]

@[simp] theorem Core.setCtx_vcount (k : Core) (n m : Nat) (x : Ctx) : (k.setCtx n x).vcount m = k.vcount m := rfl

@[simp] theorem State.setCtx_vcount (s : State) (l : Loc) (x : Ctx) (c n : Nat) :
    ((s.setCtx l x).core c).vcount n = (s.core c).vcount n := by
  by_cases h : c = l.core
  · subst h; rw [State.core_setCtx]; rfl
  · rw [State.core_setCtx_ne _ h]

@[simp] theorem Ctx.endBundle_fence (x : Ctx) (lp : Bool) : (x.endBundle lp).fence = x.fence := by
  unfold Ctx.endBundle
  dsimp only
  split <;> try rfl
  split <;> rfl

theorem Ctx.onView_unmarked (x : Ctx) (p : Bool) (f : View → View) : (x.onView p f).unmarked = x.unmarked.onView p f := rfl

@[simp] theorem Ctx.unmarked_fence (x : Ctx) : x.unmarked.fence = x.fence := rfl

@[simp] theorem Ctx.unmarked_cur (x : Ctx) : x.unmarked.cur = x.cur := rfl

@[simp] theorem Ctx.unmarked_ctime (x : Ctx) : x.unmarked.ctime = x.ctime := rfl

@[simp] theorem Ctx.unmarked_binding (x : Ctx) : x.unmarked.binding = x.binding := rfl

@[simp] theorem Ctx.unmarked_pc (x : Ctx) : x.unmarked.pc = x.pc := rfl

@[simp] theorem Ctx.onView_self (x : Ctx) (p : Bool) : (x.onView p fun w => w) = x := by
  cases p <;> simp [Ctx.onView]

/-- A core changed in a part that is no context of it. -/
theorem State.ctx_setCore_same (s : State) {l : Loc} {k : Core} (h : k.ctx l.ctx = (s.core l.core).ctx l.ctx) :
    (s.setCore l.core k).ctx l = s.ctx l := by
  unfold State.ctx
  rw [State.core_setCore, h]

/-- What an operation does at the end of its bundle leaves the fences of its context: CRW alone does anything (R245). -/
@[simp] theorem finish_fence (op : Op) (s : State) (l : Loc) (o : Opd) :
    (((opSem op).finish s l o).ctx l).fence = (s.ctx l).fence := by
  cases op
  case crw =>
    show ((s.writeControl l o o.b.toNat).ctx l).fence = _
    unfold State.writeControl State.setQueue
    dsimp only
    split
    · rw [State.ctx_setCore_same]
      · split <;> simp
      · rfl
    · rw [State.ctx_setCore_same]
      · split <;> simp
      · rfl
    · rfl
  all_goals rfl

/-- Every operation but CRW is over when it has acted. -/
theorem finish_eq {op : Op} (h : op ≠ .crw) (s : State) (l : Loc) (o : Opd) : (opSem op).finish s l o = s := by
  cases op
  case crw => exact absurd rfl h
  all_goals rfl

/-- No fence of its bundle keeps a trigger that stands alone. -/
theorem actOrWait_one (sem : Op → OpSem) (s : State) (l : Loc) (o : Opd) : s.actOrWait sem l [.trig o] o = (sem o.op).act s l o := by
  simp [State.actOrWait, Opd.fenced]

/-- The effects of a bundle with one trigger: its operation acts, the increments, the end of the bundle, and what follows at its boundary. -/
theorem perform_one {s : State} {l : Loc} {o : Opd} (hx : (s.ctx l).resolving = false)
    (hf : (((opSem o.op).after (((opSem o.op).act (s.setCtx l (s.ctx l).unmarked) l o).closeBundle l o
      ((s.core l.core).vcount l.ctx) (s.ctx l).cur.looping) l o).ctx l).fence = []) :
    s.perform (fun _ => opSem o.op) l [.trig o] =
      (opSem o.op).after (((opSem o.op).act (s.setCtx l (s.ctx l).unmarked) l o).closeBundle l o
        ((s.core l.core).vcount l.ctx) (s.ctx l).cur.looping) l o := by
  unfold State.perform State.applyMoves
  simp only [List.foldl_cons, List.foldl_nil, actOrWait_one]
  have h1 : (s.setCtx l (s.ctx l).unmarked).onView l (RMove.trig o).prov
      (fun w => w.latchMove (RMove.trig o)) = s.setCtx l (s.ctx l).unmarked := by
    rw [State.onView_setCtx]
    exact congrArg _ (Ctx.onView_self _ _)
  simp only [h1]
  generalize (opSem o.op).act (s.setCtx l (s.ctx l).unmarked) l o = u at hf
  simp only [State.closeBundle, State.onView_ctx] at hf ⊢
  simp [hf, hx]

/-- A trigger row that accesses no memory issues (R29, R392): the whole next state. -/
theorem exec_boundary {i : Instr} {s : State} {l : Loc} {o : Opd} (hr : s.ready l i o) (hp : (s.take l).passes l o)
    (hacc : (opSem o.op).access = none)
    (hf : (((opSem o.op).after (((opSem o.op).act (s.acting l) l o).closeBundle l o ((s.core l.core).vcount l.ctx)
      (s.ctx l).cur.looping) l o).ctx l).fence = []) :
    exec i s = .next
      ((opSem o.op).after (((opSem o.op).act (s.acting l) l o).closeBundle l o ((s.core l.core).vcount l.ctx)
        (s.ctx l).cur.looping) l o) := by
  obtain ⟨hi, hm, hx⟩ := hr
  rw [exec_operands hi hm hp, hacc]
  simp only [Option.isSome_none, Bool.false_eq_true, if_false]
  have hx' : ((s.issued l).ctx l).resolving = false := by simpa using hx.1
  have e : (s.issued l).setCtx l ((s.issued l).ctx l).unmarked = s.acting l := by simp [State.acting]
  have ev : ((s.issued l).core l.core).vcount l.ctx = (s.core l.core).vcount l.ctx := by simp
  have el : ((s.issued l).ctx l).cur.looping = (s.ctx l).cur.looping := by simp
  rw [perform_one hx' (by rw [e, ev, el]; exact hf), e, ev, el]

@[simp] theorem State.closeBundle_fence (s : State) (l : Loc) (o : Opd) (vc : Nat) (lp : Bool) :
    ((s.closeBundle l o vc lp).ctx l).fence = (s.ctx l).fence := by
  simp [State.closeBundle]

/-- A trigger row whose operation is over with its bundle issues (R29, R392): the whole next state. -/
theorem exec_acts {i : Instr} {s : State} {l : Loc} {o : Opd} (hr : s.ready l i o) (hp : (s.take l).passes l o)
    (hacc : (opSem o.op).access = none) (hafter : ∀ t, (opSem o.op).after t l o = t)
    (hf : (((opSem o.op).act (s.acting l) l o).ctx l).fence = []) :
    exec i s = .next (s.completed l o ((opSem o.op).act (s.acting l) l o)) := by
  unfold State.completed
  rw [exec_boundary hr hp hacc (by rw [hafter]; simpa using hf), hafter]

@[simp] theorem State.acting_ctx (s : State) (l : Loc) : (s.acting l).ctx l = (s.ctx l).unmarked := by
  simp [State.acting]

@[simp] theorem State.acting_vcount (s : State) (l : Loc) (c n : Nat) : ((s.acting l).core c).vcount n = (s.core c).vcount n := by
  simp [State.acting]

/-- A trigger row of fixed latency issues (R30, R392): the whole next state. -/
theorem exec_after {i : Instr} {s : State} {l : Loc} {o : Opd} {lat : Nat} {effs : List Eff} (hr : s.ready l i o)
    (hp : (s.take l).passes l o) (hacc : (opSem o.op).access = none) (hafter : ∀ t, (opSem o.op).after t l o = t)
    (hfin : ∀ t, (opSem o.op).finish t l o = t) (hact : (opSem o.op).act (s.acting l) l o = (s.acting l).after l o lat effs) :
    exec i s = .next (s.fixedNext l o lat effs) := by
  rw [exec_acts hr hp hacc hafter (by rw [hact]; simpa [State.after, State.fly] using hr.2.2.2), hact]
  unfold State.completed State.after State.fly State.closeBundle State.fixedNext Ctx.afterFixed State.acting
  rw [hfin]
  simp only [State.onView_setCtx, State.ctx_setCtx, State.setCtx_setCtx, Ctx.onView_onView]
  rfl

end Sys2Proof.Machine
end

