-- ==== Sys2Proof/Laws/Access.lean ====
section
/-!
SUPPORT. What acceptance of a memory access does, and which parts of the state translation and data look at.
-/

namespace Sys2Proof.Machine

/-- A row that accesses memory waits for acceptance (R194). -/
theorem exec_waits {i : Instr} {s : State} {l : Loc} {o : Opd} (hr : s.ready l i o) (hp : (s.take l).passes l o)
    (ha : (opSem o.op).access.isSome = true) : exec i s = .next (s.waiting l o) := by
  rw [exec_operands hr.1 hr.2.1 hp, ha]
  rfl

theorem State.core_running_setCtx (s : State) (l : Loc) (x : Ctx) (c : Nat) :
    ((s.setCtx l x).core c).running = (s.core c).running := by
  by_cases h : c = l.core
  · subst h; rw [State.core_setCtx]; rfl
  · rw [State.core_setCtx_ne _ h]

theorem State.core_taken_setCtx (s : State) (l : Loc) (x : Ctx) (c : Nat) :
    ((s.setCtx l x).core c).taken = (s.core c).taken := by
  by_cases h : c = l.core
  · subst h; rw [State.core_setCtx]; rfl
  · rw [State.core_setCtx_ne _ h]

/-- A context that leaves its core keeps everything but its mode and its wait. -/
theorem State.block_ctx (s : State) (l : Loc) (w : Wait) : (s.block l w).ctx l = { s.ctx l with mode := .blocked, wait := some w } := by
  unfold State.block
  dsimp only
  split
  · unfold State.ctx
    rw [State.core_setCore]
    show (Core.ctx { (s.setCtx l _).core l.core with running := none } l.ctx) = _
    exact State.ctx_setCtx s l _
  · simp

theorem State.waiting_ctx (s : State) (l : Loc) (o : Opd) :
    (s.waiting l o).ctx l = { s.ctx l with held := some [.trig o], mode := .blocked, wait := some .acceptance } := by
  unfold State.waiting
  rw [State.block_ctx]
  simp

/-- Acceptance of a bundle with one access that finds no fault and no reason to wait (R34, R194): its effects. -/
theorem accept_one {t : State} {l : Loc} {o : Opd} (hh : (t.ctx l).held = some [.trig o])
    {check : State → Loc → Opd → Option Trap} (hc : (opSem o.op).access = some check) (hn : check t l o = none)
    (hb : (opSem o.op).blocks t l o = false) : t.accept opSem l = (t.endWait l).perform opSem l [.trig o] := by
  unfold State.accept
  simp only [hh]
  simp [acceptTraps, hc, hn, firstTrap, RMove.waits, hb]

/-- Acceptance of a bundle whose one access has to wait after all (R34): the context waits for its bundle. -/
theorem accept_blocks {t : State} {l : Loc} {o : Opd} (hh : (t.ctx l).held = some [.trig o])
    {check : State → Loc → Opd → Option Trap} (hc : (opSem o.op).access = some check) (hn : check t l o = none)
    (hb : (opSem o.op).blocks t l o = true) :
    t.accept opSem l = t.setCtx l { t.ctx l with held := none, wait := some .bundle } := by
  unfold State.accept
  simp only [hh]
  simp [acceptTraps, hc, hn, firstTrap, RMove.waits, hb]

/-- Acceptance of a bundle with one access that finds a fault (R194): the trap, and no effect of the bundle. -/
theorem accept_fault {t : State} {l : Loc} {o : Opd} {tr : Trap} (hh : (t.ctx l).held = some [.trig o])
    {check : State → Loc → Opd → Option Trap} (hc : (opSem o.op).access = some check) (hn : check t l o = some tr)
    (hp : o.prov = false) : t.accept opSem l = (t.endWait l).takeTrap l tr o.slot false (t.ctx l).pc := by
  unfold State.accept
  simp only [hh]
  simp [acceptTraps, hc, hn, firstTrap, Exam.later, hp]

/-! ### Translation -/

/-- What translation and data look at: memory with its poison and its keys, the granules, the keys and the pavilions. -/
structure SameMemory (s t : State) : Prop where
  mem : s.mem = t.mem
  poison : s.poison = t.poison
  lineKey : s.lineKey = t.lineKey
  lineMeta : s.lineMeta = t.lineMeta
  tags : s.tags = t.tags
  granules : s.granules = t.granules
  keys : s.keys = t.keys
  pavs : s.pavs = t.pavs

theorem SameMemory.dev {s t : State} (h : SameMemory s t) (p d : Nat) : s.dev p d = t.dev p d := by
  simp only [State.dev, State.pav, h.pavs]

theorem SameMemory.keyAllows {s t : State} (h : SameMemory s t) (a : Accessor) (k : Nat) : s.keyAllows a k = t.keyAllows a k := by
  simp only [State.keyAllows, h.keys, h.dev]

theorem SameMemory.keyDead {s t : State} (h : SameMemory s t) (k : Nat) : s.keyDead k = t.keyDead k := by
  simp only [State.keyDead, h.keys]

theorem SameMemory.serialOf {s t : State} (h : SameMemory s t) (k : Nat) : s.serialOf k = t.serialOf k := by
  simp only [State.serialOf, h.keys]

theorem SameMemory.byteUnder {s t : State} (h : SameMemory s t) (k pa : Nat) : s.byteUnder k pa = t.byteUnder k pa := by
  simp only [State.byteUnder, h.lineKey, h.mem]

/-- A table entry reads the same, under its page's key or raw. -/
theorem SameMemory.tableWord {s t : State} (h : SameMemory s t) (p : TableAt) : s.tableWord p = t.tableWord p := by
  simp only [State.tableWord, h.mem, h.keyDead, h.serialOf, h.byteUnder]

/-- What translation looks at: memory, and the entries that are held (R363). -/
structure SameTables (s t : State) : Prop extends SameMemory s t where
  tlb : s.tlb = t.tlb
  waits : s.waits = t.waits

theorem SameMemory.tablePoisoned {s t : State} (h : SameMemory s t) (p : TableAt) : s.tablePoisoned p = t.tablePoisoned p := by
  unfold State.tablePoisoned
  rw [h.poison]
  cases p.kidx <;> simp only [h.keyDead]

theorem SameTables.tableEntry {s t : State} (h : SameTables s t) (a : Accessor) (stage : Nat) (write : Bool) (va : Nat) (lv : Level)
    (place : Except Nat TableAt) :
    Machine.tableEntry s a stage write va lv place = Machine.tableEntry t a stage write va lv place := by
  unfold Machine.tableEntry
  simp only [State.heldWord, h.tablePoisoned, h.tableWord, h.tlb, h.waits]

/-- A walk looks at the bytes, the keys and the poison of memory and at the entries that are held. -/
theorem SameTables.walkTable {s t : State} (h : SameTables s t) (a : Accessor) (stage : Nat) (write : Bool)
    (fetch : Level → Nat → Except Nat TableAt) (va : Nat) (ls : List Level) (table : Nat) :
    Machine.walkTable s a stage write fetch va ls table = Machine.walkTable t a stage write fetch va ls table := by
  induction ls generalizing table with
  | nil => rfl
  | cons lv rest ih =>
    simp only [Machine.walkTable, h.tableEntry, ih]

theorem SameTables.stage2 {s t : State} (h : SameTables s t) (a : Accessor) (ia : Nat) (w : Bool) :
    s.stage2 a ia w = t.stage2 a ia w := by
  simp only [State.stage2, State.pav, h.pavs, h.granules, h.keyAllows, h.walkTable]

theorem SameTables.translate {s t : State} (h : SameTables s t) (a : Accessor) (va : Nat) (w : Bool) :
    s.translate a va w = t.translate a va w := by
  have e : s.stage1Place a w = t.stage1Place a w := by
    funext lv ia
    simp only [State.stage1Place, h.stage2]
  simp only [State.translate, e, h.stage2, h.dev, h.walkTable]

theorem SameTables.translateParts {s t : State} (h : SameTables s t) (a : Accessor) (w : Bool) (ps : List (Nat × Nat)) :
    s.translateParts a w ps = t.translateParts a w ps := by
  induction ps with
  | nil => rfl
  | cons p rest ih =>
    obtain ⟨va, n⟩ := p
    simp only [State.translateParts, h.translate, ih]

theorem SameTables.range {s t : State} (h : SameTables s t) (a : Accessor) (va n : Nat) (w : Bool) :
    s.range a va n w = t.range a va n w := h.translateParts a w _

theorem SameMemory.readPiece {s t : State} (h : SameMemory s t) (p : Piece) : s.readPiece p = t.readPiece p := by
  simp only [State.readPiece, h.keyDead, h.serialOf, h.byteUnder]

theorem SameMemory.readRange {s t : State} (h : SameMemory s t) (ps : List Piece) : s.readRange ps = t.readRange ps := by
  have e : s.piecePoisoned = t.piecePoisoned := by
    funext p
    simp only [State.piecePoisoned, h.keyDead, h.poison]
  simp only [State.readRange, funext h.readPiece, e]

theorem SameMemory.setCore (s : State) (c : Nat) (k : Core) : SameMemory (s.setCore c k) s :=
  ⟨rfl, rfl, rfl, rfl, rfl, rfl, rfl, rfl⟩

theorem SameMemory.setCtx (s : State) (l : Loc) (x : Ctx) : SameMemory (s.setCtx l x) s :=
  ⟨rfl, rfl, rfl, rfl, rfl, rfl, rfl, rfl⟩

theorem SameMemory.onView (s : State) (l : Loc) (p : Bool) (f : View → View) : SameMemory (s.onView l p f) s :=
  ⟨rfl, rfl, rfl, rfl, rfl, rfl, rfl, rfl⟩

theorem SameMemory.trans {s t u : State} (h : SameMemory s t) (g : SameMemory t u) : SameMemory s u :=
  ⟨h.mem.trans g.mem, h.poison.trans g.poison, h.lineKey.trans g.lineKey, h.lineMeta.trans g.lineMeta, h.tags.trans g.tags,
    h.granules.trans g.granules, h.keys.trans g.keys, h.pavs.trans g.pavs⟩

/-- The end of a wait leaves memory as it was. -/
theorem SameMemory.endWait (s : State) (l : Loc) : SameMemory (s.endWait l) s := by
  unfold State.endWait
  dsimp only
  split
  · exact (SameMemory.setCore _ _ _).trans (SameMemory.setCtx _ _ _)
  · exact SameMemory.setCtx _ _ _

/-- A context or its wait changed: translations stay. -/
theorem SameTables.setCtx (s : State) (l : Loc) (x : Ctx) : SameTables (s.setCtx l x) s := ⟨.setCtx s l x, rfl, rfl⟩

theorem SameTables.endWait (s : State) (l : Loc) : SameTables (s.endWait l) s := by
  refine ⟨.endWait s l, ?_, ?_⟩ <;>
  · unfold State.endWait
    dsimp only
    split <;> rfl

/-- The ways of L2 that an access takes leave memory as it was. -/
theorem State.requestLine_same (s : State) (line k : Nat) : SameMemory (s.requestLine line k) s := by
  unfold State.requestLine State.request
  split <;> exact ⟨rfl, rfl, rfl, rfl, rfl, rfl, rfl, rfl⟩

theorem State.evict_same (s : State) (t set way : Nat) : SameMemory (s.evict t set way) s := by
  unfold State.evict
  split
  · exact ⟨rfl, rfl, rfl, rfl, rfl, rfl, rfl, rfl⟩
  · dsimp only
    split
    · exact (State.requestLine_same _ _ _).trans ⟨rfl, rfl, rfl, rfl, rfl, rfl, rfl, rfl⟩
    · exact ⟨rfl, rfl, rfl, rfl, rfl, rfl, rfl, rfl⟩

theorem State.requestMiss_same (s : State) (a : Accessor) (line k : Nat) : SameMemory (s.requestMiss a line k) s := by
  unfold State.requestMiss
  split
  · exact ⟨rfl, rfl, rfl, rfl, rfl, rfl, rfl, rfl⟩
  · exact State.requestLine_same s line k

theorem State.placeLine_same (s : State) (t line way k : Nat) : SameMemory (s.placeLine t line way k) s := by
  have h := State.evict_same s t (setOf line) way
  exact ⟨h.1, h.2, h.3, h.4, h.5, h.6, h.7, h.8⟩

theorem State.bring_same (s : State) (a : Accessor) (line k : Nat) : SameMemory
    (match (s.slice (sliceOf a.core)).find? line with
      | some _ => s
      | none =>
        match s.chooseWay a.pav a.vd (sliceOf a.core) (setOf line) with
        | none => s.requestMiss a line k
        | some w => (s.placeLine (sliceOf a.core) line w k).requestMiss a line k) s := by
  split
  · exact ⟨rfl, rfl, rfl, rfl, rfl, rfl, rfl, rfl⟩
  · split
    · exact State.requestMiss_same _ _ _ _
    · exact (State.requestMiss_same _ _ _ _).trans (State.placeLine_same _ _ _ _ _)

theorem State.dirty_same (s : State) (t line k : Nat) : SameMemory
    (match (s.slice t).find? line with
      | none => s.writeBack line
      | some e =>
        let s2 : State := { s with l2 := s.l2.set t ((s.slice t).set line { e with dirty := true, kidx := k }) }
        if e.dirty || (s2.home.find? line).isSome then s2
        else { s2 with home := s2.home.set line (s2.homeLine line) }) s := by
  split
  · exact ⟨rfl, rfl, rfl, rfl, rfl, rfl, rfl, rfl⟩
  · dsimp only
    split <;> exact ⟨rfl, rfl, rfl, rfl, rfl, rfl, rfl, rfl⟩

theorem State.touch_same (s : State) (a : Accessor) (line k : Nat) (w : Bool) : SameMemory (s.touch a line k w) s := by
  cases w
  · exact State.bring_same s a line k
  · have h0 : SameMemory (s.invalidateOthers (sliceOf a.core) line) s := ⟨rfl, rfl, rfl, rfl, rfl, rfl, rfl, rfl⟩
    exact (State.dirty_same _ _ _ _).trans ((State.bring_same _ a line k).trans h0)

theorem State.touchRange_same (s : State) (a : Accessor) (ps : List Piece) : SameMemory (s.touchRange a ps) s := by
  have h (u : State) : SameMemory (ps.foldl (fun s p => s.touch a (p.place.pa / 64) p.place.kidx false) u) u := by
    induction ps generalizing u with
    | nil => exact ⟨rfl, rfl, rfl, rfl, rfl, rfl, rfl, rfl⟩
    | cons p rest ih => exact (ih _).trans (State.touch_same _ _ _ _ _)
  exact (h _).trans ⟨rfl, rfl, rfl, rfl, rfl, rfl, rfl, rfl⟩

end Sys2Proof.Machine
end

