-- ==== Sys2Proof/Laws/Memory.lean ====
section
/-!
SUPPORT. The laws of memory: every write keeps the canonical form, reads give what was written, and other bytes stay.
-/

namespace Sys2Proof.Machine

theorem Memory.all_set {m : Memory} {a : Nat} {b : Byte} (hb : b ≠ 0) (h : m.all (fun c => decide (c.2 ≠ 0)) = true) :
    (Table.set m a b).all (fun c => decide (c.2 ≠ 0)) = true := by
  induction m with
  | nil => simpa [Table.set] using hb
  | cons e m ih =>
    obtain ⟨j, w⟩ := e
    simp only [List.all_cons, Bool.and_eq_true] at h
    unfold Table.set
    split
    · simp only [List.all_cons, Bool.and_eq_true]
      exact ⟨by simpa using hb, h.2⟩
    · split
      · simp only [List.all_cons, Bool.and_eq_true]
        exact ⟨by simpa using hb, h.1, h.2⟩
      · simp only [List.all_cons, Bool.and_eq_true]
        exact ⟨h.1, ih h.2⟩

theorem Memory.all_erase {m : Memory} (a : Nat) (h : m.all (fun c => decide (c.2 ≠ 0)) = true) :
    (Table.erase m a).all (fun c => decide (c.2 ≠ 0)) = true := by
  induction m with
  | nil => rfl
  | cons e m ih =>
    simp only [List.all_cons, Bool.and_eq_true] at h
    unfold Table.erase
    split
    · exact ih h.2
    · simp only [List.all_cons, Bool.and_eq_true]
      exact ⟨h.1, ih h.2⟩

/-- Writing a byte keeps the canonical form. -/
theorem Memory.wf_setByte {m : Memory} (h : m.wf = true) (a : Nat) (b : Byte) : (m.setByte a b).wf = true := by
  simp only [Memory.wf, Bool.and_eq_true] at h ⊢
  unfold Memory.setByte Table.put
  split
  · exact ⟨Table.risesFrom_erase a h.1, Memory.all_erase a h.2⟩
  · rename_i hb
    exact ⟨Table.risesFrom_set b h.1 (Nat.zero_le a), Memory.all_set hb h.2⟩

/-- Writing bytes keeps the canonical form. -/
theorem Memory.wf_setBytes {m : Memory} (h : m.wf = true) (a : Nat) (bs : List Byte) : (m.setBytes a bs).wf = true := by
  induction bs generalizing m a with
  | nil => exact h
  | cons b bs ih => exact ih (Memory.wf_setByte h a b) (a + 1)

/-- Writing a number keeps the canonical form. -/
theorem Memory.wf_setNat {m : Memory} (h : m.wf = true) (a n x : Nat) : (m.setNat a n x).wf = true := by
  induction n generalizing m a x with
  | zero => exact h
  | succ n ih => exact ih (Memory.wf_setByte h a _) (a + 1) (x / 256)

/-- A byte reads as it was written. -/
@[simp] theorem Memory.byte_setByte (m : Memory) (a : Nat) (b : Byte) : (m.setByte a b).byte a = b :=
  Table.getD_put_self m 0 a b

/-- A byte written leaves every other byte. -/
theorem Memory.byte_setByte_ne (m : Memory) {a c : Nat} (hc : c ≠ a) (b : Byte) : (m.setByte a b).byte c = m.byte c :=
  Table.getD_put_ne m 0 b hc

/-- Bytes written leave every byte outside. -/
theorem Memory.byte_setBytes_outside (m : Memory) {a c : Nat} (bs : List Byte) (hc : c < a ∨ a + bs.length ≤ c) :
    (m.setBytes a bs).byte c = m.byte c := by
  induction bs generalizing m a with
  | nil => rfl
  | cons b bs ih =>
    simp only [List.length_cons] at hc
    rw [Memory.setBytes, ih _ (by omega), Memory.byte_setByte_ne m (by omega)]

/-- Bytes read as they were written. -/
theorem Memory.byte_setBytes (m : Memory) (a i : Nat) (bs : List Byte) (hi : i < bs.length) :
    (m.setBytes a bs).byte (a + i) = bs[i] := by
  induction bs generalizing m a i with
  | nil => simp at hi
  | cons b bs ih =>
    rw [Memory.setBytes]
    cases i with
    | zero =>
      rw [Memory.byte_setBytes_outside _ bs (by omega)]
      simp
    | succ i =>
      have e : a + (i + 1) = a + 1 + i := by omega
      rw [e, ih _ (a + 1) i (by simpa using hi)]
      simp

/-- A number written leaves every byte outside. -/
theorem Memory.byte_setNat_outside (m : Memory) {a c n : Nat} (x : Nat) (hc : c < a ∨ a + n ≤ c) :
    (m.setNat a n x).byte c = m.byte c := by
  induction n generalizing m a x with
  | zero => rfl
  | succ n ih => rw [Memory.setNat, ih _ (x / 256) (by omega), Memory.byte_setByte_ne m (by omega)]

/-- Numbers of n bytes read alike from memories with those bytes alike. -/
theorem Memory.nat_congr {m m' : Memory} {a n : Nat} (h : ∀ i, a ≤ i → i < a + n → m.byte i = m'.byte i) :
    m.nat a n = m'.nat a n := by
  induction n generalizing a with
  | zero => rfl
  | succ n ih =>
    rw [Memory.nat, Memory.nat, h a (by omega) (by omega), ih (fun i h1 h2 => h i (by omega) (by omega))]

/-- A number of n bytes reads as it was written (R4). -/
theorem Memory.nat_setNat (m : Memory) (a n x : Nat) : (m.setNat a n x).nat a n = x % 256 ^ n := by
  induction n generalizing m a x with
  | zero => simp [Memory.nat, Nat.mod_one]
  | succ n ih =>
    rw [Memory.nat, Memory.setNat, ih, Memory.byte_setNat_outside _ (x / 256) (by omega), Memory.byte_setByte]
    simp only [BitVec.toNat_ofNat]
    rw [Nat.pow_succ 256 n, Nat.mul_comm (256 ^ n) 256, Nat.mod_mul]

/-- A number that a write does not reach reads as before. -/
theorem Memory.nat_setNat_outside (m : Memory) {a n c k : Nat} (x : Nat) (hc : c + k ≤ a ∨ a + n ≤ c) :
    (m.setNat a n x).nat c k = m.nat c k :=
  Memory.nat_congr fun _ h1 h2 => Memory.byte_setNat_outside m x (by omega)

end Sys2Proof.Machine
end

