-- ==== Sys2Proof/Laws/OpSem.lean ====
section
/-!
SUPPORT. The operation of each trigger, one equation for each.
-/

namespace Sys2Proof.Machine

theorem opSem_add : opSem .add = semAdd := rfl
theorem opSem_sub : opSem .sub = semSub := rfl
theorem opSem_mul : opSem .mul = semMul := rfl
theorem opSem_mulh : opSem .mulh = semMulh := rfl
theorem opSem_mulhn : opSem .mulhn = semMulhn := rfl
theorem opSem_and : opSem .and = semAnd := rfl
theorem opSem_or : opSem .or = semOr := rfl
theorem opSem_xor : opSem .xor = semXor := rfl
theorem opSem_andn : opSem .andn = semAndn := rfl
theorem opSem_shl : opSem .shl = semShl := rfl
theorem opSem_shr : opSem .shr = semShr := rfl
theorem opSem_sar : opSem .sar = semSar := rfl
theorem opSem_min : opSem .min = semMin := rfl
theorem opSem_max : opSem .max = semMax := rfl
theorem opSem_minn : opSem .minn = semMinn := rfl
theorem opSem_maxn : opSem .maxn = semMaxn := rfl
theorem opSem_clz : opSem .clz = semClz := rfl
theorem opSem_ctz : opSem .ctz = semCtz := rfl
theorem opSem_popc : opSem .popc = semPopc := rfl
theorem opSem_sext : opSem .sext = semSext := rfl
theorem opSem_zext : opSem .zext = semZext := rfl
theorem opSem_sel : opSem .sel = semSel := rfl
theorem opSem_cmpeq : opSem .cmpeq = semCmpeq := rfl
theorem opSem_cmpne : opSem .cmpne = semCmpne := rfl
theorem opSem_cmplt : opSem .cmplt = semCmplt := rfl
theorem opSem_cmple : opSem .cmple = semCmple := rfl
theorem opSem_cmpltn : opSem .cmpltn = semCmpltn := rfl
theorem opSem_cmplen : opSem .cmplen = semCmplen := rfl
theorem opSem_cderive : opSem .cderive = semCderive := rfl
theorem opSem_cnarrow : opSem .cnarrow = semCnarrow := rfl
theorem opSem_crestrict : opSem .crestrict = semCrestrict := rfl
theorem opSem_cinc : opSem .cinc = semCinc := rfl
theorem opSem_cbase : opSem .cbase = semCbase := rfl
theorem opSem_clen : opSem .clen = semClen := rfl
theorem opSem_cperm : opSem .cperm = semCperm := rfl
theorem opSem_cseal : opSem .cseal = semCseal := rfl
theorem opSem_cunseal : opSem .cunseal = semCunseal := rfl
theorem opSem_cvalid : opSem .cvalid = semCvalid := rfl
theorem opSem_jmp : opSem .jmp = semJmp := rfl
theorem opSem_jmpa : opSem .jmpa = semJmpa := rfl
theorem opSem_call : opSem .call = semCall := rfl
theorem opSem_calla : opSem .calla = semCalla := rfl
theorem opSem_ret : opSem .ret = semRet := rfl
theorem opSem_bmz : opSem .bmz = semBmz := rfl
theorem opSem_bmnz : opSem .bmnz = semBmnz := rfl
theorem opSem_mark : opSem .mark = semMark := rfl
theorem opSem_safe : opSem .safe = semSafe := rfl
theorem opSem_trap : opSem .trap = semTrap := rfl
theorem opSem_rte : opSem .rte = semRte := rfl
theorem opSem_yield : opSem .yield = semYield := rfl
theorem opSem_halt : opSem .halt = semHalt := rfl
theorem opSem_pand : opSem .pand = semPand := rfl
theorem opSem_por : opSem .por = semPor := rfl
theorem opSem_pxor : opSem .pxor = semPxor := rfl
theorem opSem_pandn : opSem .pandn = semPandn := rfl
theorem opSem_porn : opSem .porn = semPorn := rfl
theorem opSem_pnot : opSem .pnot = semPnot := rfl
theorem opSem_pset : opSem .pset = semPset := rfl
theorem opSem_gbase : opSem .gbase = semGbase := rfl
theorem opSem_crr : opSem .crr = semCrr := rfl
theorem opSem_crw : opSem .crw = semCrw := rfl
theorem opSem_qos : opSem .qos = semQos := rfl
theorem opSem_imm : opSem .imm = semImm := rfl
theorem opSem_cat : opSem .cat = semCat := rfl
theorem opSem_fadd : opSem .fadd = semFadd := rfl
theorem opSem_fsub : opSem .fsub = semFsub := rfl
theorem opSem_fmul : opSem .fmul = semFmul := rfl
theorem opSem_fma : opSem .fma = semFma := rfl
theorem opSem_fms : opSem .fms = semFms := rfl
theorem opSem_fnma : opSem .fnma = semFnma := rfl
theorem opSem_fmin : opSem .fmin = semFmin := rfl
theorem opSem_fmax : opSem .fmax = semFmax := rfl
theorem opSem_fabs : opSem .fabs = semFabs := rfl
theorem opSem_fneg : opSem .fneg = semFneg := rfl
theorem opSem_fcadd : opSem .fcadd = semFcadd := rfl
theorem opSem_fade : opSem .fade = semFade := rfl
theorem opSem_fademul : opSem .fademul = semFademul := rfl
theorem opSem_fadefma : opSem .fadefma = semFadefma := rfl
theorem opSem_fcmpeq : opSem .fcmpeq = semFcmpeq := rfl
theorem opSem_fcmplt : opSem .fcmplt = semFcmplt := rfl
theorem opSem_fcmple : opSem .fcmple = semFcmple := rfl
theorem opSem_iadd : opSem .iadd = semIadd := rfl
theorem opSem_isub : opSem .isub = semIsub := rfl
theorem opSem_imul : opSem .imul = semImul := rfl
theorem opSem_iand : opSem .iand = semIand := rfl
theorem opSem_ior : opSem .ior = semIor := rfl
theorem opSem_ixor : opSem .ixor = semIxor := rfl
theorem opSem_ishl : opSem .ishl = semIshl := rfl
theorem opSem_ishr : opSem .ishr = semIshr := rfl
theorem opSem_isar : opSem .isar = semIsar := rfl
theorem opSem_imin : opSem .imin = semImin := rfl
theorem opSem_imax : opSem .imax = semImax := rfl
theorem opSem_iminn : opSem .iminn = semIminn := rfl
theorem opSem_imaxn : opSem .imaxn = semImaxn := rfl
theorem opSem_icmpeq : opSem .icmpeq = semIcmpeq := rfl
theorem opSem_icmplt : opSem .icmplt = semIcmplt := rfl
theorem opSem_icmpltn : opSem .icmpltn = semIcmpltn := rfl
theorem opSem_cvtfi : opSem .cvtfi = semCvtfi := rfl
theorem opSem_cvtfiz : opSem .cvtfiz = semCvtfiz := rfl
theorem opSem_cvtif : opSem .cvtif = semCvtif := rfl
theorem opSem_cvtfb : opSem .cvtfb = semCvtfb := rfl
theorem opSem_cvtbf : opSem .cvtbf = semCvtbf := rfl
theorem opSem_vsel : opSem .vsel = semVsel := rfl
theorem opSem_vperm : opSem .vperm = semVperm := rfl
theorem opSem_vrot : opSem .vrot = semVrot := rfl
theorem opSem_xchg : opSem .xchg = semXchg := rfl
theorem opSem_radd : opSem .radd = semRadd := rfl
theorem opSem_rmax : opSem .rmax = semRmax := rfl
theorem opSem_rmin : opSem .rmin = semRmin := rfl
theorem opSem_mpush : opSem .mpush = semMpush := rfl
theorem opSem_minv : opSem .minv = semMinv := rfl
theorem opSem_mpop : opSem .mpop = semMpop := rfl
theorem opSem_mpeek : opSem .mpeek = semMpeek := rfl
theorem opSem_mreset : opSem .mreset = semMreset := rfl
theorem opSem_tdesc : opSem .tdesc = semTdesc := rfl
theorem opSem_tstat : opSem .tstat = semTstat := rfl
theorem opSem_tset : opSem .tset = semTset := rfl
theorem opSem_mcall : opSem .mcall = semMcall := rfl
theorem opSem_mwr : opSem .mwr = semMwr := rfl
theorem opSem_quant : opSem .quant = semQuant := rfl
theorem opSem_azero : opSem .azero = semAzero := rfl
theorem opSem_aread : opSem .aread = semAread := rfl
theorem opSem_awrite : opSem .awrite = semAwrite := rfl
theorem opSem_anorm : opSem .anorm = semAnorm := rfl
theorem opSem_acvt : opSem .acvt = semAcvt := rfl
theorem opSem_scfg : opSem .scfg = semScfg := rfl
theorem opSem_sload : opSem .sload = semSload := rfl
theorem opSem_scomp : opSem .scomp = semScomp := rfl
theorem opSem_scarry : opSem .scarry = semScarry := rfl
theorem opSem_sapply : opSem .sapply = semSapply := rfl
theorem opSem_sread : opSem .sread = semSread := rfl
theorem opSem_rcp : opSem .rcp = semRcp := rfl
theorem opSem_rsqrt : opSem .rsqrt = semRsqrt := rfl
theorem opSem_rcpstep : opSem .rcpstep = semRcpstep := rfl
theorem opSem_rsqstep : opSem .rsqstep = semRsqstep := rfl
theorem opSem_exp2 : opSem .exp2 = semExp2 := rfl
theorem opSem_log2 : opSem .log2 = semLog2 := rfl
theorem opSem_softplus : opSem .softplus = semSoftplus := rfl
theorem opSem_sigmoid : opSem .sigmoid = semSigmoid := rfl
theorem opSem_silu : opSem .silu = semSilu := rfl
theorem opSem_csort : opSem .csort = semCsort := rfl
theorem opSem_cmerge : opSem .cmerge = semCmerge := rfl
theorem opSem_cthr : opSem .cthr = semCthr := rfl
theorem opSem_cread : opSem .cread = semCread := rfl
theorem opSem_cclr : opSem .cclr = semCclr := rfl
theorem opSem_patch : opSem .patch = semPatch := rfl
theorem opSem_sety : opSem .sety = semSety := rfl
theorem opSem_setr : opSem .setr = semSetr := rfl
theorem opSem_gety : opSem .gety = semGety := rfl
theorem opSem_getr : opSem .getr = semGetr := rfl
theorem opSem_step : opSem .step = semStep := rfl
theorem opSem_start : opSem .start = semStart := rfl
theorem opSem_stop : opSem .stop = semStop := rfl
theorem opSem_dsave : opSem .dsave = semDsave := rfl
theorem opSem_dload : opSem .dload = semDload := rfl
theorem opSem_inject : opSem .inject = semInject := rfl
theorem opSem_cnt : opSem .cnt = semCnt := rfl
theorem opSem_fbind : opSem .fbind = semFbind := rfl
theorem opSem_fswap : opSem .fswap = semFswap := rfl
theorem opSem_snap : opSem .snap = semSnap := rfl
theorem opSem_fork : opSem .fork = semFork := rfl
theorem opSem_roll : opSem .roll = semRoll := rfl
theorem opSem_fdrop : opSem .fdrop = semFdrop := rfl
theorem opSem_fstat : opSem .fstat = semFstat := rfl
theorem opSem_ld8 : opSem .ld8 = semLd8 := rfl
theorem opSem_ld16 : opSem .ld16 = semLd16 := rfl
theorem opSem_ld32 : opSem .ld32 = semLd32 := rfl
theorem opSem_ld64 : opSem .ld64 = semLd64 := rfl
theorem opSem_ldn8 : opSem .ldn8 = semLdn8 := rfl
theorem opSem_ldn16 : opSem .ldn16 = semLdn16 := rfl
theorem opSem_ldn32 : opSem .ldn32 = semLdn32 := rfl
theorem opSem_ldc : opSem .ldc = semLdc := rfl
theorem opSem_st8 : opSem .st8 = semSt8 := rfl
theorem opSem_st16 : opSem .st16 = semSt16 := rfl
theorem opSem_st32 : opSem .st32 = semSt32 := rfl
theorem opSem_st64 : opSem .st64 = semSt64 := rfl
theorem opSem_stc : opSem .stc = semStc := rfl
theorem opSem_ldacq32 : opSem .ldacq32 = semLdacq32 := rfl
theorem opSem_ldacq64 : opSem .ldacq64 = semLdacq64 := rfl
theorem opSem_strel32 : opSem .strel32 = semStrel32 := rfl
theorem opSem_strel64 : opSem .strel64 = semStrel64 := rfl
theorem opSem_vld : opSem .vld = semVld := rfl
theorem opSem_vst : opSem .vst = semVst := rfl
theorem opSem_gath : opSem .gath = semGath := rfl
theorem opSem_scat : opSem .scat = semScat := rfl
theorem opSem_vldx : opSem .vldx = semVldx := rfl
theorem opSem_vstc : opSem .vstc = semVstc := rfl
theorem opSem_fence : opSem .fence = semFence := rfl
theorem opSem_fenceSc : opSem .fenceSc = semFenceSc := rfl
theorem opSem_xfence : opSem .xfence = semXfence := rfl
theorem opSem_hint : opSem .hint = semHint := rfl
theorem opSem_hres : opSem .hres = semHres := rfl
theorem opSem_cctl : opSem .cctl = semCctl := rfl
theorem opSem_brel : opSem .brel = semBrel := rfl
theorem opSem_copy : opSem .copy = semCopy := rfl
theorem opSem_twr : opSem .twr = semTwr := rfl
theorem opSem_atadd32 : opSem .atadd32 = semAtadd32 := rfl
theorem opSem_atadd64 : opSem .atadd64 = semAtadd64 := rfl
theorem opSem_atand : opSem .atand = semAtand := rfl
theorem opSem_ator : opSem .ator = semAtor := rfl
theorem opSem_atxor : opSem .atxor = semAtxor := rfl
theorem opSem_atmax : opSem .atmax = semAtmax := rfl
theorem opSem_atmin : opSem .atmin = semAtmin := rfl
theorem opSem_atswp : opSem .atswp = semAtswp := rfl
theorem opSem_cas64 : opSem .cas64 = semCas64 := rfl
theorem opSem_cas128 : opSem .cas128 = semCas128 := rfl
theorem opSem_qput : opSem .qput = semQput := rfl
theorem opSem_qget : opSem .qget = semQget := rfl
theorem opSem_qsel : opSem .qsel = semQsel := rfl
theorem opSem_rput : opSem .rput = semRput := rfl
theorem opSem_rget : opSem .rget = semRget := rfl
theorem opSem_launch : opSem .launch = semLaunch := rfl
theorem opSem_binit : opSem .binit = semBinit := rfl
theorem opSem_barr : opSem .barr = semBarr := rfl
theorem opSem_bwait : opSem .bwait = semBwait := rfl
theorem opSem_btest : opSem .btest = semBtest := rfl
theorem opSem_bexp : opSem .bexp = semBexp := rfl

end Sys2Proof.Machine
end

