-- ==== Sys2Proof/Laws/PerInstr.lean ====
section
/-!
SUPPORT. What holds of every row of the opcode table as syntax: the family Rows says that the unit, the operation and the move of a row that has an
encoding make that row again, and that the operation stands in its unit's code list.
-/

namespace Sys2Proof.Laws.Rows

open Sys2Proof

/-- A row with a trigger is the row of its unit, its operation and its move, and its operation is one of its unit's. -/
def Statement (i : Instr) : Prop :=
  ∀ u op m, i.trigger? = some (u, op, m) → unitNumberWf i = true → ofTrigger u op m = i ∧ op ∈ opsOf u.kind

/-- A row without a trigger has nothing to say. -/
theorem of_none {i : Instr} (h : i.trigger? = none) : Statement i := fun u op m e => by rw [h] at e; cases e

/-- A row of a unit that its constructor names. -/
theorem of_some {i : Instr} {u : UnitId} {op : Op} {m : Mv} (h : i.trigger? = some (u, op, m)) (e : ofTrigger u op m = i)
    (k : op ∈ opsOf u.kind) : Statement i := fun v o n g _ => by
  rw [h] at g; cases g; exact ⟨e, k⟩

/-- A row of sx: its number is 0 or 1. -/
theorem of_sx {f : Nat → Instr} {op : Op} {m : Mv} {unit : Nat} (h : ∀ n, (f n).trigger? = some (sxUnit n, op, m))
    (w : ∀ n, unitNumberWf (f n) = decide (n < 2)) (a : ofTrigger .sx0 op m = f 0) (b : ofTrigger .sx1 op m = f 1)
    (k : op ∈ opsOf .sx) : Statement (f unit) := fun u o n g q => by
  rw [h] at g
  cases g
  rw [w, decide_eq_true_eq] at q
  obtain rfl | rfl : unit = 0 ∨ unit = 1 := by omega
  · exact ⟨a, k⟩
  · exact ⟨b, k⟩

/-- A row of vx: its number is 0, 1 or 2. -/
theorem of_vx {f : Nat → Instr} {op : Op} {m : Mv} {unit : Nat} (h : ∀ n, (f n).trigger? = some (vxUnit n, op, m))
    (w : ∀ n, unitNumberWf (f n) = decide (n < 3)) (a : ofTrigger .vx0 op m = f 0) (b : ofTrigger .vx1 op m = f 1)
    (c : ofTrigger .vx2 op m = f 2) (k : op ∈ opsOf .vx) : Statement (f unit) := fun u o n g q => by
  rw [h] at g
  cases g
  rw [w, decide_eq_true_eq] at q
  obtain rfl | rfl | rfl : unit = 0 ∨ unit = 1 ∨ unit = 2 := by omega
  · exact ⟨a, k⟩
  · exact ⟨b, k⟩
  · exact ⟨c, k⟩

theorem transportMove (b : List Item) : Statement (.transportMove b) := of_none rfl
theorem blockClear (core ctx : Nat) : Statement (.blockClear core ctx) := of_none rfl
theorem contextSelect (core : Nat) : Statement (.contextSelect core) := of_none rfl
theorem tokenRefill (arb : Nat) : Statement (.tokenRefill arb) := of_none rfl
theorem arbiterGrant (arb : Nat) : Statement (.arbiterGrant arb) := of_none rfl
theorem add (unit : Nat) (m : Mv) : Statement (.add unit m) :=
  of_sx (f := fun n => .add n m) (fun _ => rfl) (fun _ => rfl) rfl rfl (by decide)
theorem sub (unit : Nat) (m : Mv) : Statement (.sub unit m) :=
  of_sx (f := fun n => .sub n m) (fun _ => rfl) (fun _ => rfl) rfl rfl (by decide)
theorem mul (unit : Nat) (m : Mv) : Statement (.mul unit m) :=
  of_sx (f := fun n => .mul n m) (fun _ => rfl) (fun _ => rfl) rfl rfl (by decide)
theorem mulh (unit : Nat) (m : Mv) : Statement (.mulh unit m) :=
  of_sx (f := fun n => .mulh n m) (fun _ => rfl) (fun _ => rfl) rfl rfl (by decide)
theorem mulhn (unit : Nat) (m : Mv) : Statement (.mulhn unit m) :=
  of_sx (f := fun n => .mulhn n m) (fun _ => rfl) (fun _ => rfl) rfl rfl (by decide)
theorem and (unit : Nat) (m : Mv) : Statement (.and unit m) :=
  of_sx (f := fun n => .and n m) (fun _ => rfl) (fun _ => rfl) rfl rfl (by decide)
theorem or (unit : Nat) (m : Mv) : Statement (.or unit m) :=
  of_sx (f := fun n => .or n m) (fun _ => rfl) (fun _ => rfl) rfl rfl (by decide)
theorem xor (unit : Nat) (m : Mv) : Statement (.xor unit m) :=
  of_sx (f := fun n => .xor n m) (fun _ => rfl) (fun _ => rfl) rfl rfl (by decide)
theorem andn (unit : Nat) (m : Mv) : Statement (.andn unit m) :=
  of_sx (f := fun n => .andn n m) (fun _ => rfl) (fun _ => rfl) rfl rfl (by decide)
theorem shl (unit : Nat) (m : Mv) : Statement (.shl unit m) :=
  of_sx (f := fun n => .shl n m) (fun _ => rfl) (fun _ => rfl) rfl rfl (by decide)
theorem shr (unit : Nat) (m : Mv) : Statement (.shr unit m) :=
  of_sx (f := fun n => .shr n m) (fun _ => rfl) (fun _ => rfl) rfl rfl (by decide)
theorem sar (unit : Nat) (m : Mv) : Statement (.sar unit m) :=
  of_sx (f := fun n => .sar n m) (fun _ => rfl) (fun _ => rfl) rfl rfl (by decide)
theorem min (unit : Nat) (m : Mv) : Statement (.min unit m) :=
  of_sx (f := fun n => .min n m) (fun _ => rfl) (fun _ => rfl) rfl rfl (by decide)
theorem max (unit : Nat) (m : Mv) : Statement (.max unit m) :=
  of_sx (f := fun n => .max n m) (fun _ => rfl) (fun _ => rfl) rfl rfl (by decide)
theorem minn (unit : Nat) (m : Mv) : Statement (.minn unit m) :=
  of_sx (f := fun n => .minn n m) (fun _ => rfl) (fun _ => rfl) rfl rfl (by decide)
theorem maxn (unit : Nat) (m : Mv) : Statement (.maxn unit m) :=
  of_sx (f := fun n => .maxn n m) (fun _ => rfl) (fun _ => rfl) rfl rfl (by decide)
theorem clz (unit : Nat) (m : Mv) : Statement (.clz unit m) :=
  of_sx (f := fun n => .clz n m) (fun _ => rfl) (fun _ => rfl) rfl rfl (by decide)
theorem ctz (unit : Nat) (m : Mv) : Statement (.ctz unit m) :=
  of_sx (f := fun n => .ctz n m) (fun _ => rfl) (fun _ => rfl) rfl rfl (by decide)
theorem popc (unit : Nat) (m : Mv) : Statement (.popc unit m) :=
  of_sx (f := fun n => .popc n m) (fun _ => rfl) (fun _ => rfl) rfl rfl (by decide)
theorem sext (unit : Nat) (m : Mv) : Statement (.sext unit m) :=
  of_sx (f := fun n => .sext n m) (fun _ => rfl) (fun _ => rfl) rfl rfl (by decide)
theorem zext (unit : Nat) (m : Mv) : Statement (.zext unit m) :=
  of_sx (f := fun n => .zext n m) (fun _ => rfl) (fun _ => rfl) rfl rfl (by decide)
theorem sel (unit : Nat) (m : Mv) : Statement (.sel unit m) :=
  of_sx (f := fun n => .sel n m) (fun _ => rfl) (fun _ => rfl) rfl rfl (by decide)
theorem cmpeq (unit : Nat) (m : Mv) : Statement (.cmpeq unit m) :=
  of_sx (f := fun n => .cmpeq n m) (fun _ => rfl) (fun _ => rfl) rfl rfl (by decide)
theorem cmpne (unit : Nat) (m : Mv) : Statement (.cmpne unit m) :=
  of_sx (f := fun n => .cmpne n m) (fun _ => rfl) (fun _ => rfl) rfl rfl (by decide)
theorem cmplt (unit : Nat) (m : Mv) : Statement (.cmplt unit m) :=
  of_sx (f := fun n => .cmplt n m) (fun _ => rfl) (fun _ => rfl) rfl rfl (by decide)
theorem cmple (unit : Nat) (m : Mv) : Statement (.cmple unit m) :=
  of_sx (f := fun n => .cmple n m) (fun _ => rfl) (fun _ => rfl) rfl rfl (by decide)
theorem cmpltn (unit : Nat) (m : Mv) : Statement (.cmpltn unit m) :=
  of_sx (f := fun n => .cmpltn n m) (fun _ => rfl) (fun _ => rfl) rfl rfl (by decide)
theorem cmplen (unit : Nat) (m : Mv) : Statement (.cmplen unit m) :=
  of_sx (f := fun n => .cmplen n m) (fun _ => rfl) (fun _ => rfl) rfl rfl (by decide)
theorem cderive (unit : Nat) (m : Mv) : Statement (.cderive unit m) :=
  of_sx (f := fun n => .cderive n m) (fun _ => rfl) (fun _ => rfl) rfl rfl (by decide)
theorem cnarrow (unit : Nat) (m : Mv) : Statement (.cnarrow unit m) :=
  of_sx (f := fun n => .cnarrow n m) (fun _ => rfl) (fun _ => rfl) rfl rfl (by decide)
theorem crestrict (unit : Nat) (m : Mv) : Statement (.crestrict unit m) :=
  of_sx (f := fun n => .crestrict n m) (fun _ => rfl) (fun _ => rfl) rfl rfl (by decide)
theorem cinc (unit : Nat) (m : Mv) : Statement (.cinc unit m) :=
  of_sx (f := fun n => .cinc n m) (fun _ => rfl) (fun _ => rfl) rfl rfl (by decide)
theorem cbase (unit : Nat) (m : Mv) : Statement (.cbase unit m) :=
  of_sx (f := fun n => .cbase n m) (fun _ => rfl) (fun _ => rfl) rfl rfl (by decide)
theorem clen (unit : Nat) (m : Mv) : Statement (.clen unit m) :=
  of_sx (f := fun n => .clen n m) (fun _ => rfl) (fun _ => rfl) rfl rfl (by decide)
theorem cperm (unit : Nat) (m : Mv) : Statement (.cperm unit m) :=
  of_sx (f := fun n => .cperm n m) (fun _ => rfl) (fun _ => rfl) rfl rfl (by decide)
theorem cseal (unit : Nat) (m : Mv) : Statement (.cseal unit m) :=
  of_sx (f := fun n => .cseal n m) (fun _ => rfl) (fun _ => rfl) rfl rfl (by decide)
theorem cunseal (unit : Nat) (m : Mv) : Statement (.cunseal unit m) :=
  of_sx (f := fun n => .cunseal n m) (fun _ => rfl) (fun _ => rfl) rfl rfl (by decide)
theorem cvalid (unit : Nat) (m : Mv) : Statement (.cvalid unit m) :=
  of_sx (f := fun n => .cvalid n m) (fun _ => rfl) (fun _ => rfl) rfl rfl (by decide)
theorem jmp (m : Mv) : Statement (.jmp m) := of_some rfl rfl (by decide)
theorem jmpa (m : Mv) : Statement (.jmpa m) := of_some rfl rfl (by decide)
theorem call (m : Mv) : Statement (.call m) := of_some rfl rfl (by decide)
theorem calla (m : Mv) : Statement (.calla m) := of_some rfl rfl (by decide)
theorem ret (m : Mv) : Statement (.ret m) := of_some rfl rfl (by decide)
theorem bmz (m : Mv) : Statement (.bmz m) := of_some rfl rfl (by decide)
theorem bmnz (m : Mv) : Statement (.bmnz m) := of_some rfl rfl (by decide)
theorem mark (m : Mv) : Statement (.mark m) := of_some rfl rfl (by decide)
theorem safe (m : Mv) : Statement (.safe m) := of_some rfl rfl (by decide)
theorem trap (m : Mv) : Statement (.trap m) := of_some rfl rfl (by decide)
theorem rte (m : Mv) : Statement (.rte m) := of_some rfl rfl (by decide)
theorem yield (m : Mv) : Statement (.yield m) := of_some rfl rfl (by decide)
theorem halt (m : Mv) : Statement (.halt m) := of_some rfl rfl (by decide)
theorem pand (m : Mv) : Statement (.pand m) := of_some rfl rfl (by decide)
theorem por (m : Mv) : Statement (.por m) := of_some rfl rfl (by decide)
theorem pxor (m : Mv) : Statement (.pxor m) := of_some rfl rfl (by decide)
theorem pandn (m : Mv) : Statement (.pandn m) := of_some rfl rfl (by decide)
theorem porn (m : Mv) : Statement (.porn m) := of_some rfl rfl (by decide)
theorem pnot (m : Mv) : Statement (.pnot m) := of_some rfl rfl (by decide)
theorem pset (m : Mv) : Statement (.pset m) := of_some rfl rfl (by decide)
theorem gbase (m : Mv) : Statement (.gbase m) := of_some rfl rfl (by decide)
theorem crr (m : Mv) : Statement (.crr m) := of_some rfl rfl (by decide)
theorem crw (m : Mv) : Statement (.crw m) := of_some rfl rfl (by decide)
theorem qos (m : Mv) : Statement (.qos m) := of_some rfl rfl (by decide)
theorem imm (m : Mv) : Statement (.imm m) := of_some rfl rfl (by decide)
theorem cat (m : Mv) : Statement (.cat m) := of_some rfl rfl (by decide)
theorem fadd (unit : Nat) (m : Mv) : Statement (.fadd unit m) :=
  of_vx (f := fun n => .fadd n m) (fun _ => rfl) (fun _ => rfl) rfl rfl rfl (by decide)
theorem fsub (unit : Nat) (m : Mv) : Statement (.fsub unit m) :=
  of_vx (f := fun n => .fsub n m) (fun _ => rfl) (fun _ => rfl) rfl rfl rfl (by decide)
theorem fmul (unit : Nat) (m : Mv) : Statement (.fmul unit m) :=
  of_vx (f := fun n => .fmul n m) (fun _ => rfl) (fun _ => rfl) rfl rfl rfl (by decide)
theorem fma (unit : Nat) (m : Mv) : Statement (.fma unit m) :=
  of_vx (f := fun n => .fma n m) (fun _ => rfl) (fun _ => rfl) rfl rfl rfl (by decide)
theorem fms (unit : Nat) (m : Mv) : Statement (.fms unit m) :=
  of_vx (f := fun n => .fms n m) (fun _ => rfl) (fun _ => rfl) rfl rfl rfl (by decide)
theorem fnma (unit : Nat) (m : Mv) : Statement (.fnma unit m) :=
  of_vx (f := fun n => .fnma n m) (fun _ => rfl) (fun _ => rfl) rfl rfl rfl (by decide)
theorem fmin (unit : Nat) (m : Mv) : Statement (.fmin unit m) :=
  of_vx (f := fun n => .fmin n m) (fun _ => rfl) (fun _ => rfl) rfl rfl rfl (by decide)
theorem fmax (unit : Nat) (m : Mv) : Statement (.fmax unit m) :=
  of_vx (f := fun n => .fmax n m) (fun _ => rfl) (fun _ => rfl) rfl rfl rfl (by decide)
theorem fabs (unit : Nat) (m : Mv) : Statement (.fabs unit m) :=
  of_vx (f := fun n => .fabs n m) (fun _ => rfl) (fun _ => rfl) rfl rfl rfl (by decide)
theorem fneg (unit : Nat) (m : Mv) : Statement (.fneg unit m) :=
  of_vx (f := fun n => .fneg n m) (fun _ => rfl) (fun _ => rfl) rfl rfl rfl (by decide)
theorem fcadd (unit : Nat) (m : Mv) : Statement (.fcadd unit m) :=
  of_vx (f := fun n => .fcadd n m) (fun _ => rfl) (fun _ => rfl) rfl rfl rfl (by decide)
theorem fade (unit : Nat) (m : Mv) : Statement (.fade unit m) :=
  of_vx (f := fun n => .fade n m) (fun _ => rfl) (fun _ => rfl) rfl rfl rfl (by decide)
theorem fademul (unit : Nat) (m : Mv) : Statement (.fademul unit m) :=
  of_vx (f := fun n => .fademul n m) (fun _ => rfl) (fun _ => rfl) rfl rfl rfl (by decide)
theorem fadefma (unit : Nat) (m : Mv) : Statement (.fadefma unit m) :=
  of_vx (f := fun n => .fadefma n m) (fun _ => rfl) (fun _ => rfl) rfl rfl rfl (by decide)
theorem fcmpeq (unit : Nat) (m : Mv) : Statement (.fcmpeq unit m) :=
  of_vx (f := fun n => .fcmpeq n m) (fun _ => rfl) (fun _ => rfl) rfl rfl rfl (by decide)
theorem fcmplt (unit : Nat) (m : Mv) : Statement (.fcmplt unit m) :=
  of_vx (f := fun n => .fcmplt n m) (fun _ => rfl) (fun _ => rfl) rfl rfl rfl (by decide)
theorem fcmple (unit : Nat) (m : Mv) : Statement (.fcmple unit m) :=
  of_vx (f := fun n => .fcmple n m) (fun _ => rfl) (fun _ => rfl) rfl rfl rfl (by decide)
theorem iadd (unit : Nat) (m : Mv) : Statement (.iadd unit m) :=
  of_vx (f := fun n => .iadd n m) (fun _ => rfl) (fun _ => rfl) rfl rfl rfl (by decide)
theorem isub (unit : Nat) (m : Mv) : Statement (.isub unit m) :=
  of_vx (f := fun n => .isub n m) (fun _ => rfl) (fun _ => rfl) rfl rfl rfl (by decide)
theorem imul (unit : Nat) (m : Mv) : Statement (.imul unit m) :=
  of_vx (f := fun n => .imul n m) (fun _ => rfl) (fun _ => rfl) rfl rfl rfl (by decide)
theorem iand (unit : Nat) (m : Mv) : Statement (.iand unit m) :=
  of_vx (f := fun n => .iand n m) (fun _ => rfl) (fun _ => rfl) rfl rfl rfl (by decide)
theorem ior (unit : Nat) (m : Mv) : Statement (.ior unit m) :=
  of_vx (f := fun n => .ior n m) (fun _ => rfl) (fun _ => rfl) rfl rfl rfl (by decide)
theorem ixor (unit : Nat) (m : Mv) : Statement (.ixor unit m) :=
  of_vx (f := fun n => .ixor n m) (fun _ => rfl) (fun _ => rfl) rfl rfl rfl (by decide)
theorem ishl (unit : Nat) (m : Mv) : Statement (.ishl unit m) :=
  of_vx (f := fun n => .ishl n m) (fun _ => rfl) (fun _ => rfl) rfl rfl rfl (by decide)
theorem ishr (unit : Nat) (m : Mv) : Statement (.ishr unit m) :=
  of_vx (f := fun n => .ishr n m) (fun _ => rfl) (fun _ => rfl) rfl rfl rfl (by decide)
theorem isar (unit : Nat) (m : Mv) : Statement (.isar unit m) :=
  of_vx (f := fun n => .isar n m) (fun _ => rfl) (fun _ => rfl) rfl rfl rfl (by decide)
theorem imin (unit : Nat) (m : Mv) : Statement (.imin unit m) :=
  of_vx (f := fun n => .imin n m) (fun _ => rfl) (fun _ => rfl) rfl rfl rfl (by decide)
theorem imax (unit : Nat) (m : Mv) : Statement (.imax unit m) :=
  of_vx (f := fun n => .imax n m) (fun _ => rfl) (fun _ => rfl) rfl rfl rfl (by decide)
theorem iminn (unit : Nat) (m : Mv) : Statement (.iminn unit m) :=
  of_vx (f := fun n => .iminn n m) (fun _ => rfl) (fun _ => rfl) rfl rfl rfl (by decide)
theorem imaxn (unit : Nat) (m : Mv) : Statement (.imaxn unit m) :=
  of_vx (f := fun n => .imaxn n m) (fun _ => rfl) (fun _ => rfl) rfl rfl rfl (by decide)
theorem icmpeq (unit : Nat) (m : Mv) : Statement (.icmpeq unit m) :=
  of_vx (f := fun n => .icmpeq n m) (fun _ => rfl) (fun _ => rfl) rfl rfl rfl (by decide)
theorem icmplt (unit : Nat) (m : Mv) : Statement (.icmplt unit m) :=
  of_vx (f := fun n => .icmplt n m) (fun _ => rfl) (fun _ => rfl) rfl rfl rfl (by decide)
theorem icmpltn (unit : Nat) (m : Mv) : Statement (.icmpltn unit m) :=
  of_vx (f := fun n => .icmpltn n m) (fun _ => rfl) (fun _ => rfl) rfl rfl rfl (by decide)
theorem cvtfi (unit : Nat) (m : Mv) : Statement (.cvtfi unit m) :=
  of_vx (f := fun n => .cvtfi n m) (fun _ => rfl) (fun _ => rfl) rfl rfl rfl (by decide)
theorem cvtfiz (unit : Nat) (m : Mv) : Statement (.cvtfiz unit m) :=
  of_vx (f := fun n => .cvtfiz n m) (fun _ => rfl) (fun _ => rfl) rfl rfl rfl (by decide)
theorem cvtif (unit : Nat) (m : Mv) : Statement (.cvtif unit m) :=
  of_vx (f := fun n => .cvtif n m) (fun _ => rfl) (fun _ => rfl) rfl rfl rfl (by decide)
theorem cvtfb (unit : Nat) (m : Mv) : Statement (.cvtfb unit m) :=
  of_vx (f := fun n => .cvtfb n m) (fun _ => rfl) (fun _ => rfl) rfl rfl rfl (by decide)
theorem cvtbf (unit : Nat) (m : Mv) : Statement (.cvtbf unit m) :=
  of_vx (f := fun n => .cvtbf n m) (fun _ => rfl) (fun _ => rfl) rfl rfl rfl (by decide)
theorem vsel (unit : Nat) (m : Mv) : Statement (.vsel unit m) :=
  of_vx (f := fun n => .vsel n m) (fun _ => rfl) (fun _ => rfl) rfl rfl rfl (by decide)
theorem vperm (unit : Nat) (m : Mv) : Statement (.vperm unit m) :=
  of_vx (f := fun n => .vperm n m) (fun _ => rfl) (fun _ => rfl) rfl rfl rfl (by decide)
theorem vrot (unit : Nat) (m : Mv) : Statement (.vrot unit m) :=
  of_vx (f := fun n => .vrot n m) (fun _ => rfl) (fun _ => rfl) rfl rfl rfl (by decide)
theorem xchg (unit : Nat) (m : Mv) : Statement (.xchg unit m) :=
  of_vx (f := fun n => .xchg n m) (fun _ => rfl) (fun _ => rfl) rfl rfl rfl (by decide)
theorem radd (unit : Nat) (m : Mv) : Statement (.radd unit m) :=
  of_vx (f := fun n => .radd n m) (fun _ => rfl) (fun _ => rfl) rfl rfl rfl (by decide)
theorem rmax (unit : Nat) (m : Mv) : Statement (.rmax unit m) :=
  of_vx (f := fun n => .rmax n m) (fun _ => rfl) (fun _ => rfl) rfl rfl rfl (by decide)
theorem rmin (unit : Nat) (m : Mv) : Statement (.rmin unit m) :=
  of_vx (f := fun n => .rmin n m) (fun _ => rfl) (fun _ => rfl) rfl rfl rfl (by decide)
theorem mpush (m : Mv) : Statement (.mpush m) := of_some rfl rfl (by decide)
theorem minv (m : Mv) : Statement (.minv m) := of_some rfl rfl (by decide)
theorem mpop (m : Mv) : Statement (.mpop m) := of_some rfl rfl (by decide)
theorem mpeek (m : Mv) : Statement (.mpeek m) := of_some rfl rfl (by decide)
theorem mreset (m : Mv) : Statement (.mreset m) := of_some rfl rfl (by decide)
theorem tdesc (m : Mv) : Statement (.tdesc m) := of_some rfl rfl (by decide)
theorem tstat (m : Mv) : Statement (.tstat m) := of_some rfl rfl (by decide)
theorem tset (m : Mv) : Statement (.tset m) := of_some rfl rfl (by decide)
theorem mcall (m : Mv) : Statement (.mcall m) := of_some rfl rfl (by decide)
theorem mwr (m : Mv) : Statement (.mwr m) := of_some rfl rfl (by decide)
theorem quant (m : Mv) : Statement (.quant m) := of_some rfl rfl (by decide)
theorem azero (m : Mv) : Statement (.azero m) := of_some rfl rfl (by decide)
theorem aread (m : Mv) : Statement (.aread m) := of_some rfl rfl (by decide)
theorem awrite (m : Mv) : Statement (.awrite m) := of_some rfl rfl (by decide)
theorem anorm (m : Mv) : Statement (.anorm m) := of_some rfl rfl (by decide)
theorem acvt (m : Mv) : Statement (.acvt m) := of_some rfl rfl (by decide)
theorem scfg (m : Mv) : Statement (.scfg m) := of_some rfl rfl (by decide)
theorem sload (m : Mv) : Statement (.sload m) := of_some rfl rfl (by decide)
theorem scomp (m : Mv) : Statement (.scomp m) := of_some rfl rfl (by decide)
theorem scarry (m : Mv) : Statement (.scarry m) := of_some rfl rfl (by decide)
theorem sapply (m : Mv) : Statement (.sapply m) := of_some rfl rfl (by decide)
theorem sread (m : Mv) : Statement (.sread m) := of_some rfl rfl (by decide)
theorem rcp (m : Mv) : Statement (.rcp m) := of_some rfl rfl (by decide)
theorem rsqrt (m : Mv) : Statement (.rsqrt m) := of_some rfl rfl (by decide)
theorem rcpstep (m : Mv) : Statement (.rcpstep m) := of_some rfl rfl (by decide)
theorem rsqstep (m : Mv) : Statement (.rsqstep m) := of_some rfl rfl (by decide)
theorem exp2 (m : Mv) : Statement (.exp2 m) := of_some rfl rfl (by decide)
theorem log2 (m : Mv) : Statement (.log2 m) := of_some rfl rfl (by decide)
theorem softplus (m : Mv) : Statement (.softplus m) := of_some rfl rfl (by decide)
theorem sigmoid (m : Mv) : Statement (.sigmoid m) := of_some rfl rfl (by decide)
theorem silu (m : Mv) : Statement (.silu m) := of_some rfl rfl (by decide)
theorem csort (m : Mv) : Statement (.csort m) := of_some rfl rfl (by decide)
theorem cmerge (m : Mv) : Statement (.cmerge m) := of_some rfl rfl (by decide)
theorem cthr (m : Mv) : Statement (.cthr m) := of_some rfl rfl (by decide)
theorem cread (m : Mv) : Statement (.cread m) := of_some rfl rfl (by decide)
theorem cclr (m : Mv) : Statement (.cclr m) := of_some rfl rfl (by decide)
theorem patch (m : Mv) : Statement (.patch m) := of_some rfl rfl (by decide)
theorem sety (m : Mv) : Statement (.sety m) := of_some rfl rfl (by decide)
theorem setr (m : Mv) : Statement (.setr m) := of_some rfl rfl (by decide)
theorem gety (m : Mv) : Statement (.gety m) := of_some rfl rfl (by decide)
theorem getr (m : Mv) : Statement (.getr m) := of_some rfl rfl (by decide)
theorem step (m : Mv) : Statement (.step m) := of_some rfl rfl (by decide)
theorem start (m : Mv) : Statement (.start m) := of_some rfl rfl (by decide)
theorem stop (m : Mv) : Statement (.stop m) := of_some rfl rfl (by decide)
theorem dsave (m : Mv) : Statement (.dsave m) := of_some rfl rfl (by decide)
theorem dload (m : Mv) : Statement (.dload m) := of_some rfl rfl (by decide)
theorem inject (m : Mv) : Statement (.inject m) := of_some rfl rfl (by decide)
theorem cnt (m : Mv) : Statement (.cnt m) := of_some rfl rfl (by decide)
theorem fbind (m : Mv) : Statement (.fbind m) := of_some rfl rfl (by decide)
theorem fswap (m : Mv) : Statement (.fswap m) := of_some rfl rfl (by decide)
theorem snap (m : Mv) : Statement (.snap m) := of_some rfl rfl (by decide)
theorem fork (m : Mv) : Statement (.fork m) := of_some rfl rfl (by decide)
theorem roll (m : Mv) : Statement (.roll m) := of_some rfl rfl (by decide)
theorem fdrop (m : Mv) : Statement (.fdrop m) := of_some rfl rfl (by decide)
theorem fstat (m : Mv) : Statement (.fstat m) := of_some rfl rfl (by decide)
theorem ld8Ls0 (m : Mv) : Statement (.ld8Ls0 m) := of_some rfl rfl (by decide)
theorem ld8Ls1 (m : Mv) : Statement (.ld8Ls1 m) := of_some rfl rfl (by decide)
theorem ld16Ls0 (m : Mv) : Statement (.ld16Ls0 m) := of_some rfl rfl (by decide)
theorem ld16Ls1 (m : Mv) : Statement (.ld16Ls1 m) := of_some rfl rfl (by decide)
theorem ld32Ls0 (m : Mv) : Statement (.ld32Ls0 m) := of_some rfl rfl (by decide)
theorem ld32Ls1 (m : Mv) : Statement (.ld32Ls1 m) := of_some rfl rfl (by decide)
theorem ld64Ls0 (m : Mv) : Statement (.ld64Ls0 m) := of_some rfl rfl (by decide)
theorem ld64Ls1 (m : Mv) : Statement (.ld64Ls1 m) := of_some rfl rfl (by decide)
theorem ldn8Ls0 (m : Mv) : Statement (.ldn8Ls0 m) := of_some rfl rfl (by decide)
theorem ldn8Ls1 (m : Mv) : Statement (.ldn8Ls1 m) := of_some rfl rfl (by decide)
theorem ldn16Ls0 (m : Mv) : Statement (.ldn16Ls0 m) := of_some rfl rfl (by decide)
theorem ldn16Ls1 (m : Mv) : Statement (.ldn16Ls1 m) := of_some rfl rfl (by decide)
theorem ldn32Ls0 (m : Mv) : Statement (.ldn32Ls0 m) := of_some rfl rfl (by decide)
theorem ldn32Ls1 (m : Mv) : Statement (.ldn32Ls1 m) := of_some rfl rfl (by decide)
theorem ldcLs0 (m : Mv) : Statement (.ldcLs0 m) := of_some rfl rfl (by decide)
theorem ldcLs1 (m : Mv) : Statement (.ldcLs1 m) := of_some rfl rfl (by decide)
theorem st8Ls0 (m : Mv) : Statement (.st8Ls0 m) := of_some rfl rfl (by decide)
theorem st8Ls1 (m : Mv) : Statement (.st8Ls1 m) := of_some rfl rfl (by decide)
theorem st16Ls0 (m : Mv) : Statement (.st16Ls0 m) := of_some rfl rfl (by decide)
theorem st16Ls1 (m : Mv) : Statement (.st16Ls1 m) := of_some rfl rfl (by decide)
theorem st32Ls0 (m : Mv) : Statement (.st32Ls0 m) := of_some rfl rfl (by decide)
theorem st32Ls1 (m : Mv) : Statement (.st32Ls1 m) := of_some rfl rfl (by decide)
theorem st64Ls0 (m : Mv) : Statement (.st64Ls0 m) := of_some rfl rfl (by decide)
theorem st64Ls1 (m : Mv) : Statement (.st64Ls1 m) := of_some rfl rfl (by decide)
theorem stcLs0 (m : Mv) : Statement (.stcLs0 m) := of_some rfl rfl (by decide)
theorem stcLs1 (m : Mv) : Statement (.stcLs1 m) := of_some rfl rfl (by decide)
theorem ldacq32Ls0 (m : Mv) : Statement (.ldacq32Ls0 m) := of_some rfl rfl (by decide)
theorem ldacq32Ls1 (m : Mv) : Statement (.ldacq32Ls1 m) := of_some rfl rfl (by decide)
theorem ldacq64Ls0 (m : Mv) : Statement (.ldacq64Ls0 m) := of_some rfl rfl (by decide)
theorem ldacq64Ls1 (m : Mv) : Statement (.ldacq64Ls1 m) := of_some rfl rfl (by decide)
theorem strel32Ls0 (m : Mv) : Statement (.strel32Ls0 m) := of_some rfl rfl (by decide)
theorem strel32Ls1 (m : Mv) : Statement (.strel32Ls1 m) := of_some rfl rfl (by decide)
theorem strel64Ls0 (m : Mv) : Statement (.strel64Ls0 m) := of_some rfl rfl (by decide)
theorem strel64Ls1 (m : Mv) : Statement (.strel64Ls1 m) := of_some rfl rfl (by decide)
theorem vldLs0 (m : Mv) : Statement (.vldLs0 m) := of_some rfl rfl (by decide)
theorem vldLs1 (m : Mv) : Statement (.vldLs1 m) := of_some rfl rfl (by decide)
theorem vstLs0 (m : Mv) : Statement (.vstLs0 m) := of_some rfl rfl (by decide)
theorem vstLs1 (m : Mv) : Statement (.vstLs1 m) := of_some rfl rfl (by decide)
theorem gathLs0 (m : Mv) : Statement (.gathLs0 m) := of_some rfl rfl (by decide)
theorem gathLs1 (m : Mv) : Statement (.gathLs1 m) := of_some rfl rfl (by decide)
theorem scatLs0 (m : Mv) : Statement (.scatLs0 m) := of_some rfl rfl (by decide)
theorem scatLs1 (m : Mv) : Statement (.scatLs1 m) := of_some rfl rfl (by decide)
theorem vldxLs0 (m : Mv) : Statement (.vldxLs0 m) := of_some rfl rfl (by decide)
theorem vldxLs1 (m : Mv) : Statement (.vldxLs1 m) := of_some rfl rfl (by decide)
theorem vstcLs0 (m : Mv) : Statement (.vstcLs0 m) := of_some rfl rfl (by decide)
theorem vstcLs1 (m : Mv) : Statement (.vstcLs1 m) := of_some rfl rfl (by decide)
theorem fenceLs0 (m : Mv) : Statement (.fenceLs0 m) := of_some rfl rfl (by decide)
theorem fenceLs1 (m : Mv) : Statement (.fenceLs1 m) := of_some rfl rfl (by decide)
theorem fenceScLs0 (m : Mv) : Statement (.fenceScLs0 m) := of_some rfl rfl (by decide)
theorem fenceScLs1 (m : Mv) : Statement (.fenceScLs1 m) := of_some rfl rfl (by decide)
theorem xfenceLs0 (m : Mv) : Statement (.xfenceLs0 m) := of_some rfl rfl (by decide)
theorem xfenceLs1 (m : Mv) : Statement (.xfenceLs1 m) := of_some rfl rfl (by decide)
theorem hintLs0 (m : Mv) : Statement (.hintLs0 m) := of_some rfl rfl (by decide)
theorem hintLs1 (m : Mv) : Statement (.hintLs1 m) := of_some rfl rfl (by decide)
theorem hresLs0 (m : Mv) : Statement (.hresLs0 m) := of_some rfl rfl (by decide)
theorem hresLs1 (m : Mv) : Statement (.hresLs1 m) := of_some rfl rfl (by decide)
theorem cctlLs0 (m : Mv) : Statement (.cctlLs0 m) := of_some rfl rfl (by decide)
theorem cctlLs1 (m : Mv) : Statement (.cctlLs1 m) := of_some rfl rfl (by decide)
theorem brelLs0 (m : Mv) : Statement (.brelLs0 m) := of_some rfl rfl (by decide)
theorem brelLs1 (m : Mv) : Statement (.brelLs1 m) := of_some rfl rfl (by decide)
theorem copyCp0 (m : Mv) : Statement (.copyCp0 m) := of_some rfl rfl (by decide)
theorem copyCp1 (m : Mv) : Statement (.copyCp1 m) := of_some rfl rfl (by decide)
theorem twrCp0 (m : Mv) : Statement (.twrCp0 m) := of_some rfl rfl (by decide)
theorem twrCp1 (m : Mv) : Statement (.twrCp1 m) := of_some rfl rfl (by decide)
theorem atadd32 (m : Mv) : Statement (.atadd32 m) := of_some rfl rfl (by decide)
theorem atadd64 (m : Mv) : Statement (.atadd64 m) := of_some rfl rfl (by decide)
theorem atand (m : Mv) : Statement (.atand m) := of_some rfl rfl (by decide)
theorem ator (m : Mv) : Statement (.ator m) := of_some rfl rfl (by decide)
theorem atxor (m : Mv) : Statement (.atxor m) := of_some rfl rfl (by decide)
theorem atmax (m : Mv) : Statement (.atmax m) := of_some rfl rfl (by decide)
theorem atmin (m : Mv) : Statement (.atmin m) := of_some rfl rfl (by decide)
theorem atswp (m : Mv) : Statement (.atswp m) := of_some rfl rfl (by decide)
theorem cas64 (m : Mv) : Statement (.cas64 m) := of_some rfl rfl (by decide)
theorem cas128 (m : Mv) : Statement (.cas128 m) := of_some rfl rfl (by decide)
theorem qput (m : Mv) : Statement (.qput m) := of_some rfl rfl (by decide)
theorem qget (m : Mv) : Statement (.qget m) := of_some rfl rfl (by decide)
theorem qsel (m : Mv) : Statement (.qsel m) := of_some rfl rfl (by decide)
theorem rput (m : Mv) : Statement (.rput m) := of_some rfl rfl (by decide)
theorem rget (m : Mv) : Statement (.rget m) := of_some rfl rfl (by decide)
theorem launch (m : Mv) : Statement (.launch m) := of_some rfl rfl (by decide)
theorem binit (m : Mv) : Statement (.binit m) := of_some rfl rfl (by decide)
theorem barr (m : Mv) : Statement (.barr m) := of_some rfl rfl (by decide)
theorem bwait (m : Mv) : Statement (.bwait m) := of_some rfl rfl (by decide)
theorem btest (m : Mv) : Statement (.btest m) := of_some rfl rfl (by decide)
theorem bexp (m : Mv) : Statement (.bexp m) := of_some rfl rfl (by decide)
theorem accessAcceptance (core ctx : Nat) : Statement (.accessAcceptance core ctx) := of_none rfl
theorem longLatencyLanding (core ctx op : Nat) : Statement (.longLatencyLanding core ctx op) := of_none rfl
theorem mxOperationStart (core : Nat) : Statement (.mxOperationStart core) := of_none rfl
theorem mxWload (core : Nat) : Statement (.mxWload core) := of_none rfl
theorem mxStream (core : Nat) : Statement (.mxStream core) := of_none rfl
theorem mxPromote (core : Nat) : Statement (.mxPromote core) := of_none rfl
theorem mxLoop (core : Nat) : Statement (.mxLoop core) := of_none rfl
theorem mxNop (core : Nat) : Statement (.mxNop core) := of_none rfl
theorem mxEnd (core : Nat) : Statement (.mxEnd core) := of_none rfl
theorem mxOperationCompletion (core : Nat) : Statement (.mxOperationCompletion core) := of_none rfl
theorem scanOperationStart (core : Nat) : Statement (.scanOperationStart core) := of_none rfl
theorem scanBlock (core : Nat) : Statement (.scanBlock core) := of_none rfl
theorem frameOperationStart (core : Nat) : Statement (.frameOperationStart core) := of_none rfl
theorem frameOperationCompletion (core op : Nat) : Statement (.frameOperationCompletion core op) := of_none rfl
theorem copyBegin (core ch : Nat) : Statement (.copyBegin core ch) := of_none rfl
theorem copyCompletion (core ch op : Nat) : Statement (.copyCompletion core ch op) := of_none rfl
theorem launchRecordRead (pav vd entry : Nat) : Statement (.launchRecordRead pav vd entry) := of_none rfl
theorem domainStep (core dom : Nat) : Statement (.domainStep core dom) := of_none rfl
theorem ringMessageDelivery (msg : Nat) : Statement (.ringMessageDelivery msg) := of_none rfl
theorem creditReturn (core dir ch : Nat) : Statement (.creditReturn core dir ch) := of_none rfl
theorem packetPlacement (core dir slot free : Nat) : Statement (.packetPlacement core dir slot free) := of_none rfl
theorem dispatcherVisit (pav vd : Nat) : Statement (.dispatcherVisit pav vd) := of_none rfl
theorem taskBinding (core task : Nat) : Statement (.taskBinding core task) := of_none rfl
theorem taskFinish (core task : Nat) : Statement (.taskFinish core task) := of_none rfl
theorem completionEntryPost (pav vd : Nat) : Statement (.completionEntryPost pav vd) := of_none rfl
theorem walkerNode (core : Nat) : Statement (.walkerNode core) := of_none rfl
theorem bankClaimHeld (core task bank : Nat) : Statement (.bankClaimHeld core task bank) := of_none rfl
theorem bankReleaseComplete (core bank : Nat) : Statement (.bankReleaseComplete core bank) := of_none rfl
theorem preemptionRequest (core ctx : Nat) : Statement (.preemptionRequest core ctx) := of_none rfl
theorem contextRestore (core ctx toCore toCtx : Nat) : Statement (.contextRestore core ctx toCore toCtx) := of_none rfl
theorem contextRelease (core ctx : Nat) : Statement (.contextRelease core ctx) := of_none rfl
theorem watchdogExpiry (core ctx : Nat) : Statement (.watchdogExpiry core ctx) := of_none rfl
theorem uncorrectableError (site : ErrorSite) (lasting : Bool) (met : ErrorMet) : Statement (.uncorrectableError site lasting met) := of_none rfl
theorem hostLaunch (pav vd off : Nat) (bytes : List Byte) : Statement (.hostLaunch pav vd off bytes) := of_none rfl
theorem windowWrite (pav vd off : Nat) (bytes : List Byte) : Statement (.windowWrite pav vd off bytes) := of_none rfl
theorem windowRead (pav vd off len : Nat) : Statement (.windowRead pav vd off len) := of_none rfl
theorem crheadWrite (pav vd : Nat) (value : Word) : Statement (.crheadWrite pav vd value) := of_none rfl
theorem vdcfgWrite (pav vd : Nat) (value : Word) : Statement (.vdcfgWrite pav vd value) := of_none rfl
theorem deviceReset (pav vd : Nat) : Statement (.deviceReset pav vd) := of_none rfl
theorem functionLevelReset (pav vf : Nat) : Statement (.functionLevelReset pav vf) := of_none rfl
theorem rmclr (pav : Nat) : Statement (.rmclr pav) := of_none rfl
theorem pavinv (pav : Nat) : Statement (.pavinv pav) := of_none rfl
theorem pavlendWrite (pav : Nat) (value : Word) : Statement (.pavlendWrite pav value) := of_none rfl
theorem rateBlockWrite (pav vd reg : Nat) (value : Word) : Statement (.rateBlockWrite pav vd reg value) := of_none rfl
theorem rateWriteEffect (arb : Nat) : Statement (.rateWriteEffect arb) := of_none rfl
theorem reclaimWalkEnd (slice : Nat) : Statement (.reclaimWalkEnd slice) := of_none rfl
theorem form : Statement .form := of_none rfl
theorem resize : Statement .resize := of_none rfl
theorem dissolve : Statement .dissolve := of_none rfl
theorem pavilionReset : Statement .pavilionReset := of_none rfl
theorem packageReset : Statement .packageReset := of_none rfl
theorem powerOn : Statement .powerOn := of_none rfl
theorem calwWrite (value : Word) : Statement (.calwWrite value) := of_none rfl
theorem calendarWriteEffect : Statement .calendarWriteEffect := of_none rfl
theorem rxcfgWrite (value : Word) : Statement (.rxcfgWrite value) := of_none rfl
theorem flitReplay (port : Nat) : Statement (.flitReplay port) := of_none rfl
theorem imageLoad (pav : Nat) (bytes : List Byte) : Statement (.imageLoad pav bytes) := of_none rfl
theorem imageUnload (pav : Nat) : Statement (.imageUnload pav) := of_none rfl
theorem firmwareStage (pav : Nat) (bytes : List Byte) : Statement (.firmwareStage pav bytes) := of_none rfl
theorem attestationReport (pav : Nat) (nonce : List Byte) : Statement (.attestationReport pav nonce) := of_none rfl
theorem certificateChain (pav : Nat) : Statement (.certificateChain pav) := of_none rfl
theorem faultLogPop (pav vd : Nat) : Statement (.faultLogPop pav vd) := of_none rfl
theorem modeChange : Statement .modeChange := of_none rfl
theorem powerWindow (watts : Nat) : Statement (.powerWindow watts) := of_none rfl
theorem thermalWarning (die temp : Nat) : Statement (.thermalWarning die temp) := of_none rfl
theorem thermalTrip (die temp : Nat) : Statement (.thermalTrip die temp) := of_none rfl
theorem registerWrite (reg : HostReg) (value : Word) : Statement (.registerWrite reg value) := of_none rfl
theorem poolpartWrite (core : Nat) (value : Word) : Statement (.poolpartWrite core value) := of_none rfl
theorem ringPortLinkChange (port : Nat) (up joined : Bool) : Statement (.ringPortLinkChange port up joined) := of_none rfl

end Sys2Proof.Laws.Rows
end

