-- ==== Sys2Proof/Laws/Ports.lean ====
section
/-!
SUPPORT. What the ring-extension ports can do (R369): they change the messages, the credits and the inputs that wait, and nothing else of the package.
-/

namespace Sys2Proof.Machine

/-- What has come in by a port changes the promenade alone. -/
theorem State.portEnters_eq (s : State) (p : PortInput) :
    ∃ ms cs n, s.portEnters p = { s with messages := ms, credits := cs, opId := n } := by
  cases p with
  | message dir ch data =>
    unfold State.portEnters State.portMessage
    dsimp only
    split <;> split <;> exact ⟨_, _, _, rfl⟩
  | credit core dir ch => exact ⟨_, _, _, rfl⟩

/-- A port that takes one input, or leaves it for the next cycle of its core, changes the promenade, its own load and the inputs alone. -/
theorem State.takePort_eq (s : State) (p : PortInput) :
    ∃ ms cs n ld ps, s.takePort p = { s with messages := ms, credits := cs, opId := n, portLoad := ld, portIn := ps } := by
  obtain ⟨ms, cs, n, h⟩ := s.portEnters_eq p
  unfold State.takePort
  split
  · split
    · exact ⟨ms, cs, n, _, s.portIn, by rw [h]; rfl⟩
    · exact ⟨_, _, _, _, _, rfl⟩
  · exact ⟨ms, cs, n, s.portLoad, s.portIn, h⟩

/-- A core that takes its inputs changes the promenade, the loads of the ports and the inputs alone. -/
theorem State.takePorts_eq (s : State) (core : Nat) :
    ∃ ms cs n ld ps, s.takePorts core = { s with messages := ms, credits := cs, opId := n, portLoad := ld, portIn := ps } := by
  have fold : ∀ (l : List PortInput) (u : State), ∃ ms cs n ld ps,
      l.foldl State.takePort u = { u with messages := ms, credits := cs, opId := n, portLoad := ld, portIn := ps } := by
    intro l
    induction l with
    | nil => exact fun u => ⟨_, _, _, _, _, rfl⟩
    | cons p l ih =>
      intro u
      obtain ⟨ms, cs, n, ld, ps, h⟩ := u.takePort_eq p
      obtain ⟨ms', cs', n', ld', ps', h'⟩ := ih (u.takePort p)
      exact ⟨ms', cs', n', ld', ps', by rw [List.foldl_cons, h', h]⟩
  unfold State.takePorts
  obtain ⟨ms, cs, n, ld, ps, h⟩ := fold (s.portIn.filter fun p => s.portGoal p == core) { s with portIn := s.portIn.filter fun p => s.portGoal p != core }
  exact ⟨ms, cs, n, ld, ps, h⟩

end Sys2Proof.Machine
end

