-- ==== Sys2Proof/Tests/Slice0.lean ====
section
/-!
SUPPORT. Tests: the decoding of every encoded row by a word of the spec's opcode table; ill-formed terms that WellFormed refuses; single steps with
results computed from the rules by hand; and a witness for the hypotheses of every statement.
-/

namespace Sys2Proof.Tests

open Sys2Proof Sys2Proof.Machine

/-! ### Decoding (R74 to R84): word, row -/

/-- A move of s0 with guard 0, S = 0 and B = 0. -/
def mv (slot : Nat) : Mv := ⟨slot, 0, false, false, .reg .s 0⟩

/-- Every word, in a slot of a bundle whose other slots are empty, decodes to its row. -/
noncomputable def decodesAll (slot : Nat) (rows : List (Nat × Instr)) : Bool :=
  rows.all fun e => decide (decode (leBytes 24 (e.1 * 2 ^ (24 * slot))) = .ok (e.2, []))

theorem test_decode_sx_0 : decodesAll 0
    [(0x000110, Instr.add 0 (mv 0)), (0x000111, Instr.sub 0 (mv 0)), (0x000112, Instr.mul 0 (mv 0)), (0x000113, Instr.mulh 0 (mv 0)),
    (0x000114, Instr.mulhn 0 (mv 0)), (0x000115, Instr.and 0 (mv 0)), (0x000116, Instr.or 0 (mv 0)), (0x000117, Instr.xor 0 (mv 0)),
    (0x000118, Instr.andn 0 (mv 0)), (0x000119, Instr.shl 0 (mv 0)), (0x00011A, Instr.shr 0 (mv 0)), (0x00011B, Instr.sar 0 (mv 0)),
    (0x00011C, Instr.min 0 (mv 0)), (0x00011D, Instr.max 0 (mv 0)), (0x00011E, Instr.minn 0 (mv 0)), (0x00011F, Instr.maxn 0 (mv 0)),
    (0x000120, Instr.clz 0 (mv 0)), (0x000121, Instr.ctz 0 (mv 0)), (0x000122, Instr.popc 0 (mv 0)), (0x000123, Instr.sext 0 (mv 0))] = true := by decide
theorem test_decode_sx_1 : decodesAll 0
    [(0x000124, Instr.zext 0 (mv 0)), (0x000125, Instr.sel 0 (mv 0)), (0x000126, Instr.cmpeq 0 (mv 0)), (0x000127, Instr.cmpne 0 (mv 0)),
    (0x000128, Instr.cmplt 0 (mv 0)), (0x000129, Instr.cmple 0 (mv 0)), (0x00012A, Instr.cmpltn 0 (mv 0)), (0x00012B, Instr.cmplen 0 (mv 0)),
    (0x00012C, Instr.cderive 0 (mv 0)), (0x00012D, Instr.cnarrow 0 (mv 0)), (0x00012E, Instr.crestrict 0 (mv 0)), (0x00012F, Instr.cinc 0 (mv 0)),
    (0x000130, Instr.cbase 0 (mv 0)), (0x000131, Instr.clen 0 (mv 0)), (0x000132, Instr.cperm 0 (mv 0)), (0x000133, Instr.cseal 0 (mv 0)),
    (0x000134, Instr.cunseal 0 (mv 0)), (0x000135, Instr.cvalid 0 (mv 0))] = true := by decide
theorem test_decode_br : decodesAll 0
    [(0x000190, Instr.jmp (mv 0)), (0x000191, Instr.jmpa (mv 0)), (0x000192, Instr.call (mv 0)), (0x000193, Instr.calla (mv 0)),
    (0x000194, Instr.ret (mv 0)), (0x000195, Instr.bmz (mv 0)), (0x000196, Instr.bmnz (mv 0)), (0x000197, Instr.mark (mv 0)),
    (0x000198, Instr.safe (mv 0)), (0x000199, Instr.trap (mv 0)), (0x00019A, Instr.rte (mv 0)), (0x00019B, Instr.yield (mv 0)),
    (0x00019C, Instr.halt (mv 0))] = true := by decide
theorem test_decode_pd : decodesAll 0
    [(0x0001B0, Instr.pand (mv 0)), (0x0001B1, Instr.por (mv 0)), (0x0001B2, Instr.pxor (mv 0)), (0x0001B3, Instr.pandn (mv 0)),
    (0x0001B4, Instr.porn (mv 0)), (0x0001B5, Instr.pnot (mv 0)), (0x0001B6, Instr.pset (mv 0)), (0x0001B7, Instr.gbase (mv 0)),
    (0x0001B8, Instr.crr (mv 0)), (0x0001B9, Instr.crw (mv 0)), (0x0001BA, Instr.qos (mv 0))] = true := by decide
theorem test_decode_im : decodesAll 0
    [(0x0001D0, Instr.imm (mv 0)), (0x0001D1, Instr.cat (mv 0))] = true := by decide
theorem test_decode_vx_0 : decodesAll 2
    [(0x000110, Instr.fadd 0 (mv 2)), (0x000111, Instr.fsub 0 (mv 2)), (0x000112, Instr.fmul 0 (mv 2)), (0x000113, Instr.fma 0 (mv 2)),
    (0x000114, Instr.fms 0 (mv 2)), (0x000115, Instr.fnma 0 (mv 2)), (0x000116, Instr.fmin 0 (mv 2)), (0x000117, Instr.fmax 0 (mv 2)),
    (0x000118, Instr.fabs 0 (mv 2)), (0x000119, Instr.fneg 0 (mv 2)), (0x00011A, Instr.fcadd 0 (mv 2)), (0x00011B, Instr.fade 0 (mv 2)),
    (0x00011C, Instr.fademul 0 (mv 2)), (0x00011D, Instr.fadefma 0 (mv 2)), (0x00011E, Instr.fcmpeq 0 (mv 2)), (0x00011F, Instr.fcmplt 0 (mv 2)),
    (0x000120, Instr.fcmple 0 (mv 2)), (0x000121, Instr.iadd 0 (mv 2)), (0x000122, Instr.isub 0 (mv 2)), (0x000123, Instr.imul 0 (mv 2))] = true := by decide
theorem test_decode_vx_1 : decodesAll 2
    [(0x000124, Instr.iand 0 (mv 2)), (0x000125, Instr.ior 0 (mv 2)), (0x000126, Instr.ixor 0 (mv 2)), (0x000127, Instr.ishl 0 (mv 2)),
    (0x000128, Instr.ishr 0 (mv 2)), (0x000129, Instr.isar 0 (mv 2)), (0x00012A, Instr.imin 0 (mv 2)), (0x00012B, Instr.imax 0 (mv 2)),
    (0x00012C, Instr.iminn 0 (mv 2)), (0x00012D, Instr.imaxn 0 (mv 2)), (0x00012E, Instr.icmpeq 0 (mv 2)), (0x00012F, Instr.icmplt 0 (mv 2)),
    (0x000130, Instr.icmpltn 0 (mv 2)), (0x000131, Instr.cvtfi 0 (mv 2)), (0x000132, Instr.cvtfiz 0 (mv 2)), (0x000133, Instr.cvtif 0 (mv 2)),
    (0x000134, Instr.cvtfb 0 (mv 2)), (0x000135, Instr.cvtbf 0 (mv 2)), (0x000136, Instr.vsel 0 (mv 2)), (0x000137, Instr.vperm 0 (mv 2))] = true := by decide
theorem test_decode_vx_2 : decodesAll 2
    [(0x000138, Instr.vrot 0 (mv 2)), (0x000139, Instr.xchg 0 (mv 2)), (0x00013A, Instr.radd 0 (mv 2)), (0x00013B, Instr.rmax 0 (mv 2)),
    (0x00013C, Instr.rmin 0 (mv 2))] = true := by decide
theorem test_decode_mk : decodesAll 2
    [(0x0001D0, Instr.mpush (mv 2)), (0x0001D1, Instr.minv (mv 2)), (0x0001D2, Instr.mpop (mv 2)), (0x0001D3, Instr.mpeek (mv 2)),
    (0x0001D4, Instr.mreset (mv 2))] = true := by decide
theorem test_decode_mx : decodesAll 5
    [(0x000110, Instr.tdesc (mv 5)), (0x000111, Instr.tstat (mv 5)), (0x000112, Instr.tset (mv 5)), (0x000113, Instr.mcall (mv 5)),
    (0x000114, Instr.mwr (mv 5)), (0x000115, Instr.quant (mv 5)), (0x000116, Instr.azero (mv 5)), (0x000117, Instr.aread (mv 5)),
    (0x000118, Instr.awrite (mv 5)), (0x000119, Instr.anorm (mv 5)), (0x00011A, Instr.acvt (mv 5))] = true := by decide
theorem test_decode_sc : decodesAll 5
    [(0x000130, Instr.scfg (mv 5)), (0x000131, Instr.sload (mv 5)), (0x000132, Instr.scomp (mv 5)), (0x000133, Instr.scarry (mv 5)),
    (0x000134, Instr.sapply (mv 5)), (0x000135, Instr.sread (mv 5))] = true := by decide
theorem test_decode_sf : decodesAll 5
    [(0x000150, Instr.rcp (mv 5)), (0x000151, Instr.rsqrt (mv 5)), (0x000152, Instr.rcpstep (mv 5)), (0x000153, Instr.rsqstep (mv 5)),
    (0x000154, Instr.exp2 (mv 5)), (0x000155, Instr.log2 (mv 5)), (0x000156, Instr.softplus (mv 5)), (0x000157, Instr.sigmoid (mv 5)),
    (0x000158, Instr.silu (mv 5))] = true := by decide
theorem test_decode_so : decodesAll 5
    [(0x000170, Instr.csort (mv 5)), (0x000171, Instr.cmerge (mv 5)), (0x000172, Instr.cthr (mv 5)), (0x000173, Instr.cread (mv 5)),
    (0x000174, Instr.cclr (mv 5))] = true := by decide
theorem test_decode_dd : decodesAll 5
    [(0x000190, Instr.patch (mv 5)), (0x000191, Instr.sety (mv 5)), (0x000192, Instr.setr (mv 5)), (0x000193, Instr.gety (mv 5)),
    (0x000194, Instr.getr (mv 5)), (0x000195, Instr.step (mv 5)), (0x000196, Instr.start (mv 5)), (0x000197, Instr.stop (mv 5)),
    (0x000198, Instr.dsave (mv 5)), (0x000199, Instr.dload (mv 5)), (0x00019A, Instr.inject (mv 5)), (0x00019B, Instr.cnt (mv 5))] = true := by decide
theorem test_decode_fr : decodesAll 5
    [(0x0001D0, Instr.fbind (mv 5)), (0x0001D1, Instr.fswap (mv 5)), (0x0001D2, Instr.snap (mv 5)), (0x0001D3, Instr.fork (mv 5)),
    (0x0001D4, Instr.roll (mv 5)), (0x0001D5, Instr.fdrop (mv 5)), (0x0001D6, Instr.fstat (mv 5))] = true := by decide
theorem test_decode_ls0_0 : decodesAll 6
    [(0x000110, Instr.ld8Ls0 (mv 6)), (0x000111, Instr.ld16Ls0 (mv 6)), (0x000112, Instr.ld32Ls0 (mv 6)), (0x000113, Instr.ld64Ls0 (mv 6)),
    (0x000114, Instr.ldn8Ls0 (mv 6)), (0x000115, Instr.ldn16Ls0 (mv 6)), (0x000116, Instr.ldn32Ls0 (mv 6)), (0x000117, Instr.ldcLs0 (mv 6)),
    (0x000118, Instr.st8Ls0 (mv 6)), (0x000119, Instr.st16Ls0 (mv 6)), (0x00011A, Instr.st32Ls0 (mv 6)), (0x00011B, Instr.st64Ls0 (mv 6)),
    (0x00011C, Instr.stcLs0 (mv 6)), (0x00011D, Instr.ldacq32Ls0 (mv 6)), (0x00011E, Instr.ldacq64Ls0 (mv 6)), (0x00011F, Instr.strel32Ls0 (mv 6)),
    (0x000120, Instr.strel64Ls0 (mv 6)), (0x000121, Instr.vldLs0 (mv 6)), (0x000122, Instr.vstLs0 (mv 6)), (0x000123, Instr.gathLs0 (mv 6))] = true := by decide
theorem test_decode_ls0_1 : decodesAll 6
    [(0x000124, Instr.scatLs0 (mv 6)), (0x000125, Instr.vldxLs0 (mv 6)), (0x000126, Instr.vstcLs0 (mv 6)), (0x000127, Instr.fenceLs0 (mv 6)),
    (0x000128, Instr.fenceScLs0 (mv 6)), (0x000129, Instr.xfenceLs0 (mv 6)), (0x00012A, Instr.hintLs0 (mv 6)), (0x00012B, Instr.hresLs0 (mv 6)),
    (0x00012C, Instr.cctlLs0 (mv 6)), (0x00012D, Instr.brelLs0 (mv 6))] = true := by decide
theorem test_decode_ls1_0 : decodesAll 6
    [(0x000140, Instr.ld8Ls1 (mv 6)), (0x000141, Instr.ld16Ls1 (mv 6)), (0x000142, Instr.ld32Ls1 (mv 6)), (0x000143, Instr.ld64Ls1 (mv 6)),
    (0x000144, Instr.ldn8Ls1 (mv 6)), (0x000145, Instr.ldn16Ls1 (mv 6)), (0x000146, Instr.ldn32Ls1 (mv 6)), (0x000147, Instr.ldcLs1 (mv 6)),
    (0x000148, Instr.st8Ls1 (mv 6)), (0x000149, Instr.st16Ls1 (mv 6)), (0x00014A, Instr.st32Ls1 (mv 6)), (0x00014B, Instr.st64Ls1 (mv 6)),
    (0x00014C, Instr.stcLs1 (mv 6)), (0x00014D, Instr.ldacq32Ls1 (mv 6)), (0x00014E, Instr.ldacq64Ls1 (mv 6)), (0x00014F, Instr.strel32Ls1 (mv 6)),
    (0x000150, Instr.strel64Ls1 (mv 6)), (0x000151, Instr.vldLs1 (mv 6)), (0x000152, Instr.vstLs1 (mv 6)), (0x000153, Instr.gathLs1 (mv 6))] = true := by decide
theorem test_decode_ls1_1 : decodesAll 6
    [(0x000154, Instr.scatLs1 (mv 6)), (0x000155, Instr.vldxLs1 (mv 6)), (0x000156, Instr.vstcLs1 (mv 6)), (0x000157, Instr.fenceLs1 (mv 6)),
    (0x000158, Instr.fenceScLs1 (mv 6)), (0x000159, Instr.xfenceLs1 (mv 6)), (0x00015A, Instr.hintLs1 (mv 6)), (0x00015B, Instr.hresLs1 (mv 6)),
    (0x00015C, Instr.cctlLs1 (mv 6)), (0x00015D, Instr.brelLs1 (mv 6))] = true := by decide
theorem test_decode_cp0 : decodesAll 6
    [(0x000170, Instr.copyCp0 (mv 6)), (0x000171, Instr.twrCp0 (mv 6))] = true := by decide
theorem test_decode_cp1 : decodesAll 6
    [(0x000190, Instr.copyCp1 (mv 6)), (0x000191, Instr.twrCp1 (mv 6))] = true := by decide
theorem test_decode_atu : decodesAll 6
    [(0x0001B0, Instr.atadd32 (mv 6)), (0x0001B1, Instr.atadd64 (mv 6)), (0x0001B2, Instr.atand (mv 6)), (0x0001B3, Instr.ator (mv 6)),
    (0x0001B4, Instr.atxor (mv 6)), (0x0001B5, Instr.atmax (mv 6)), (0x0001B6, Instr.atmin (mv 6)), (0x0001B7, Instr.atswp (mv 6)),
    (0x0001B8, Instr.cas64 (mv 6)), (0x0001B9, Instr.cas128 (mv 6))] = true := by decide
theorem test_decode_qs : decodesAll 6
    [(0x0001D0, Instr.qput (mv 6)), (0x0001D1, Instr.qget (mv 6)), (0x0001D2, Instr.qsel (mv 6)), (0x0001D3, Instr.rput (mv 6)),
    (0x0001D4, Instr.rget (mv 6)), (0x0001D5, Instr.launch (mv 6))] = true := by decide
theorem test_decode_tb : decodesAll 6
    [(0x0001F0, Instr.binit (mv 6)), (0x0001F1, Instr.barr (mv 6)), (0x0001F2, Instr.bwait (mv 6)), (0x0001F3, Instr.btest (mv 6)),
    (0x0001F4, Instr.bexp (mv 6))] = true := by decide

set_option maxRecDepth 2000 in
/-- The bundle worked to the bit in section 04, by its 24 bytes: three moves and an immediate slot. -/
theorem test_decode_worked_bundle :
    decode [0x10, 0x8F, 0x1F, 0, 0, 0, 0x53, 0xC5, 0x04, 0, 0, 0, 0, 0, 0, 0, 0, 0, 0x12, 0x09, 0x04, 0xE8, 0x03, 0x80] =
      .ok (.transportMove [.move 1 true true (.imms 7) (.trig .sx0 .add), .empty,
        .move 0 false true (.reg .v 2) (.trig .vx1 .fma), .empty, .empty, .empty, .move 0 false true (.reg .s 4) (.trig .ls0 .ld32),
        .imm 0x3E8], []) := by decide
/-- A trigger of the second unit of a kind, with every field set: guard 1, #-1 -> sx1.sub with S = 1 and B = 1. -/
theorem test_decode_fields : decode (leBytes 24 0x1DFF51) = .ok (.sub 1 ⟨0, 1, true, true, .short 0x3F⟩, []) := by decide
/-- Fewer than 24 bytes are no bundle. -/
theorem test_decode_short : decode (List.replicate 23 0) = .error .short := by decide
/-- The encoder writes the worked bundle's bytes. -/
theorem test_encode_worked_bundle :
    encode (.transportMove [.move 1 true true (.imms 7) (.trig .sx0 .add), .empty,
        .move 0 false true (.reg .v 2) (.trig .vx1 .fma), .empty, .empty, .empty, .move 0 false true (.reg .s 4) (.trig .ls0 .ld32),
        .imm 0x3E8]) =
      some [0x10, 0x8F, 0x1F, 0, 0, 0, 0x53, 0xC5, 0x04, 0, 0, 0, 0, 0, 0, 0, 0, 0, 0x12, 0x09, 0x04, 0xE8, 0x03, 0x80] := by decide

/-! ### Ill-formed terms -/

/-- A bundle with one item in slot 0. -/
def bundleOf (it : Item) : Instr := .transportMove (oneItem 0 it)

theorem test_wf_register_number : wellFormed (.add 0 ⟨0, 0, false, false, .reg .a 32⟩) = false := by decide
theorem test_wf_immediate_slot : wellFormed (.add 0 ⟨0, 0, false, false, .imms 8⟩) = false := by decide
theorem test_wf_wide_immediate_slot : wellFormed (.add 0 ⟨0, 0, false, false, .immw 3⟩) = false := by decide
theorem test_wf_reserved_source : wellFormed (.add 0 ⟨0, 0, false, false, .reserved 0x1E0⟩) = false := by decide
theorem test_wf_slot_of_unit : wellFormed (.fadd 0 (mv 0)) = false ∧ wellFormed (.jmp (mv 8)) = false := by decide
theorem test_wf_guard : wellFormed (.jmp ⟨0, 8, false, false, .reg .s 0⟩) = false := by decide
theorem test_wf_unit_number : wellFormed (.add 2 (mv 0)) = false ∧ wellFormed (.fadd 3 (mv 2)) = false := by decide
theorem test_wf_bundle_length : wellFormed (.transportMove [.empty]) = false := by decide
theorem test_wf_bundle_of_a_row : wellFormed (bundleOf (.move 0 false false (.reg .s 0) (.trig .sx0 .add))) = false := by decide
theorem test_wf_item_guard : wellFormed (bundleOf (.move 8 false false (.reg .s 0) (.reg .s 1))) = false := by decide
theorem test_wf_no_operation : wellFormed (bundleOf (.move 0 false false (.reg .s 0) (.nop 16))) = false := by decide
theorem test_wf_predicate_destination : wellFormed (bundleOf (.move 0 false false (.reg .s 0) (.reg .p 1))) = false := by decide
theorem test_wf_port_number : wellFormed (bundleOf (.move 0 false false (.reg .s 0) (.latch .sx0 4))) = false ∧
    wellFormed (bundleOf (.move 0 false false (.reg .s 0) (.latchRef .sx0 0))) = false ∧
    wellFormed (bundleOf (.move 0 false false (.reg .s 0) (.latchStep .vx0 1))) = false := by decide
theorem test_wf_selector_bus : wellFormed (bundleOf (.move 0 false false (.reg .s 0) (.sel .tb))) = false := by decide
theorem test_wf_trigger_of_unit : wellFormed (.transportMove ([.move 0 false false (.reg .s 0) (.trig .sx0 .fadd), .imm 0] ++
    List.replicate 6 .empty)) = false := by decide
theorem test_wf_unassigned_offset : wellFormed (bundleOf (.move 0 false false (.reg .s 0) (.unassigned .im 17))) = false ∧
    wellFormed (bundleOf (.move 0 false false (.reg .s 0) (.unassigned .im 18))) = true := by decide
theorem test_wf_reserved_destination : wellFormed (bundleOf (.move 0 false false (.reg .s 0) (.reserved 0x1C0))) = false := by decide
theorem test_wf_accepts : wellFormed (.add 1 ⟨1, 7, true, true, .reg .s 63⟩) = true ∧ wellFormed (.tokenRefill 0) = true := by decide

/-! ### Small states -/

/-- Context 0 of core 0. -/
def l0 : Loc := ⟨0, 0⟩
/-- A program of device 1 and tenant 1 of pavilion 0: task 7 with the image of handle 1. -/
def bound : Binding := ⟨0, 1, 1, 1, 7, 7⟩
/-- A running context at 0x1000. -/
def running (w : View) : Ctx := { Ctx.reset with mode := .running, pc := 0x1000, binding := some bound, cur := w }
/-- An image at 0x1000 whose text is ten empty bundles. -/
def image : Image := ⟨0, 1, 1, 0x1000, 240, [], [0], [], [], [], [], [], [], []⟩
/-- Device 1: enabled, tenant 1, key index 1, 256 launch entries; its stage-1 table is at 0x3000. -/
def device : Dev := { Dev.reset with vdcfg := 0x200000203, s1root := 0x3000 }
/-- Stage 2 at 0x1000 and stage 1 at 0x3000 map the first GiB to itself, under key index 1. -/
def tables : Memory :=
  [(0x1000, 0x01), (0x1001, 0x20), (0x2000, 0x0F), (0x2006, 0x01), (0x3000, 0x01), (0x3001, 0x40), (0x4000, 0x01), (0x4001, 0x50),
    (0x5000, 0x0F)]
/-- A package with one pavilion, of core 0, whose lines of the stage-1 table and line 0x400 are under key index 1, whose context 0 runs. -/
def package (k : Core) (x : Ctx) : State :=
  { State.reset with
    cores := [(0, { k with running := some 0, ctxs := (0, x) :: k.ctxs })]
    pavs := [(0, { Pav.reset with formed := true, nvf := 1, cores := [0], s2root := 0x1000, devs := [(1, device)] })]
    images := [(1, image)], mem := tables, lineKey := [(0xC0, 1), (0x100, 1), (0x140, 1), (0x400, 1)], granules := [(0, 0)], keys := [(1, ⟨0, 1, 1, true⟩)], keySerial := 2 }
/-- The package with a core after reset and a view. -/
def demo (w : View) : State := package .reset (running w)
/-- A package whose view has some scalar registers and the port of one unit. -/
def demoOf (s : List (Nat × Word)) (u : UnitId) (p : Port) : State := demo { View.reset with s := s, ports := [(u.num, p)] }
/-- A latch that holds a value. -/
def holds (v : Value) : Latch := ⟨.value v, 0⟩
/-- A latch that holds a word. -/
def word (x : Word) : Latch := holds (.word x)
/-- A port with a word in each latch, whose selector names s2. -/
def words (b c d : Word) : Port := ⟨word b, word c, word d, some ⟨some .s, 2, 0⟩, none⟩
/-- A vector of one lane value. -/
def splat (x : Lane) : Vec := BitVec.ofNat 4096 (lanesNat (fun _ => x) 0 128)
/-- Whether an outcome is a next state with a property. -/
def after (r : Host.Outcome State Fault Refusal) (p : State → Bool) : Bool := match r with | .next t => p t | _ => false
/-- The move of s1 in a slot. -/
def s1in (slot : Nat) : Mv := ⟨slot, 0, false, true, .reg .s 1⟩

/-- An entry of the dependence table. -/
def entry (id : Nat) : Task := ⟨id, 1, 0, [], false, none, none, [], [], [], [], [], some 0, 0, none⟩

/-- Whether a row is ready at a context with operands of some kind. -/
def isReady (s : State) (l : Loc) (i : Instr) (p : Opd → Bool) : Bool :=
  match s.rowOperands l i with
  | some o =>
    p o && decide (s.turn = some l) && decide ((s.ctx l).boundaryTrap = none) && decide ((s.ctx l).resolving = false) &&
      decide ((s.ctx l).fence = [])
  | none => false

/-- A row is ready with operands that meet a condition. -/
theorem ready_of {s : State} {l : Loc} {i : Instr} {P : Opd → Prop} [DecidablePred P]
    (h : isReady s l i (fun o => decide (P o)) = true) : ∃ o, s.ready l i o ∧ P o := by
  unfold isReady at h
  split at h
  · rename_i o ho
    simp only [Bool.and_eq_true, decide_eq_true_eq] at h
    exact ⟨o, ⟨ho, ⟨h.1.1.1.2, h.1.1.2⟩, h.1.2, h.2⟩, h.1.1.1.1⟩
  · cases h

/-! ### Single steps: results by hand from the rules -/

/-- 5 + 7 (R99). -/
theorem test_add : after (exec (.add 0 (s1in 0)) (demoOf [(1, 5)] .sx0 (words 7 0 0))) (fun t =>
    (t.ctx l0).cur.readReg .s 2 == .word 12 && (t.ctx l0).pc == 0x1018) = true := by decide
/-- SAR of -20 by 2 is -5 (R99). -/
theorem test_sar : after (exec (.sar 0 (s1in 0)) (demoOf [(1, -20)] .sx0 (words 2 0 0))) (fun t =>
    (t.ctx l0).cur.readReg .s 2 == .word (-5)) = true := by decide
/-- SEXT of 0x80 from bit 7 (R99). -/
theorem test_sext : after (exec (.sext 0 (s1in 0)) (demoOf [(1, 0x80)] .sx0 (words 7 0 0))) (fun t =>
    (t.ctx l0).cur.readReg .s 2 == .word 0xFFFFFFFFFFFFFF80) = true := by decide
/-- MULH of -1 and 1 is -1, MULHN is 0 (R99). -/
theorem test_mulh : after (exec (.mulh 0 (s1in 0)) (demoOf [(1, -1)] .sx0 (words 1 0 0))) (fun t =>
    ((t.ctx l0).cur.flights.map Flight.due == [2]) && (t.ctx l0).cur.flights.all fun f =>
      f.effs == [.reg .s 2 (.word (-1)) none, .res .sx0 (.word (-1)) none]) = true := by decide
/-- CMPLT compares as signed: -1 < 1 (R100), with a selector of p12. -/
theorem test_cmplt : after (exec (.cmplt 0 (s1in 0)) (demoOf [(1, -1)] .sx0 { words 1 0 0 with sel := some ⟨some .p, 12, 0⟩ }))
    (fun t => (t.ctx l0).cur.pred 12) = true := by decide
/-- The bound of CDERIVE is the operand's: base 0x100 + 16, length 8 of 32 (R105). -/
theorem test_cderive : after (exec (.cderive 0 ⟨0, 0, false, true, .reg .a 1⟩)
      (demo { View.reset with
        a := [(1, Spec.capability 0x100 32 0x0F 1)]
        ports := [(0, ⟨word 16, word 8, .reset, some ⟨some .a, 2, 0⟩, none⟩)] }))
    (fun t => (t.ctx l0).cur.readReg .a 2 == .cap (Spec.capability 0x110 8 0x0F 1)) = true := by decide
/-- CAT of 1 above 2 (R109). -/
theorem test_cat : after (exec (.cat (s1in 0)) (demoOf [(1, 1)] .im (words 2 0 0))) (fun t =>
    (t.ctx l0).cur.readReg .s 2 == .word 0x100000002) = true := by decide
/-- PSET reads bit 5 of 0x20 (R107). -/
theorem test_pset : after (exec (.pset (s1in 0)) (demoOf [(1, 0x20)] .pd (words 5 0 0))) (fun t =>
    (t.ctx l0).cur.readReg .s 2 == .word 1) = true := by decide
/-- 1.5 + 2.25 = 3.75 in every lane (R125). -/
theorem test_fadd : fadd 0x3FC00000 0x40100000 = (0x40700000, 0) := by decide
/-- 1.0 to bfloat16 above 3.0: CVTFB packs b above x (R130). -/
theorem test_cvtfb : (toB16 0x40400000).1 = 0x4040 ∧ (toB16 0x3F800000).1 = 0x3F80 := by decide
/-- The seed of 3.0 is 0x3EAAA800 (R137). -/
theorem test_rcp : (rcp 0x40400000).1 = 0x3EAAA800 := by decide
/-- MPUSH at depth 0 pushes its operand (R136). -/
theorem test_mpush : after (exec (.mpush ⟨2, 0, false, true, .reg .k 1⟩)
      (demo { View.reset with k := [(1, 0xFF)], ports := [(8, { Port.reset with sel := some ⟨some .k, 2, 0⟩ })] }))
    (fun t => (t.ctx l0).cur.stack == [0xFF] && (t.ctx l0).cur.readReg .k 2 == .mask 0xFF) = true := by decide
/-- A taken JMP has its target pending for after two delay bundles (R36, R110). -/
theorem test_jmp : after (exec (.jmp (s1in 0)) (demoOf [(1, 72)] .br .reset)) (fun t =>
    (t.ctx l0).branch == some (1, 0x1048) && (t.ctx l0).pc == 0x1018) = true := by decide
/-- A JMP to a misaligned target is an illegal encoding; with no handler allowed the context halts (R110, R394). -/
theorem test_jmp_misaligned : after (exec (.jmp (s1in 0)) (demoOf [(1, 4)] .br .reset)) (fun t =>
    (t.ctx l0).mode == .halted && (t.ctx l0).record.isSome) = true := by decide
/-- TRAP with code 9 goes to the handler at 8 x HADDR, with the code in bits 31 to 16 (R246, R247). -/
theorem test_trap : after (exec (.trap (s1in 0)) (demo { View.reset with s := [(1, 9)], ctl := { Ctl.reset with tvec := 0x2001 } }))
    (fun t => (t.ctx l0).pc == 0x2000 && (t.ctx l0).cur.ctl.tcause == 0x9000A && (t.ctx l0).cur.ctl.tepc == 0x1018 &&
      (t.ctx l0).cur.ctl.hndst == 1) = true := by decide
/-- MARK with the loop word 0x10000003: four bundles, eight passes (R112, R113). -/
theorem test_mark : after (exec (.mark (s1in 0)) (demoOf [(1, 0x10000003)] .br (words 0 0 0))) (fun t =>
    (t.ctx l0).cur.looping && (t.ctx l0).cur.ctl.loopwd == 0x10000003 && (t.ctx l0).cur.ctl.loopst == 0x40000000) = true := by decide
/-- A QPUT to an enabled queue of 4 entries stores its value and counts it (R224). -/
theorem test_qput : after (exec (.qput (s1in 6))
      (package { Core.reset with queues := [(3, { Queue.reset with base8 := 16, lcap := 2, en := true, owner := some 7 })] }
        (running { View.reset with s := [(1, 99)], ports := [(20, words 3 0 0)] })))
    (fun t => ((t.core 0).queues.getD 3 .reset).count == 1 && (t.core 0).pool.byte 128 == 99) = true := by decide

/-! ### Witnesses: scalar and lane statements -/

/-- A package whose view has a capability in a1 and the port of sx0. -/
def capOf (c : Cap) (b d : Word) : State :=
  demo { View.reset with a := [(1, c)], ports := [(0, ⟨word b, word d, .reset, some ⟨some .a, 2, 0⟩, none⟩)] }
/-- A package with the vectors v1 and, in latch b of a unit, another. -/
def lanesOf (u : UnitId) (f : RFile) (x b : Vec) : State :=
  demo { View.reset with v := [(1, x)], ports := [(u.num, ⟨holds (.vec b), holds (.vec b), .reset, some ⟨some f, 2, 0⟩, none⟩)] }
/-- The move of v1 in a slot. -/
def v1in (slot : Nat) : Mv := ⟨slot, 0, false, true, .reg .v 1⟩
/-- The move of a1 in a slot. -/
def a1in (slot : Nat) : Mv := ⟨slot, 0, false, true, .reg .a 1⟩
/-- A capability of tenant 1 for 0x1000 bytes from 0x10000, with RD, WR, AT and CP. -/
def grant : Cap := Spec.capability 0x10000 0x1000 0x0F 1

theorem wit_integer : ∃ o, (demoOf [(1, 5)] .sx0 (words 7 0 0)).ready l0 (.add 0 (s1in 0)) o ∧
    Spec.integer o.op o.xw o.b o.c = some (12, 1) := ready_of (by decide)
theorem wit_selector_file : (demoOf [(1, 5)] .sx0 { words 7 0 0 with sel := some ⟨some .v, 2, 0⟩ }).mayIssue l0 ∧
    (∃ v v' vs, readSrc (demoOf [(1, 5)] .sx0 { words 7 0 0 with sel := some ⟨some .v, 2, 0⟩ }) l0
        (oneItem 0 ((s1in 0).item .sx0 .add)) 0 (.reg .s 1) = .ok (v, false) ∧ v.adapt (opSem .add).xw = some v' ∧
      readLatches ((demoOf [(1, 5)] .sx0 (words 7 0 0)).ctx l0).cur (words 7 0 0) (opSem .add).latches = .ok (vs, false)) ∧
    Op.add ∈ Spec.integerCodes.map Prod.fst ∧ RFile.v ∉ [RFile.s, RFile.mp] :=
  ⟨by decide, ⟨.word 5, .word 5, [(1, .word 7)], by decide, by decide, by decide⟩, by decide, by decide⟩
theorem wit_selector_file_derive : Op.cseal ∈ Spec.deriveCodes.map Prod.fst ∧ RFile.s ∉ [RFile.a] ∧ (capOf grant 16 8).mayIssue l0 ∧
    readLatches ((capOf grant 16 8).ctx l0).cur (words 0 0 0) (opSem .cseal).latches = .ok ([], false) := by decide
theorem wit_relation : ∃ o, (demoOf [(1, 5)] .sx0 (words 7 0 0)).ready l0 (.cmplt 0 (s1in 0)) o ∧
    (Spec.relation o.op o.xw o.b = some true ∨ Spec.predicate o.op o.xw o.b = some true) := ready_of (by decide)
theorem wit_derive : ∃ o, (capOf grant 16 8).ready l0 (.cderive 0 (a1in 0)) o ∧
    Spec.derive o.op o.xc o.b o.c o.k = some (.ok (Spec.capability 0x10010 8 0x0F 1)) := ready_of (by decide)
theorem wit_derive_fault : ∃ o, (capOf grant 0x1001 0).ready l0 (.cinc 0 (a1in 0)) o ∧
    Spec.derive o.op o.xc o.b o.c o.k = some (.error 5) ∧ o.prov = false := ready_of (by decide)
theorem wit_inspect : ∃ o, (demoOf [] .sx0 (words 0 0 0)).ready l0 (.cvalid 0 (a1in 0)) o ∧ Spec.inspect o.op o.xc = some 0 :=
  ready_of (by decide)
theorem wit_immediate : ∃ o, (demoOf [(1, 5)] .im (words 7 0 0)).ready l0 (.imm (s1in 0)) o ∧ o.op = .imm := ready_of (by decide)
theorem wit_cat : ∃ o, (demoOf [(1, 5)] .im (words 7 0 0)).ready l0 (.cat (s1in 0)) o ∧ o.op = .cat := ready_of (by decide)
theorem wit_mask : ∃ o, (demo { View.reset with k := [(1, 0xFF)], ports := [(8, { Port.reset with sel := some ⟨some .k, 2, 0⟩ })] }).ready l0
      (.mpush ⟨2, 0, false, true, .reg .k 1⟩) o ∧ Spec.stack o.op [] o.xm = some (.ok ([0xFF], 0xFF)) := ready_of (by decide)
theorem wit_mask_underflow :
    ∃ o, (demo { View.reset with ports := [(8, { Port.reset with sel := some ⟨some .k, 2, 0⟩ })] }).ready l0
      (.mpop ⟨2, 0, false, true, .reg .k 1⟩) o ∧ Spec.stack o.op [] o.xm = some (.error 3) ∧ o.prov = false := ready_of (by decide)
set_option maxRecDepth 20000 in
set_option exponentiation.threshold 5000 in
theorem wit_lanes : ∃ o, (lanesOf .vx0 .v (splat 1) (splat 2)).ready l0 (.iadd 0 (v1in 2)) o ∧
    ∀ j, j < 128 → Spec.laneOp o.op (lane o.xv j) (lane o.bv j) (lane o.cv j) = some (3, 0, 2) := ready_of (by decide)
set_option maxRecDepth 20000 in
set_option exponentiation.threshold 5000 in
theorem wit_lane_moves : ∃ o, (lanesOf .vx0 .v (splat 1) (splat 2)).ready l0 (.vrot 0 (v1in 2)) o ∧
    ∀ j, j < 128 → Spec.laneMove o.op o j = some (1, 2) := ready_of (by decide)
set_option maxRecDepth 20000 in
set_option exponentiation.threshold 5000 in
theorem wit_lane_relation : ∃ o, (lanesOf .vx0 .k (splat 1) (splat 2)).ready l0 (.icmplt 0 (v1in 2)) o ∧
    ∀ j, j < 128 → Spec.laneRelation o.op (lane o.xv j) (lane o.bv j) = some (true, 0) := ready_of (by decide)
theorem wit_reduction : ∃ o, (lanesOf .vx0 .v (splat 1) 0).ready l0 (.radd 0 (v1in 2)) o ∧ (Spec.treeOp o.op).isSome = true :=
  ready_of (by decide)
theorem wit_fcadd : ∃ o, (lanesOf .vx0 .v (splat 1) 0).ready l0 (.fcadd 0 (v1in 2)) o ∧ o.op = .fcadd := ready_of (by decide)
theorem wit_csort : ∃ o, (lanesOf .so .s (splat 1) 0).ready l0 (.csort (v1in 5)) o ∧ o.op = .csort := ready_of (by decide)
theorem wit_cmerge : ∃ o, (lanesOf .so .s (splat 1) 0).ready l0 (.cmerge (v1in 5)) o ∧ o.op = .cmerge := ready_of (by decide)
theorem wit_cthr : ∃ o, (lanesOf .so .v (splat 1) 0).ready l0 (.cthr (v1in 5)) o ∧ o.op = .cthr := ready_of (by decide)
theorem wit_cread : ∃ o, (demoOf [(1, 3)] .so (words 0 0 0)).ready l0 (.cread (s1in 5)) o ∧ o.op = .cread := ready_of (by decide)
theorem wit_cclr : ∃ o, (demoOf [(1, 0)] .so (words 0 0 0)).ready l0 (.cclr (s1in 5)) o ∧ o.op = .cclr := ready_of (by decide)

/-! ### Witnesses: control -/

theorem wit_transfer : ∃ o, (demoOf [(1, 72)] .br .reset).ready l0 (.jmp (s1in 0)) o ∧ ((demoOf [(1, 72)] .br .reset).ctx l0).straight ∧
    Spec.transferOf o.op (Spec.mask ((demoOf [(1, 72)] .br .reset).ctx l0)) = some (true, true, false) ∧
    (((demoOf [(1, 72)] .br .reset).ctx l0).pc + o.xw).toNat % 8 = 0 ∧
    (demoOf [(1, 72)] .br .reset).inText l0 (((demoOf [(1, 72)] .br .reset).ctx l0).pc + o.xw) = true := ready_of (by decide)
theorem wit_transfer_untaken : ∃ o, (demoOf [(1, 72)] .br .reset).ready l0 (.bmz (s1in 0)) o ∧
    Spec.transferOf o.op (Spec.mask ((demoOf [(1, 72)] .br .reset).ctx l0)) = some (true, false, false) := ready_of (by decide)
theorem wit_link : ∃ o, (demoOf [(1, 0x1018)] .br (words 0 0 0)).ready l0 (.calla (s1in 0)) o ∧ o.dest = some (.s, 2) ∧
    (demoOf [(1, 0x1018)] .br (words 0 0 0)).inText l0 o.xw = true := ready_of (by decide)
/-- The package with a context in the delay bundles of a taken branch. -/
def delayed (n : Nat) : State :=
  package .reset { running { View.reset with s := [(1, 72)] } with branch := some (n, 0x1048), fin := some { View.reset with s := [(1, 72)] } }
theorem wit_delay_trap : ∃ o, (delayed 1).ready l0 (.jmp (s1in 0)) o ∧
    Spec.transferOf o.op (Spec.mask ((delayed 1).ctx l0)) = some (true, true, false) ∧
    (((delayed 1).ctx l0).pc + o.xw).toNat % 8 = 0 ∧ o.xw.toNat % 8 = 0 ∧ ((delayed 1).ctx l0).branch.isSome = true ∧ o.prov = false :=
  ready_of (by decide)
theorem wit_empty_bundle : (demo .reset).mayIssue l0 ∧ ((demo .reset).ctx l0).fence = [] ∧ ((demo .reset).ctx l0).cur.looping = false ∧
    ((demo .reset).ctx l0).branch = none := by decide
theorem wit_first_delay : (delayed 1).mayIssue l0 ∧ ((delayed 1).ctx l0).fence = [] ∧ ((delayed 1).ctx l0).cur.looping = false ∧
    ((delayed 1).ctx l0).branch = some (1, 0x1048) := by decide
theorem wit_second_delay : (delayed 2).mayIssue l0 ∧ ((delayed 2).ctx l0).fence = [] ∧ ((delayed 2).ctx l0).cur.looping = false ∧
    ((delayed 2).ctx l0).branch = some (2, 0x1048) ∧ ((delayed 2).ctx l0).releases = [] ∧ (((delayed 2).ctx l0).fin.map View.flights) = some [] := by decide
theorem wit_mark : ∃ o, (demoOf [(1, 0x10000083)] .br (words 0 0 0)).ready l0 (.mark (s1in 0)) o ∧
    ((demoOf [(1, 0x10000083)] .br (words 0 0 0)).ctx l0).straight ∧ o.op = .mark ∧ (o.xw.extractLsb' 25 24).toNat ≠ 0 ∧
    o.xw.extractLsb' 49 15 = 0 ∧ (o.xw.extractLsb' 6 5).toNat = 2 ∧ o.xw.getLsbD 24 = false := ready_of (by decide)
theorem wit_mark_refused : ∀ x ∈ ([0x3, 0x2000010000003, 0x10000043, 0x1003F883, 0x2004083, 0x11EC0003] : List Word), ∃ o,
    (demoOf [(1, x)] .br (words 0 0 0)).ready l0 (.mark (s1in 0)) o ∧ o.op = .mark ∧
      ((o.xw.extractLsb' 25 24).toNat = 0 ∨ o.xw.extractLsb' 49 15 ≠ 0 ∨
        (0 < (o.xw.extractLsb' 6 5).toNat ∧ ((o.xw.extractLsb' 11 7).toNat = 0 ∨
          127 < (o.xw.extractLsb' 11 7).toNat + (o.xw.extractLsb' 6 5).toNat - 1 ∨
          (o.xw.extractLsb' 25 24).toNat < (o.xw.extractLsb' 6 5).toNat)) ∨
        (o.xw.getLsbD 24 = true ∧ 58 < (o.xw.extractLsb' 18 6).toNat)) := by
  intro x hx
  fin_cases hx <;> exact ready_of (by decide)
theorem wit_mark_stages : ∃ o, (demoOf [(1, 0x10004083)] .br (words 0 0 0)).ready l0 (.mark (s1in 0)) o ∧
    (o.xw.extractLsb' 6 5).toNat = 2 ∧ (o.xw.extractLsb' 11 7).toNat = 8 ∧ (o.xw.extractLsb' 25 24).toNat = 8 ∧
    o.xw.getLsbD 24 = false := ready_of (by decide)
/-- The package with a context in a loop body of four bundles and three passes, at a bundle and a pass. -/
def looping (bidx pass : Nat) : State :=
  demo { View.reset with
    looping := true
    ctl := { Ctl.reset with loopwd := 0x6000003, loopst := BitVec.ofNat 64 (0x40000000 + bidx + 64 * pass) } }
theorem wit_loop : ∀ b, b < 4 → ∀ p, p < 3 → (looping b p).mayIssue l0 ∧ ((looping b p).ctx l0).fence = [] ∧
    ((looping b p).ctx l0).branch = none ∧ ((looping b p).ctx l0).cur.looping = true ∧ ((looping b p).ctx l0).cur.flights = [] ∧
    (((looping b p).ctx l0).cur.ctl.loopst.extractLsb' 0 6).toNat = b ∧ (((looping b p).ctx l0).cur.ctl.loopst.extractLsb' 6 24).toNat = p ∧
    (((looping b p).ctx l0).cur.ctl.loopwd.extractLsb' 0 6).toNat = 3 ∧ (((looping b p).ctx l0).cur.ctl.loopwd.extractLsb' 25 24).toNat = 3 := by
  decide
/-- The package with a context that is in a handler, or to be halted. -/
def safing (handler preempt : Bool) : State :=
  package .reset { running { View.reset with s := [(1, 0x10)], ctl := { Ctl.reset with hndst := if handler then 1 else 0 } } with preempt := preempt }
theorem wit_safe : ∃ o, (safing false false).ready l0 (.safe (s1in 0)) o ∧ ((safing false false).ctx l0).straight ∧ o.op = .safe ∧
    o.xw.toNat < 2 ^ 32 ∧ o.xw.toNat % 4 = 0 ∧ ((safing false false).ctx l0).cur.ctl.hndst.getLsbD 0 = false := ready_of (by decide)
theorem wit_safe_halt : ∃ o, (safing false true).ready l0 (.safe (s1in 0)) o ∧ ((safing false true).ctx l0).straight ∧ o.op = .safe ∧
    o.xw.toNat < 2 ^ 32 ∧ o.xw.toNat % 4 = 0 ∧ ((safing false true).ctx l0).preempt = true := ready_of (by decide)
theorem wit_safe_handler : ∃ o, (safing true false).ready l0 (.safe (s1in 0)) o ∧ ((safing true false).ctx l0).straight ∧ o.op = .safe ∧
    o.xw.toNat < 2 ^ 32 ∧ o.xw.toNat % 4 = 0 ∧ ((safing true false).ctx l0).cur.ctl.hndst.getLsbD 0 = true := ready_of (by decide)
/-- The package with a view whose TVEC allows a handler. -/
def handling (s : List (Nat × Word)) (c : Ctl) : State := demo { View.reset with s := s, ctl := { c with tvec := 0x2001 } }
theorem wit_trap : ∃ o, (handling [(1, 9)] .reset).ready l0 (.trap (s1in 0)) o ∧ ((handling [(1, 9)] .reset).ctx l0).straight ∧
    o.op = .trap ∧ o.xw.toNat < 2 ^ 16 ∧ ((handling [(1, 9)] .reset).ctx l0).cur.flights = [] ∧
    ((handling [(1, 9)] .reset).ctx l0).cur.ctl.tvec.getLsbD 0 = true ∧ ((handling [(1, 9)] .reset).ctx l0).cur.ctl.hndst.getLsbD 0 = false :=
  ready_of (by decide)
theorem wit_trap_lodge : ∃ o, (demoOf [(1, 9)] .br .reset).ready l0 (.trap (s1in 0)) o ∧ ((demoOf [(1, 9)] .br .reset).ctx l0).straight ∧
    o.op = .trap ∧ o.xw.toNat < 2 ^ 16 ∧ ((demoOf [(1, 9)] .br .reset).ctx l0).cur.ctl.tvec.getLsbD 0 = false := ready_of (by decide)
theorem wit_rte : ∃ o, (handling [(1, 0)] { Ctl.reset with hndst := 1, tepc := 0x1048 }).ready l0 (.rte (s1in 0)) o ∧ o.op = .rte ∧
    ((handling [(1, 0)] { Ctl.reset with hndst := 1, tepc := 0x1048 }).ctx l0).straight ∧
    ((handling [(1, 0)] { Ctl.reset with hndst := 1, tepc := 0x1048 }).ctx l0).cur.flights = [] := ready_of (by decide)
theorem wit_rte_outside : ∃ o, (demoOf [(1, 0)] .br .reset).ready l0 (.rte (s1in 0)) o ∧ o.op = .rte ∧ o.prov = false ∧
    ((demoOf [(1, 0)] .br .reset).ctx l0).straight ∧ ((demoOf [(1, 0)] .br .reset).ctx l0).cur.ctl.hndst.getLsbD 0 = false :=
  ready_of (by decide)
/-- The package with another context ready. -/
def shared : State :=
  package { Core.reset with ctxs := [(1, { running .reset with mode := .ready, preempt := true })] } (running { View.reset with s := [(1, 0)] })
theorem wit_yield : ∃ o, (demoOf [(1, 0)] .br .reset).ready l0 (.yield (s1in 0)) o ∧ o.op = .yield ∧
    ((demoOf [(1, 0)] .br .reset).ctx l0).straight ∧
    ∀ c, c < 4 → c ≠ 0 → ((demoOf [(1, 0)] .br .reset).ctx ⟨0, c⟩).mode ≠ .ready ∧ ((demoOf [(1, 0)] .br .reset).ctx ⟨0, c⟩).mode ≠ .running :=
  ready_of (by decide)
theorem wit_yield_other : ∃ o, shared.ready l0 (.yield (s1in 0)) o ∧ o.op = .yield ∧ (shared.ctx l0).straight ∧
    (shared.ctx l0).mode = .running ∧ (shared.ctx ⟨0, 1⟩).mode = .ready ∧ (shared.ctx ⟨0, 1⟩).preempt = true ∧
    (shared.ctx ⟨0, 2⟩).mode = .off ∧ (shared.ctx ⟨0, 3⟩).mode = .off := ready_of (by decide)
/-- The package whose core has the program's task. -/
def tasked (w : View) : State := package { Core.reset with table := [entry 7] } (running w)
theorem wit_halt : ∃ o, (tasked { View.reset with s := [(1, 3)] }).ready l0 (.halt (s1in 0)) o ∧ o.op = .halt ∧ o.xw.toNat < 2 ^ 32 ∧
    ((tasked { View.reset with s := [(1, 3)] }).ctx l0).straight ∧ ((tasked { View.reset with s := [(1, 3)] }).ctx l0).binding = some bound ∧
    ((tasked { View.reset with s := [(1, 3)] }).ctx l0).landings = [] ∧ ((tasked { View.reset with s := [(1, 3)] }).ctx l0).late = [] ∧
    ((tasked { View.reset with s := [(1, 3)] }).ctx l0).saved = none ∧ ((tasked { View.reset with s := [(1, 3)] }).core 0).ddq = [] ∧
    entry 7 ∈ ((tasked { View.reset with s := [(1, 3)] }).core 0).table ∧ (entry 7).id = bound.task := ready_of (by decide)
/-- The package whose program has a step of a domain in the integrator queue. -/
def stepping : State :=
  package { Core.reset with table := [entry 7], ddq := [⟨5, ⟨0, bound, 0⟩, .step, .word 0, 5, 0, 0, none, 0, none, [5], [], [], []⟩] }
    (running { View.reset with s := [(1, 3)] })
theorem wit_halt_held : ∃ o, stepping.ready l0 (.halt (s1in 0)) o ∧ o.op = .halt ∧ o.xw.toNat < 2 ^ 32 ∧ (stepping.ctx l0).straight ∧
    (stepping.ctx l0).binding = some bound ∧ (stepping.ctx l0).landings = [] ∧ (stepping.ctx l0).late = [] ∧ (stepping.ctx l0).saved = none ∧
    entry 7 ∈ (stepping.core 0).table ∧ (∃ e ∈ (stepping.core 0).ddq, e.who.ctx = l0.ctx ∧ e.who.bind.prog = bound.prog) := ready_of (by decide)
theorem wit_gbase : ∃ o, (demoOf [(1, 120)] .pd (words 0 0 0)).ready l0 (.gbase (s1in 0)) o ∧ o.op = .gbase ∧ o.xw.toNat ≤ 120 ∧
    ((demoOf [(1, 120)] .pd (words 0 0 0)).ctx l0).straight := ready_of (by decide)
theorem wit_crr : ∃ o, (demoOf [(1, 2)] .pd (words 0 0 0)).ready l0 (.crr (s1in 0)) o ∧ o.op = .crr ∧ o.xw = 0x002 := ready_of (by decide)
theorem wit_crw : ∃ o, (demoOf [(1, 0x2001)] .pd (words 2 0 0)).ready l0 (.crw (s1in 0)) o ∧ o.op = .crw ∧ o.b = 0x002 ∧ o.xw &&& 0x6 = 0 ∧
    ((demoOf [(1, 0x2001)] .pd (words 2 0 0)).ctx l0).straight ∧ ((demoOf [(1, 0x2001)] .pd (words 2 0 0)).ctx l0).cur.flights = [] ∧
    o.dest = some (.s, 2) := ready_of (by decide)
theorem wit_crw_gbase : ∃ o, (demoOf [(1, 120)] .pd (words 1 0 0)).ready l0 (.crw (s1in 0)) o ∧ o.op = .crw ∧ o.b = 0x001 ∧
    o.xw.toNat ≤ 120 := ready_of (by decide)
theorem wit_crw_others : ∀ n ∈ ([0x000, 0x004, 0x006] : List Word), ∃ o, (demoOf [(1, 8)] .pd (words n 0 0)).ready l0 (.crw (s1in 0)) o ∧
    o.op = .crw ∧ o.b = n := by
  intro n h
  rcases List.mem_cons.mp h with rfl | h
  · exact ready_of (by decide)
  rcases List.mem_cons.mp h with rfl | h
  · exact ready_of (by decide)
  · cases List.mem_singleton.mp h; exact ready_of (by decide)
theorem wit_crr_refused : ∃ o, (demoOf [(1, 0xA3)] .pd (words 0 0 0)).ready l0 (.crr (s1in 0)) o ∧ o.op = .crr ∧ 0x0A3 ≤ o.xw.toNat ∧
    o.xw.toNat < 2 ^ 12 := ready_of (by decide)
theorem wit_crw_refused : ∃ o, (demoOf [(1, 0)] .pd (words 0xFFF 0 0)).ready l0 (.crw (s1in 0)) o ∧ o.op = .crw ∧ 0x0A3 ≤ o.b.toNat ∧
    o.b.toNat < 2 ^ 12 := ready_of (by decide)
theorem wit_crw_read_only : ∃ o, (demoOf [(1, 0)] .pd (words 9 0 0)).ready l0 (.crw (s1in 0)) o ∧ o.op = .crw ∧ o.prov = false ∧
    o.b ∈ ([0x003, 0x007, 0x009, 0x010, 0x040, 0x0A0, 0x0A1, 0x0A2] : List Word) := ready_of (by decide)
theorem wit_qos : ∃ o, (demoOf [(1, 0)] .pd (words 0 0 0)).ready l0 (.qos (s1in 0)) o ∧ o.op = .qos ∧ o.xw = 0 ∧
    ((demoOf [(1, 0)] .pd (words 0 0 0)).ctx l0).binding = some bound := ready_of (by decide)

/-! ### Witnesses: encoding, the step and the moves of a bundle -/

theorem wit_encoded : wellFormed (.add 1 (s1in 1)) = true ∧ encode (.add 1 (s1in 1)) =
    some ([0, 0, 0, 0x50, 0x03, 0x04] ++ List.replicate 18 0) := by decide
/-- The package when the schedule gives the turn to core 0. -/
def scheduled (x : Ctx) : State := { package .reset x with agenda := [.issue 0] }
theorem wit_step : (scheduled (running .reset)).agenda = .issue 0 :: [] ∧ ((scheduled (running .reset)).core 0).running = some 0 ∧
    ((scheduled (running .reset)).core 0).taken = none ∧ ((scheduled (running .reset)).ctx l0).binding = some bound ∧
    (scheduled (running .reset)).images.find? bound.image = some image ∧ ((scheduled (running .reset)).ctx l0).pc.toNat % 8 = 0 ∧
    image.base.toNat ≤ ((scheduled (running .reset)).ctx l0).pc.toNat ∧
    ((scheduled (running .reset)).ctx l0).pc.toNat + 24 ≤ image.base.toNat + image.size := by decide
theorem wit_step_decodes : decode (image.text.bytes 0 24) = .ok (.transportMove (List.replicate 8 Item.empty), []) := by decide
theorem wit_step_event : ({ demo .reset with agenda := [.event (.tokenRefill 3)] } : State).agenda = .event (.tokenRefill 3) :: [] := rfl
theorem wit_fetch_misaligned : ((scheduled { running .reset with pc := 0x1001 }).ctx l0).boundaryTrap = none ∧
    ((scheduled { running .reset with pc := 0x1001 }).ctx l0).pc.toNat % 8 ≠ 0 := by decide
theorem wit_fetch_outside : ((scheduled { running .reset with pc := 0x10E0 }).ctx l0).boundaryTrap = none ∧
    ((scheduled { running .reset with pc := 0x10E0 }).ctx l0).pc.toNat % 8 = 0 ∧
    image.base.toNat + image.size < ((scheduled { running .reset with pc := 0x10E0 }).ctx l0).pc.toNat + 24 := by decide
/-- The package whose register s1 is empty. -/
def emptied : State := demo { View.reset with emptyS := 2 }
theorem wit_guarded_off : (demo .reset).mayIssue l0 ∧
    (Instr.add 0 ⟨0, 9, false, false, .reg .s 1⟩).trigger? = some (.sx0, .add, ⟨0, 9, false, false, .reg .s 1⟩) ∧
    ((demo .reset).ctx l0).cur.guard 9 = true ∧ ((demo { View.reset with p := 3 }).ctx l0).cur.guard 9 = false ∧
    (demo { View.reset with p := 3 }).mayIssue l0 := by decide
theorem wit_empty_source : emptied.mayIssue l0 ∧ (Instr.jmp (s1in 0)).trigger? = some (.br, .jmp, s1in 0) ∧
    (emptied.ctx l0).cur.guard 0 = true ∧ (emptied.ctx l0).straight ∧ RFile.s ∈ busReads (slotBus 0) ∧
    (emptied.ctx l0).cur.isEmpty .s 1 = true ∧ (fileWidth .s).adapts (opSem .jmp).xw = true ∧ (opSem .jmp).latches = [] ∧
    (opSem .jmp).sel = none := by decide
/-- Its checks find no trap without the source. -/
theorem wit_empty_source_waits : ∀ p ∈ (opSem .jmp).parts, 0 ∉ p.uses → ∀ o, p.test (emptied.take l0) l0 o = none := by
  intro p hp h0 o
  simp only [opSem, semJmp, transferSem, List.mem_cons, List.not_mem_nil, or_false] at hp
  rcases hp with rfl | rfl | rfl
  all_goals rfl
/-- An RTE outside a handler whose source is empty: its check of the place finds the trap of cause 13 without it, and the one before it none. -/
theorem wit_empty_source_traps : emptied.mayIssue l0 ∧ (Instr.rte (s1in 0)).trigger? = some (.br, .rte, s1in 0) ∧
    (fileWidth .s).adapts (opSem .rte).xw = true ∧ (opSem .rte).latches = [] ∧ (opSem .rte).sel = none ∧
    ∃ p q rest, (opSem .rte).parts = [p] ++ q :: rest ∧ (∀ o, p.test (emptied.take l0) l0 o = none) ∧ 0 ∉ q.uses ∧ q.stage < 4 ∧
      ∀ o, q.test (emptied.take l0) l0 o = some (sequenceTrap 13) :=
  ⟨by decide, by decide, by decide, by decide, by decide, _, _, [], rfl, fun _ => rfl, by decide, by decide, fun _ => rfl⟩
theorem wit_unconnected : (demo .reset).mayIssue l0 ∧ (Instr.jmp (v1in 0)).trigger? = some (.br, .jmp, v1in 0) ∧
    ((demo .reset).ctx l0).cur.guard 0 = true ∧ ((demo .reset).ctx l0).straight ∧ RFile.v ∉ busReads (slotBus 0) := by decide
theorem wit_width : RFile.v ∈ busReads (slotBus 6) ∧ (fileWidth .v).adapts (opSem .ld8).xw = false ∧
    (Instr.ld8Ls0 (v1in 6)).trigger? = some (.ls0, .ld8, v1in 6) ∧ 1 < ((demo .reset).core 0).vcount 0 := by decide
theorem wit_exchange : (demoOf [(1, 5), (2, 6)] .sx0 .reset).mayIssue l0 ∧ ((demoOf [(1, 5), (2, 6)] .sx0 .reset).ctx l0).straight ∧
    ((demoOf [(1, 5), (2, 6)] .sx0 .reset).ctx l0).fence = [] ∧ ((demoOf [(1, 5), (2, 6)] .sx0 .reset).ctx l0).cur.flights = [] ∧
    ((demoOf [(1, 5), (2, 6)] .sx0 .reset).ctx l0).cur.isEmpty .s 1 = false := by decide
/-- Two moves of a bundle exchange s1 and s2 (R29). -/
theorem test_exchange : after (exec (.transportMove ([.move 0 false false (.reg .s 1) (.reg .s 2), .move 0 false false (.reg .s 2) (.reg .s 1)] ++
      List.replicate 6 Item.empty)) (demoOf [(1, 5), (2, 6)] .sx0 .reset)) (fun t =>
    (t.ctx l0).cur.readReg .s 1 == .word 6 && (t.ctx l0).cur.readReg .s 2 == .word 5) = true := by decide
theorem wit_handled : Spec.handled ⟨.software, 0, 0, 0, 0, 0⟩ ∧ ((handling [] .reset).ctx l0).cur.flights = [] ∧
    ((handling [] .reset).ctx l0).undo = [] ∧ ((handling [] .reset).ctx l0).releases = [] ∧ ((handling [] .reset).ctx l0).fin = none ∧
    ((handling [] .reset).ctx l0).cur.ctl.tvec.getLsbD 0 = true := by decide
theorem wit_unhandled : ¬ Spec.handled (illegal 6) ∧ ((demo .reset).ctx l0).saved = none ∧ ((demo .reset).dev 0 1).flog.length < 64 ∧
    ((demo .reset).ctx l0).binding = some bound := by decide
/-- The package with boundary traps due. -/
def due (mem arith over_ : Bool) : State :=
  package .reset { running .reset with memErrDue := mem, arithDue := arith, overrunDue := over_ }
theorem wit_boundary : ∀ m a r, (due m a r).turn = some l0 ∧ ((due m a r).ctx l0).memErrDue = m ∧ ((due m a r).ctx l0).arithDue = a ∧
    ((due m a r).ctx l0).overrunDue = r := by decide
theorem wit_frame : ∃ t, exec (.add 0 (s1in 0)) (demoOf [(1, 5)] .sx0 (words 7 0 0)) = .next t := ⟨_, rfl⟩
theorem wit_transfer_frame : ∃ o t, (demoOf [(1, 72)] .br .reset).ready l0 (.jmp (s1in 0)) o ∧
    ((demoOf [(1, 72)] .br .reset).ctx l0).cur.flights = [] ∧ exec (.jmp (s1in 0)) (demoOf [(1, 72)] .br .reset) = .next t ∧
    (t.ctx l0).cur.ctl.hndst = ((demoOf [(1, 72)] .br .reset).ctx l0).cur.ctl.hndst := by
  obtain ⟨o, h, -⟩ := wit_transfer
  exact ⟨o, _, h, rfl, rfl, by decide⟩

/-! ### Witnesses: tiles, engines and integrators -/

/-- The descriptor of a tile that lies from the start of a bank on. -/
def tileAt (bank ew kdim rows cols : Nat) : Word :=
  BitVec.ofNat 64 (bank * 2 ^ 10 + ew * 2 ^ 17 + kdim * 2 ^ 19 + (rows - 1) * 2 ^ 20 + (cols - 1) * 2 ^ 32)
/-- A tile that is ready. -/
def readyTile (d : Word) : Tile := ⟨d, { TileStat.reset with state := 2 }⟩
/-- A core whose program 7 holds banks 40 to 49 in their formats, owns z0, has a frame in slot 0 and has copy template 0, whose slots give
two capabilities and a control word, and queue 3. -/
def engineCore : Core :=
  { Core.reset with
    claims := (List.range 10).map fun i => ⟨7, 40 + i, true, .held, []⟩
    fmt := [(40, 1), (41, 1), (42, 1), (43, 2), (44, 2), (45, 0x44)]
    ztiles := [(0, { ZTile.reset with owner := some 7, stat := { TileStat.reset with state := 2 } })]
    slots := [(0, ⟨some 0, false, 0, 0⟩)]
    frames := [(0, ⟨5, 2, 46, 32, 9, 0, false, 1⟩)]
    frameId := 1
    queues := [(3, { Queue.reset with base8 := 400000, lcap := 2, en := true, owner := some 7, count := 1 })]
    templates := [(0, ⟨some 7, [(0, grant), (1, grant), (2, ⟨0, false⟩)]⟩)] }
/-- Its context: tiles 0 to 2 of 32 rows of FP32, tile 3 as an A tile, tile 4 as a W tile, tile 5 of bit planes; 64 cells and a domain. -/
def engineCtx (w : View) : Ctx :=
  { running { w with ctl := { w.ctl with ddgrant := 0x101, domclk := [(0, 2)] }, mp := [(0, 3), (1, 4), (2, 32)] } with
    tiles := [(0, readyTile (tileAt 40 2 0 32 128)), (1, readyTile (tileAt 41 2 0 32 128)), (2, readyTile (tileAt 42 2 0 32 128)),
      (3, readyTile (tileAt 43 1 1 32 32)), (4, readyTile (tileAt 44 1 0 32 32)), (5, readyTile (tileAt 45 0 0 32 128))] }
/-- A package whose firmware gives tenant 1 the microprogram-write right. -/
def licensed (s : State) : State :=
  { s with pavs := s.pavs.map fun e => (e.1, { e.2 with slot := some ⟨1, 0, [⟨1, true, []⟩]⟩ }) }
/-- The package whose s1 holds the trigger value, at a unit with words in its latches. -/
def engine (u : UnitId) (x b c : Word) : State :=
  licensed (package engineCore (engineCtx { View.reset with s := [(1, x)], ports := [(u.num, words b c 0)] }))
/-- The package whose v1 is the trigger value; the selector names v2. -/
def engineV (u : UnitId) (x : Vec) (b c : Word) : State :=
  package engineCore (engineCtx { View.reset with
    v := [(1, x)], ports := [(u.num, ⟨word b, word c, .reset, some ⟨some .v, 2, 0⟩, none⟩)] })
/-- The package whose s1 holds the trigger value and whose selector names v2. -/
def engineR (u : UnitId) (x b : Word) : State :=
  package engineCore (engineCtx { View.reset with
    s := [(1, x)], ports := [(u.num, ⟨word b, .reset, .reset, some ⟨some .v, 2, 0⟩, none⟩)] })
/-- A frame command on a slot, with no barrier. -/
def command (slot : Word) : Word := slot ||| 0x800000
/-- Whether a row is ready and passes its checks. -/
def passing (s : State) (i : Instr) (p : Opd → Bool) : Bool :=
  isReady s l0 i fun o => p o && decide ((s.take l0).passes l0 o)

/-- A row is ready and passes its checks, with operands that meet a condition. -/
theorem passing_of {s : State} {i : Instr} {P : Opd → Prop} [DecidablePred P]
    (h : passing s i (fun o => decide (P o)) = true) : ∃ o, s.ready l0 i o ∧ (s.take l0).passes l0 o ∧ P o := by
  obtain ⟨o, h1, h2⟩ := ready_of (s := s) (l := l0) (i := i) (P := fun o => P o ∧ (s.take l0).passes l0 o) (by
    simpa only [passing, Bool.decide_and] using h)
  exact ⟨o, h1, h2.2, h2.1⟩

theorem wit_tdesc : ∃ o, (engine .mx (tileAt 40 2 0 32 128) 6 0).ready l0 (.tdesc (s1in 5)) o ∧
    ((engine .mx (tileAt 40 2 0 32 128) 6 0).take l0).passes l0 o ∧ o.op = .tdesc := passing_of (by decide)
theorem wit_tstat : ∃ o, (engine .mx 31 0 0).ready l0 (.tstat (s1in 5)) o ∧
    ((engine .mx 31 0 0).take l0).passes l0 o ∧ o.op = .tstat ∧ o.xw.toNat < 32 := passing_of (by decide)
theorem wit_tset : ∃ o, (engine .mx 3 0x18 0).ready l0 (.tset (s1in 5)) o ∧
    ((engine .mx 3 0x18 0).take l0).passes l0 o ∧ o.op = .tset ∧ o.xw.toNat < 32 := passing_of (by decide)
theorem wit_mcall : ∃ o, (engine .mx 0 0 0).ready l0 (.mcall (s1in 5)) o ∧
    ((engine .mx 0 0 0).take l0).passes l0 o ∧ o.op = .mcall := passing_of (by decide)
theorem wit_mwr : ∃ o, (engine .mx 7 2000 0).ready l0 (.mwr (s1in 5)) o ∧
    ((engine .mx 7 2000 0).take l0).passes l0 o ∧ o.op = .mwr := passing_of (by decide)
theorem wit_quant : ∃ o, (engine .mx 5 0 0).ready l0 (.quant (s1in 5)) o ∧
    ((engine .mx 5 0 0).take l0).passes l0 o ∧ o.op = .quant := passing_of (by decide)
theorem wit_azero : ∃ o, (engine .mx 33 0 0).ready l0 (.azero (s1in 5)) o ∧
    ((engine .mx 33 0 0).take l0).passes l0 o ∧ o.op = .azero := passing_of (by decide)
theorem wit_awrite : ∃ o, (engineV .mx (splat 3) 32 127).ready l0 (.awrite (v1in 5)) o ∧
    ((engineV .mx (splat 3) 32 127).take l0).passes l0 o ∧ o.op = .awrite := passing_of (by decide)
theorem wit_anorm : ∃ o, (engine .mx 32 0 0).ready l0 (.anorm (s1in 5)) o ∧
    ((engine .mx 32 0 0).take l0).passes l0 o ∧ o.op = .anorm := passing_of (by decide)
theorem wit_acvt : ∃ o, (engine .mx 0 32 0).ready l0 (.acvt (s1in 5)) o ∧
    ((engine .mx 0 32 0).take l0).passes l0 o ∧ o.op = .acvt := passing_of (by decide)
theorem wit_aread : ∃ o, (engineR .mx 32 127).ready l0 (.aread (s1in 5)) o ∧ ((engineR .mx 32 127).take l0).passes l0 o ∧ o.op = .aread ∧
    ((engineR .mx 32 127).ctx l0).straight ∧ ((engineR .mx 32 127).ctx l0).cur.flights = [] ∧ o.dest = some (.v, 2) := passing_of (by decide)
theorem wit_sread : ∃ o, (engineR .sc 0 0).ready l0 (.sread (s1in 5)) o ∧ ((engineR .sc 0 0).take l0).passes l0 o ∧ o.op = .sread ∧
    ((engineR .sc 0 0).ctx l0).straight ∧ ((engineR .sc 0 0).ctx l0).cur.flights = [] ∧ (o.xw.extractLsb' 18 2).toNat = 0 := passing_of (by decide)
theorem wit_fstat : ∃ o, (engine .fr 0 1 0).ready l0 (.fstat (s1in 5)) o ∧ ((engine .fr 0 1 0).take l0).passes l0 o ∧ o.op = .fstat ∧
    ((engine .fr 0 1 0).ctx l0).straight ∧ ((engine .fr 0 1 0).ctx l0).cur.flights = [] ∧ (o.b.extractLsb' 0 2).toNat = 1 := passing_of (by decide)
theorem wit_scfg : ∃ o, (engine .sc 0 0 0).ready l0 (.scfg (s1in 5)) o ∧
    ((engine .sc 0 0 0).take l0).passes l0 o ∧ o.op = .scfg ∧ ((engine .sc 0 0 0).ctx l0).cur.flights = [] := passing_of (by decide)
theorem wit_sload : ∃ o, (engine .sc 0 0 0).ready l0 (.sload (s1in 5)) o ∧ ((engine .sc 0 0 0).take l0).passes l0 o ∧ o.op = .sload :=
  passing_of (by decide)
theorem wit_scomp : ∃ o, (engine .sc 0 1 0).ready l0 (.scomp (s1in 5)) o ∧ ((engine .sc 0 1 0).take l0).passes l0 o ∧ o.op = .scomp :=
  passing_of (by decide)
theorem wit_scarry : ∃ o, (engine .sc 0 1 0).ready l0 (.scarry (s1in 5)) o ∧ ((engine .sc 0 1 0).take l0).passes l0 o ∧ o.op = .scarry :=
  passing_of (by decide)
theorem wit_sapply : ∃ o, (engine .sc 0 1 2).ready l0 (.sapply (s1in 5)) o ∧ ((engine .sc 0 1 2).take l0).passes l0 o ∧ o.op = .sapply :=
  passing_of (by decide)
theorem wit_fbind : ∃ o, (engine .fr (command 1) 0x30004 47).ready l0 (.fbind (s1in 5)) o ∧
    ((engine .fr (command 1) 0x30004 47).take l0).passes l0 o ∧ o.op = .fbind := passing_of (by decide)
theorem wit_fork : ∃ o, (engine .fr (command 1) 0x700030004 47).ready l0 (.fork (s1in 5)) o ∧
    ((engine .fr (command 1) 0x700030004 47).take l0).passes l0 o ∧ o.op = .fork := passing_of (by decide)
theorem wit_fswap : ∃ o, (engine .fr (command 0) 0x30004 0).ready l0 (.fswap (s1in 5)) o ∧
    ((engine .fr (command 0) 0x30004 0).take l0).passes l0 o ∧ o.op = .fswap := passing_of (by decide)
theorem wit_snap : ∃ o, (engine .fr (command 0) 0 0).ready l0 (.snap (s1in 5)) o ∧
    ((engine .fr (command 0) 0 0).take l0).passes l0 o ∧ o.op = .snap := passing_of (by decide)
theorem wit_roll : ∃ o, (engine .fr (command 0) 0 0).ready l0 (.roll (s1in 5)) o ∧
    ((engine .fr (command 0) 0 0).take l0).passes l0 o ∧ o.op = .roll := passing_of (by decide)
theorem wit_fdrop : ∃ o, (engine .fr (command 0) 0 0).ready l0 (.fdrop (s1in 5)) o ∧
    ((engine .fr (command 0) 0 0).take l0).passes l0 o ∧ o.op = .fdrop := passing_of (by decide)

/-- What the statement about the integrators asks beside the checks. -/
abbrev idle (s : State) (o : Opd) : Prop := (s.core 0).ddq = [] ∧ (s.ctx l0).cur.ctl.domclk = [(0, 2)] ∧ o.op ∈ opsOf .dd

theorem wit_dd_runs : ∀ u x b c d, ((engine u x b c).ctx l0).cur.runs d = false := by
  intro u x b c d
  show (Table.getD [(0, (2 : Word))] d 0).getLsbD 16 = false
  by_cases h : d = 0
  · subst h; decide
  · have : Table.getD [(0, (2 : Word))] d 0 = 0 := by simp [Table.getD, Table.find?, Ne.symm h]
    rw [this]; rfl
theorem wit_patch : ∃ o, (engine .dd 0x20 63 0).ready l0 (.patch (s1in 5)) o ∧ ((engine .dd 0x20 63 0).take l0).passes l0 o ∧
    idle (engine .dd 0x20 63 0) o ∧ o.op = .patch := passing_of (by decide)
theorem wit_dd_writes : ∀ i ∈ ([.sety (v1in 5), .setr (v1in 5), .inject (v1in 5)] : List Instr), ∃ o, (engineV .dd (splat 3) 0x200 0).ready l0 i o ∧
    ((engineV .dd (splat 3) 0x200 0).take l0).passes l0 o ∧ idle (engineV .dd (splat 3) 0x200 0) o := by
  intro i h
  simp only [List.mem_cons, List.not_mem_nil, or_false] at h
  rcases h with rfl | rfl | rfl <;> exact passing_of (by decide)
theorem wit_dd_reads : ∀ i ∈ ([.gety (s1in 5), .getr (s1in 5), .cnt (s1in 5)] : List Instr), ∃ o, (engineR .dd 0x20201 0).ready l0 i o ∧
    ((engineR .dd 0x20201 0).take l0).passes l0 o ∧ idle (engineR .dd 0x20201 0) o := by
  intro i h
  simp only [List.mem_cons, List.not_mem_nil, or_false] at h
  rcases h with rfl | rfl | rfl <;> exact passing_of (by decide)
theorem wit_dd_runs_start : ∀ i ∈ ([.step (s1in 5), .start (s1in 5), .stop (s1in 5)] : List Instr), ∃ o, (engine .dd 0 5 0).ready l0 i o ∧
    ((engine .dd 0 5 0).take l0).passes l0 o ∧ idle (engine .dd 0 5 0) o := by
  intro i h
  simp only [List.mem_cons, List.not_mem_nil, or_false] at h
  rcases h with rfl | rfl | rfl <;> exact passing_of (by decide)
theorem wit_dd_records : ∀ i ∈ ([.dsave (s1in 5), .dload (s1in 5)] : List Instr), ∃ o,
    (engine .dd (48 * 2048) 0x2000000002 0).ready l0 i o ∧ ((engine .dd (48 * 2048) 0x2000000002 0).take l0).passes l0 o ∧
      idle (engine .dd (48 * 2048) 0x2000000002 0) o ∧ o.b.getLsbD 37 = true := by
  intro i h
  simp only [List.mem_cons, List.not_mem_nil, or_false] at h
  rcases h with rfl | rfl <;> exact passing_of (by decide)

/-! ### Witnesses: memory -/

/-- The package whose s1 holds the trigger value, at a unit whose latches hold a capability, an offset and an operand; lane 0
alone is enabled. -/
def memory (u : UnitId) (k : Cap) (x off : Word) (c : Value) : State :=
  demo { View.reset with
    s := [(1, x)], a := [(1, grant)], v := [(1, splat 0x40)], stack := [1]
    ports := [(u.num, ⟨holds (.cap k), word off, holds c, some ⟨some .s, 2, 0⟩, none⟩)] }
/-- The same with a selector of another file. -/
def memoryF (u : UnitId) (f : RFile) (x off : Word) (c : Value) : State :=
  demo { View.reset with
    s := [(1, x)], a := [(1, grant)], v := [(1, splat 0x40)], stack := [1]
    ports := [(u.num, ⟨holds (.cap grant), word off, holds c, some ⟨some f, 2, 0⟩, none⟩)] }
/-- Whether the checks of an access find no fault. -/
def isAccessible (s : State) (o : Opd) : Bool :=
  match (opSem o.op).access with
  | some check => decide (check (s.waiting l0 o) l0 o = none ∧ (opSem o.op).blocks (s.waiting l0 o) l0 o = false)
  | none => false

/-- A row is ready and its access passes its checks, with operands that meet a condition. -/
theorem accessing_of {s : State} {i : Instr} {P : Opd → Prop} [DecidablePred P]
    (h : isReady s l0 i (fun o => decide (isAccessible s o = true ∧ P o)) = true) : ∃ o, s.ready l0 i o ∧ s.accessible l0 o ∧ P o := by
  obtain ⟨o, h1, h2, h3⟩ := ready_of (s := s) (l := l0) (i := i) (P := fun o => isAccessible s o = true ∧ P o) h
  refine ⟨o, h1, ?_, h3⟩
  unfold isAccessible at h2
  split at h2
  · exact ⟨_, ‹_›, of_decide_eq_true h2⟩
  · cases h2

/-- A range is one place in a line, of a live key, with no poison. -/
abbrev single (t : State) (ps : List Piece) (size : Nat) : Prop :=
  ps.length = 1 ∧ ∀ p ∈ ps, p.len = size ∧ p.place.pa % 64 + size ≤ 64 ∧ t.keyDead p.place.kidx = false ∧
    t.poison.getD (p.place.pa / 64) false = false

theorem wit_load : ∃ o, (memory .ls0 grant 16 8 (.word 0)).ready l0 (.ld64Ls0 (s1in 6)) o ∧ (memory .ls0 grant 16 8 (.word 0)).accessible l0 o ∧
    ((memory .ls0 grant 16 8 (.word 0)).ctx l0).straight ∧ ((memory .ls0 grant 16 8 (.word 0)).ctx l0).cur.flights = [] ∧
    Spec.loadOf o.op = some (8, true) ∧
    ∀ p ∈ ((memory .ls0 grant 16 8 (.word 0)).waiting l0 o).parts l0 o.loadAddr 8 false,
      ((memory .ls0 grant 16 8 (.word 0)).waiting l0 o).piecePoisoned p = false := accessing_of (by decide)
theorem wit_ldc : ∃ o, (memoryF .ls1 .a 0 16 (.word 0)).ready l0 (.ldcLs1 (s1in 7)) o ∧ (memoryF .ls1 .a 0 16 (.word 0)).accessible l0 o ∧
    o.op = .ldc ∧ ∀ p ∈ ((memoryF .ls1 .a 0 16 (.word 0)).waiting l0 o).parts l0 o.loadAddr 16 false,
      ((memoryF .ls1 .a 0 16 (.word 0)).waiting l0 o).piecePoisoned p = false := accessing_of (by decide)
theorem wit_store : ∃ o, (memory .ls0 grant 0x1234 8 (.word 0)).ready l0 (.st32Ls0 (s1in 6)) o ∧
    (memory .ls0 grant 0x1234 8 (.word 0)).accessible l0 o ∧ Spec.storeOf o = some (4, 0x1234) ∧
    single ((memory .ls0 grant 0x1234 8 (.word 0)).waiting l0 o)
      (((memory .ls0 grant 0x1234 8 (.word 0)).waiting l0 o).parts l0 o.storeAddr 4 true) 4 := accessing_of (by decide)
theorem wit_stc : ∃ o, (memory .ls0 grant 0 16 (.word 0)).ready l0 (.stcLs0 (a1in 6)) o ∧ (memory .ls0 grant 0 16 (.word 0)).accessible l0 o ∧
    o.op = .stc ∧ single ((memory .ls0 grant 0 16 (.word 0)).waiting l0 o)
      (((memory .ls0 grant 0 16 (.word 0)).waiting l0 o).parts l0 o.storeAddr 16 true) 16 := accessing_of (by decide)
/-- ST32 of 0x1234 at 0x10008, accepted: the bytes stand in memory, little-endian (R196). -/
theorem test_st32 : after (exec (.st32Ls0 (s1in 6)) (memory .ls0 grant 0x1234 8 (.word 0))) (fun t =>
    after (exec (.accessAcceptance 0 0) t) fun u => u.mem.byte 0x10008 == 0x34 && u.mem.byte 0x10009 == 0x12 && (u.ctx l0).pc == 0x1018) = true := by
  decide
/-- LD16 of 0xFFFE, accepted, sends -2 (R196). -/
theorem test_ld16 : after (exec (.ld16Ls0 (s1in 6)) { memory .ls0 grant 0 8 (.word 0) with
        mem := tables ++ [(0x10008, 0xFE), (0x10009, 0xFF)] })
    (fun t => after (exec (.accessAcceptance 0 0) t) fun u =>
      (u.ctx l0).landings.all fun e => e.2.value == some (.word (-2))) = true := by decide
/-- The failures of a scalar load, in their order: the tag, the seal, the tenant, the grant, the bounds, the alignment. -/
theorem wit_failures : ∃ o1 o2 o3 o4 o5 o6 : Opd,
    ((memory .ls0 { grant with tag := false } 0 0 (.word 0)).ready l0 (.ld64Ls0 (s1in 6)) o1 ∧ o1.cap.tag = false ∧ o1.prov = false) ∧
    ((memory .ls0 (Spec.capability 0x10000 8 0x41 1) 0 0 (.word 0)).ready l0 (.ld64Ls0 (s1in 6)) o2 ∧ o2.cap.tag = true ∧
      o2.cap.perm.getLsbD 6 = true) ∧
    ((memory .ls0 (Spec.capability 0x10000 8 0x01 2) 0 0 (.word 0)).ready l0 (.ld64Ls0 (s1in 6)) o3 ∧ o3.cap.tag = true ∧
      o3.cap.perm.getLsbD 6 = false ∧ o3.cap.tenant ≠ (memory .ls0 (Spec.capability 0x10000 8 0x01 2) 0 0 (.word 0)).tenantOf l0) ∧
    ((memory .ls0 (Spec.capability 0x10000 8 0x02 1) 0 0 (.word 0)).ready l0 (.ld64Ls0 (s1in 6)) o4 ∧ o4.cap.tag = true ∧
      o4.cap.perm.getLsbD 6 = false ∧ o4.cap.tenant = (memory .ls0 (Spec.capability 0x10000 8 0x02 1) 0 0 (.word 0)).tenantOf l0 ∧
      o4.cap.perm &&& 0x01 = 0) ∧
    ((memory .ls0 (Spec.capability 0x10000 8 0x01 1) 1 0 (.word 0)).ready l0 (.ld64Ls0 (s1in 6)) o5 ∧ o5.cap.tag = true ∧
      o5.cap.perm.getLsbD 6 = false ∧ o5.cap.tenant = (memory .ls0 (Spec.capability 0x10000 8 0x01 1) 1 0 (.word 0)).tenantOf l0 ∧
      o5.cap.perm &&& 0x01 ≠ 0 ∧ o5.cap.perm.getLsbD 4 = false ∧ (o5.cap.base + o5.cap.len : Int) < o5.loadAddr + 8) ∧
    ((memory .ls0 grant 1 0 (.word 0)).ready l0 (.ld64Ls0 (s1in 6)) o6 ∧ o6.cap.tag = true ∧ o6.cap.perm.getLsbD 6 = false ∧
      o6.cap.tenant = (memory .ls0 grant 1 0 (.word 0)).tenantOf l0 ∧ o6.cap.perm &&& 0x01 ≠ 0 ∧ o6.cap.perm.getLsbD 4 = false ∧
      (o6.cap.base : Int) ≤ o6.loadAddr ∧ o6.loadAddr + 8 ≤ (o6.cap.base + o6.cap.len : Int) ∧ o6.loadAddr % 8 ≠ 0) := by
  obtain ⟨a, ha, ha'⟩ := ready_of (s := memory .ls0 { grant with tag := false } 0 0 (.word 0)) (l := l0) (i := .ld64Ls0 (s1in 6))
    (P := fun o => o.cap.tag = false ∧ o.prov = false) (by decide)
  obtain ⟨b, hb, hb'⟩ := ready_of (s := memory .ls0 (Spec.capability 0x10000 8 0x41 1) 0 0 (.word 0)) (l := l0) (i := .ld64Ls0 (s1in 6))
    (P := fun o => o.cap.tag = true ∧ o.cap.perm.getLsbD 6 = true) (by decide)
  obtain ⟨d, hd, hd'⟩ := ready_of (s := memory .ls0 (Spec.capability 0x10000 8 0x01 2) 0 0 (.word 0)) (l := l0) (i := .ld64Ls0 (s1in 6))
    (P := fun o => o.cap.tag = true ∧ o.cap.perm.getLsbD 6 = false ∧
      o.cap.tenant ≠ (memory .ls0 (Spec.capability 0x10000 8 0x01 2) 0 0 (.word 0)).tenantOf l0) (by decide)
  obtain ⟨e, he, he'⟩ := ready_of (s := memory .ls0 (Spec.capability 0x10000 8 0x02 1) 0 0 (.word 0)) (l := l0) (i := .ld64Ls0 (s1in 6))
    (P := fun o => o.cap.tag = true ∧ o.cap.perm.getLsbD 6 = false ∧
      o.cap.tenant = (memory .ls0 (Spec.capability 0x10000 8 0x02 1) 0 0 (.word 0)).tenantOf l0 ∧ o.cap.perm &&& 0x01 = 0) (by decide)
  obtain ⟨f, hf, hf'⟩ := ready_of (s := memory .ls0 (Spec.capability 0x10000 8 0x01 1) 1 0 (.word 0)) (l := l0) (i := .ld64Ls0 (s1in 6))
    (P := fun o => o.cap.tag = true ∧ o.cap.perm.getLsbD 6 = false ∧
      o.cap.tenant = (memory .ls0 (Spec.capability 0x10000 8 0x01 1) 1 0 (.word 0)).tenantOf l0 ∧ o.cap.perm &&& 0x01 ≠ 0 ∧
      o.cap.perm.getLsbD 4 = false ∧ (o.cap.base + o.cap.len : Int) < o.loadAddr + 8) (by decide)
  obtain ⟨g, hg, hg'⟩ := ready_of (s := memory .ls0 grant 1 0 (.word 0)) (l := l0) (i := .ld64Ls0 (s1in 6))
    (P := fun o => o.cap.tag = true ∧ o.cap.perm.getLsbD 6 = false ∧ o.cap.tenant = (memory .ls0 grant 1 0 (.word 0)).tenantOf l0 ∧
      o.cap.perm &&& 0x01 ≠ 0 ∧ o.cap.perm.getLsbD 4 = false ∧ (o.cap.base : Int) ≤ o.loadAddr ∧
      o.loadAddr + 8 ≤ (o.cap.base + o.cap.len : Int) ∧ o.loadAddr % 8 ≠ 0) (by decide)
  exact ⟨a, b, d, e, f, g, ⟨ha, ha'⟩, ⟨hb, hb'⟩, ⟨hd, hd'⟩, ⟨he, he'⟩, ⟨hf, hf'⟩, ⟨hg, hg'⟩⟩
set_option maxRecDepth 20000 in
set_option exponentiation.threshold 5000 in
theorem wit_vector_loads : ∀ i ∈ ([.vldLs0 (s1in 6), .vldxLs0 (s1in 6)] : List Instr), ∃ o,
    (memoryF .ls0 .v 4 0 (.word 0)).ready l0 i o ∧ (memoryF .ls0 .v 4 0 (.word 0)).accessible l0 o ∧ o.op ∈ [Op.vld, Op.gath, Op.vldx] ∧
      Spec.mask ((memoryF .ls0 .v 4 0 (.word 0)).ctx l0) ≠ 0 := by
  intro i h
  simp only [List.mem_cons, List.not_mem_nil, or_false] at h
  rcases h with rfl | rfl <;> exact accessing_of (by decide)
set_option maxRecDepth 20000 in
set_option exponentiation.threshold 5000 in
theorem wit_gather : ∃ o, (memoryF .ls0 .v 4 0 (.word 0)).ready l0 (.gathLs0 (v1in 6)) o ∧ (memoryF .ls0 .v 4 0 (.word 0)).accessible l0 o ∧
    o.op = .gath := accessing_of (by decide)
theorem wit_no_poison : ∀ o p, ((memoryF .ls0 .v 4 0 (.word 0)).waiting l0 o).piecePoisoned p = false := by
  intro o p
  show (_ && Table.getD ([] : Table Bool) _ false) = false
  exact Bool.and_false _
/-- The parts of a write lie in lines that differ, of live keys, with no poison. -/
abbrev separate (t : State) (ps : List Piece) : Prop :=
  (ps.map fun p => p.place.pa / 64).Nodup ∧ ∀ p ∈ ps, t.keyDead p.place.kidx = false ∧
    t.poison.getD (p.place.pa / 64) false = false ∧ p.place.pa % 64 + p.len ≤ 64
set_option maxRecDepth 20000 in
set_option exponentiation.threshold 5000 in
theorem wit_vst : ∃ o, (memory .ls0 grant 0 4 (.word 0)).ready l0 (.vstLs0 (v1in 6)) o ∧ (memory .ls0 grant 0 4 (.word 0)).accessible l0 o ∧
    o.op = .vst ∧ Spec.mask ((memory .ls0 grant 0 4 (.word 0)).ctx l0) ≠ 0 ∧
    separate ((memory .ls0 grant 0 4 (.word 0)).waiting l0 o) (((memory .ls0 grant 0 4 (.word 0)).waiting l0 o).parts l0 o.storeAddr 512 true) :=
  accessing_of (by decide)
set_option maxRecDepth 20000 in
set_option exponentiation.threshold 5000 in
theorem wit_vstc : ∃ o, (memory .ls0 grant 0 4 (.word 0)).ready l0 (.vstcLs0 (v1in 6)) o ∧ (memory .ls0 grant 0 4 (.word 0)).accessible l0 o ∧
    o.op = .vstc ∧ (((memory .ls0 grant 0 4 (.word 0)).ctx l0).cur.port o.unit).latch 2 = ⟨.value (.word 4), 0⟩ ∧
    separate ((memory .ls0 grant 0 4 (.word 0)).waiting l0 o) (((memory .ls0 grant 0 4 (.word 0)).waiting l0 o).parts l0 o.storeAddr 40 true) :=
  accessing_of (by decide)
set_option maxRecDepth 20000 in
set_option exponentiation.threshold 5000 in
theorem wit_scat : ∃ o, (memory .ls0 grant 0 4 (.vec (splat 8))).ready l0 (.scatLs0 (v1in 6)) o ∧
    (memory .ls0 grant 0 4 (.vec (splat 8))).accessible l0 o ∧ o.op = .scat ∧
    single ((memory .ls0 grant 0 4 (.vec (splat 8))).waiting l0 o)
      (((memory .ls0 grant 0 4 (.vec (splat 8))).waiting l0 o).parts l0 (laneAddr o o.offsets 0) 4 true) 4 := accessing_of (by decide)
theorem wit_atomic : ∃ o, (memory .atu grant 7 8 (.word 0)).ready l0 (.atswp (s1in 6)) o ∧ (memory .atu grant 7 8 (.word 0)).accessible l0 o ∧
    (∀ m, Spec.atomicOf o m = some (8, some 7)) ∧ single ((memory .atu grant 7 8 (.word 0)).waiting l0 o)
      (((memory .atu grant 7 8 (.word 0)).waiting l0 o).parts l0 o.storeAddr 8 true) 8 := by
  obtain ⟨o, h1, h2, h3, h4, h5⟩ := accessing_of (s := memory .atu grant 7 8 (.word 0)) (i := .atswp (s1in 6))
    (P := fun o => o.op = .atswp ∧ o.xw.toNat = 7 ∧ single ((memory .atu grant 7 8 (.word 0)).waiting l0 o)
      (((memory .atu grant 7 8 (.word 0)).waiting l0 o).parts l0 o.storeAddr 8 true) 8) (by decide)
  exact ⟨o, h1, h2, fun m => by simp [Spec.atomicOf, h3, h4], h5⟩
theorem wit_cas : ∃ o, (memoryF .atu .a 7 16 (.cap grant)).ready l0 (.cas128 (a1in 6)) o ∧ (memoryF .atu .a 7 16 (.cap grant)).accessible l0 o ∧
    o.op = .cas128 ∧ single ((memoryF .atu .a 7 16 (.cap grant)).waiting l0 o)
      (((memoryF .atu .a 7 16 (.cap grant)).waiting l0 o).parts l0 o.storeAddr 16 true) 16 := accessing_of (by decide)
theorem wit_fences : ∀ i ∈ ([.fenceLs0 (s1in 6), .fenceScLs0 (s1in 6)] : List Instr), ∃ o, (demoOf [(1, 0)] .ls0 .reset).ready l0 i o ∧
    ((demoOf [(1, 0)] .ls0 .reset).take l0).passes l0 o ∧ o.op ∈ [Op.fence, Op.fenceSc] := by
  intro i h
  simp only [List.mem_cons, List.not_mem_nil, or_false] at h
  rcases h with rfl | rfl <;> exact passing_of (by decide)
/-- The package with an operation of the sequencer in flight. -/
def inFlight : State :=
  package { Core.reset with mxq := [⟨5, ⟨0, bound, 0⟩, .anorm, 0, [], [], 0, 0, 0, none⟩] } (running { View.reset with s := [(1, 2)] })
theorem wit_xfence_waits : ∃ o, inFlight.ready l0 (.xfenceLs0 (s1in 6)) o ∧ (inFlight.take l0).passes l0 o ∧ o.op = .xfence ∧
    ∃ e ∈ (inFlight.core 0).inFlight, e.2.1 = (o.xw.extractLsb' 0 3).toNat ∧ some e.2.2 = inFlight.progOf l0 := passing_of (by decide)
theorem wit_xfence : ∃ o, (demoOf [(1, 2)] .ls0 .reset).ready l0 (.xfenceLs0 (s1in 6)) o ∧
    ((demoOf [(1, 2)] .ls0 .reset).take l0).passes l0 o ∧ o.op = .xfence ∧ ((demoOf [(1, 2)] .ls0 .reset).core 0).inFlight = [] :=
  passing_of (by decide)
theorem wit_hint : ∃ o, (memory .ls0 { grant with tag := false } 16 8 (.word 0)).ready l0 (.hintLs0 (s1in 6)) o ∧
    ((memory .ls0 { grant with tag := false } 16 8 (.word 0)).take l0).passes l0 o ∧ o.op = .hint ∧
    ((memory .ls0 { grant with tag := false } 16 8 (.word 0)).acting l0).hintPlace l0 o.cap o.loadAddr = none ∧
    ((memory .ls0 { grant with tag := false } 16 8 (.word 0)).ctx l0).cur.ctl.memcnt.extractLsb' 0 32 ≠ 0xFFFFFFFF := passing_of (by decide)
/-- The package whose slice 0 holds the line 0x400. -/
def cached : State := { memory .ls0 grant 1 0 (.word 0) with l2 := [(0, [(0x400, ⟨3, true, 0, 1⟩)])] }
theorem wit_hres : ∃ o, cached.ready l0 (.hresLs0 (s1in 6)) o ∧ (cached.take l0).passes l0 o ∧ o.op = .hres ∧
    ((cached.acting l0).hintPlace l0 o.cap o.storeAddr).map Place.pa = some 0x10000 ∧ (o.xw.extractLsb' 0 2).toNat ≠ 3 ∧
    (cached.slice 0).find? (0x10000 / 64) = some ⟨3, true, 0, 1⟩ := passing_of (by decide)
theorem wit_cctl : ∃ o, cached.ready l0 (.cctlLs0 (s1in 6)) o ∧ (cached.take l0).passes l0 o ∧ o.op = .cctl ∧ isAccessible cached o = true ∧
    (o.xw.extractLsb' 0 2).toNat = 1 := passing_of (by decide)
theorem wit_cctl_zero : ∃ o, (memory .ls0 grant 2 64 (.word 0)).ready l0 (.cctlLs0 (s1in 6)) o ∧
    ((memory .ls0 grant 2 64 (.word 0)).take l0).passes l0 o ∧ o.op = .cctl ∧ isAccessible (memory .ls0 grant 2 64 (.word 0)) o = true ∧
    (o.xw.extractLsb' 0 2).toNat = 2 ∧ single ((memory .ls0 grant 2 64 (.word 0)).waiting l0 o)
      (((memory .ls0 grant 2 64 (.word 0)).waiting l0 o).parts l0 o.storeAddr 64 true) 64 := passing_of (by decide)
theorem wit_brel : ∃ o, (engine .ls0 0xA9 0 0).ready l0 (.brelLs0 (s1in 6)) o ∧ ((engine .ls0 0xA9 0 0).take l0).passes l0 o ∧ o.op = .brel ∧
    o.prov = false ∧ ((engine .ls0 0xA9 0 0).ctx l0).binding = some bound ∧ ((engine .ls0 0xA9 0 0).ctx l0).cur.flights = [] ∧ o.s = false :=
  passing_of (by decide)
/-- The package in a delay bundle of a branch that is not taken, with a BREL of S = 1. -/
def releasing : State :=
  let s := engine .ls0 0xA9 0 0
  s.setCtx l0 { s.ctx l0 with untaken := 2 }
theorem wit_brel_later : ∃ o, releasing.ready l0 (.brelLs0 ⟨6, 0, true, true, .reg .s 1⟩) o ∧ (releasing.take l0).passes l0 o ∧ o.op = .brel ∧
    o.prov = false ∧ (releasing.ctx l0).binding = some bound ∧ (releasing.ctx l0).cur.flights = [] ∧ o.s = true ∧
    (releasing.ctx l0).ctime < (releasing.ctx l0).untaken := passing_of (by decide)

/-! ### Witnesses: copies, barriers and queues -/

theorem wit_copy : ∃ o, (engine .cp0 0x6000000 0 0).ready l0 (.copyCp0 (s1in 6)) o ∧ ((engine .cp0 0x6000000 0 0).take l0).passes l0 o ∧
    o.op = .copy := passing_of (by decide)
theorem wit_twr : ∃ o, (package engineCore (engineCtx { View.reset with a := [(1, grant)], ports := [(18, ⟨word 0, word 9, .reset, none, none⟩)] })).ready l0
      (.twrCp1 (a1in 6)) o ∧ ((package engineCore (engineCtx { View.reset with a := [(1, grant)], ports := [(18, ⟨word 0, word 9, .reset, none, none⟩)] })).take
        l0).passes l0 o ∧ o.op = .twr := passing_of (by decide)
theorem wit_qsel : ∃ o, (demoOf [(1, 0)] .qs (words 0 0 0)).ready l0 (.qsel (s1in 6)) o ∧ ((demoOf [(1, 0)] .qs (words 0 0 0)).ctx l0).straight ∧
    o.op = .qsel ∧ ((demoOf [(1, 0)] .qs (words 0 0 0)).ctx l0).cur.flights = [] := ready_of (by decide)
theorem wit_barriers : ∀ i ∈ ([.binit (s1in 6), .barr (s1in 6), .bexp (s1in 6), .bwait (s1in 6), .btest (s1in 6)] : List Instr), ∃ o,
    (engine .tb (48 * 65536) 3 0).ready l0 i o ∧ ((engine .tb (48 * 65536) 3 0).take l0).passes l0 o ∧
      ((engine .tb (48 * 65536) 3 0).ctx l0).straight ∧
      (∀ j, j < 16 → ((engine .tb (48 * 65536) 3 0).core 0).reservedByte (o.xw.toNat + j) = false) ∧
      (((engine .tb (48 * 65536) 3 0).dev 0 1).kidx = 0 ∨ (engine .tb (48 * 65536) 3 0).keyAllows ((engine .tb (48 * 65536) 3 0).accessor l0) 1 = true) := by
  intro i h
  simp only [List.mem_cons, List.not_mem_nil, or_false] at h
  rcases h with rfl | rfl | rfl | rfl | rfl <;> exact passing_of (by decide)
theorem wit_bwait_waits : ∃ o, (engine .tb (48 * 65536) 0 0).ready l0 (.bwait (s1in 6)) o ∧ o.op = .bwait ∧
    ((engine .tb (48 * 65536) 0 0).take l0).badBarrier l0 o.xw.toNat = false ∧ o.b.toNat < 16 ∧
    ((engine .tb (48 * 65536) 0 0).barrier 0 ((engine .tb (48 * 65536) 0 0).accessor l0) o.xw.toNat).phase = o.b.toNat := ready_of (by decide)
theorem wit_qput : ∃ o, (engine .qs 99 3 0).ready l0 (.qput (s1in 6)) o ∧ ((engine .qs 99 3 0).take l0).passes l0 o ∧ o.op = .qput ∧
    (((engine .qs 99 3 0).core 0).queues.getD 3 .reset).count ≠ 2 ^ (((engine .qs 99 3 0).core 0).queues.getD 3 .reset).lcap := passing_of (by decide)
/-- The package whose queue 3 is full. -/
def full : State :=
  package { Core.reset with queues := [(3, { Queue.reset with base8 := 16, en := true, owner := some 7, count := 1 })] }
    (running { View.reset with s := [(1, 99)], ports := [(20, words 3 0 0)] })
theorem wit_qput_full : ∃ o, full.ready l0 (.qput (s1in 6)) o ∧ (full.take l0).passes l0 o ∧ o.op = .qput ∧
    ((full.core 0).queues.getD 3 .reset).count = 2 ^ ((full.core 0).queues.getD 3 .reset).lcap := passing_of (by decide)
theorem wit_qget : ∃ o, (engine .qs 3 0 0).ready l0 (.qget (s1in 6)) o ∧ ((engine .qs 3 0 0).take l0).passes l0 o ∧ o.op = .qget :=
  passing_of (by decide)
theorem wit_rput : ∃ o, (engine .qs 99 0 0).ready l0 (.rput (s1in 6)) o ∧ ((engine .qs 99 0 0).take l0).passes l0 o ∧ o.op = .rput ∧
    (engine .qs 99 0 0).neighbour 0 0 0 = some 0 ∧ ((engine .qs 99 0 0).core 0).spent.getD 0 0 < 16 := passing_of (by decide)
/-- The package whose core has spent the credits of a channel, and has a message in its receive queue. -/
def ringed : State :=
  package { Core.reset with spent := [(0, 16)], ring := [(0, [⟨4, 0, 0, 0, 0, 77, 1, false, false, (0, 0), 0⟩])] }
    (running { View.reset with s := [(1, 0)], ports := [(20, words 0 0 0)] })
theorem wit_rput_no_credit : ∃ o, ringed.ready l0 (.rput (s1in 6)) o ∧ (ringed.take l0).passes l0 o ∧ o.op = .rput ∧
    16 ≤ (ringed.core 0).spent.getD 0 0 := passing_of (by decide)
theorem wit_rget : ∃ o, ringed.ready l0 (.rget (s1in 6)) o ∧ (ringed.take l0).passes l0 o ∧ o.op = .rget ∧
    (ringed.core 0).ring.getD 0 [] = ⟨4, 0, 0, 0, 0, 77, 1, false, false, (0, 0), 0⟩ :: [] := passing_of (by decide)
/-- The package whose a1 is the capability of a launch record. -/
def launching : State :=
  demo { View.reset with a := [(1, grant)], ports := [(20, words 2 0 0)] }
/-- The package whose device has no launch entry. -/
def unlaunchable : State := launching.setDev 0 1 { device with vdcfg := 0x203 }
theorem wit_launch_full : ∃ o, unlaunchable.ready l0 (.launch (a1in 6)) o ∧ (unlaunchable.take l0).passes l0 o ∧ o.op = .launch ∧
    ¬ (unlaunchable.dev 0 1).launches.length < ((unlaunchable.dev 0 1).vdcfg.extractLsb' 25 9).toNat ∧
    (unlaunchable.ctx l0).cur.flights = [] ∧ (unlaunchable.ctx l0).cur.ctl.memcnt.extractLsb' 32 32 ≠ 0xFFFFFFFF := passing_of (by decide)

/-! ### Witnesses: steps of the engines -/

/-- An operation of the sequencer by program 7 at context 0. -/
def mxOp (op : Op) (tiles : List TileRef) (ctl : Word) : MxOp := ⟨5, ⟨0, bound, 0⟩, op, 0, [3, 4, 32], tiles, ctl, splat 9, 3, none⟩
/-- A scan operation on slot 0. -/
def scOp (op : Op) (cfg : Word) : ScOp := ⟨5, ⟨0, bound, 0⟩, op, cfg, [], 0, 0⟩
/-- The package with one queued operation. -/
def queuedMx (o : MxOp) : State := package { engineCore with mxq := [o] } (engineCtx .reset)
/-- The tiles of a call of routine 0. -/
def callTiles : List TileRef := [⟨3, tileAt 43 1 1 32 32, .source⟩, ⟨4, tileAt 44 1 0 32 32, .source⟩, ⟨32, 0, .update⟩]
/-- The package with a running operation. -/
def runningMx (o : MxOp) (done trip stopping : Bool) (store : Table Word) : State :=
  package { engineCore with store := store, mxRun := some ⟨o, 2000, 0, 0, 0, none, [], [], [], trip, stopping, 0, done⟩ } (engineCtx .reset)
/-- The package with a call that stands at a step word. -/
def callStep (w : Word) (trip stopping : Bool) : State := runningMx (mxOp .mcall callTiles 0) false trip stopping [(2000, w)]

theorem wit_mx_start : ∀ o ∈ [mxOp .mcall callTiles 0, mxOp .azero [⟨32, 0, .destination⟩] 5, mxOp .awrite [⟨32, 0, .update⟩] 127],
    ((queuedMx o).core 0).mxRun = none ∧ ((queuedMx o).core 0).mxq = [o] ∧
      Spec.holdsAllow (queuedMx o) ((queuedMx o).core 0).mxWait o.id ((queuedMx o).core 0).cycle := by
  intro o _; exact ⟨rfl, rfl, rfl, nofun⟩
/-- The package in the power hold with an operation queued at the sequencer and one at the scan engine, and their waits, in a cycle. -/
def powerHeld (wait : Option (Nat × Nat)) (cycle : Nat) : State :=
  let k := { engineCore with mxq := [mxOp .azero [⟨32, 0, .destination⟩] 5], scq := [scOp .sload 0] }
  let s := package { k with mxWait := wait, scWait := wait, cycle := cycle } (engineCtx .reset)
  { s with oper := { s.oper with hold := true } }
/-- The sequencer and the scan engine begin the wait of the hold with an operation, and may start it after 256 cycles. -/
theorem wit_hold_waits : let s := powerHeld none 0
    (s.core 0).mxRun = none ∧ (s.core 0).mxq = [mxOp .azero [⟨32, 0, .destination⟩] 5] ∧ (s.core 0).scRun = none ∧
      (s.core 0).scq = [scOp .sload 0] ∧ s.oper.hold = true ∧ s.oper.fullHold = false ∧ (s.core 0).mxWait = none ∧ (s.core 0).scWait = none :=
  ⟨rfl, rfl, rfl, rfl, rfl, rfl, rfl, rfl⟩
theorem wit_hold_over : let s := powerHeld (some (5, 256)) 256
    Spec.holdsAllow s (s.core 0).mxWait 5 (s.core 0).cycle ∧ Spec.holdsAllow s (s.core 0).scWait 5 (s.core 0).cycle :=
  ⟨⟨rfl, fun _ => ⟨256, rfl, Nat.le_refl _⟩⟩, rfl, fun _ => ⟨256, rfl, Nat.le_refl _⟩⟩
theorem wit_mx_complete : ∃ r, ((runningMx (mxOp .anorm [⟨32, 0, .update⟩] 0) true false false []).core 0).mxRun = some r ∧ r.done = true ∧
    r.trip = false ∧ r.op.tiles = [⟨32, 0, .update⟩] ∧
    (runningMx (mxOp .anorm [⟨32, 0, .update⟩] 0) true false false []).tileStands 0 r.op.who 32 = true :=
  ⟨_, rfl, rfl, rfl, rfl, by decide⟩
/-- A call stands at each kind of step word: WLOAD, STREAM, PROMOTE, stated PROMOTE, LOOP, NOP and END. -/
theorem wit_steps : ∀ e ∈ ([(0x81, 1), (0x7F000000802, 2), (0x803, 3), (0x80B, 3), (0x160034, 4), (5, 5), (8, 0)] : List (Word × Nat)),
    ∃ r, Spec.callAt (callStep e.1 false false) 0 r e.1 e.2 ∧ r.op.tile 0 = some ⟨3, tileAt 43 1 1 32 32, .source⟩ ∧
      r.op.tile 1 = some ⟨4, tileAt 44 1 0 32 32, .source⟩ ∧ r.op.tile 2 = some ⟨32, 0, .update⟩ ∧ r.trip = false := by
  intro e h
  simp only [List.mem_cons, List.not_mem_nil, or_false] at h
  rcases h with rfl | rfl | rfl | rfl | rfl | rfl | rfl <;>
    exact ⟨_, ⟨rfl, rfl, rfl, Nat.le_refl 0, rfl, by decide⟩, by decide, by decide, by decide, rfl⟩
/-- A stated PROMOTE and an END with a fault due, and a stated PROMOTE with a pre-emption. -/
theorem wit_stops : (∀ e ∈ ([(0x80B, 3), (8, 0)] : List (Word × Nat)), ∃ r, Spec.callAt (callStep e.1 true false) 0 r e.1 e.2 ∧ r.trip = true ∧
      (callStep e.1 true false).progOf ⟨0, r.op.who.ctx⟩ = some r.op.who.bind.prog) ∧
    ∃ r, Spec.callAt (callStep 0x80B false true) 0 r 0x80B 3 ∧ r.trip = false ∧ r.stopping = true ∧
      (((callStep 0x80B false true).core 0).ztile 0).stat.te = false := by
  refine ⟨?_, _, ⟨rfl, rfl, rfl, Nat.le_refl 0, rfl, by decide⟩, rfl, rfl, by decide⟩
  intro e h
  simp only [List.mem_cons, List.not_mem_nil, or_false] at h
  rcases h with rfl | rfl <;> exact ⟨_, ⟨rfl, rfl, rfl, Nat.le_refl 0, rfl, by decide⟩, rfl, by decide⟩
/-- LOOP of routine 0 goes back one word until its count is done: one of 1 passes on (R157, R160). -/
theorem test_loop_step : after (exec (.mxLoop 0) (callStep 0x100614 false false)) (fun t =>
    (t.core 0).mxRun.any fun r => r.next == 1999 && r.passes == 1 && r.ik == 1) = true := by decide

/-- A frame operation on slot 0. -/
def frOp (id : Nat) (op : Op) (running : Bool) : FrOp := ⟨id, ⟨0, bound, 0⟩, op, 0x800000, 0, 0, 0, running, true, .found 0 0, .found 0 0, none⟩
theorem wit_scan_start : let s := package { engineCore with scq := [scOp .sload 0] } (engineCtx .reset)
    (s.core 0).scRun = none ∧ (s.core 0).scq = [scOp .sload 0] ∧
      Spec.holdsAllow s (s.core 0).scWait 5 (s.core 0).cycle := ⟨by decide, by decide, rfl, nofun⟩
/-- A scan of one block is at its last block, and one of 256 elements has more. -/
theorem wit_scan_block : (∃ o, ((package { engineCore with scRun := some (scOp .scarry 0) } (engineCtx .reset)).core 0).scRun = some o ∧
      o.due ≤ ((package { engineCore with scRun := some (scOp .scarry 0) } (engineCtx .reset)).core 0).cycle ∧ o.op = .scarry ∧
      (o.cfg.extractLsb' 7 12).toNat + 1 ≤ 128 * o.next + 128 ∧
      (((package { engineCore with scRun := some (scOp .scarry 0) } (engineCtx .reset)).core 0).slot (o.cfg.extractLsb' 3 4).toNat).frame = some 0) ∧
    ∃ o, ((package { engineCore with scRun := some (scOp .sload 0x7F80) } (engineCtx .reset)).core 0).scRun = some o ∧
      ¬ (o.cfg.extractLsb' 7 12).toNat + 1 ≤ 128 * o.next + 128 ∧
      ((package { engineCore with scRun := some (scOp .sload 0x7F80) } (engineCtx .reset)).ctx ⟨0, o.who.ctx⟩).saved = none :=
  ⟨⟨_, rfl, Nat.le_refl 0, rfl, by decide, by decide⟩, _, rfl, by decide, by decide⟩
theorem wit_frame_start : let s := package { engineCore with frq := [frOp 5 .snap false] } (engineCtx .reset)
    (s.core 0).frq = [frOp 5 .snap false] ∧ ∀ p ∈ (s.core 0).frq, p.running = false := by decide
theorem wit_frame_complete : let s := package { engineCore with frq := [frOp 5 .fdrop true] } (engineCtx .reset)
    (s.core 0).frq.find? (fun p => p.id == 5 && p.running) = some (frOp 5 .fdrop true) := by decide

/-- A copy of program 7 with no barrier, or with the barrier at bank 48. -/
def cpOp (refused : Nat) (running bar : Bool) (dst : Option TileRef) : CpOp :=
  ⟨5, ⟨0, bound, 0⟩, [grant, grant], 0, if bar then 0xC00000 else 0x2000000, none, dst, refused, running, 0, 0, 64⟩
theorem wit_copy_begin : ∀ refused, (((package { engineCore with cp0q := [cpOp refused false false none] } (engineCtx .reset)).core 0).cp0q =
    [cpOp refused false false none]) ∧ (cpOp refused false false none).running = false := fun _ => ⟨rfl, rfl⟩
theorem wit_copy_complete : let s := package { engineCore with cp1q := [cpOp 0 true true (some ⟨0, tileAt 40 2 0 32 128, .destination⟩)] } (engineCtx .reset)
    ∃ o, (s.core 0).cp1q.find? (fun p => p.id == 5 && p.running) = some o ∧ o.src = none ∧ s.tileStands 0 o.who 0 = true ∧ o.ecause = 0 ∧
      o.x.getLsbD 25 = false ∧ (∀ j, j < 16 → (s.core 0).reservedByte (16 * (o.x.extractLsb' 6 19).toNat + j) = false) ∧
      s.keyAllows ⟨0, 0, 1, false⟩ (s.dev 0 1).kidx = true := ⟨_, rfl, rfl, by decide, rfl, by decide, by decide, by decide⟩

/-- The package with a running domain of one cell, whose modulus is 2. -/
def domain (y : Int) : State :=
  package engineCore { engineCtx .reset with
    cells := [(0, ⟨0xC002020, 0, y, 0, 0, 0, 0⟩)]
    cur := { (engineCtx .reset).cur with ctl := { (engineCtx .reset).cur.ctl with domclk := [(0, 0x10002)] } } }
/-- A domain that runs at the greatest integrand that does not overrun, and at the least that does. -/
theorem wit_domain : ∀ y ∈ ([1, 2] : List Int), ((domain y).core 0).domainOwner 0 = some (0, 0) ∧ ((domain y).core 0).ddq = [] ∧
    ((domain y).ctx l0).cur.runs 0 = true ∧ ((domain y).ctx l0).saved = none ∧
    ((domain y).ctx l0).stepAt.getD 0 0 ≤ ((domain y).core 0).cycle ∧
    (∀ i, i < ((domain y).ctx l0).cur.cellCount → (((domain y).ctx l0).cell i).w0.getLsbD 13 = true →
      ((2 ^ ((((domain y).ctx l0).cell i).w0.extractLsb' 5 5).toNat ≤ (((domain y).ctx l0).cell i).y.natAbs) ↔ y = 2)) ∧
    ((domain y).ctx l0).cur.ctl.ddfault.getLsbD 0 = false ∧ 0 < ((domain y).ctx l0).cur.cellCount ∧
    (((domain y).ctx l0).cell 0).w0.getLsbD 13 = true ∧ ((((domain y).ctx l0).cell 0).w0.extractLsb' 10 3).toNat = 0 ∧
    Spec.source ((domain y).ctx l0) (((domain y).ctx l0).cell 0) ((((domain y).ctx l0).cell 0).w0.extractLsb' 16 12) ≠ 0 := by decide

/-! ### Witnesses: contexts -/

/-- The package whose context has a result on its way to s2, to land from a cycle on. -/
def landing (cycle : Nat) : State :=
  package .reset { running { View.reset with pending := [⟨9, .ls0, some (.s, 2), none, false⟩], emptyS := 4 } with
    landings := [(9, ⟨cycle, some (.word 77), none⟩)] }
theorem wit_landing : ∀ n, ((landing n).ctx ⟨0, 0⟩).landings.find? 9 = some ⟨n, some (.word 77), none⟩ ∧
    ((landing n).ctx ⟨0, 0⟩).cur.pending.find? (fun p => p.id == 9) = some ⟨9, .ls0, some (.s, 2), none, false⟩ ∧
    ((landing n).core 0).cycle = 0 := fun _ => ⟨rfl, rfl, rfl⟩
/-- A context in a mode that waits for something, in a core in which nothing runs. -/
def waiting (m : CtxMode) (w : Option Wait) (preempt : Bool) (marker : Option Nat) (saved : Option Saved) : State :=
  let s := package { Core.reset with table := [entry 7] } { running .reset with
    mode := m, wait := w, preempt := preempt, marker := marker, saved := saved, waited := if preempt then 40000 * 42 else 0 }
  s.setCore 0 { s.core 0 with running := if m = .running then some 0 else none }
theorem wit_block_clear : ((waiting .blocked (some .fence) false none none).ctx l0).mode = .blocked ∧
    ((waiting .blocked (some .fence) false none none).ctx l0).wait = some .fence ∧
    ((waiting .blocked (some .fence) false none none).ctx l0).late = [] ∧
    ((waiting .blocked (some .fence) false none none).ctx l0).fence = [] := by decide
theorem wit_context_select : let s := waiting .ready none true none none
    (s.core 0).taken = none ∧ (s.core 0).running = none ∧ (s.ctx l0).mode = .ready ∧ (s.ctx l0).preempt = true ∧
      ∀ m, m < 4 → m ≠ 0 → (s.ctx ⟨0, m⟩).mode ≠ .ready ∧ (s.ctx ⟨0, m⟩).mode ≠ .running := by decide
theorem wit_context_select_taken : ((package { Core.reset with taken := some 0 } (running .reset)).core 0).taken ≠ none := by decide
theorem wit_preemption : (∀ m ∈ ([.off, .halted] : List CtxMode), ((waiting m none false none none).ctx l0).mode = m) ∧
    (((waiting .running none false none none).ctx l0).mode = .running ∧ ((waiting .running none false none none).ctx l0).wait = none ∧
      ((waiting .running none false none none).ctx l0).started = false) ∧
    (((package .reset { running .reset with started := true }).ctx l0).mode = .running ∧
      ((package .reset { running .reset with started := true }).ctx l0).wait = none ∧
      ((package .reset { running .reset with started := true }).ctx l0).started = true) ∧
    (((waiting .blocked (some .bundle) false (some 8) none).ctx l0).mode = .blocked ∧
      ((waiting .blocked (some .bundle) false (some 8) none).ctx l0).wait = some .bundle ∧
      ((waiting .blocked (some .bundle) false (some 8) none).ctx l0).marker.isSome = true) := by decide
theorem wit_restore : let s := waiting .halted none false none (some ⟨32, 0, 0, some 0, 0x40000, 1⟩)
    (s.ctx l0).mode = .halted ∧ (s.ctx l0).saved.isSome = true ∧ (s.ctx l0).fence = [] ∧ (s.core 0).mxRun = none ∧ (s.core 0).scRun = none ∧ (s.core 0).ddq = [] ∧
      (s.ctx l0).keptDd = [] ∧ (s.ctx l0).boundaryTrap = none := by decide
theorem wit_release : let s := waiting .halted none false none none
    (s.ctx l0).mode = .halted ∧ (s.ctx l0).binding = some bound ∧ (s.ctx l0).landings = [] ∧ (s.ctx l0).saved = none ∧ (s.ctx l0).late = [] ∧
      (s.core 0).ddq = [] := by decide
/-- A halted context with a save and one without. -/
theorem wit_save_area : ((waiting .halted none false none none).ctx l0).saved = none ∧
    ((waiting .halted none false none (some ⟨32, 0, 0, none, 0x40000, 1⟩)).ctx l0).saved = some ⟨32, 0, 0, none, 0x40000, 1⟩ ∧
    ((waiting .halted none false none (some ⟨32, 0, 0, some 8, 0x40000, 1⟩)).ctx l0).saved = some ⟨32, 0, 0, some 8, 0x40000, 1⟩ := by decide
theorem wit_watchdog : let s := waiting .running none true none none
    (s.ctx l0).preempt = true ∧ 40000 * 42 ≤ (s.ctx l0).waited ∧ (s.ctx l0).binding = some bound ∧ (s.ctx l0).landings = [] ∧
      (s.ctx l0).late = [] ∧ (s.core 0).ddq = [] ∧ (s.ctx l0).arithDue = false ∧ (s.ctx l0).overrunDue = false ∧
      (s.dev 0 1).flog.length < 64 := by decide
theorem wit_watchdog_not : ((waiting .running none false none none).ctx l0).preempt = false := by decide

/-! ### Witnesses: rates and the promenade -/

/-- The package whose device has a rate at the issue slots and at HBM4, with an arbiter at a slot, a bucket and its requests. -/
def rated (arb slot : Nat) (tokens : Int) (reqs : List Request) : State :=
  { (demo .reset).setDev 0 1 { device with riss := 0x1000080400, rhbm := 0x1000080400 } with
    arbs := [(arb, ⟨slot, 0, [(1, tokens)], [], [], [], reqs⟩)] }
theorem wit_refill : let s := rated 0 1 3 []
    (s.arb 0).slot ≠ 0 ∧ s.slotOwner 0 (s.arb 0).slot = some 1 ∧
      (s.arb 0).bucket 1 < Int.ofNat ((s.rateAt 0 1).extractLsb' 16 16).toNat ∧ (s.arb 0).bucket 1 < 2 ^ 31 - 1 ∧
      -(2 ^ 31) ≤ (s.arb 0).bucket 1 := by decide
theorem wit_grant : ∀ cost ∈ [4, 6], let s := rated 512 1 4 [⟨0, 1, cost⟩]
    (s.arb 512).busy = 0 ∧ s.reclaimAt 512 = none ∧ (s.arb 512).reqs = [⟨0, 1, cost⟩] ∧ Int.ofNat (min cost 4) ≤ (s.arb 512).bucket 1 ∧
      (s.arb 512).bucket 1 < 2 ^ 31 := by decide
theorem wit_revolution : ((rated 0 0 0 []).arb 0).slot = 0 ∧ ((rated 0 1 0 []).arb 0).slot ≠ 0 := by decide
/-- A reclaim that has passed every set, and one that has not. -/
theorem wit_reclaim : ∀ n, ({ demo .reset with reclaims := [(0, [⟨0, 1, 1, n⟩])] } : State).reclaims.getD 0 [] = ⟨0, 1, 1, n⟩ :: [] := fun _ => rfl
theorem wit_rate_writes : (demo .reset).oper.inReset = false ∧ (((demo .reset).setDev 0 1 .reset).dev 0 1).enabled = false ∧ ((demo .reset).dev 0 1).enabled = true ∧
    1024 < ((0x401 : Word).extractLsb' 0 11).toNat := by decide
theorem wit_visit : let s := demo .reset
    (s.pav 0).nextVisit = some 1 ∧ (s.pav 0).visitDue (s.pavClock 0) = true ∧ (s.dev 0 1).enabled = true ∧ s.quiet 0 = false ∧
      (s.dev 0 1).launches = [] ∧ s.hasBound 0 1 = false ∧ (s.dev 0 1).deficit ≤ 0 := by decide
/-- The package whose device owes cycles and has a task. -/
def owing : State :=
  (package { Core.reset with table := [{ entry 7 with bound := some 0 }] } (running .reset)).setDev 0 1 { device with rdwrr := 0xFFFFFF0000000005 }
theorem wit_visit_bound : let s := owing
    s.hasBound 0 1 = true ∧ (s.dev 0 1).deficit + Int.ofNat ((s.dev 0 1).rdwrr.extractLsb' 0 24).toNat ≤ 0 ∧
      -(2 ^ 31) ≤ (s.dev 0 1).deficit := by decide
/-- A message that has arrived. -/
def arrivedMsg : RingMsg := ⟨4, 0, 0, 0, 0, 77, 1, false, false, (0, 0), 0⟩
theorem wit_message : let s : State := { demo .reset with messages := [arrivedMsg] }
    s.messages.find? (fun e => e.id == 4) = some arrivedMsg ∧
      ∀ e ∈ s.messages, e.id < 4 → ¬ (e.src = 0 ∧ e.dst = 0 ∧ e.dir = 0) := by decide
theorem wit_credit : (⟨0, 1, 2, 0⟩ : Credit) ∈ ({ demo .reset with credits := [⟨0, 1, 2, 0⟩] } : State).credits := by decide
theorem wit_packet : let s : State := { demo .reset with
      messages := [{ arrivedMsg with waiting := true }]
      oper := { (demo .reset).oper with calendar := [(0, 0)] }
      arbs := [(256, ⟨1, 0, [(1, 1)], [], [], [], []⟩)] }
    s.pavOf 0 = some 0 ∧ s.slotNow 0 0 = 0 ∧ s.promenadeOwner 0 = some 0 ∧ s.freeNow 0 0 false = 1024 ∧
      s.messages.filter (fun e => e.waiting && e.src == 0 && e.dir == 0) = [{ arrivedMsg with waiting := true }] ∧
      1 ≤ (s.arb 256).bucket 1 ∧ (s.arb 256).bucket 1 < 2 ^ 31 := by decide
/-- A message and a credit that have come in by a port for core 0 of the joined pavilion. -/
theorem wit_port_input : ∀ dir, dir < 2 →
    let s : State := { demo .reset with oper := { (demo .reset).oper with rxcfg := 0xF }, portIn := [.message dir 3 77] }
    let t : State := { demo .reset with portIn := [.credit 0 dir 3] }
    s.portIn = [.message dir 3 77] ∧ s.portGoal (.message dir 3 77) = 0 ∧ s.oper.rxcfg.getLsbD 0 = true ∧ s.oper.rxcfg.getLsbD 3 = true ∧
      s.oper.rxcfg.getLsbD (1 + dir) = true ∧ t.portIn = [.credit 0 dir 3] := by
  intro dir h
  interval_cases dir <;> decide
theorem wit_packet_misnamed : (1 : Nat) ≠ ((demo .reset).clock + 1024 - 4 * 1) % 1024 := by decide
theorem wit_rxcfg : State.reset.oper.inReset = false ∧ State.reset.someContextOn = false ∧ State.reset.oper.pcmd.getLsbD 15 = false ∧ State.reset.oper.calw.getLsbD 26 = false := by
  decide
theorem wit_replay : let o : Oper := { State.reset.oper with rxcfg := 7 }
    ∀ port, port < 2 → o.rxcfg.getLsbD 0 = true ∧ o.rxcfg.getLsbD (1 + port) = true ∧ (o.rxcfg.extractLsb' 32 32).toNat < 2 ^ 32 - 1 := by decide
/-- A calendar write that is accepted: index 0 to no pavilion; one of no index; and one that takes the last index of a device with a rate. -/
theorem wit_calendar_write : let s := demo .reset
    let t := { s.setDev 0 1 { device with rprom := 1 } with oper := { s.oper with calendar := [(0, 0)] } }
    s.oper.pcmd.getLsbD 15 = false ∧ s.oper.calw.getLsbD 26 = false ∧ s.oper.inReset = false ∧
      (0x6000400 : Word).extractLsb' 10 11 = 1 ∧ (0x6000400 : Word).getLsbD 25 = true ∧
      (∀ p ∈ s.pavs, s.promRates p.1 ≤ ((calendarAfter 0x6000400 s.oper.calendar).filter fun e => e.2 == p.1).length) ∧
      (0x6000000 : Word).extractLsb' 10 11 = 0 ∧ (0x6000000 : Word).getLsbD 26 = true ∧
      ∃ p ∈ t.pavs, ((calendarAfter 0x6000400 t.oper.calendar).filter fun e => e.2 == p.1).length < t.promRates p.1 := by decide
theorem wit_calendar_start : (demo .reset).clock % 1024 = 0 ∧ (package { Core.reset with cycle := 5 } (running .reset)).clock % 1024 ≠ 0 := by decide
theorem wit_calendar : (0x8000 : Word).getLsbD 15 = true ∧ (0x4000000 : Word).getLsbD 26 = true ∧ (0x4000000 : Word).extractLsb' 10 11 = 0 := by
  decide

/-! ### Witnesses: work, the host and the lodges -/

/-- The package whose core holds one task that waits. -/
def unbound : State :=
  { (demo .reset).setCore 0 { Core.reset with table := [{ entry 7 with bound := none }] } with images := [(0, image)] }
theorem wit_bind : let s := unbound
    let u := { entry 7 with bound := none }
    s.pavOf 0 = some 0 ∧ s.quiet 0 = false ∧ (s.core 0).failing = [] ∧ (s.core 0).ctxs = [] ∧ (s.core 0).table = [u] ∧
      (s.core 0).parked = [] ∧ (s.core 0).holds = [] ∧ (s.core 0).heldFor = none ∧ u.gang = none ∧ u.bound = none ∧ u.ended = none ∧
      recPipes u.record = 0 ∧ recBlocks u.record ≤ 8 ∧ recDomains u.record ≤ 8 ∧ s.images.find? (65536 * 0 + recImage u.record) = some image ∧
      image.templates = [] := by decide
theorem wit_finish : let s := package { Core.reset with table := [{ entry 7 with ended := some (3, 0, 0, 0) }] } .reset
    s.pavOf 0 = some 0 ∧ (s.core 0).table.find? (fun v => v.id == 7) = some { entry 7 with ended := some (3, 0, 0, 0) } ∧
      (s.core 0).inFlight = [] := by decide
theorem wit_post : let s := (demo .reset).setDev 0 1 { device with entries := [List.replicate 16 5], crbase := 0x5000, crtail := 15 }
    (s.dev 0 1).entries = [List.replicate 16 5] ∧
      ((s.dev 0 1).crtail + 65536 - (s.dev 0 1).crhead) % 65536 ≠ 16 * 2 ^ ((s.dev 0 1).vdcfg.extractLsb' 34 4).toNat := by decide
/-- The package whose core has one claim. -/
def claimed (st : ClaimState) : State := package { Core.reset with claims := [⟨7, 40, true, st, []⟩] } (running .reset)
theorem wit_claims : (((claimed .pending).core 0).claims = [⟨7, 40, true, .pending, []⟩]) ∧
    ((claimed .releasing).core 0).claims = [⟨7, 40, true, .releasing, []⟩] ∧ ((claimed .releasing).core 0).touches 7 40 = false := by decide
/-- The package whose device has reserved an entry for a record at 0x10000. -/
def reserved : State := (demo .reset).setDev 0 1 { device with launches := [⟨4, 2, none, false, none, 0, 0, 0x10000, none⟩] }
theorem wit_record_read : (reserved.dev 0 1).launches = [⟨4, 2, none, false, none, 0, 0, 0x10000, none⟩] ∧
    (match reserved.range ⟨0, 0, 1, false⟩ 0x10000 64 false with
      | .ok ps => ps.all fun q => !reserved.piecePoisoned q
      | .error _ => false) = true := by decide
theorem wit_host_launch : ((demo .reset).pav 0).formed = true ∧ ((demo .reset).dev 0 1).enabled = true ∧
    ((demo .reset).dev 0 1).vdctl.getLsbD 0 = false ∧
    ((demo .reset).dev 0 1).launches.length < (((demo .reset).dev 0 1).vdcfg.extractLsb' 25 9).toNat := by decide
theorem wit_window : (match (demo .reset).range (windowOf 0 1) (((demo .reset).dev 0 1).windowAddr 0x10008) 8 true with
      | .ok ps => decide (single (demo .reset) ps 8)
      | .error _ => false) = true ∧
    (match (demo .reset).range (windowOf 0 1) (((demo .reset).dev 0 1).windowAddr 0x40000000) 8 true with
      | .ok _ => false
      | .error _ => true) = true ∧
    (match (demo .reset).range (windowOf 0 1) (((demo .reset).dev 0 1).windowAddr 0x10008) 8 false with
      | .ok ps => ps.all fun p => !(demo .reset).piecePoisoned p
      | .error _ => false) = true ∧
    (match (demo .reset).range (windowOf 0 1) (((demo .reset).dev 0 1).windowAddr 0x40000000) 8 false with
      | .ok _ => false
      | .error _ => true) = true := by decide
theorem wit_crhead : ((0 : Word).extractLsb' 0 16).toNat = 0 ∧ (0 + 65536 - device.crhead) % 65536 ≤ (device.crtail + 65536 - device.crhead) % 65536 := by
  decide
/-- The package whose device 1 is disabled and whose pavilion has firmware and one virtual function. -/
def disabled : State :=
  let s := (licensed (demo .reset)).setDev 0 1 .reset
  { s.setPav 0 { s.pav 0 with vfs := 1 } with keys := [(1, ⟨0, 2, 5, true⟩), (2, ⟨0, 3, 4, false⟩)] }
theorem wit_enable : disabled.oper.inReset = false ∧ (disabled.dev 0 1).enabled = false ∧ (0x2000003 : Word).getLsbD 0 = true ∧ disabled.enableRefused 0 1 0x2000003 = false ∧
    (∀ e, disabled.keys.find? 2 = some e → e.live = false) ∧ ∀ j, 0 < j → j < 2 → ∃ e, disabled.keys.find? j = some e ∧ e.live = true := by
  refine ⟨by decide, by decide, by decide, by decide, ?_, ?_⟩
  · intro e h; cases h; rfl
  · intro j h1 h2
    obtain rfl : j = 1 := by omega
    exact ⟨_, rfl, rfl⟩
/-- The three stage-1 entries that the translation of page 1 walks (R361, R363): a table of level 1, one of level 2, and a page of 1 GiB. -/
theorem test_held_entries : (((demo .reset).holdPages ⟨0, 0, 1, false⟩ [1]).tlb.filter fun e => e.vd == 1).map
    (fun e => (e.level, e.tag, e.word, e.place)) = [(2, 0, 0xF, 0x5000), (1, 0, 0x5001, 0x4000), (0, 0, 0x4001, 0x3000)] := by decide
/-- Two pages that a terrace holds, and the invalidation of one of them. -/
def holding : State :=
  let s : State := { demo .reset with tlb := [⟨0, 0, 1, 4, 5, 3, 0x3000⟩, ⟨0, 0, 1, 4, 6, 3, 0x3008⟩] }
  s.setPav 0 { s.pav 0 with pavinv := 0x50005 }
theorem wit_pavinv : (holding.pav 0).pavinv.getLsbD 1 = false ∧
    after (exec (.pavinv 0) holding) (fun t => decide (t.tlb = [⟨0, 0, 1, 4, 6, 3, 0x3008⟩])) = true := by decide
theorem wit_pavinv_stage2 : let s := holding.setPav 0 { holding.pav 0 with pavinv := 0x203 }
    (s.pav 0).pavinv.getLsbD 1 = true ∧ after (exec (.pavinv 0) s) (fun t => decide (t.tlb = [])) = true := by decide
theorem wit_rmclr : let s := (demo .reset).setPav 0 { (demo .reset).pav 0 with rmclr := [0] }
    (s.pav 0).rmclr = [0] ∧ (s.core 0).table = [] := by decide
theorem wit_poolpart : (State.reset.core 0).partRefused 0x255 = false := by decide
theorem wit_device_reset : let s := (demo .reset).setDev 0 1 { device with vdctl := 1 }
    (s.dev 0 1).vdctl.getLsbD 0 = true := by decide
/-- The package during a command of the operator block, with one core or two named. -/
def commanded (s : State) (pcmd cores : Word) : State := { s with oper := { s.oper with pcmd := pcmd, pcore0 := cores, pmem := 0x101 } }
theorem wit_pavilion_reset : let s := commanded (demo .reset) 0x8004 0
    s.oper.pcmd.getLsbD 15 = true ∧ s.oper.pcmd.extractLsb' 0 3 = 4 ∧ (s.oper.pcmd.extractLsb' 3 4).toNat = 0 ∧ (s.pav 0).formed = true := by decide
theorem wit_package_reset : let s := commanded State.reset 0x8005 0
    s.oper.pcmd.getLsbD 15 = true ∧ s.oper.pcmd.extractLsb' 0 3 = 5 ∧ ∀ p ∈ s.pavs, ∀ d ∈ p.2.devs, d.2.enabled = false := by decide
set_option maxRecDepth 20000 in
theorem wit_form : let s := commanded State.reset 0x8081 3
    let o := s.oper
    o.pcmd.getLsbD 15 = true ∧ o.pcmd.extractLsb' 0 3 = 1 ∧ (s.pav o.target).formed = false ∧ o.named = [0, 1] ∧
      (∀ c ∈ o.named, s.coreFree c = true) ∧ s.otherVfs o.target + o.nvf ≤ 128 ∧
      s.pickGranules (o.pmem.extractLsb' 0 4).toNat (o.pmem.extractLsb' 4 4).toNat (o.pcmd.getLsbD 14) = some [0] ∧
      s.overloads o.target [0] = false := by decide
/-- A pavilion of core 0 that stands still, with no device enabled. -/
def still : State := { State.reset with pavs := [(0, { Pav.reset with formed := true, nvf := 1, cores := [0] })], granules := [(0, 0)] }
set_option maxRecDepth 20000 in
theorem wit_resize : let s := commanded still 0x8082 3
    let o := s.oper
    let p := s.pav o.target
    o.pcmd.getLsbD 15 = true ∧ o.pcmd.extractLsb' 0 3 = 2 ∧ p.formed = true ∧ o.named = [0, 1] ∧
      (∀ c ∈ o.named, c ∈ p.cores ∨ s.coreFree c = true) ∧ s.otherVfs o.target + o.nvf ≤ 128 ∧ p.enabledAbove o.nvf = false ∧
      p.contained = false ∧ s.pickGranules (o.pmem.extractLsb' 0 4).toNat (o.pmem.extractLsb' 4 4).toNat false = some [1] ∧
      s.overloads o.target [1] = false ∧ s.quiesced o.target o.named = true ∧ s.images = [] ∧ s.cores = [] := by decide
theorem wit_dissolve : let s := commanded still 0x8003 0
    s.oper.pcmd.extractLsb' 0 3 = 3 ∧ (s.pav s.oper.target).formed = true ∧ (s.pav s.oper.target).enabledDevs = [] ∧
      s.quiesced s.oper.target [] = true ∧ s.cores = [] := by decide

/-- A public key of ML-DSA-44, made for this test. -/
def testKey : List Byte :=
    leBytes 56 0xC03A691551ED42CB49713EA3BA3B41A7799BF1426D94C94FC9BEE916B32470A1AF9D78D197138F7DC9D2984A0D93E745DBE0AA5472B4B2D7 ++
    leBytes 56 0x13000B66F9BE3C43CBD51851B932A8E926BCACCC4C3FC49A892638BA14A40AF9142E4E29D297C392B595491831861D0EFEB5DE8A98CBFA41 ++
    leBytes 56 0x2A3A8073FDC00661C5E78998BB1E9CCE71FE5DE5720F3D335BB6808FFD4E8CE3A1CB1AB04A2E16C1AA22EB54D56AC374A22C761EF617088E ++
    leBytes 56 0x0F09A5A1BC920D84D2E45AC158C790E586FA2AA8D1E8D12E74E552C40A885ED2AB473B9475F98CA736CDD82BD154DACEB23CAAD7DEAFFEEC ++
    leBytes 56 0x4F8FFD9572CAE0337A77024A0C678135AB0589DA2EF672352C58169259F0A4F5A4D4077546DE98AA0A956EDA1B1A3F51B9D8A7FC97654940 ++
    leBytes 56 0x58F07D18F559E4436D83B8FD5AD49CA97F0B996DD7FC6793EA5375987510BAD1F7024C14925F6C823E02DA60FCF7F5F5653D68A7A3A0D1F6 ++
    leBytes 56 0x5641C22D642D0F438F53D0179C3AE17EF2EEC4D44860A0ACDC1933AB67AC41DE1DAB4BA91B40BAC13DCD90094670FA355983A61EA0099747 ++
    leBytes 56 0xED7B4A52E7CDC2DC1F075998D3962A6B0C9DE519A7B515A26B550EC1446897426212446C8419435F28E442C078395272BC8A8D7D8778DE60 ++
    leBytes 56 0xB497F15AA99E2B96D9D3116558AF0D4A1496458E8E4B78901FF39FFDDA4F3A4C04E5D1AF0A27289171C9FAEDF3B2E28F4E858E315BE854AE ++
    leBytes 56 0x1827309A55A676E0A4763B3B650B1CF258CD6B477F8548D474BE1CDCEF3145A54FE716289B1D05919DC7BD895FEF5B3ADE15EDB1F260FCE5 ++
    leBytes 56 0x10C7D5ADC96670973FEF9293EC0EA3C8B2FB1891A61B4A5FD45A1351746D32557DF67128DBBAF7D08CCA6138025F92ABAB9A85743FC65C55 ++
    leBytes 56 0x38BD253CB8128337F2A5F80845B7A07F477E9E7406499E9773F4321D001AA370936E48904B674EC020FD903E7C01C758D917D214157B64CC ++
    leBytes 56 0x5449BF5F5AC337926A4D1626985D312A04FA6058ED5B676EF3D44619210C5A055B6E583E6429B1467CC9AAED6716B742AF8B47F7FFB0A08C ++
    leBytes 56 0x973383610A904498089BD402373AAD36D7EF6D448367B7C578202FE623939EA082B0B4B54542AC66316705B68477AE4A5CB948F24DBDA590 ++
    leBytes 56 0x68F119C2B5E304522B12771AC35945D4F2F6DE5769E701E7599EB35BB65DA70E6FCB7A972AE3531BD4C4741491C187B3A0977A0DB31944BC ++
    leBytes 56 0xD092F1B480A195F0703693EDF3BB8D1B2B5ADD85B6B1D1AC4FF023B18B0D82C81BBD1598CD4417F4E9C0E943CD2DE8E6B301B8C00BED148B ++
    leBytes 56 0x8107D651883251EBBF2D3A0EA88FA7B0C75D0294945B35BC67AFB6B8D0D20C3B3F08804784CA04C9E0A5A0EE328E51242BCCDFBBFAB8108B ++
    leBytes 56 0x64AB095B14F036EBF09167A814A534DD360A9794BD12A524A3DF76313905D23DCF8427D7A662DF519F0EA32B921F25C07E78AE513649E998 ++
    leBytes 56 0x4283A282A8FBCAD4A004B367D58D17EDE6F816C28509B388CEA12215F56D484344BA604011A3688759271689481C2A1A6199B213034A1B65 ++
    leBytes 56 0x53E18FE15510BCEF8EBE8320CFDFB40A259A338FFA0B4B47350FAA5CE98CEAC97B5628A4625D3F6C56DF8F352C3D0830B68DE56AA29A7AF1 ++
    leBytes 56 0xC938E93850CE0BA059149AB258AB099373FFEF094F12F3417ECC1565B4F05E46A215880FD0CC549BA23CC4AE1A216BF03FD8660526CBEE70 ++
    leBytes 56 0xF851CFB7DCB7CEB024ACD6CF08C105397B48BFD8C491916E5D33B0863E43781DB6F84B9F95B442FC97FC73859F6DE6AAFDE54E0EEB728F67 ++
    leBytes 56 0x966AF151617602229A3679A6EFEDE82559BA15F3E82A8603C2870A6BE5D4B76CBA597B832508A7923D02970D6FC033C5B1AE5EB987D60E4D ++
    leBytes 24 0x12832C24B330C805CF8497DBE46958B570C06CE7EC819F5F
/-- The signature of the smallest image's digest under it, made by an implementation of the standard outside the package. -/
def testSignature : List Byte :=
    leBytes 56 0x1E0EA4FB4BBC306043510AC3D92CA48AD5D93E135A269553E9CBA27808A4294F9632A4C3E20B3E4A041B485009336A3888B1FF07037CD85F ++
    leBytes 56 0x10BFA29C2AB19609A61864E3EB475A2DC2A1EC1530DA1268E9B87A0E74DD3E98B1286D3F5D9E80697125A48EBA7B45E6C020366EC464B63F ++
    leBytes 56 0x051CE08CC9CDB8B827A2B683C18DC4C1C93BC944786E22BE052AC89750C0B2AB8501B386D2549D4110998D0B496208B83A8B41032B2D1E3B ++
    leBytes 56 0x1EBEA5D3757FB32531E77590DBB78F949BB9259AD6027EB3CE1431DEDDAB09F69CFA90972ACC4DAED8492DD7017DBCFF697DF3D07662B9F3 ++
    leBytes 56 0x25DE8F1FD6CDAC7B93830D0D14EB36BBEFF6288ADDFC8B2F775C34F6A6CD7296E80F621D88F60790F969A789F11516313EBE36D542872BF6 ++
    leBytes 56 0x87F92113A690C5E28D9D2F946B45CBC852E15FA338AEA32FF279086D05315403E4252166DE1CDF8954C041D58E20511B2D788DFA09DCDB3E ++
    leBytes 56 0x621393AB7242902F895F1EF9E0C47963E2DDC19A31A5B6BC6849A04F6498603725CBAFA192DE4D59B56661E599763395355AB8C19C5984D8 ++
    leBytes 56 0xEB47FE22AA762ABB620027AC9325538E5CF071D96A9C8FA88B972A3F0508F7F3102CEA30B67131768D066F35C362F9A1F1AA76693EE6A6FE ++
    leBytes 56 0x81F4A4BD37A66F056D841FFB79DCE6C54DBAC5937FE9FF78900A4D780735644EC38B09336C3B4AC5678FF6BC9616CA3200C4DD15F86ED87A ++
    leBytes 56 0x6974E1DFB54CA115BDD4DF7C54143743267AFA466E67D50B206C8A0FCB632BC6860AE56F976786C624FB9EACEF5EBE25BFD266D493104C15 ++
    leBytes 56 0x661CC78368B4FB785D44DE3C2D74D959E3732DAAB193D09CFCCCB784782678EE3570FE4D303D038D48F4ED01ADC63D58E3BC400A70BD9515 ++
    leBytes 56 0x6DCA831EB34A6BAFDDDE3D478E2C3CE119E1A78F433AEAC809C3C3073B94B0A70CB0A7A9949EF0E57DDA0CC5AD58B8C74B710939BCD7135B ++
    leBytes 56 0xF2A0B71D65D51E8D32A58793CECE2C9A911B668A21FE4AC2C44F0315238E80CC4D16A5CDD1ABE30170957257E23251F9CB4F5147F958FABE ++
    leBytes 56 0x28250ED17AAD2184D9D29729163E62DEF3443AF426295929D1682E1E14768F49F9ABCD4DE452069ED160BB1D30831450032ED9A4F43D3EB6 ++
    leBytes 56 0xEA8127D9BCA4268395A184129EA1603CE0CD3CB54F5A9D5FF58B374B80FCCE428BA2F3A0A975F0CB11940AA7B307FC6D3D227710180F3D85 ++
    leBytes 56 0xE952FEE4E29E7C7C69492C53588993F36264F58FF1A03C29A7369D68F5035995639574191896668DF3243C02E0317862658150465CF9B095 ++
    leBytes 56 0xF7E9B2FD7A482372B1971D12630CBF5F0265FFF7ADA9B118691EB25446C614D34533320CC3C181315A0DBF0079057C9188EACDF2F7194628 ++
    leBytes 56 0xAC9C9BF0E3C75B5256D93EABF21C8F22BE51020D64190476FA7B83B1B291522D0EA3DD9C4B268EB59B985E0DD7D2D258E088CA3C3515CDA4 ++
    leBytes 56 0x9CDCA3197DB39479BC57EEF561881A84433A38479B67193D4E43218CC77A11ABD366086A21E363BCAE1D09AD1CC12C9A7153A695B3E14ED3 ++
    leBytes 56 0xA41845B9CA98282182AFEB2E416ADC3538C2E7C300855A426C83F5F2DE9DB16A71197241099120D550FF74974970FDF8CDEE92DB652135F3 ++
    leBytes 56 0x312C65DFFB5474FCDE9D1705C5AD2056C1C7A792E408838448D4A990527C88B7D3F9121AE60B97A6926F6D6DE2085D2DF76FF304117EAA80 ++
    leBytes 56 0xAB20007F917D953CA921D6C79DE258951BCF60E45F74EFC19F560733847D8C1A9DB47C4F9803CBCF692064D61F4B85E530D532F5373D7E4C ++
    leBytes 56 0x0A6D0BD3700035CF23A705D99B9FAABDAC9F8F7D63EABCAF530FAEE10ED88295EE2FD470187077B0452053DBBC8FF689F26BDAF1B0D5C657 ++
    leBytes 56 0x2E43A2D687FF0A1DFA41DE0B01C8B9783BA0A23F2A9106943D4ABB70628B1AA076C05FF35B7C47A9BC90BBC2A6FD7990525987F08E01DFCE ++
    leBytes 56 0x96A666C467C053E34C9673DAC386EA7A49EA035EA90D27D206C7B6EB0D8D8834FB717BB914F087F370189DC18A2EDF7124C3408C665361D1 ++
    leBytes 56 0x7B92B15D9DE8F92D40FE79A39DD472CC02178033D7BF284AB5D21FB64853FB3D0EBD03A8F698A7FA544C6D7C3BD2B277C0157E939A794135 ++
    leBytes 56 0x2C7A448BE1BEF39FBF5CDCD0392B1B040246CFD69448EB4570AD76CD27D5493D171DA7937341C93E3224DF7CC504BED19BB259FAFDF09856 ++
    leBytes 56 0xF799FE493281156C6FD6FE6F5C2AA0294A3C98BF7897E921B76212FDA84863D98FB797696F79FB4F29ACA075716A48027118F535E2817C4D ++
    leBytes 56 0xC711DB1E9317F417073C2470E8EF052004CC0AB8696849607593D15614EBF3A178431EC31A00816C30C33B0FECB9361AD5195A2464AE9F3C ++
    leBytes 56 0x8068041FA62FDEF8DEFD427035AD4CEE8B6EBB825C214F919671F8045D89F9E39FF5E6D3C692984494EF07A155C1BC6AC0BA2301F8074A40 ++
    leBytes 56 0x40866D4164E4A815C2AA0B914EF4C6A8D5B58B06CFAED4C6C8665AB46852121306F7231E5B19FD5F44BC93BBF35229987CFEF9B930F42705 ++
    leBytes 56 0x060895BB5D20B15963728440B05280F944AD5E4D5FDAE3D783A8B7F681A115D3B992868207BA1B6E341F30A5AD9E4A7382557FC252FBE6F2 ++
    leBytes 56 0xC5E9D772F37E2C77E68CDEDADE98756D24A43F50CA7C6F44DEE4727749BDCBEB6057B99208AFF38FF6CA85587CA9C500BA2E36427B502701 ++
    leBytes 56 0x0E6D6633BAA6A39E6FC89801FE8626F5FCBEA397B2716C45935CF4BBB163DFAF119C6928C5827B3436992C8F1F30425CF9D7DECBEA256C01 ++
    leBytes 56 0xD842B5A5B5542D6B575229851FDF47986FC49EDB15FB912F510A9F4318CFA6DB6D6B28DB7351A13D083243CA71FFBD314289DC155F087BC6 ++
    leBytes 56 0x99D3D269BB905B4D2DB74DD5AEBCA8E1CD1915800DEECFAB93979BBCB3F99363D334A8AD960130187C189FA91A5F6680893800B62355C5A4 ++
    leBytes 56 0xC38A16DB3AAAF7D9FF28700C403C811825004DE64840DDF795AB4D4CC1C03D9A51427CEDFBC3B40D461E07122362240FC52D102D05E550F7 ++
    leBytes 56 0xAB8F7BD5F2681EB2CA31A26BFAD153A4EA1A435EC3291BB6E081622DA020F8601D3C7DEF839200F8E7D152B0F7717B3254F6C9FEA2A7B5DE ++
    leBytes 56 0xBA482AAC60E322C5F9F75C58A7EA57523103DD0BBA4DA6385C30E26E41D862066143A1CE31D53F05D955737D6B72AED38CAE835DB088A6BD ++
    leBytes 56 0x3519115956E1EE08CDC467A436D108EFA61D134E370ED1CE9D4E919A5FD100BF63E768C85FCCD78C9C19F2A1A83081AE077AE58E0CD0732C ++
    leBytes 56 0xFDEE9C37DD720B6C6B3D27FAD9CD53167EEF79340C5859B572FC1ADEADB721934A9C525B897A655856E887134F8136003F8B84946238FC29 ++
    leBytes 56 0x03E7D1B6AF9E9B7A78645F491F1E1C0E58B442B8037D30A6AE916BFE20571EB3E0F1F3EF5681D40C7ED31BD16CA3B21E17E221FCFAF48DA0 ++
    leBytes 56 0x00000000000000000000EAE8D1C5B089887C7B5440332A2712110D05FDF8DD7F706763584D49472AFFF2D5C6BFBAB09E9A8E827B775F3332 ++
    leBytes 12 0x3E2C200F0000000000000000
/-- The smallest image: a text of one bundle, #0 -> br.halt; its entry symbol; the empty name; and a signature by key 0. -/
def smallest : List Byte :=
  let sect (typ off size align : Nat) : List Byte := leBytes 4 typ ++ leBytes 4 0 ++ leBytes 8 off ++ leBytes 8 size ++ leBytes 4 align ++ leBytes 4 0
  leBytes 4 0x01464942 ++ leBytes 2 64 ++ leBytes 2 4 ++ leBytes 8 0 ++ leBytes 8 0 ++ leBytes 8 64 ++ List.replicate 32 0 ++
    sect 1 192 24 64 ++ sect 7 216 24 8 ++ sect 11 240 1 1 ++ sect 12 241 2424 1 ++
    ((encode (.halt ⟨0, 0, false, false, .short 0⟩)).getD []) ++ (leBytes 4 0 ++ [1, 0] ++ leBytes 2 1 ++ leBytes 16 0) ++ [0] ++
    leBytes 4 0 ++ testSignature
/-- The package whose host has asked for the load of the smallest image for device 1. -/
def loading : State :=
  let s := { demo .reset with images := [], granules := [(0, 0), (1, 0)] }
  s.setPav 0 { s.pav 0 with imgctl := 0xA6900000005, slot := some ⟨1, 0, [⟨1, true, testKey⟩]⟩ }
theorem wit_load_format : formatFits smallest = true := by decide +kernel
/-- What the checks of its text look at. -/
def smallestText : TextCheck := textCheckOf smallest (bifBytes smallest 1) 0x1000
theorem wit_load_text : smallestText.fits = true := by decide +kernel
theorem wit_load_patched : bifPatched smallest (bifTable smallest) = smallest := by decide +kernel
/-- The package with the image in the host's memory. -/
def hosting : State := loading.hostHolds (loading.pav 0).imageBuffer smallest
theorem wit_load_place : (loading.pav 0).imgctl.getLsbD 0 = true ∧ (loading.pav 0).imgctl.getLsbD 1 = false ∧
    smallest.length = ((loading.pav 0).imgctl.extractLsb' 32 32).toNat ∧ ((loading.pav 0).imgctl.extractLsb' 2 7).toNat = 1 ∧
    loading.commandFor 0 [1, 2, 4] = false := by decide +kernel
theorem wit_load_fits : (hosting.dev 0 1).enabled = true ∧ (hosting.dev 0 1).tenant = 1 ∧
    hosting.textBase 0 (bifBytes smallest 1).length = 0x1000 ∧ hosting.freeHandle 0 = some 1 ∧
    hosting.textRoom 0 (bifBytes smallest 1).length = true ∧ bifBytes smallest 8 = [] ∧ hosting.metaFitsPad 0 smallest = true ∧
    hosting.microFits 0 1 smallest = true ∧ hosting.microWaits 0 (bifImage smallest 0 1 1 0x1000 0).micro = false ∧
    dataWrites smallest 0 (bifTable smallest) = [] := by decide +kernel
theorem wit_load_relocated : hosting.relocated 0 0x1000 (bifRelocs smallest) (bifTable smallest) = some (bifTable smallest) ∧
    hosting.loaderWrites 0 1 [] = some hosting := by
  have h : bifRelocs smallest = [] := by decide +kernel
  exact ⟨by rw [h]; rfl, rfl⟩
/-- The signature is one that the standard accepts: `verifies testKey (imageDigest smallest) testSignature` evaluates to true, but not in the
kernel's memory, so it stands as a hypothesis; with it the image meets the last of the load's conditions. -/
theorem wit_load_signature (h : verifies testKey (imageDigest smallest) testSignature = true) :
    signatureFits smallest (loading.pav 0).slot 1 = true := by
  have h1 : ((bifBytes smallest 12).drop 4).take 2420 = testSignature := by decide +kernel
  have h2 : fieldOf (bifBytes smallest 12) 0 2 = 0 ∧ ((bifBytes smallest 12).length == 2424) = true ∧
      (fieldOf (bifBytes smallest 12) 2 2 == 0) = true ∧ ((sigSections smallest).length == 1) = true := by decide +kernel
  have h3 : (loading.pav 0).slot = some ⟨1, 0, [⟨1, true, testKey⟩]⟩ := rfl
  simp only [signatureFits, h3, h2.1, h2.2.1, h2.2.2.1, h2.2.2.2, h1, h, List.getElem?_cons_zero, Bool.and_true]
  rfl
theorem wit_unload : let s := (demo .reset).setPav 0 { (demo .reset).pav 0 with imgctl := 0x10003 }
    (s.pav 0).imgctl.getLsbD 0 = true ∧ (s.pav 0).imgctl.getLsbD 1 = true ∧ s.commandFor 0 [1, 2, 4] = false ∧ s.launchUnread 0 = false ∧
      (((s.pav 0).imgctl.extractLsb' 16 16).toNat = 1) ∧ s.handleUsed 0 1 = false ∧ s.images.find? (65536 * 0 + 1) = some image := by decide
/-- A firmware image of signer 0 and security version 1, with no key and a signature of zeros. -/
def firmware : List Byte := leBytes 4 0x0157464C ++ leBytes 4 1 ++ leBytes 8 64 ++ List.replicate 2536 0
theorem wit_firmware : let s := (demo .reset).setPav 0 { (demo .reset).pav 0 with fwctl := 1 }
    (s.pav 0).fwctl.getLsbD 0 = true ∧ s.commandFor 0 [1, 4] = false ∧ firmware.length = fwLength firmware ∧ firmwareFits firmware = true ∧ fwSigner firmware = 0 ∧
      (s.pav 0).topSvn ≤ fwSvn firmware := by decide +kernel
theorem wit_firmware_key : signerKey 0 = some Config.harastKey := rfl
/-- The package whose pavilion has a command of ATCTL. -/
def attesting (op : Word) : State := (demo .reset).setPav 0 { (demo .reset).pav 0 with atctl := op }
theorem wit_attestation : ((attesting 1).pav 0).atctl.getLsbD 0 = true ∧ ((attesting 1).pav 0).atctl.getLsbD 1 = false ∧
    (attesting 1).commandFor 0 [1, 4] = false ∧ ((attesting 1).pav 0).buffer + 8192 ≤ 2 ^ 64 := by decide
theorem wit_certificates : ((attesting 3).pav 0).atctl.getLsbD 0 = true ∧ ((attesting 3).pav 0).atctl.getLsbD 1 = true ∧
    (attesting 3).commandFor 0 [1, 4] = false ∧ ((attesting 3).pav 0).buffer + 8192 ≤ 2 ^ 64 := by decide
theorem wit_operator : ({ Oper.reset with go := true } : Oper).go = true ∧ Oper.reset.t0 < Oper.reset.twarn ∧ Oper.reset.twarn ≤ 95 ∧
    Oper.reset.cur = 2 := by decide
theorem wit_canonical : tables.wf = true ∧ State.reset.mem.wf = true := by decide
/-- A row leaves memory as it was: a store that has issued waits for its acceptance (R194). -/
theorem wit_memory_frame : ∃ t, exec (.st32Ls0 (s1in 6)) (memory .ls0 grant 0x1234 8 (.word 0)) = .next t := ⟨_, rfl⟩
theorem wit_engine_frame : ∃ t, exec (.mxNop 0) (callStep 5 false false) = .next t := ⟨_, rfl⟩
theorem wit_step_next : ∃ t, step (demo .reset) = .next t := ⟨_, rfl⟩

/-! ### Witnesses: further clauses -/

/-- A file of candidates in their order: the higher score first, of equal scores the lower identifier (R140). -/
theorem wit_ranked : ([0x0000000140000000, 0x000000013F800000, 0x000000023F800000] : List Word).zipIdx.Pairwise Spec.ranks := by
  simp [List.zipIdx, Spec.ranks, Spec.score]
  try decide
/-- The operands of a row, read, meet a condition. -/
theorem operands_of {s : State} {l : Loc} {i : Instr} {P : Opd → Prop} [DecidablePred P]
    (h : (match s.rowOperands l i with | some o => decide (P o) | none => false) = true) : ∃ o, s.rowOperands l i = some o ∧ P o := by
  split at h
  · exact ⟨_, ‹_›, of_decide_eq_true h⟩
  · cases h
/-- The package with a context in a delay bundle of a taken branch, or in a loop body, whose s1 is an operand of br. -/
def misplaced (x : Word) (loop : Bool) : State :=
  let w : View := { View.reset with s := [(1, x)], ports := [(UnitId.br.num, words 0 0 0)] }
  if loop then demo { w with looping := true, ctl := { Ctl.reset with loopwd := 0x6000003, loopst := 0x40000000 } }
  else package .reset { running w with branch := some (1, 0x1048), fin := some w }
/-- Each operation of br, with S = 1 and S = 0, in a delay bundle and in a loop body (R39, R116). -/
theorem wit_misplaced : ∀ e ∈ ([(.jmp, 72), (.jmpa, 0x1000), (.call, 72), (.calla, 0x1000), (.ret, 0x1000), (.bmz, 72), (.bmnz, 72), (.mark, 0x10000000),
      (.safe, 0x10), (.trap, 0xFFFF), (.rte, 0), (.yield, 0), (.halt, 7)] : List ((Mv → Instr) × Word)), ∀ loop sb, ∃ o,
    (misplaced e.2 loop).rowOperands l0 (e.1 ⟨0, 0, sb, true, .reg .s 1⟩) = some o ∧ (misplaced e.2 loop).mayIssue l0 ∧ o.op ∈ opsOf .br ∧
      Spec.branchOperandFits ((misplaced e.2 loop).ctx l0) o ∧
      (((misplaced e.2 loop).ctx l0).branch.isSome = true ∨ (((misplaced e.2 loop).ctx l0).cur.looping = true ∧ 
        ((misplaced e.2 loop).ctx l0).cur.ctl.loopst.extractLsb' 0 6 ≠ ((misplaced e.2 loop).ctx l0).cur.ctl.loopwd.extractLsb' 0 6)) := by
  intro e h loop sb
  simp only [List.mem_cons, List.not_mem_nil, or_false] at h
  rcases h with rfl | rfl | rfl | rfl | rfl | rfl | rfl | rfl | rfl | rfl | rfl | rfl | rfl <;> cases loop <;> cases sb
  all_goals
    refine ⟨_, rfl, by decide, by decide, ?_, by decide⟩
    first | trivial | (simp only [Spec.branchOperandFits]; decide)
/-- A CRR of each number of a step clock of domain 0, of the QCFG of queue 3 of its program and of another, of POOLPART and of a BANKFMT. -/
theorem wit_crr_numbers : ∀ n ∈ ([0x018, 0x020, 0x030, 0x033, 0x040, 0x041, 0x069, 0x090] : List Word), ∃ o,
    (engine .pd n 0 0).ready l0 (.crr (s1in 0)) o ∧ o.op = .crr ∧ o.xw = n ∧ ((engine .pd n 0 0).ctx l0).cur.domainCount = 1 := by
  intro n h
  simp only [List.mem_cons, List.not_mem_nil, or_false] at h
  rcases h with rfl | rfl | rfl | rfl | rfl | rfl | rfl | rfl <;> exact ready_of (by decide)
/-- The package whose queue 2 is another program's. -/
def foreign : State :=
  package { Core.reset with queues := [(2, { Queue.reset with owner := some 8 })] }
    (running { View.reset with s := [(1, 0x032)], ports := [(UnitId.pd.num, words 0 0 0)] })
/-- Queue 3 is the program's, and queue 2 another's. -/
theorem wit_crr_queues : ((engine .pd 0x033 0 0).core 0).queue 3 = { Queue.reset with base8 := 400000, lcap := 2, en := true, owner := some 7, count := 1 } ∧
    (engine .pd 0x033 0 0).progOf l0 = some 7 ∧ ((foreign.core 0).queue 2).owner = some 8 ∧ foreign.progOf l0 = some 7 ∧
    isReady foreign l0 (.crr (s1in 0)) (fun o => decide (o.op = .crr)) = true := by decide
/-- A CRW of each of the other registers that the program may write. -/
theorem wit_crw_numbers : ∀ e ∈ ([(1, 0x005), (1, 0x008), (1, 0x011), (1, 0x012), (1, 0x018), (1, 0x020), (0x1261A80, 0x033), (1, 0x069)] :
      List (Word × Word)), ∃ o, (engine .pd e.1 e.2 0).ready l0 (.crw (s1in 0)) o ∧ ((engine .pd e.1 e.2 0).take l0).passes l0 o ∧
      ((engine .pd e.1 e.2 0).ctx l0).straight ∧ o.op = .crw ∧ ((engine .pd e.1 e.2 0).ctx l0).cur.flights = [] ∧ o.b = e.2 := by
  intro e h
  simp only [List.mem_cons, List.not_mem_nil, or_false] at h
  rcases h with rfl | rfl | rfl | rfl | rfl | rfl | rfl | rfl <;> exact passing_of (by decide)
/-- A CRR and a CRW of numbers that name no register, at the ends of their ranges. -/
theorem wit_no_control : ∀ n ∈ ([0x013, 0x017, 0x028, 0x02F, 0x091, 0x09F, 0x0A3, 0xFFF] : List Word), Spec.noControl n ∧
    (∃ o, (demoOf [(1, n)] .pd (words 0 0 0)).ready l0 (.crr (s1in 0)) o ∧ o.op = .crr ∧ o.xw = n) ∧
    ∃ o, (demoOf [(1, 0)] .pd (words n 0 0)).ready l0 (.crw (s1in 0)) o ∧ o.op = .crw ∧ o.b = n := by
  intro n h
  simp only [List.mem_cons, List.not_mem_nil, or_false] at h
  rcases h with rfl | rfl | rfl | rfl | rfl | rfl | rfl | rfl <;>
    exact ⟨by simp [Spec.noControl], ready_of (by decide), ready_of (by decide)⟩
/-- QOS of each class, and of a class that is none. -/
theorem wit_qos_classes : ∀ n ∈ ([0, 1, 2, 3, 4, 5, 6] : List Word), ∃ o, (demoOf [(1, n)] .pd (words 0 0 0)).ready l0 (.qos (s1in 0)) o ∧
    o.op = .qos ∧ o.xw = n ∧ ((demoOf [(1, n)] .pd (words 0 0 0)).ctx l0).binding = some bound := by
  intro n h
  simp only [List.mem_cons, List.not_mem_nil, or_false] at h
  rcases h with rfl | rfl | rfl | rfl | rfl | rfl | rfl <;> exact ready_of (by decide)
/-- An ADD with S = 1 whose source is empty, whose latch is full and whose selector is valid. -/
theorem wit_empty_source_latches : let s := demo { View.reset with emptyS := 2, ports := [(0, words 7 0 0)] }
    s.mayIssue l0 ∧ (Instr.add 0 ⟨0, 0, true, false, .reg .s 1⟩).trigger? = some (.sx0, .add, ⟨0, 0, true, false, .reg .s 1⟩) ∧
      (s.ctx l0).cur.guard 0 = true ∧ (s.ctx l0).straight ∧ (opSem .add).outward = false ∧ (s.ctx l0).cur.isEmpty .s 1 = true ∧
      RFile.s ∈ busReads (slotBus 0) ∧ (fileWidth .s).adapts (opSem .add).xw = true ∧
      readLatches (s.ctx l0).cur ((s.ctx l0).cur.port .sx0) (if (opSem .add).needs (.word 0) then (opSem .add).latches else []) =
        .ok ([(1, .word 7)], false) ∧
      readSel ((s.ctx l0).cur.port .sx0) (opSem .add).sel = .ok (some ⟨some .s, 2, 0⟩) := by decide
theorem wit_empty_source_latches_waits : ∀ p ∈ (opSem .add).parts, 0 ∉ p.uses →
    ∀ (s : State) (o : Opd), p.test s l0 o = none := by
  intro p hp
  simp [opSem, semAdd, intSem, OpSem.base] at hp
theorem wit_tstat_z : ∃ o, (engine .mx 32 0 0).ready l0 (.tstat (s1in 5)) o ∧
    ((engine .mx 32 0 0).take l0).passes l0 o ∧ o.op = .tstat ∧ 32 ≤ o.xw.toNat := passing_of (by decide)
/-- A TSET of z0 that clears flags and sets STATE, and one that gives it up. -/
theorem wit_tset_z : ∀ b ∈ ([0xFF1E, 4] : List Word), ∃ o, (engine .mx 32 b 0).ready l0 (.tset (s1in 5)) o ∧
    ((engine .mx 32 b 0).take l0).passes l0 o ∧ o.op = .tset ∧ 32 ≤ o.xw.toNat ∧ o.b = b := by
  intro b h
  simp only [List.mem_cons, List.not_mem_nil, or_false] at h
  rcases h with rfl | rfl <;> exact passing_of (by decide)
theorem wit_sread_words : ∀ w ∈ ([0x40000, 0x80000] : List Word), ∃ o, (engineR .sc w 0).ready l0 (.sread (s1in 5)) o ∧
    ((engineR .sc w 0).take l0).passes l0 o ∧ o.op = .sread ∧ ((engineR .sc w 0).ctx l0).straight ∧
    ((engineR .sc w 0).ctx l0).cur.flights = [] ∧ o.xw = w := by
  intro w h
  simp only [List.mem_cons, List.not_mem_nil, or_false] at h
  rcases h with rfl | rfl <;> exact passing_of (by decide)
theorem wit_fstat_words : ∀ b ∈ ([0, 2] : List Word), ∃ o, (engine .fr 0 b 0).ready l0 (.fstat (s1in 5)) o ∧
    ((engine .fr 0 b 0).take l0).passes l0 o ∧ o.op = .fstat ∧ ((engine .fr 0 b 0).ctx l0).straight ∧
    ((engine .fr 0 b 0).ctx l0).cur.flights = [] ∧ o.b = b ∧ ((engine .fr 0 b 0).core 0).frameOf 0 = ⟨5, 2, 46, 32, 9, 0, false, 1⟩ := by
  intro b h
  simp only [List.mem_cons, List.not_mem_nil, or_false] at h
  rcases h with rfl | rfl <;> exact passing_of (by decide)
/-- A running scan operation of one block of 2^0 rows on slot 0, with its tiles. -/
def scanning (op : Op) : State :=
  let ts : List TileRef := [⟨0, tileAt 40 2 0 32 128, .update⟩, ⟨1, tileAt 41 2 0 32 128, .update⟩, ⟨2, tileAt 42 2 0 32 128, .source⟩]
  package { engineCore with scRun := some { scOp op 0x3E82 with tiles := ts.take (if op = .sload then 1 else if op = .sapply then 3 else 2) } } (engineCtx .reset)
/-- A block of each scan operation, of 126 columns and chunks of four rows. -/
theorem wit_scan_columns : ∀ op ∈ [Op.sload, .scomp, .sapply, .scarry], ∃ o t, ((scanning op).core 0).scRun = some o ∧ o.op = op ∧
    o.due ≤ ((scanning op).core 0).cycle ∧ exec (.scanBlock 0) (scanning op) = .next t := by
  intro op h
  simp only [List.mem_cons, List.not_mem_nil, or_false] at h
  rcases h with rfl | rfl | rfl | rfl <;> exact ⟨_, _, rfl, rfl, by decide, rfl⟩

/-- A running frame operation on slot 0 whose area lies at 0x40000, whose other area at 0x50000, with its latches. -/
def moving (op : Op) (cmd o1 o2 : Word) : FrOp :=
  ⟨5, ⟨0, bound, 0⟩, op, 0x800000 ||| cmd, o1, o2, 0, true, true, .found 0x40000 0x180, .found 0x50000 0x180, none⟩
/-- The package that runs it: valid homes of 32 elements stand at 0x40000 and 0x50000, and the session table lies beyond what stage 2 maps. -/
def framing (o : FrOp) : State :=
  let s := package { engineCore with frq := [o] } (engineCtx .reset)
  let keys := [(0x1000, 1), (0x1001, 1), (0x1002, 1), (0x1003, 1), (0x1004, 1), (0x1005, 1), (0x1400, 1), (0x1401, 1), (0x1402, 1), (0x1403, 1),
    (0x1404, 1), (0x1405, 1)]
  { s.setPav 0 { s.pav 0 with stbase := 0x0000FFFFFFFFF000 } with
    mem := tables ++ [(0x40003, 1), (0x4000C, 32), (0x50003, 1), (0x5000C, 32)], lineKey := s.lineKey ++ keys }
/-- Every frame operation with its command and its latches: SNAP, FDROP with and without WB, FSWAP, FBIND with and without LOAD, ROLL and FORK. -/
def movings : List FrOp :=
  [moving .snap 0 0 0, moving .fdrop 0x4000000 0 0, moving .fdrop 0 0 0, moving .fswap 0 0x30004 0, moving .fbind 0 0x30004 0x10002F,
    moving .fbind 0 0x30004 0x2F, moving .roll 0 0 0, moving .fork 0 0x700030004 0x2F]
set_option maxRecDepth 20000 in
theorem wit_frame_moves : ∀ o ∈ movings, ∃ t, ((framing o).core 0).frq.find? (fun p => p.id == o.id && p.running) = some o ∧ o.gone = none ∧
    ((framing o).core 0).frames.find? o.frame = some ⟨5, 2, 46, 32, 9, 0, false, 1⟩ ∧ o.area = .found 0x40000 0x180 ∧ o.cmd.getLsbD 23 = true ∧
    exec (.frameOperationCompletion 0 o.id) (framing o) = .next t := by
  intro o h
  simp only [movings, List.mem_cons, List.not_mem_nil, or_false] at h
  rcases h with rfl | rfl | rfl | rfl | rfl | rfl | rfl | rfl <;> exact ⟨_, by decide, rfl, by decide, rfl, by decide, rfl⟩
set_option maxRecDepth 20000 in
/-- No session of the package that runs SNAP has an entry. -/
theorem no_session (child : Nat) : ∃ e, (framing (moving .snap 0 0 0)).sessionEntry ⟨0, 0, 1, false⟩ child = .error e := by
  by_cases h : child < 64
  · have h1 : ∀ n, n < 64 → (match (framing (moving .snap 0 0 0)).sessionEntry ⟨0, 0, 1, false⟩ n with
        | .error _ => true | .ok _ => false) = true := by decide +kernel
    have h2 := h1 child h
    split at h2
    · exact ⟨_, ‹_›⟩
    · cases h2
  · have h1 : bits ((framing (moving .snap 0 0 0)).pav 0).stbase 47 12 * 4096 = 2 ^ 48 - 4096 := by decide
    unfold State.sessionEntry
    simp only [h1]
    rw [if_pos (by omega)]
    exact ⟨_, rfl⟩
/-- No child refers to a record. -/
theorem wit_no_child (child : Nat) : (framing (moving .snap 0 0 0)).refersTo 0 ⟨0, bound, 0⟩ 5 2 0 child = none := by
  obtain ⟨e, h⟩ := no_session child
  have h1 : (framing (moving .snap 0 0 0)).areaOf ((⟨0, bound, 0⟩ : Who).accessor 0) bound.tenant child 2 = .fault e := by
    unfold State.areaOf
    rw [show (⟨0, bound, 0⟩ : Who).accessor 0 = ⟨0, 0, 1, false⟩ from rfl, h]
  unfold State.refersTo
  rw [h1]
/-- The homes are read and are valid, and what goes to a home or a record can be written. -/
theorem wit_frame_memory : ∀ o ∈ [moving .snap 0 0 0], (∀ va ∈ [0x40000, 0x50000],
      (match (framing o).frameRead 0 ⟨0, bound, 0⟩ va 64 with
        | .ok r => decide (Spec.field r.2 3 1 = 1 ∧ Spec.field r.2 12 4 = 32)
        | .error _ => false) = true) ∧
    ∀ va ∈ [0x40000, 0x40180],
      (match (framing o).frameWrite 0 ⟨0, bound, 0⟩ va (List.replicate 384 0) with | .ok _ => true | .error _ => false) = true := by
  decide +kernel
/-- A home that refers to record 0 of session 0, whose entry stands at 0x60000: its areas begin at 0x70000. -/
def referring : State :=
  let s := framing (moving .fbind 0 0x30004 0x10002F)
  { s.setPav 0 { s.pav 0 with stbase := 0x60000 } with
    mem := tables ++ [(0x40003, 3), (0x4000C, 32), (0x60000, 1), (0x60001, 2), (0x60002, 1), (0x6000A, 7)], lineKey := s.lineKey ++ [(0x1800, 1)] }
theorem wit_frame_reference : (match referring.frameRead 0 ⟨0, bound, 0⟩ 0x40000 64 with
      | .ok r => decide (Spec.field r.2 3 1 % 2 = 1 ∧ Spec.field r.2 3 1 / 2 % 2 = 1 ∧ Spec.field r.2 17 2 = 0)
      | .error _ => false) = true ∧ referring.areaOf ⟨0, 0, 1, false⟩ 1 0 2 = .found (0x70000 + 5 * 384 * 2) 384 := by decide
/-- The words of a template image (R212) of one dimension, after its capabilities: operation and kinds, bases, count, steps, limit. -/
def patterned (w2 : Nat) (w3 w4 w5 w6 w7 : BitVec 128) : CpOp :=
  { cpOp 0 false false none with
    image := [Spec.capability 0x10000 0x1000 0x8F 1, Spec.capability 0x10000 0x1000 0x8F 1, ⟨BitVec.ofNat 128 w2, false⟩, ⟨w3, false⟩, ⟨w4, false⟩, ⟨w5, false⟩, ⟨w6, false⟩, ⟨w7, false⟩] }
/-- Two capability bases of 0, a pool base of 0x280000 for the source and of 0x290000 for the destination. -/
def pooled : BitVec 128 := 0x290000 * 2 ^ 64 + 0x280000
/-- The package with the copy in channel 0, whose memory holds 2, 3 and 0 as row pointers at 0x10000, and whose pool a record of one value. -/
def copying (o : CpOp) : State :=
  let s := package { engineCore with cp0q := [o], pool := [(0x280010, 1)] } (engineCtx .reset)
  { s with mem := tables ++ [(0x10000, 2), (0x10004, 3)], lineKey := s.lineKey ++ [(0x404, 1), (0x408, 1)] }
/-- A flow that has met nothing. -/
def flowing (o : CpOp) : Flow := ⟨copying o, 0, none, 1, 0, [], 0⟩
/-- Elements of four bytes between memory (0), the pool (1) and tiles (2), with and without a conversion from B16, and one at its limit. -/
def patterns : List CpOp :=
  [{ patterned 0x100 0 3 4 4 0 with src := none }, patterned 0x105 pooled 3 4 4 0, patterned 0x105 pooled 3 4 4 0x10000,
    { patterned 0x10A 0 3 1 1 0 with src := some ⟨0, tileAt 40 2 0 32 128, .source⟩, dst := some ⟨1, tileAt 41 2 0 32 128, .destination⟩ },
    patterned 0x2020485 pooled 3 2 4 0]
set_option maxRecDepth 20000 in
/-- An element of each pattern is read. -/
theorem wit_pattern_elements : ∀ o ∈ patterns, (flowing o).fault = none ∧
    (match Spec.copyValue (flowing o).state 0 o (shapeOf o.image o.disp) 2 [1] with | .ok _ => true | .error _ => false) = true := by
  decide +kernel
/-- Each pattern begins. -/
theorem wit_pattern_begins : ∀ o ∈ patterns, ((copying o).core 0).cp0q = o :: [] ∧ o.running = false ∧ o.refused = 0 ∧ (shapeOf o.image o.disp).op ≠ 1 ∧
    ∃ t, exec (.copyBegin 0 0) (copying o) = .next t := by
  intro o h
  simp only [patterns, List.mem_cons, List.not_mem_nil, or_false] at h
  rcases h with rfl | rfl | rfl | rfl | rfl <;> exact ⟨rfl, rfl, rfl, by decide, _, rfl⟩
/-- A walk: rows 1 to 0, 0 to 1, 1 to 2, of at most four entries. -/
def walks : List CpOp := [0x4 * 2 ^ 64 + 1, 0x4 * 2 ^ 64 + 1 * 2 ^ 32, 0x4 * 2 ^ 64 + 2 * 2 ^ 32 + 1].map fun w4 =>
  patterned 0x114 (0x290000 * 2 ^ 64) w4 (0x200 * 2 ^ 64 + 0x100) (0x2B8000 * 2 ^ 64 + 0x2B0000) 0
set_option maxRecDepth 20000 in
/-- A walk whose ranges pass, with its total written. -/
theorem wit_walk : ∀ o ∈ walks, ((copying o).core 0).cp0q = o :: [] ∧ o.running = false ∧ o.refused = 0 ∧ (shapeOf o.image o.disp).op = 1 ∧
    (∃ t, exec (.copyBegin 0 0) (copying o) = .next t) ∧ (shapeOf o.image o.disp).walkFault o 2 1 = none ∧
    (match (copying o).copyBytes 0 o (shapeOf o.image o.disp) 0x2B8000 [(1, 1)] with | .ok _ => true | .error _ => false) = true := by
  intro o h
  simp only [walks, List.map_cons, List.map_nil, List.mem_cons, List.not_mem_nil, or_false] at h
  rcases h with rfl | rfl | rfl <;> exact ⟨rfl, rfl, rfl, by decide, ⟨_, rfl⟩, by decide, by decide +kernel⟩
set_option maxRecDepth 20000 in
/-- The row pointers of rows 0 and 1, and of 1 and 2, the entry 2 of the columns and of the values, and their places. -/
theorem wit_walk_entry : ∀ o ∈ walks, let p := shapeOf o.image o.disp
    let read (a : Int) (f : Nat → Bool) := match (copying o).copyRead 0 o p a 4 with | .ok r => f (leNat (r.1.map Prod.fst)) | .error _ => false
    read 0 (· == 2) = true ∧ read 4 (· == 3) = true ∧ read 8 (· == 0) = true ∧ read 0x108 (fun _ => true) = true ∧
      read 0x208 (fun _ => true) = true ∧
      (match (copying o).copyBytes 0 o p 0x290000 [(1, 1)], (copying o).copyBytes 0 o p 0x2B0000 [(1, 1)] with
        | .ok _, .ok _ => true
        | _, _ => false) = true := by decide +kernel
/-- Compress and expand of a run of 256 halves of the pool. -/
def records (op : Nat) : CpOp := patterned (0x085 + 16 * op) pooled 256 2 2 0
/-- The run of its indices. -/
def run256 : List (List Nat) := (List.range 256).map fun i => [i]
set_option maxRecDepth 20000 in
theorem wit_records : run256.length = 256 ∧ (flowing (records 2)).fault = none ∧
    (match (copying (records 2)).copyHalves 0 (records 2) (shapeOf (records 2).image 0) run256 with
      | .ok r => (match r.2.copyBytes 0 (records 2) (shapeOf (records 2).image 0) 0x290000 [(0, 1)] with | .ok _ => true | .error _ => false)
      | .error _ => false) = true ∧
    (match (copying (records 3)).copyRead 0 (records 3) (shapeOf (records 3).image 0) 0x280000 36 with
      | .ok r => (match r.2.copyRead 0 (records 3) (shapeOf (records 3).image 0) 0x280024 2,
          (run256.take 4).zipIdx.foldlM (fun u x => u.copyDest 0 (records 3) (shapeOf (records 3).image 0) x.1 2 7 1) r.2 with
        | .ok _, .ok _ => true
        | _, _ => false)
      | .error _ => false) = true ∧ (∀ op ∈ [2, 3], ∃ t, exec (.copyBegin 0 0) (copying (records op)) = .next t) := by
  refine ⟨by decide +kernel, rfl, by decide +kernel, by decide +kernel, ?_⟩
  intro op h
  simp only [List.mem_cons, List.not_mem_nil, or_false] at h
  rcases h with rfl | rfl <;> exact ⟨_, rfl⟩
/-- A copy with a source tile and one that erred, each with its barrier. -/
theorem wit_copy_ends : ∀ e ∈ [(some ⟨0, tileAt 40 2 0 32 128, .source⟩, 0), (none, 4)],
    let o := { cpOp 0 true true (some ⟨1, tileAt 41 2 0 32 128, .destination⟩) with src := e.1, ecause := e.2 }
    let s := package { engineCore with cp1q := [o] } (engineCtx .reset)
    (s.core 0).cp1q.find? (fun p => p.id == 5 && p.running) = some o ∧ s.tileStands 0 o.who 0 = true ∧ s.tileStands 0 o.who 1 = true ∧
      s.progOf ⟨0, o.who.ctx⟩ = some o.who.bind.prog ∧ o.ecause < 8 := by decide
theorem wit_mask_straight : ∃ o, (demo { View.reset with k := [(1, 0xFF)], ports := [(8, { Port.reset with sel := some ⟨some .k, 2, 0⟩ })] }).ready l0
    (.mpush ⟨2, 0, false, true, .reg .k 1⟩) o ∧ o.op = .mpush ∧ o.prov = false ∧
    ((demo { View.reset with k := [(1, 0xFF)], ports := [(8, { Port.reset with sel := some ⟨some .k, 2, 0⟩ })] }).ctx l0).straight ∧
    ((demo { View.reset with k := [(1, 0xFF)], ports := [(8, { Port.reset with sel := some ⟨some .k, 2, 0⟩ })] }).ctx l0).cur.flights = [] :=
  ready_of (by decide)
/-- A launch with a free entry and a free place, and one where every place is held though an entry is free. -/
theorem wit_launch_free : ∃ o, launching.ready l0 (.launch (a1in 6)) o ∧ (launching.take l0).passes l0 o ∧ (launching.ctx l0).straight ∧
    o.op = .launch ∧ (launching.dev 0 1).launches.length < ((launching.dev 0 1).vdcfg.extractLsb' 25 9).toNat ∧
    (launching.dev 0 1).launches.length + launching.placesHeld 0 1 < 256 + ((launching.dev 0 1).vdcfg.extractLsb' 25 9).toNat := passing_of (by decide)
/-- The package whose device has one launch entry and 257 completion entries. -/
def posted : State := launching.setDev 0 1 { device with vdcfg := 0x2000203, entries := List.replicate 257 (List.replicate 16 0) }
set_option maxRecDepth 20000 in
theorem wit_launch_places : ∃ o, posted.ready l0 (.launch (a1in 6)) o ∧ (posted.take l0).passes l0 o ∧ (posted.ctx l0).straight ∧ o.op = .launch ∧
    (posted.dev 0 1).launches.length < ((posted.dev 0 1).vdcfg.extractLsb' 25 9).toNat ∧
    ¬ (posted.dev 0 1).launches.length + posted.placesHeld 0 1 < 256 + ((posted.dev 0 1).vdcfg.extractLsb' 25 9).toNat := passing_of (by decide +kernel)
/-- No other context of the core has a pre-emption request, and one has. -/
theorem wit_preemption_alone : let s := package { Core.reset with ctxs := [(1, { running .reset with preempt := true })] } (running .reset)
    (∀ e ∈ ((waiting .running none false none none).core 0).ctxs, e.1 ≠ 0 → e.2.preempt = false) ∧
    ((waiting .ready none false none none).ctx l0).mode = .ready ∧ ((waiting .ready none false none none).ctx l0).started = false ∧
    (∃ m, m < 4 ∧ m ≠ 0 ∧ (s.ctx ⟨0, m⟩).preempt = true) := by
  refine ⟨by decide, by decide, by decide, 1, by decide, by decide, by decide⟩
/-- The arbiter of the output of core 0 towards the next core, at a container of its pavilion that it does not start with. -/
theorem wit_refill_output : let s : State := { (demo .reset).setDev 0 1 { device with rprom := 0x80400 } with
      cores := [(0, { ((demo .reset).core 0) with cycle := 1 })]
      oper := { (demo .reset).oper with calendar := [(512, 0)] }, arbs := [(256, ⟨0, 0, [(1, 3)], [], [], [], []⟩)] }
    s.slotNow 0 0 = 1 ∧ s.slotOwner 256 1 = some 1 ∧ (s.arb 256).bucket 1 < Int.ofNat ((s.rateAt 256 1).extractLsb' 16 16).toNat := by decide
/-- An output of which no container has left. -/
theorem wit_output_start : (demo .reset).slotNow 0 0 = 0 ∧ (demo .reset).slotNow 1 0 ≠ 0 := by decide
/-- A visit to a device with a launch. -/
theorem wit_visit_launch : let s := (demo .reset).setDev 0 1 { device with rdwrr := 5, launches := [⟨4, 2, none, false, none, 0, 0, 0x10000, none⟩] }
    (s.pav 0).nextVisit = some 1 ∧ (s.pav 0).visitDue (s.pavClock 0) = true ∧ (s.dev 0 1).enabled = true ∧ s.quiet 0 = false ∧
      (s.dev 0 1).launches ≠ [] := by decide
/-- A port with room for what has come in, and one without. -/
theorem wit_port_room : ∀ dir, dir < 2 → let s : State := { demo .reset with
      oper := { (demo .reset).oper with rxcfg := 0xF }, portIn := [.message dir 3 77] }
    (∀ e ∈ s.portLoad, e.1 = 2 * dir + 1 → e.2 < cycleTime s.oper.cur) ∧ s.portIn = [.message dir 3 77] ∧ s.portGoal (.message dir 3 77) = 0 ∧
      2 * cycleTime s.oper.cur ≤ ({ s with portLoad := [(2 * dir + 1, 1000)] } : State).portLoad.getD (2 * dir + 1) 0 := by
  intro dir h
  interval_cases dir <;> decide
/-- A message at a port: with its link up and room, and with no room. -/
theorem wit_port_output : ∀ load ∈ [0, 1000],
    let s : State := { demo .reset with
      messages := [{ arrivedMsg with dst := 128 }], oper := { (demo .reset).oper with rxcfg := 0x7 }, portLoad := [(0, load)] }
    s.messages = [{ arrivedMsg with dst := 128 }] ∧ arrivedMsg.waiting = false ∧ arrivedMsg.held = false ∧ arrivedMsg.wait = 0 ∧ arrivedMsg.dir = 0 ∧
      s.oper.rxcfg.getLsbD 0 = true ∧ s.oper.rxcfg.getLsbD 2 = true ∧ (s.portLoad.getD 0 0 < cycleTime s.oper.cur ↔ load = 0) := by decide
/-- A calendar write in a resize, which waits, and a second one. -/
theorem wit_calendar_held : ∀ h ∈ ([none, some 5] : List (Option Word)),
    let s : State := { demo .reset with oper := { (demo .reset).oper with pcmd := 0x8002, calwHeld := h } }
    s.oper.pcmd.getLsbD 15 = true ∧ s.oper.pcmd.extractLsb' 0 3 = 2 ∧ s.oper.calw.getLsbD 26 = false ∧ s.oper.inReset = false ∧
      s.oper.calwHeld = h := by
  intro h hm
  simp only [List.mem_cons, List.not_mem_nil, or_false] at hm
  rcases hm with rfl | rfl <;> decide
/-- A node of a graph (R284): its first doubleword, its link, and its third and fourth doublewords. -/
def nodeOf (x link y z : Nat) : List Byte := leBytes 8 x ++ leBytes 4 0 ++ leBytes 4 link ++ leBytes 8 y ++ leBytes 8 z ++ leBytes 32 0
/-- The package whose core walks a graph of one node, with a word at 0x10000, and its walker. -/
def follower (r : List Byte) : Walker := ⟨3, 1, 0, 9, grant, 0, 0, [(r, true)], 0, [], [], [], none, none⟩
def following (r : List Byte) (b : Byte) : State :=
  { package { engineCore with walker := some (follower r), table := [entry 7] } (running .reset) with
    mem := tables ++ (if b = 0 then [] else [(0x10000, b)]) }
/-- A task node, a conditional, a while, a join, a barrier wait at phase 0 and at phase 1, an end node: each is a node of the walker, and none is bad. -/
theorem wit_walker_nodes : ∀ e ∈ [(nodeOf 0 0 0 0, 0), (nodeOf 0 1 1 0, 1), (nodeOf 0 2 1 2, 2), (nodeOf 0 3 0 0, 3), (nodeOf 0x30000 4 0 0, 4),
      (nodeOf 0x30000 4 1 0, 4), (nodeOf 0 5 0 0, 5)],
    Spec.walkerAt (following e.1 0) 0 0 (follower e.1) e.1 true ∧ (following e.1 0).badNode 0 0 (follower e.1) e.1 true = false ∧
      leNat ((e.1.drop 12).take 4) % 16 = e.2 ∧ (following e.1 0).unfinished 0 0 (follower e.1) = 0 := by
  unfold Spec.walkerAt
  decide
/-- A bad node, a task node in a full store, a node with a task that has not finished. -/
theorem wit_walker_stops : (following (nodeOf 0 6 0 0) 0).badNode 0 0 (follower (nodeOf 0 6 0 0)) (nodeOf 0 6 0 0) true = true ∧
    (∀ d ∈ [{ device with vdcfg := 0x203 }], ¬ ((following (nodeOf 0 0 0 0) 0).setDev 0 1 d |>.dev 0 1).launches.length <
      ((((following (nodeOf 0 0 0 0) 0).setDev 0 1 d).dev 0 1).vdcfg.extractLsb' 25 9).toNat) ∧
    ((following (nodeOf 0 1 1 0) 0).setDev 0 1 { device with launches := [⟨4, 2, none, false, none, 0, 0, 0x10000, some 3⟩] }).unfinished 0 0
      (follower (nodeOf 0 1 1 0)) = 1 := by decide
/-- The room for a task node, the condition word, 0 and 1, and the program of the tenant that holds the bank of a barrier. -/
theorem wit_walker_reads : (following (nodeOf 0 0 0 0) 0).placesHeld 0 1 = 2 ∧ position 0 ((following (nodeOf 0 0 0 0) 0).pav 0).cores < 128 ∧
    capCheck grant 0x10000 8 grantRD device.tenant false = none ∧
    (∀ b ∈ ([0, 1] : List Byte), (match (following (nodeOf 0 1 1 0) b).range ⟨0, 0, 1, false⟩ 0x10000 8 false with
      | .ok ps => decide (leNat ((following (nodeOf 0 1 1 0) b).readRange ps).1 = b.toNat ∧ ((following (nodeOf 0 1 1 0) b).readRange ps).2 = false)
      | .error _ => false) = true) ∧
    (∃ k ∈ ((following (nodeOf 0x30000 4 1 0) 0).core 0).claims, k.bank = 48 ∧ k.state = .held ∧
      ∃ t ∈ ((following (nodeOf 0x30000 4 1 0) 0).core 0).table, t.id = k.prog ∧ ((following (nodeOf 0x30000 4 1 0) 0).dev 0 t.vd).tenant = 1) ∧
    ((following (nodeOf 0x30000 4 1 0) 0).barrier 0 ⟨0, 0, 1, false⟩ 0x300000).phase = 0 := by decide
/-- Launches of the host: with room, with a full store, to a disabled device, behind the aperture, and to a pavilion that is not formed. -/
theorem wit_host_launches : ((demo .reset).dev 0 1).launches.length + (demo .reset).placesHeld 0 1 < 256 + (((demo .reset).dev 0 1).vdcfg.extractLsb' 25 9).toNat ∧
    ((demo .reset).oper.inReset = false ∧ (0x3C0 : Nat) < 0x400 ∧ 0x3C0 % 64 = 0 ∧ (List.replicate 64 (0 : Byte)).length = 64) ∧
    ¬ (unlaunchable.dev 0 1).launches.length < ((unlaunchable.dev 0 1).vdcfg.extractLsb' 25 9).toNat ∧ (unlaunchable.pav 0).formed = true ∧
    (unlaunchable.dev 0 1).enabled = true ∧ (unlaunchable.dev 0 1).vdctl.getLsbD 0 = false ∧
    (disabled.dev 0 1).enabled = false ∧ (disabled.pav 0).formed = true ∧ (demo .reset).oper.inReset = false ∧ ((demo .reset).pav 1).formed = false ∧
    ({ Oper.reset with inReset := true } : Oper).inReset = true := by decide
/-- The direct view of a page whose home has a copy of its own, and a page of a poisoned line. -/
theorem wit_direct_view : let s : State := { demo .reset with home := [(0x400, ⟨1, List.replicate 64 7⟩)] }
    (match s.range (windowOf 0 1) ((s.dev 0 1).windowAddr 0x8000010008) 8 false with
      | .ok [p] => decide (s.piecePoisoned p = false ∧ p.place.pa / 64 = 0x400 ∧ s.keyDead p.place.kidx = false ∧ s.serialOf p.place.kidx = 1)
      | _ => false) = true ∧
    (match ({ s with poison := [(0x400, true)] } : State).range (windowOf 0 1) ((s.dev 0 1).windowAddr 0x10008) 8 false with
      | .ok ps => ps.any ({ s with poison := [(0x400, true)] } : State).piecePoisoned
      | .error _ => false) = true := by decide
/-- A stage-1 entry that was formed through the stage-2 page that an invalidation names. -/
theorem wit_pavinv_through : let s : State := { demo .reset with
      tlb := [⟨0, 0, 1, 4, 5, 3, 0x30000⟩, ⟨0, 0, 128, 4, 3, 3, 0x8000⟩] }
    let t := s.setPav 0 { s.pav 0 with pavinv := 0x30003 }
    (t.pav 0).pavinv.getLsbD 1 = true ∧ (t.pav 0).pavinv.getLsbD 9 = false ∧ ((t.pav 0).pavinv.extractLsb' 16 41).toNat = 3 ∧
      after (exec (.pavinv 0) t) (fun u => decide (u.tlb = [])) = true := by decide
/-- A trip's change that is pending. -/
theorem wit_trip_change : ({ Oper.reset with cur := 1, tripDue := true } : Oper).go = false ∧ ({ Oper.reset with cur := 1, tripDue := true } : Oper).tripDue = true :=
  ⟨rfl, rfl⟩
/-- A release passes on its own region, and no longer the release that its program had acquired with the bank (R300, R324). -/
theorem test_pass_on : ({ Core.reset with passed := [(40, [(1, 4), (3, 6)])], claims := [⟨7, 40, true, .releasing, [(1, 4)]⟩] }.passOn 7 40 (2, 9)).passed.getD 40 [] =
    [(2, 9), (3, 6)] := by decide
end Sys2Proof.Tests
end

/-! # Steps that leave the bytes of global memory

The functions of the model that write no byte of memory, each with one lemma: what it leaves of the field `mem`. A function with a failure or a
second answer has the lemma about what it answers (`mem_of_…`). -/

namespace Sys2Proof.Machine

/-- A fold whose steps leave memory leaves memory. -/
theorem foldl_mem {α : Type} {f : State → α → State} (h : ∀ s x, (f s x).mem = s.mem) (xs : List α) (s : State) :
    (xs.foldl f s).mem = s.mem := by
  induction xs generalizing s with
  | nil => rfl
  | cons x xs ih => rw [List.foldl_cons, ih, h]

/-- The same of a fold that carries a further value. -/
theorem foldl_fst_mem {α β : Type} {f : State × β → α → State × β} (h : ∀ a x, (f a x).1.mem = a.1.mem) (xs : List α)
    (a : State × β) : (xs.foldl f a).1.mem = a.1.mem := by
  induction xs generalizing a with
  | nil => rfl
  | cons x xs ih => rw [List.foldl_cons, ih, h]

/-! ### The package, its contexts and traps -/

@[simp] theorem State.measured_mem (s : State) (core : Nat) (b : Binding) (n : Nat) : (State.measured s core b n).mem = s.mem := rfl

@[simp] theorem State.takeFree_mem (s : State) : (State.takeFree s).2.mem = s.mem := rfl

@[simp] theorem State.release_mem (s : State) (l : Loc) : (State.release s l).mem = s.mem := rfl

@[simp] theorem State.releaseBanks_mem (s : State) (l : Loc) (bs : List Nat) : (State.releaseBanks s l bs).mem = s.mem := by
  unfold State.releaseBanks
  split <;> simp

@[simp] theorem State.finalReleases_mem (s : State) (l : Loc) (time : Nat) : (State.finalReleases s l time).mem = s.mem := by
  unfold State.finalReleases
  exact (foldl_mem (fun _ _ => by simp) _ _).trans (by simp)

@[simp] theorem State.countHealth_mem (s : State) (n : Nat) : (State.countHealth s n).mem = s.mem := rfl

@[simp] theorem State.post_mem (s : State) (pav vd : Nat) (r : FaultRec) : (State.post s pav vd r).mem = s.mem := rfl

@[simp] theorem State.restoreCore_mem (s : State) (l : Loc) (undo : List CoreWord) : (State.restoreCore s l undo).mem = s.mem := by
  unfold State.restoreCore
  split <;> simp

@[simp] theorem State.chargeOverrun_mem (s : State) (l : Loc) : (State.chargeOverrun s l).mem = s.mem := by
  fun_cases State.chargeOverrun
  · rfl
  · rw [State.setDev_mem]
  · rfl

@[simp] theorem State.takeTrap_mem (s : State) (l : Loc) (t : Trap) (slot : Nat) (boundary : Bool) (tepc : Word) :
    (State.takeTrap s l t slot boundary tepc).mem = s.mem := by
  unfold State.takeTrap
  dsimp only
  repeat' split
  all_goals simp

/-! ### The issue of a bundle -/

@[simp] theorem State.after_mem (s : State) (l : Loc) (o : Opd) (lat : Nat) (effs : List Eff) :
    (State.after s l o lat effs).mem = s.mem := rfl

@[simp] theorem State.result_mem (s : State) (l : Loc) (o : Opd) (lat : Nat) (v : Value) : (State.result s l o lat v).mem = s.mem := rfl

@[simp] theorem State.startLong_mem (s : State) (l : Loc) (o : Opd) (lanes : Option Mask) :
    (State.startLong s l o lanes).2.mem = s.mem := rfl

@[simp] theorem State.deliverLong_mem (s : State) (l : Loc) (id minimum : Nat) (v : Option Value) :
    (State.deliverLong s l id minimum v).mem = s.mem := rfl

@[simp] theorem State.unblock_mem (s : State) (l : Loc) : (State.unblock s l).mem = s.mem := rfl

@[simp] theorem State.charge_mem (s : State) (l : Loc) : (State.charge s l).mem = s.mem := by
  unfold State.charge
  dsimp only
  repeat' split
  all_goals simp

@[simp] theorem State.resolveCore_mem (s : State) (l : Loc) (taken : Bool) : (State.resolveCore s l taken).mem = s.mem := by
  unfold State.resolveCore
  split <;> simp

@[simp] theorem State.takeBoundary_mem (s : State) (l : Loc) (t : Trap) : (State.takeBoundary s l t).mem = s.mem := by
  simp [State.takeBoundary]

@[simp] theorem State.endWait_mem (s : State) (l : Loc) : (State.endWait s l).mem = s.mem := by
  unfold State.endWait
  dsimp only
  split <;> simp

/-! ### L2, tags, watches and arbiters of memory -/

@[simp] theorem State.holdPages_mem (s : State) (a : Accessor) (pages : List Nat) : (State.holdPages s a pages).mem = s.mem := rfl

@[simp] theorem State.dropHeld_mem (s : State) (p : HeldEntry → Bool) : (State.dropHeld s p).mem = s.mem := rfl

@[simp] theorem State.writeBack_mem (s : State) (line : Nat) : (State.writeBack s line).mem = s.mem := rfl

@[simp] theorem State.request_mem (s : State) (arb pav vd cost : Nat) : (State.request s arb pav vd cost).mem = s.mem := rfl

@[simp] theorem State.requestLine_mem (s : State) (line kidx : Nat) : (State.requestLine s line kidx).mem = s.mem := by
  unfold State.requestLine
  split <;> simp

@[simp] theorem State.requestMiss_mem (s : State) (a : Accessor) (line kidx : Nat) : (State.requestMiss s a line kidx).mem = s.mem := by
  unfold State.requestMiss
  split <;> simp

@[simp] theorem State.evict_mem (s : State) (t set way : Nat) : (State.evict s t set way).mem = s.mem := by
  unfold State.evict
  repeat' split
  all_goals simp

@[simp] theorem State.invalidateOthers_mem (s : State) (t line : Nat) : (State.invalidateOthers s t line).mem = s.mem := rfl

@[simp] theorem State.placeLine_mem (s : State) (t line way kidx : Nat) : (State.placeLine s t line way kidx).mem = s.mem := by
  simp [State.placeLine]

@[simp] theorem State.takeLine_mem (s : State) (a : Accessor) (line kidx : Nat) : (State.takeLine s a line kidx).mem = s.mem := by
  unfold State.takeLine
  dsimp only
  repeat' split
  all_goals simp

@[simp] theorem State.touch_mem (s : State) (a : Accessor) (line kidx : Nat) (write : Bool) :
    (State.touch s a line kidx write).mem = s.mem := by
  unfold State.touch
  dsimp only
  repeat' split
  all_goals simp

@[simp] theorem State.cleanLine_mem (s : State) (line : Nat) (flush : Bool) : (State.cleanLine s line flush).mem = s.mem := by
  unfold State.cleanLine
  split <;> simp

@[simp] theorem State.clearTags_mem (s : State) (pa n : Nat) : (State.clearTags s pa n).mem = s.mem := by
  unfold State.clearTags
  split <;> simp

@[simp] theorem State.holdRange_mem (s : State) (a : Accessor) (ps : List Piece) : (State.holdRange s a ps).mem = s.mem := rfl

@[simp] theorem State.touchRange_mem (s : State) (a : Accessor) (ps : List Piece) : (State.touchRange s a ps).mem = s.mem := by
  unfold State.touchRange
  exact (foldl_mem (fun _ _ => by simp) _ _).trans (by simp)

@[simp] theorem State.recordWrite_mem (s : State) (a : Accessor) (w reg : Nat) (rel : Bool) (ps : List Piece) :
    (State.recordWrite s a w reg rel ps).mem = s.mem := rfl

@[simp] theorem State.keepWatches_mem (s : State) (p : Watch → Bool) : (State.keepWatches s p).mem = s.mem := rfl

@[simp] theorem State.dropUnwatched_mem (s : State) : (State.dropUnwatched s).mem = s.mem := rfl

@[simp] theorem State.acquireLine_mem (s : State) (l : Loc) (prov : Bool) (word : Nat) : (State.acquireLine s l prov word).mem = s.mem := by
  unfold State.acquireLine
  repeat' split
  all_goals simp

/-! ### Loads and stores -/

@[simp] theorem State.memoryError_mem (s : State) (l : Loc) : (State.memoryError s l).mem = s.mem := rfl

@[simp] theorem State.deliverData_mem (s : State) (l : Loc) (o : Opd) (lanes : Option Mask) (minimum : Nat) (poisoned : Bool) (v : Value) :
    (State.deliverData s l o lanes minimum poisoned v).mem = s.mem := rfl

/-! ### The pool and its barriers -/

@[simp] theorem State.rekeySector_mem (s : State) (core : Nat) (a : Accessor) (sec kidx : Nat) :
    (State.rekeySector s core a sec kidx).mem = s.mem := by
  unfold State.rekeySector
  dsimp only
  split <;> simp

@[simp] theorem State.setPoolByte_mem (s : State) (core : Nat) (a : Accessor) (kidx i : Nat) (b : Byte) :
    (State.setPoolByte s core a kidx i b).mem = s.mem := by
  unfold State.setPoolByte
  split <;> simp

@[simp] theorem State.setPoolBytes_mem (s : State) (core : Nat) (a : Accessor) (kidx : Nat) (z0 : Nat) (z1 : List Byte) :
    (State.setPoolBytes s core a kidx z0 z1).mem = s.mem := by
  induction z1 generalizing s z0 with
  | nil => rfl
  | cons b bs ih => rw [State.setPoolBytes, ih, State.setPoolByte_mem]

@[simp] theorem State.setPoolNat_mem (s : State) (core : Nat) (a : Accessor) (i n x : Nat) :
    (State.setPoolNat s core a i n x).mem = s.mem := by
  simp [State.setPoolNat]

@[simp] theorem State.setBarrier_mem (s : State) (core : Nat) (a : Accessor) (i : Nat) (b : Barrier) :
    (State.setBarrier s core a i b).mem = s.mem := by
  simp [State.setBarrier]

@[simp] theorem State.moveBarrier_mem (s : State) (core : Nat) (a : Accessor) (i : Nat) (old new : Barrier) :
    (State.moveBarrier s core a i old new).mem = s.mem := by
  unfold State.moveBarrier
  split <;> simp

@[simp] theorem State.arrival_mem (s : State) (core : Nat) (a : Accessor) (at_ : Option Nat) (cause k : Nat) :
    (State.arrival s core a at_ cause k).mem = s.mem := by
  unfold State.arrival
  split <;> simp

@[simp] theorem State.setWordElem_mem (s : State) (core : Nat) (a : Accessor) (d : Word) (e x : Nat) :
    (State.setWordElem s core a d e x).mem = s.mem := by
  simp [State.setWordElem]

@[simp] theorem State.setBlock_mem (s : State) (core : Nat) (a : Accessor) (kidx bank b : Nat) (qs : List Int) (e : Nat) :
    (State.setBlock s core a kidx bank b qs e).mem = s.mem := by
  simp [State.setBlock]

@[simp] theorem State.setTileStat_mem (s : State) (l : Loc) (code : Nat) (t : TileStat) : (State.setTileStat s l code t).mem = s.mem := by
  unfold State.setTileStat
  split <;> simp

@[simp] theorem State.enterTiles_mem (s : State) (l : Loc) (ts : List TileRef) : (State.enterTiles s l ts).mem = s.mem := by
  unfold State.enterTiles
  exact foldl_mem (fun _ _ => by simp) _ _

@[simp] theorem State.onTile_mem (s : State) (core : Nat) (w : Who) (code : Nat) (f : TileStat → TileStat) :
    (State.onTile s core w code f).mem = s.mem := by
  unfold State.onTile
  split <;> simp

@[simp] theorem State.leaveTiles_mem (s : State) (core : Nat) (w : Who) (ts : List TileRef) :
    (State.leaveTiles s core w ts).mem = s.mem := by
  unfold State.leaveTiles
  exact foldl_mem (fun _ _ => by simp) _ _

/-! ### The matrix sequencer -/

@[simp] theorem State.queueMx_mem (s : State) (l : Loc) (o : Opd) (routine : Nat) (mp : List Word) (ts : List TileRef) (ctl : Word) :
    (State.queueMx s l o routine mp ts ctl).mem = s.mem := by
  simp [State.queueMx]

@[simp] theorem State.setZ_mem (s : State) (core i : Nat) (z : ZTile) : (State.setZ s core i z).mem = s.mem := rfl

@[simp] theorem State.writeBlocks_mem (s : State) (core : Nat) (a : Accessor) (d : Word) (f : Nat → Fp × Nat) (z0 : List Nat) :
    (State.writeBlocks s core a d f z0).1.mem = s.mem := by
  induction z0 generalizing s with
  | nil => rfl
  | cons g gs ih => rw [State.writeBlocks]; simp [ih]

@[simp] theorem State.writeElems_mem (s : State) (core : Nat) (a : Accessor) (d : Word) (f : Nat → Nat × Nat) (z0 : List Nat) :
    (State.writeElems s core a d f z0).1.mem = s.mem := by
  induction z0 generalizing s with
  | nil => rfl
  | cons e es ih => rw [State.writeElems]; simp [ih]

@[simp] theorem State.doQuant_mem (s : State) (core : Nat) (o : MxOp) : (State.doQuant s core o).mem = s.mem := by
  unfold State.doQuant
  split <;> simp

@[simp] theorem State.doAzero_mem (s : State) (core : Nat) (o : MxOp) : (State.doAzero s core o).mem = s.mem := by
  unfold State.doAzero
  split <;> simp

@[simp] theorem State.doAwrite_mem (s : State) (core : Nat) (o : MxOp) : (State.doAwrite s core o).mem = s.mem := by
  unfold State.doAwrite
  split
  · exact foldl_mem (fun _ _ => by rfl) _ _
  · rfl

@[simp] theorem State.doAcvt_mem (s : State) (core : Nat) (o : MxOp) : (State.doAcvt s core o).mem = s.mem := by
  unfold State.doAcvt
  dsimp only
  repeat' split
  all_goals simp

@[simp] theorem State.arithmeticFault_mem (s : State) (core : Nat) (w : Who) (routine : Nat) (norm : Bool) (step tile ik inn : Nat) :
    (State.arithmeticFault s core w routine norm step tile ik inn).mem = s.mem := by
  unfold State.arithmeticFault
  dsimp only
  split <;> simp

@[simp] theorem State.endMx_mem (s : State) (core : Nat) (r : MxRun) (step : Nat) : (State.endMx s core r step).mem = s.mem := by
  unfold State.endMx
  split <;> simp

@[simp] theorem State.gainElems_mem (s : State) (core zi : Nat) (r : MxRun) (gs : List Gain) :
    (State.gainElems s core zi r gs).1.mem = s.mem := rfl

@[simp] theorem State.streamRow_mem (s : State) (core p zi m : Nat) (r : MxRun) (row : List Exact) :
    (State.streamRow s core p zi m r row).1.mem = s.mem := rfl

@[simp] theorem State.stream_mem (s : State) (core p : Nat) (r : MxRun) (w : Word) : (State.stream s core p r w).1.mem = s.mem := by
  unfold State.stream
  split
  · exact foldl_fst_mem (fun _ _ => by simp) _ _
  · rfl

@[simp] theorem State.promoteAll_mem (s : State) (core zi : Nat) (r : MxRun) : (State.promoteAll s core zi r).1.mem = s.mem := rfl

@[simp] theorem State.setRun_mem (s : State) (core : Nat) (r : MxRun) : (State.setRun s core r).mem = s.mem := rfl

@[simp] theorem State.stopCall_mem (s : State) (core : Nat) (r : MxRun) : (State.stopCall s core r).mem = s.mem := rfl

@[simp] theorem State.stepWload_mem (s : State) (core : Nat) : (State.stepWload s core).mem = s.mem := by
  unfold State.stepWload
  repeat' split
  all_goals simp

@[simp] theorem State.stepStream_mem (s : State) (core : Nat) : (State.stepStream s core).mem = s.mem := by
  unfold State.stepStream
  split <;> simp

@[simp] theorem State.stepPromote_mem (s : State) (core : Nat) : (State.stepPromote s core).mem = s.mem := by
  unfold State.stepPromote
  dsimp only
  repeat' split
  all_goals simp

@[simp] theorem State.stepLoop_mem (s : State) (core : Nat) : (State.stepLoop s core).mem = s.mem := by
  unfold State.stepLoop
  dsimp only
  repeat' split
  all_goals simp

@[simp] theorem State.stepNop_mem (s : State) (core : Nat) : (State.stepNop s core).mem = s.mem := by
  unfold State.stepNop
  split <;> simp

@[simp] theorem State.stepEnd_mem (s : State) (core : Nat) : (State.stepEnd s core).mem = s.mem := by
  unfold State.stepEnd
  repeat' split
  all_goals simp

@[simp] theorem State.startMx_mem (s : State) (core : Nat) : (State.startMx s core).mem = s.mem := by
  unfold State.startMx
  dsimp only
  repeat' split
  all_goals simp

@[simp] theorem State.completeMx_mem (s : State) (core : Nat) : (State.completeMx s core).mem = s.mem := by
  unfold State.completeMx
  repeat' split
  all_goals simp

/-! ### The scan engine -/

@[simp] theorem State.setFrame_mem (s : State) (core i : Nat) (f : Frame) : (State.setFrame s core i f).mem = s.mem := rfl

@[simp] theorem State.setSlot_mem (s : State) (core n : Nat) (f : FrameSlot) : (State.setSlot s core n f).mem = s.mem := rfl

@[simp] theorem State.setFadeBit_mem (s : State) (core : Nat) (a : Accessor) (f : Frame) (n : Nat) (b : Bool) :
    (State.setFadeBit s core a f n b).mem = s.mem := by
  simp [State.setFadeBit]

@[simp] theorem State.writeHeader_mem (s : State) (core : Nat) (w : Who) (f : Frame) : (State.writeHeader s core w f).mem = s.mem := by
  simp [State.writeHeader]

@[simp] theorem State.setScanElem_mem (s : State) (core : Nat) (a : Accessor) (d : Word) (t n : Nat) (x : Lane) :
    (State.setScanElem s core a d t n x).mem = s.mem := by
  simp [State.setScanElem]

@[simp] theorem State.setPair_mem (s : State) (core : Nat) (a : Accessor) (f : Frame) (m : Nat) (h c : Lane) (fl : Bool) :
    (State.setPair s core a f m h c fl).mem = s.mem := by
  unfold State.setPair
  split <;> simp

@[simp] theorem State.scanColumn_mem (s : State) (core : Nat) (o : ScOp) (n : Nat) : (State.scanColumn s core o n).mem = s.mem := by
  unfold State.scanColumn
  dsimp only
  split
  · simp
  · have hput (xs : List (Nat × Lane × Lane × Bool)) (s : State) (x y : Word) :
        (xs.foldl (fun s e => (s.setScanElem core (o.who.accessor core) x e.1 n e.2.1).setScanElem core (o.who.accessor core) y e.1 n
          e.2.2.1) s).mem = s.mem := foldl_mem (fun _ _ => by simp) _ _
    split <;> simp [hput]
  · have hput (xs : List (Nat × Lane × Bool)) (s : State) (x : Word) :
        (xs.foldl (fun s r => s.setScanElem core (o.who.accessor core) x r.1 n r.2.1) s).mem = s.mem := foldl_mem (fun _ _ => by simp) _ _
    split <;> simp [hput]
  · simp
  · rfl

@[simp] theorem State.startScan_mem (s : State) (core : Nat) : (State.startScan s core).mem = s.mem := by
  unfold State.startScan
  dsimp only
  split <;> simp

@[simp] theorem State.endScan_mem (s : State) (core : Nat) (o : ScOp) : (State.endScan s core o).mem = s.mem := by
  unfold State.endScan
  dsimp only
  split <;> simp

@[simp] theorem State.scanBlock_mem (s : State) (core : Nat) : (State.scanBlock s core).mem = s.mem := by
  have hcols (xs : List Nat) (s : State) (o : ScOp) : (xs.foldl (fun s n => s.scanColumn core o n) s).mem = s.mem :=
    foldl_mem (fun _ _ => by simp) _ _
  unfold State.scanBlock
  dsimp only
  repeat' split
  all_goals simp [hcols]

/-! ### The frame engine -/

@[simp] theorem State.startFrame_mem (s : State) (core : Nat) : (State.startFrame s core).mem = s.mem := by
  unfold State.startFrame
  dsimp only
  repeat' split
  all_goals simp

@[simp] theorem State.fillFrame_mem (s : State) (core : Nat) (w : Who) (f : Frame) (ps : List Piece) (va : Nat) (bs : List Byte) :
    (State.fillFrame s core w f ps va bs).mem = s.mem := by
  unfold State.fillFrame
  exact foldl_mem (fun _ _ => by simp) _ _

theorem State.mem_of_loadFrom {s t : State} {core i va : Nat} {w : Who} {f : Frame} {cow : Bool}
    (h : s.loadFrom core w i f va cow = .ok t) : t.mem = s.mem := by
  unfold State.loadFrom at h
  repeat' split at h
  all_goals cases h
  simp

theorem State.mem_of_loadHome {s t : State} {core i va : Nat} {w : Who} {f : Frame}
    (h : s.loadHome core w i f va = .ok t) : t.mem = s.mem := by
  unfold State.loadHome at h
  dsimp only at h
  repeat' split at h
  any_goals cases h
  all_goals exact State.mem_of_loadFrom h

/-! ### Copies -/

@[simp] theorem State.writeTemplate_mem (s : State) (l : Loc) (x : Word) (c : Cap) : (State.writeTemplate s l x c).mem = s.mem := rfl

theorem State.mem_of_memElem {s t : State} {core n x k : Nat} {w : Who} {va : Int}
    (h : s.memElem core w va n = .ok (x, k, t)) : t.mem = s.mem := by
  unfold State.memElem at h
  split at h <;> cases h
  simp

theorem State.mem_of_copySource {s t : State} {core x k : Nat} {o : CpOp} {p : Shape} {js : List Nat} {e : Exact}
    (h : s.copySource core o p js = .ok (x, e, k, t)) : t.mem = s.mem := by
  unfold State.copySource at h
  dsimp only at h
  repeat' split at h
  all_goals cases h
  · exact State.mem_of_memElem ‹_›
  all_goals rfl

@[simp] theorem State.setBpiInt_mem (s : State) (core : Nat) (a : Accessor) (key : Nat) (d : Word) (e : Nat) (q : BitVec 8) :
    (State.setBpiInt s core a key d e q).mem = s.mem := by
  unfold State.setBpiInt
  exact foldl_mem (fun _ _ => by simp) _ _

theorem State.mem_of_copyRead {s t : State} {core n : Nat} {o : CpOp} {p : Shape} {at_ : Int} {bs : List (Byte × Nat)}
    (h : s.copyRead core o p at_ n = .ok (bs, t)) : t.mem = s.mem := by
  unfold State.copyRead at h
  dsimp only at h
  repeat' split at h
  all_goals cases h
  · simp
  · rfl

theorem State.mem_of_copyHalves {s t : State} {core : Nat} {o : CpOp} {p : Shape} {js : List (List Nat)} {hs : List (BitVec 16 × Nat)}
    (h : s.copyHalves core o p js = .ok (hs, t)) : t.mem = s.mem := by
  induction js generalizing s hs with
  | nil => cases h; rfl
  | cons j js ih =>
    unfold State.copyHalves at h
    repeat' split at h
    all_goals cases h
    rw [ih ‹_›, State.mem_of_copySource ‹_›]

@[simp] theorem State.setCopy_mem (s : State) (core ch : Nat) (o : CpOp) : (State.setCopy s core ch o).mem = s.mem := rfl

@[simp] theorem State.copyArrival_mem (s : State) (core : Nat) (o : CpOp) (cause : Nat) :
    (State.copyArrival s core o cause).mem = s.mem := by
  unfold State.copyArrival
  split <;> simp

@[simp] theorem State.leaveStreams_mem (s : State) (core : Nat) (o : CpOp) : (State.leaveStreams s core o).mem = s.mem := rfl

@[simp] theorem State.completeCopy_mem (s : State) (core ch id : Nat) : (State.completeCopy s core ch id).mem = s.mem := by
  unfold State.completeCopy
  split
  · rfl
  · dsimp only
    repeat' split
    all_goals simp

/-! ### Queues and the ring -/

@[simp] theorem State.acquireCopies_mem (s : State) (l : Loc) (i q : Nat) : (State.acquireCopies s l i q).mem = s.mem := by
  unfold State.acquireCopies
  exact foldl_mem (fun _ _ => by rfl) _ _

@[simp] theorem State.setQueue_mem (s : State) (core n : Nat) (q : Queue) : (State.setQueue s core n q).mem = s.mem := rfl

@[simp] theorem State.acquireStamp_mem (s : State) (l : Loc) (stamp : Nat × Nat) : (State.acquireStamp s l stamp).mem = s.mem := rfl

@[simp] theorem State.loadPort_mem (s : State) (dir way : Nat) : (State.loadPort s dir way).mem = s.mem := rfl

@[simp] theorem State.deliverMessage_mem (s : State) (id : Nat) : (State.deliverMessage s id).mem = s.mem := by
  unfold State.deliverMessage
  dsimp only
  repeat' split
  all_goals simp

@[simp] theorem State.portMessage_mem (s : State) (dir ch : Nat) (data : Word) : (State.portMessage s dir ch data).mem = s.mem := by
  unfold State.portMessage
  repeat' split
  all_goals simp

@[simp] theorem State.portEnters_mem (s : State) (z0 : PortInput) : (State.portEnters s z0).mem = s.mem := by
  unfold State.portEnters
  split <;> simp

@[simp] theorem State.takePort_mem (s : State) (p : PortInput) : (State.takePort s p).mem = s.mem := by
  unfold State.takePort
  repeat' split
  all_goals simp

@[simp] theorem State.takePorts_mem (s : State) (core : Nat) : (State.takePorts s core).mem = s.mem := foldl_mem State.takePort_mem _ _

@[simp] theorem State.returnCredit_mem (s : State) (core dir ch : Nat) : (State.returnCredit s core dir ch).mem = s.mem := by
  unfold State.returnCredit
  split <;> simp

@[simp] theorem State.readLaunch_mem (s : State) (pav vd id : Nat) : (State.readLaunch s pav vd id).mem = s.mem := by
  unfold State.readLaunch
  dsimp only
  repeat' split
  all_goals simp

/-! ### The integrators -/

@[simp] theorem State.setCell_mem (s : State) (l : Loc) (n : Nat) (c : Cell) : (State.setCell s l n c).mem = s.mem := rfl

@[simp] theorem State.stopDomain_mem (s : State) (l : Loc) (d : Nat) : (State.stopDomain s l d).mem = s.mem := rfl

@[simp] theorem State.actCells_mem (s : State) (l : Loc) (o : DdOp) : (State.actCells s l o).1.mem = s.mem :=
  foldl_fst_mem (fun a n => by dsimp only; split <;> [skip; split] <;> rfl) _ _

@[simp] theorem State.saveCells_mem (s : State) (l : Loc) (o : DdOp) : (State.saveCells s l o).mem = s.mem := by
  simp [State.saveCells]

@[simp] theorem State.loadCells_mem (s : State) (l : Loc) (o : DdOp) : (State.loadCells s l o).mem = s.mem := by
  unfold State.loadCells
  rw [State.arrival_mem]
  exact foldl_fst_mem (fun a i => by split <;> [split; skip] <;> rfl) _ _

@[simp] theorem State.schedule_mem (s : State) (l : Loc) (d cycle : Nat) : (State.schedule s l d cycle).mem = s.mem := rfl

@[simp] theorem State.startDomain_mem (s : State) (l : Loc) (id d : Nat) (byStep : Bool) (n : Nat) :
    (State.startDomain s l id d byStep n).mem = s.mem := rfl

@[simp] theorem State.actDd_mem (s : State) (l : Loc) (o : DdOp) : (State.actDd s l o).1.mem = s.mem := by
  unfold State.actDd
  dsimp only
  repeat' split
  all_goals simp

@[simp] theorem State.pumpDd_mem (s : State) (core : Nat) : (State.pumpDd s core).mem = s.mem := by
  unfold State.pumpDd
  refine foldl_fst_mem (fun a o => ?_) _ _
  dsimp only
  split
  · rfl
  · have h := State.actDd_mem a.1 ⟨core, o.who.ctx⟩ (((a.1.core core).ddq.find? fun p => p.id == o.id).getD o)
    split <;> simp_all

@[simp] theorem State.queueDd_mem (s : State) (l : Loc) (o : Opd) (read : Option Nat) (todo : List Nat) :
    (State.queueDd s l o read todo).mem = s.mem := by
  simp [State.queueDd]

@[simp] theorem State.overrun_mem (s : State) (l : Loc) (d cell : Nat) : (State.overrun s l d cell).mem = s.mem := by
  unfold State.overrun
  dsimp only
  split
  · rw [State.onView_mem, State.stopDomain_mem]
  · rw [State.setCtx_mem, State.onView_mem, State.stopDomain_mem]

@[simp] theorem State.domainStep_mem (s : State) (core dom : Nat) : (State.domainStep s core dom).mem = s.mem := by
  unfold State.domainStep
  dsimp only
  repeat' split
  all_goals simp

/-! ### Completion entries -/

@[simp] theorem State.complete_mem (s : State) (pav vd : Nat) (e : List Byte) : (State.complete s pav vd e).mem = s.mem := rfl

/-! ### The core settles -/

@[simp] theorem State.settle_mem (s : State) (core : Nat) : (State.settle s core).mem = s.mem := by
  unfold State.settle
  split <;> simp

/-! ### Banks that are claimed and released -/

@[simp] theorem State.takeOverBank_mem (s : State) (core prog b : Nat) : (State.takeOverBank s core prog b).mem = s.mem := by
  unfold State.takeOverBank
  dsimp only
  split
  · exact foldl_mem (fun _ _ => by simp) _ _
  · rfl
  · rfl

@[simp] theorem State.holdClaim_mem (s : State) (core prog b : Nat) : (State.holdClaim s core prog b).mem = s.mem := by
  unfold State.holdClaim
  dsimp only
  split <;> simp

@[simp] theorem State.endReleases_mem (s : State) (core b : Nat) : (State.endReleases s core b).mem = s.mem := rfl

/-! ### Landings, halts and the selection of contexts -/

@[simp] theorem State.landNow_mem (s : State) (l : Loc) (id : Nat) : (State.landNow s l id).mem = s.mem := by
  unfold State.landNow
  dsimp only
  repeat' split
  all_goals simp

@[simp] theorem State.landResult_mem (s : State) (l : Loc) (id : Nat) : (State.landResult s l id).mem = s.mem := by
  unfold State.landResult
  repeat' split
  all_goals simp

@[simp] theorem State.landAll_mem (s : State) (l : Loc) : (State.landAll s l).mem = s.mem := by
  unfold State.landAll
  exact foldl_mem (fun _ _ => by simp) _ _

@[simp] theorem State.stopEngines_mem (s : State) (l : Loc) : (State.stopEngines s l).mem = s.mem := by
  simp [State.stopEngines]

@[simp] theorem State.haltSave_mem (s : State) (l : Loc) (off : Option Nat) : (State.haltSave s l off).mem = s.mem := by
  unfold State.haltSave
  dsimp only
  split <;> simp

@[simp] theorem State.requestHalt_mem (s : State) (l : Loc) : (State.requestHalt s l).mem = s.mem := by
  unfold State.requestHalt
  dsimp only
  repeat' split
  all_goals simp

@[simp] theorem State.moveTask_mem (s : State) (core dst id : Nat) : (State.moveTask s core dst id).mem = s.mem := by
  unfold State.moveTask
  split <;> simp

@[simp] theorem State.restoreCtx_mem (s : State) (l dst : Loc) : (State.restoreCtx s l dst).mem = s.mem := by
  unfold State.restoreCtx
  dsimp only
  repeat' split
  all_goals simp

@[simp] theorem State.lendPick_mem (s : State) (arb : Nat) (from_ : Option Nat) (waiting : List Nat) :
    (State.lendPick s arb from_ waiting).2.mem = s.mem := by
  unfold State.lendPick
  dsimp only
  repeat' split
  all_goals simp

theorem State.mem_of_lendPick {s t : State} {arb : Nat} {o k : Option Nat} {ks : List Nat} (h : s.lendPick arb o ks = (k, t)) :
    t.mem = s.mem := by
  rw [← State.lendPick_mem s arb o ks, h]

@[simp] theorem State.switchTo_mem (s : State) (core c : Nat) : (State.switchTo s core c).mem = s.mem := by
  unfold State.switchTo
  dsimp only
  repeat' split
  all_goals simp

@[simp] theorem State.selectAmong_mem (s : State) (core : Nat) (cs : List Nat) : (State.selectAmong s core cs).mem = s.mem := by
  unfold State.selectAmong
  dsimp only
  repeat' split
  any_goals simp only [State.switchTo_mem]
  all_goals exact State.mem_of_lendPick ‹_›

@[simp] theorem State.select_mem (s : State) (core : Nat) : (State.select s core).mem = s.mem := by
  unfold State.select
  split <;> simp

@[simp] theorem State.leave_mem (s : State) (l : Loc) (exit status : Nat) : (State.leave s l exit status).mem = s.mem := by
  unfold State.leave
  dsimp only
  repeat' split
  all_goals simp

@[simp] theorem State.endProgram_mem (s : State) (l : Loc) (exit status : Nat) : (State.endProgram s l exit status).mem = s.mem := by
  unfold State.endProgram
  dsimp only
  split <;> simp

@[simp] theorem State.endLate_mem (s : State) (l : Loc) (exit status : Nat) : (State.endLate s l exit status).mem = s.mem := by
  unfold State.endLate
  split <;> simp

/-! ### Control registers and yielding -/

@[simp] theorem State.flyControl_mem (s : State) (l : Loc) (o : Opd) (n : Nat) : (State.flyControl s l o n).mem = s.mem := by
  unfold State.flyControl
  split <;> simp

@[simp] theorem State.writeControl_mem (s : State) (l : Loc) (o : Opd) (n : Nat) : (State.writeControl s l o n).mem = s.mem := by
  unfold State.writeControl
  repeat' split
  all_goals simp

@[simp] theorem State.yieldAt_mem (s : State) (l : Loc) : (State.yieldAt s l).mem = s.mem := by
  unfold State.yieldAt
  dsimp only
  repeat' split
  all_goals simp

/-! ### Fetch traps -/

@[simp] theorem State.fetchTrap_mem (s : State) (l : Loc) (t : Trap) : (State.fetchTrap s l t).mem = s.mem := by
  unfold State.fetchTrap
  split <;> simp

/-! ### Modes, temperature and ports -/

@[simp] theorem State.warned_mem (s : State) (o : Oper) : (State.warned s o).mem = s.mem := rfl

@[simp] theorem State.warm_mem (s : State) (die temp : Nat) : (State.warm s die temp).mem = s.mem := rfl

@[simp] theorem State.tripAt_mem (s : State) (die temp : Nat) : (State.tripAt s die temp).mem = s.mem := by
  unfold State.tripAt
  split <;> simp

@[simp] theorem State.writeRxcfg_mem (s : State) (x : Word) : (State.writeRxcfg s x).mem = s.mem := by
  unfold State.writeRxcfg
  dsimp only
  split <;> simp

/-! ### Rates and arbiters -/

@[simp] theorem State.passTime_mem (s : State) (core : Nat) : (State.passTime s core).mem = s.mem := by
  unfold State.passTime
  split <;> simp

@[simp] theorem State.takeOver_mem (s : State) (arb : Nat) : (State.takeOver s arb).mem = s.mem := rfl

@[simp] theorem State.walkReclaims_mem (s : State) (t : Nat) : (State.walkReclaims s t).mem = s.mem := by
  unfold State.walkReclaims
  split <;> simp

@[simp] theorem State.passCycle_mem (s : State) (core : Nat) : (State.passCycle s core).mem = s.mem := by
  unfold State.passCycle
  dsimp only
  split <;> simp

@[simp] theorem State.refill_mem (s : State) (arb : Nat) : (State.refill s arb).mem = s.mem := by
  unfold State.refill
  dsimp only
  repeat' split
  all_goals simp

@[simp] theorem State.pinRates_mem (s : State) (pav vd cls : Nat) : (State.pinRates s pav vd cls).mem = s.mem :=
  foldl_mem (fun s n => by dsimp only; split <;> rfl) _ _

@[simp] theorem State.startReclaim_mem (s : State) (pav vd ways : Nat) : (State.startReclaim s pav vd ways).mem = s.mem := by
  unfold State.startReclaim
  dsimp only
  repeat' split
  all_goals simp

@[simp] theorem State.writeRate_mem (s : State) (pav vd reg : Nat) (x : Word) : (State.writeRate s pav vd reg x).mem = s.mem := by
  unfold State.writeRate
  dsimp only
  repeat' split
  all_goals simp

@[simp] theorem State.resetLending_mem (s : State) : (State.resetLending s).mem = s.mem := rfl

@[simp] theorem State.writePavlend_mem (s : State) (pav : Nat) (x : Word) : (State.writePavlend s pav x).mem = s.mem := by
  unfold State.writePavlend
  dsimp only
  split <;> simp

@[simp] theorem State.reclaimLine_mem (s : State) (t : Nat) (r : Reclaim) (line : Nat) : (State.reclaimLine s t r line).mem = s.mem := rfl

@[simp] theorem State.endReclaim_mem (s : State) (t : Nat) : (State.endReclaim s t).mem = s.mem := by
  unfold State.endReclaim
  dsimp only
  repeat' split
  all_goals simp

@[simp] theorem State.grant_mem (s : State) (arb : Nat) : (State.grant s arb).mem = s.mem := by
  unfold State.grant
  dsimp only
  repeat' split
  any_goals simp
  all_goals exact State.mem_of_lendPick ‹_›

@[simp] theorem State.writeCalw_mem (s : State) (x : Word) : (State.writeCalw s x).mem = s.mem := by
  unfold State.writeCalw
  dsimp only
  repeat' split
  all_goals simp

@[simp] theorem State.applyCalw_mem (s : State) : (State.applyCalw s).mem = s.mem := by
  unfold State.applyCalw
  split <;> simp

/-- A container that places packets leaves memory where the placing does. -/
theorem State.fillContainer_mem (s : State) (arb slot free : Nat) (draws : Bool) (waiting : List (Nat × RingMsg))
    {place : State → Nat → Nat → State} (hplace : ∀ s key n, (place s key n).mem = s.mem) :
    (s.fillContainer arb slot free draws waiting place).mem = s.mem := by
  unfold State.fillContainer
  dsimp only
  repeat' split
  any_goals simp [hplace]
  all_goals exact State.mem_of_lendPick ‹_›

@[simp] theorem State.placePacket_mem (s : State) (core dir slot free : Nat) : (State.placePacket s core dir slot free).mem = s.mem := by
  unfold State.placePacket
  dsimp only
  split
  · exact State.fillContainer_mem _ _ _ _ _ _ fun _ _ _ => rfl
  · split
    · exact State.fillContainer_mem _ _ _ _ _ _ fun _ _ _ => rfl
    · rfl

/-! ### The dispatcher and its tasks -/

@[simp] theorem State.dropLaunch_mem (s : State) (pav vd id : Nat) : (State.dropLaunch s pav vd id).mem = s.mem := rfl

@[simp] theorem State.refuse_mem (s : State) (pav vd : Nat) (e : Launch) (r : List Byte) (status : Nat) :
    (State.refuse s pav vd e r status).mem = s.mem := by
  have hall (ms : List Task) (s : State) :
      (ms.foldl (fun s m => s.complete pav vd (refusalEntry m.record 7)) s).mem = s.mem := foldl_mem (fun _ _ => by simp) _ _
  unfold State.refuse
  dsimp only
  split
  · simp
  · split
    · simp
    · repeat' split
      all_goals simp [hall]

@[simp] theorem State.admitTo_mem (s : State) (pav vd core : Nat) (e : Launch) (r : List Byte) :
    (State.admitTo s pav vd core e r).mem = s.mem := by
  unfold State.admitTo
  dsimp only
  repeat' split
  all_goals simp

theorem State.mem_of_readNodes {s t : State} {a : Accessor} {tenant off n : Nat} {c : Cap} {ns : List (List Byte × Bool)}
    (h : s.readNodes a tenant c off n = some (ns, t)) : t.mem = s.mem := by
  unfold State.readNodes at h
  dsimp only at h
  repeat' split at h
  all_goals simp_all
  obtain ⟨_, rfl⟩ := h
  simp

@[simp] theorem State.startGraph_mem (s : State) (pav vd core : Nat) (e : Launch) (r : List Byte) :
    (State.startGraph s pav vd core e r).mem = s.mem := by
  unfold State.startGraph
  dsimp only
  split
  · rename_i h
    rw [State.setCore_mem, State.mem_of_readNodes h, State.dropLaunch_mem]
  · simp

@[simp] theorem State.offer_mem (s : State) (pav vd q : Nat) : (State.offer s pav vd q).1.mem = s.mem := by
  unfold State.offer
  dsimp only
  repeat' split
  all_goals simp

@[simp] theorem State.offerAll_mem (s : State) (pav vd : Nat) : (State.offerAll s pav vd).mem = s.mem :=
  foldl_fst_mem (fun a q => by split <;> simp) _ _

@[simp] theorem State.park_mem (s : State) (core c : Nat) : (State.park s core c).mem = s.mem := by
  unfold State.park
  dsimp only
  split <;> simp

@[simp] theorem State.unpark_mem (s : State) (core : Nat) (t : Task) : (State.unpark s core t).mem = s.mem := by
  unfold State.unpark
  dsimp only
  repeat' split
  all_goals simp

@[simp] theorem State.bindTask_mem (s : State) (pav core c : Nat) (t : Task) (qs : List Nat) :
    (State.bindTask s pav core c t qs).mem = s.mem := by
  unfold State.bindTask
  dsimp only
  split
  · exact (foldl_mem (fun _ _ => by simp) _ _).trans ((foldl_mem (fun _ _ => by simp) _ _).trans rfl)
  · rfl

@[simp] theorem State.bindGroup_mem (s : State) (pav core : Nat) (ts : List Task) : (State.bindGroup s pav core ts).mem = s.mem := by
  have hpark (cs : List Nat) : (cs.foldl (fun s c => s.park core c) s).mem = s.mem := foldl_mem (fun _ _ => by simp) _ _
  unfold State.bindGroup
  refine (foldl_mem (fun _ _ => by simp) _ _).trans ?_
  split
  · split <;> simp [hpark]
  · exact hpark _

@[simp] theorem State.bind_mem (s : State) (core task : Nat) : (State.bind s core task).mem = s.mem := by
  unfold State.bind
  dsimp only
  repeat' split
  all_goals simp

@[simp] theorem State.preemptFor_mem (s : State) (pav vd core : Nat) : (State.preemptFor s pav vd core).mem = s.mem := by
  unfold State.preemptFor
  dsimp only
  split <;> simp

@[simp] theorem State.visit_mem (s : State) (pav vd : Nat) : (State.visit s pav vd).mem = s.mem := by
  unfold State.visit
  dsimp only
  have hpre (cs : List Nat) (s : State) : (cs.foldl (fun s c => s.preemptFor pav vd c) s).mem = s.mem := foldl_mem (fun _ _ => by simp) _ _
  repeat' split
  all_goals simp [hpre]

@[simp] theorem State.finish_mem (s : State) (core task : Nat) : (State.finish s core task).mem = s.mem := by
  unfold State.finish
  dsimp only
  repeat' split
  all_goals simp

@[simp] theorem State.postEntry_mem (s : State) (pav vd : Nat) : (State.postEntry s pav vd).mem = s.mem := by
  unfold State.postEntry
  dsimp only
  repeat' split
  all_goals simp

/-! ### The graph walker -/

theorem State.mem_of_walkRead {s t : State} {a : Accessor} {w : Walker} {off n : Nat} {bs : List Byte}
    (h : s.walkRead a w off n = some (bs, t)) : t.mem = s.mem := by
  unfold State.walkRead at h
  repeat' split at h
  all_goals cases h
  simp

@[simp] theorem State.setWalker_mem (s : State) (core : Nat) (w : Option Walker) : (State.setWalker s core w).mem = s.mem := rfl

@[simp] theorem State.endWalk_mem (s : State) (pav core : Nat) (w : Walker) (status index : Nat) :
    (State.endWalk s pav core w status index).mem = s.mem := rfl

@[simp] theorem State.walkTask_mem (s : State) (pav core : Nat) (w : Walker) (r : List Byte) :
    (State.walkTask s pav core w r).mem = s.mem := by
  unfold State.walkTask
  split <;> simp

/-! ### The host -/

@[simp] theorem State.writeCrhead_mem (s : State) (pav vd : Nat) (x : Word) : (State.writeCrhead s pav vd x).mem = s.mem := by
  unfold State.writeCrhead
  dsimp only
  repeat' split
  all_goals simp

@[simp] theorem State.hostWrite_mem (s : State) (pav vd off : Nat) (bs : List Byte) : (State.hostWrite s pav vd off bs).mem = s.mem := by
  unfold State.hostWrite
  dsimp only
  repeat' split
  all_goals simp

@[simp] theorem State.windowRequests_mem (s : State) (pav vd : Nat) (ps : List Piece) : (State.windowRequests s pav vd ps).mem = s.mem := by
  unfold State.windowRequests
  exact foldl_mem (fun _ _ => by rfl) _ _

@[simp] theorem State.windowRead_mem (s : State) (pav vd off len : Nat) : (State.windowRead s pav vd off len).mem = s.mem := by
  unfold State.windowRead
  repeat' split
  all_goals simp

@[simp] theorem State.writeVdcfg_mem (s : State) (pav vd : Nat) (x : Word) : (State.writeVdcfg s pav vd x).mem = s.mem := by
  unfold State.writeVdcfg
  dsimp only
  repeat' split
  all_goals simp

@[simp] theorem State.popFault_mem (s : State) (pav vd : Nat) : (State.popFault s pav vd).mem = s.mem := rfl

@[simp] theorem State.invalidate_mem (s : State) (pav : Nat) : (State.invalidate s pav).mem = s.mem := rfl

@[simp] theorem State.clearMaps_mem (s : State) (pav : Nat) : (State.clearMaps s pav).mem = s.mem := by
  unfold State.clearMaps
  exact (foldl_mem (fun _ _ => by rfl) _ _).trans rfl

@[simp] theorem State.writePoolpart_mem (s : State) (core : Nat) (x : Word) : (State.writePoolpart s core x).mem = s.mem := by
  unfold State.writePoolpart
  dsimp only
  split <;> simp

@[simp] theorem State.writeTherm_mem (s : State) (x : Word) : (State.writeTherm s x).mem = s.mem := rfl

@[simp] theorem State.writeRegister_mem (s : State) (r : HostReg) (x : Word) : (State.writeRegister s r x).mem = s.mem := by
  unfold State.writeRegister
  repeat' split
  all_goals simp

/-! ### The loader -/

@[simp] theorem State.endImage_mem (s : State) (pav result : Nat) (handle : Option Nat) :
    (State.endImage s pav result handle).mem = s.mem := rfl

@[simp] theorem State.spreadMicro_mem (s : State) (pav : Nat) (ms : List (Nat × Word)) : (State.spreadMicro s pav ms).mem = s.mem := by
  unfold State.spreadMicro
  exact foldl_mem (fun _ _ => by rfl) _ _

@[simp] theorem State.hostHolds_mem (s : State) (a : Nat) (bs : List Byte) : (State.hostHolds s a bs).mem = s.mem := rfl

@[simp] theorem State.unloadImage_mem (s : State) (pav : Nat) : (State.unloadImage s pav).mem = s.mem := by
  unfold State.unloadImage
  dsimp only
  repeat' split
  any_goals simp
  exact foldl_mem (fun _ _ => by rfl) _ _

/-! ### The lodge -/

@[simp] theorem State.stageFirmware_mem (s : State) (pav : Nat) (b : List Byte) : (State.stageFirmware s pav b).mem = s.mem := by
  unfold State.stageFirmware
  dsimp only
  split <;> simp

@[simp] theorem State.report_mem (s : State) (pav : Nat) (nonce : List Byte) : (State.report s pav nonce).mem = s.mem := by
  unfold State.report
  dsimp only
  repeat' split
  all_goals simp

@[simp] theorem State.chainRequest_mem (s : State) (pav : Nat) : (State.chainRequest s pav).mem = s.mem := by
  unfold State.chainRequest
  dsimp only
  repeat' split
  all_goals simp

/-! ### Resets and the commands of the operator block -/

@[simp] theorem State.cancelFrame_mem (s : State) (core : Nat) (o : FrOp) : (State.cancelFrame s core o).mem = s.mem := by
  simp [State.cancelFrame]

@[simp] theorem State.dropContext_mem (s : State) (l : Loc) : (State.dropContext s l).mem = s.mem := by
  unfold State.dropContext
  dsimp only
  repeat' split
  all_goals simp

@[simp] theorem State.postOrLose_mem (s : State) (pav vd acc : Nat) (e : List Byte) : (State.postOrLose s pav vd acc e).1.mem = s.mem := by
  unfold State.postOrLose
  dsimp only
  split <;> simp

@[simp] theorem State.postAll_mem (s : State) (pav vd : Nat) (es : List (List Byte)) : (State.postAll s pav vd es).1.mem = s.mem :=
  foldl_fst_mem (fun a e => State.postOrLose_mem a.1 pav vd a.2 e) _ _

@[simp] theorem State.launchEntries_mem (s : State) (pav vd status : Nat) : (State.launchEntries s pav vd status).1.mem = s.mem :=
  foldl_fst_mem (fun a e => by split <;> rfl) _ _

@[simp] theorem State.zeroClientFrames_mem (s : State) (pav kidx core : Nat) : (State.zeroClientFrames s pav kidx core).mem = s.mem := rfl

@[simp] theorem State.chargeClient_mem (s : State) (pav vd : Nat) : (State.chargeClient s pav vd).mem = s.mem := by
  unfold State.chargeClient
  dsimp only
  split <;> simp

@[simp] theorem State.sayReset_mem (s : State) (pav vd : Nat) : (State.sayReset s pav vd).mem = s.mem := rfl

@[simp] theorem State.endCommand_mem (s : State) (result : Nat) : (State.endCommand s result).mem = s.mem := by
  unfold State.endCommand
  split <;> simp

@[simp] theorem State.dropImages_mem (s : State) (pav : Nat) : (State.dropImages s pav).mem = s.mem := by
  unfold State.dropImages
  exact (foldl_mem (fun _ _ => by rfl) _ _).trans rfl

@[simp] theorem State.releaseTasks_mem (s : State) (pav core : Nat) : (State.releaseTasks s pav core).mem = s.mem := by
  unfold State.releaseTasks
  dsimp only
  split
  · exact (State.complete_mem _ _ _ _).trans (foldl_mem (fun _ _ => by simp) _ _)
  · exact foldl_mem (fun _ _ => by simp) _ _

@[simp] theorem State.clearRing_mem (s : State) (cs : List Nat) : (State.clearRing s cs).mem = s.mem :=
  foldl_mem (f := fun s c => s.setCore c { s.core c with ring := [], spent := [] }) (fun _ _ => rfl) cs s

@[simp] theorem State.joinCore_mem (s : State) (pav core : Nat) : (State.joinCore s pav core).mem = s.mem := rfl

@[simp] theorem State.respread_mem (s : State) (pav core : Nat) : (State.respread s pav core).mem = s.mem := rfl

@[simp] theorem State.resumeCore_mem (s : State) (core : Nat) : (State.resumeCore s core).mem = s.mem :=
  foldl_mem (fun s c => by split <;> simp) _ _

@[simp] theorem State.haltNext_mem (s : State) (core : Nat) : (State.haltNext s core).mem = s.mem := by
  unfold State.haltNext
  dsimp only
  repeat' split
  all_goals simp

/-! ### Errors and withdrawals -/

@[simp] theorem State.postTo_mem (s : State) (dev : Option (Nat × Nat)) (l : Loc) (origin item : Nat) (addr : Word) :
    (State.postTo s dev l origin item addr).mem = s.mem := by
  unfold State.postTo
  split <;> simp

@[simp] theorem State.postLine_mem (s : State) (met : ErrorMet) (keyed : Bool) (owner : Option (Nat × Nat)) (line origin item : Nat) :
    (State.postLine s met keyed owner line origin item).mem = s.mem := by
  simp [State.postLine]

@[simp] theorem State.poisonLine_mem (s : State) (line : Nat) : (State.poisonLine s line).mem = s.mem := rfl

@[simp] theorem State.retireLine_mem (s : State) (t line : Nat) (e : L2Line) (met : ErrorMet) :
    (State.retireLine s t line e met).mem = s.mem := by
  unfold State.retireLine
  split <;> simp

@[simp] theorem State.loseFrame_mem (s : State) (core slot : Nat) (f : Frame) : (State.loseFrame s core slot f).mem = s.mem := by
  unfold State.loseFrame
  split <;> simp

@[simp] theorem State.loseFrames_mem (s : State) (core : Nat) (hit : Frame → Bool) : (State.loseFrames s core hit).mem = s.mem := by
  unfold State.loseFrames
  exact foldl_mem (fun _ _ => by simp) _ _

@[simp] theorem State.beginWithdrawal_mem (s : State) (core : Nat) (f : Failing) : (State.beginWithdrawal s core f).mem = s.mem := by
  unfold State.beginWithdrawal
  exact (foldl_mem (fun _ _ => by simp) _ _).trans (by simp)

@[simp] theorem State.withdrawBank_mem (s : State) (core : Nat) (f : Failing) : (State.withdrawBank s core f).mem = s.mem := by
  simp [State.withdrawBank]

@[simp] theorem State.evacuate_mem (s : State) (pav core : Nat) : (State.evacuate s pav core).mem = s.mem :=
  foldl_mem (fun s c => by split <;> simp) _ _

@[simp] theorem State.markRemoved_mem (s : State) (core : Nat) (f : Failing) : (State.markRemoved s core f).mem = s.mem := by
  simp [State.markRemoved]

@[simp] theorem State.transient_mem (s : State) (site : ErrorSite) (met : ErrorMet) : (State.transient s site met).mem = s.mem := by
  unfold State.transient
  repeat' split
  all_goals simp

end Sys2Proof.Machine

/-! # Every step keeps memory canonical (O60)

The functions that write bytes of memory write them by `Memory.setBytes`, or drop some; all others leave memory as it is. -/

namespace Sys2Proof.Machine

/-! ### Memory itself -/

/-- Leaving entries out keeps the keys rising. -/
theorem risesFrom_filter {α : Type} (p : Nat × α → Bool) {t : Table α} {b : Nat} (h : t.risesFrom b = true) :
    Table.risesFrom b (t.filter p) = true := by
  induction t generalizing b with
  | nil => rfl
  | cons e t ih =>
    obtain ⟨k, v⟩ := e
    simp only [Table.risesFrom, Bool.and_eq_true, decide_eq_true_eq] at h
    rw [List.filter_cons]
    split
    · simp [Table.risesFrom, h.1, ih h.2]
    · exact Table.risesFrom_mono (by omega) (ih h.2)

/-- Leaving bytes out keeps the canonical form. -/
theorem Memory.wf_filter (p : Nat × Byte → Bool) {m : Memory} (h : m.wf = true) : Memory.wf (m.filter p) = true := by
  simp only [Memory.wf, Bool.and_eq_true] at h ⊢
  exact ⟨risesFrom_filter p h.1, List.all_eq_true.2 fun c hc => List.all_eq_true.1 h.2 c (List.mem_filter.1 hc).1⟩

/-- A fold whose steps keep memory canonical keeps it. -/
theorem foldl_mem_wf {α : Type} {f : State → α → State} (hf : ∀ s x, s.mem.wf = true → (f s x).mem.wf = true) (xs : List α) {s : State}
    (h : s.mem.wf = true) : (xs.foldl f s).mem.wf = true :=
  List.foldlRecOn xs f h fun t ht x _ => hf t x ht

/-- A state with the memory of a canonical one is canonical. -/
theorem wf_of_mem_eq {s t : State} (e : t.mem = s.mem) (h : s.mem.wf = true) : t.mem.wf = true := e ▸ h

/-! ### Bytes under keys -/

@[simp] theorem State.rekey_wf {s : State} (h : s.mem.wf = true) (line serial : Nat) : (s.rekey line serial).mem.wf = true := by
  unfold State.rekey
  split
  · exact h
  · simpa using Memory.wf_setBytes h _ _

@[simp] theorem State.writePiece_wf {s : State} (h : s.mem.wf = true) (a : Accessor) (p : Piece) (bs : List Byte) :
    (s.writePiece a p bs).mem.wf = true := by
  unfold State.writePiece
  dsimp only
  split
  · exact h
  · split
    · exact h
    · rw [State.clearTags_mem]
      exact Memory.wf_setBytes (State.rekey_wf (by simpa using h) _ _) _ _

theorem State.writePieces_wf {s : State} (h : s.mem.wf = true) (a : Accessor) (ps : List Piece) (bs : List Byte) :
    (s.writePieces a ps bs).mem.wf = true := by
  induction ps generalizing s bs with
  | nil => exact h
  | cons p ps ih => exact ih (State.writePiece_wf h a p _) _

@[simp] theorem State.writeRange_wf {s : State} (h : s.mem.wf = true) (a : Accessor) (ps : List Piece) (bs : List Byte) :
    (s.writeRange a ps bs).mem.wf = true :=
  State.writePieces_wf (by simpa using h) a ps bs

@[simp] theorem State.storeBytes_wf {s : State} (h : s.mem.wf = true) (l : Loc) (rel : Bool) (ps : List Piece) (bs : List Byte) :
    (s.storeBytes l rel ps bs).mem.wf = true := by
  unfold State.storeBytes
  split <;> simp [h]

@[simp] theorem State.storePieces_wf {s : State} (h : s.mem.wf = true) (l : Loc) (ws : List (Piece × List Byte)) :
    (s.storePieces l ws).mem.wf = true := by
  unfold State.storePieces
  dsimp only
  split
  · simpa using h
  · exact foldl_mem_wf (fun _ _ ht => State.writePiece_wf ht _ _ _) _ (by simpa using h)

@[simp] theorem State.hostWritePiece_wf {s : State} (h : s.mem.wf = true) (p : Piece) (bs : List Byte) :
    (s.hostWritePiece p bs).mem.wf = true := by
  unfold State.hostWritePiece
  dsimp only
  split
  · exact h
  · split
    · exact h
    · rw [State.clearTags_mem]
      exact Memory.wf_setBytes (State.rekey_wf h _ _) _ _

@[simp] theorem State.hostWriteRange_wf {s : State} (h : s.mem.wf = true) (ps : List Piece) (bs : List Byte) :
    (s.hostWriteRange ps bs).mem.wf = true := by
  induction ps generalizing s bs with
  | nil => exact h
  | cons p ps ih => exact ih (State.hostWritePiece_wf h p _) _

/-! ### The engines -/

theorem State.writeAs_wf {s t : State} {a : Accessor} {w : Who} {va : Nat} {bs : List Byte} (e : s.writeAs a w va bs = .ok t)
    (h : s.mem.wf = true) : t.mem.wf = true := by
  unfold State.writeAs at e
  repeat' split at e
  all_goals cases e
  simp [h]

theorem State.engineWrite_wf {s t : State} {core va : Nat} {w : Who} {bs : List Byte} (e : s.engineWrite core w va bs = .ok t)
    (h : s.mem.wf = true) : t.mem.wf = true := State.writeAs_wf e h

theorem State.frameWrite_wf {s t : State} {core va : Nat} {w : Who} {bs : List Byte} (e : s.frameWrite core w va bs = .ok t)
    (h : s.mem.wf = true) : t.mem.wf = true := State.writeAs_wf e h

theorem State.partWritten_wf {s : State} (h : s.mem.wf = true) (core : Nat) (w : Who) (va : Nat) (bs : List Byte) (f : EngineFault) :
    (s.partWritten core w va bs f).mem.wf = true := by
  unfold State.partWritten
  dsimp only
  split
  next e => exact State.frameWrite_wf e (by simpa using h)
  next => simpa using h

theorem State.privateCopy_wf {s t : State} {core layer child base : Nat} {w : Who} {old : List Byte}
    (e : s.privateCopy core w layer old child base = .ok t) (h : s.mem.wf = true) : t.mem.wf = true := by
  unfold State.privateCopy at e
  dsimp only at e
  split at e
  next => cases e
  next s1 e1 =>
    cases e
    exact State.frameWrite_wf (t := s1) e1 h

theorem State.privateCopies_wf {s : State} (h : s.mem.wf = true) (core : Nat) (w : Who) (layer : Nat) (old : List Byte)
    (cs : List (Nat × Nat)) : (s.privateCopies core w layer old cs).1.mem.wf = true := by
  induction cs generalizing s with
  | nil => exact h
  | cons c cs ih =>
    unfold State.privateCopies
    split
    next => exact h
    next e => exact ih (State.privateCopy_wf e h)

@[simp] theorem State.emptyRecord_wf {s : State} (h : s.mem.wf = true) (core : Nat) (w : Who) (va : Nat) :
    (s.emptyRecord core w va).mem.wf = true := by
  unfold State.emptyRecord
  split
  next e => exact State.frameWrite_wf e h
  next => exact h

theorem State.doSnap_wf {s : State} (h : s.mem.wf = true) (core : Nat) (o : FrOp) (f : Frame) (base size : Nat) :
    (s.doSnap core o f base size).state.mem.wf = true := by
  unfold State.doSnap
  extract_lets rec0 va children
  split
  next s1 bad e =>
  have h1 : s1.mem.wf = true := by
    split at e
    · cases e; exact h
    · split at e
      · cases e; exact h
      · obtain rfl : _ = s1 := congrArg Prod.fst e
        exact State.privateCopies_wf h _ _ _ _ _
  split
  · exact State.emptyRecord_wf h1 _ _ _
  · split
    next e => exact State.frameWrite_wf e h1
    next => exact State.emptyRecord_wf h1 _ _ _

theorem State.doFswap_wf {s : State} (h : s.mem.wf = true) (core : Nat) (o : FrOp) (f : Frame) (base : Nat) :
    (s.doFswap core o f base).state.mem.wf = true := by
  unfold State.doFswap
  dsimp only
  split
  next => exact State.partWritten_wf h _ _ _ _ _
  next s1 e1 =>
    have h1 : s1.mem.wf = true := State.frameWrite_wf e1 h
    split
    next s2 e2 =>
      split at e2
      · cases e2
      · exact wf_of_mem_eq (State.mem_of_loadHome e2) h1
    next => exact h1

theorem State.doFork_wf {s : State} (h : s.mem.wf = true) (core : Nat) (o : FrOp) (f : Frame) (base size : Nat) :
    (s.doFork core o f base size).state.mem.wf = true := by
  unfold State.doFork
  extract_lets rec0 psid header empty done
  have hempty (x : Except EngineFault State) (hx : ∀ t, x = .ok t → t.mem.wf = true) (r : Nat) (t : State) (e : empty x r = .ok t) :
      t.mem.wf = true := by
    cases x with
    | error => cases e
    | ok u => exact State.frameWrite_wf e (hx u rfl)
  have hdone (t : State) (e : done = .ok t) : t.mem.wf = true := by
    unfold done at e
    split at e
    · cases e
    split at e
    · cases e
    next s1 e1 =>
    have h1 : s1.mem.wf = true := wf_of_mem_eq (State.mem_of_loadFrom e1) h
    exact List.foldlRecOn (motive := fun x => ∀ t, x = .ok t → t.mem.wf = true) (List.range 4) empty
      (fun t e => State.frameWrite_wf e h1) (fun x hx r _ => hempty x hx r) t e
  clear_value done
  split
  next t => exact hdone t rfl
  next => exact h

theorem State.doFrame_wf {s : State} (h : s.mem.wf = true) (core : Nat) (o : FrOp) : (s.doFrame core o).state.mem.wf = true := by
  unfold State.doFrame
  dsimp only
  split
  · exact h
  split
  · split
    · exact State.emptyRecord_wf h _ _ _
    · exact h
  split
  · split
    · split
      next e => exact wf_of_mem_eq (State.mem_of_loadHome e) h
      next => exact h
    · simp [h]
  · exact State.doFswap_wf h _ _ _ _
  · exact State.doSnap_wf h _ _ _ _ _
  · exact State.doFork_wf h _ _ _ _ _
  · split
    · split
      next e => exact wf_of_mem_eq (State.mem_of_loadFrom e) h
      next => exact h
    · exact h
  · split
    · split
      next e => exact State.frameWrite_wf e h
      next => exact h
    · exact h
  · exact h

@[simp] theorem State.completeFrame_wf {s : State} (h : s.mem.wf = true) (core id : Nat) : (s.completeFrame core id).mem.wf = true := by
  unfold State.completeFrame
  dsimp only
  split
  · exact h
  · rw [State.arrival_mem]
    split <;> simp [State.doFrame_wf h]

/-! ### Copies -/

theorem State.copyDest_wf {s t : State} {core size x key : Nat} {o : CpOp} {p : Shape} {js : List Nat}
    (e : s.copyDest core o p js size x key = .ok t) (h : s.mem.wf = true) : t.mem.wf = true := by
  unfold State.copyDest at e
  dsimp only at e
  split at e
  · exact State.engineWrite_wf e h
  all_goals
    repeat' split at e
    all_goals
      cases e
      simp [h]

theorem State.copyBytes_wf {s t : State} {core : Nat} {o : CpOp} {p : Shape} {at_ : Int} {bs : List (Byte × Nat)}
    (e : s.copyBytes core o p at_ bs = .ok t) (h : s.mem.wf = true) : t.mem.wf = true := by
  unfold State.copyBytes at e
  dsimp only at e
  split at e
  · split at e
    · cases e
    · exact State.engineWrite_wf e h
  · repeat' split at e
    all_goals cases e
    exact wf_of_mem_eq (foldl_fst_mem (fun _ _ => by simp) _ _) h

/-- A fold over a copy on its way whose steps keep memory canonical keeps it. -/
theorem Flow.foldl_wf {α : Type} {f : Flow → α → Flow} (hf : ∀ fl x, fl.state.mem.wf = true → (f fl x).state.mem.wf = true)
    (xs : List α) (fl : Flow) (h : fl.state.mem.wf = true) : (xs.foldl f fl).state.mem.wf = true :=
  List.foldlRecOn (motive := fun fl : Flow => fl.state.mem.wf = true) xs f h fun t ht x _ => hf t x ht

theorem Flow.element_wf {fl : Flow} (h : fl.state.mem.wf = true) (core : Nat) (o : CpOp) (p : Shape) (sf df : Byte) (js : List Nat) :
    (Flow.element core o p sf df fl js).state.mem.wf = true := by
  unfold Flow.element
  split
  · exact h
  extract_lets pad src
  have hsrc (raw key : Nat) (bpi : Exact) (t : State) (e : src = .ok (raw, bpi, key, t)) : t.mem.wf = true := by
    unfold src at e
    split at e
    · cases e; exact h
    · exact wf_of_mem_eq (State.mem_of_copySource e) h
  clear_value src
  split
  · exact h
  next raw bpi key s1 =>
  have h1 : s1.mem.wf = true := hsrc raw key bpi s1 rfl
  split
  · dsimp only
    split
    · split
      · exact h1
      · split
        · simpa using h1
        · exact h1
    · split
      · exact h1
      next e => exact State.copyDest_wf e h1
  · split
    · exact h1
    next e => exact State.copyDest_wf e h1

theorem Flow.walkEntry_wf {fl : Flow} (h : fl.state.mem.wf = true) (core : Nat) (o : CpOp) (p : Shape) (a e : Nat) :
    (Flow.walkEntry core o p a fl e).state.mem.wf = true := by
  unfold Flow.walkEntry
  extract_lets w move
  have hmove (fl : Flow) (h : fl.state.mem.wf = true) (at_ n dst : Nat) : (move fl at_ n dst).state.mem.wf = true := by
    unfold move
    split
    · exact h
    · split
      · exact h
      next e =>
        have h0 := wf_of_mem_eq (State.mem_of_copyRead e) h
        split
        · exact h0
        next e => exact State.copyBytes_wf e h0
  exact hmove _ (hmove _ h _ _ _) _ _ _

theorem State.csrWalk_wf {s : State} (h : s.mem.wf = true) (core : Nat) (o : CpOp) (p : Shape) :
    (s.csrWalk core o p).state.mem.wf = true := by
  unfold State.csrWalk
  extract_lets w first endRow ptrs start finish
  have hfinish (s : State) (h : s.mem.wf = true) (n a : Nat) : (finish s n a).state.mem.wf = true := by
    unfold finish
    extract_lets m fl fl1
    have h1 : fl1.state.mem.wf = true := Flow.foldl_wf (fun _ e hf => Flow.walkEntry_wf hf core o p a e) _ _ h
    split
    · exact h
    · split
      · exact h1
      · split
        · exact h1
        next e => exact State.copyBytes_wf e h1
  split
  · exact hfinish s h 0 0
  · split
    · exact h
    next e1 =>
    have h1 := wf_of_mem_eq (State.mem_of_copyRead e1) h
    split
    · exact h1
    next e2 =>
    have h2 := wf_of_mem_eq (State.mem_of_copyRead e2) h1
    dsimp only
    split
    · exact h2
    · exact hfinish _ h2 _ _

theorem Flow.compress_wf {fl : Flow} (h : fl.state.mem.wf = true) (core : Nat) (o : CpOp) (p : Shape) (runs : List (List (List Nat))) :
    (Flow.compress core o p fl runs).state.mem.wf = true := by
  induction runs generalizing fl with
  | nil => exact h
  | cons run runs ih =>
    unfold Flow.compress
    split
    · exact h
    · split
      · exact h
      next e1 =>
      have h1 := wf_of_mem_eq (State.mem_of_copyHalves e1) h
      dsimp only
      split
      · exact h1
      next e2 => exact ih (State.copyBytes_wf e2 h1)

theorem Flow.expand_wf {fl : Flow} (h : fl.state.mem.wf = true) (core : Nat) (o : CpOp) (p : Shape) (runs : List (List (List Nat))) :
    (Flow.expand core o p fl runs).state.mem.wf = true := by
  induction runs generalizing fl with
  | nil => exact h
  | cons run runs ih =>
    -- one unfolding by definition: Lean fails to generate the equation lemma for a body of this depth
    change (Flow.state (match fl.fault with | some _ => fl | none => _)).mem.wf = true
    split
    · exact h
    extract_lets at_
    split
    · exact h
    next e1 =>
    have h1 := wf_of_mem_eq (State.mem_of_copyRead e1) h
    extract_lets mask n vals
    have hvals (bs : List (Byte × Nat)) (t : State) (e : vals = .ok (bs, t)) : t.mem.wf = true := by
      unfold vals at e
      split at e
      · cases e; exact h1
      · exact wf_of_mem_eq (State.mem_of_copyRead e) h1
    clear_value vals
    split
    · exact h1
    next bs s2 =>
    have h2 : s2.mem.wf = true := hvals bs s2 rfl
    extract_lets hs fl1
    have h3 : fl1.state.mem.wf = true := by
      refine Flow.foldl_wf (fun f x hf => ?_) _ _ h2
      split
      · exact hf
      · split
        · exact hf
        next e => exact State.copyDest_wf e hf
    exact ih h3

theorem State.runCopy_wf {s : State} (h : s.mem.wf = true) (core : Nat) (o : CpOp) : (s.runCopy core o).state.mem.wf = true := by
  unfold State.runCopy
  dsimp only
  split
  · exact State.csrWalk_wf h _ _ _
  split
  · exact Flow.compress_wf (fl := ⟨s, _, _, _, _, _, _⟩) h _ _ _ _
  split
  · exact Flow.expand_wf (fl := ⟨s, _, _, _, _, _, _⟩) h _ _ _ _
  · refine Flow.foldl_wf (fun _ js hf => ?_) _ _ h
    exact Flow.element_wf hf core o _ _ _ js

@[simp] theorem State.beginCopy_wf {s : State} (h : s.mem.wf = true) (core ch : Nat) : (s.beginCopy core ch).mem.wf = true := by
  unfold State.beginCopy
  split
  · split
    · exact h
    split
    · simpa using h
    dsimp only
    rw [State.setCopy_mem]
    repeat' split
    all_goals simp [State.runCopy_wf h]
  · exact h

@[simp] theorem State.scramble_wf {s : State} (h : s.mem.wf = true) (core : Nat) (o : CpOp) : (s.scramble core o).mem.wf = true := by
  unfold State.scramble
  extract_lets p k df a put
  have hput (s : State) (g : Int × Int) (h : s.mem.wf = true) : (put s g).mem.wf = true := by
    unfold put
    dsimp only
    split
    · split
      next e => exact State.engineWrite_wf e h
      next => exact h
    · simpa using h
  split
  · exact foldl_mem_wf hput _ h
  · dsimp only
    split
    · exact h
    · split
      · exact foldl_mem_wf (fun s _ hs => hput _ _ (hput s _ hs)) _ h
      · exact hput s _ h

@[simp] theorem State.cancelCopy_wf {s : State} (h : s.mem.wf = true) (core ch : Nat) (o : CpOp) :
    (s.cancelCopy core ch o).mem.wf = true := by
  unfold State.cancelCopy
  dsimp only
  repeat' split
  all_goals simp [h]

theorem State.cancelIn_wf {s : State} (h : s.mem.wf = true) (core ch : Nat) (ids : List Nat) : (s.cancelIn core ch ids).mem.wf = true :=
  foldl_mem_wf (fun _ o hs => State.cancelCopy_wf hs core ch o) _ h

@[simp] theorem State.cancelCopies_wf {s : State} (h : s.mem.wf = true) (core : Nat) (ids : List Nat) :
    (s.cancelCopies core ids).mem.wf = true :=
  State.cancelIn_wf (State.cancelIn_wf h core 0 ids) core 1 ids

/-! ### The walker -/

theorem State.walkWrite_wf {s t : State} {a : Accessor} {w : Walker} {off : Nat} {bs : List Byte} (e : s.walkWrite a w off bs = some t)
    (h : s.mem.wf = true) : t.mem.wf = true := by
  unfold State.walkWrite at e
  repeat' split at e
  all_goals cases e
  exact State.writeRange_wf h a _ bs

theorem State.snapNext_wf {s : State} (h : s.mem.wf = true) (pav core : Nat) (w : Walker) (i next : Nat) :
    (s.snapNext pav core w i next).mem.wf = true := by
  unfold State.snapNext
  dsimp only
  split
  · split
    next e => simpa [State.mem_of_walkRead e] using h
    next => simpa using h
  · split
    next => simpa using h
    next e =>
      have h1 := wf_of_mem_eq (State.mem_of_walkRead e) h
      split
      next e => simpa using State.walkWrite_wf e h1
      next => simpa using h1

theorem State.snapEntry_wf {s : State} (h : s.mem.wf = true) (pav core : Nat) (w : Walker) (i : Nat) (c1 : Word) (next : Nat) :
    (s.snapEntry pav core w i c1 next).mem.wf = true := by
  unfold State.snapEntry
  extract_lets a
  split
  next => simpa using h
  next e =>
    have h1 := wf_of_mem_eq (State.mem_of_walkRead e) h
    dsimp only
    split
    next => simpa using h1
    next e => exact State.snapNext_wf (State.walkWrite_wf e h1) _ _ _ _ _

theorem State.walkCond_wf {s : State} (h : s.mem.wf = true) (pav core : Nat) (w : Walker) (r : List Byte) :
    (s.walkCond pav core w r).mem.wf = true := by
  unfold State.walkCond
  split
  next => simpa using h
  next e =>
    split at e
    next =>
      have h1 := wf_of_mem_eq (State.mem_of_walkRead e) h
      dsimp only
      repeat' split
      any_goals simpa using h1
      exact State.snapNext_wf h1 _ _ _ _ _
    next => cases e

@[simp] theorem State.walk_wf {s : State} (h : s.mem.wf = true) (core : Nat) : (s.walk core).mem.wf = true := by
  unfold State.walk
  dsimp only
  split
  next =>
    split
    · simpa using h
    · exact h
    · split
      · exact State.snapEntry_wf h _ _ _ _ _ _
      · repeat' split
        any_goals simpa using h
        exact State.walkCond_wf h _ _ _ _
  next => exact h

/-! ### The host and the loader -/

@[simp] theorem State.windowWrite_wf {s : State} (h : s.mem.wf = true) (pav vd off : Nat) (bs : List Byte) :
    (s.windowWrite pav vd off bs).mem.wf = true := by
  unfold State.windowWrite
  repeat' split
  all_goals simp [h]

theorem State.loaderWrites_wf {s t : State} {pav vd : Nat} {ws : List (Nat × List Byte)} (e : s.loaderWrites pav vd ws = some t)
    (h : s.mem.wf = true) : t.mem.wf = true := by
  induction ws generalizing s with
  | nil => cases e; exact h
  | cons w ws ih =>
    unfold State.loaderWrites at e
    split at e
    · cases e
    · exact ih e (by simp [h])

theorem State.loadBytes_wf {s : State} (h : s.mem.wf = true) (pav : Nat) (b : List Byte) : (s.loadBytes pav b).mem.wf = true := by
  unfold State.loadBytes
  dsimp only
  repeat' split
  any_goals simpa using h
  next e => simpa using State.loaderWrites_wf e h

@[simp] theorem State.loadImage_wf {s : State} (h : s.mem.wf = true) (pav : Nat) (b : List Byte) : (s.loadImage pav b).mem.wf = true := by
  unfold State.loadImage
  dsimp only
  split
  · exact h
  · exact State.loadBytes_wf (by simpa using h) pav b

theorem State.rebind_wf {s : State} (h : s.mem.wf = true) (key : Nat) (r : Rebind) : (s.rebind key r).mem.wf = true := by
  unfold State.rebind
  repeat' split
  any_goals exact h
  cases e : s.loaderWrites _ _ _ with
  | none => exact h
  | some t => exact State.loaderWrites_wf e h

@[simp] theorem State.rebindAll_wf {s : State} (h : s.mem.wf = true) (pav : Nat) : (s.rebindAll pav).mem.wf = true :=
  foldl_mem_wf (fun _ _ hs => foldl_mem_wf (fun _ r ht => State.rebind_wf ht _ r) _ hs) _ h

/-! ### Resets and commands -/

/-- The memory of the lines that a slice drops (R365): their homes' bytes. -/
@[simp] theorem State.dropLines_wf {s : State} (h : s.mem.wf = true) (kidx : Nat) : (s.dropLines kidx).mem.wf = true := by
  unfold State.dropLines
  refine List.foldlRecOn (motive := fun m : Memory => m.wf = true) _ _ h fun m hm l _ => ?_
  split
  · exact Memory.wf_setBytes hm _ _
  · exact hm

@[simp] theorem State.killKey_wf {s : State} (h : s.mem.wf = true) (kidx : Nat) : (s.killKey kidx).mem.wf = true := by
  unfold State.killKey
  split
  · exact h
  · exact State.dropLines_wf h kidx

@[simp] theorem State.cancelWork_wf {s : State} (h : s.mem.wf = true) (core : Nat) (mine : Who → Bool) :
    (s.cancelWork core mine).mem.wf = true := by
  unfold State.cancelWork
  exact wf_of_mem_eq (foldl_mem (fun _ _ => by simp) _ _) (State.cancelCopies_wf h core _)

theorem State.clearDevice_wf {s : State} (h : s.mem.wf = true) (pav vd core : Nat) : (s.clearDevice pav vd core).mem.wf = true := by
  unfold State.clearDevice
  dsimp only
  rw [State.settle_mem, State.setCore_mem]
  exact wf_of_mem_eq (foldl_mem (fun _ _ => by simp) _ _) (by simp [h])

@[simp] theorem State.resetDevice_wf {s : State} (h : s.mem.wf = true) (pav vd : Nat) (posts : Bool) :
    (s.resetDevice pav vd posts).mem.wf = true := by
  have hclear (cs : List Nat) {t : State} (ht : t.mem.wf = true) : (cs.foldl (fun s c => s.clearDevice pav vd c) t).mem.wf = true :=
    foldl_mem_wf (fun _ c hs => State.clearDevice_wf hs pav vd c) cs ht
  have hzero (cs : List Nat) (k : Nat) (t : State) : (cs.foldl (fun s c => s.zeroClientFrames pav k c) t).mem = t.mem :=
    foldl_mem (fun _ _ => by simp) cs t
  unfold State.resetDevice
  dsimp only
  rw [State.setDev_mem]
  cases posts
  all_goals
    simp only [Bool.false_eq_true, if_false, if_true, State.sayReset_mem, State.postAll_mem, State.keepWatches_mem, State.dropHeld_mem]
    repeat' split
    all_goals simp [hclear, hzero, h]

@[simp] theorem State.resetPavilion_wf {s : State} (h : s.mem.wf = true) (pav : Nat) : (s.resetPavilion pav).mem.wf = true := by
  unfold State.resetPavilion
  dsimp only
  rw [State.setPav_mem, State.dropImages_mem]
  exact wf_of_mem_eq (foldl_mem (fun _ _ => by rfl) _ _) (foldl_mem_wf (fun _ d hs => State.resetDevice_wf hs pav d.1 false) _ h)

@[simp] theorem State.giveGranules_wf {s : State} (h : s.mem.wf = true) (pav : Nat) (gs : List Nat) :
    (s.giveGranules pav gs).mem.wf = true :=
  Memory.wf_filter _ h

theorem State.writeFrameHome_wf {s : State} (h : s.mem.wf = true) (core slot : Nat) (f : Frame) :
    (s.writeFrameHome core slot f).mem.wf = true := by
  unfold State.writeFrameHome
  dsimp only
  repeat' split
  all_goals simp [h]

theorem State.leaveCore_wf {s : State} (h : s.mem.wf = true) (pav core : Nat) : (s.leaveCore pav core).mem.wf = true := by
  unfold State.leaveCore
  dsimp only
  rw [State.setCore_mem, State.releaseTasks_mem]
  exact foldl_mem_wf (fun _ e hs => State.writeFrameHome_wf hs core e.1 e.2) _ h

@[simp] theorem State.reshape_wf {s : State} (h : s.mem.wf = true) (pav : Nat) (new : List Nat) : (s.reshape pav new).mem.wf = true := by
  unfold State.reshape
  dsimp only
  refine wf_of_mem_eq (foldl_mem (fun _ _ => by simp) _ _) ?_
  refine wf_of_mem_eq (foldl_mem (fun _ _ => by simp) _ _) ?_
  refine wf_of_mem_eq (foldl_mem (fun _ _ => by simp) _ _) (State.rebindAll_wf ?_ pav)
  rw [State.setPav_mem, State.clearRing_mem]
  exact foldl_mem_wf (fun _ c hs => State.leaveCore_wf hs pav c) _ h

@[simp] theorem State.formPavilion_wf {s : State} (h : s.mem.wf = true) : s.formPavilion.mem.wf = true := by
  unfold State.formPavilion
  dsimp only
  repeat' split
  any_goals simpa using h
  rw [State.endCommand_mem]
  refine wf_of_mem_eq (foldl_mem (fun _ _ => by simp) _ _) ?_
  exact State.giveGranules_wf h s.oper.target _

@[simp] theorem State.resizePavilion_wf {s : State} (h : s.mem.wf = true) : s.resizePavilion.mem.wf = true := by
  unfold State.resizePavilion
  extract_lets o pav p new stk lpg
  clear_value stk lpg
  iterate 6
    split
    · simpa using h
  split
  · simpa using h
  split
  · simpa using h
  split
  · exact wf_of_mem_eq (foldl_mem State.haltNext_mem _ _) h
  · rw [State.endCommand_mem]
    refine State.reshape_wf ?_ _ _
    rw [State.setPav_mem]
    exact State.giveGranules_wf h pav _

@[simp] theorem State.dissolvePavilion_wf {s : State} (h : s.mem.wf = true) : s.dissolvePavilion.mem.wf = true := by
  unfold State.dissolvePavilion
  dsimp only
  repeat' split
  any_goals simpa using h
  · exact wf_of_mem_eq (foldl_mem State.haltNext_mem _ _) h
  · rw [State.endCommand_mem, State.setPav_mem, State.dropHeld_mem]
    exact State.reshape_wf (by simpa using h) _ _

@[simp] theorem State.commandReset_wf {s : State} (h : s.mem.wf = true) : s.commandReset.mem.wf = true := by
  unfold State.commandReset
  dsimp only
  repeat' split
  any_goals simpa using h
  rw [State.endCommand_mem]
  exact wf_of_mem_eq (foldl_mem (fun _ _ => by rfl) _ _) (State.resetPavilion_wf h _)

@[simp] theorem State.packageReset_wf {s : State} (h : s.mem.wf = true) : s.packageReset.mem.wf = true := by
  unfold State.packageReset
  split
  · exact h
  split
  · simpa using h
  · exact h

/-! ### Errors -/

@[simp] theorem State.removeCore_wf {s : State} (h : s.mem.wf = true) (core : Nat) (f : Failing) : (s.removeCore core f).mem.wf = true := by
  unfold State.removeCore
  dsimp only
  repeat' split
  any_goals simpa using h
  · exact wf_of_mem_eq (foldl_mem State.haltNext_mem _ _) h
  · rw [State.markRemoved_mem]
    exact State.reshape_wf (by simpa using h) _ _

@[simp] theorem State.withdraw_wf {s : State} (h : s.mem.wf = true) (core : Nat) : (s.withdraw core).mem.wf = true := by
  unfold State.withdraw
  dsimp only
  repeat' split
  all_goals simp [h]

@[simp] theorem State.failPart_wf {s : State} (h : s.mem.wf = true) (core part : Nat) (dev : Option (Nat × Nat)) (ctx : Nat) :
    (s.failPart core part dev ctx).mem.wf = true := by
  unfold State.failPart
  dsimp only
  split <;> simp [h]

@[simp] theorem State.lasting_wf {s : State} (h : s.mem.wf = true) (site : ErrorSite) (met : ErrorMet) : (s.lasting site met).mem.wf = true := by
  unfold State.lasting
  dsimp only
  repeat' split
  all_goals simp [h]

end Sys2Proof.Machine

namespace Sys2Proof.Machine

/-! ### The operations of the triggers

What an operation does when it starts, at the end of its bundle and at the boundary after it keeps the canonical form. Most operations
leave memory alone (`OpSem.keepsWf_of_act_mem`); stores, atomics, zeroing and cancelled copies write it. -/

/-- The three things that an operation does keep the canonical form of memory. -/
structure OpSem.KeepsWf (sm : OpSem) : Prop where
  act : ∀ {s : State} (l : Loc) (o : Opd), s.mem.wf = true → (sm.act s l o).mem.wf = true
  finish : ∀ {s : State} (l : Loc) (o : Opd), s.mem.wf = true → (sm.finish s l o).mem.wf = true
  after : ∀ {s : State} (l : Loc) (o : Opd), s.mem.wf = true → (sm.after s l o).mem.wf = true

/-- An operation that does nothing to memory at its start and nothing at all later. -/
theorem OpSem.keepsWf_of_act_mem {sm : OpSem} (hact : ∀ s l o, (sm.act s l o).mem = s.mem) (hfinish : sm.finish = OpSem.base.finish)
    (hafter : sm.after = OpSem.base.after) : sm.KeepsWf where
  act l o h := wf_of_mem_eq (hact _ l o) h
  finish l o h := by rw [hfinish]; exact h
  after l o h := by rw [hafter]; exact h

/-- An operation that acts at its start alone. -/
theorem OpSem.keepsWf_of_act {sm : OpSem} (hact : ∀ {s : State} (l : Loc) (o : Opd), s.mem.wf = true → (sm.act s l o).mem.wf = true)
    (hfinish : sm.finish = OpSem.base.finish) (hafter : sm.after = OpSem.base.after) : sm.KeepsWf where
  act := hact
  finish l o h := by rw [hfinish]; exact h
  after l o h := by rw [hafter]; exact h

theorem loadSem_keepsWf (size : Nat) (signed acquire : Bool) : (loadSem size signed acquire).KeepsWf :=
  OpSem.keepsWf_of_act_mem (fun s l o => by
    simp only [loadSem]
    repeat' split
    all_goals simp) rfl rfl

theorem storeSem_keepsWf (size : Nat) (rel : Bool) : (storeSem size rel).KeepsWf :=
  OpSem.keepsWf_of_act (fun l o h => by simp only [storeSem]; split <;> simp [h]) rfl rfl

theorem semLdc_keepsWf : semLdc.KeepsWf :=
  OpSem.keepsWf_of_act_mem (fun s l o => by simp [semLdc]) rfl rfl

theorem semStc_keepsWf : semStc.KeepsWf :=
  OpSem.keepsWf_of_act (fun l o h => by
    simp only [semStc]
    repeat' split
    all_goals simp [h]) rfl rfl

theorem semVld_keepsWf : semVld.KeepsWf :=
  OpSem.keepsWf_of_act_mem (fun s l o => by simp [semVld]) rfl rfl

theorem semVst_keepsWf : semVst.KeepsWf :=
  OpSem.keepsWf_of_act (fun l o h => by simp only [semVst]; split <;> simp [h]) rfl rfl

theorem semGath_keepsWf : semGath.KeepsWf :=
  OpSem.keepsWf_of_act_mem (fun s l o => by simp [semGath]) rfl rfl

theorem semScat_keepsWf : semScat.KeepsWf :=
  OpSem.keepsWf_of_act (fun l o h => by simp [semScat, h]) rfl rfl

theorem semVstc_keepsWf : semVstc.KeepsWf :=
  OpSem.keepsWf_of_act (fun l o h => by simp only [semVstc]; split <;> simp [h]) rfl rfl

theorem semVldx_keepsWf : semVldx.KeepsWf :=
  OpSem.keepsWf_of_act_mem (fun s l o => by simp [semVldx]) rfl rfl

theorem semHint_keepsWf : semHint.KeepsWf :=
  OpSem.keepsWf_of_act_mem (fun s l o => by simp only [semHint]; split <;> simp) rfl rfl

theorem semHres_keepsWf : semHres.KeepsWf :=
  OpSem.keepsWf_of_act_mem (fun s l o => by
    simp only [semHres]
    split
    · split
      · simp
      · split <;> rfl
    · simp) rfl rfl

theorem semCctl_keepsWf : semCctl.KeepsWf :=
  OpSem.keepsWf_of_act (fun {s} l o h => by
    simp only [semCctl]
    split
    · refine State.storeBytes_wf (wf_of_mem_eq (foldl_mem (fun _ _ => ?_) _ s) h) _ _ _ _
      simp
    · refine wf_of_mem_eq (foldl_mem (fun _ _ => ?_) _ s) h
      simp) rfl rfl

theorem atomicSem_keepsWf (size : Nat) (usesC : Bool) (new : Opd → Nat → Option Nat) (res : Nat → Value) :
    (atomicSem size usesC new res).KeepsWf :=
  OpSem.keepsWf_of_act (fun l o h => by simp only [atomicSem]; split <;> simp [h]) rfl rfl

/-- An operation that enters the queue of the sequencer leaves memory alone if its entry does. -/
theorem queuedSem_keepsWf (latches : List (Nat × Width)) (xw : Width) (parts : List Part) (enc : State → Loc → Opd → Except Cause (List TileRef))
    {go : State → Loc → Opd → List TileRef → State} (hgo : ∀ s l o ts, (go s l o ts).mem = s.mem) :
    (queuedSem latches xw parts enc go).KeepsWf :=
  OpSem.keepsWf_of_act_mem (fun s l o => hgo s l o _) rfl rfl

theorem semTset_keepsWf : semTset.KeepsWf :=
  OpSem.keepsWf_of_act_mem (fun s l o => by
    simp only [semTset]
    split
    · split <;> simp
    · simp) rfl rfl

theorem semAread_keepsWf : semAread.KeepsWf :=
  OpSem.keepsWf_of_act_mem (fun s l o => by simp [semAread]) rfl rfl

theorem scanSem_keepsWf (latches : List (Nat × Width)) (named : Opd → List (Word × TileRole)) (rows : Word → Nat) :
    (scanSem latches named rows).KeepsWf :=
  OpSem.keepsWf_of_act_mem (fun s l o => by simp [scanSem]) rfl rfl

/-- An operation on a barrier leaves memory alone if what it does with the barrier does. -/
theorem barrierSem_keepsWf (sel : Option (List RFile)) (bad : Word → Bool) (waits : Barrier → Word → Bool)
    {act : State → Loc → Opd → Barrier → State} (hact : ∀ s l o b, (act s l o b).mem = s.mem) : (barrierSem sel bad waits act).KeepsWf :=
  OpSem.keepsWf_of_act_mem (fun s l o => hact s l o _) rfl rfl

theorem semCopy_keepsWf : semCopy.KeepsWf :=
  OpSem.keepsWf_of_act_mem (fun s l o => by simp [semCopy]) rfl rfl

theorem semQput_keepsWf : semQput.KeepsWf :=
  OpSem.keepsWf_of_act_mem (fun s l o => by simp only [semQput]; split <;> simp) rfl rfl

theorem semQget_keepsWf : semQget.KeepsWf :=
  OpSem.keepsWf_of_act_mem (fun s l o => by simp only [semQget]; split <;> simp) rfl rfl

theorem semQsel_keepsWf : semQsel.KeepsWf :=
  OpSem.keepsWf_of_act (fun l o h => by simp [semQsel, h]) rfl rfl

theorem semRput_keepsWf : semRput.KeepsWf :=
  OpSem.keepsWf_of_act_mem (fun s l o => by
    simp only [semRput]
    split
    · simp
    · split <;> simp) rfl rfl

theorem semRget_keepsWf : semRget.KeepsWf :=
  OpSem.keepsWf_of_act_mem (fun s l o => by
    simp only [semRget]
    split
    · rfl
    · split <;> simp) rfl rfl

theorem semLaunch_keepsWf : semLaunch.KeepsWf :=
  OpSem.keepsWf_of_act_mem (fun s l o => by simp only [semLaunch]; split <;> simp) rfl rfl

theorem semPatch_keepsWf : semPatch.KeepsWf :=
  OpSem.keepsWf_of_act_mem (fun s l o => State.queueDd_mem s l o none []) rfl rfl

theorem setCellsSem_keepsWf : setCellsSem.KeepsWf :=
  OpSem.keepsWf_of_act_mem (fun s l o => State.queueDd_mem s l o none _) rfl rfl

theorem getCellsSem_keepsWf : getCellsSem.KeepsWf :=
  OpSem.keepsWf_of_act_mem (fun s l o => by simp [getCellsSem]) rfl rfl

theorem ddSem_keepsWf (xw : Width) (latches : List (Nat × Width)) (encoding sequence : State → Loc → Opd → Option Cause) :
    (ddSem xw latches encoding sequence).KeepsWf :=
  OpSem.keepsWf_of_act_mem (fun s l o => State.queueDd_mem s l o none []) rfl rfl

theorem semStep_keepsWf : semStep.KeepsWf :=
  OpSem.keepsWf_of_act_mem (fun s l o => State.queueDd_mem s l o none []) rfl rfl

theorem recordSem_keepsWf : recordSem.KeepsWf :=
  OpSem.keepsWf_of_act_mem (fun s l o => State.queueDd_mem s l o none []) rfl rfl

theorem semBrel_keepsWf : semBrel.KeepsWf :=
  OpSem.keepsWf_of_act_mem (fun s l o => by
    simp only [semBrel]
    split
    · rfl
    · split <;> simp) rfl rfl

theorem semCrw_keepsWf : semCrw.KeepsWf where
  act l o h := wf_of_mem_eq (by simp [semCrw]) h
  finish l o h := wf_of_mem_eq (State.writeControl_mem _ l o _) h
  after _ _ h := h

theorem semSafe_keepsWf : semSafe.KeepsWf where
  act l o h := by simp only [semSafe]; split <;> simp [h]
  finish _ _ h := h
  after l _ h := by
    simp only [semSafe]
    split
    · split <;> simp [h]
    · exact h

theorem semTrap_keepsWf : semTrap.KeepsWf where
  act _ _ h := h
  finish _ _ h := h
  after _ _ h := wf_of_mem_eq (State.takeTrap_mem ..) h

theorem semRte_keepsWf : semRte.KeepsWf where
  act _ _ h := h
  finish _ _ h := h
  after _ _ h := h

theorem semYield_keepsWf : semYield.KeepsWf where
  act _ _ h := h
  finish _ _ h := h
  after l _ h := wf_of_mem_eq (State.yieldAt_mem _ l) h

theorem semHalt_keepsWf : semHalt.KeepsWf where
  act _ _ h := h
  finish _ _ h := h
  after _ _ h := wf_of_mem_eq (State.endProgram_mem ..) h

/-- Every operation of R84 keeps the canonical form of memory. -/
theorem opSem_keepsWf (op : Op) : (opSem op).KeepsWf := by
  cases op with
  | ld8 | ld16 | ld32 | ld64 | ldn8 | ldn16 | ldn32 | ldacq32 | ldacq64 => exact loadSem_keepsWf ..
  | st8 | st16 | st32 | st64 | strel32 | strel64 => exact storeSem_keepsWf ..
  | ldc => exact semLdc_keepsWf
  | stc => exact semStc_keepsWf
  | vld => exact semVld_keepsWf
  | vst => exact semVst_keepsWf
  | gath => exact semGath_keepsWf
  | scat => exact semScat_keepsWf
  | vstc => exact semVstc_keepsWf
  | vldx => exact semVldx_keepsWf
  | hint => exact semHint_keepsWf
  | hres => exact semHres_keepsWf
  | cctl => exact semCctl_keepsWf
  | atadd32 | atadd64 | atand | ator | atxor | atmax | atmin | atswp | cas64 | cas128 =>
    simp only [opSem, semAtadd32, semAtadd64, semAtand, semAtor, semAtxor, semAtmax, semAtmin, semAtswp, semCas64, semCas128,
      atomicSem_keepsWf]
  | mcall | quant | awrite | anorm | acvt | azero =>
    simp [opSem, semMcall, semQuant, semAwrite, semAnorm, semAcvt, semAzero, queuedSem_keepsWf]
  | mwr => exact OpSem.keepsWf_of_act_mem (fun s l o => State.queueMx_mem _ l o _ _ _ _) rfl rfl
  | tset => exact semTset_keepsWf
  | aread => exact semAread_keepsWf
  | sload | scomp | scarry | sapply => simp only [opSem, semSload, semScomp, semScarry, semSapply, scanSem_keepsWf]
  | binit | barr | bwait | bexp => simp [opSem, semBinit, semBarr, semBwait, semBexp, barrierSem_keepsWf]
  | copy => exact semCopy_keepsWf
  | qput => exact semQput_keepsWf
  | qget => exact semQget_keepsWf
  | qsel => exact semQsel_keepsWf
  | rput => exact semRput_keepsWf
  | rget => exact semRget_keepsWf
  | launch => exact semLaunch_keepsWf
  | patch => exact semPatch_keepsWf
  | sety | setr | inject => exact setCellsSem_keepsWf
  | gety | getr | cnt => exact getCellsSem_keepsWf
  | step => exact semStep_keepsWf
  | start | stop => exact ddSem_keepsWf ..
  | dsave | dload => exact recordSem_keepsWf
  | brel => exact semBrel_keepsWf
  | crw => exact semCrw_keepsWf
  | safe => exact semSafe_keepsWf
  | trap => exact semTrap_keepsWf
  | rte => exact semRte_keepsWf
  | yield => exact semYield_keepsWf
  | halt => exact semHalt_keepsWf
  | _ => exact OpSem.keepsWf_of_act_mem (fun _ _ _ => rfl) rfl rfl

end Sys2Proof.Machine

namespace Sys2Proof.Machine

/-! ### The issue of a bundle -/

theorem State.applyMoves_wf {sem : Op → OpSem} (hsem : ∀ op, (sem op).KeepsWf) {s : State} (h : s.mem.wf = true) (l : Loc)
    (moves : List RMove) : (s.applyMoves sem l moves).mem.wf = true := by
  unfold State.applyMoves
  refine wf_of_mem_eq (foldl_mem (fun _ _ => ?_) _ _) ?_
  · split <;> simp
  refine foldl_mem_wf (fun _ r h => ?_) _ ?_
  · split
    · exact (hsem _).finish _ _ h
    · exact h
  refine foldl_mem_wf (fun _ r h => ?_) _ ?_
  · split
    · simpa using h
    · unfold State.actOrWait
      split
      · simpa using h
      · exact (hsem _).act _ _ h
    · exact h
  exact wf_of_mem_eq (foldl_mem (fun _ _ => by simp) _ _) h

theorem State.perform_wf {sem : Op → OpSem} (hsem : ∀ op, (sem op).KeepsWf) {s : State} (h : s.mem.wf = true) (l : Loc)
    (moves : List RMove) : (s.perform sem l moves).mem.wf = true := by
  unfold State.perform
  simp only [apply_ite State.mem, State.block_mem, ite_self]
  refine foldl_mem_wf (fun _ r h => ?_) _ ?_
  · split
    · exact (hsem _).after _ _ h
    · exact h
  · have hmoves := State.applyMoves_wf hsem (s := s.setCtx l (s.ctx l).unmarked) (by simpa using h) l moves
    split <;> simpa using hmoves

theorem State.issue_wf {sem : Op → OpSem} (hsem : ∀ op, (sem op).KeepsWf) {s : State} (h : s.mem.wf = true) (l : Loc)
    (items : List Item) : (s.issue sem l items).mem.wf = true := by
  unfold State.issue
  split
  · simpa using h
  split
  · simpa using h
  · simpa using h
  dsimp only
  split
  · simpa using h
  · exact State.perform_wf hsem (by simpa using h) l _

theorem State.bundle_wf {sem : Op → OpSem} (hsem : ∀ op, (sem op).KeepsWf) {s : State} (h : s.mem.wf = true) (items : List Item) :
    (s.bundle sem items).mem.wf = true := by
  unfold State.bundle
  split
  · exact State.issue_wf hsem (by simpa using h) _ items
  · exact h

theorem State.accept_wf {sem : Op → OpSem} (hsem : ∀ op, (sem op).KeepsWf) {s : State} (h : s.mem.wf = true) (l : Loc) :
    (s.accept sem l).mem.wf = true := by
  unfold State.accept
  dsimp only
  split
  · exact h
  split
  · simpa using h
  split
  · simpa using h
  · exact State.perform_wf hsem (by simpa using h) l _

theorem State.actLate_wf {s : State} (h : s.mem.wf = true) (l : Loc) : (s.actLate l).mem.wf = true := by
  unfold State.actLate
  dsimp only
  split
  · exact h
  · exact foldl_mem_wf (fun _ o h => (opSem_keepsWf o.op).act l o h) _ (by simpa using h)

theorem State.clearBlock_mem (s : State) (l : Loc) : (s.clearBlock l).mem = (s.actLate l).mem := by
  unfold State.clearBlock
  dsimp only
  repeat' split
  all_goals simp

theorem runItems_wf {s t : State} (h : s.mem.wf = true) {items : List Item} (ht : runItems items s = .next t) : t.mem.wf = true := by
  unfold runItems at ht
  split at ht
  · obtain rfl := Host.Outcome.next.inj ht
    exact State.bundle_wf (fun _ => opSem_keepsWf _) h _
  · obtain rfl := Host.Outcome.next.inj ht
    exact State.bundle_wf opSem_keepsWf h items

/-! ### The steps that no bundle holds -/

theorem runEvent_wf {s t : State} (h : s.mem.wf = true) {e : Event} (ht : runEvent e s = .next t) : t.mem.wf = true := by
  cases e with
  | blockClear core ctx =>
    obtain rfl := Host.Outcome.next.inj ht
    rw [State.clearBlock_mem]
    exact State.actLate_wf h _
  | accessAcceptance core ctx =>
    obtain rfl := Host.Outcome.next.inj ht
    exact State.accept_wf opSem_keepsWf h _
  | preemptionRequest | rateWriteEffect | dispatcherVisit | deviceReset | functionLevelReset
  | contextRelease | uncorrectableError =>
    obtain rfl := Host.Outcome.next.inj ht
    split <;> simp [h]
  | watchdogExpiry =>
    simp only [runEvent, execWatchdogExpiry] at ht
    split at ht
    all_goals
      obtain rfl := Host.Outcome.next.inj ht
      simp [h]
  | powerOn =>
    obtain rfl := Host.Outcome.next.inj ht
    rfl
  | _ =>
    obtain rfl := Host.Outcome.next.inj ht
    simp [h]

/-! ### A step -/

theorem State.mem_of_nextTurn {s t : State} {u : Turn} (h : s.nextTurn = some (u, t)) : t.mem = s.mem := by
  unfold State.nextTurn at h
  repeat' split at h
  all_goals cases h
  all_goals rfl

theorem State.mem_of_fetchTurn_error {s u : State} {core : Nat} (h : s.fetchTurn core = .error u) : u.mem = s.mem := by
  unfold State.fetchTurn at h
  dsimp only at h
  repeat' split at h
  all_goals cases h
  all_goals simp

theorem State.mem_of_fetchTurn_ok {s u : State} {core : Nat} {items : List Item} (h : s.fetchTurn core = .ok (items, u)) :
    u.mem = s.mem := by
  unfold State.fetchTurn at h
  dsimp only at h
  repeat' split at h
  all_goals cases h
  all_goals rfl

theorem stepFast_wf {s t : State} (h : s.mem.wf = true) (ht : stepFast s = .next t) : t.mem.wf = true := by
  unfold stepFast at ht
  split at ht
  case h_1 =>
    obtain rfl := Host.Outcome.next.inj ht
    exact h
  case h_2 hturn => exact runEvent_wf (wf_of_mem_eq (State.mem_of_nextTurn hturn) h) ht
  case h_3 hturn =>
    have hturn := wf_of_mem_eq (State.mem_of_nextTurn hturn) h
    split at ht
    case h_1 hfetch =>
      obtain rfl := Host.Outcome.next.inj ht
      exact wf_of_mem_eq (State.mem_of_fetchTurn_error hfetch) hturn
    case h_2 hfetch => exact runItems_wf (wf_of_mem_eq (State.mem_of_fetchTurn_ok hfetch) hturn) ht

/-- Settles O60: memory is written by the bytes of a list that stays sorted and by dropping entries of it; every other part of a step leaves it
alone. -/
theorem stepsKeepTheMemoryCanonical : Obligations.StepsKeepTheMemoryCanonical := by
  unfold Obligations.StepsKeepTheMemoryCanonical
  intro s t h ht
  rw [step_eq_stepFast] at ht
  exact stepFast_wf h ht

end Sys2Proof.Machine

/-! # What the driver and the host write and read (O54, O53) -/

namespace Sys2Proof.Machine

/-! ### Fields of words -/

/-- The bits that the model takes of a word are the extracted field. -/
theorem bits_eq_toNat_extractLsb' {n : Nat} (x : BitVec n) (hi lo : Nat) : bits x hi lo = (x.extractLsb' lo (hi + 1 - lo)).toNat :=
  (BitVec.extractLsb'_toNat lo (hi + 1 - lo) x).symm

theorem getLsbD_putBit_self {w n : Nat} (x : BitVec w) (hn : n < w) (b : Bool) : (putBit x n b).getLsbD n = b := by
  have hself : (BitVec.ofNat w (2 ^ n)).getLsbD n = true := by
    rw [BitVec.getLsbD_ofNat, Nat.testBit_two_pow_self]
    simpa using hn
  cases b
  · change (x &&& ~~~(BitVec.ofNat w (2 ^ n))).getLsbD n = false
    rw [BitVec.getLsbD_and, BitVec.getLsbD_not, hself]
    simp
  · change (x ||| BitVec.ofNat w (2 ^ n)).getLsbD n = true
    rw [BitVec.getLsbD_or, hself, Bool.or_true]

/-! ### VDCFG (R349, R364, R384) -/

theorem State.writeVdcfg_of_enabled {s : State} {pav vd : Nat} (h : (s.dev pav vd).enabled = true) (x : Word) :
    s.writeVdcfg pav vd x = s := by
  simp [State.writeVdcfg, h]

/-- The lowest key index without a live key is the free one. -/
theorem State.freeKey_eq {s : State} {k : Nat} (h0 : 0 < k) (h256 : k < 256) (hfree : ∀ e, s.keys.find? k = some e → e.live = false)
    (hlow : ∀ j, 0 < j → j < k → ∃ e, s.keys.find? j = some e ∧ e.live = true) : s.freeKey = k := by
  have hgetD : ∀ o : Option Nat, o = some k → o.getD 0 = k := fun o ho => by rw [ho]; rfl
  refine hgetD _ (List.find?_range_eq_some.mpr ⟨?_, by simpa using h256, fun j hj => ?_⟩)
  · cases hk : s.keys.find? k with
    | none => simpa using h0
    | some e => simp [h0, hfree e hk]
  · rcases Nat.eq_zero_or_pos j with rfl | hpos
    · rfl
    · obtain ⟨e, he, hlive⟩ := hlow j hpos hj
      simp [he, hlive]

/-- VDCFG of a device that is enabled with a key index: the fields as written, EN and the key index (R349, R364). -/
def enabledWord (x : Word) (k : Nat) : Word := (x &&& 0x3FFFFE01FE) ||| 1 ||| BitVec.ofNat 64 (k * 2 ^ 9)

/-- The key index of the word lies in its bits 9 to 16. -/
theorem getLsbD_keyField {k i : Nat} (h : k < 256) (hi : i < 64) :
    (BitVec.ofNat 64 (k * 2 ^ 9)).getLsbD i = (decide (9 ≤ i ∧ i < 17) && k.testBit (i - 9)) := by
  rw [BitVec.getLsbD_ofNat, Nat.testBit_mul_two_pow]
  by_cases h17 : i < 17
  · simp [hi, h17]
  · have hlt : k < 2 ^ (i - 9) := lt_of_lt_of_le h (Nat.pow_le_pow_right (n := 2) (i := 8) (by decide) (by omega))
    simp [h17, Nat.testBit_lt_two_pow hlt]

theorem bit_enabledWord (x : Word) (k : Nat) : bit (enabledWord x k) 0 = true := by
  simp [bit, enabledWord]

theorem kidx_enabledWord (x : Word) {k : Nat} (h : k < 256) : bits (enabledWord x k) 16 9 = k := by
  have hmask : ∀ i < 8, (0x3FFFFE01FE : Word).getLsbD (9 + i) = false ∧ (1 : Word).getLsbD (9 + i) = false := by decide
  have hfield : (enabledWord x k).extractLsb' 9 8 = BitVec.ofNat 8 k := by
    ext i hi
    obtain ⟨hm, h1⟩ := hmask i hi
    rw [BitVec.getElem_extractLsb', enabledWord, BitVec.getLsbD_or, BitVec.getLsbD_or, BitVec.getLsbD_and, hm, h1,
      getLsbD_keyField h (by omega)]
    have h17 : 9 + i < 17 := by omega
    simp [h17, ← BitVec.getLsbD_eq_getElem, BitVec.getLsbD_ofNat, hi]
  rw [bits_eq_toNat_extractLsb', hfield, BitVec.toNat_ofNat, Nat.mod_eq_of_lt h]

theorem tenant_enabledWord (x : Word) {k : Nat} (h : k < 256) : bits (enabledWord x k) 8 1 = (x.extractLsb' 1 8).toNat := by
  have hmask : ∀ i < 8, (0x3FFFFE01FE : Word).getLsbD (1 + i) = true ∧ (1 : Word).getLsbD (1 + i) = false := by decide
  rw [bits_eq_toNat_extractLsb']
  congr 1
  ext i hi
  obtain ⟨hm, h1⟩ := hmask i hi
  have hkey : ¬ 9 ≤ 1 + i := by omega
  rw [BitVec.getElem_extractLsb', BitVec.getElem_extractLsb', enabledWord, BitVec.getLsbD_or, BitVec.getLsbD_or, BitVec.getLsbD_and, hm,
    h1, getLsbD_keyField h (by omega)]
  simp [hkey]

theorem Dev.deficit_setDeficit_zero (d : Dev) : (d.setDeficit 0).deficit = 0 := by
  have hz : bits (BitVec.ofNat 64 (bits d.rdwrr 31 0)) 63 32 = 0 := by
    have hlt : bits d.rdwrr 31 0 < 2 ^ 32 := Nat.mod_lt _ (by decide)
    rw [bits, BitVec.toNat_ofNat, Nat.shiftRight_eq_div_pow]
    omega
  simp [Dev.deficit, Dev.setDeficit, satCount, hz]

/-- The device that an enable which is not refused leaves (R349, R374, R384). -/
def Dev.enabledAs (d : Dev) (x : Word) (k : Nat) : Dev :=
  (({ d with vdcfg := enabledWord x k, vdctl := putBit d.vdctl 1 false, refused := [], gone := [] } : Dev).setErr false).setDeficit 0

theorem State.writeVdcfg_of_enables {s : State} {pav vd : Nat} {x : Word} (hreset : s.oper.inReset = false)
    (hoff : (s.dev pav vd).enabled = false) (hen : x.getLsbD 0 = true) (hok : s.enableRefused pav vd x = false) :
    s.writeVdcfg pav vd x =
      ({ s.setDev pav vd ((s.dev pav vd).enabledAs x s.freeKey) with
        keys := s.keys.set s.freeKey ⟨pav, vd, s.keySerial, true⟩, keySerial := s.keySerial + 1 } : State).resetLending := by
  simp [State.writeVdcfg, hreset, hoff, bit, hen, hok, Dev.enabledAs, enabledWord]

/-- What an enable that is not refused leaves of the device and of its key (R349, R364, R384). -/
theorem State.writeVdcfg_enables {s : State} {pav vd k : Nat} {x : Word} (hreset : s.oper.inReset = false)
    (hoff : (s.dev pav vd).enabled = false) (hen : x.getLsbD 0 = true) (hok : s.enableRefused pav vd x = false) (hk : s.freeKey = k)
    (h256 : k < 256) :
    let t := s.writeVdcfg pav vd x
    (t.dev pav vd).enabled = true ∧ (t.dev pav vd).kidx = k ∧ (t.dev pav vd).tenant = (x.extractLsb' 1 8).toNat ∧
      (t.dev pav vd).deficit = 0 ∧ t.keys.find? k = some ⟨pav, vd, s.keySerial, true⟩ ∧ t.keySerial = s.keySerial + 1 := by
  have hdev : (s.writeVdcfg pav vd x).dev pav vd = (s.dev pav vd).enabledAs x k := by
    rw [State.writeVdcfg_of_enables hreset hoff hen hok, hk]
    exact State.dev_setDev s pav vd _
  have hkeys : (s.writeVdcfg pav vd x).keys = s.keys.set k ⟨pav, vd, s.keySerial, true⟩ := by
    rw [State.writeVdcfg_of_enables hreset hoff hen hok, hk]
    rfl
  dsimp only
  rw [hdev, hkeys]
  refine ⟨bit_enabledWord x k, kidx_enabledWord x h256, tenant_enabledWord x h256, Dev.deficit_setDeficit_zero _,
    Table.find?_set_self _ _ _, ?_⟩
  rw [State.writeVdcfg_of_enables hreset hoff hen hok]
  rfl

/-! ### Small commands (R356, R363, R398) -/

theorem State.flog_popFault (s : State) (pav vd : Nat) : ((s.popFault pav vd).dev pav vd).flog = (s.dev pav vd).flog.drop 1 := by
  rw [State.popFault, State.dev_setDev]

theorem State.tlb_invalidate (s : State) (pav : Nat) : (s.invalidate pav).tlb = s.tlb.filter fun e => !s.coversHeld pav e := rfl

theorem State.pavinv_invalidate (s : State) (pav : Nat) :
    ((s.invalidate pav).pav pav).pavinv = putBit (s.pav pav).pavinv 0 false :=
  congrArg Pav.pavinv (State.pav_setPav (s.dropHeld (s.coversHeld pav)) pav _)

/-- What an invalidation covers, in the terms of the statement (R356, R363). -/
theorem State.coversHeld_eq (s : State) (pav : Nat) (e : HeldEntry) :
    s.coversHeld pav e =
      (e.pav == pav &&
        let v := (s.pav pav).pavinv
        let page := 65536 * (v.extractLsb' 16 41).toNat
        if v.getLsbD 1 = true then
          if e.vd == 128 then v.getLsbD 9 || e.tag == Spec.upTo e.level page
          else
            v.getLsbD 9 || e.place / 65536 == page / 65536 ||
              s.tlb.any fun f => f.pav == pav && f.vd == 128 && f.word.getLsbD 1 && f.tag == Spec.upTo f.level page &&
                f.tag == Spec.upTo f.level e.place
        else e.vd == (v.extractLsb' 2 7).toNat && (v.getLsbD 9 || e.tag == Spec.upTo e.level page)) := by
  simp only [State.coversHeld, bit, bits_eq_toNat_extractLsb', Nat.shiftRight_eq_div_pow, Nat.mul_comm 65536]
  rfl

/-- What an invalidation of stage 1 does not cover (R363). -/
theorem State.not_coversHeld_first {s : State} {pav : Nat} {e : HeldEntry} (hpav : e.pav = pav)
    (hfirst : (s.pav pav).pavinv.getLsbD 1 = false) (hvd : e.vd = ((s.pav pav).pavinv.extractLsb' 2 7).toNat)
    (hnot : s.coversHeld pav e = false) :
    (s.pav pav).pavinv.getLsbD 9 = false ∧ e.tag ≠ Spec.upTo e.level (65536 * ((s.pav pav).pavinv.extractLsb' 16 41).toNat) := by
  rw [State.coversHeld_eq] at hnot
  dsimp only at hnot
  rw [hfirst, ← hvd] at hnot
  simpa only [hpav, BEq.rfl, Bool.true_and, Bool.false_eq_true, if_false, Bool.or_eq_false_iff, beq_eq_false_iff_ne] using hnot

/-- What an invalidation of stage 2 does not cover (R356, R363). -/
theorem State.not_coversHeld_second {s : State} {pav : Nat} {e : HeldEntry} (hpav : e.pav = pav)
    (hsecond : (s.pav pav).pavinv.getLsbD 1 = true) (hnot : s.coversHeld pav e = false) :
    let page := 65536 * ((s.pav pav).pavinv.extractLsb' 16 41).toNat
    (s.pav pav).pavinv.getLsbD 9 = false ∧ (e.vd = 128 → e.tag ≠ Spec.upTo e.level page) ∧
      (e.vd ≠ 128 → e.place / 65536 ≠ page / 65536 ∧ ∀ f ∈ s.tlb, f.pav = pav → f.vd = 128 → f.word.getLsbD 1 = true →
        f.tag = Spec.upTo f.level page → f.tag ≠ Spec.upTo f.level e.place) := by
  rw [State.coversHeld_eq] at hnot
  dsimp only at hnot ⊢
  rw [hsecond] at hnot
  simp only [hpav, BEq.rfl, Bool.true_and, if_true] at hnot
  by_cases hvd : e.vd = 128
  · simp only [hvd, BEq.rfl, if_true, Bool.or_eq_false_iff, beq_eq_false_iff_ne] at hnot
    exact ⟨hnot.1, fun _ => hnot.2, fun h => absurd hvd h⟩
  · simp only [beq_iff_eq, hvd, if_false, Bool.or_eq_false_iff, beq_eq_false_iff_ne, List.any_eq_false, Bool.and_eq_true] at hnot
    obtain ⟨⟨hall, hplace⟩, hform⟩ := hnot
    exact ⟨hall, fun h => absurd h hvd, fun _ => ⟨hplace, fun f hf h1 h2 h3 h4 h5 => hform f hf ⟨⟨⟨⟨h1, h2⟩, h3⟩, h4⟩, h5⟩⟩⟩

theorem State.clearMaps_one {s : State} {pav c : Nat} (hone : (s.pav pav).rmclr = [c]) (htable : (s.core c).table = []) :
    s.clearMaps pav = (s.setPav pav { s.pav pav with rmclr := [] }).setCore c { s.core c with renames := [] } := by
  have hdone : [c].filter (fun c => (s.core c).table.isEmpty) = [c] := by simp [htable]
  have hkeep : [c].filter (fun d => !List.contains [c] d) = [] := by simp
  unfold State.clearMaps
  dsimp only
  rw [hone, hdone, hkeep]
  rfl

/-! ### The partition word (R292 to R294) -/

theorem Core.length_inService_le (k : Core) : k.inService.length ≤ 80 :=
  (List.length_filter_le _ _).trans (by simp)

/-- The fields that the driver gives a partition word stand in its low bits (R293). -/
theorem extractLsb'_partWith_fields (x : Word) (service : List Nat) :
    (partWith x service).extractLsb' 0 11 = x.extractLsb' 0 11 := by
  have hmask : ∀ i < 11, (0x7FF : Word).getLsbD (0 + i) = true := by decide
  ext i hi
  have hsbn : ¬ 11 ≤ i := by omega
  rw [BitVec.getElem_extractLsb', BitVec.getElem_extractLsb', partWith, BitVec.getLsbD_or, BitVec.getLsbD_and, hmask i hi,
    BitVec.getLsbD_ofNat, Nat.testBit_mul_two_pow]
  simp [hsbn]

/-- SBN is what the vector and accumulator banks leave of the banks in service (R293). -/
theorem toNat_extractLsb'_partWith_sbn (x : Word) {service : List Nat} (h : service.length < 128) :
    ((partWith x service).extractLsb' 11 7).toNat = service.length - vectorBanks (x &&& 0x7FF) - accBanks (x &&& 0x7FF) := by
  have hmask : ∀ i < 7, (0x7FF : Word).getLsbD (11 + i) = false := by decide
  have hlt : service.length - vectorBanks (x &&& 0x7FF) - accBanks (x &&& 0x7FF) < 2 ^ 7 := by
    have := Nat.sub_le (service.length - vectorBanks (x &&& 0x7FF)) (accBanks (x &&& 0x7FF))
    omega
  unfold partWith
  dsimp only
  generalize service.length - vectorBanks (x &&& 0x7FF) - accBanks (x &&& 0x7FF) = n at hlt
  have hfield : (x &&& 0x7FF ||| BitVec.ofNat 64 (n * 2 ^ 11)).extractLsb' 11 7 = BitVec.ofNat 7 n := by
    ext i hi
    have h64 : 11 + i < 64 := by omega
    rw [BitVec.getElem_extractLsb', BitVec.getLsbD_or, BitVec.getLsbD_and, hmask i hi, BitVec.getLsbD_ofNat, Nat.testBit_mul_two_pow]
    simp [h64, ← BitVec.getLsbD_eq_getElem, BitVec.getLsbD_ofNat, hi]
  rw [hfield, BitVec.toNat_ofNat, Nat.mod_eq_of_lt hlt]

theorem Table.find?_map {α β : Type} (t : Table α) (f : α → β) (k : Nat) :
    Table.find? (t.map fun e => (e.1, f e.2)) k = (t.find? k).map f := by
  induction t with
  | nil => rfl
  | cons e t ih =>
    simp only [List.map_cons, Table.find?]
    split
    · rfl
    · exact ih

/-- An entry of a table whose values are all changed by a function. -/
theorem Table.getD_map {α β : Type} (t : Table α) (f : α → β) (k : Nat) (d : α) :
    Table.getD (t.map fun e => (e.1, f e.2)) k (f d) = f (t.getD k d) := by
  rw [Table.getD, Table.getD, Table.find?_map]
  cases t.find? k <;> rfl

/-- A context whose vector registers are zeroed (R294). -/
def Ctx.zeroVectors (x : Ctx) : Ctx := { x with cur := { x.cur with v := [], emptyV := 0 } }

/-- What the lodge writes with a partition word that it does not refuse (R293, R294). -/
theorem State.core_writePoolpart {s : State} {c : Nat} {x : Word} (hok : (s.core c).partRefused x = false) :
    ((s.writePoolpart c x).core c).poolpart = partWith x (s.core c).inService ∧
      ((s.writePoolpart c x).core c).ctxs =
        (s.core c).ctxs.map fun e => (e.1, e.2.zeroVectors) := by
  simp only [State.writePoolpart, hok, Bool.false_eq_true, if_false, State.core_setCore]
  exact ⟨trivial, rfl⟩

theorem State.vectors_writePoolpart {s : State} {c : Nat} {x : Word} (hok : (s.core c).partRefused x = false) (n j : Nat) :
    ((s.writePoolpart c x).ctx ⟨c, n⟩).cur.readReg .v j = .vec 0 := by
  obtain ⟨-, hctxs⟩ := State.core_writePoolpart hok
  have hctx : (s.writePoolpart c x).ctx ⟨c, n⟩ = ((s.core c).ctx n).zeroVectors := by
    rw [State.ctx, Core.ctx, hctxs]
    exact Table.getD_map (s.core c).ctxs Ctx.zeroVectors n Ctx.reset
  rw [hctx]
  rfl

/-! ### What the driver's writes do (O54) -/

/-- Settles O54, each clause by what its command leaves. -/
theorem driverWritesAct : Obligations.DriverWritesAct := by
  unfold Obligations.DriverWritesAct
  intro s pav vd x d
  refine ⟨fun h => ?_, ?_, ⟨_, rfl, State.flog_popFault s pav vd⟩, ⟨_, rfl, ?_, ?_, ?_, ?_⟩, ?_, ?_, ?_, ?_⟩
  · exact congrArg _ (State.writeVdcfg_of_enabled h x)
  · intro k hreset hoff hen hok h0 h256 hfree hlow
    exact ⟨_, rfl, State.writeVdcfg_enables hreset hoff hen hok (State.freeKey_eq h0 h256 hfree hlow) h256⟩
  · rw [State.pavinv_invalidate]
    exact getLsbD_putBit_self _ (by decide) false
  · intro e he
    rw [State.tlb_invalidate] at he
    exact List.mem_of_mem_filter he
  · intro hfirst e he hpav hvd
    rw [State.tlb_invalidate, List.mem_filter, Bool.not_eq_true'] at he
    exact State.not_coversHeld_first hpav hfirst hvd he.2
  · intro hsecond e he hpav
    rw [State.tlb_invalidate, List.mem_filter, Bool.not_eq_true'] at he
    exact State.not_coversHeld_second hpav hsecond he.2
  · intro c hone htable
    refine ⟨_, rfl, ?_, ?_⟩
    · rw [State.clearMaps_one hone htable, State.core_setCore]
    · rw [State.clearMaps_one hone htable]
      exact congrArg Pav.rmclr (State.pav_setPav s pav _)
  · intro c hok
    obtain ⟨hpart, -⟩ := State.core_writePoolpart hok
    refine ⟨_, rfl, ?_, ?_, fun n j _ => State.vectors_writePoolpart hok n j⟩
    · rw [hpart]
      exact extractLsb'_partWith_fields x _
    · rw [hpart]
      exact toNat_extractLsb'_partWith_sbn x (by have := (s.core c).length_inService_le; omega)
  · intro hreset
    refine ⟨_, rfl, ?_⟩
    simp [State.writeRegister, hreset]
  · intro hgo
    change Host.Outcome.next (s.writeRegister .pcore0 x) = .next s
    simp [State.writeRegister, Oper.locked, bit, hgo]

end Sys2Proof.Machine

namespace Sys2Proof.Machine

/-! ### Launches through BAR2 (R351 to R353) -/

/-- The launch store of a device has a free entry (R351; log 31). -/
theorem State.storeFull_eq_false_iff (s : State) (pav vd : Nat) :
    s.storeFull pav vd = false ↔
      (s.dev pav vd).launches.length < ((s.dev pav vd).vdcfg.extractLsb' 25 9).toNat ∧
        (s.dev pav vd).launches.length + s.placesHeld pav vd < 256 + ((s.dev pav vd).vdcfg.extractLsb' 25 9).toNat := by
  have hl : (s.dev pav vd).lstore = ((s.dev pav vd).vdcfg.extractLsb' 25 9).toNat := bits_eq_toNat_extractLsb' _ 33 25
  simp only [State.storeFull, hl, Bool.or_eq_false_iff, decide_eq_false_iff_not, not_le, ge_iff_le]

/-- A write to BAR2 that is a launch: an aligned one of 64 bytes to the aperture of a device that is enabled and does not reset (R351). -/
def Dev.takesLaunch (d : Dev) (off : Nat) (bs : List Byte) : Prop :=
  off < 0x400 ∧ off % 64 = 0 ∧ bs.length = 64 ∧ d.enabled = true ∧ bit d.vdctl 0 = false

section
variable {s : State} {pav vd off : Nat} {bs : List Byte} (hreset : s.oper.inReset = false) (hformed : (s.pav pav).formed = true)
  (hlaunch : (s.dev pav vd).takesLaunch off bs)
include hreset hformed

theorem State.hostWrite_crhead (hoff : off = 0x1100) :
    s.hostWrite pav vd off bs = s.writeCrhead pav vd (BitVec.ofNat 64 (leNat bs)) := by
  simp [State.hostWrite, hreset, hformed, hoff]

theorem State.hostWrite_malformed (hoff : off ≠ 0x1100) (hno : ¬ (s.dev pav vd).takesLaunch off bs) :
    s.hostWrite pav vd off bs = s.setDev pav vd { s.dev pav vd with malf := count32 (s.dev pav vd).malf } := by
  unfold Dev.takesLaunch at hno
  unfold State.hostWrite
  dsimp only
  rw [if_neg (by simp [hreset, hformed]), if_neg hoff, if_neg hno]

include hlaunch

theorem State.hostWrite_full (hfull : s.storeFull pav vd = true) :
    s.hostWrite pav vd off bs =
      s.setDev pav vd { s.dev pav vd with full := (s.dev pav vd).full.set (off / 64) (count32 ((s.dev pav vd).full.getD (off / 64) 0)) } := by
  unfold Dev.takesLaunch at hlaunch
  unfold State.hostWrite
  dsimp only
  rw [if_neg (by simp [hreset, hformed]), if_neg (by omega), if_pos hlaunch, if_pos hfull]

/-- A launch that is accepted (R351). -/
theorem State.hostWrite_accepts (hfree : s.storeFull pav vd = false) :
    let t := s.hostWrite pav vd off bs
    ∃ e : Launch, (t.dev pav vd).launches = (s.dev pav vd).launches ++ [e] ∧ e.queue = off / 64 ∧ e.record = some bs ∧
      (t.dev pav vd).acc.getD (off / 64) 0 = ((s.dev pav vd).acc.getD (off / 64) 0 + 1) % 2 ^ 32 := by
  unfold Dev.takesLaunch at hlaunch
  unfold State.hostWrite
  dsimp only
  rw [if_neg (by simp [hreset, hformed]), if_neg (by omega), if_pos hlaunch, if_neg (by simp [hfree]), State.dev_setDev]
  exact ⟨_, rfl, rfl, rfl, Table.getD_set_self _ _ _ _⟩

end

theorem State.hostWrite_unformed {s : State} {pav : Nat} (h : (s.pav pav).formed = false) (vd off : Nat) (bs : List Byte) :
    s.hostWrite pav vd off bs = s := by
  simp [State.hostWrite, h]

theorem State.crhead_writeCrhead {s : State} {pav vd : Nat} {x : Word} (hreset : s.oper.inReset = false) (hformed : (s.pav pav).formed = true)
    (hle : ((x.extractLsb' 0 16).toNat + 65536 - (s.dev pav vd).crhead) % 65536 ≤
      ((s.dev pav vd).crtail + 65536 - (s.dev pav vd).crhead) % 65536) :
    ((s.writeCrhead pav vd x).dev pav vd).crhead = (x.extractLsb' 0 16).toNat := by
  have hn : bits x 15 0 = (x.extractLsb' 0 16).toNat := bits_eq_toNat_extractLsb' x 15 0
  unfold State.writeCrhead
  dsimp only
  rw [if_neg (by simp [hreset, hformed]), hn, if_neg (by omega), State.dev_setDev]

theorem State.writeCrhead_passing {s : State} {pav vd : Nat} {x : Word}
    (hlt : ((s.dev pav vd).crtail + 65536 - (s.dev pav vd).crhead) % 65536 <
      ((x.extractLsb' 0 16).toNat + 65536 - (s.dev pav vd).crhead) % 65536) : s.writeCrhead pav vd x = s := by
  have hn : bits x 15 0 = (x.extractLsb' 0 16).toNat := bits_eq_toNat_extractLsb' x 15 0
  unfold State.writeCrhead
  dsimp only
  rw [hn, if_pos hlt, ite_self]

/-! ### The memory window (R354, R360) -/

theorem State.windowRequests_same (s : State) (pav vd : Nat) (ps : List Piece) : SameMemory (s.windowRequests pav vd ps) s := by
  unfold State.windowRequests
  induction ps generalizing s with
  | nil => exact ⟨rfl, rfl, rfl, rfl, rfl, rfl, rfl, rfl⟩
  | cons p ps ih => exact (ih _).trans ⟨rfl, rfl, rfl, rfl, rfl, rfl, rfl, rfl⟩

@[simp] theorem State.windowRequests_reads (s : State) (pav vd : Nat) (ps : List Piece) : (s.windowRequests pav vd ps).reads = s.reads := by
  unfold State.windowRequests
  induction ps generalizing s with
  | nil => rfl
  | cons p ps ih => exact ih _

/-- The granules of a range have no tag once it is cleared (R195). -/
theorem State.tags_clearTags (s : State) {pa n j : Nat} (hj : j < n) : (s.clearTags pa n).tags.getD ((pa + j) / 16) false = false := by
  have hfold : ∀ (m : Nat) (t : Table Bool) (i : Nat), i < m →
      Table.getD ((List.range m).foldl (fun t i => t.put false (pa / 16 + i) false) t) (pa / 16 + i) false = false := by
    intro m t i hi
    induction m with
    | zero => omega
    | succ m ih =>
      rw [List.range_succ, List.foldl_append, List.foldl_cons, List.foldl_nil]
      by_cases him : i = m
      · rw [him, Table.getD_put_self]
      · rw [Table.getD_put_ne _ _ _ (by omega)]
        exact ih (by omega)
  obtain ⟨i, hi⟩ : ∃ i, (pa + j) / 16 = pa / 16 + i := ⟨(pa + j) / 16 - pa / 16, by omega⟩
  unfold State.clearTags
  rw [if_neg (by omega), hi]
  exact hfold _ _ _ (by omega)

theorem State.clearTags_lineKey (s : State) (pa n : Nat) : (s.clearTags pa n).lineKey = s.lineKey := by
  unfold State.clearTags
  split <;> rfl

theorem State.lineKey_rekey (s : State) (line serial : Nat) : (s.rekey line serial).lineKey.getD line 0 = serial := by
  unfold State.rekey
  split
  · assumption
  · rw [State.clearTags_lineKey]
    exact Table.getD_put_self _ _ _ _

/-- A line that takes another key changes no byte of another line (R365). -/
theorem State.byte_rekey_ne (s : State) {line serial a : Nat} (h : a / 64 ≠ line) : (s.rekey line serial).mem.byte a = s.mem.byte a := by
  unfold State.rekey
  split
  · rfl
  · rw [State.clearTags_mem]
    refine Memory.byte_setBytes_outside _ _ ?_
    simp only [List.length_map, List.length_range]
    omega

section
variable {s : State} {p : Piece} (hlive : s.keyDead p.place.kidx = false) (hclean : s.poison.getD (p.place.pa / 64) false = false)
include hlive hclean

/-- The bytes of memory and the keys of lines after a part of a line that a host writes (R354, R365). -/
theorem State.hostWritePiece_eq (bs : List Byte) :
    (s.hostWritePiece p bs).mem = (s.rekey (p.place.pa / 64) (s.serialOf p.place.kidx)).mem.setBytes p.place.pa bs ∧
      (s.hostWritePiece p bs).lineKey = (s.rekey (p.place.pa / 64) (s.serialOf p.place.kidx)).lineKey ∧
        ∀ j, j < p.len → (s.hostWritePiece p bs).tags.getD ((p.place.pa + j) / 16) false = false := by
  unfold State.hostWritePiece
  dsimp only
  rw [if_neg (by simp [hlive]), if_neg (by simp [hclean]), State.clearTags_mem, State.clearTags_lineKey]
  exact ⟨rfl, rfl, fun j hj => State.tags_clearTags _ hj⟩

/-- A part of a line that a host writes within the line reads as written under the key of its page, and no byte of another line changes (R354, R365). -/
theorem State.hostWritePiece_bytes {bs : List Byte} (hfit : p.place.pa % 64 + bs.length ≤ 64) :
    (∀ j (h : j < bs.length), (s.hostWritePiece p bs).byteUnder (s.serialOf p.place.kidx) (p.place.pa + j) = bs[j]) ∧
      ∀ a, a / 64 ≠ p.place.pa / 64 → (s.hostWritePiece p bs).mem.byte a = s.mem.byte a := by
  obtain ⟨hmem, hkey, -⟩ := State.hostWritePiece_eq hlive hclean bs
  constructor
  · intro j hj
    have hline : (p.place.pa + j) / 64 = p.place.pa / 64 := by omega
    unfold State.byteUnder
    dsimp only
    rw [hkey, hline, State.lineKey_rekey, if_pos rfl, hmem, Memory.byte_setBytes _ _ _ _ hj]
  · intro a ha
    rw [hmem, Memory.byte_setBytes_outside _ _ (by omega), State.byte_rekey_ne s ha]

end

/-- A window write of one part (R354). -/
theorem State.windowWrite_one {s : State} {pav vd off : Nat} {bs : List Byte} {p : Piece} (hreset : s.oper.inReset = false)
    (hrange : s.range (windowOf pav vd) ((s.dev pav vd).windowAddr off) bs.length true = .ok [p]) (hlen : p.len = bs.length) :
    s.windowWrite pav vd off bs = (s.windowRequests pav vd [p]).hostWritePiece p bs := by
  unfold State.windowWrite
  rw [if_neg (by simp [hreset]), hrange]
  dsimp only
  rw [State.hostWriteRange, hlen, List.take_length]
  rfl

theorem State.windowWrite_untranslated {s : State} {pav vd off : Nat} {bs : List Byte} {e : Nat × Nat}
    (hrange : s.range (windowOf pav vd) ((s.dev pav vd).windowAddr off) bs.length true = .error e) :
    s.windowWrite pav vd off bs = s := by
  unfold State.windowWrite
  rw [hrange, ite_self]

section
variable {s : State} {pav vd off n : Nat} (hreset : s.oper.inReset = false)
include hreset

/-- A window read that is not translated (R354, R360). -/
theorem State.windowRead_untranslated {e : Nat × Nat}
    (hrange : s.range (windowOf pav vd) ((s.dev pav vd).windowAddr off) n false = .error e) :
    (s.windowRead pav vd off n).reads = s.reads ++ [(pav, vd, 1, List.replicate n 0xFF)] := by
  unfold State.windowRead
  dsimp only
  rw [if_neg (by simp [hreset]), hrange]

variable {ps : List Piece} (hrange : s.range (windowOf pav vd) ((s.dev pav vd).windowAddr off) n false = .ok ps)
include hrange

theorem State.windowRead_poisoned (hbad : ∃ p ∈ ps, s.piecePoisoned p = true) :
    (s.windowRead pav vd off n).reads = s.reads ++ [(pav, vd, 2, List.replicate n 0xFF)] := by
  unfold State.windowRead
  dsimp only
  rw [if_neg (by simp [hreset]), hrange]
  dsimp only
  rw [if_pos (List.any_eq_true.mpr hbad), State.windowRequests_reads]

/-- A window read of sound data answers the bytes of memory, or from offset 2^39 on those of the home (R354). -/
theorem State.windowRead_sound (hgood : ∀ p ∈ ps, s.piecePoisoned p = false) :
    (s.windowRead pav vd off n).reads =
      s.reads ++ [(pav, vd, 0, ps.flatMap (if off / 2 ^ 39 % 2 = 1 then s.homePiece else s.readPiece))] := by
  have hany : ps.any s.piecePoisoned = false := List.any_eq_false.mpr fun p hp => by simp [hgood p hp]
  unfold State.windowRead
  dsimp only
  rw [if_neg (by simp [hreset]), hrange]
  dsimp only
  rw [if_neg (by simp [hany]), State.windowRequests_reads]

end

theorem State.homePiece_unheld {s : State} {p : Piece} (h : s.home.find? (p.place.pa / 64) = none) : s.homePiece p = s.readPiece p := by
  simp only [State.homePiece, h]

theorem State.homePiece_held {s : State} {p : Piece} {h : HomeLine} (hheld : s.home.find? (p.place.pa / 64) = some h)
    (hlive : s.keyDead p.place.kidx = false) (hkey : h.key = s.serialOf p.place.kidx) :
    s.homePiece p = (List.range p.len).map fun i => h.bytes.getD (p.place.pa % 64 + i) 0 := by
  simp [State.homePiece, hheld, hlive, hkey]

/-- What the host does through the apertures and the window of a function (R351 to R354, R360). -/
theorem hostWindowsAndLaunches : Spec.HostWindowsAndLaunchesAct := by
  unfold Spec.HostWindowsAndLaunchesAct
  intro s pav vd off bs d lstore free launch queue hreset
  have hfull : s.storeFull pav vd = true ↔ ¬ free := by
    rw [← Bool.not_eq_false, State.storeFull_eq_false_iff]
  refine ⟨?_, ?_, ?_, ?_, ?_, ?_, ?_, ?_, ?_, ?_, ?_, ?_, ?_⟩
  · intro hformed hlaunch hfree
    exact ⟨_, rfl, State.hostWrite_accepts hreset hformed hlaunch ((State.storeFull_eq_false_iff s pav vd).mpr hfree)⟩
  · intro hformed hlaunch hno
    exact congrArg Host.Outcome.next (State.hostWrite_full hreset hformed hlaunch (hfull.mpr hno))
  · intro hformed hoff hno
    exact congrArg Host.Outcome.next (State.hostWrite_malformed hreset hformed hoff hno)
  · intro hformed hoff
    exact congrArg Host.Outcome.next (State.hostWrite_crhead hreset hformed hoff)
  · intro hformed
    exact congrArg Host.Outcome.next (State.hostWrite_unformed hformed vd off bs)
  · intro p hrange hlen hfit hlive hclean
    have hsame := State.windowRequests_same s pav vd [p]
    have hlive' : (s.windowRequests pav vd [p]).keyDead p.place.kidx = false := by rw [hsame.keyDead, hlive]
    have hclean' : (s.windowRequests pav vd [p]).poison.getD (p.place.pa / 64) false = false := by rw [hsame.poison, hclean]
    obtain ⟨hbytes, hframe⟩ := State.hostWritePiece_bytes hlive' hclean' (hlen ▸ hfit)
    obtain ⟨-, -, htags⟩ := State.hostWritePiece_eq hlive' hclean' bs
    refine ⟨_, congrArg Host.Outcome.next (State.windowWrite_one hreset hrange hlen), ?_, ?_, fun j hj => htags j (hlen ▸ hj)⟩
    · rw [← hsame.serialOf]
      exact hbytes
    · intro a ha
      rw [hframe a ha, hsame.mem]
  · intro e hrange
    exact congrArg Host.Outcome.next (State.windowWrite_untranslated hrange)
  · intro n ps hrange hgood hoff
    refine ⟨_, rfl, ?_, State.windowRead_mem ..⟩
    have hdirect : ¬ off / 2 ^ 39 % 2 = 1 := by omega
    rw [State.windowRead_sound hreset hrange hgood, if_neg hdirect]
    rfl
  · intro n p hrange hgood hlow hhigh
    have hdirect : off / 2 ^ 39 % 2 = 1 := by omega
    refine ⟨_, s.homePiece p, rfl, ?_, State.windowRead_mem .., fun h => ?_, fun h hheld hlive hkey => State.homePiece_held hheld hlive hkey⟩
    · rw [State.windowRead_sound hreset hrange (by simpa using hgood), if_pos hdirect, List.flatMap_singleton]
    · rw [State.homePiece_unheld h, State.readRange, List.flatMap_singleton]
  · intro n ps hrange hbad
    exact ⟨_, rfl, State.windowRead_poisoned hreset hrange hbad⟩
  · intro n e hrange
    exact ⟨_, rfl, State.windowRead_untranslated hreset hrange⟩
  · intro x n hformed hle
    exact ⟨_, rfl, State.crhead_writeCrhead hreset hformed hle⟩
  · intro x n hlt
    exact congrArg Host.Outcome.next (State.writeCrhead_passing hlt)

/-! ### The register maps (R348, R349, R352, R373, R398, R421) -/

theorem State.bar0Read_untrained {s : State} (h : ¬ s.oper.inReset = false) (pav fn off : Nat) : s.bar0Read pav fn off = none := by
  rw [State.bar0Read, if_pos (by simpa using h)]

theorem State.bar2Read_untrained {s : State} (h : ¬ s.oper.inReset = false) (pav vd off : Nat) : s.bar2Read pav vd off = none := by
  rw [State.bar2Read, if_pos (by simpa using h)]

section
variable {s : State} (h : s.oper.inReset = false)
include h

theorem State.bar0Read_trained (pav fn off : Nat) : s.bar0Read pav fn off = some (s.bar0Word pav fn off) := by
  rw [State.bar0Read, if_neg (by simp [h])]

theorem State.bar2Read_trained (pav vd off : Nat) : s.bar2Read pav vd off = some (s.bar2Word pav vd off) := by
  rw [State.bar2Read, if_neg (by simp [h])]

end

theorem State.bar2Word_aperture (s : State) (pav vd : Nat) {off : Nat} (h : off < 0x1000) : s.bar2Word pav vd off = 0 := by
  unfold State.bar2Word
  dsimp only
  split
  · rfl
  · rw [if_neg (by omega), if_neg (by omega), if_neg (by omega), if_neg (by omega)]

theorem State.bar2Word_lqstat (s : State) (pav vd : Nat) {q : Nat} (h : q < 16) :
    s.bar2Word pav vd (0x1000 + 8 * q) = BitVec.ofNat 64 ((s.dev pav vd).acc.getD q 0 + 2 ^ 32 * (s.dev pav vd).full.getD q 0) := by
  have hq : (0x1000 + 8 * q - 0x1000) / 8 = q := by omega
  unfold State.bar2Word
  dsimp only
  rw [if_neg (by omega), if_pos (by omega), hq, Dev.lqstat, Nat.mul_comm]

/-- The blocks of every device through the physical function (R348, R349, R373). -/
theorem bar0Map_device {vd : Nat} (h : vd < 128) (pav : Nat) : bar0Map pav 0 (0x1000 + 64 * vd) = .device vd 0 := by
  unfold bar0Map
  rw [if_neg (by omega), if_pos rfl, if_neg (by omega), if_pos (by omega)]
  congr 1 <;> omega

theorem bar0Map_rate {vd : Nat} (h : vd < 128) (pav : Nat) : bar0Map pav 0 (0x4000 + 64 * vd) = .rate vd 0 := by
  unfold bar0Map
  rw [if_neg (by omega), if_pos rfl, if_neg (by omega), if_neg (by omega), if_pos (by omega)]
  congr 1 <;> omega

/-- The blocks of a virtual function's own device (R348). -/
theorem bar0Map_own {fn : Nat} (h : 0 < fn) (pav : Nat) :
    bar0Map pav fn 0 = .device fn 0 ∧ bar0Map pav fn 0x400 = .rate fn 0 ∧ ∀ off, 0x440 ≤ off → bar0Map pav fn off = .none := by
  have hfn : fn ≠ 0 := by omega
  refine ⟨by simp [bar0Map, hfn], by simp [bar0Map, hfn], fun off hoff => ?_⟩
  unfold bar0Map
  split
  · rfl
  · rw [if_neg (by omega), if_neg (by omega)]

/-- The operator block answers pavilion 0's physical function alone (R348). -/
theorem bar0Map_operator_elsewhere {pav fn off : Nat} (hoff : 0x8000 ≤ off) (hother : fn ≠ 0 ∨ pav ≠ 0) : bar0Map pav fn off = .none := by
  unfold bar0Map
  split
  · rfl
  split
  · rw [if_neg (by omega), if_neg (by omega), if_neg (by omega), if_neg (by omega)]
  · rw [if_neg (by omega), if_neg (by omega)]

/-- COUNT of FLOGCTL (R398). -/
theorem Dev.count_flogctl {d : Dev} (h : d.flog.length ≤ 64) : (d.flogctl.extractLsb' 0 7).toNat = d.flog.length := by
  rw [BitVec.extractLsb'_toNat, Dev.flogctl, BitVec.toNat_ofNat, Nat.shiftRight_zero]
  omega

/-- What the host reads through BAR0 and BAR2, and what a write of VDCFG through BAR0 is (R348, R349, R352, R373, R398, R421). -/
theorem registersReadByTheirMaps : Spec.RegistersReadByTheirMaps := by
  unfold Spec.RegistersReadByTheirMaps
  intro s pav vd d trained
  refine ⟨fun h fn off => ⟨State.bar0Read_untrained h pav fn off, State.bar2Read_untrained h pav fn off⟩, fun h => ?_, ?_,
    fun h => Dev.count_flogctl h, ?_, ?_⟩
  · simp only [State.bar0Read_trained h, State.bar2Read_trained h, Option.some.injEq]
    refine ⟨fun off => State.bar2Word_aperture s pav vd, fun q => State.bar2Word_lqstat s pav vd, rfl, rfl, rfl, fun hvd => ⟨?_, ?_⟩,
      fun hvd => ⟨?_, ?_, fun off hoff => ?_⟩, fun fn off hoff hother => ?_, rfl⟩
    · rw [State.bar0Word, bar0Map_device hvd]
      rfl
    · rw [State.bar0Word, bar0Map_rate hvd]
      rfl
    · rw [State.bar0Word, (bar0Map_own hvd pav).1]
      rfl
    · rw [State.bar0Word, (bar0Map_own hvd pav).2.1]
      rfl
    · rw [State.bar0Word, (bar0Map_own hvd pav).2.2 off hoff]
    · rw [State.bar0Word, bar0Map_operator_elsewhere hoff hother]
  · intro h
    exact ⟨by rw [Dev.flogd0, h], by rw [Dev.flogd1, h]⟩
  · intro x hvd
    rw [bar0Write, bar0Map_device hvd]
    rfl
  · intro x hvd
    rw [bar0Write, (bar0Map_own hvd pav).1]
    exact if_neg (by omega)

/-- Settles O53: the host's writes and reads, and the maps of its registers. -/
theorem hostWindowsAndLaunchesAct : Obligations.HostWindowsAndLaunchesAct := by
  unfold Obligations.HostWindowsAndLaunchesAct
  exact ⟨hostWindowsAndLaunches, registersReadByTheirMaps⟩

end Sys2Proof.Machine

/-! # The promenade, its ports and its calendar (O50) -/

namespace Sys2Proof

variable {α : Type}

theorem Table.mem_of_find? {t : Table α} {k : Nat} {v : α} (h : t.find? k = some v) : (k, v) ∈ t := by
  induction t with
  | nil => cases h
  | cons e t ih =>
    obtain ⟨j, w⟩ := e
    by_cases hj : j = k
    · subst hj
      simp_all [Table.find?]
    · rw [Table.find?, if_neg hj] at h
      exact List.mem_cons_of_mem _ (ih h)

/-- Taking entries out of a table does not touch a key whose entry stays. -/
theorem Table.find?_filter {t : Table α} {k : Nat} {v : α} {p : Nat × α → Bool} (h : t.find? k = some v) (hp : p (k, v) = true) :
    Table.find? (t.filter p) k = some v := by
  induction t with
  | nil => cases h
  | cons e t ih =>
    obtain ⟨j, w⟩ := e
    by_cases hj : j = k
    · subst hj
      obtain rfl : w = v := by simpa [Table.find?] using h
      simp [hp, Table.find?]
    · rw [Table.find?, if_neg hj] at h
      rw [List.filter_cons]
      split
      · rw [Table.find?, if_neg hj, ih h]
      · exact ih h

end Sys2Proof

namespace Sys2Proof.Machine

/-! ### Messages and credits (R13, R226) -/

/-- A message has arrived: it has travelled its way and no earlier one of its path precedes it (R12, R13). -/
def State.hasArrived (s : State) (m : RingMsg) : Prop :=
  s.messages.find? (fun e => e.id == m.id) = some m ∧ m.waiting = false ∧ m.held = false ∧ m.wait = 0 ∧
    ∀ e ∈ s.messages, e.id < m.id → ¬ (e.src = m.src ∧ e.dst = m.dst ∧ e.dir = m.dir)

/-- Whether the link of the port by which messages of a direction leave is up (R369). -/
def State.outLinkUp (s : State) (dir : Nat) : Bool := bit s.oper.rxcfg 0 && bit s.oper.rxcfg (if dir = 0 then 2 else 1)

section
variable {s : State} {m : RingMsg} (h : s.hasArrived m)
include h

/-- What the delivery of an arrived message comes to: a port for the joined package, a receive queue else. -/
theorem State.deliverMessage_of_arrived :
    s.deliverMessage m.id =
      let s1 : State := { s with messages := s.messages.filter fun e => e.id != m.id }
      let k := s.core m.dst
      if m.dst = 128 then (if s.outLinkUp m.dir && s.portTakes m.dir 0 then s1.loadPort m.dir 0 else s)
      else s1.setCore m.dst { k with ring := k.ring.set (8 * m.dir + m.ch) (k.ring.getD (8 * m.dir + m.ch) [] ++ [m]) } := by
  obtain ⟨hfind, hwaiting, hheld, hwait, hfirst⟩ := h
  have hnone : (s.messages.any fun e => decide (e.id < m.id) && e.src == m.src && e.dst == m.dst && e.dir == m.dir) = false := by
    simpa [and_assoc] using hfirst
  rw [State.deliverMessage, hfind]
  simp only [hwaiting, hheld, hwait, hnone]
  rfl

theorem State.deliverMessage_queue (hdst : m.dst < 128) :
    let t := s.deliverMessage m.id
    t.messages = s.messages.filter (fun e => e.id != m.id) ∧
      (t.core m.dst).ring.getD (8 * m.dir + m.ch) [] = (s.core m.dst).ring.getD (8 * m.dir + m.ch) [] ++ [m] := by
  rw [State.deliverMessage_of_arrived h]
  dsimp only
  rw [if_neg (by omega)]
  exact ⟨rfl, by simp⟩

end

/-- A message whose path has no other on it has arrived once it has travelled its way. -/
theorem State.hasArrived_single {s : State} {m : RingMsg} (hm : s.messages = [m]) (hwaiting : m.waiting = false) (hheld : m.held = false)
    (hwait : m.wait = 0) : s.hasArrived m :=
  ⟨by simp [hm], hwaiting, hheld, hwait, by simp [hm]⟩

theorem State.outLinkUp_eq_true_iff {s : State} {dir : Nat} (hdir : dir < 2) :
    s.outLinkUp dir = true ↔ s.oper.rxcfg.getLsbD 0 = true ∧ s.oper.rxcfg.getLsbD (2 - dir) = true := by
  have hport : (if dir = 0 then 2 else 1) = 2 - dir := by
    split <;> omega
  rw [State.outLinkUp, hport, Bool.and_eq_true]
  rfl

theorem State.portTakes_eq_true_iff (s : State) (dir way : Nat) :
    s.portTakes dir way = true ↔ s.portLoad.getD (2 * dir + way) 0 < cycleTime s.oper.cur := decide_eq_true_iff

theorem State.returnCredit_arrived {s : State} {c dir ch : Nat} (h : ⟨c, dir, ch, 0⟩ ∈ s.credits) :
    let t := s.returnCredit c dir ch
    t.credits = s.credits.erase ⟨c, dir, ch, 0⟩ ∧ (t.core c).spent.getD (8 * dir + ch) 0 = (s.core c).spent.getD (8 * dir + ch) 0 - 1 := by
  rw [State.returnCredit, if_pos (List.contains_iff_mem.mpr h)]
  exact ⟨rfl, by simp⟩

/-! ### Containers (R381) -/

/-- A packet of the send buffer of an output. -/
def RingMsg.waitsFor (core dir : Nat) (m : RingMsg) : Bool := m.waiting && m.src == core && m.dir == dir

theorem RingMsg.waitsFor_iff (core dir : Nat) (m : RingMsg) :
    m.waitsFor core dir = true ↔ m.waiting = true ∧ m.src = core ∧ m.dir = dir := by
  simp [RingMsg.waitsFor, and_assoc]

/-- A message that a container has taken if it stood in the send buffer of its output. -/
def RingMsg.placed (core dir : Nat) (m : RingMsg) : RingMsg :=
  if m.waiting ∧ m.src = core ∧ m.dir = dir then { m with waiting := false } else m

theorem placePackets_none {core dir : Nat} (vd n : Nat) {ms : List RingMsg} (h : ms.filter (RingMsg.waitsFor core dir) = []) :
    placePackets core dir vd n ms = ms := by
  induction ms with
  | nil => rfl
  | cons e ms ih =>
    rw [List.filter_eq_nil_iff] at h
    have he : ¬ (e.waiting = true ∧ e.src = core ∧ e.dir = dir) := fun hc => h e (by simp) ((e.waitsFor_iff core dir).mpr hc)
    rw [placePackets, if_neg fun hc => he ⟨hc.2.1, hc.2.2.1, hc.2.2.2.1⟩,
      ih (List.filter_eq_nil_iff.mpr fun a ha => h a (List.mem_cons_of_mem _ ha))]

theorem map_placed_none {core dir : Nat} {ms : List RingMsg} (h : ms.filter (RingMsg.waitsFor core dir) = []) :
    ms.map (RingMsg.placed core dir) = ms := by
  rw [List.filter_eq_nil_iff] at h
  exact (List.map_congr_left fun e he => if_neg fun hc => h e he ((e.waitsFor_iff core dir).mpr hc)).trans (List.map_id ms)

/-- The one packet of a send buffer is placed where its device may place at least one. -/
theorem placePackets_single {core dir n : Nat} {m : RingMsg} {ms : List RingMsg} (hn : n ≠ 0) (h : ms.filter (RingMsg.waitsFor core dir) = [m]) :
    placePackets core dir m.vd n ms = ms.map (RingMsg.placed core dir) := by
  induction ms with
  | nil => cases h
  | cons e ms ih =>
    by_cases he : e.waitsFor core dir = true
    · rw [List.filter_cons_of_pos he, List.cons.injEq] at h
      obtain ⟨rfl, hrest⟩ := h
      have hc := (e.waitsFor_iff core dir).mp he
      rw [placePackets, if_pos ⟨hn, hc.1, hc.2.1, hc.2.2, rfl⟩, placePackets_none _ _ hrest, List.map_cons, map_placed_none hrest,
        RingMsg.placed, if_pos hc]
    · rw [List.filter_cons_of_neg he] at h
      have hc : ¬ (e.waiting = true ∧ e.src = core ∧ e.dir = dir) := fun hc => he ((e.waitsFor_iff core dir).mpr hc)
      rw [placePackets, if_neg fun hp => hc ⟨hp.2.1, hp.2.2.1, hp.2.2.2.1⟩, ih h, List.map_cons, RingMsg.placed, if_neg hc]

/-- A token drawn from a bucket that holds one. -/
theorem Arb.bucket_addTokens_neg_one {a : Arb} {key : Nat} (hlow : 1 ≤ a.bucket key) (hhigh : a.bucket key < 2 ^ 31) :
    (a.addTokens key (-1)).bucket key = a.bucket key - 1 := by
  change Table.getD (a.tok.set key _) key 0 = _
  rw [Table.getD_set_self, satCount]
  omega

/-- The container of the pavilion's own slot takes the packet of a device with a token, which it draws (R381). -/
theorem State.fillContainer_own {s : State} {arb slot free key : Nat} {m : RingMsg} {place : State → Nat → Nat → State}
    (howner : s.promenadeOwner slot = some (key / 128)) (hfree : 16 ≤ free) (htoken : 1 ≤ (s.arb arb).bucket key) :
    s.fillContainer arb slot free true [(key, m)] place = place (s.setArb arb ((s.arb arb).addTokens key (-1))) key (free / 16) := by
  have hroom : free / 16 ≠ 0 := by omega
  simp [State.fillContainer, howner, hroom, htoken]

theorem State.placePacket_own {s : State} {c dir p : Nat} {m : RingMsg} (hpav : s.pavOf c = some p)
    (howner : s.promenadeOwner (s.slotNow c dir) = some p) (hfree : 16 ≤ s.freeNow c dir false) (hvd : m.vd < 128)
    (hone : s.messages.filter (RingMsg.waitsFor c dir) = [m]) (htoken : 1 ≤ (s.arb (256 + 2 * c + dir)).bucket (128 * p + m.vd)) :
    s.placePacket c dir (s.slotNow c dir) (s.freeNow c dir false) =
      { s.setArb (256 + 2 * c + dir) ((s.arb (256 + 2 * c + dir)).addTokens (128 * p + m.vd) (-1)) with
        messages := s.messages.map (RingMsg.placed c dir) } := by
  have hm : m.waitsFor c dir = true := (List.mem_filter.mp (hone ▸ List.mem_singleton_self m)).2
  obtain ⟨-, hsrc, -⟩ := (m.waitsFor_iff c dir).mp hm
  have hkey : s.packetKey m = 128 * p + m.vd := by
    rw [State.packetKey, hsrc, hpav]
    rfl
  have hdiv : (128 * p + m.vd) / 128 = p := by omega
  have hmod : (128 * p + m.vd) % 128 = m.vd := by omega
  have hroom : s.freeNow c dir false / 16 ≠ 0 := by omega
  have hwaiting : (s.messages.filter fun e => e.waiting && e.src == c && e.dir == dir) = [m] := hone
  rw [State.placePacket, if_pos ⟨rfl, rfl⟩, hwaiting]
  dsimp only [List.map]
  rw [hkey, State.fillContainer_own (hdiv.symm ▸ howner) hfree htoken, hmod]
  exact congrArg (fun ms => { s.setArb _ _ with messages := ms }) (placePackets_single hroom hone)

theorem State.slotNow_first_die (s : State) {c : Nat} (h : c < 64) : s.slotNow c 0 = (s.clock + 1024 - 4 * c) % 1024 := by
  simp [State.slotNow, ringOffset, show ¬ 64 ≤ c by omega]

/-- A step that names another container than the one that leaves the core does nothing. -/
theorem State.placePacket_misnamed {s : State} {c dir slot : Nat} (free : Nat) (hc : c ≠ bridgeCore dir) (hslot : slot ≠ s.slotNow c dir) :
    s.placePacket c dir slot free = s := by
  rw [State.placePacket, if_neg fun h => hslot h.1, if_neg fun h => hc h.1]


/-! ### What comes in by a port (R12, R14, R369) -/

theorem cycleTime_pos (mode : Nat) : 0 < cycleTime mode := by
  unfold cycleTime
  split
  · decide
  · split <;> decide

/-- The loads of the ports when a cycle has passed, where it is the first of the package's (R14). -/
theorem State.portLoad_passTime (s : State) (core : Nat) :
    (s.passTime core).portLoad =
      if s.clock ≤ (s.core core).cycle then
        (s.portLoad.map fun e => (e.1, e.2 - cycleTime s.oper.cur)).filter fun e => decide (e.2 ≠ 0)
      else s.portLoad := apply_ite State.portLoad _ _ _

/-- A hop with room before a cycle has room after it. -/
theorem State.portLoad_passTime_lt {s : State} {k : Nat} (core : Nat) (h : ∀ e ∈ s.portLoad, e.1 = k → e.2 < cycleTime s.oper.cur) :
    (s.passTime core).portLoad.getD k 0 < cycleTime s.oper.cur := by
  have hall : ∀ e ∈ (s.passTime core).portLoad, e.1 = k → e.2 < cycleTime s.oper.cur := by
    rw [State.portLoad_passTime]
    split
    · intro e he hk
      obtain ⟨f, hf, rfl⟩ := List.mem_map.mp (List.mem_filter.mp he).1
      exact lt_of_le_of_lt (Nat.sub_le _ _) (h f hf hk)
    · exact h
  rw [Table.getD]
  cases hv : (s.passTime core).portLoad.find? k with
  | none => exact cycleTime_pos _
  | some v => exact hall _ (Table.mem_of_find? hv) rfl

/-- A hop that two cycles' time still fills has no room after one. -/
theorem State.le_portLoad_passTime {s : State} {k : Nat} (core : Nat) (h : 2 * cycleTime s.oper.cur ≤ s.portLoad.getD k 0) :
    cycleTime s.oper.cur ≤ (s.passTime core).portLoad.getD k 0 := by
  have hpos := cycleTime_pos s.oper.cur
  rw [State.portLoad_passTime]
  split
  · rw [Table.getD] at h ⊢
    cases hv : s.portLoad.find? k with
    | none =>
      rw [hv] at h
      change 2 * cycleTime s.oper.cur ≤ 0 at h
      omega
    | some v =>
      rw [hv] at h
      change 2 * cycleTime s.oper.cur ≤ v at h
      have hless : Table.find? (s.portLoad.map fun e => (e.1, e.2 - cycleTime s.oper.cur)) k = some (v - cycleTime s.oper.cur) := by
        rw [Table.find?_map s.portLoad (· - cycleTime s.oper.cur), hv]
        rfl
      rw [Table.find?_filter hless (by simp; omega)]
      change _ ≤ v - cycleTime s.oper.cur
      omega
  · omega

/-- At the next cycle of a core its ports stand as they do in another state: the same inputs and registers, the loads less the cycle, and the
same messages on their way (R12, R14). -/
structure State.PortsPass (s u : State) (core : Nat) : Prop where
  portIn : u.portIn = s.portIn
  oper : u.oper = s.oper
  pavs : u.pavs = s.pavs
  portLoad : u.portLoad = (s.passTime core).portLoad
  ids : u.messages.map RingMsg.id = s.messages.map RingMsg.id

theorem State.walkReclaims_eq (s : State) (t : Nat) : ∃ rs, s.walkReclaims t = { s with reclaims := rs } := by
  unfold State.walkReclaims
  split <;> exact ⟨_, rfl⟩

theorem State.passTime_eq (s : State) (core : Nat) : ∃ n ld, s.passTime core = { s with time := n, portLoad := ld } := by
  unfold State.passTime
  dsimp only
  split <;> exact ⟨_, _, rfl⟩

/-- What travels to a core comes a cycle nearer, and stays what it is. -/
theorem ids_after_travel (p : RingMsg → Prop) [DecidablePred p] (ms : List RingMsg) :
    (ms.map fun m => if p m then { m with wait := m.wait - 1 } else m).map RingMsg.id = ms.map RingMsg.id := by
  rw [List.map_map]
  exact List.map_congr_left fun m _ => by
    rw [Function.comp]
    split <;> rfl

/-- A cycle of a core ends with the core taking what has come in for it. -/
theorem State.passCycle_eq_takePorts (s : State) (core : Nat) : ∃ u, s.passCycle core = u.takePorts core ∧ s.PortsPass u core := by
  obtain ⟨n, ld, hpass⟩ := s.passTime_eq core
  have hload : (s.passTime core).portLoad = ld := by rw [hpass]
  unfold State.passCycle
  dsimp only
  split
  · obtain ⟨rs, hrs⟩ := State.walkReclaims_eq (State.setCore (s.passTime core) core _) (sliceOf core)
    rw [hrs, hpass]
    exact ⟨_, rfl, rfl, rfl, rfl, hload.symm, ids_after_travel _ _⟩
  · rw [hpass]
    exact ⟨_, rfl, rfl, rfl, rfl, hload.symm, ids_after_travel _ _⟩

theorem State.setArb_setArb (s : State) (n : Nat) (a b : Arb) : (s.setArb n a).setArb n b = s.setArb n b := by
  simp [State.setArb]

/-- The refill of an issue-slot arbiter changes that arbiter alone before the cycle of its core passes (R372). -/
theorem State.refill_eq_passCycle (s : State) {core : Nat} (h : core < 128) :
    ∃ a, s.refill core = (s.setArb core a).passCycle core := by
  unfold State.refill
  dsimp only
  rw [if_pos h]
  split
  · exact ⟨_, congrArg (State.passCycle · core) (State.setArb_setArb s core _ _)⟩
  · exact ⟨_, rfl⟩

/-- A refill of an issue-slot arbiter ends with its core taking what has come in for it. -/
theorem State.refill_eq_takePorts (s : State) {core : Nat} (h : core < 128) :
    ∃ u, s.refill core = u.takePorts core ∧ s.PortsPass u core := by
  obtain ⟨a, ha⟩ := s.refill_eq_passCycle h
  obtain ⟨u, hu, hpass⟩ := (s.setArb core a).passCycle_eq_takePorts core
  have hload : ((s.setArb core a).passTime core).portLoad = (s.passTime core).portLoad := by
    rw [State.portLoad_passTime, State.portLoad_passTime]
    rfl
  exact ⟨u, ha.trans hu, hpass.portIn, hpass.oper, hpass.pavs, hpass.portLoad.trans hload, hpass.ids⟩

theorem State.PortsPass.portGoal {s u : State} {core : Nat} (h : s.PortsPass u core) (p : PortInput) : u.portGoal p = s.portGoal p := by
  unfold State.portGoal State.pav
  rw [h.oper, h.pavs]

/-- The one input that waits at the ports is taken at a cycle of the core that it goes to. -/
theorem State.takePorts_single {s : State} {core : Nat} {p : PortInput} (hin : s.portIn = [p]) (hgoal : s.portGoal p = core) :
    s.takePorts core = ({ s with portIn := [] } : State).takePort p := by
  simp [State.takePorts, hin, hgoal]

theorem State.PortsPass.portTakes {s u : State} {core dir : Nat} (h : s.PortsPass u core)
    (hload : ∀ e ∈ s.portLoad, e.1 = 2 * dir + 1 → e.2 < cycleTime s.oper.cur) : u.portTakes dir 1 = true := by
  rw [State.portTakes_eq_true_iff, h.portLoad, h.oper]
  exact State.portLoad_passTime_lt core hload

theorem ringTime_from_port {c : Nat} (dir : Nat) (hc : c < 128) :
    ringTime 128 c dir = if dir = 0 then 4 * c + (if 64 ≤ c then 16 else 0) else 4 * (127 - c) + (if c ≤ 63 then 16 else 0) := by
  rw [ringTime, if_neg (by omega), if_neg (by omega), if_pos rfl, portTime]
  by_cases hdir : dir = 0 <;> simp [hdir]

theorem ringTime_to_port {c : Nat} (dir : Nat) (hc : c < 128) :
    ringTime c 128 dir = if dir = 0 then 4 * (127 - c) + (if c ≤ 63 then 16 else 0) else 4 * c + (if 64 ≤ c then 16 else 0) := by
  rw [ringTime, if_neg (by omega), if_pos rfl, portTime]
  by_cases hdir : dir = 0 <;> simp [hdir]


/-- A message that a port takes while the links are up is on its way to the core that its direction reaches first (R12, R369). -/
theorem State.takePort_message {s : State} {dir ch : Nat} {data : Word} {c : Nat} (hgoal : s.portGoal (.message dir ch data) = c)
    (hroom : s.portTakes dir 1 = true)
    (hup : (s.joined (bits s.oper.rxcfg 7 4) && bit s.oper.rxcfg (if dir = 0 then 1 else 2)) = true) :
    let t := s.takePort (.message dir ch data)
    t.portIn = s.portIn ∧ ∃ m ∈ t.messages, m.src = 128 ∧ m.dst = c ∧ m.dir = dir ∧ m.ch = ch ∧ m.data = data ∧ m.waiting = false ∧
      m.held = false ∧ m.wait = if ringTime 128 c dir = 0 then 0 else 1 + ringTime 128 c dir := by
  simp only [State.takePort, hroom, if_true, State.portEnters, State.portMessage, hup, hgoal]
  exact ⟨rfl, _, List.mem_append_right _ (List.mem_singleton_self _), rfl, rfl, rfl, rfl, rfl, rfl, rfl, rfl⟩

section
variable {s : State} {c dir ch : Nat} {data : Word} (hc : c < 128) (hin : s.portIn = [.message dir ch data])
  (hgoal : s.portGoal (.message dir ch data) = c)
include hc hin hgoal

/-- A message that has come in by a port whose link is up and whose hop has room enters at the next cycle of its core (R12, R14, R369). -/
theorem State.refill_takes_message (hdir : dir < 2) (hen : bit s.oper.rxcfg 0 = true) (hjen : bit s.oper.rxcfg 3 = true)
    (hlink : bit s.oper.rxcfg (1 + dir) = true) (hload : ∀ e ∈ s.portLoad, e.1 = 2 * dir + 1 → e.2 < cycleTime s.oper.cur) :
    (s.refill c).portIn = [] ∧ ∃ m ∈ (s.refill c).messages, m.src = 128 ∧ m.dst = c ∧ m.dir = dir ∧ m.ch = ch ∧ m.data = data ∧
      m.waiting = false ∧ m.held = false ∧ m.wait = if ringTime 128 c dir = 0 then 0 else 1 + ringTime 128 c dir := by
  obtain ⟨u, hu, hpass⟩ := s.refill_eq_takePorts hc
  have hgoal' : u.portGoal (.message dir ch data) = c := (hpass.portGoal _).trans hgoal
  have hport : (if dir = 0 then 1 else 2) = 1 + dir := by
    split <;> omega
  have hup : (u.joined (bits u.oper.rxcfg 7 4) && bit u.oper.rxcfg (if dir = 0 then 1 else 2)) = true := by
    simp [State.joined, hpass.oper, hport, hen, hjen, hlink]
  rw [hu, State.takePorts_single (hpass.portIn.trans hin) hgoal']
  exact State.takePort_message (s := { u with portIn := [] }) hgoal' (hpass.portTakes hload) hup

/-- A message that has come in by a port waits there where the hop has no room (R14). -/
theorem State.refill_holds_message (hload : 2 * cycleTime s.oper.cur ≤ s.portLoad.getD (2 * dir + 1) 0) :
    (s.refill c).portIn = s.portIn ∧ (s.refill c).messages.map RingMsg.id = s.messages.map RingMsg.id := by
  obtain ⟨u, hu, hpass⟩ := s.refill_eq_takePorts hc
  have hfull : ({ u with portIn := [] } : State).portTakes dir 1 ≠ true := by
    rw [ne_eq, State.portTakes_eq_true_iff, not_lt]
    change cycleTime u.oper.cur ≤ u.portLoad.getD (2 * dir + 1) 0
    rw [hpass.portLoad, hpass.oper]
    exact State.le_portLoad_passTime c hload
  rw [hu, State.takePorts_single (hpass.portIn.trans hin) ((hpass.portGoal _).trans hgoal), State.takePort, if_neg hfull]
  exact ⟨hin.symm, hpass.ids⟩

end

/-- A credit that has come in by a port is on its way to its sender at the next cycle of that core (R226, R369). -/
theorem State.refill_takes_credit {s : State} {c dir ch : Nat} (hc : c < 128) (hin : s.portIn = [.credit c dir ch]) :
    (s.refill c).portIn = [] ∧ ⟨c, dir, ch, ringTime c 128 dir⟩ ∈ (s.refill c).credits := by
  obtain ⟨u, hu, hpass⟩ := s.refill_eq_takePorts hc
  have hgoal : u.portGoal (.credit c dir ch) = c := rfl
  rw [hu, State.takePorts_single (hpass.portIn.trans hin) hgoal]
  exact ⟨rfl, List.mem_append_right _ (List.mem_singleton_self _)⟩

/-- The steps of the promenade (R12 to R14, R226, R369, R381). -/
theorem promenadeMessagesArrive : Spec.PromenadeMessagesArrive := by
  unfold Spec.PromenadeMessagesArrive
  intro s
  refine ⟨?_, ?_, ?_, ?_, ?_, ?_, ?_, ?_⟩
  · intro m hfind hwaiting hheld hwait hdst hfirst
    exact ⟨_, rfl, State.deliverMessage_queue ⟨hfind, hwaiting, hheld, hwait, hfirst⟩ hdst⟩
  · intro c dir ch h
    exact ⟨_, rfl, State.returnCredit_arrived h⟩
  · intro c dir m p slot free hpav howner hfree hvd hone n hlow hhigh
    refine ⟨_, congrArg Host.Outcome.next (State.placePacket_own hpav howner hfree hvd hone hlow), rfl, ?_⟩
    change ((s.setArb n _).arb n).bucket _ = _
    rw [State.arb_setArb, Arb.bucket_addTokens_neg_one hlow hhigh]
  · intro c slot free h0 h64 hslot
    refine congrArg Host.Outcome.next (State.placePacket_misnamed free ?_ ?_)
    · change c ≠ 127
      omega
    · rwa [State.slotNow_first_die s h64]
  · intro c dir ch data hc hdir hin hgoal hen hjen hlink hload
    obtain ⟨hnone, m, hm, hsrc, hdst, hmdir, hch, hdata, hwaiting, hheld, hwait⟩ :=
      State.refill_takes_message hc hin hgoal hdir hen hjen hlink hload
    exact ⟨_, m, rfl, hnone, hm, hsrc, hdst, hmdir, hch, hdata, hwaiting, hheld, ringTime_from_port dir hc ▸ hwait⟩
  · intro c dir ch data hc hdir hin hgoal hload
    exact ⟨_, rfl, State.refill_holds_message hc hin hgoal hload⟩
  · intro m hm hwaiting hheld hwait hdst hdir up room
    have hleave := State.deliverMessage_of_arrived (State.hasArrived_single hm hwaiting hheld hwait)
    dsimp only at hleave
    rw [if_pos hdst] at hleave
    have hopen : up ∧ room ↔ (s.outLinkUp m.dir && s.portTakes m.dir 0) = true := by
      rw [Bool.and_eq_true, State.outLinkUp_eq_true_iff hdir, State.portTakes_eq_true_iff]
      rfl
    rw [hopen]
    refine ⟨fun h => ?_, fun h => ?_⟩
    · refine ⟨_, congrArg Host.Outcome.next (hleave.trans (if_pos h)), ?_, Table.getD_set_self _ _ _ _⟩
      change s.messages.filter _ = []
      simp [hm]
    · exact congrArg Host.Outcome.next (hleave.trans (if_neg h))
  · intro c dir ch hc hdir hin
    obtain ⟨hnone, hmem⟩ := State.refill_takes_credit hc hin
    exact ⟨_, _, rfl, hnone, hmem, rfl, rfl, rfl, ringTime_to_port dir hc⟩

/-! ### The ring-extension ports (R357, R369) -/

theorem Oper.locked_eq_false {o : Oper} (hcmd : bit o.pcmd 15 = false) (hcal : bit o.calw 26 = false) (hreset : o.inReset = false) :
    o.locked = false := by
  simp [Oper.locked, hcmd, hcal, hreset]

theorem Oper.locked_of_command {o : Oper} (hcmd : bit o.pcmd 15 = true) : o.locked = true := by
  simp [Oper.locked, hcmd]

theorem Oper.runs_eq {o : Oper} (hcmd : bit o.pcmd 15 = true) (op : BitVec 3) : o.runs op.toNat = decide (o.pcmd.extractLsb' 0 3 = op) := by
  rw [Oper.runs, hcmd, Bool.true_and, bits_eq_toNat_extractLsb', Bool.eq_iff_iff, beq_iff_eq, decide_eq_true_iff, ← BitVec.toNat_inj]

theorem State.rxcfg_writeRxcfg {s : State} (x : Word) (hlocked : s.oper.locked = false) (hoff : s.someContextOn = false) :
    (s.writeRxcfg x).oper.rxcfg = (x &&& 0xF9) ||| (s.oper.rxcfg &&& ~~~0xF9) := by
  rw [State.writeRxcfg, if_neg (by simp [hlocked, hoff])]
  exact BitVec.or_comm _ _

/-- The upper half of a word set to a number, the lower half left. -/
theorem toNat_setBits_upper (w : Word) {n : Nat} (h : n < 2 ^ 32) :
    (setBits 0xFFFFFFFF00000000 w (BitVec.ofNat 64 (n * 2 ^ 32))).toNat = n * 2 ^ 32 + w.toNat % 2 ^ 32 := by
  have hmask : ∀ i < 64, (0xFFFFFFFF00000000 : Word).getLsbD i = decide (32 ≤ i) := by decide
  have hnew : BitVec.ofNat 64 (n * 2 ^ 32) &&& (0xFFFFFFFF00000000 : Word) = BitVec.ofNat 64 (n * 2 ^ 32) := by
    ext i hi
    rw [← BitVec.getLsbD_eq_getElem, ← BitVec.getLsbD_eq_getElem, BitVec.getLsbD_and, hmask i hi, BitVec.getLsbD_ofNat, Nat.testBit_mul_two_pow]
    by_cases h32 : 32 ≤ i <;> simp [h32]
  have hlow : (w &&& ~~~(0xFFFFFFFF00000000 : Word)).toNat = w.toNat % 2 ^ 32 := Nat.and_two_pow_sub_one_eq_mod w.toNat 32
  rw [setBits, hnew, BitVec.toNat_or, hlow, BitVec.toNat_ofNat, Nat.mod_eq_of_lt (show n * 2 ^ 32 < 2 ^ 64 by omega), Nat.or_comm,
    ← Nat.shiftLeft_eq, ← Nat.shiftLeft_add_eq_or_of_lt (Nat.mod_lt _ (by decide))]

/-- A count of replays that has not saturated goes up by 1 (R369). -/
theorem Oper.rxcfg_replay {o : Oper} {port : Nat} (hport : port < 2) (hen : bit o.rxcfg 0 = true) (hup : bit o.rxcfg (1 + port) = true)
    (hcount : (o.rxcfg.extractLsb' 32 32).toNat < 2 ^ 32 - 1) : (o.replay port).rxcfg = o.rxcfg + 0x100000000 := by
  have hon : (bit o.rxcfg 0 && bit o.rxcfg (1 + port % 2)) = true := by
    rw [Nat.mod_eq_of_lt hport, hen, hup, Bool.and_self]
  have hbits : bits o.rxcfg 63 32 = o.rxcfg.toNat / 2 ^ 32 := by
    have hlt := o.rxcfg.isLt
    rw [bits, Nat.shiftRight_eq_div_pow]
    omega
  rw [← bits_eq_toNat_extractLsb' o.rxcfg 63 32, hbits] at hcount
  rw [Oper.replay, if_pos hon]
  dsimp only
  rw [hbits, Nat.min_eq_left (by omega)]
  apply BitVec.eq_of_toNat_eq
  have hone : (0x100000000 : Word).toNat = 2 ^ 32 := by decide
  rw [toNat_setBits_upper _ (by omega), BitVec.toNat_add, hone]
  omega

theorem Oper.link_port {o : Oper} {port : Nat} (up joined : Bool) (hport : port < 2) :
    (o.link port up joined).rxcfg.getLsbD (1 + port) = up ∧
      (if port = 0 then (o.link port up joined).far0 else (o.link port up joined).far1) = joined := by
  have hbit : (putBit o.rxcfg (1 + port) up).getLsbD (1 + port) = up := getLsbD_putBit_self _ (by omega) up
  rw [Oper.link, Nat.mod_eq_of_lt hport]
  dsimp only
  split <;> exact ⟨hbit, rfl⟩

/-! ### The calendar of the promenade (R380, R432) -/

/-- A write of CALW while a command other than a resize is in progress is ignored. -/
theorem State.writeCalw_in_command {s : State} (x : Word) (hcmd : bit s.oper.pcmd 15 = true) (hother : s.oper.pcmd.extractLsb' 0 3 ≠ 2) :
    s.writeCalw x = s := by
  have hruns : s.oper.runs 2 = false := (Oper.runs_eq hcmd 2).trans (decide_eq_false hother)
  simp [State.writeCalw, Oper.locked_of_command hcmd, hruns]

/-- A write of CALW in a resize waits behind it, and is ignored where another one waits (R432; log 20). -/
theorem State.writeCalw_in_resize {s : State} (x : Word) (hcmd : bit s.oper.pcmd 15 = true) (hop : s.oper.pcmd.extractLsb' 0 3 = 2)
    (hcal : bit s.oper.calw 26 = false) (hreset : s.oper.inReset = false) :
    s.writeCalw x = if s.oper.calwHeld.isNone then { s with oper := { s.oper with calwHeld := some x } } else s := by
  have hruns : s.oper.runs 2 = true := (Oper.runs_eq hcmd 2).trans (decide_eq_true hop)
  rw [State.writeCalw, if_pos (Oper.locked_of_command hcmd), hruns, hcal, hreset]
  rfl

/-- A write of CALW names no range, or a pavilion that is not formed (R380). -/
def State.calwBad (s : State) (x : Word) : Prop :=
  (x.extractLsb' 10 11).toNat = 0 ∨ 1024 < (x.extractLsb' 10 11).toNat ∨
    (x.getLsbD 25 = false ∧ (s.pav (x.extractLsb' 21 4).toNat).formed = false)

/-- A write of CALW would leave the devices of a pavilion with more RATE than indices (R380). -/
def State.calwShort (s : State) (x : Word) : Prop :=
  ∃ p ∈ s.pavs, ((calendarAfter x s.oper.calendar).filter fun e => e.2 == p.1).length < s.promRates p.1

theorem State.calwBad_iff (s : State) (x : Word) :
    (bits x 20 10 = 0 ∨ bits x 20 10 > 1024 ∨ (!bit x 25) = true ∧ (!(s.pav (bits x 24 21)).formed) = true) ↔ s.calwBad x := by
  rw [State.calwBad, bits_eq_toNat_extractLsb' x 20 10, bits_eq_toNat_extractLsb' x 24 21, Bool.not_eq_true', Bool.not_eq_true']
  rfl

theorem State.calwShort_iff (s : State) (x : Word) :
    (s.pavs.any fun p => decide (((calendarAfter x s.oper.calendar).filter fun e => e.2 == p.1).length < s.promRates p.1)) = true ↔
      s.calwShort x := by
  simp only [List.any_eq_true, decide_eq_true_iff, State.calwShort]

/-- CALW with the fields of a write and what the package adds to them. -/
def State.withCalw (s : State) (x added : Word) : State := { s with oper := { s.oper with calw := (x &&& 0x3FFFFFF) ||| added } }

section
variable {s : State} {x : Word} (hlocked : s.oper.locked = false)
include hlocked

theorem State.writeCalw_without_go (hgo : bit x 26 = false) : s.writeCalw x = s.withCalw x (s.oper.calw &&& 0x78000000) := by
  rw [State.writeCalw, if_neg (by simp [hlocked])]
  dsimp only
  rw [if_pos (by simp [hgo])]
  rfl

variable (hgo : bit x 26 = true)
include hgo

/-- The checks of a write of CALW with GO, in their order (R380). -/
theorem State.writeCalw_with_go [Decidable (s.calwBad x)] [Decidable (s.calwShort x)] :
    s.writeCalw x = s.withCalw x (if s.calwBad x then 0x8000000 else if s.calwShort x then 0x28000000 else 0x4000000) := by
  rw [State.writeCalw, if_neg (by simp [hlocked])]
  dsimp only
  rw [if_neg (by simp [hgo])]
  simp only [State.calwBad_iff, State.calwShort_iff]
  split
  · rfl
  · split <;> rfl

theorem State.writeCalw_bad (hbad : s.calwBad x) : s.writeCalw x = s.withCalw x 0x8000000 := by
  classical
  rw [State.writeCalw_with_go hlocked hgo, if_pos hbad]

theorem State.writeCalw_short (hok : ¬ s.calwBad x) (hshort : s.calwShort x) : s.writeCalw x = s.withCalw x 0x28000000 := by
  classical
  rw [State.writeCalw_with_go hlocked hgo, if_neg hok, if_pos hshort]

theorem State.writeCalw_accepted (hok : ¬ s.calwBad x) (hroom : ¬ s.calwShort x) : s.writeCalw x = s.withCalw x 0x4000000 := by
  classical
  rw [State.writeCalw_with_go hlocked hgo, if_neg hok, if_neg hroom]

end

/-- Whatever a write of CALW finds, it leaves the calendar. -/
theorem State.writeCalw_calendar (s : State) (x : Word) : (s.writeCalw x).oper.calendar = s.oper.calendar := by
  unfold State.writeCalw
  dsimp only
  repeat' split
  all_goals rfl

/-- RESULT of CALW is what the package adds. -/
theorem calw_result (x added : Word) : ((x &&& 0x3FFFFFF) ||| added).extractLsb' 27 4 = added.extractLsb' 27 4 := by
  have hmask : (0x3FFFFFF : Word).extractLsb' 27 4 = 0#4 := by decide
  rw [BitVec.extractLsb'_or, BitVec.extractLsb'_and, hmask, BitVec.and_zero, BitVec.zero_or]

/-- GO of CALW is what the package adds. -/
theorem calw_go (x added : Word) : ((x &&& 0x3FFFFFF) ||| added).getLsbD 26 = added.getLsbD 26 := by
  have hmask : (0x3FFFFFF : Word).getLsbD 26 = false := by decide
  rw [BitVec.getLsbD_or, BitVec.getLsbD_and, hmask, Bool.and_false, Bool.false_or]

/-- The fields of CALW are those of the write. -/
theorem calw_fields (x w : Word) : ((x &&& 0x3FFFFFF) ||| (w &&& 0x78000000)).extractLsb' 0 26 = x.extractLsb' 0 26 := by
  have hmask : (0x3FFFFFF : Word).extractLsb' 0 26 = BitVec.allOnes 26 := by decide
  have hadded : (0x78000000 : Word).extractLsb' 0 26 = 0#26 := by decide
  rw [BitVec.extractLsb'_or, BitVec.extractLsb'_and, BitVec.extractLsb'_and, hmask, hadded, BitVec.and_allOnes, BitVec.and_zero,
    BitVec.or_zero]

/-- What a write of CALW gives an index of its range: its pavilion, or none. -/
def calendarEntry (x : Word) : Option Nat := if bit x 25 then none else some (bits x 24 21)

/-- One index of the calendar given as a write of CALW says. -/
def calendarGive (x : Word) (t : Table Nat) (j : Nat) : Table Nat := if bit x 25 then t.erase j else t.set j (bits x 24 21)

theorem find?_calendarGive (x : Word) (t : Table Nat) (j k : Nat) :
    (calendarGive x t j).find? k = if j = k then calendarEntry x else t.find? k := by
  unfold calendarGive calendarEntry
  by_cases hk : j = k
  · subst hk
    split <;> simp
  · rw [if_neg hk]
    split
    · exact Table.find?_erase_ne t (Ne.symm hk)
    · exact Table.find?_set_ne t (Ne.symm hk) _

theorem find?_foldl_calendarGive (x : Word) (js : List Nat) (t : Table Nat) (k : Nat) :
    (js.foldl (calendarGive x) t).find? k = if k ∈ js then calendarEntry x else t.find? k := by
  induction js generalizing t with
  | nil => simp
  | cons j js ih =>
    rw [List.foldl_cons, ih, find?_calendarGive]
    by_cases hj : k = j <;> simp [hj, eq_comm (a := j)]

/-- The calendar after a write of CALW: the indices of its range are its pavilion's or nobody's, the others as before (R380). -/
theorem find?_calendarAfter (x : Word) (cal : Table Nat) (k : Nat) :
    (calendarAfter x cal).find? k =
      if k ∈ (List.range (bits x 20 10)).map (fun i => (bits x 9 0 + i) % 1024) then calendarEntry x else cal.find? k := by
  rw [← find?_foldl_calendarGive, List.foldl_map]
  rfl

/-- The calendar of a write of CALW that takes effect, by the fields of the register (R380). -/
theorem State.applyCalw_of_revolution {s : State} (hgo : bit s.oper.calw 26 = true) (hstart : s.clock % 1024 = 0) :
    s.applyCalw = { s with oper := { s.oper with
      calendar := calendarAfter s.oper.calw s.oper.calendar, calw := s.oper.calw &&& 0x3FFFFFF } } := if_pos ⟨hgo, hstart⟩

/-- The registers of the ports and of the calendar (R357, R369, R380, R432). -/
theorem portsAndCalendarAreWritten : Spec.PortsAndCalendarAreWritten := by
  unfold Spec.PortsAndCalendarAreWritten
  intro s
  refine ⟨?_, ?_, ?_, ?_, ?_, ?_, ?_, ?_⟩
  · intro x hoff hcmd hcal hreset
    exact ⟨_, rfl, State.rxcfg_writeRxcfg x (Oper.locked_eq_false hcmd hcal hreset) hoff⟩
  · intro port hport hen hup hcount
    exact ⟨_, rfl, Oper.rxcfg_replay hport hen hup hcount⟩
  · intro port up joined hport
    exact ⟨_, rfl, Oper.link_port up joined hport⟩
  · intro x hcmd hother
    exact congrArg Host.Outcome.next (State.writeCalw_in_command x hcmd hother)
  · intro x hcmd hop hcal hreset
    have hwrite := State.writeCalw_in_resize x hcmd hop hcal hreset
    exact ⟨fun hnone => congrArg Host.Outcome.next (hwrite.trans (if_pos (by simp [hnone]))),
      fun y hsome => congrArg Host.Outcome.next (hwrite.trans (if_neg (by simp [hsome])))⟩
  · intro x hcmd hcal hreset count bad short
    have hlocked := Oper.locked_eq_false hcmd hcal hreset
    refine ⟨_, rfl, s.writeCalw_calendar x, fun hgo hok hroom => ?_, fun hgo hbad => ?_, fun hgo hok hshort => ?_, fun hgo => ?_⟩
    · rw [State.writeCalw_accepted hlocked hgo hok hroom]
      rfl
    · rw [State.writeCalw_bad hlocked hgo hbad]
      exact ⟨calw_result x _, calw_go x _⟩
    · rw [State.writeCalw_short hlocked hgo hok hshort]
      exact ⟨calw_result x _, calw_go x _⟩
    · rw [State.writeCalw_without_go hlocked hgo]
      refine ⟨calw_fields x _, (calw_go x _).trans ?_⟩
      rw [BitVec.getLsbD_and]
      exact Bool.and_false _
  · intro _ hstart
    exact congrArg Host.Outcome.next (if_neg fun h => hstart h.2)
  · intro hgo hstart w inside
    have hinside : ∀ j, inside j ↔ j ∈ (List.range (bits w 20 10)).map (fun i => (bits w 9 0 + i) % 1024) := by
      intro j
      simp only [List.mem_map, List.mem_range, bits_eq_toNat_extractLsb' w 20 10, bits_eq_toNat_extractLsb' w 9 0, eq_comm (b := j)]
      rfl
    have hentry : calendarEntry w = if w.getLsbD 25 then none else some (w.extractLsb' 21 4).toNat := by
      rw [calendarEntry, bits_eq_toNat_extractLsb' w 24 21]
      rfl
    refine ⟨_, congrArg Host.Outcome.next (State.applyCalw_of_revolution hgo hstart), ?_, fun j => ?_⟩
    · exact (BitVec.getLsbD_and ..).trans (Bool.and_false _)
    · rw [hinside, ← hentry]
      exact ⟨fun h => (find?_calendarAfter w _ j).trans (if_pos h), fun h => (find?_calendarAfter w _ j).trans (if_neg h)⟩

/-- Settles O50: the promenade, its ports and its calendar. -/
theorem promenadePortsAndCalendarAct : Obligations.PromenadePortsAndCalendarAct := by
  unfold Obligations.PromenadePortsAndCalendarAct
  exact ⟨promenadeMessagesArrive, portsAndCalendarAreWritten⟩

end Sys2Proof.Machine

/-! # Encoded rows decode to themselves (O15) -/

namespace Sys2Proof

/-! ### Sources (R79) -/

theorem Src.wf_reg {f : RFile} {n : Nat} : (Src.reg f n).wf = true ↔ n < f.codes := decide_eq_true_iff

theorem Src.wf_reserved {c : Nat} : (Src.reserved c).wf = true ↔
    (0x0B0 ≤ c ∧ c < 0x0C0) ∨ (0x196 ≤ c ∧ c < 0x1C0) ∨ (0x1D4 ≤ c ∧ c < 0x1E0) ∨ (0x1E3 ≤ c ∧ c < 0x200) := by
  simp [Src.wf, reservedSrc, or_assoc]

theorem Src.encode_lt {x : Src} (h : x.wf = true) : encodeSrc x < 0x200 := by
  cases x with
  | reg f n =>
    rw [Src.wf_reg] at h
    cases f <;> simp only [RFile.codes] at h <;> simp only [encodeSrc] <;> omega
  | short i => simp only [encodeSrc]; omega
  | res u => cases u <;> decide
  | imms n | immz n | immw n => simp [Src.wf, encodeSrc] at h ⊢; omega
  | reserved c =>
    rw [Src.wf_reserved] at h
    simp only [encodeSrc]
    omega
  | pc | ident | lane => decide

theorem unitOfNum_eq_none {n : Nat} (h : 22 ≤ n) : unitOfNum n = none := List.getElem?_eq_none h

/-- A code names the source that it encodes (R79). -/
theorem decodeSrc_encodeSrc {x : Src} (h : x.wf = true) : decodeSrc (encodeSrc x) = x := by
  obtain ⟨c, hc⟩ : ∃ c, c = encodeSrc x := ⟨_, rfl⟩
  rw [← hc]
  cases x with
  | reg f n =>
    rw [Src.wf_reg] at h
    cases f <;> simp only [RFile.codes] at h <;> simp only [encodeSrc] at hc <;>
      simp (disch := omega) only [decodeSrc, if_pos, if_neg] <;> exact congrArg _ (by omega)
  | short i =>
    have hi := i.isLt
    simp only [encodeSrc] at hc
    simp (disch := omega) only [decodeSrc, if_pos, if_neg]
    refine congrArg _ (BitVec.eq_of_toNat_eq ?_)
    rw [BitVec.toNat_ofNat]
    omega
  | res u => cases u <;> subst hc <;> rfl
  | imms n | immz n =>
    simp only [Src.wf, decide_eq_true_eq] at h
    simp only [encodeSrc] at hc
    simp (disch := omega) only [decodeSrc, if_pos, if_neg]
    exact congrArg _ (by omega)
  | immw n =>
    have hn : n = 0 ∨ n = 2 ∨ n = 4 ∨ n = 6 := by simpa [Src.wf, or_assoc] using h
    obtain rfl | rfl | rfl | rfl := hn <;> subst hc <;> rfl
  | reserved d =>
    obtain rfl : c = d := hc
    obtain hd | hd | hd | hd := Src.wf_reserved.mp h <;> simp (disch := omega) only [decodeSrc, if_pos, if_neg]
    rw [unitOfNum_eq_none (by omega)]
  | pc | ident | lane => subst hc; rfl

/-! ### Destinations (R81 to R83) -/

theorem UnitId.block_fits (u : UnitId) : 0x100 ≤ u.base ∧ u.base + u.blockSize ≤ 0x200 ∧ 16 + (opsOf u.kind).length ≤ u.blockSize := by
  cases u <;> decide

/-- The block of a unit holds the unit's codes (R82). -/
theorem findBlock_of_mem {u : UnitId} {c : Nat} (h : u.base ≤ c) (h' : c < u.base + u.blockSize) :
    findBlock c (unitBlocks u.bus) = some (u, c - u.base) := by
  cases u <;> simp only [UnitId.base, UnitId.blockSize, UnitId.kind] at h h' <;>
    simp (disch := omega) only [UnitId.bus, unitBlocks, UnitId.base, findBlock, if_pos, if_neg]

/-- A block that holds a code is that of a unit of the bus class, and the code is one of it (R82). -/
theorem eq_base_of_findBlock {bus : Bus} {c : Nat} {u : UnitId} {off : Nat} (h : findBlock c (unitBlocks bus) = some (u, off)) :
    c = u.base + off := by
  cases bus <;> simp only [unitBlocks, findBlock] at h <;> split_ifs at h <;> cases h <;> simp only [UnitId.base] <;> omega

theorem decodeDst_of_mem {u : UnitId} {c : Nat} (h : u.base ≤ c) (h' : c < u.base + u.blockSize) :
    decodeDst u.bus c = decodePort u (c - u.base) := by
  have hu := u.block_fits
  have hf := findBlock_of_mem h h'
  simp (disch := omega) only [decodeDst, if_neg, hf]

theorem position_eq_idxOf {α : Type} [DecidableEq α] (x : α) (xs : List α) : position x xs = xs.idxOf x := by
  induction xs with
  | nil => rfl
  | cons y ys ih => simp [position, List.idxOf_cons, ih, beq_iff_eq, Bool.cond_eq_ite]

theorem getElem?_position {α : Type} [DecidableEq α] {x : α} {xs : List α} (h : x ∈ xs) : xs[position x xs]? = some x := by
  rw [position_eq_idxOf]
  exact List.getElem?_idxOf h

theorem position_lt_length {α : Type} [DecidableEq α] {x : α} {xs : List α} (h : x ∈ xs) : position x xs < xs.length := by
  rw [position_eq_idxOf]
  exact List.idxOf_lt_length_of_mem h

theorem Dst.wf_reserved {bus : Bus} {c : Nat} (h : (Dst.reserved c).wf bus = true) :
    (0xC0 ≤ c ∧ c < 0x100) ∨ (0x100 ≤ c ∧ c < 0x200 ∧
      ∀ u off, findBlock c (unitBlocks bus) = some (u, off) → 10 ≤ off ∧ off < 16) := by
  simp only [Dst.wf, reservedDst, Bool.or_eq_true, Bool.and_eq_true, decide_eq_true_eq] at h
  refine h.imp id fun ⟨⟨h1, h2⟩, h3⟩ => ⟨h1, h2, fun u off e => ?_⟩
  simpa [e] using h3

theorem Dst.encode_lt {bus : Bus} {d : Dst} (h : d.wf bus = true) : encodeDst d < 0x200 := by
  cases d with
  | null => decide
  | nop n =>
    simp only [Dst.wf, decide_eq_true_eq] at h
    simp only [encodeDst]
    omega
  | reg f n =>
    obtain ⟨hf, hn⟩ : f ≠ .p ∧ n < f.codes := by simpa [Dst.wf] using h
    cases f <;> simp only [RFile.codes] at hn <;> simp only [encodeDst] <;> omega
  | latch u i | latchRef u i | latchStep u i =>
    obtain ⟨-, h1, h3⟩ : u.bus = bus ∧ 1 ≤ i ∧ i ≤ 3 := by simpa [Dst.wf] using h
    have hu := u.block_fits
    simp only [encodeDst]
    omega
  | sel u =>
    have hu := u.block_fits
    simp only [encodeDst]
    omega
  | trig u op =>
    obtain ⟨-, hop⟩ : u.bus = bus ∧ op ∈ opsOf u.kind := by simpa [Dst.wf] using h
    have hu := u.block_fits
    have hlt := position_lt_length hop
    simp only [encodeDst]
    omega
  | unassigned u off =>
    obtain ⟨-, -, h2⟩ : u.bus = bus ∧ 16 + (opsOf u.kind).length ≤ off ∧ off < u.blockSize := by simpa [Dst.wf] using h
    have hu := u.block_fits
    simp only [encodeDst]
    omega
  | reserved c =>
    have hc := Dst.wf_reserved h
    simp only [encodeDst]
    omega

/-- On its bus class a code names the destination that it encodes (R81 to R83). -/
theorem decodeDst_encodeDst {bus : Bus} {d : Dst} (h : d.wf bus = true) : decodeDst bus (encodeDst d) = d := by
  obtain ⟨c, hc⟩ : ∃ c, c = encodeDst d := ⟨_, rfl⟩
  rw [← hc]
  cases d with
  | null => subst hc; rfl
  | nop n =>
    obtain rfl : c = n := hc
    simp only [Dst.wf, decide_eq_true_eq] at h
    simp (disch := omega) only [decodeDst, if_pos, if_neg]
  | reg f n =>
    obtain ⟨hf, hn⟩ : f ≠ .p ∧ n < f.codes := by simpa [Dst.wf] using h
    cases f <;> simp only [RFile.codes, ne_eq, not_true_eq_false] at hf hn <;> simp only [encodeDst] at hc <;>
      simp (disch := omega) only [decodeDst, if_pos, if_neg] <;> exact congrArg _ (by omega)
  | latch u i | latchRef u i | latchStep u i =>
    obtain ⟨rfl, h1, h3⟩ : u.bus = bus ∧ 1 ≤ i ∧ i ≤ 3 := by simpa [Dst.wf] using h
    have hu := u.block_fits
    simp only [encodeDst] at hc
    rw [decodeDst_of_mem (by omega) (by omega)]
    simp (disch := omega) only [decodePort, if_pos, if_neg]
    exact congrArg _ (by omega)
  | sel u =>
    obtain rfl : u.bus = bus := by simpa [Dst.wf] using h
    have hu := u.block_fits
    simp only [encodeDst] at hc
    rw [decodeDst_of_mem (by omega) (by omega), show c - u.base = 9 by omega]
    rfl
  | trig u op =>
    obtain ⟨rfl, hop⟩ : u.bus = bus ∧ op ∈ opsOf u.kind := by simpa [Dst.wf] using h
    have hu := u.block_fits
    have hlt := position_lt_length hop
    simp only [encodeDst] at hc
    rw [decodeDst_of_mem (by omega) (by omega)]
    simp (disch := omega) only [decodePort, if_neg]
    rw [show c - u.base - 16 = position op (opsOf u.kind) by omega, getElem?_position hop]
  | unassigned u off =>
    obtain ⟨rfl, h1, h2⟩ : u.bus = bus ∧ 16 + (opsOf u.kind).length ≤ off ∧ off < u.blockSize := by simpa [Dst.wf] using h
    have hu := u.block_fits
    simp only [encodeDst] at hc
    rw [decodeDst_of_mem (by omega) (by omega), show c - u.base = off by omega]
    simp (disch := omega) only [decodePort, if_neg, List.getElem?_eq_none]
  | reserved d =>
    obtain rfl : c = d := hc
    obtain ⟨h1, h2⟩ | ⟨h1, h2, h3⟩ := Dst.wf_reserved h
    · simp (disch := omega) only [decodeDst, if_pos, if_neg]
    · simp (disch := omega) only [decodeDst, if_neg]
      cases hf : findBlock c (unitBlocks bus) with
      | none => rfl
      | some e =>
        obtain ⟨u, off⟩ := e
        obtain ⟨h4, h5⟩ := h3 u off hf
        simp (disch := omega) only [decodePort, if_pos, if_neg]
        rw [eq_base_of_findBlock hf]

/-! ### Items and bundles (R74, R76) -/

theorem bits_eq_div_mod {n : Nat} (x : BitVec n) (hi lo : Nat) : bits x hi lo = x.toNat / 2 ^ lo % 2 ^ (hi + 1 - lo) := by
  rw [bits, Nat.shiftRight_eq_div_pow]

theorem Item.encode_lt {slot : Nat} {it : Item} (h : it.wf slot = true) : encodeItem it < 2 ^ 24 := by
  cases it with
  | imm v => simp only [encodeItem]; omega
  | move g s b src dst =>
    obtain ⟨⟨-, hsrc⟩, hdst⟩ : (g ≠ 8 ∧ src.wf = true) ∧ dst.wf (slotBus slot) = true := by simpa [Item.wf] using h
    have h1 := Src.encode_lt hsrc
    have h2 := Dst.encode_lt hdst
    have hg := g.isLt
    have hs : b2n s ≤ 1 := by cases s <;> decide
    have hb : b2n b ≤ 1 := by cases b <;> decide
    simp only [encodeItem]
    omega

/-- The five fields of a transport move stand apart in its 24 bits (R76). -/
theorem decodeItem_fields {slot g c d : Nat} {s b : Bool} (hg : g < 16) (hg8 : g ≠ 8) (hc : c < 0x200) (hd : d < 0x200) :
    decodeItem slot (BitVec.ofNat 24 (g * 2 ^ 20 + b2n s * 2 ^ 19 + b2n b * 2 ^ 18 + c * 2 ^ 9 + d)) =
      .move (BitVec.ofNat 4 g) s b (decodeSrc c) (decodeDst (slotBus slot) d) := by
  obtain ⟨w, hw⟩ : ∃ w, w = g * 2 ^ 20 + b2n s * 2 ^ 19 + b2n b * 2 ^ 18 + c * 2 ^ 9 + d := ⟨_, rfl⟩
  have hs : b2n s ≤ 1 := by cases s <;> decide
  have hb : b2n b ≤ 1 := by cases b <;> decide
  have hmod : (BitVec.ofNat 24 w).toNat = w := by rw [BitVec.toNat_ofNat, Nat.mod_eq_of_lt (by omega)]
  have hbit (t : Bool) (i : Nat) (ht : w / 2 ^ i % 2 = b2n t) : bit (BitVec.ofNat 24 w) i = t := by
    rw [bit, BitVec.getLsbD, hmod, Nat.testBit_eq_decide_div_mod_eq, ht]
    cases t <;> rfl
  rw [← hw, decodeItem, hbit s 19 (by omega), hbit b 18 (by omega)]
  simp only [bits_eq_div_mod, hmod]
  rw [show w / 2 ^ 20 % 2 ^ (23 + 1 - 20) = g by omega, show w / 2 ^ 9 % 2 ^ (17 + 1 - 9) = c by omega,
    show w / 2 ^ 0 % 2 ^ (8 + 1 - 0) = d by omega, if_neg hg8]

/-- The 24 bits of an item stand for it in its slot (R76). -/
theorem decodeItem_encodeItem {slot : Nat} {it : Item} (h : it.wf slot = true) :
    decodeItem slot (BitVec.ofNat 24 (encodeItem it)) = it := by
  cases it with
  | imm v =>
    have hv := v.isLt
    have hmod : (BitVec.ofNat 24 (8 * 2 ^ 20 + v.toNat)).toNat = 8 * 2 ^ 20 + v.toNat := by
      rw [BitVec.toNat_ofNat, Nat.mod_eq_of_lt (by omega)]
    rw [encodeItem, decodeItem, bits_eq_div_mod, hmod, if_pos (by omega)]
    refine congrArg _ (BitVec.eq_of_toNat_eq ?_)
    rw [BitVec.toNat_ofNat]
    omega
  | move g s b src dst =>
    obtain ⟨⟨hg, hsrc⟩, hdst⟩ : (g ≠ 8 ∧ src.wf = true) ∧ dst.wf (slotBus slot) = true := by simpa [Item.wf] using h
    have hg8 : g.toNat ≠ 8 := fun e => hg (BitVec.eq_of_toNat_eq e)
    rw [encodeItem, decodeItem_fields g.isLt hg8 (Src.encode_lt hsrc) (Dst.encode_lt hdst), decodeSrc_encodeSrc hsrc,
      decodeDst_encodeDst hdst, BitVec.ofNat_toNat, BitVec.setWidth_eq]

/-- The slots of a bundle word are its items (R74): those from a slot on, where the word holds them from there on. -/
theorem decodeSlots_of_shift {w slot : Nat} {items : List Item} (hw : w >>> (24 * slot) = encodeSlots items)
    (h : itemsWf slot items = true) : decodeSlots w slot items.length = items := by
  induction items generalizing slot with
  | nil => rfl
  | cons it rest ih =>
    obtain ⟨hit, hrest⟩ : it.wf slot = true ∧ itemsWf (slot + 1) rest = true := by simpa [itemsWf] using h
    have hlt := Item.encode_lt hit
    rw [encodeSlots] at hw
    rw [List.length_cons, decodeSlots, hw]
    congr 1
    · have hlow : (BitVec.ofNat 24 (encodeItem it + 2 ^ 24 * encodeSlots rest)) = BitVec.ofNat 24 (encodeItem it) := by
        apply BitVec.eq_of_toNat_eq
        rw [BitVec.toNat_ofNat, BitVec.toNat_ofNat, Nat.add_mul_mod_self_left]
      rw [hlow, decodeItem_encodeItem hit]
    · refine ih ?_ hrest
      rw [Nat.mul_succ, Nat.shiftRight_add, hw, Nat.shiftRight_eq_div_pow, Nat.add_mul_div_left _ _ (by decide),
        Nat.div_eq_of_lt hlt, Nat.zero_add]

theorem encodeSlots_lt {slot : Nat} {items : List Item} (h : itemsWf slot items = true) :
    encodeSlots items < 2 ^ (24 * items.length) := by
  induction items generalizing slot with
  | nil => decide
  | cons it rest ih =>
    obtain ⟨hit, hrest⟩ : it.wf slot = true ∧ itemsWf (slot + 1) rest = true := by simpa [itemsWf] using h
    have h1 := Item.encode_lt hit
    have h2 := ih hrest
    rw [encodeSlots, List.length_cons, Nat.mul_succ, Nat.pow_add, Nat.mul_comm (2 ^ _)]
    omega

@[simp] theorem length_leBytes (n x : Nat) : (leBytes n x).length = n := by
  induction n generalizing x with
  | zero => rfl
  | succ n ih => rw [leBytes, List.length_cons, ih]

theorem leNat_leBytes {n x : Nat} (h : x < 256 ^ n) : leNat (leBytes n x) = x := by
  induction n generalizing x with
  | zero => rw [leBytes, leNat]; omega
  | succ n ih =>
    rw [leBytes, leNat, ih (by rw [Nat.pow_succ] at h; omega), BitVec.toNat_ofNat]
    omega

/-- The 24 bytes of a bundle decode to the row of its items (R74). -/
theorem decode_encodeSlots {items : List Item} (hlen : items.length = 8) (h : itemsWf 0 items = true) (rest : List Byte) :
    decode (leBytes 24 (encodeSlots items) ++ rest) = .ok (rowOf items, rest) := by
  have hlt := encodeSlots_lt h
  have hslots := decodeSlots_of_shift (w := encodeSlots items) (slot := 0) rfl h
  rw [hlen] at hlt hslots
  have htake : (leBytes 24 (encodeSlots items) ++ rest).take 24 = leBytes 24 (encodeSlots items) := List.take_left' (by simp)
  have hdrop : (leBytes 24 (encodeSlots items) ++ rest).drop 24 = rest := List.drop_left' (by simp)
  rw [decode, if_neg (by simp), htake, hdrop, leNat_leBytes (by omega), decodeBundle, hslots]

/-! ### A bundle of one trigger -/

theorem itemsWf_oneItem {slot : Nat} {it : Item} (hs : slot < 8) (h : it.wf slot = true) : itemsWf 0 (oneItem slot it) = true := by
  have hempty : ∀ k, k < 8 → Item.empty.wf k = true := by decide
  match slot, hs with
  | 0, _ | 1, _ | 2, _ | 3, _ | 4, _ | 5, _ | 6, _ | 7, _ =>
    simp [oneItem, List.replicate, List.set, itemsWf, hempty, h]

theorem occupied_oneItem {slot : Nat} {it : Item} (hs : slot < 8) (h : it ≠ Item.empty) : occupied 0 (oneItem slot it) = [(slot, it)] := by
  match slot, hs with
  | 0, _ | 1, _ | 2, _ | 3, _ | 4, _ | 5, _ | 6, _ | 7, _ =>
    simp [oneItem, List.replicate, List.set, occupied, h]

theorem rowOf_trigger {m : Mv} {u : UnitId} {op : Op} (hs : m.slot < 8) : rowOf (oneItem m.slot (m.item u op)) = ofTrigger u op m := by
  have hne : m.item u op ≠ Item.empty := by simp [Mv.item, Item.empty]
  rw [rowOf, occupied_oneItem hs hne]
  rfl

/-- The bundle of a trigger row decodes to the row of its unit, its operation and its move. -/
theorem decode_trigger {u : UnitId} {op : Op} {m : Mv} (hm : m.wf u = true) (hop : op ∈ opsOf u.kind) (rest : List Byte) :
    decode (leBytes 24 (encodeSlots (oneItem m.slot (m.item u op))) ++ rest) = .ok (ofTrigger u op m, rest) := by
  obtain ⟨⟨hs, hbus, hg⟩, hsrc⟩ : (m.slot < 8 ∧ slotBus m.slot = u.bus ∧ m.g ≠ 8) ∧ m.src.wf = true := by simpa [Mv.wf] using hm
  have hitem : (m.item u op).wf m.slot = true := by simpa [Mv.item, Item.wf, Dst.wf, hsrc, hbus, hop] using hg
  rw [decode_encodeSlots (by simp [oneItem]) (itemsWf_oneItem hs hitem), rowOf_trigger hs]

end Sys2Proof

namespace Sys2Proof.Laws.Rows

/-- Every row: the family by constructor. -/
theorem statement (i : Instr) : Statement i :=
  Instr.rec (motive := Statement)
    transportMove blockClear contextSelect tokenRefill arbiterGrant add sub mul mulh mulhn and or xor andn shl shr sar min max
    minn maxn clz ctz popc sext zext sel cmpeq cmpne cmplt cmple cmpltn cmplen cderive cnarrow crestrict cinc cbase clen cperm
    cseal cunseal cvalid jmp jmpa call calla ret bmz bmnz mark safe trap rte yield halt pand por pxor pandn porn pnot pset gbase
    crr crw qos imm cat fadd fsub fmul fma fms fnma fmin fmax fabs fneg fcadd fade fademul fadefma fcmpeq fcmplt fcmple iadd isub
    imul iand ior ixor ishl ishr isar imin imax iminn imaxn icmpeq icmplt icmpltn cvtfi cvtfiz cvtif cvtfb cvtbf vsel vperm vrot
    xchg radd rmax rmin mpush minv mpop mpeek mreset tdesc tstat tset mcall mwr quant azero aread awrite anorm acvt scfg sload
    scomp scarry sapply sread rcp rsqrt rcpstep rsqstep exp2 log2 softplus sigmoid silu csort cmerge cthr cread cclr patch sety
    setr gety getr step start stop dsave dload inject cnt fbind fswap snap fork roll fdrop fstat ld8Ls0 ld8Ls1 ld16Ls0 ld16Ls1
    ld32Ls0 ld32Ls1 ld64Ls0 ld64Ls1 ldn8Ls0 ldn8Ls1 ldn16Ls0 ldn16Ls1 ldn32Ls0 ldn32Ls1 ldcLs0 ldcLs1 st8Ls0 st8Ls1 st16Ls0
    st16Ls1 st32Ls0 st32Ls1 st64Ls0 st64Ls1 stcLs0 stcLs1 ldacq32Ls0 ldacq32Ls1 ldacq64Ls0 ldacq64Ls1 strel32Ls0 strel32Ls1
    strel64Ls0 strel64Ls1 vldLs0 vldLs1 vstLs0 vstLs1 gathLs0 gathLs1 scatLs0 scatLs1 vldxLs0 vldxLs1 vstcLs0 vstcLs1 fenceLs0
    fenceLs1 fenceScLs0 fenceScLs1 xfenceLs0 xfenceLs1 hintLs0 hintLs1 hresLs0 hresLs1 cctlLs0 cctlLs1 brelLs0 brelLs1 copyCp0
    copyCp1 twrCp0 twrCp1 atadd32 atadd64 atand ator atxor atmax atmin atswp cas64 cas128 qput qget qsel rput rget launch binit
    barr bwait btest bexp accessAcceptance longLatencyLanding mxOperationStart mxWload mxStream mxPromote mxLoop mxNop mxEnd
    mxOperationCompletion scanOperationStart scanBlock frameOperationStart frameOperationCompletion copyBegin copyCompletion
    launchRecordRead domainStep ringMessageDelivery creditReturn packetPlacement dispatcherVisit taskBinding taskFinish
    completionEntryPost walkerNode bankClaimHeld bankReleaseComplete preemptionRequest contextRestore contextRelease
    watchdogExpiry uncorrectableError hostLaunch windowWrite windowRead crheadWrite vdcfgWrite deviceReset functionLevelReset
    rmclr pavinv pavlendWrite rateBlockWrite rateWriteEffect reclaimWalkEnd form resize dissolve pavilionReset packageReset
    powerOn calwWrite calendarWriteEffect rxcfgWrite flitReplay imageLoad imageUnload firmwareStage attestationReport
    certificateChain faultLogPop modeChange powerWindow thermalWarning thermalTrip registerWrite poolpartWrite ringPortLinkChange
    i

end Sys2Proof.Laws.Rows

namespace Sys2Proof

/-- The items of a row that stands in a bundle: those of the bundle, or its one trigger. -/
theorem itemsOf_eq_some {i : Instr} {items : List Item} (h : itemsOf i = some items) :
    i = .transportMove items ∨ ∃ u op m, i.trigger? = some (u, op, m) ∧ items = oneItem m.slot (m.item u op) := by
  unfold itemsOf at h
  split at h
  · exact .inl (by simpa using h)
  · split at h
    · exact .inr ⟨_, _, _, ‹_›, by simpa using h.symm⟩
    · cases h

/-- A well-formed trigger row: its unit number and its move are (R76 to R84). -/
theorem wellFormed_trigger {i : Instr} {u : UnitId} {op : Op} {m : Mv} (h : wellFormed i = true) (ht : i.trigger? = some (u, op, m)) :
    unitNumberWf i = true ∧ m.wf u = true := by
  unfold wellFormed at h
  split at h
  · cases ht
  · rw [ht] at h
    simpa using h

/-- Settles O15, from the codes of sources and destinations up to the slots of a bundle word and the family of rows. -/
theorem encodedRowsDecodeToThemselves : Obligations.EncodedRowsDecodeToThemselves := by
  unfold Obligations.EncodedRowsDecodeToThemselves
  intro i bs rest hwf henc
  cases hitems : itemsOf i with
  | none => rw [encode, hitems] at henc; cases henc
  | some items =>
    obtain rfl : leBytes 24 (encodeSlots items) = bs := by simpa [encode, hitems] using henc
    refine ⟨length_leBytes _ _, ?_⟩
    obtain rfl | ⟨u, op, m, ht, rfl⟩ := itemsOf_eq_some hitems
    · obtain ⟨⟨hlen, hrow⟩, hi⟩ : (items.length = 8 ∧ rowOf items = .transportMove items) ∧ itemsWf 0 items = true := by
        simpa [wellFormed] using hwf
      rw [decode_encodeSlots hlen hi, hrow]
    · obtain ⟨hunit, hm⟩ := wellFormed_trigger hwf ht
      obtain ⟨hrow, hop⟩ := Laws.Rows.statement i u op m ht hunit
      rw [decode_trigger hm hop, hrow]

end Sys2Proof

/-! # Registers, views and the end of a bundle: what the core machine's statements rest on -/

namespace Sys2Proof.Machine

/-! ### Bits of a word -/

theorem getLsbD_putBit_ne {w n m : Nat} (x : BitVec w) (h : m ≠ n) (b : Bool) : (putBit x n b).getLsbD m = x.getLsbD m := by
  have hzero : (BitVec.ofNat w (2 ^ n)).getLsbD m = false := by
    rw [BitVec.getLsbD_ofNat, Nat.testBit_two_pow_of_ne (Ne.symm h), Bool.and_false]
  cases b
  · change (x &&& ~~~(BitVec.ofNat w (2 ^ n))).getLsbD m = x.getLsbD m
    rw [BitVec.getLsbD_and, BitVec.getLsbD_not, hzero, Bool.not_false, Bool.and_true]
    by_cases hm : m < w
    · simp [hm]
    · simp [hm, BitVec.getLsbD_of_ge x m (by omega)]
  · change (x ||| BitVec.ofNat w (2 ^ n)).getLsbD m = x.getLsbD m
    rw [BitVec.getLsbD_or, hzero, Bool.or_false]

/-- The low bits of a word are its remainder. -/
theorem bits_low (x : Word) (hi : Nat) : bits x hi 0 = x.toNat % 2 ^ (hi + 1) := by
  rw [bits, Nat.shiftRight_zero, Nat.sub_zero]

theorem bits_eq_zero_iff {x : Word} {lo : Nat} : bits x 63 lo = 0 ↔ x.toNat < 2 ^ lo := by
  have hx := x.isLt
  rw [bits, Nat.shiftRight_eq_div_pow]
  have hlt : x.toNat / 2 ^ lo < 2 ^ (63 + 1 - lo) ∨ 64 < lo := by
    by_cases h : lo ≤ 64
    · refine .inl ((Nat.div_lt_iff_lt_mul (Nat.two_pow_pos lo)).mpr ?_)
      rw [← Nat.pow_add, Nat.sub_add_cancel h]
      exact hx
    · exact .inr (by omega)
  obtain hlt | hlo := hlt
  · rw [Nat.mod_eq_of_lt hlt, Nat.div_eq_zero_iff]
    simp
  · have : (2 : Nat) ^ 64 < 2 ^ lo := Nat.pow_lt_pow_right (by decide) hlo
    rw [Nat.div_eq_of_lt (by omega)]
    simp
    omega

/-! ### Registers of a view -/

/-- A register keeps its content where the register files stay. -/
theorem View.readReg_congr {w v : View} (hs : w.s = v.s) (ha : w.a = v.a) (hv : w.v = v.v) (hp : w.p = v.p) (hk : w.k = v.k)
    (hmp : w.mp = v.mp) (f : RFile) (n : Nat) : w.readReg f n = v.readReg f n := by
  cases f <;> simp [View.readReg, View.pred, hs, ha, hv, hp, hk, hmp]

@[simp] theorem View.setPort_readReg (w : View) (u : UnitId) (p : Port) (f : RFile) (n : Nat) :
    (w.setPort u p).readReg f n = w.readReg f n := by
  apply View.readReg_congr <;> simp [View.setPort]

@[simp] theorem View.setRes_readReg (w : View) (h : Bool) (u : UnitId) (v : Value) (m : Option Mask) (f : RFile) (n : Nat) :
    (w.setRes h u v m).readReg f n = w.readReg f n := by
  apply View.readReg_congr <;> simp [View.setRes]

@[simp] theorem View.increment_readReg (w : View) (sm : OpSem) (vc : Nat) (u : UnitId) (x : Value) (f : RFile) (n : Nat) :
    (w.increment sm vc u x).readReg f n = w.readReg f n := by
  simp [View.increment]

/-- What the increments of a trigger leave of a view (R27): they touch its port state alone. -/
@[simp] theorem View.increment_flights (w : View) (sm : OpSem) (vc : Nat) (u : UnitId) (x : Value) :
    (w.increment sm vc u x).flights = w.flights := by
  simp [View.increment, View.setPort]

@[simp] theorem View.increment_ctl (w : View) (sm : OpSem) (vc : Nat) (u : UnitId) (x : Value) :
    (w.increment sm vc u x).ctl = w.ctl := by
  simp [View.increment, View.setPort]

@[simp] theorem View.increment_stack (w : View) (sm : OpSem) (vc : Nat) (u : UnitId) (x : Value) :
    (w.increment sm vc u x).stack = w.stack := by
  simp [View.increment, View.setPort]

@[simp] theorem View.increment_isEmpty (w : View) (sm : OpSem) (vc : Nat) (u : UnitId) (x : Value) (f : RFile) (n : Nat) :
    (w.increment sm vc u x).isEmpty f n = w.isEmpty f n := by
  cases f <;> simp [View.increment, View.setPort, View.isEmpty]

@[simp] theorem View.setRes_isEmpty (w : View) (h : Bool) (u : UnitId) (v : Value) (m : Option Mask) (f : RFile) (n : Nat) :
    (w.setRes h u v m).isEmpty f n = w.isEmpty f n := by
  cases f <;> simp [View.setRes, View.isEmpty]

/-- A register marked empty or full reads so (R31, R32): s and v have 64 of them. -/
theorem View.isEmpty_markEmpty {w : View} {f : RFile} {n : Nat} (hf : f = .s ∨ f = .v) (hn : n < 64) (b : Bool) :
    (w.markEmpty f n b).isEmpty f n = b := by
  obtain rfl | rfl := hf <;> exact getLsbD_putBit_self _ hn b

/-- A write of s n is what it then reads, and the register is full (R32). -/
@[simp] theorem View.readReg_writeReg_s (w : View) (n : Nat) (v : Value) (m : Option Mask) :
    (w.writeReg .s n v m).readReg .s n = .word v.toWord := by
  simp [View.writeReg, View.readReg, View.markEmpty]

theorem View.isEmpty_writeReg_s (w : View) {n : Nat} (hn : n < 64) (v : Value) (m : Option Mask) :
    (w.writeReg .s n v m).isEmpty .s n = false :=
  View.isEmpty_markEmpty (.inl rfl) hn false

theorem View.pred_setPred_ne (w : View) {n m : Nat} (h : n ≠ m) (b : Bool) : (w.setPred m b).pred n = w.pred n := by
  unfold View.setPred
  split
  · rfl
  · exact congrArg (fun x => n == 0 || x) (getLsbD_putBit_ne _ h b)

theorem View.readReg_setPred_ne (w : View) {f : RFile} (h : f ≠ .p) (m : Nat) (b : Bool) {n : Nat} :
    (w.setPred m b).readReg f n = w.readReg f n := by
  unfold View.setPred
  split
  · rfl
  · cases f with
    | p => exact absurd rfl h
    | _ => rfl

/-- A write of a register leaves every other register as it was. -/
theorem View.readReg_writeReg_ne (w : View) {f g : RFile} {n m : Nat} (h : f = g → n ≠ m) (v : Value) (lanes : Option Mask) :
    (w.writeReg g m v lanes).readReg f n = w.readReg f n := by
  by_cases hf : f = g
  · subst hf
    have hn := h rfl
    cases f with
    | p => exact congrArg (fun b => Value.word (BitVec.ofNat 64 (b2n b))) (View.pred_setPred_ne w hn _)
    | _ => simp [View.writeReg, View.readReg, View.markEmpty, Table.getD_set_ne _ hn]
  · cases g with
    | p => exact View.readReg_setPred_ne w hf m _
    | _ => cases f <;> simp [View.writeReg, View.readReg, View.markEmpty, View.pred] at hf ⊢

@[simp] theorem View.writeReg_ctl (w : View) (f : RFile) (n : Nat) (v : Value) (m : Option Mask) : (w.writeReg f n v m).ctl = w.ctl := by
  cases f <;> simp only [View.writeReg, View.markEmpty, View.setPred]
  split <;> rfl

@[simp] theorem View.writeReg_stack (w : View) (f : RFile) (n : Nat) (v : Value) (m : Option Mask) :
    (w.writeReg f n v m).stack = w.stack := by
  cases f <;> simp only [View.writeReg, View.markEmpty, View.setPred]
  split <;> rfl

@[simp] theorem View.setRes_ctl (w : View) (h : Bool) (u : UnitId) (v : Value) (m : Option Mask) : (w.setRes h u v m).ctl = w.ctl := by
  simp [View.setRes]

@[simp] theorem View.setRes_stack (w : View) (h : Bool) (u : UnitId) (v : Value) (m : Option Mask) :
    (w.setRes h u v m).stack = w.stack := by
  simp [View.setRes]

/-! ### Operations that land at the end of a bundle -/

/-- The effects of a flight, one after another. -/
theorem View.land_of_append {w : View} {fs : List Flight} {f : Flight} {t : Nat} (h : w.flights = fs ++ [f]) (hf : f.due ≤ t) :
    w.land t = f.effs.foldl (View.effect f.hset) (({ w with flights := fs } : View).land t) := by
  simp [View.land, h, List.filter_append, hf]

theorem View.withFlights_of_none {w : View} (h : w.flights = []) : ({ w with flights := [] } : View) = w := by
  rw [← h]

@[simp] theorem View.land_of_none {w : View} (h : w.flights = []) (t : Nat) : w.land t = w := by
  unfold View.land
  rw [h]
  exact View.withFlights_of_none h

@[simp] theorem View.complete_of_none {w : View} (h : w.flights = []) : w.complete = w := by
  unfold View.complete
  rw [h]
  exact View.withFlights_of_none h

/-! ### The end of a bundle -/

theorem Ctx.endBundle_straight {x : Ctx} (h : x.branch = none) : x.endBundle false =
    { x with cur := x.cur.land x.ctime, fin := x.fin.map fun w => w.land x.ctime, ctime := x.ctime + 1, started := true, pc := x.pc + 24 } := by
  unfold Ctx.endBundle
  dsimp only
  rw [h]
  rfl

theorem Ctx.endBundle_taken {x : Ctx} {target : Word} (h : x.branch = some (0, target)) (lp : Bool) : x.endBundle lp =
    { x with
      cur := (x.cur.land x.ctime).killAfter x.ctime, fin := some ((x.cur.land x.ctime).killAfter x.ctime), ctime := x.ctime + 1
      started := true, branch := some (1, target), pc := x.pc + 24 } := by
  unfold Ctx.endBundle
  dsimp only
  rw [h]
  rfl

/-- The context after a bundle whose one trigger has acted: its increments, then the end of the bundle. -/
theorem State.closeBundle_ctx {s : State} {l : Loc} {o : Opd} (h : o.op ≠ .crw) (vc : Nat) (lp : Bool) :
    (s.closeBundle l o vc lp).ctx l = ((s.ctx l).onView o.prov fun w => w.increment (opSem o.op) vc o.unit o.x).endBundle lp := by
  simp [State.closeBundle, finish_eq h]

@[simp] theorem State.closeBundle_mem (s : State) (l : Loc) (o : Opd) (h : o.op ≠ .crw) (vc : Nat) (lp : Bool) :
    (s.closeBundle l o vc lp).mem = s.mem := by
  simp [State.closeBundle, finish_eq h]

theorem State.closeBundle_ctx_ne {s : State} {l m : Loc} {o : Opd} (h : o.op ≠ .crw) (hm : m ≠ l) (vc : Nat) (lp : Bool) :
    (s.closeBundle l o vc lp).ctx m = s.ctx m := by
  simp [State.closeBundle, finish_eq h, State.onView, State.ctx_setCtx_ne _ hm]

/-! ### Operands that have been read -/

/-- What a trigger's operands say of its provisional and its squash bit and of its selector (R28, R36, R37). -/
theorem State.rowOperands_eq {s : State} {l : Loc} {i : Instr} {o : Opd} (h : s.rowOperands l i = some o) :
    ∃ u m, i.trigger? = some (u, o.op, m) ∧ o.unit = u ∧ o.slot = m.slot ∧ m.slot < 8 ∧ o.s = (m.s && !(opSem o.op).plainS) ∧
      o.prov = (m.s && (s.ctx l).inDelay && !(opSem o.op).plainS) ∧ readSel ((s.ctx l).cur.port u) (opSem o.op).sel = .ok o.sel := by
  unfold State.rowOperands at h
  split at h
  · rename_i u op m ht
    unfold State.operands at h
    dsimp only at h
    split at h
    · rename_i hc
      split at h
      · split at h
        · split at h
          · rename_i hsel
            obtain rfl := Option.some.inj h
            exact ⟨u, m, ht, rfl, rfl, hc.1, rfl, rfl, hsel⟩
          · cases h
        · cases h
      · cases h
    · cases h
  · cases h

theorem State.rowOperands_prov_of_plain {s : State} {l : Loc} {i : Instr} {o : Opd} (h : s.rowOperands l i = some o)
    (hp : (opSem o.op).plainS = true) : o.prov = false ∧ o.s = false := by
  obtain ⟨u, m, -, -, -, -, hs, hprov, -⟩ := State.rowOperands_eq h
  exact ⟨by rw [hprov, hp]; simp, by rw [hs, hp]; simp⟩

theorem State.rowOperands_prov_of_straight {s : State} {l : Loc} {i : Instr} {o : Opd} (h : s.rowOperands l i = some o)
    (hb : (s.ctx l).branch = none) : o.prov = false := by
  obtain ⟨u, m, -, -, -, -, -, hprov, -⟩ := State.rowOperands_eq h
  simp [hprov, Ctx.inDelay, hb]

/-! ### What holds where a row issues -/

theorem State.fence_of_ready {s : State} {l : Loc} {i : Instr} {o : Opd} (h : s.ready l i o) : (s.ctx l).fence = [] := by
  obtain ⟨-, -, -, hfence⟩ := h
  exact hfence

theorem State.mayIssue_of_ready {s : State} {l : Loc} {i : Instr} {o : Opd} (h : s.ready l i o) : s.mayIssue l := by
  obtain ⟨-, hissue, -⟩ := h
  exact hissue

theorem Ctx.looping_of_straight {x : Ctx} (h : x.straight) : x.cur.looping = false := by
  obtain ⟨-, -, hloop⟩ := h
  exact hloop

theorem Ctx.fin_of_straight {x : Ctx} (h : x.straight) : x.fin = none := by
  obtain ⟨-, hfin, -⟩ := h
  exact hfin

end Sys2Proof.Machine

/-! # The step, traps that enter the handler, and triggers that may not stand where they stand (O18, O23, O12) -/

namespace Sys2Proof.Machine

/-! ### The step (O18) -/

@[simp] theorem Memory.length_bytes (m : Memory) (a n : Nat) : (m.bytes a n).length = n := by
  induction n generalizing a with
  | zero => rfl
  | succ n ih => rw [Memory.bytes, List.length_cons, ih]

/-- The number in bytes of a memory is that of the bytes (R4). -/
theorem leNat_bytes (m : Memory) (a n : Nat) : leNat (m.bytes a n) = m.nat a n := by
  induction n generalizing a with
  | zero => rfl
  | succ n ih => rw [Memory.bytes, leNat, Memory.nat, ih]

theorem decode_bytes (m : Memory) (a : Nat) : decode (m.bytes a 24) = .ok (rowOf (decodeSlots (m.nat a 24) 0 8), []) := by
  have htake : (m.bytes a 24).take 24 = m.bytes a 24 := List.take_of_length_le (by simp)
  have hdrop : (m.bytes a 24).drop 24 = [] := List.drop_eq_nil_of_le (by simp)
  rw [decode, if_neg (by simp), htake, hdrop, leNat_bytes, decodeBundle]

theorem State.fetch_of_text {s : State} {l : Loc} {b : Binding} {g : Image} (hb : (s.ctx l).binding = some b)
    (hg : s.images.find? b.image = some g) (ha : (s.ctx l).pc.toNat % 8 = 0)
    (h : g.base.toNat ≤ (s.ctx l).pc.toNat ∧ (s.ctx l).pc.toNat + 24 ≤ g.base.toNat + g.size) :
    s.fetch l = .ok (decodeSlots (g.text.nat ((s.ctx l).pc.toNat - g.base.toNat) 24) 0 8) := by
  have hlow : bits (s.ctx l).pc 2 0 = 0 := by rw [bits_low]; exact ha
  have himage : s.imageOf l = some g := by simp [State.imageOf, hb, hg]
  unfold State.fetch
  dsimp only
  rw [if_neg (by simpa using hlow), himage]
  exact if_pos h

theorem stepRunsTheDecodedBundle : Spec.StepRunsTheDecodedBundle := by
  unfold Spec.StepRunsTheDecodedBundle
  intro s core c rest b g i bs hagenda hrun htaken hb hg pc ha hlo hhi hbs hdec
  subst hbs
  obtain rfl : rowOf (decodeSlots (g.text.nat (pc - g.base.toNat) 24) 0 8) = i := by
    rw [decode_bytes] at hdec
    exact congrArg Prod.fst (Except.ok.inj hdec)
  have hnext : s.nextTurn = some (.issue core, { s with agenda := rest }) := by
    unfold State.nextTurn
    rw [hagenda]
  have hturn : ({ s with agenda := rest, focus := core } : State).turn = some ⟨core, c⟩ := by
    change (match (s.core core).running, (s.core core).taken with
      | some x, none => some (⟨core, x⟩ : Loc)
      | _, _ => none) = _
    rw [hrun, htaken]
  have hfetch : ({ s with agenda := rest, focus := core } : State).fetch ⟨core, c⟩ = _ := State.fetch_of_text hb hg ha ⟨hlo, hhi⟩
  have hissue : ({ s with agenda := rest } : State).fetchTurn core =
      .ok (decodeSlots (g.text.nat (pc - g.base.toNat) 24) 0 8, { s with agenda := rest, focus := core }) := by
    unfold State.fetchTurn
    dsimp only
    rw [hturn]
    dsimp only
    rw [hfetch]
    rfl
  unfold step
  rw [hnext]
  dsimp only
  rw [hissue]

theorem stepRunsTheScheduledEvent : Spec.StepRunsTheScheduledEvent := by
  unfold Spec.StepRunsTheScheduledEvent
  intro s e rest h
  unfold step State.nextTurn
  rw [h]

/-- Settles O18: the schedule's next entry decides what the step executes. -/
theorem stepRunsTheDecodedBundleOrTheScheduledEvent : Obligations.StepRunsTheDecodedBundleOrTheScheduledEvent := by
  unfold Obligations.StepRunsTheDecodedBundleOrTheScheduledEvent
  exact ⟨stepRunsTheDecodedBundle, stepRunsTheScheduledEvent⟩

/-! ### Traps that enter the handler (O23) -/

theorem Trap.catchable_of_handled {t : Trap} (h : Spec.handled t) : t.catchable = true := by
  obtain ⟨hill, hmem, hcap, htr⟩ := h
  unfold Trap.catchable
  cases hc : t.cls <;> simp_all

theorem State.finalReleases_of_none {s : State} {l : Loc} (h : (s.ctx l).releases = []) (time : Nat) :
    s.finalReleases l time = s.setCtx l { s.ctx l with releases := [] } := by
  simp [State.finalReleases, h]

/-- What a trap finds of its context: what provisional moves did to the core is put back, and releases have become final (R37). -/
def State.trapped (s : State) (l : Loc) : State := (s.restoreCore l (s.ctx l).undo).finalReleases l ((s.ctx l).untaken + 1)

/-- The context to which a trap is delivered (R37). -/
def State.trappedCtx (s : State) (l : Loc) : Ctx := { (s.trapped l).ctx l with undo := [] }

/-- Whether a trap enters the handler (R42, R246). -/
def State.entersHandler (s : State) (l : Loc) (t : Trap) : Bool :=
  let c := ((s.trappedCtx l).fin.getD (s.trappedCtx l).cur).complete.ctl
  t.catchable && bit c.tvec 0 && !bit c.hndst 0

theorem State.takeTrap_of_handler {s : State} {l : Loc} {t : Trap} (h : s.entersHandler l t = true) (slot : Nat) (bd : Bool)
    (tepc : Word) :
    s.takeTrap l t slot bd tepc = (s.trapped l).setCtx l ((s.trappedCtx l).enterHandler (t.word slot bd) tepc t.w62 t.w63) :=
  if_pos h

/-- A context with nothing to put back and nothing to release is trapped as it stands. -/
theorem State.trapped_of_none {s : State} {l : Loc} (hundo : (s.ctx l).undo = []) (hrel : (s.ctx l).releases = []) :
    s.trapped l = s.setCtx l { s.ctx l with releases := [] } := by
  unfold State.trapped
  rw [hundo]
  exact State.finalReleases_of_none hrel _

/-- HNDST at the entry of the handler (R246): IN is 1 and SGBASE the guard base. -/
theorem handler_status (x : Word) : BitVec.ofNat 64 (1 + 2 * bits x 6 0) = 1 + ((x &&& 0x7F) <<< 1) := by
  have hlow : (x &&& 0x7F).toNat = x.toNat % 2 ^ 7 := by
    rw [BitVec.toNat_and]
    exact Nat.and_two_pow_sub_one_eq_mod x.toNat 7
  apply BitVec.eq_of_toNat_eq
  rw [BitVec.toNat_ofNat, BitVec.toNat_add, BitVec.toNat_shiftLeft, hlow, bits_low, Nat.shiftLeft_eq]
  simp
  omega

/-- Settles O23: the entry into the handler is the whole change, and s62 and s63 are the last registers it writes. -/
theorem handledTrapsEnterTheHandler : Obligations.HandledTrapsEnterTheHandler := by
  unfold Obligations.HandledTrapsEnterTheHandler
  intro s l t slot bd tepc hhandled x w hfl hundo hrel hen hin y
  have htrapped : s.trapped l = s.setCtx l { x with releases := [] } := State.trapped_of_none hundo hrel
  have hctx : s.trappedCtx l = { x with releases := [], undo := [] } := by rw [State.trappedCtx, htrapped, State.ctx_setCtx]
  have hcur : (x.fin.getD x.cur).complete = w := View.complete_of_none hfl
  have henters : s.entersHandler l t = true := by
    unfold State.entersHandler
    rw [hctx]
    dsimp only
    rw [hcur]
    rw [bit, bit, hen, hin, Trap.catchable_of_handled hhandled]
    rfl
  have htake : s.takeTrap l t slot bd tepc = _ := State.takeTrap_of_handler henters slot bd tepc
  have hy : y = ({ x with releases := [], undo := [] } : Ctx).enterHandler (t.word slot bd) tepc t.w62 t.w63 := by
    rw [show y = (s.takeTrap l t slot bd tepc).ctx l from rfl, htake, State.ctx_setCtx, hctx]
  have hread (f : RFile) (n : Nat) (h : f = .s → n ≠ 62 ∧ n ≠ 63) : y.cur.readReg f n = w.readReg f n := by
    rw [hy]
    simp only [Ctx.enterHandler, Ctx.settle]
    rw [hcur, View.readReg_writeReg_ne _ (fun e => (h e).2), View.readReg_writeReg_ne _ (fun e => (h e).1)]
    exact View.readReg_congr rfl rfl rfl rfl rfl rfl f n
  have h62 : y.cur.readReg .s 62 = .word t.w62 := by
    rw [hy]
    simp only [Ctx.enterHandler]
    rw [View.readReg_writeReg_ne _ (by decide), View.readReg_writeReg_s]
    rfl
  have h63 : y.cur.readReg .s 63 = .word t.w63 := by
    rw [hy]
    simp only [Ctx.enterHandler]
    rw [View.readReg_writeReg_s]
    rfl
  have hctl : y.cur.ctl = { w.ctl with
      tepc := tepc, tcause := t.word slot bd, gbase := 0, hndst := BitVec.ofNat 64 (1 + 2 * bits w.ctl.gbase 6 0)
      tbranch := BitVec.ofNat 64 (match x.branch with | some (d, _) => d | none => 0)
      tbtgt := match x.branch with | some (_, g) => g | none => w.ctl.tbtgt } := by
    rw [hy]
    simp only [Ctx.enterHandler, Ctx.settle, View.writeReg_ctl]
    rw [hcur] <;> rfl
  refine ⟨?_, ?_, ?_, ?_, ?_, ?_, ?_, ?_, ?_, ?_, ?_, ?_, h62, h63, hread⟩
  · rw [htake, htrapped, State.setCtx_setCtx, hctx, ← hy]
  · rw [hy]
    simp only [Ctx.enterHandler, Ctx.settle]
    rw [hcur]
  · rw [hy]; rfl
  · rw [hy]; rfl
  · rw [hy]; rfl
  · rw [hctl]
  · rw [hctl]
  · rw [hctl] <;> rfl
  · intro d g hbranch
    rw [hctl, hbranch]
  · rw [hctl]
    exact handler_status _
  · rw [hctl]
  · rw [hy]; rfl

/-! ### Triggers that may not stand where they stand (O12) -/

theorem opSem_br_plainS {op : Op} (h : op ∈ opsOf .br) : (opSem op).plainS = true := by
  simp only [opsOf, List.mem_cons, List.not_mem_nil, or_false] at h
  obtain rfl | rfl | rfl | rfl | rfl | rfl | rfl | rfl | rfl | rfl | rfl | rfl | rfl := h <;> rfl

/-- A trigger whose place alone is wrong takes the sequence trap of its operation (R392 stage 3). -/
theorem exec_misplaced {i : Instr} {s : State} {l : Loc} {o : Opd} {c : Cause} (hi : s.rowOperands l i = some o) (hm : s.mayIssue l)
    (hp : o.prov = false) (he : (opSem o.op).encoding (s.take l) l o = none) (hs : (opSem o.op).sequence (s.take l) l o = some c) :
    exec i s = .next ((s.take l).takeTrap l (sequenceTrap c) o.slot false (s.ctx l).pc) :=
  (exec_examined hi hm).1 3 _ (by simp [examineOperand, he, hs, Exam.later, hp])

/-- A transfer of R110 is the one shape of all, taken by the top of the mask stack where the rule says so. -/
theorem opSem_of_transferOf {op : Op} {top : Mask} {rel taken link : Bool} (h : Spec.transferOf op top = some (rel, taken, link)) :
    ∃ take : View → Bool, opSem op = transferSem rel take link ∧ ∀ w : View, w.top = top → take w = taken := by
  cases op <;> cases h
  case bmz => exact ⟨fun w => w.top == 0, rfl, fun w hw => by subst hw; rfl⟩
  case bmnz => exact ⟨fun w => w.top != 0, rfl, fun w hw => by subst hw; exact decide_not.symm⟩
  all_goals exact ⟨_, rfl, fun _ _ => rfl⟩

/-- A transfer whose target is aligned is no illegal encoding (R111). -/
theorem transferSem_encoding {rel link : Bool} {taken : View → Bool} {s : State} {l : Loc} {o : Opd}
    (h : (if rel then (s.ctx l).pc + o.xw else o.xw).toNat % 8 = 0) : (transferSem rel taken link).encoding s l o = none := by
  change (if bits (if rel then (s.ctx l).pc + o.xw else o.xw) 2 0 = 0 then none else some 6) = none
  rw [bits_low]
  exact if_pos h

theorem encoding_of_transferOf {op : Op} {top : Mask} {rel taken link : Bool} (hop : Spec.transferOf op top = some (rel, taken, link))
    {s : State} {l : Loc} {o : Opd} (h : (if rel then (s.ctx l).pc + o.xw else o.xw).toNat % 8 = 0) :
    (opSem op).encoding s l o = none := by
  obtain ⟨take, hsem, -⟩ := opSem_of_transferOf hop
  rw [hsem]
  exact transferSem_encoding h

/-- A loop word that MARK accepts (R113). -/
theorem loopWordBad_eq_false {x : Word} (hpasses : (x.extractLsb' 25 24).toNat ≠ 0) (hzero : x.extractLsb' 49 15 = 0)
    (hstages : (x.extractLsb' 6 5).toNat ≠ 0 → (x.extractLsb' 11 7).toNat ≠ 0 ∧
      (x.extractLsb' 11 7).toNat + (x.extractLsb' 6 5).toNat ≤ 128 ∧ (x.extractLsb' 6 5).toNat ≤ (x.extractLsb' 25 24).toNat)
    (hwalker : x.getLsbD 24 = true → (x.extractLsb' 18 6).toNat ≤ 58) : loopWordBad x = false := by
  have hfields : bits x 10 6 = (x.extractLsb' 6 5).toNat ∧ bits x 17 11 = (x.extractLsb' 11 7).toNat ∧
      bits x 48 25 = (x.extractLsb' 25 24).toNat ∧ bits x 23 18 = (x.extractLsb' 18 6).toNat ∧ bits x 63 49 = 0 := by
    refine ⟨?_, ?_, ?_, ?_, (bits_eq_toNat_extractLsb' x 63 49).trans ?_⟩
    any_goals exact bits_eq_toNat_extractLsb' ..
    change (x.extractLsb' 49 15).toNat = 0
    rw [hzero]
    rfl
  obtain ⟨h1, h2, h3, h4, h5⟩ := hfields
  unfold loopWordBad
  simp only [h1, h2, h3, h4, h5, bit]
  generalize (x.extractLsb' 6 5).toNat = stages at *
  generalize (x.extractLsb' 11 7).toNat = sp at *
  generalize (x.extractLsb' 25 24).toNat = passes at *
  generalize (x.extractLsb' 18 6).toNat = wb at *
  simp only [Bool.or_eq_false_iff, Bool.and_eq_false_iff, beq_eq_false_iff_ne, bne_eq_false_iff_eq, decide_eq_false_iff_not]
  refine ⟨⟨⟨hpasses, trivial⟩, ?_⟩, ?_⟩
  · omega
  · cases hb : x.getLsbD 24
    · exact .inl rfl
    · have := hwalker hb
      exact .inr (by omega)

/-- A br trigger whose operand fits is no illegal encoding (R75, R113, R118, R247 to R249). -/
theorem encoding_of_branchOperandFits {s : State} {l : Loc} {o : Opd} (hop : o.op ∈ opsOf .br)
    (h : Spec.branchOperandFits (s.ctx l) o) : (opSem o.op).encoding s l o = none := by
  unfold Spec.branchOperandFits at h
  simp only [opsOf, List.mem_cons, List.not_mem_nil, or_false] at hop
  obtain hop | hop | hop | hop | hop | hop | hop | hmark | hsafe | htrap | hrte | hyield | hhalt := hop
  iterate 7
    rw [hop] at h ⊢
    exact encoding_of_transferOf (top := 0) rfl (by exact h)
  · rw [hmark] at h ⊢
    obtain ⟨h1, h2, h3, h4⟩ := h
    exact if_neg (by rw [loopWordBad_eq_false h1 h2 h3 h4]; decide)
  · rw [hsafe] at h ⊢
    have h63 : bits o.xw 63 32 = 0 := bits_eq_zero_iff.mpr h.1
    have hlow : bits o.xw 1 0 = 0 := (bits_low _ _).trans h.2
    exact if_neg (by omega)
  · rw [htrap] at h ⊢
    have h63 : bits o.xw 63 16 = 0 := bits_eq_zero_iff.mpr h
    exact if_neg (by omega)
  · rw [hrte] at h ⊢
    refine if_neg fun hbad => ?_
    obtain ⟨hin, hlow⟩ := Bool.and_eq_true_iff.mp hbad
    exact absurd ((bits_low _ _).trans (h hin)) (by simpa using hlow)
  · rw [hyield]
    rfl
  · rw [hhalt] at h ⊢
    have h63 : bits o.xw 63 32 = 0 := bits_eq_zero_iff.mpr h
    exact if_neg (by omega)

/-- In a delay bundle or a loop body every br trigger but a marker in the body's last bundle is misplaced (R39, R116). -/
theorem sequence_of_delayOrLoop {s : State} {l : Loc} {o : Opd} (hop : o.op ∈ opsOf .br)
    (h : (s.ctx l).branch.isSome = true ∨ ((s.ctx l).cur.looping = true ∧ ¬ (o.op = .safe ∧ (s.ctx l).cur.lastBody = true))) :
    (opSem o.op).sequence s l o = some 1 := by
  have hplace : ((s.ctx l).inDelay || (s.ctx l).cur.looping) = true := by
    rw [Bool.or_eq_true]
    exact h.imp id And.left
  simp only [opsOf, List.mem_cons, List.not_mem_nil, or_false] at hop
  obtain hop | hop | hop | hop | hop | hop | hop | hmark | hsafe | htrap | hrte | hyield | hhalt := hop
  iterate 8
    rw [‹o.op = _›]
    exact if_pos hplace
  · have hbody : ((s.ctx l).inDelay || (s.ctx l).cur.looping && !(s.ctx l).cur.lastBody) = true := by
      rw [Bool.or_eq_true, Bool.and_eq_true, Bool.not_eq_true', ← Bool.not_eq_true]
      exact h.imp id fun ⟨hloop, hlast⟩ => ⟨hloop, fun e => hlast ⟨hsafe, e⟩⟩
    rw [hsafe]
    exact if_pos hbody
  iterate 4
    rw [‹o.op = _›]
    exact if_pos hplace

/-- The last bundle of a body is that whose BIDX is NM1 (R116). -/
theorem View.lastBody_iff {w : View} (h : w.looping = true) :
    w.lastBody = true ↔ w.ctl.loopst.extractLsb' 0 6 = w.ctl.loopwd.extractLsb' 0 6 := by
  rw [View.lastBody, h, Bool.true_and, beq_iff_eq, bits_eq_toNat_extractLsb', bits_eq_toNat_extractLsb']
  exact BitVec.toNat_inj

theorem branchTriggersInDelayBundlesOrLoopsTrap : Spec.BranchTriggersInDelayBundlesOrLoopsTrap := by
  unfold Spec.BranchTriggersInDelayBundlesOrLoopsTrap
  intro i s l o hi hm hop hfit hplace
  have hprov := (State.rowOperands_prov_of_plain hi (opSem_br_plainS hop)).1
  refine exec_misplaced hi hm hprov (encoding_of_branchOperandFits hop ?_) (sequence_of_delayOrLoop hop ?_) <;> rw [State.take_ctx]
  · exact hfit
  · exact hplace.imp id fun ⟨hloop, hlast⟩ => ⟨hloop, fun e => hlast ⟨e.1, (View.lastBody_iff hloop).mp e.2⟩⟩

/-- RTE outside a handler takes its sequence trap (R248). -/
theorem rteOutsideAHandlerTraps : Spec.RteOutsideAHandlerTraps := by
  unfold Spec.RteOutsideAHandlerTraps
  intro i s l o hr hstraight hop hin hp
  obtain ⟨hbranch, -, hloop⟩ := hstraight
  have hnot : (s.ctx l).cur.inHandler = false := hin
  refine exec_misplaced hr.1 (State.mayIssue_of_ready hr) hp ?_ ?_ <;> rw [hop, opSem_rte]
  · change rteTarget (s.take l) l = none
    simp [rteTarget, hnot]
  · change rtePlace (s.take l) l = some 13
    simp [rtePlace, Ctx.inDelay, hbranch, hloop, hnot]

/-- Settles O12: the operand fits, so the check of the place is the first that traps. -/
theorem misplacedTransfersAndReturnsTrap : Obligations.MisplacedTransfersAndReturnsTrap := by
  unfold Obligations.MisplacedTransfersAndReturnsTrap
  exact ⟨branchTriggersInDelayBundlesOrLoopsTrap, rteOutsideAHandlerTraps⟩

end Sys2Proof.Machine

/-! # Transfers, the return from the handler, and what they keep (O7, O11, O27) -/

namespace Sys2Proof.Machine

/-! ### What a view keeps -/

/-- A view keeps its registers but some, its mask stack and FPFLAGS. -/
structure View.keepsBut (touched : RFile → Nat → Prop) (w v : View) : Prop where
  reg : ∀ f n, ¬ touched f n → v.readReg f n = w.readReg f n
  stack : v.stack = w.stack
  fpflags : v.ctl.fpflags = w.ctl.fpflags

/-- An effect that touches some registers at most, and neither the mask stack nor FPFLAGS. -/
def Eff.within (touched : RFile → Nat → Prop) : Eff → Prop
  | .reg f n _ _ => touched f n
  | .res _ _ _ | .startLoop => True
  | .ctl n _ => n ≠ 0
  | _ => False

section
variable {touched : RFile → Nat → Prop}

theorem View.keepsBut_refl (w : View) : w.keepsBut touched w := ⟨fun _ _ _ => rfl, rfl, rfl⟩

theorem View.keepsBut.trans {u v w : View} (h : u.keepsBut touched v) (h' : v.keepsBut touched w) : u.keepsBut touched w :=
  ⟨fun f n hn => (h'.reg f n hn).trans (h.reg f n hn), h'.stack.trans h.stack, h'.fpflags.trans h.fpflags⟩

/-- FPFLAGS is register 0; a write of any other leaves it (R244). -/
theorem Ctl.write_fpflags {n : Nat} (h : n ≠ 0) (c : Ctl) (x : Word) : (c.write n x).fpflags = c.fpflags := by
  simp only [Ctl.write, if_neg h, apply_ite Ctl.fpflags, ite_self]

theorem View.effect_keepsBut {e : Eff} (he : e.within touched) (h : Bool) (w : View) : w.keepsBut touched (w.effect h e) := by
  cases e with
  | reg f n v lanes =>
    exact ⟨fun g m hm => View.readReg_writeReg_ne _ (fun e e' => hm (by subst e e'; exact he)) _ _, by simp [View.effect], by simp [View.effect]⟩
  | res u v lanes => exact ⟨fun _ _ _ => by simp [View.effect], by simp [View.effect], by simp [View.effect]⟩
  | startLoop => exact ⟨fun f n _ => View.readReg_congr rfl rfl rfl rfl rfl rfl f n, rfl, rfl⟩
  | ctl n x => exact ⟨fun f n _ => View.readReg_congr rfl rfl rfl rfl rfl rfl f n, rfl, Ctl.write_fpflags he _ _⟩
  | _ => exact he.elim

theorem View.effects_keepsBut {es : List Eff} (he : ∀ e ∈ es, e.within touched) (h : Bool) (w : View) :
    w.keepsBut touched (es.foldl (View.effect h) w) := by
  induction es generalizing w with
  | nil => exact View.keepsBut_refl w
  | cons e es ih =>
    exact (View.effect_keepsBut (he e List.mem_cons_self) h w).trans (ih (fun d hd => he d (List.mem_cons_of_mem e hd)) _)

theorem View.withFlights_keepsBut (w : View) (fs : List Flight) : w.keepsBut touched { w with flights := fs } :=
  ⟨fun f n _ => View.readReg_congr rfl rfl rfl rfl rfl rfl f n, rfl, rfl⟩

theorem View.land_keepsBut {w : View} (h : ∀ f ∈ w.flights, ∀ e ∈ f.effs, e.within touched) (t : Nat) : w.keepsBut touched (w.land t) := by
  have hfold (fs : List Flight) (hfs : ∀ f ∈ fs, ∀ e ∈ f.effs, e.within touched) (v : View) :
      v.keepsBut touched (fs.foldl (fun w f => f.effs.foldl (View.effect f.hset) w) v) := by
    induction fs generalizing v with
    | nil => exact View.keepsBut_refl v
    | cons f fs ih =>
      exact (View.effects_keepsBut (hfs f List.mem_cons_self) _ v).trans (ih (fun g hg => hfs g (List.mem_cons_of_mem f hg)) _)
  exact (View.withFlights_keepsBut w _).trans (hfold _ (fun f hf => h f (List.mem_of_mem_filter hf)) _)

theorem View.increment_keepsBut (w : View) (sm : OpSem) (vc : Nat) (u : UnitId) (x : Value) :
    w.keepsBut touched (w.increment sm vc u x) := ⟨fun _ _ _ => by simp, by simp, by simp⟩

theorem View.withRegion_keepsBut (w : View) (r : Nat) : w.keepsBut touched { w with region := r } :=
  ⟨fun f n _ => View.readReg_congr rfl rfl rfl rfl rfl rfl f n, rfl, rfl⟩

end

/-! ### The end of a straight bundle -/

/-- The context after a straight bundle with one trigger, where its operation left it in place or pending a taken branch. -/
theorem Ctx.endBundle_cur_keepsBut {touched : RFile → Nat → Prop} {x : Ctx}
    (hb : x.branch = none ∨ ∃ target, x.branch = some (0, target)) (h : ∀ f ∈ x.cur.flights, ∀ e ∈ f.effs, e.within touched) :
    x.cur.keepsBut touched (x.endBundle false).cur := by
  have hland := View.land_keepsBut h x.ctime
  obtain hb | ⟨target, hb⟩ := hb
  · rw [Ctx.endBundle_straight hb]
    exact hland
  · rw [Ctx.endBundle_taken hb]
    exact hland.trans (View.withFlights_keepsBut _ _)

theorem Opd.resultEffs_within (o : Opd) (v : Value) (lanes : Option Mask) :
    ∀ e ∈ o.resultEffs v lanes, e.within fun f n => o.dest = some (f, n) := by
  intro e he
  unfold Opd.resultEffs at he
  split at he
  · rename_i f n hd
    obtain rfl | rfl : e = .reg f n v lanes ∨ e = .res o.unit v lanes := by simpa using he
    · exact hd
    · trivial
  · obtain rfl : e = .res o.unit v lanes := by simpa using he
    trivial

/-- A result that lands as the last of its bundle is what its s register then holds (R32). -/
theorem View.readReg_land_result {w : View} {fs : List Flight} {o : Opd} {v : Value} {due : Nat} {sb hs : Bool} {n : Nat} {t : Nat}
    (h : w.flights = fs ++ [⟨due, sb, hs, o.resultEffs v none⟩]) (ht : due ≤ t) (hd : o.dest = some (.s, n)) :
    (w.land t).readReg .s n = .word v.toWord := by
  rw [View.land_of_append h ht]
  simp [Opd.resultEffs, hd, View.effect]

/-! ### Transfers -/

/-- A transfer passes its checks where it stands straight, its target is aligned and, where it is taken, in the text (R36, R39, R110,
R111). -/
theorem transferSem_passes {rel link : Bool} {take : View → Bool} {s : State} {l : Loc} {o : Opd} (hs : (s.ctx l).straight)
    (hop : opSem o.op = transferSem rel take link) (ha : (if rel then (s.ctx l).pc + o.xw else o.xw).toNat % 8 = 0)
    (ht : take (s.ctx l).cur = true → s.inText l (if rel then (s.ctx l).pc + o.xw else o.xw) = true) : (s.take l).passes l o := by
  obtain ⟨hb, -, hl⟩ := hs
  have hin (a : Word) : (s.take l).inText l a = s.inText l a := by
    unfold State.inText State.imageOf
    rw [State.take_ctx]
    rfl
  rw [State.passes, hop]
  refine ⟨transferSem_encoding (by rw [State.take_ctx]; exact ha), ?_, ?_, rfl⟩
  · change branchPlace (s.take l) l o = none
    simp [branchPlace, Ctx.inDelay, hb, hl]
  · change (if take ((s.take l).ctx l).cur && !(s.take l).inText l (if rel then ((s.take l).ctx l).pc + o.xw else o.xw) then some _ else none) = none
    rw [State.take_ctx, hin, if_neg]
    cases hc : take (s.ctx l).cur
    · simp
    · simp [ht hc]

/-- The context in which the bundle of a transfer ends: its branch, and its link in flight. -/
def Ctx.transferred (x : Ctx) (taken link : Bool) (target : Word) (o : Opd) : Ctx :=
  let y := x.unmarked.transfer taken target
  if link then
    y.onView o.prov fun w =>
      { w with flights := w.flights ++ [⟨x.ctime, o.s, x.cur.inHandler, o.resultEffs (.word (x.pc + 72)) none⟩] }
  else y

theorem Ctx.transfer_cur (x : Ctx) (taken : Bool) (target : Word) : (x.transfer taken target).cur = x.cur := by
  cases taken <;> rfl

theorem Ctx.transfer_ctime (x : Ctx) (taken : Bool) (target : Word) : (x.transfer taken target).ctime = x.ctime := by
  cases taken <;> rfl

theorem Ctx.transferred_pc (x : Ctx) (taken link : Bool) (target : Word) (o : Opd) :
    (x.transferred taken link target o).pc = x.pc := by
  cases taken <;> cases link <;> rfl

theorem Ctx.transferred_branch (x : Ctx) (taken link : Bool) (target : Word) (o : Opd) :
    (x.transferred taken link target o).branch = if taken then some (0, target) else x.branch := by
  cases taken <;> cases link <;> rfl

theorem Ctx.transferred_ctime (x : Ctx) (taken link : Bool) (target : Word) (o : Opd) :
    (x.transferred taken link target o).ctime = x.ctime := by
  cases taken <;> cases link <;> rfl

theorem Ctx.transferred_fence (x : Ctx) (taken link : Bool) (target : Word) (o : Opd) :
    (x.transferred taken link target o).fence = x.fence := by
  cases taken <;> cases link <;> rfl

theorem Ctx.transferred_flights (x : Ctx) (taken link : Bool) (target : Word) (o : Opd) :
    (x.transferred taken link target o).cur.flights =
      x.cur.flights ++ if link then [⟨x.ctime, o.s, x.cur.inHandler, o.resultEffs (.word (x.pc + 72)) none⟩] else [] := by
  cases taken <;> cases link <;> simp [Ctx.transferred, Ctx.transfer, Ctx.onView]

theorem Ctx.transferred_keepsBut {touched : RFile → Nat → Prop} (x : Ctx) (taken link : Bool) (target : Word) (o : Opd) :
    x.cur.keepsBut touched (x.transferred taken link target o).cur := by
  cases taken <;> cases link <;> exact View.withFlights_keepsBut x.cur _

/-- The context after a transfer that completes (R29, R36, R110). -/
theorem exec_transfer {i : Instr} {s : State} {l : Loc} {o : Opd} {rel link : Bool} {take : View → Bool} (hr : s.ready l i o)
    (hop : opSem o.op = transferSem rel take link) (hp : (s.take l).passes l o) (hcrw : o.op ≠ .crw) :
    ∃ t, exec i s = .next t ∧ t.ctx l =
      (((s.ctx l).transferred (take (s.ctx l).cur) link (if rel then (s.ctx l).pc + o.xw else o.xw) o).onView o.prov fun w =>
        w.increment (opSem o.op) ((s.core l.core).vcount l.ctx) o.unit o.x).endBundle (s.ctx l).cur.looping := by
  have hact : ((opSem o.op).act (s.acting l) l o).ctx l =
      (s.ctx l).transferred (take (s.ctx l).cur) link (if rel then (s.ctx l).pc + o.xw else o.xw) o := by
    rw [hop]
    change State.ctx (if link then (State.setCtx (s.acting l) l _).result l o 1 _ else State.setCtx (s.acting l) l _) l = _
    cases link <;> simp [State.result, State.after, State.fly, Ctx.transferred, Ctx.transfer_cur, Ctx.transfer_ctime]
  refine ⟨_, exec_acts hr hp (by rw [hop]; rfl) (fun t => by rw [hop]; rfl) ?_, ?_⟩
  · rw [hact, Ctx.transferred_fence]
    exact State.fence_of_ready hr
  · rw [State.completed, State.closeBundle_ctx hcrw, hact]

theorem transferOf_ne_crw {op : Op} {top : Mask} {r : Bool × Bool × Bool} (h : Spec.transferOf op top = some r) : op ≠ .crw := by
  rintro rfl
  cases h

/-- Settles O7: a taken transfer leaves its target pending, and the link is the last result that lands with its bundle. -/
theorem transfersPendTheirTarget : Obligations.TransfersPendTheirTarget := by
  unfold Obligations.TransfersPendTheirTarget
  intro i s l o rel taken link hr hstraight hop target ha htext
  obtain ⟨take, hsem, htake⟩ := opSem_of_transferOf hop
  have htaken : take (s.ctx l).cur = taken := htake _ List.headD_eq_getD
  have hp := transferSem_passes hstraight hsem ha (fun h => htext (htaken ▸ h))
  obtain ⟨t, hexec, hctx⟩ := exec_transfer hr hsem hp (transferOf_ne_crw hop)
  rw [htaken, Ctx.looping_of_straight hstraight, State.rowOperands_prov_of_straight hr.1 hstraight.1] at hctx
  have hpc := (s.ctx l).transferred_pc taken link target o
  have hbranch := (s.ctx l).transferred_branch taken link target o
  have hctime := (s.ctx l).transferred_ctime taken link target o
  have hfl := (s.ctx l).transferred_flights taken link target o
  rw [hstraight.1] at hbranch
  refine ⟨t, hexec, ?_⟩
  generalize (s.ctx l).transferred taken link target o = x at hpc hbranch hctime hfl hctx
  have hlink (hl : link = true) (n : Nat) (hd : o.dest = some (.s, n)) (w : View) (hw : w.flights = x.cur.flights) :
      (w.land x.ctime).readReg .s n = .word ((s.ctx l).pc + 72) := by
    rw [hl] at hfl
    exact View.readReg_land_result (hw.trans hfl) hctime.ge hd
  cases taken with
  | true =>
    rw [Ctx.endBundle_taken (by simpa [Ctx.onView] using hbranch)] at hctx
    rw [hctx]
    refine ⟨by simpa [Ctx.onView] using hpc, rfl, fun n hl hd => ?_⟩
    exact (View.withFlights_keepsBut (touched := fun _ _ => False) _ _).reg .s n id |>.trans (hlink hl n hd _ (by simp [Ctx.onView]))
  | false =>
    rw [Ctx.endBundle_straight (by simpa [Ctx.onView] using hbranch)] at hctx
    rw [hctx]
    exact ⟨by simpa [Ctx.onView] using hpc, by simpa [Ctx.onView] using hbranch, fun n hl hd => hlink hl n hd _ (by simp [Ctx.onView])⟩

end Sys2Proof.Machine

/-! # The return from the handler (O11) -/

namespace Sys2Proof.Machine

theorem State.acting_ctx_ne (s : State) {l m : Loc} (h : m ≠ l) : (s.acting l).ctx m = s.ctx m := by
  rw [State.acting, State.ctx_setCtx_ne _ h, State.issued_ctx]

@[simp] theorem State.acting_mem (s : State) (l : Loc) : (s.acting l).mem = s.mem :=
  State.charge_mem (s.take l) l

/-- The context to which RTE returns, with each of its parts (R41, R248). -/
theorem Ctx.returnFromTrap_spec (x : Ctx) :
    let c := x.cur.ctl
    let didx := (c.tbranch.extractLsb' 0 2).toNat
    let y := x.returnFromTrap
    y.pc = c.tepc ∧ y.cur.ctl = { c with gbase := (c.hndst >>> 1) &&& 0x7F, hndst := c.hndst &&& ~~~0x1 } ∧
      y.branch = (if didx = 1 ∨ didx = 2 then some (didx, c.tbtgt) else none) ∧
      y = { x with pc := y.pc, cur := { x.cur with ctl := y.cur.ctl, looping := y.cur.looping }, fin := y.fin, branch := y.branch } := by
  intro c didx y
  have hd : bits c.tbranch 1 0 = didx := bits_eq_toNat_extractLsb' _ _ _
  have hg : BitVec.ofNat 64 (bits c.hndst 7 1) = (c.hndst >>> 1) &&& 0x7F := by
    apply BitVec.eq_of_toNat_eq
    have hmask : ((c.hndst >>> 1) &&& 0x7F).toNat = (c.hndst >>> 1).toNat % 2 ^ 7 := by
      rw [BitVec.toNat_and]
      exact Nat.and_two_pow_sub_one_eq_mod _ 7
    rw [hmask, BitVec.toNat_ofNat, BitVec.toNat_ushiftRight, bits]
    exact Nat.mod_eq_of_lt (lt_of_lt_of_le (Nat.mod_lt _ (by decide)) (by decide))
  simp only [y, Ctx.returnFromTrap]
  rw [← hg, show bits x.cur.ctl.tbranch 1 0 = didx from hd]
  split <;> exact ⟨rfl, rfl, rfl, rfl⟩

theorem rte_passes {s : State} {l : Loc} {o : Opd} (hs : (s.ctx l).straight) (hop : o.op = .rte)
    (hin : (s.ctx l).cur.ctl.hndst.getLsbD 0 = true) (ha : (s.ctx l).cur.ctl.tepc.toNat % 8 = 0) : (s.take l).passes l o := by
  obtain ⟨hb, -, hl⟩ := hs
  have hin' : (s.ctx l).cur.inHandler = true := hin
  rw [State.passes, hop, opSem_rte]
  refine ⟨?_, ?_, rfl, rfl⟩
  · change rteTarget (s.take l) l = none
    simp [rteTarget, bits_low, ha]
  · change rtePlace (s.take l) l = none
    simp [rtePlace, Ctx.inDelay, hb, hl, hin']

/-- Settles O11: the bundle of RTE ends with nothing in flight, and the return from the handler is the only change to its context. -/
theorem rteReturnsFromTheHandler : Obligations.RteReturnsFromTheHandler := by
  unfold Obligations.RteReturnsFromTheHandler
  intro i s l o hr hstraight hop hfl c didx hin ha
  have hcrw : o.op ≠ .crw := by rw [hop]; decide
  have hp := rte_passes hstraight hop hin ha
  have hprov := (State.rowOperands_prov_of_plain hr.1 (opSem_br_plainS (by rw [hop]; decide))).1
  have hafter (t : State) : (opSem o.op).after t l o = t.setCtx l (t.ctx l).returnFromTrap := by rw [hop]; rfl
  have hact (t : State) : (opSem o.op).act t l o = t := by rw [hop]; rfl
  generalize hu : ((s.acting l).closeBundle l o ((s.core l.core).vcount l.ctx) (s.ctx l).cur.looping) = u
  have hctx : u.ctx l = ((s.ctx l).unmarked.onView false fun w =>
      w.increment (opSem o.op) ((s.core l.core).vcount l.ctx) o.unit o.x).endBundle false := by
    rw [← hu, State.closeBundle_ctx hcrw, State.acting_ctx, hprov, Ctx.looping_of_straight hstraight]
  rw [Ctx.endBundle_straight (by simpa [Ctx.onView, Ctx.unmarked] using hstraight.1)] at hctx
  have hcur : (u.ctx l).cur = (s.ctx l).cur.increment (opSem o.op) ((s.core l.core).vcount l.ctx) o.unit o.x := by
    rw [hctx]
    exact View.land_of_none (by simpa [Ctx.onView] using hfl) _
  have hctl : (u.ctx l).cur.ctl = c := by rw [hcur, View.increment_ctl]
  obtain ⟨hpc, hcl, hbr, hrest⟩ := (u.ctx l).returnFromTrap_spec
  rw [hctl] at hpc hcl hbr
  have hexec := exec_boundary hr hp (by rw [hop]; rfl) (by
    rw [hafter, hact, hu, State.ctx_setCtx, hrest]
    change (u.ctx l).fence = []
    rw [hctx]
    exact State.fence_of_ready hr)
  rw [hafter, hact, hu] at hexec
  refine ⟨_, hexec, ?_⟩
  rw [State.ctx_setCtx]
  refine ⟨hpc, by rw [hcl], by rw [hcl], hbr, ?_, fun f n => ?_, ?_, fun m hm => ?_, ?_⟩
  · rw [hrest, hctx]
    rfl
  · rw [hrest, hcur]
    exact (View.readReg_congr rfl rfl rfl rfl rfl rfl f n).trans (View.increment_readReg ..)
  · rw [hrest, hcur]
    exact View.increment_stack ..
  · rw [State.ctx_setCtx_ne _ hm, ← hu, State.closeBundle_ctx_ne hcrw hm, State.acting_ctx_ne s hm]
  · rw [State.setCtx_mem, ← hu, State.closeBundle_mem _ _ _ hcrw, State.acting_mem]

end Sys2Proof.Machine

/-! # What transfers, MARK and YIELD keep (O27) -/

namespace Sys2Proof.Machine

/-! ### Changes of a core that leave its contexts -/

theorem State.setCore_ctx_of_ctxs {s : State} {c : Nat} {k : Core} (h : k.ctxs = (s.core c).ctxs) (m : Loc) :
    (s.setCore c k).ctx m = s.ctx m := by
  unfold State.ctx
  by_cases hc : m.core = c
  · rw [hc, State.core_setCore, Core.ctx, h]
    rfl
  · rw [State.core_setCore_ne _ hc]

@[simp] theorem State.post_ctx (s : State) (p d : Nat) (r : FaultRec) (m : Loc) : (s.post p d r).ctx m = s.ctx m := rfl

@[simp] theorem State.chargeOverrun_ctx (s : State) (l m : Loc) : (s.chargeOverrun l).ctx m = s.ctx m := by
  fun_cases State.chargeOverrun <;> rfl

@[simp] theorem State.restoreCore_ctx (s : State) (l : Loc) (undo : List CoreWord) (m : Loc) : (s.restoreCore l undo).ctx m = s.ctx m := by
  unfold State.restoreCore
  split
  · rfl
  · refine State.setCore_ctx_of_ctxs ?_ m
    exact List.foldlRecOn undo Core.putBack (motive := fun k : Core => k.ctxs = (s.core l.core).ctxs) rfl
      fun k hk w _ => by cases w <;> exact hk

/-! ### Releases that become final (R37, R207, R324) -/

/-- A context of which releases became final: a region may have ended, and nothing else moved. -/
def Ctx.Released (x y : Ctx) : Prop :=
  ∃ region fin releases, (x.fin = none → fin = none) ∧
    y = { x with cur := { x.cur with region := region }, fin := fin, releases := releases }

theorem Ctx.Released.refl (x : Ctx) : x.Released x := ⟨_, _, _, id, rfl⟩

theorem Ctx.Released.trans {x y z : Ctx} (h : x.Released y) (h' : y.Released z) : x.Released z := by
  obtain ⟨r, f, rs, hf, rfl⟩ := h
  obtain ⟨r', f', rs', hf', rfl⟩ := h'
  exact ⟨r', f', rs', fun hx => hf' (hf hx), rfl⟩

theorem State.releaseBanks_ctx (s : State) (l : Loc) (bs : List Nat) : (s.ctx l).Released ((s.releaseBanks l bs).ctx l) := by
  unfold State.releaseBanks
  split
  · rename_i b _
    rw [State.release, State.onView_ctx, State.setCore_ctx_of_ctxs]
    · exact ⟨_, _, _, fun h => by rw [h]; rfl, rfl⟩
    · exact List.foldlRecOn bs _ (motive := fun k : Core => k.ctxs = (s.core l.core).ctxs) rfl fun k hk n _ => hk
  · exact Ctx.Released.refl _

theorem State.finalReleases_ctx (s : State) (l : Loc) (time : Nat) : (s.ctx l).Released ((s.finalReleases l time).ctx l) := by
  refine List.foldlRecOn _ _ (motive := fun t : State => (s.ctx l).Released (t.ctx l)) ?_
    fun t ht e _ => ht.trans (State.releaseBanks_ctx t l e.2)
  rw [State.ctx_setCtx]
  exact ⟨_, _, _, id, rfl⟩

theorem State.resolveCore_ctx_untaken (s : State) (l : Loc) : (s.ctx l).Released ((s.resolveCore l false).ctx l) :=
  State.finalReleases_ctx s l _

theorem State.trapped_ctx (s : State) (l : Loc) : (s.ctx l).Released ((s.trapped l).ctx l) := by
  have h := State.finalReleases_ctx (s.restoreCore l (s.ctx l).undo) l ((s.ctx l).untaken + 1)
  rwa [State.restoreCore_ctx] at h

/-! ### A trap that does not enter the handler -/

theorem State.takeTrap_of_lodge {s : State} {l : Loc} {t : Trap} (h : s.entersHandler l t = false) (slot : Nat) (bd : Bool) (tepc : Word) :
    (s.takeTrap l t slot bd tepc).ctx l = (s.trappedCtx l).toLodge (t.word slot bd) tepc t.w62 t.w63 := by
  have hif : s.takeTrap l t slot bd tepc =
      (let s1 := ((s.trapped l).chargeOverrun l).setCtx l ((s.trappedCtx l).toLodge (t.word slot bd) tepc t.w62 t.w63)
       let k := s1.core l.core
       let s2 := if k.running = some l.ctx then s1.setCore l.core { k with running := none } else s1
       match (s.trappedCtx l).binding with
       | some b => s2.post b.pav b.vd ⟨5, t.cls.code, t.cause, l.core, l.ctx, 0, 0, tepc⟩
       | none => s2) := if_neg (by rw [Bool.not_eq_true]; exact h)
  have hrun (u : State) (hu : u.ctx l = (s.trappedCtx l).toLodge (t.word slot bd) tepc t.w62 t.w63) :
      (if (u.core l.core).running = some l.ctx then u.setCore l.core { u.core l.core with running := none } else u).ctx l =
        (s.trappedCtx l).toLodge (t.word slot bd) tepc t.w62 t.w63 := by
    split
    · rw [State.setCore_ctx_of_ctxs (by rfl), hu]
    · exact hu
  rw [hif]
  dsimp only
  split
  · rw [State.post_ctx]
    exact hrun _ (State.ctx_setCtx ..)
  · exact hrun _ (State.ctx_setCtx ..)

/-- A trap that finds nothing in flight keeps the registers where it does not enter the handler, which sets IN (R42, R246). -/
theorem State.takeTrap_keepsBut {touched : RFile → Nat → Prop} {s : State} {l : Loc} {t : Trap} {slot : Nat} {bd : Bool} {tepc : Word}
    (hfin : (s.ctx l).fin = none) (hfl : (s.ctx l).cur.flights = [])
    (hst : ((s.takeTrap l t slot bd tepc).ctx l).cur.ctl.hndst = (s.ctx l).cur.ctl.hndst) :
    (s.ctx l).cur.keepsBut touched ((s.takeTrap l t slot bd tepc).ctx l).cur := by
  obtain ⟨r, f, rs, hf, hx⟩ := State.trapped_ctx s l
  have hsettled : ((s.trappedCtx l).fin.getD (s.trappedCtx l).cur).complete = { (s.ctx l).cur with region := r } := by
    rw [State.trappedCtx, hx]
    dsimp only
    rw [hf hfin]
    exact View.complete_of_none hfl
  cases h : s.entersHandler l t with
  | true =>
    have hout : bit (s.ctx l).cur.ctl.hndst 0 = false := by
      unfold State.entersHandler at h
      rw [hsettled] at h
      simp only [Bool.and_eq_true, Bool.not_eq_true'] at h
      exact h.2
    have hin : bit ((s.takeTrap l t slot bd tepc).ctx l).cur.ctl.hndst 0 = true := by
      rw [State.takeTrap_of_handler h, State.ctx_setCtx]
      simp only [Ctx.enterHandler, View.writeReg_ctl]
      rw [bit, BitVec.getLsbD_ofNat, Nat.testBit_zero]
      simp
    rw [hst, hout] at hin
    cases hin
  | false =>
    rw [State.takeTrap_of_lodge h]
    change (s.ctx l).cur.keepsBut touched ((s.trappedCtx l).fin.getD (s.trappedCtx l).cur).complete
    rw [hsettled]
    exact View.withRegion_keepsBut _ r

/-! ### The choice of contexts (R35, R379) -/

/-- A context whose mode alone may have changed. -/
def Ctx.SameButMode (x y : Ctx) : Prop := y = { x with mode := y.mode }

theorem Ctx.SameButMode.refl (x : Ctx) : x.SameButMode x := rfl

theorem Ctx.SameButMode.trans {x y z : Ctx} (h : x.SameButMode y) (h' : y.SameButMode z) : x.SameButMode z := by
  unfold Ctx.SameButMode at *
  rw [h', h]

theorem State.setCtx_mode_ctx (s : State) (l m : Loc) (md : CtxMode) : (s.ctx m).SameButMode ((s.setCtx l { s.ctx l with mode := md }).ctx m) := by
  by_cases h : m = l
  · rw [h, State.ctx_setCtx]
    rfl
  · rw [State.ctx_setCtx_ne _ h]
    rfl

/-- The running context of a core no longer runs (R35). -/
def State.stoodDown (s : State) (core : Nat) : State :=
  match (s.core core).running with
  | some r => s.setCtx ⟨core, r⟩ { (s.core core).ctx r with
      mode := if ((s.core core).ctx r).mode = CtxMode.running then CtxMode.ready else ((s.core core).ctx r).mode }
  | none => s

/-- A context of a core runs, in the cycle in which it is chosen (R35). -/
def State.stoodUp (s : State) (core c : Nat) : State :=
  let v := s.setCore core { s.core core with running := some c, taken := some c }
  v.setCtx ⟨core, c⟩ { (v.core core).ctx c with mode := .running }

theorem State.switchTo_eq (s : State) (core c : Nat) :
    s.switchTo core c =
      if (s.core core).running = some c then s
      else match ((s.core core).ctx c).binding with
        | some b => ((s.stoodDown core).stoodUp core c).measured core b 1
        | none => (s.stoodDown core).stoodUp core c := rfl

theorem State.stoodDown_ctx (s : State) (core : Nat) (m : Loc) : (s.ctx m).SameButMode ((s.stoodDown core).ctx m) := by
  unfold State.stoodDown
  split
  · exact State.setCtx_mode_ctx s ⟨core, _⟩ m _
  · rfl

theorem State.stoodUp_ctx (s : State) (core c : Nat) (m : Loc) : (s.ctx m).SameButMode ((s.stoodUp core c).ctx m) := by
  have hv : (s.setCore core { s.core core with running := some c, taken := some c }).ctx m = s.ctx m :=
    State.setCore_ctx_of_ctxs (by rfl) m
  have h := State.setCtx_mode_ctx (s.setCore core { s.core core with running := some c, taken := some c }) ⟨core, c⟩ m .running
  rwa [hv] at h

theorem State.switchTo_ctx (s : State) (core c : Nat) (m : Loc) : (s.ctx m).SameButMode ((s.switchTo core c).ctx m) := by
  have h := (s.stoodDown_ctx core m).trans ((s.stoodDown core).stoodUp_ctx core c m)
  rw [State.switchTo_eq]
  split
  · rfl
  · split
    · rw [State.measured_ctx]
      exact h
    · exact h

theorem State.ctx_of_lendPick {s t : State} {arb : Nat} {from_ k : Option Nat} {ws : List Nat} (h : s.lendPick arb from_ ws = (k, t)) (m : Loc) :
    t.ctx m = s.ctx m := by
  have hcores : (s.lendPick arb from_ ws).2.cores = s.cores := by
    unfold State.lendPick
    dsimp only
    repeat' split
    all_goals rfl
  rw [h] at hcores
  unfold State.ctx State.core
  rw [hcores]

theorem State.selectAmong_ctx (s : State) (core : Nat) (cs : List Nat) (m : Loc) : (s.ctx m).SameButMode ((s.selectAmong core cs).ctx m) := by
  unfold State.selectAmong
  dsimp only
  repeat' split
  any_goals exact State.switchTo_ctx ..
  any_goals exact Ctx.SameButMode.refl _
  all_goals
    rw [← State.ctx_of_lendPick ‹_› m]
  · exact State.switchTo_ctx ..
  all_goals exact Ctx.SameButMode.refl _

theorem State.yieldAt_ctx (s : State) (l m : Loc) : (s.ctx m).SameButMode ((s.yieldAt l).ctx m) := by
  unfold State.yieldAt
  split
  · rfl
  · dsimp only
    split
    · exact State.selectAmong_ctx ..
    · rw [State.setCore_ctx_of_ctxs (by rfl)]
      exact State.selectAmong_ctx ..

/-! ### What the operations of O27 keep -/

/-- An operation that is not provisional and waits for nothing finds a trap or passes its checks (R392). -/
theorem trapped_or_passes {s : State} {l : Loc} {o : Opd} (hp : o.prov = false) (hb : (opSem o.op).blocks s l o = false) :
    (∃ st t, examineOperand (opSem o.op) s l o = .trap st t) ∨ s.passes l o := by
  unfold examineOperand
  split
  · exact .inl ⟨_, _, rfl⟩
  · split
    · exact .inl ⟨_, _, by rw [hp]; rfl⟩
    · split
      · exact .inl ⟨_, _, by rw [hp]; rfl⟩
      · exact .inr ⟨‹_›, ‹_›, ‹_›, hb⟩

theorem Eff.within_mono {touched more : RFile → Nat → Prop} (h : ∀ f n, touched f n → more f n) {e : Eff} (he : e.within touched) :
    e.within more := by
  cases e with
  | reg f n v lanes => exact h f n he
  | _ => exact he

section
variable {touched : RFile → Nat → Prop}

/-- The context in which a bundle ends whose trigger left its effects in flight. -/
theorem Ctx.endBundle_onView_keepsBut {x : Ctx} (hb : x.branch = none ∨ ∃ target, x.branch = some (0, target)) {prov : Bool} {sm : OpSem}
    {vc : Nat} {u : UnitId} {v : Value} (h : ∀ f ∈ x.cur.flights, ∀ e ∈ f.effs, e.within touched) :
    x.cur.keepsBut touched ((x.onView prov fun w => w.increment sm vc u v).endBundle false).cur :=
  (View.increment_keepsBut x.cur sm vc u v).trans
    (Ctx.endBundle_cur_keepsBut (x := x.onView prov fun w => w.increment sm vc u v) hb (by simpa using h))

theorem Ctx.afterFixed_keepsBut {x : Ctx} (hx : x.straight) (hfl : x.cur.flights = []) (vc : Nat) (o : Opd) (lat : Nat) {effs : List Eff}
    (he : ∀ e ∈ effs, e.within touched) : x.cur.keepsBut touched (x.afterFixed vc o lat effs).cur := by
  have hend := Ctx.endBundle_onView_keepsBut (touched := touched) (prov := o.prov) (sm := opSem o.op) (vc := vc) (u := o.unit) (v := o.x)
    (x := x.unmarked.onView o.prov fun w => { w with flights := w.flights ++ [⟨x.ctime + lat - 1, o.s, x.cur.inHandler, effs⟩] })
    (.inl hx.1) (by
      change ∀ f ∈ x.cur.flights ++ [_], _
      rw [hfl]
      simpa using he)
  rw [Ctx.onView_onView, ← Ctx.looping_of_straight hx] at hend
  exact (View.withFlights_keepsBut x.cur _).trans hend

theorem markEffs_within (x sw : Word) (h : ∀ n, touched .p n) : ∀ e ∈ markEffs x sw, e.within touched := by
  intro e he
  simp only [markEffs, List.mem_append, List.mem_cons, List.not_mem_nil, or_false, List.mem_map] at he
  obtain (rfl | rfl | rfl | rfl | rfl) | ⟨j, -, rfl⟩ := he
  iterate 4 simp [Eff.within]
  · trivial
  · exact h _

end

/-- The registers that a transfer, MARK or YIELD may write (R36, R112). -/
def Opd.mayWrite (o : Opd) (f : RFile) (n : Nat) : Prop := o.dest = some (f, n) ∨ (o.op = .mark ∧ f = .p)

theorem transfer_keepsBut {i : Instr} {s t : State} {l : Loc} {o : Opd} (hr : s.ready l i o) (hs : (s.ctx l).straight)
    (hfl : (s.ctx l).cur.flights = []) {top : Mask} {rel taken link : Bool} (hop : Spec.transferOf o.op top = some (rel, taken, link))
    (hp : (s.take l).passes l o) (h : exec i s = .next t) : (s.ctx l).cur.keepsBut o.mayWrite (t.ctx l).cur := by
  obtain ⟨take, hsem, -⟩ := opSem_of_transferOf hop
  obtain ⟨u, hexec, hctx⟩ := exec_transfer hr hsem hp (transferOf_ne_crw hop)
  obtain rfl : u = t := Host.Outcome.next.inj (hexec.symm.trans h)
  rw [hctx, Ctx.looping_of_straight hs]
  refine ((s.ctx l).transferred_keepsBut _ _ _ _).trans (Ctx.endBundle_onView_keepsBut ?_ ?_)
  · rw [Ctx.transferred_branch, hs.1]
    split
    · exact .inr ⟨_, rfl⟩
    · exact .inl rfl
  · rw [Ctx.transferred_flights, hfl]
    intro f hf e he
    split at hf
    · obtain rfl : f = _ := List.mem_singleton.mp hf
      exact Eff.within_mono (fun _ _ => .inl) (o.resultEffs_within _ _ e he)
    · cases hf

theorem mark_keepsBut {i : Instr} {s t : State} {l : Loc} {o : Opd} (hr : s.ready l i o) (hs : (s.ctx l).straight)
    (hfl : (s.ctx l).cur.flights = []) (hop : o.op = .mark) (hp : (s.take l).passes l o) (h : exec i s = .next t) :
    (s.ctx l).cur.keepsBut o.mayWrite (t.ctx l).cur := by
  have hexec : exec i s = .next (s.fixedNext l o 1 (markEffs o.xw o.b)) :=
    exec_after hr hp (by rw [hop]; rfl) (fun _ => by rw [hop]; rfl) (fun _ => by rw [hop]; rfl) (by rw [hop]; rfl)
  obtain rfl : s.fixedNext l o 1 (markEffs o.xw o.b) = t := Host.Outcome.next.inj (hexec.symm.trans h)
  rw [State.fixedNext, State.ctx_setCtx]
  exact Ctx.afterFixed_keepsBut hs hfl _ _ _ (markEffs_within _ _ fun _ => .inr ⟨hop, rfl⟩)

theorem yield_keepsBut {i : Instr} {s t : State} {l : Loc} {o : Opd} (hr : s.ready l i o) (hs : (s.ctx l).straight)
    (hfl : (s.ctx l).cur.flights = []) (hop : o.op = .yield) (hp : (s.take l).passes l o) (h : exec i s = .next t) :
    (s.ctx l).cur.keepsBut o.mayWrite (t.ctx l).cur := by
  have hcrw : o.op ≠ .crw := by rw [hop]; decide
  have hafter (u : State) : (opSem o.op).after u l o = u.yieldAt l := by rw [hop]; rfl
  have hact (u : State) : (opSem o.op).act u l o = u := by rw [hop]; rfl
  generalize hu : (s.acting l).closeBundle l o ((s.core l.core).vcount l.ctx) (s.ctx l).cur.looping = u
  have hmode := u.yieldAt_ctx l l
  have hexec := exec_boundary hr hp (by rw [hop]; rfl) (by
    rw [hafter, hact, hu, hmode, ← hu]
    simpa using State.fence_of_ready hr)
  rw [hafter, hact, hu] at hexec
  obtain rfl : u.yieldAt l = t := Host.Outcome.next.inj (hexec.symm.trans h)
  rw [hmode, ← hu, State.closeBundle_ctx hcrw, State.acting_ctx, Ctx.looping_of_straight hs]
  refine Ctx.endBundle_onView_keepsBut (x := (s.ctx l).unmarked) (.inl hs.1) ?_
  change ∀ f ∈ (s.ctx l).cur.flights, _
  simp [hfl]

/-- Settles O27: an operation of these that traps outside the handler settles what was in flight, and one that passes writes its link, its
stage predicates or nothing. -/
theorem transfersKeepTheOtherRegisters : Obligations.TransfersKeepTheOtherRegisters := by
  unfold Obligations.TransfersKeepTheOtherRegisters
  intro i s t l o hr hs hfl hop hexec hst
  have hbr : o.op ∈ opsOf .br := by
    revert hop
    cases o.op <;> decide
  have hprov := (State.rowOperands_prov_of_plain hr.1 (opSem_br_plainS hbr)).1
  have hkeep : (s.ctx l).cur.keepsBut o.mayWrite (t.ctx l).cur := by
    have hblocks : (opSem o.op).blocks (s.take l) l o = false := by
      simp only [List.mem_cons, List.not_mem_nil, or_false] at hop
      obtain h | h | h | h | h | h | h | h | h := hop <;> rw [h] <;> rfl
    obtain ⟨st, tr, htrap⟩ | hp := trapped_or_passes hprov hblocks
    · obtain rfl : (s.take l).takeTrap l tr o.slot false (s.ctx l).pc = t :=
        Host.Outcome.next.inj (((exec_examined hr.1 (State.mayIssue_of_ready hr)).1 st tr htrap).symm.trans hexec)
      have hctx := s.take_ctx l l
      rw [← hctx] at hst ⊢
      exact State.takeTrap_keepsBut (by rw [hctx]; exact Ctx.fin_of_straight hs) (by rw [hctx]; exact hfl) hst
    · simp only [List.mem_cons, List.not_mem_nil, or_false] at hop
      obtain h | h | h | h | h | h | h | h | h := hop
      iterate 7 exact transfer_keepsBut hr hs hfl (top := 0) (by rw [h]; rfl) hp hexec
      · exact mark_keepsBut hr hs hfl h hp hexec
      · exact yield_keepsBut hr hs hfl h hp hexec
  obtain ⟨hreg, hstack, hflags⟩ := hkeep
  exact ⟨fun f n hd hm => hreg f n fun hw => hw.elim hd fun ⟨h1, h2⟩ => hm h1 h2, hstack, hflags⟩

end Sys2Proof.Machine

/-! # The moves of a bundle: what they read, write and check (O21, O22) -/

namespace Sys2Proof.Machine

/-! ### Two plain moves between s registers -/

/-- The bundle whose slots 0 and 1 move s a to s c and s b to s d. -/
def twoMoves (a b c d : Nat) : List Item :=
  [.move 0 false false (.reg .s a) (.reg .s c), .move 0 false false (.reg .s b) (.reg .s d)] ++ List.replicate 6 Item.empty

/-- An enabled move from s a to s c. -/
def Live.ofS (slot a c : Nat) : Live := ⟨slot, false, false, .reg .s a, .reg .s c⟩

theorem liveMoves_twoMoves (w : View) (a b c d : Nat) : liveMoves w 0 (twoMoves a b c d) = [.ofS 0 a c, .ofS 1 b d] := by
  have hg : w.guard 0#4 = true := rfl
  simp [twoMoves, List.replicate, Item.empty, liveMoves, hg, Live.ofS]

/-- What a move between s registers of a scalar slot is before its bundle issues (R33, R86, R114). -/
theorem examinePlain_ofS {s : State} {l : Loc} (hl : (s.ctx l).cur.looping = false) (items : List Item) {slot : Nat}
    (hslot : slotBus slot = .scalar) (a c : Nat) :
    examinePlain s l items (.ofS slot a c) =
      if (s.ctx l).cur.isEmpty .s a then .trap 4 emptyReadTrap else .ok (.reg false false .s c ((s.ctx l).cur.readReg .s a)) := by
  have hsrc : readSrc s l items slot (.reg .s a) = .ok ((s.ctx l).cur.readReg .s a, (s.ctx l).cur.isEmpty .s a) := by
    simp [readSrc, hslot, busReads, srcNumber, hl]
  have hadapt : ((s.ctx l).cur.readReg .s a).adapt .word = some ((s.ctx l).cur.readReg .s a) := rfl
  simp [examinePlain, Live.ofS, hsrc, hslot, busWrites, dstNumber, hl, deliverable, fileWidth, hadapt, Exam.empty, Exam.later]

theorem examine_twoMoves (s : State) (l : Loc) (a b c d : Nat) :
    examine opSem s l (twoMoves a b c d) =
      [(0, examinePlain s l (twoMoves a b c d) (.ofS 0 a c)), (1, examinePlain s l (twoMoves a b c d) (.ofS 1 b d))] := by
  simp only [examine, liveMoves_twoMoves]
  simp [Live.isTrigger, Live.ofS]

theorem exec_transportMove {s : State} {l : Loc} (h : s.mayIssue l) (items : List Item) :
    exec (.transportMove items) s = .next ((s.take l).issue opSem l items) := by
  change Host.Outcome.next (s.bundle opSem items) = _
  unfold State.bundle
  rw [h.1]

theorem exec_transportMove_of_trap {s : State} {l : Loc} (h : s.mayIssue l) {items : List Item} {slot : Nat} {t : Trap}
    (hj : judge opSem (s.take l) l items = .trap slot t) :
    exec (.transportMove items) s = .next ((s.take l).takeTrap l t slot false (s.ctx l).pc) := by
  rw [exec_transportMove h, State.issue, State.take_ctx, h.2]
  simp only [hj]

/-- A bundle without accesses that passes its checks takes effect (R29, R392). -/
theorem exec_transportMove_of_go {s : State} {l : Loc} (h : s.mayIssue l) {items : List Item} {moves : List RMove}
    (hj : judge opSem (s.take l) l items = .go moves) (hacc : moves.any (RMove.isAccess opSem) = false) :
    exec (.transportMove items) s = .next ((s.issued l).perform opSem l moves) := by
  rw [exec_transportMove h, State.issue, State.take_ctx, h.2]
  simp only [hj, hacc, Bool.false_eq_true, if_false]
  rfl

/-! ### The exchange of two registers (O21) -/

theorem judge_exchange {s : State} {l : Loc} (hl : (s.ctx l).cur.looping = false) {a b : Nat} (hab : a ≠ b)
    (ha : (s.ctx l).cur.isEmpty .s a = false) (hb : (s.ctx l).cur.isEmpty .s b = false) :
    judge opSem s l (twoMoves a b b a) =
      .go [.reg false false .s b ((s.ctx l).cur.readReg .s a), .reg false false .s a ((s.ctx l).cur.readReg .s b)] := by
  simp only [judge, examine_twoMoves, liveMoves_twoMoves, examinePlain_ofS hl _ (show slotBus 0 = .scalar from rfl),
    examinePlain_ofS hl _ (show slotBus 1 = .scalar from rfl), ha, hb]
  simp [conflictSlot, Live.ofS, Live.target, dstNumber, hl, hab, firstTrap, passed]

/-- The state of a bundle that writes two registers, as its moves leave it in flight (R29, R32). -/
theorem applyMoves_two_regs (s : State) (l : Loc) (f g : RFile) (m n : Nat) (u v : Value) (hfin : (s.ctx l).fin = none) :
    ((s.applyMoves opSem l [.reg false false f m u, .reg false false g n v]).ctx l) =
      { s.ctx l with cur := { (s.ctx l).cur with flights := (s.ctx l).cur.flights ++
        [⟨(s.ctx l).ctime, false, (s.ctx l).cur.inHandler, [.reg f m u none]⟩,
         ⟨(s.ctx l).ctime, false, (s.ctx l).cur.inHandler, [.reg g n v none]⟩] } } := by
  simp [State.applyMoves, State.fly, Ctx.onView, View.latchMove, RMove.prov, hfin, View.inHandler]

/-- After a straight bundle of two register writes, in their order (R29, R32). -/
theorem readReg_perform_two_regs {s : State} {l : Loc} (hx : (s.ctx l).straight) (hf : (s.ctx l).fence = []) (hfl : (s.ctx l).cur.flights = [])
    (f g : RFile) (m n : Nat) (u v : Value) (h : RFile) (k : Nat) :
    ((s.perform opSem l [.reg false false f m u, .reg false false g n v]).ctx l).cur.readReg h k =
      (((s.ctx l).cur.writeReg f m u none).writeReg g n v none).readReg h k := by
  obtain ⟨hbranch, hfin, hl⟩ := hx
  generalize hs2 : (s.setCtx l (s.ctx l).unmarked).applyMoves opSem l [.reg false false f m u, .reg false false g n v] = s2
  have h2 := applyMoves_two_regs (s.setCtx l (s.ctx l).unmarked) l f g m n u v (by rw [State.ctx_setCtx]; exact hfin)
  rw [hs2, State.ctx_setCtx] at h2
  have h3 := Ctx.endBundle_straight (x := s2.ctx l) (by rw [h2]; exact hbranch)
  have hcur : ((s2.ctx l).endBundle false).cur = ((s.ctx l).cur.writeReg f m u none).writeReg g n v none := by
    rw [h3, h2]
    dsimp only [Ctx.unmarked]
    rw [hfl]
    simp [View.land, View.effect, View.withFlights_of_none hfl]
  have hfence : ((s2.ctx l).endBundle false).fence = [] := by
    rw [h3, h2]
    exact hf
  generalize hs4 : (if (s.ctx l).resolving then (s2.setCtx l ((s2.ctx l).endBundle false)).resolveCore l false
    else s2.setCtx l ((s2.ctx l).endBundle false)) = s4
  have h4 : ((s2.ctx l).endBundle false).Released (s4.ctx l) := by
    rw [← hs4]
    split
    · have h := State.resolveCore_ctx_untaken (s2.setCtx l ((s2.ctx l).endBundle false)) l
      rwa [State.ctx_setCtx] at h
    · rw [State.ctx_setCtx]
      exact .refl _
  have hperform : s.perform opSem l [.reg false false f m u, .reg false false g n v] =
      if (s4.ctx l).fence.isEmpty || !(s4.ctx l).goesOn then s4 else s4.block l .fence := by
    have hlast : (s.ctx l).inLastDelay = false := by rw [Ctx.inLastDelay, hbranch]
    unfold State.perform
    dsimp only
    rw [hs2, hl, hlast, hs4]
    rfl
  obtain ⟨r, fin, rs, -, h4⟩ := h4
  have hempty : (s4.ctx l).fence.isEmpty = true := by rw [h4]; exact List.isEmpty_iff.mpr hfence
  rw [hperform, hempty]
  change (s4.ctx l).cur.readReg h k = _
  rw [h4, ← hcur]
  exact View.readReg_congr rfl rfl rfl rfl rfl rfl h k

/-- Settles O21: the judgement reads both sources, and the two writes land at the end of the bundle. -/
theorem movesOfABundleReadBeforeTheyWrite : Obligations.MovesOfABundleReadBeforeTheyWrite := by
  unfold Obligations.MovesOfABundleReadBeforeTheyWrite
  intro s l a b hm hfence hx hfl _ _ hab ha hb
  have htake := s.take_ctx l l
  have hj := judge_exchange (s := s.take l) (l := l) (by rw [htake]; exact Ctx.looping_of_straight hx) hab (by rw [htake]; exact ha) (by rw [htake]; exact hb)
  rw [htake] at hj
  have hread := readReg_perform_two_regs (s := s.issued l) (l := l) (by rw [State.issued_ctx]; exact hx)
    (by rw [State.issued_ctx]; exact hfence) (by rw [State.issued_ctx]; exact hfl) .s .s b a ((s.ctx l).cur.readReg .s a)
    ((s.ctx l).cur.readReg .s b)
  rw [State.issued_ctx] at hread
  refine ⟨_, exec_transportMove_of_go hm hj rfl, ?_, ?_, fun f n hn => ?_⟩
  · rw [hread, View.readReg_writeReg_ne _ (fun _ => hab.symm), View.readReg_writeReg_s]
    rfl
  · rw [hread, View.readReg_writeReg_s]
    rfl
  · rw [hread, View.readReg_writeReg_ne _ (fun h => (hn h).1), View.readReg_writeReg_ne _ (fun h => (hn h).2)]

/-! ### Two writes of one register (O22) -/

theorem judge_twoWrites {s : State} {l : Loc} (hl : (s.ctx l).cur.looping = false) (a b c : Nat) :
    judge opSem s l (twoMoves a b c c) = .trap 0 (illegal 7) := by
  simp only [judge, examine_twoMoves, liveMoves_twoMoves, examinePlain_ofS hl _ (show slotBus 0 = .scalar from rfl),
    examinePlain_ofS hl _ (show slotBus 1 = .scalar from rfl)]
  cases (s.ctx l).cur.isEmpty .s a <;> cases (s.ctx l).cur.isEmpty .s b <;>
    simp [conflictSlot, Live.ofS, Live.target, dstNumber, hl, firstTrap]

theorem twoWritesOfARegisterTrap : Spec.TwoWritesOfARegisterTrap := by
  unfold Spec.TwoWritesOfARegisterTrap
  intro s l a b c hm hx _ _ _
  exact exec_transportMove_of_trap hm (judge_twoWrites (by rw [State.take_ctx]; exact Ctx.looping_of_straight hx) a b c)

/-! ### Sources of a trigger (O22) -/

section
variable {i : Instr} {s : State} {l : Loc} {u : UnitId} {op : Op} {m : Mv}

/-- What the trigger of a row is before its bundle issues (R392). -/
def State.examineRow (s : State) (l : Loc) (u : UnitId) (op : Op) (m : Mv) : Exam :=
  examineTrigger (fun _ => opSem op) (s.take l) l (oneItem m.slot (m.item u op)) (s.ctx l).cur [] ⟨m.slot, m.s, m.b, m.src, .trig u op⟩ u op

/-- A row that traps or waits before it issues (R392). -/
theorem exec_examineRow (hm : s.mayIssue l) (ht : i.trigger? = some (u, op, m)) (hslot : m.slot < 8) (hg : (s.ctx l).cur.guard m.g = true) :
    (∀ st t, s.examineRow l u op m = .trap st t → exec i s = .next ((s.take l).takeTrap l t m.slot false (s.ctx l).pc)) ∧
      (s.examineRow l u op m = .block → exec i s = .next ((s.take l).block l .bundle)) := by
  unfold State.examineRow
  rw [exec_trigger ht, runTrigger, State.bundle, hm.1]
  simp only [State.issue]
  rw [State.take_ctx, hm.2]
  simp only
  rw [judge_oneItem _ _ _ _ _ _ hslot (by simpa using hg), State.take_ctx]
  exact ⟨fun st t e => by simp [e], fun e => by simp [e]⟩

theorem View.readReg_width (w : View) (f : RFile) (n : Nat) : (w.readReg f n).width = fileWidth f := by
  cases f <;> rfl

theorem readSrc_reg {items : List Item} {slot : Nat} {f : RFile} {n : Nat} (hl : (s.ctx l).cur.looping = false)
    (hf : f ∈ busReads (slotBus slot)) (hn : f = .v → n < (s.core l.core).vcount l.ctx) :
    readSrc s l items slot (.reg f n) = .ok ((s.ctx l).cur.readReg f n, (s.ctx l).cur.isEmpty f n) := by
  have hv : ¬ (f = .v ∧ n ≥ (s.core l.core).vcount l.ctx) := fun ⟨h, h'⟩ => absurd (hn h) (Nat.not_lt.mpr h')
  simp [readSrc, srcNumber, hl, hf, hv]

theorem unconnectedSourcesTrap : Spec.UnconnectedSourcesTrap := by
  unfold Spec.UnconnectedSourcesTrap
  intro i s l u op m f n hm ht hslot hg hx hsrc
  have htrap := (exec_examineRow hm ht hslot hg).1 2
  refine ⟨fun hf => htrap _ ?_, fun hf hn hw => htrap _ ?_⟩
  · have h : readSrc s l (oneItem m.slot (m.item u op)) m.slot m.src = .error 2 := by simp [hsrc, readSrc, hf]
    simp [State.examineRow, examineTrigger, h]
  · have h : readSrc s l (oneItem m.slot (m.item u op)) m.slot m.src = _ := hsrc ▸ readSrc_reg (Ctx.looping_of_straight hx) hf hn
    have hadapt : ((s.ctx l).cur.readReg f n).adapt (opSem op).xw = none := by
      unfold Value.adapt
      rw [View.readReg_width, hw]
      rfl
    simp [State.examineRow, examineTrigger, h, hadapt]

/-! ### A source that is empty (O22) -/

/-- Latches that are all full leave none that was found empty (R33). -/
theorem emptyLatches_of_readLatches {before : View} {p : Port} {ls : List (Nat × Width)} {vs : List (Nat × Value)}
    (h : readLatches before p ls = .ok (vs, false)) : emptyLatches before p ls = [] := by
  induction ls generalizing vs with
  | nil => rfl
  | cons x ls ih =>
    obtain ⟨i, w⟩ := x
    simp only [readLatches] at h
    split at h
    · cases h
    · rename_i v e hv
      split at h
      · cases h
      · rename_i vs' e' hrest
        obtain ⟨-, he⟩ := Prod.mk.inj (Except.ok.inj h)
        obtain ⟨rfl, rfl⟩ := Bool.or_eq_false_iff.mp he
        have := ih hrest
        simp only [emptyLatches, List.map_eq_nil_iff] at this ⊢
        simp [hv, this]

theorem uses_any_zero (p : Part) : p.uses.any [0].contains = true ↔ 0 ∈ p.uses := by
  simp

theorem firstPart_eq_none {o : Opd} {ps : List Part} (h : ∀ p ∈ ps, 0 ∉ p.uses → p.test s l o = none) : firstPart s l o [0] ps = none := by
  induction ps with
  | nil => rfl
  | cons p ps ih =>
    have hrest := ih fun q hq => h q (List.mem_cons_of_mem p hq)
    rw [firstPart]
    split
    · exact hrest
    · rename_i hu
      rw [h p List.mem_cons_self (fun h0 => hu ((uses_any_zero p).mpr h0))]
      exact hrest

theorem firstPart_append {o : Opd} {before rest : List Part} {p : Part} {tr : Trap}
    (h : ∀ q ∈ before, 0 ∈ q.uses ∨ q.test s l o = none) (hu : 0 ∉ p.uses) (ht : p.test s l o = some tr) :
    firstPart s l o [0] (before ++ p :: rest) = some (p.stage, tr) := by
  induction before with
  | nil =>
    rw [List.nil_append, firstPart, if_neg (fun h0 => hu ((uses_any_zero p).mp h0)), ht]
  | cons q before ih =>
    have hrest := ih fun r hr => h r (List.mem_cons_of_mem q hr)
    rw [List.cons_append, firstPart]
    split
    · exact hrest
    · rename_i hq
      rw [(h q List.mem_cons_self).resolve_left (fun h0 => hq ((uses_any_zero q).mpr h0))]
      exact hrest

/-- A trigger that finds its source alone empty is examined by the checks that do not read it (R33, R392). -/
theorem examineRow_of_empty {f : RFile} {n : Nat} {vs : List (Nat × Value)} {r : Option RegRef} (hx : (s.ctx l).straight)
    (hout : (m.s && (opSem op).outward) = false) (hsrc : m.src = .reg f n) (hf : f ∈ busReads (slotBus m.slot))
    (hn : f = .v → n < (s.core l.core).vcount l.ctx) (he : (s.ctx l).cur.isEmpty f n = true)
    (hw : (fileWidth f).adapts (opSem op).xw = true)
    (hls : readLatches (s.ctx l).cur ((s.ctx l).cur.port u) (if (opSem op).needs (.word 0) then (opSem op).latches else []) = .ok (vs, false))
    (hsel : readSel ((s.ctx l).cur.port u) (opSem op).sel = .ok r) :
    ∃ o : Opd, (o.slot = m.slot ∧ o.unit = u ∧ o.op = op ∧ o.prov = false ∧ o.sel = r ∧ o.o1 = Table.find? vs 1 ∧
        o.o2 = Table.find? vs 2 ∧ o.o3 = Table.find? vs 3) ∧
      s.examineRow l u op m = examineUnread (opSem op) (s.take l) l o [0] true m.b := by
  have h : readSrc s l (oneItem m.slot (m.item u op)) m.slot m.src = _ := hsrc ▸ readSrc_reg (Ctx.looping_of_straight hx) hf hn
  obtain ⟨v', hadapt⟩ : ∃ v', ((s.ctx l).cur.readReg f n).adapt (opSem op).xw = some v' := by
    unfold Value.adapt
    rw [View.readReg_width, hw, if_pos rfl]
    cases (opSem op).xw <;> exact ⟨_, rfl⟩
  have hdelay : (s.ctx l).inDelay = false := by rw [Ctx.inDelay, hx.1]; rfl
  have hfull := emptyLatches_of_readLatches hls
  unfold State.examineRow examineTrigger
  simp only [readSrc_take, State.take_ctx, h, hadapt, hout, he, hls, hsel, hdelay, hfull, if_true, List.contains_nil, Bool.not_false,
    List.filter_true, Bool.false_eq_true, if_false, List.filter_false, List.map_nil, Bool.true_or, List.append_nil]
  exact ⟨_, ⟨rfl, rfl, rfl, by simp, rfl, rfl, rfl, rfl⟩, rfl⟩

end

theorem emptySourcesWaitOrTrap : Spec.EmptySourcesWaitOrTrap := by
  unfold Spec.EmptySourcesWaitOrTrap
  intro i s l u op m f n vs r hm ht hslot hg hx hout hsrc hf hn he hw hls hsel mine
  obtain ⟨o, hmine, hexam⟩ := examineRow_of_empty hx hout hsrc hf hn he hw hls hsel
  obtain ⟨htrap, hblock⟩ := exec_examineRow hm ht hslot hg
  have ⟨_, _, _, hprov, _⟩ := hmine
  refine ⟨fun hparts => ?_, fun before p rest tr hps hbefore hu hstage hp => ?_⟩
  · have hnone := firstPart_eq_none fun p hp hu => hparts p hp hu o hmine
    have hempty : s.examineRow l u op m = .empty false m.b := by
      rw [hexam, examineUnread, hnone, hprov] <;> rfl
    exact ⟨fun hb => hblock (by rw [hempty, hb]; rfl), fun hb => htrap 4 _ (by rw [hempty, hb]; rfl)⟩
  · have hsome := firstPart_append (rest := rest) (fun q hq => (hbefore q hq).imp id fun h => h o hmine) hu (hp o hmine)
    refine htrap p.stage _ ?_
    rw [hexam, examineUnread, hps, hsome, hprov]
    dsimp only
    split
    · rename_i h2
      rw [h2]
    · rw [if_neg (by simp; omega)]
      rfl

/-- Settles O22: a trigger whose source is empty is examined by its other checks alone, and the conflict of two moves is of stage 2. -/
theorem sourcesAndDestinationsAreChecked : Obligations.SourcesAndDestinationsAreChecked := by
  unfold Obligations.SourcesAndDestinationsAreChecked
  exact ⟨emptySourcesWaitOrTrap, unconnectedSourcesTrap, twoWritesOfARegisterTrap⟩

end Sys2Proof.Machine

/-! # What an engine read finds, and its value on the way (O29) -/

namespace Sys2Proof.Machine

/-! ### Lanes and bits that a function gives (R121) -/

theorem lanesNat_lane (f : Nat → Lane) (i n j : Nat) (h : j < n) : lanesNat f i n / 2 ^ (32 * j) % 2 ^ 32 = (f (i + j)).toNat := by
  induction n generalizing i j with
  | zero => exact absurd h (Nat.not_lt_zero j)
  | succ n ih =>
    have hf := (f i).isLt
    cases j with
    | zero =>
      rw [lanesNat, Nat.mul_zero, pow_zero, Nat.div_one, Nat.add_mul_mod_self_left, Nat.mod_eq_of_lt hf, Nat.add_zero]
    | succ j =>
      have hpow : 2 ^ (32 * (j + 1)) = 2 ^ 32 * 2 ^ (32 * j) := by rw [← Nat.pow_add, Nat.mul_succ, Nat.add_comm]
      rw [lanesNat, hpow, ← Nat.div_div_eq_div_mul, Nat.add_mul_div_left _ _ (Nat.two_pow_pos 32), Nat.div_eq_of_lt hf, Nat.zero_add,
        ih (i + 1) j (Nat.lt_of_succ_lt_succ h), Nat.add_assoc, Nat.add_comm 1 j]

theorem lanesNat_lt (f : Nat → Lane) (i n : Nat) : lanesNat f i n < 2 ^ (32 * n) := by
  induction n generalizing i with
  | zero => exact Nat.one_pos
  | succ n ih =>
    have hf := (f i).isLt
    have hpow : 2 ^ (32 * (n + 1)) = 2 ^ 32 * 2 ^ (32 * n) := by rw [← Nat.pow_add, Nat.mul_succ, Nat.add_comm]
    have := ih (i + 1)
    rw [lanesNat, hpow]
    calc (f i).toNat + 2 ^ 32 * lanesNat f (i + 1) n < 2 ^ 32 + 2 ^ 32 * lanesNat f (i + 1) n := Nat.add_lt_add_right hf _
      _ = 2 ^ 32 * (lanesNat f (i + 1) n + 1) := by rw [Nat.mul_succ, Nat.add_comm]
      _ ≤ 2 ^ 32 * 2 ^ (32 * n) := Nat.mul_le_mul_left _ this

/-- A lane of the vector that a function gives is what it gives there. -/
theorem lane_ofLanes (f : Nat → Lane) {j : Nat} (h : j < 128) : lane (ofLanes f) j = f j := by
  have hl := lanesNat_lane f 0 128 j h
  rw [Nat.zero_add] at hl
  apply BitVec.eq_of_toNat_eq
  rw [lane, ofLanes, BitVec.extractLsb'_toNat, BitVec.toNat_ofNat, Nat.mod_eq_of_lt (lanesNat_lt f 0 128), Nat.shiftRight_eq_div_pow, hl]

theorem testBit_bitsNat (f : Nat → Bool) (i n j : Nat) : (bitsNat f i n).testBit j = (decide (j < n) && f (i + j)) := by
  induction n generalizing i j with
  | zero => simp [bitsNat]
  | succ n ih =>
    have hb : b2n (f i) < 2 := by unfold b2n; split <;> decide
    cases j with
    | zero =>
      rw [bitsNat, Nat.testBit_zero, Nat.add_mul_mod_self_left, Nat.mod_eq_of_lt hb, Nat.add_zero]
      cases f i <;> rfl
    | succ j =>
      have hdiv : (b2n (f i) + 2 * bitsNat f (i + 1) n) / 2 = bitsNat f (i + 1) n := by omega
      rw [bitsNat, Nat.testBit_succ, hdiv, ih, Nat.add_assoc, Nat.add_comm 1 j]
      simp

/-! ### What the issue of a bundle leaves of what engines read -/

/-- Two states of a core in which the engines find the same. -/
structure Core.SameData (j k : Core) : Prop where
  cycle : j.cycle = k.cycle
  pool : j.pool = k.pool
  sectorKey : j.sectorKey = k.sectorKey
  fmt : j.fmt = k.fmt
  ztiles : j.ztiles = k.ztiles
  slots : j.slots = k.slots
  frames : j.frames = k.frames

theorem Core.SameData.refl (k : Core) : k.SameData k := ⟨rfl, rfl, rfl, rfl, rfl, rfl, rfl⟩

/-- Two states in which a device reads the same of the pool. -/
structure State.SameReads (s t : State) : Prop where
  core : ∀ c, (s.core c).SameData (t.core c)
  keys : s.keys = t.keys
  vdcfg : ∀ p d, (s.dev p d).vdcfg = (t.dev p d).vdcfg

theorem State.SameReads.trans {s t u : State} (h : s.SameReads t) (h' : t.SameReads u) : s.SameReads u where
  core c := by
    obtain ⟨h1, h2, h3, h4, h5, h6, h7⟩ := h.core c
    obtain ⟨g1, g2, g3, g4, g5, g6, g7⟩ := h'.core c
    exact ⟨h1.trans g1, h2.trans g2, h3.trans g3, h4.trans g4, h5.trans g5, h6.trans g6, h7.trans g7⟩
  keys := h.keys.trans h'.keys
  vdcfg p d := (h.vdcfg p d).trans (h'.vdcfg p d)

theorem State.SameReads.setCore {s : State} {c : Nat} {k : Core} (h : k.SameData (s.core c)) : (s.setCore c k).SameReads s where
  core d := by
    by_cases hd : d = c
    · rw [hd, State.core_setCore]
      exact h
    · rw [State.core_setCore_ne _ hd]
      exact .refl _
  keys := rfl
  vdcfg _ _ := rfl

theorem State.SameReads.setCtx (s : State) (l : Loc) (x : Ctx) : (s.setCtx l x).SameReads s :=
  .setCore ⟨rfl, rfl, rfl, rfl, rfl, rfl, rfl⟩

theorem State.SameReads.setDev {s : State} {p d : Nat} {x : Dev} (h : x.vdcfg = (s.dev p d).vdcfg) : (s.setDev p d x).SameReads s where
  core _ := .refl _
  keys := rfl
  vdcfg q e := by
    unfold State.setDev State.dev State.pav State.setPav
    by_cases hq : q = p
    · rw [hq, Table.getD_set_self]
      by_cases he : e = d
      · rw [he, Table.getD_set_self]
        exact h
      · rw [Table.getD_set_ne _ he]
    · rw [Table.getD_set_ne _ hq]

theorem Dev.setDeficit_vdcfg (d : Dev) (x : Int) : (d.setDeficit x).vdcfg = d.vdcfg := by rw [Dev.setDeficit]

theorem State.SameReads.measured (s : State) (c : Nat) (b : Binding) (n : Nat) : (s.measured c b n).SameReads s := by
  unfold State.measured
  dsimp only
  refine (State.SameReads.setCore ?_).trans (State.SameReads.setDev ?_)
  · exact ⟨rfl, rfl, rfl, rfl, rfl, rfl, rfl⟩
  · exact Dev.setDeficit_vdcfg _ _

theorem State.SameReads.charge (s : State) (l : Loc) : (s.charge l).SameReads s := by
  unfold State.charge
  split
  · exact ⟨fun _ => .refl _, rfl, fun _ _ => rfl⟩
  · dsimp only
    refine (State.SameReads.measured _ _ _ _).trans ?_
    split <;> exact ⟨fun _ => .refl _, rfl, fun _ _ => rfl⟩

/-- A bundle that issues has changed nothing that its operation reads of the engines and the pool (R29). -/
theorem State.SameReads.acting (s : State) (l : Loc) : (s.acting l).SameReads s :=
  (State.SameReads.setCtx _ l _).trans ((State.SameReads.charge _ l).trans (.setCore ⟨rfl, rfl, rfl, rfl, rfl, rfl, rfl⟩))

theorem State.SameReads.poolByte {s t : State} (h : s.SameReads t) (c : Nat) (a : Accessor) (i : Nat) :
    s.poolByte c a i = t.poolByte c a i := by
  have hk (p d : Nat) : (s.dev p d).kidx = (t.dev p d).kidx := congrArg (fun x : Word => bits x 16 9) (h.vdcfg p d)
  have hallows (k : Nat) : s.keyAllows a k = t.keyAllows a k := by
    simp only [State.keyAllows, Dev.enabled, Dev.tenant, Dev.hostedBy, h.keys, h.vdcfg]
  have hserial (k : Nat) : s.serialOf k = t.serialOf k := by
    unfold State.serialOf
    rw [h.keys]
  obtain ⟨-, hpool, hsec, hfmt, -, -, hframes⟩ := h.core c
  simp only [State.poolByte, hserial, Core.reservedByte, Core.fmtOf, Core.frameHeld, hk, hallows, hpool, hsec, hfmt, hframes]
  rfl

theorem State.SameReads.poolNat {s t : State} (h : s.SameReads t) (c : Nat) (a : Accessor) (i n : Nat) :
    s.poolNat c a i n = t.poolNat c a i n := by
  simp only [State.poolNat, State.poolBytes, h.poolByte]

theorem State.SameReads.fadeBit {s t : State} (h : s.SameReads t) (c : Nat) (a : Accessor) (f : Frame) (n : Nat) :
    s.fadeBit c a f n = t.fadeBit c a f n := by
  simp only [State.fadeBit, h.poolByte]

theorem State.SameReads.slot {s t : State} (h : s.SameReads t) (c n : Nat) : (s.core c).slot n = (t.core c).slot n := by
  simp only [Core.slot, (h.core c).slots]

theorem State.SameReads.frameOf {s t : State} (h : s.SameReads t) (c n : Nat) : (s.core c).frameOf n = (t.core c).frameOf n := by
  simp only [Core.frameOf, h.slot, (h.core c).frames]

theorem State.SameReads.ztile {s t : State} (h : s.SameReads t) (c n : Nat) : (s.core c).ztile n = (t.core c).ztile n := by
  simp only [Core.ztile, (h.core c).ztiles]

theorem State.acting_accessor (s : State) (l : Loc) : (s.acting l).accessor l = s.accessor l := by
  unfold State.accessor
  rw [State.acting_ctx]
  rfl

@[simp] theorem State.charge_opId (s : State) (l : Loc) : (s.charge l).opId = s.opId := by
  unfold State.charge
  split
  · rfl
  · dsimp only
    change (if _ then _ else _ : State).opId = _
    split <;> rfl

@[simp] theorem State.acting_opId (s : State) (l : Loc) : (s.acting l).opId = s.opId :=
  (State.charge_opId _ l).trans (State.take_opId s l)

/-! ### A value on its way (R31, R252) -/

/-- The start of a long-latency operation in a view (R31). -/
def View.started (w : View) (o : Opd) (id : Nat) (hset : Bool) : View :=
  let w' := match o.dest with | some (f, n) => w.markEmpty f n true | none => w
  { w' with pending := w'.pending ++ [⟨id, o.unit, o.dest, none, hset⟩] }

theorem View.started_isEmpty {w : View} {o : Opd} {f : RFile} {n : Nat} (hd : o.dest = some (f, n)) (hf : f = .s ∨ f = .v) (hn : n < 64)
    (id : Nat) (hset : Bool) : (w.started o id hset).isEmpty f n = true := by
  have h : (w.markEmpty f n true).isEmpty f n = true := View.isEmpty_markEmpty hf hn true
  unfold View.started
  rw [hd]
  obtain rfl | rfl := hf <;> exact h

theorem View.started_flights (w : View) (o : Opd) (id : Nat) (hset : Bool) : (w.started o id hset).flights = w.flights := by
  unfold View.started
  dsimp only
  split
  · rename_i f n _
    cases f <;> rfl
  · rfl

/-- A context one of whose long-latency operations has started, with its value on its way. -/
def Ctx.onItsWay (x : Ctx) (o : Opd) (id : Nat) (d : Landing) : Ctx :=
  { x.onView o.prov (fun w => w.started o id x.cur.inHandler) with landings := x.landings.set id d }

theorem State.startLong_ctx (s : State) (l : Loc) (o : Opd) :
    (s.startLong l o none).2.ctx l = (s.ctx l).onView o.prov fun w => w.started o s.opId (s.ctx l).cur.inHandler :=
  State.onView_ctx ..

theorem State.deliverLong_ctx (s : State) (l : Loc) (id lat : Nat) (v : Option Value) :
    (s.deliverLong l id lat v).ctx l =
      { s.ctx l with landings := (s.ctx l).landings.set id ⟨(s.core l.core).cycle + 1 + lat, v, none⟩ } :=
  State.ctx_setCtx ..

theorem State.startLong_cycle (s : State) (l : Loc) (o : Opd) : ((s.startLong l o none).2.core l.core).cycle = (s.core l.core).cycle := by
  change (((({ s with opId := s.opId + 1 } : State).setCtx l _).core l.core).cycle = _)
  rw [State.core_setCtx]
  rfl

theorem State.startDeliver_ctx (s : State) (l : Loc) (o : Opd) (lat : Nat) (v : Option Value) :
    (((s.startLong l o none).2).deliverLong l s.opId lat v).ctx l =
      (s.ctx l).onItsWay o s.opId ⟨(s.core l.core).cycle + 1 + lat, v, none⟩ := by
  rw [State.deliverLong_ctx, State.startLong_ctx, State.startLong_cycle]
  rfl

/-- An operation whose value is on its way completes: the landing stands, and its destination is empty (R31). -/
theorem exec_onItsWay {i : Instr} {s : State} {l : Loc} {o : Opd} {tiles : Table Tile} {d : Landing} (hr : s.ready l i o)
    (hp : (s.take l).passes l o) (hx : (s.ctx l).straight) (hfl : (s.ctx l).cur.flights = []) (hcrw : o.op ≠ .crw)
    (hacc : (opSem o.op).access = none) (hafter : ∀ t, (opSem o.op).after t l o = t)
    (hact : ((opSem o.op).act (s.acting l) l o).ctx l = ({ (s.ctx l).unmarked with tiles := tiles } : Ctx).onItsWay o s.opId d) :
    ∃ t, exec i s = .next t ∧ (t.ctx l).landings.find? s.opId = some d ∧
      ∀ f n, o.dest = some (f, n) → (f = .s ∨ f = .v) → n < 64 → (t.ctx l).cur.isEmpty f n = true := by
  refine ⟨_, exec_acts hr hp hacc hafter (by rw [hact]; exact State.fence_of_ready hr), ?_⟩
  rw [State.completed, State.closeBundle_ctx hcrw, hact, Ctx.looping_of_straight hx, Ctx.endBundle_straight (by exact hx.1)]
  refine ⟨Table.find?_set_self _ _ _, fun f n hd hf hn => ?_⟩
  have hflights : ((((({ (s.ctx l).unmarked with tiles := tiles } : Ctx).onItsWay o s.opId d).onView o.prov fun w =>
      w.increment (opSem o.op) ((s.core l.core).vcount l.ctx) o.unit o.x)).cur).flights = [] :=
    (View.increment_flights ..).trans ((View.started_flights ..).trans hfl)
  dsimp only
  rw [View.land_of_none hflights]
  exact (View.increment_isEmpty ..).trans (View.started_isEmpty hd hf hn _ _)

/-! ### AREAD -/

theorem State.setTileStat_ctx (s : State) (l : Loc) (code : Nat) (st : TileStat) :
    ∃ tiles, (s.setTileStat l code st).ctx l = { s.ctx l with tiles := tiles } := by
  unfold State.setTileStat
  split
  · exact ⟨_, State.ctx_setCtx ..⟩
  · exact ⟨_, State.setCore_ctx_of_ctxs (by rfl) l⟩

theorem State.setTileStat_cycle (s : State) (l : Loc) (code : Nat) (st : TileStat) :
    ((s.setTileStat l code st).core l.core).cycle = (s.core l.core).cycle := by
  unfold State.setTileStat
  split
  · rw [State.core_setCtx, Core.setCtx_cycle]
  · rw [State.core_setCore]

theorem State.setTileStat_opId (s : State) (l : Loc) (code : Nat) (st : TileStat) : (s.setTileStat l code st).opId = s.opId := by
  unfold State.setTileStat
  split <;> rfl

/-- A lane of a row of a z tile (R165). -/
theorem accLane_eq (a : Acc) (n : Nat) : accLane a n = match n with
    | 0 => a.w.extractLsb' 0 32
    | 1 => a.w.extractLsb' 32 32
    | 2 => a.e.signExtend 32
    | _ => BitVec.ofNat 32 a.status := by
  unfold accLane
  match n with
  | 0 => exact (BitVec.setWidth_eq_extractLsb' (by decide))
  | 1 =>
    refine (if_neg (by decide)).trans ((if_pos rfl).trans ?_)
    rw [bits_eq_toNat_extractLsb']
    rw [BitVec.ofNat_toNat]
    exact BitVec.setWidth_eq _
  | 2 => rfl
  | n + 3 => simp

/-- The row that AREAD reads (R165). -/
def State.tileRow (s : State) (l : Loc) (o : Opd) : Vec :=
  ofLanes fun i => accLane (((s.core l.core).ztile (o.xw.toNat - 32)).elem (128 * bits o.b 6 0 + i)) (bits o.b 8 7)

theorem State.SameReads.tileRow {s t : State} (h : s.SameReads t) (l : Loc) (o : Opd) : s.tileRow l o = t.tileRow l o := by
  simp only [State.tileRow, h.ztile]

theorem aread_act (s : State) (l : Loc) (o : Opd) :
    ∃ tiles, (semAread.act s l o).ctx l = ({ s.ctx l with tiles := tiles } : Ctx).onItsWay o s.opId
      ⟨(s.core l.core).cycle + 7, some (.vec (s.tileRow l o)), some o.xw.toNat⟩ := by
  generalize hu : s.setTileStat l o.xw.toNat (TileRole.enter .source (s.tileStat l o.xw.toNat)) = u
  obtain ⟨tiles, hctx⟩ := s.setTileStat_ctx l o.xw.toNat (TileRole.enter .source (s.tileStat l o.xw.toNat))
  have hcycle := s.setTileStat_cycle l o.xw.toNat (TileRole.enter .source (s.tileStat l o.xw.toNat))
  have hid := s.setTileStat_opId l o.xw.toNat (TileRole.enter .source (s.tileStat l o.xw.toNat))
  rw [hu] at hctx hcycle hid
  have hstart := u.startDeliver_ctx l o 6 (some (.vec (s.tileRow l o)))
  have hdeliver : (((u.startLong l o none).2.deliverLong l u.opId 6 (some (.vec (s.tileRow l o)))).core l.core).cycle = (s.core l.core).cycle := by
    rw [State.deliverLong, State.core_setCtx, Core.setCtx_cycle, State.startLong_cycle, hcycle]
  have hact : semAread.act s l o = ((u.startLong l o none).2.deliverLong l u.opId 6 (some (.vec (s.tileRow l o)))).setCtx l
      { ((u.startLong l o none).2.deliverLong l u.opId 6 (some (.vec (s.tileRow l o)))).ctx l with
        landings := (((u.startLong l o none).2.deliverLong l u.opId 6 (some (.vec (s.tileRow l o)))).ctx l).landings.set u.opId
          ⟨(((u.startLong l o none).2.deliverLong l u.opId 6 (some (.vec (s.tileRow l o)))).core l.core).cycle + 7,
            some (.vec (s.tileRow l o)), some o.xw.toNat⟩ } := by
    rw [← hu]
    rfl
  refine ⟨tiles, ?_⟩
  rw [hact, State.ctx_setCtx, hstart, hdeliver, hctx, hid]
  simp only [Ctx.onItsWay, Table.set_set]

/-! ### SREAD -/

/-- The elements that SREAD reads of the frame of a slot (R181). -/
def State.frameRow (s : State) (l : Loc) (n : Nat) (o : Opd) : Vec :=
  ofLanes fun i =>
    let f := (s.core l.core).frameOf n
    let a := s.accessor l
    let n := bits o.xw 17 0 + i
    let word := bits o.xw 19 18
    if n ≥ f.ne then 0
    else if word = 0 then BitVec.ofNat 32 (s.poolNat l.core a (f.hAddr n) 4)
    else if word = 1 then BitVec.ofNat 32 (s.poolNat l.core a (f.cAddr n) 4)
    else BitVec.ofNat 32 (b2n (s.fadeBit l.core a f n))

theorem State.frameRow_acting (s : State) (l : Loc) (n : Nat) (o : Opd) : (s.acting l).frameRow l n o = s.frameRow l n o := by
  have h := State.SameReads.acting s l
  simp only [State.frameRow, h.frameOf, h.poolNat, h.fadeBit, State.acting_accessor]

theorem sread_act (s : State) (l : Loc) (o : Opd) :
    (semSread.act s l o).ctx l = (s.ctx l).onItsWay o s.opId
      ⟨(s.core l.core).cycle + 7, some (.vec (s.frameRow l (cfgSlot (s.ctx l).cur.ctl.sccfg) o)), none⟩ :=
  s.startDeliver_ctx l o 6 _

/-! ### FSTAT -/

theorem State.SameReads.fstat {s t : State} (h : s.SameReads t) (c : Nat) (a : Accessor) (n : Nat) (sel : Word) :
    s.fstat c a n sel = t.fstat c a n sel := by
  simp only [State.fstat, State.someFaded, State.poolBytes, h.slot, h.frameOf, h.fadeBit, h.poolByte]

theorem fstat_act (s : State) (l : Loc) (o : Opd) :
    (semFstat.act s l o).ctx l = (s.ctx l).onItsWay o s.opId
      ⟨(s.core l.core).cycle + 5, some (.word (s.fstat l.core (s.accessor l) (cmdSlot o.xw) o.b)), none⟩ :=
  s.startDeliver_ctx l o 4 _

/-- A byte is not 0 where one of its bits is 1. -/
theorem byte_ne_zero_iff (b : Byte) : (b != 0) = true ↔ ∃ i < 8, b.getLsbD i = true := by
  have hzero (i : Nat) : (0 : Byte).getLsbD i = false := BitVec.getLsbD_zero
  rw [bne_iff_ne]
  refine ⟨fun h => ?_, fun ⟨i, _, hb⟩ h0 => ?_⟩
  · by_contra hno
    refine h (BitVec.eq_of_getLsbD_eq fun i hi => ?_)
    rw [hzero, Bool.eq_false_iff]
    exact fun hb => hno ⟨i, hi, hb⟩
  · rw [h0, hzero] at hb
    cases hb

/-- FADED of a frame of whole bytes of F: some F[n] is 1 (R187). -/
theorem State.someFaded_iff (s : State) (core : Nat) (a : Accessor) (f : Frame) (h : f.ne % 32 = 0) :
    s.someFaded core a f = true ↔ ∃ n < f.ne, Spec.fadeOf s core a f n = true := by
  have hbyte (j : Nat) : f.fAddr 0 + j = 65536 * f.bank + 64 + 8 * f.ne + j := by rw [Frame.fAddr, Nat.zero_div, Nat.add_zero]
  simp only [State.someFaded, State.poolBytes, List.any_map, List.any_eq_true, List.mem_range, Function.comp_apply, byte_ne_zero_iff, hbyte,
    Spec.fadeOf]
  constructor
  · rintro ⟨j, hj, i, hi, hb⟩
    refine ⟨8 * j + i, by omega, ?_⟩
    rwa [show (8 * j + i) / 8 = j by omega, show (8 * j + i) % 8 = i by omega]
  · rintro ⟨n, hn, hb⟩
    exact ⟨n / 8, by omega, n % 8, Nat.mod_lt _ (by decide), hb⟩

/-- The status word of a slot with a frame (R187). -/
def statusWord (p : FrameSlot) (f : Frame) (faded : Nat) : Word :=
  BitVec.ofNat 64 (1 + (if f.cow then 2 else 0) + (if p.err then 4 else 0) + 8 * faded + 2 ^ 4 * min p.fcnt 15 + 2 ^ 8 * min p.scnt 15 +
    2 ^ 12 * f.sid + 2 ^ 28 * f.layer + 2 ^ 36 * f.stag + 2 ^ 52 * f.bank)

section
variable {s : State} {core n : Nat} {a : Accessor} {sel : Word}

theorem State.fstat_unbound (hb : ((s.core core).slot n).frame.isSome = false) :
    s.fstat core a n sel = if bits sel 1 0 = 0 then BitVec.ofNat 64 (b2n ((s.core core).slot n).err * 4) else 0 := by
  simp only [State.fstat, FrameSlot.bound, hb, Bool.not_false, if_true]

theorem State.fstat_status (hb : ((s.core core).slot n).frame.isSome = true) (hw : bits sel 1 0 = 0) :
    s.fstat core a n sel =
      statusWord ((s.core core).slot n) ((s.core core).frameOf n) (b2n (s.someFaded core a ((s.core core).frameOf n))) := by
  have hbit (b : Bool) (k : Nat) : b2n b * k = if b then k else 0 := by cases b <;> simp [b2n]
  simp only [State.fstat, FrameSlot.bound, hb, hw, Bool.not_true, Bool.false_eq_true, if_false, if_true, hbit, statusWord]
  congr 1
  rw [Nat.mul_comm 8 (b2n _), hbit]
  ring

theorem State.fstat_length (hb : ((s.core core).slot n).frame.isSome = true) (hw : bits sel 1 0 = 1) :
    s.fstat core a n sel = BitVec.ofNat 64 (((s.core core).frameOf n).pos + ((s.core core).frameOf n).ne * 2 ^ 32) := by
  simp only [State.fstat, FrameSlot.bound, hb, hw, Bool.not_true, Bool.false_eq_true, if_false, Nat.one_ne_zero, if_true]

theorem State.fstat_fades (hw : 2 ≤ bits sel 1 0) {j : Nat} (hj : j < 64) :
    (s.fstat core a n sel).getLsbD j = (((s.core core).slot n).frame.isSome &&
      decide (bits sel 19 2 + j < ((s.core core).frameOf n).ne) &&
      Spec.fadeOf s core a ((s.core core).frameOf n) (bits sel 19 2 + j)) := by
  cases hb : ((s.core core).slot n).frame.isSome with
  | false =>
    rw [State.fstat_unbound hb, if_neg (by omega)]
    simp
  | true =>
    simp only [State.fstat, FrameSlot.bound, hb, Bool.not_true, Bool.false_eq_true, if_false]
    rw [if_neg (by omega), if_neg (by omega), BitVec.getLsbD_ofNat, testBit_bitsNat, Nat.zero_add]
    simp only [hj, decide_true, Bool.true_and]
    rfl

end

theorem aread_content {s : State} {l : Loc} {o : Opd} {j : Nat} (hj : j < 128) :
    let e := ((s.core l.core).ztile (o.xw.toNat - 32)).elem (128 * (o.b.extractLsb' 0 7).toNat + j)
    lane (s.tileRow l o) j = match (o.b.extractLsb' 7 2).toNat with
      | 0 => e.w.extractLsb' 0 32
      | 1 => e.w.extractLsb' 32 32
      | 2 => e.e.signExtend 32
      | _ => BitVec.ofNat 32 e.status := by
  have hrow : bits o.b 6 0 = (o.b.extractLsb' 0 7).toNat := bits_eq_toNat_extractLsb' ..
  have hword : bits o.b 8 7 = (o.b.extractLsb' 7 2).toNat := bits_eq_toNat_extractLsb' ..
  rw [State.tileRow, lane_ofLanes _ hj, accLane_eq, hrow, hword]

theorem sread_content {s : State} {l : Loc} {o : Opd} {j : Nat} (hj : j < 128) :
    let f := (s.core l.core).frameOf ((s.ctx l).cur.ctl.sccfg.extractLsb' 3 4).toNat
    let n := (o.xw.extractLsb' 0 18).toNat + j
    lane (s.frameRow l (cfgSlot (s.ctx l).cur.ctl.sccfg) o) j = if f.ne ≤ n then 0 else match (o.xw.extractLsb' 18 2).toNat with
      | 0 => BitVec.ofNat 32 (s.poolNat l.core (s.accessor l) (65536 * f.bank + 64 + 4 * n) 4)
      | 1 => BitVec.ofNat 32 (s.poolNat l.core (s.accessor l) (65536 * f.bank + 64 + 4 * f.ne + 4 * n) 4)
      | _ => if Spec.fadeOf s l.core (s.accessor l) f n then 1 else 0 := by
  have hslot : cfgSlot (s.ctx l).cur.ctl.sccfg = ((s.ctx l).cur.ctl.sccfg.extractLsb' 3 4).toNat := bits_eq_toNat_extractLsb' ..
  have hat : bits o.xw 17 0 = (o.xw.extractLsb' 0 18).toNat := bits_eq_toNat_extractLsb' ..
  have hword : bits o.xw 19 18 = (o.xw.extractLsb' 18 2).toNat := bits_eq_toNat_extractLsb' ..
  rw [State.frameRow, lane_ofLanes _ hj, hslot, hat, hword]
  dsimp only
  split
  · rfl
  · generalize (o.xw.extractLsb' 18 2).toNat = word
    match word with
    | 0 => rfl
    | 1 => rfl
    | word + 2 =>
      rw [if_neg (by omega), if_neg (by omega)]
      change BitVec.ofNat 32 (b2n (Spec.fadeOf s l.core (s.accessor l) _ _)) = _
      cases Spec.fadeOf s l.core (s.accessor l) _ _ <;> rfl

theorem fstat_content (s : State) (core : Nat) (a : Accessor) (n : Nat) (sel : Word) :
    let v : Value := .word (s.fstat core a n sel)
    let p := (s.core core).slot n
    let f := (s.core core).frameOf n
    let fade := Spec.fadeOf s core a f
    let n0 := (sel.extractLsb' 2 18).toNat
    match (sel.extractLsb' 0 2).toNat with
    | 0 => if p.frame.isSome then ∃ faded : Nat, v = .word (statusWord p f faded) ∧
        (f.ne % 32 = 0 → faded = if ∃ n < f.ne, fade n = true then 1 else 0)
      else v = .word (if p.err then 4 else 0)
    | 1 => v = .word (if p.frame.isSome then BitVec.ofNat 64 (f.pos + f.ne * 2 ^ 32) else 0)
    | _ => ∃ y, v = .word y ∧ ∀ j, j < 64 → y.getLsbD j = (p.frame.isSome && decide (n0 + j < f.ne) && fade (n0 + j)) := by
  intro v p f fade n0
  have hat : bits sel 19 2 = n0 := bits_eq_toNat_extractLsb' ..
  have hsel : bits sel 1 0 = (sel.extractLsb' 0 2).toNat := bits_eq_toNat_extractLsb' ..
  generalize hword : (sel.extractLsb' 0 2).toNat = word at hsel
  match word with
  | 0 =>
    cases hb : p.frame.isSome with
    | true =>
      rw [if_pos rfl]
      refine ⟨_, congrArg Value.word (State.fstat_status hb hsel), fun hne => ?_⟩
      rw [b2n, if_congr (State.someFaded_iff s core a f hne) rfl rfl]
    | false =>
      rw [if_neg (by decide)]
      refine congrArg Value.word ((State.fstat_unbound hb).trans ?_)
      rw [hsel, if_pos rfl]
      cases p.err <;> rfl
  | 1 =>
    refine congrArg Value.word ?_
    cases hb : p.frame.isSome with
    | true => exact State.fstat_length hb hsel
    | false => exact (State.fstat_unbound hb).trans (if_neg (by omega))
  | word + 2 =>
    refine ⟨_, rfl, fun j hj => ?_⟩
    rw [State.fstat_fades (by omega) hj, hat]

/-! ### Every engine read (O29) -/

/-- Settles O29: the value is read as the operation acts, on a state that issue has left as it was, and the landing carries it. -/
theorem engineReadsAreOnTheirWay : Obligations.EngineReadsAreOnTheirWay := by
  unfold Obligations.EngineReadsAreOnTheirWay
  intro i s l o hr hp hx hfl hop
  have hsame := State.SameReads.acting s l
  have hcycle := (hsame.core l.core).cycle
  have hctl : ((s.acting l).ctx l).cur.ctl.sccfg = (s.ctx l).cur.ctl.sccfg := by rw [State.acting_ctx]; rfl
  simp only [List.mem_cons, List.not_mem_nil, or_false] at hop
  obtain hop | hop | hop := hop
  · have hsem : opSem o.op = semAread := by rw [hop, opSem_aread]
    obtain ⟨tiles, hact⟩ := aread_act (s.acting l) l o
    rw [State.acting_ctx, State.acting_opId, hcycle, hsame.tileRow, ← hsem] at hact
    obtain ⟨t, hexec, hland, hempty⟩ := exec_onItsWay hr hp hx hfl (by rw [hop]; decide) (by rw [hsem]; rfl) (fun _ => by rw [hsem]; rfl) hact
    refine ⟨t, 6, _, _, hexec, hland, by rw [hop]; rfl, hempty, fun _ => ⟨rfl, _, rfl, fun j hj => ?_⟩, fun h => ?_, fun h => ?_⟩
    · exact aread_content hj
    · rw [hop] at h; cases h
    · rw [hop] at h; cases h
  · have hsem : opSem o.op = semSread := by rw [hop, opSem_sread]
    have hact := sread_act (s.acting l) l o
    rw [hctl, State.acting_ctx, State.acting_opId, hcycle, State.frameRow_acting, ← hsem] at hact
    obtain ⟨t, hexec, hland, hempty⟩ := exec_onItsWay (tiles := (s.ctx l).tiles) hr hp hx hfl (by rw [hop]; decide) (by rw [hsem]; rfl)
      (fun _ => by rw [hsem]; rfl) hact
    refine ⟨t, 6, _, _, hexec, hland, by rw [hop]; rfl, hempty, fun h => ?_, fun _ => ⟨_, rfl, fun j hj => ?_⟩, fun h => ?_⟩
    · rw [hop] at h; cases h
    · exact sread_content hj
    · rw [hop] at h; cases h
  · have hsem : opSem o.op = semFstat := by rw [hop, opSem_fstat]
    have hslot : cmdSlot o.xw = (o.xw.extractLsb' 0 4).toNat := bits_eq_toNat_extractLsb' ..
    have hact := fstat_act (s.acting l) l o
    rw [State.acting_ctx, State.acting_opId, hcycle, hsame.fstat, State.acting_accessor, hslot, ← hsem] at hact
    obtain ⟨t, hexec, hland, hempty⟩ := exec_onItsWay (tiles := (s.ctx l).tiles) hr hp hx hfl (by rw [hop]; decide) (by rw [hsem]; rfl)
      (fun _ => by rw [hsem]; rfl) hact
    refine ⟨t, 4, _, _, hexec, hland, by rw [hop]; rfl, hempty, fun h => ?_, fun h => ?_, fun _ => ?_⟩
    · rw [hop] at h; cases h
    · rw [hop] at h; cases h
    · exact fstat_content s l.core (s.accessor l) (o.xw.extractLsb' 0 4).toNat o.b

end Sys2Proof.Machine

/-! # Values that land, and contexts that are cleared, selected and halted (O46) -/

namespace Sys2Proof.Machine

/-! ### A value that lands (R31) -/

/-- What landing does to the context of a result that is on its way, but for the tile that it may leave. -/
theorem State.landNow_ctx {s : State} {l : Loc} {id : Nat} {r : Landing} (h : (s.ctx l).landings.find? id = some r) :
    ((s.landNow l id).ctx l).landings = (s.ctx l).landings.erase id ∧
      (∀ v, r.value = some v → r.tile = none → ((s.landNow l id).ctx l).cur = (s.ctx l).cur.landLong id v) := by
  have htile (u : State) (t : Nat) (w : Who) (f : TileStat → TileStat) (hw : w.ctx = l.ctx) :
      ((u.onTile l.core w t f).ctx l).landings = (u.ctx l).landings := by
    unfold State.onTile
    split
    · obtain ⟨tiles, htiles⟩ := u.setTileStat_ctx l t (f (u.tileStat l t))
      rw [hw, htiles]
    · rfl
  unfold State.landNow
  simp only [h]
  refine ⟨?_, fun v hv ht => ?_⟩
  · split
    · rw [htile _ _ _ _ rfl]
      repeat' split
      all_goals rw [State.ctx_setCtx]
    · repeat' split
      all_goals rw [State.ctx_setCtx]
  · simp only [hv, ht, State.ctx_setCtx]

theorem longLatencyValuesLand : Spec.LongLatencyValuesLand := by
  unfold Spec.LongLatencyValuesLand
  intro s c n id r hr l
  have hland : exec (.longLatencyLanding c n id) s = .next (if (s.core c).cycle < r.cycle then s else s.landNow l id) := by
    change Host.Outcome.next (s.landResult l id) = _
    rw [State.landResult, hr]
  refine ⟨fun hdue => ?_, fun hearly => by rw [hland, if_pos hearly]⟩
  obtain ⟨hlandings, hcur⟩ := State.landNow_ctx (l := l) hr
  refine ⟨_, hland.trans (by rw [if_neg (Nat.not_lt.mpr hdue)]), ?_, fun v hv ht p d hp hd hlt hlanes => ?_⟩
  · rw [hlandings, Table.find?_erase_self]
  · have hw := hcur _ hv ht
    rw [View.landLong, hp] at hw
    simp only [View.deliver, hd] at hw
    rw [hw, View.setRes_readReg, View.setRes_isEmpty]
    exact ⟨View.readReg_writeReg_s .., View.isEmpty_writeReg_s _ hlt _ _⟩

/-! ### A fence that is over (R34, R205) -/

theorem fenceClears {s : State} {l : Loc} (hmode : (s.ctx l).mode = .blocked) (hwait : (s.ctx l).wait = some .fence)
    (hlate : (s.ctx l).late = []) (hover : ∀ i ∈ (s.ctx l).fence, ∀ k ∈ s.cores, ∀ e ∈ k.2.inFlight, e.1 ≠ i) :
    s.clearBlock l = (s.setCtx l { s.ctx l with fence := [] }).unblock l := by
  have hactLate : s.actLate l = s := by
    unfold State.actLate
    simp [hlate]
  have hfenced : s.fenced l = [] := by
    unfold State.fenced
    rw [List.filter_eq_nil_iff]
    intro i hi
    simp only [List.any_eq_true, not_exists, not_and]
    exact fun k hk e he => by simpa using hover i hi k hk e he
  unfold State.clearBlock
  simp only [hactLate, hmode, hwait, hfenced, List.isEmpty_nil, if_true]

/-! ### The one ready context of a core (R35, R379) -/

theorem Core.ready_eq_singleton {k : Core} {n : Nat} (hn : n < 4) (hready : (k.ctx n).mode = .ready)
    (hothers : ∀ m, m < 4 → m ≠ n → (k.ctx m).mode ≠ .ready ∧ (k.ctx m).mode ≠ .running) : k.ready = [n] := by
  have hone : (List.range 4).filter (fun m => decide (m = n)) = [n] := by
    match n, hn with
    | 0, _ | 1, _ | 2, _ | 3, _ => rfl
  rw [← hone]
  refine List.filter_congr fun m hm => ?_
  by_cases h : m = n
  · simp [h, hready]
  · obtain ⟨h1, h2⟩ := hothers m (List.mem_range.mp hm) h
    simp [h, h1, h2]

theorem State.stoodUp_runs (s : State) (core c : Nat) :
    ((s.stoodUp core c).core core).running = some c ∧ ((s.stoodUp core c).core core).taken = some c ∧
      ((s.stoodUp core c).ctx ⟨core, c⟩).mode = .running := by
  unfold State.stoodUp
  dsimp only
  rw [State.ctx_setCtx, show (core : Nat) = (⟨core, c⟩ : Loc).core from rfl, State.core_setCtx, State.core_setCore]
  exact ⟨rfl, rfl, rfl⟩

theorem State.measured_runs (s : State) (core : Nat) (b : Binding) (n : Nat) :
    ((s.measured core b n).core core).running = (s.core core).running ∧ ((s.measured core b n).core core).taken = (s.core core).taken := by
  unfold State.measured
  rw [State.core_setCore]
  exact ⟨rfl, rfl⟩

/-- A core that nothing runs on runs the context that it switches to (R35). -/
theorem State.switchTo_runs {s : State} {core c : Nat} (h : (s.core core).running = none) :
    ((s.switchTo core c).core core).running = some c ∧ ((s.switchTo core c).core core).taken = some c ∧
      ((s.switchTo core c).ctx ⟨core, c⟩).mode = .running := by
  obtain ⟨h1, h2, h3⟩ := (s.stoodDown core).stoodUp_runs core c
  rw [State.switchTo_eq, h, if_neg (by simp)]
  split
  · obtain ⟨g1, g2⟩ := ((s.stoodDown core).stoodUp core c).measured_runs core ‹_› 1
    rw [g1, g2, State.measured_ctx]
    exact ⟨h1, h2, h3⟩
  · exact ⟨h1, h2, h3⟩

theorem State.select_one {s : State} {core n : Nat} (htaken : (s.core core).taken = none) (hn : n < 4)
    (hready : (s.ctx ⟨core, n⟩).mode = .ready) (hpre : (s.ctx ⟨core, n⟩).preempt = true)
    (hothers : ∀ m, m < 4 → m ≠ n → (s.ctx ⟨core, m⟩).mode ≠ .ready ∧ (s.ctx ⟨core, m⟩).mode ≠ .running) :
    s.select core = s.switchTo core n := by
  have hone := Core.ready_eq_singleton hn hready hothers
  have hfilter : [n].filter (fun c => ((s.core core).ctx c).preempt) = [n] := List.filter_cons_of_pos hpre
  unfold State.select State.selectAmong
  simp only [htaken, hone, hfilter]

/-! ### The request of a halt (R405) -/

theorem Core.requested_of_preempt {k : Core} {m n : Nat} (hm : m ≠ n) (h : (k.ctx m).preempt = true) : k.requested n = true := by
  unfold Core.ctx Table.getD at h
  cases hf : k.ctxs.find? m with
  | none =>
    rw [hf] at h
    cases h
  | some x =>
    rw [hf] at h
    exact List.any_eq_true.mpr ⟨(m, x), Table.mem_of_find? hf, by simpa [hm] using h⟩

theorem Core.requested_of_alone {k : Core} {n : Nat} (h : ∀ e ∈ k.ctxs, e.1 ≠ n → e.2.preempt = false) : k.requested n = false := by
  unfold Core.requested
  rw [List.any_eq_false]
  intro e he
  by_cases hn : e.1 = n
  · simp [hn]
  · simp [h e he hn]

/-! ### A halt leaves its context at its bundle (R405) -/

/-- Two states in which every context stands at the same bundle. -/
structure State.SamePc (s t : State) : Prop where
  pc : ∀ m, (s.ctx m).pc = (t.ctx m).pc

namespace State.SamePc

theorem refl (s : State) : s.SamePc s := ⟨fun _ => rfl⟩

theorem trans {s t u : State} (h : s.SamePc t) (h' : t.SamePc u) : s.SamePc u := ⟨fun m => (h.pc m).trans (h'.pc m)⟩

theorem setCore {s : State} {c : Nat} {k : Core} (h : k.ctxs = (s.core c).ctxs) : (s.setCore c k).SamePc s :=
  ⟨fun m => by rw [State.setCore_ctx_of_ctxs h]⟩

theorem setCtx {s : State} {l : Loc} {x : Ctx} (h : x.pc = (s.ctx l).pc) : (s.setCtx l x).SamePc s where
  pc m := by
    by_cases hm : m = l
    · rw [hm, State.ctx_setCtx, h]
    · rw [State.ctx_setCtx_ne _ hm]

theorem onView (s : State) (l : Loc) (p : Bool) (f : View → View) : (s.onView l p f).SamePc s := setCtx rfl

theorem foldl {α β : Type} (g : β → State) (f : β → α → β) (h : ∀ b a, (g (f b a)).SamePc (g b)) (as : List α) (b : β) :
    (g (as.foldl f b)).SamePc (g b) := by
  induction as generalizing b with
  | nil => exact refl _
  | cons a as ih => exact (ih _).trans (h b a)

theorem rekeySector (s : State) (core : Nat) (a : Accessor) (sec kidx : Nat) : (s.rekeySector core a sec kidx).SamePc s := by
  unfold State.rekeySector
  dsimp only
  split
  · exact refl s
  · exact setCore (by rfl)

theorem setPoolByte (s : State) (core : Nat) (a : Accessor) (kidx i : Nat) (b : Byte) : (s.setPoolByte core a kidx i b).SamePc s := by
  unfold State.setPoolByte
  split
  · exact refl s
  · exact (setCore (by rfl)).trans (rekeySector ..)

theorem setPoolBytes (s : State) (core : Nat) (a : Accessor) (kidx i : Nat) (bs : List Byte) :
    (s.setPoolBytes core a kidx i bs).SamePc s := by
  induction bs generalizing s i with
  | nil => exact refl s
  | cons b bs ih => exact (ih _ _).trans (setPoolByte ..)

theorem moveBarrier (s : State) (core : Nat) (a : Accessor) (i : Nat) (old new : Barrier) : (s.moveBarrier core a i old new).SamePc s := by
  unfold State.moveBarrier
  dsimp only
  split
  · exact setPoolBytes ..
  · exact (setCore (by rfl)).trans (setPoolBytes ..)

theorem arrival (s : State) (core : Nat) (a : Accessor) (at_ : Option Nat) (cause k : Nat) : (s.arrival core a at_ cause k).SamePc s := by
  unfold State.arrival
  split
  · exact refl s
  · exact moveBarrier ..

theorem setCell (s : State) (l : Loc) (n : Nat) (c : Cell) : (s.setCell l n c).SamePc s := setCtx rfl

theorem startDomain (s : State) (l : Loc) (id d : Nat) (byStep : Bool) (n : Nat) : (s.startDomain l id d byStep n).SamePc s :=
  (setCore (by rfl)).trans ((setCtx (by rfl)).trans (onView ..))

theorem stopDomain (s : State) (l : Loc) (d : Nat) : (s.stopDomain l d).SamePc s :=
  (setCore (by rfl)).trans (onView ..)

theorem saveCells (s : State) (l : Loc) (o : DdOp) : (s.saveCells l o).SamePc s :=
  (arrival ..).trans (setPoolBytes ..)

theorem loadCells (s : State) (l : Loc) (o : DdOp) : (s.loadCells l o).SamePc s := by
  refine (arrival ..).trans (foldl Prod.fst _ (fun acc i => ?_) _ (s, false))
  split
  · split
    · exact refl _
    · exact setCell ..
  · exact refl _

theorem actCells (s : State) (l : Loc) (o : DdOp) : (s.actCells l o).1.SamePc s := by
  refine foldl Prod.fst _ (fun acc n => ?_) o.todo (s, o)
  dsimp only
  split
  · exact refl _
  · dsimp only
    split
    · exact setCell ..
    · exact (onView ..).trans (setCell ..)

theorem actDd (s : State) (l : Loc) (o : DdOp) : (s.actDd l o).1.SamePc s := by
  unfold State.actDd
  dsimp only
  split
  · exact setCell ..
  · exact startDomain ..
  · exact startDomain ..
  · split
    · exact refl s
    · split
      · exact stopDomain ..
      · exact refl s
  · exact saveCells ..
  · exact loadCells ..
  · split
    · split
      · exact (setCtx (by rfl)).trans (actCells ..)
      · exact actCells ..
    · exact actCells ..

theorem pumpDd (s : State) (core : Nat) : (s.pumpDd core).SamePc s := by
  refine foldl Prod.fst _ (fun acc o => ?_) (s.core core).ddq (s, [])
  dsimp only
  split
  · exact refl _
  · have h := actDd acc.1 ⟨core, o.who.ctx⟩ (((acc.1.core core).ddq.find? fun p => p.id == o.id).getD o)
    split
    · rename_i heq
      rw [heq] at h
      exact (setCore (by rfl)).trans h
    · rename_i heq
      rw [heq] at h
      exact (setCore (by rfl)).trans h

theorem setTileStat (s : State) (l : Loc) (code : Nat) (t : TileStat) : (s.setTileStat l code t).SamePc s := by
  unfold State.setTileStat
  split
  · exact setCtx rfl
  · exact setCore (by rfl)

theorem onTile (s : State) (core : Nat) (w : Who) (code : Nat) (f : TileStat → TileStat) : (s.onTile core w code f).SamePc s := by
  unfold State.onTile
  split
  · exact setTileStat ..
  · exact refl s

theorem landNow (s : State) (l : Loc) (id : Nat) : (s.landNow l id).SamePc s := by
  unfold State.landNow
  dsimp only
  split
  · exact refl s
  · split
    · refine (onTile ..).trans ?_
      repeat' split
      all_goals exact setCtx rfl
    · repeat' split
      all_goals exact setCtx rfl

theorem landAll (s : State) (l : Loc) : (s.landAll l).SamePc s := foldl (fun s => s) _ (fun s _ => landNow s l _) _ s

theorem stopEngines (s : State) (l : Loc) : (s.stopEngines l).SamePc s :=
  (setCtx (by rfl)).trans ((setCore (by rfl)).trans ((landAll ..).trans ((pumpDd ..).trans (setCore (by rfl)))))

end State.SamePc

theorem State.savedOf_loff (s : State) (l : Loc) (v b d : Nat) (off : Option Nat) : (s.savedOf l v b d off).loff = off := rfl

/-- A halt with a save (R405): where its context stands, and what is off. -/
theorem State.haltSave_ctx (s : State) (l : Loc) (off : Option Nat) :
    let y := (s.haltSave l off).ctx l
    y.mode = .halted ∧ y.preempt = false ∧ y.marker = none ∧ y.pc = (s.ctx l).pc ∧ ∃ v, y.saved = some v ∧ v.loff = off := by
  have hpc : (((((s.chargeOverrun l).landAll l).stopEngines l)).ctx l).pc = (s.ctx l).pc := by
    rw [(State.SamePc.stopEngines _ l).pc, (State.SamePc.landAll _ l).pc, State.chargeOverrun_ctx]
  have hrun (u : State) : (if (u.core l.core).running = some l.ctx then u.setCore l.core { u.core l.core with running := none } else u).ctx l =
      u.ctx l := by
    split
    · exact State.setCore_ctx_of_ctxs (by rfl) l
    · rfl
  unfold State.haltSave
  generalize ((s.chargeOverrun l).landAll l).stopEngines l = s1 at hpc
  dsimp only
  rw [hrun, State.ctx_setCtx]
  exact ⟨rfl, rfl, rfl, hpc, _, rfl, State.savedOf_loff ..⟩

theorem exec_preemptionRequest_of_requested {s : State} {c n : Nat} (h : (s.core c).requested n = true) :
    exec (.preemptionRequest c n) s = .next s := by
  change Host.Outcome.next (if (s.core c).requested n then s else s.requestHalt ⟨c, n⟩) = _
  rw [if_pos h]

theorem exec_preemptionRequest_of_alone {s : State} {c n : Nat} (h : ∀ e ∈ (s.core c).ctxs, e.1 ≠ n → e.2.preempt = false) :
    exec (.preemptionRequest c n) s = .next (s.requestHalt ⟨c, n⟩) := by
  change Host.Outcome.next (if (s.core c).requested n then s else s.requestHalt ⟨c, n⟩) = _
  rw [Core.requested_of_alone h, if_neg (by decide)]

theorem State.requestHalt_of_stopped {s : State} {l : Loc} (h : (s.ctx l).mode = .off ∨ (s.ctx l).mode = .halted) : s.requestHalt l = s := by
  unfold State.requestHalt
  obtain h | h := h <;> simp only [h]

theorem State.requestHalt_of_running {s : State} {l : Loc} (hm : (s.ctx l).mode = .running) (hw : (s.ctx l).wait = none)
    (hs : (s.ctx l).started = true) :
    s.requestHalt l = s.setCtx l { s.ctx l with preempt := true, waited := if (s.ctx l).preempt then (s.ctx l).waited else 0 } := by
  unfold State.requestHalt
  simp only [hm, hw, hs, Bool.not_true, Bool.false_and, Bool.false_eq_true, if_false]
  cases (s.ctx l).marker <;> rfl

theorem State.requestHalt_of_unstarted {s : State} {l : Loc} (hm : (s.ctx l).mode = .running ∨ (s.ctx l).mode = .ready)
    (hs : (s.ctx l).started = false) : s.requestHalt l = s.haltSave l none := by
  unfold State.requestHalt
  obtain hm | hm := hm <;> simp [hm, hs]

theorem State.requestHalt_of_marker {s : State} {l : Loc} {off : Nat} (hm : (s.ctx l).mode = .blocked) (hw : (s.ctx l).wait = some .bundle)
    (hk : (s.ctx l).marker = some off) : s.requestHalt l = s.haltSave l (some off) := by
  unfold State.requestHalt
  simp [hm, hw, hk]

theorem contextsAreClearedSelectedAndHalted : Spec.ContextsAreClearedSelectedAndHalted := by
  unfold Spec.ContextsAreClearedSelectedAndHalted
  intro s c n l x
  refine ⟨fun hm hw hlate hover => ?_, fun htaken hn hrun hready hpre hothers => ?_, fun htaken => ?_, fun hstop => ?_, fun ⟨m, _, hm, hpre⟩ => ?_,
    fun halone hm hw hs => ?_, fun halone hm hs => ?_, fun halone hm hw hk => ?_⟩
  · refine ⟨_, congrArg Host.Outcome.next (fenceClears hm hw hlate hover), ?_⟩
    rw [State.unblock, State.ctx_setCtx, State.ctx_setCtx]
    exact ⟨rfl, rfl, rfl, rfl⟩
  · exact ⟨_, congrArg Host.Outcome.next (State.select_one htaken hn hready hpre hothers), State.switchTo_runs hrun⟩
  · change Host.Outcome.next (s.select c) = _
    rw [State.select]
    split
    · exact absurd ‹_› htaken
    · rfl
  · change Host.Outcome.next (if (s.core c).requested n then s else s.requestHalt l) = _
    rw [State.requestHalt_of_stopped hstop, ite_self]
  · exact exec_preemptionRequest_of_requested (Core.requested_of_preempt hm hpre)
  · refine ⟨_, (exec_preemptionRequest_of_alone halone).trans (congrArg _ (State.requestHalt_of_running hm hw hs)), ?_⟩
    rw [State.ctx_setCtx]
    exact ⟨rfl, hm, rfl⟩
  · obtain ⟨h1, h2, -, h4, h5⟩ := s.haltSave_ctx l none
    exact ⟨_, (exec_preemptionRequest_of_alone halone).trans (congrArg _ (State.requestHalt_of_unstarted hm hs)), h1, h2, h4, h5⟩
  · obtain ⟨off, hoff⟩ := Option.isSome_iff_exists.mp hk
    obtain ⟨h1, h2, h3, h4, v, h5, -⟩ := s.haltSave_ctx l (some off)
    exact ⟨_, (exec_preemptionRequest_of_alone halone).trans (congrArg _ (State.requestHalt_of_marker hm hw hoff)), h1,
      Option.isSome_iff_exists.mpr ⟨v, h5⟩, h2, h3, h4⟩

/-- Settles O46: landing writes what was pending, and each step at a boundary is one branch of its definition. -/
theorem landingsAndContextBoundariesAct : Obligations.LandingsAndContextBoundariesAct := by
  unfold Obligations.LandingsAndContextBoundariesAct
  exact ⟨longLatencyValuesLand, contextsAreClearedSelectedAndHalted⟩

end Sys2Proof.Machine

/-! # The tags under the steps of engines and tasks (O59)

The functions that those steps call, each with one lemma: what it leaves of the field `tags`. What they leave of `mem` has been stated before. -/

namespace Sys2Proof.Machine

/-- What no step of a fold changes, the fold leaves. -/
theorem foldl_keeps {α β γ : Type} (g : β → γ) {f : β → α → β} (h : ∀ b a, g (f b a) = g b) (as : List α) (b : β) :
    g (as.foldl f b) = g b := by
  induction as generalizing b with
  | nil => rfl
  | cons a as ih => rw [List.foldl_cons, ih, h]

theorem foldl_tags {α : Type} {f : State → α → State} (h : ∀ s x, (f s x).tags = s.tags) (xs : List α) (s : State) :
    (xs.foldl f s).tags = s.tags := foldl_keeps State.tags h xs s

theorem foldl_fst_tags {α β : Type} {f : State × β → α → State × β} (h : ∀ a x, (f a x).1.tags = a.1.tags) (xs : List α)
    (a : State × β) : (xs.foldl f a).1.tags = a.1.tags := foldl_keeps (fun a => a.1.tags) h xs a

/-! ### The package, its contexts and traps -/

@[simp] theorem State.measured_tags (s : State) (core : Nat) (b : Binding) (n : Nat) : (State.measured s core b n).tags = s.tags := rfl

@[simp] theorem State.release_tags (s : State) (l : Loc) : (State.release s l).tags = s.tags := rfl

@[simp] theorem State.releaseBanks_tags (s : State) (l : Loc) (bs : List Nat) : (State.releaseBanks s l bs).tags = s.tags := by
  unfold State.releaseBanks
  split <;> simp

@[simp] theorem State.finalReleases_tags (s : State) (l : Loc) (time : Nat) : (State.finalReleases s l time).tags = s.tags := by
  unfold State.finalReleases
  exact (foldl_tags (fun _ _ => by simp) _ _).trans (by simp)

@[simp] theorem State.post_tags (s : State) (pav vd : Nat) (r : FaultRec) : (State.post s pav vd r).tags = s.tags := rfl

@[simp] theorem State.restoreCore_tags (s : State) (l : Loc) (undo : List CoreWord) : (State.restoreCore s l undo).tags = s.tags := by
  unfold State.restoreCore
  split <;> simp

@[simp] theorem State.chargeOverrun_tags (s : State) (l : Loc) : (State.chargeOverrun s l).tags = s.tags := by
  fun_cases State.chargeOverrun
  · rfl
  · rw [State.setDev_tags]
  · rfl

@[simp] theorem State.takeTrap_tags (s : State) (l : Loc) (t : Trap) (slot : Nat) (boundary : Bool) (tepc : Word) :
    (State.takeTrap s l t slot boundary tepc).tags = s.tags := by
  unfold State.takeTrap
  dsimp only
  repeat' split
  all_goals simp

/-! ### The issue of a bundle -/

@[simp] theorem State.deliverLong_tags (s : State) (l : Loc) (id minimum : Nat) (v : Option Value) :
    (State.deliverLong s l id minimum v).tags = s.tags := rfl

@[simp] theorem State.unblock_tags (s : State) (l : Loc) : (State.unblock s l).tags = s.tags := rfl

@[simp] theorem State.takeBoundary_tags (s : State) (l : Loc) (t : Trap) : (State.takeBoundary s l t).tags = s.tags := by
  simp [State.takeBoundary]

/-! ### The pool and its barriers -/

@[simp] theorem State.rekeySector_tags (s : State) (core : Nat) (a : Accessor) (sec kidx : Nat) :
    (State.rekeySector s core a sec kidx).tags = s.tags := by
  unfold State.rekeySector
  dsimp only
  split <;> simp

@[simp] theorem State.setPoolByte_tags (s : State) (core : Nat) (a : Accessor) (kidx i : Nat) (b : Byte) :
    (State.setPoolByte s core a kidx i b).tags = s.tags := by
  unfold State.setPoolByte
  split <;> simp

@[simp] theorem State.setPoolBytes_tags (s : State) (core : Nat) (a : Accessor) (kidx : Nat) (z0 : Nat) (z1 : List Byte) :
    (State.setPoolBytes s core a kidx z0 z1).tags = s.tags := by
  induction z1 generalizing s z0 with
  | nil => rfl
  | cons b bs ih => rw [State.setPoolBytes, ih, State.setPoolByte_tags]

@[simp] theorem State.setPoolNat_tags (s : State) (core : Nat) (a : Accessor) (i n x : Nat) :
    (State.setPoolNat s core a i n x).tags = s.tags := by
  simp [State.setPoolNat]

@[simp] theorem State.setBarrier_tags (s : State) (core : Nat) (a : Accessor) (i : Nat) (b : Barrier) :
    (State.setBarrier s core a i b).tags = s.tags := by
  simp [State.setBarrier]

@[simp] theorem State.moveBarrier_tags (s : State) (core : Nat) (a : Accessor) (i : Nat) (old new : Barrier) :
    (State.moveBarrier s core a i old new).tags = s.tags := by
  unfold State.moveBarrier
  split <;> simp

@[simp] theorem State.arrival_tags (s : State) (core : Nat) (a : Accessor) (at_ : Option Nat) (cause k : Nat) :
    (State.arrival s core a at_ cause k).tags = s.tags := by
  unfold State.arrival
  split <;> simp

@[simp] theorem State.setWordElem_tags (s : State) (core : Nat) (a : Accessor) (d : Word) (e x : Nat) :
    (State.setWordElem s core a d e x).tags = s.tags := by
  simp [State.setWordElem]

@[simp] theorem State.setBlock_tags (s : State) (core : Nat) (a : Accessor) (kidx bank b : Nat) (qs : List Int) (e : Nat) :
    (State.setBlock s core a kidx bank b qs e).tags = s.tags := by
  simp [State.setBlock]

@[simp] theorem State.setTileStat_tags (s : State) (l : Loc) (code : Nat) (t : TileStat) : (State.setTileStat s l code t).tags = s.tags := by
  unfold State.setTileStat
  split <;> simp

@[simp] theorem State.onTile_tags (s : State) (core : Nat) (w : Who) (code : Nat) (f : TileStat → TileStat) :
    (State.onTile s core w code f).tags = s.tags := by
  unfold State.onTile
  split <;> simp

@[simp] theorem State.leaveTiles_tags (s : State) (core : Nat) (w : Who) (ts : List TileRef) :
    (State.leaveTiles s core w ts).tags = s.tags := by
  unfold State.leaveTiles
  exact foldl_tags (fun _ _ => by simp) _ _

/-! ### The matrix sequencer -/

@[simp] theorem State.setZ_tags (s : State) (core i : Nat) (z : ZTile) : (State.setZ s core i z).tags = s.tags := rfl

@[simp] theorem State.writeBlocks_tags (s : State) (core : Nat) (a : Accessor) (d : Word) (f : Nat → Fp × Nat) (z0 : List Nat) :
    (State.writeBlocks s core a d f z0).1.tags = s.tags := by
  induction z0 generalizing s with
  | nil => rfl
  | cons g gs ih => rw [State.writeBlocks]; simp [ih]

@[simp] theorem State.writeElems_tags (s : State) (core : Nat) (a : Accessor) (d : Word) (f : Nat → Nat × Nat) (z0 : List Nat) :
    (State.writeElems s core a d f z0).1.tags = s.tags := by
  induction z0 generalizing s with
  | nil => rfl
  | cons e es ih => rw [State.writeElems]; simp [ih]

@[simp] theorem State.doQuant_tags (s : State) (core : Nat) (o : MxOp) : (State.doQuant s core o).tags = s.tags := by
  unfold State.doQuant
  split <;> simp

@[simp] theorem State.doAzero_tags (s : State) (core : Nat) (o : MxOp) : (State.doAzero s core o).tags = s.tags := by
  unfold State.doAzero
  split <;> simp

@[simp] theorem State.doAwrite_tags (s : State) (core : Nat) (o : MxOp) : (State.doAwrite s core o).tags = s.tags := by
  unfold State.doAwrite
  split
  · exact foldl_tags (fun _ _ => by rfl) _ _
  · rfl

@[simp] theorem State.doAcvt_tags (s : State) (core : Nat) (o : MxOp) : (State.doAcvt s core o).tags = s.tags := by
  unfold State.doAcvt
  dsimp only
  repeat' split
  all_goals simp

@[simp] theorem State.arithmeticFault_tags (s : State) (core : Nat) (w : Who) (routine : Nat) (norm : Bool) (step tile ik inn : Nat) :
    (State.arithmeticFault s core w routine norm step tile ik inn).tags = s.tags := by
  unfold State.arithmeticFault
  dsimp only
  split <;> simp

@[simp] theorem State.endMx_tags (s : State) (core : Nat) (r : MxRun) (step : Nat) : (State.endMx s core r step).tags = s.tags := by
  unfold State.endMx
  split <;> simp

@[simp] theorem State.streamRow_tags (s : State) (core p zi m : Nat) (r : MxRun) (row : List Exact) :
    (State.streamRow s core p zi m r row).1.tags = s.tags := rfl

@[simp] theorem State.stream_tags (s : State) (core p : Nat) (r : MxRun) (w : Word) : (State.stream s core p r w).1.tags = s.tags := by
  unfold State.stream
  split
  · exact foldl_fst_tags (fun _ _ => by simp) _ _
  · rfl

@[simp] theorem State.promoteAll_tags (s : State) (core zi : Nat) (r : MxRun) : (State.promoteAll s core zi r).1.tags = s.tags := rfl

@[simp] theorem State.setRun_tags (s : State) (core : Nat) (r : MxRun) : (State.setRun s core r).tags = s.tags := rfl

@[simp] theorem State.stopCall_tags (s : State) (core : Nat) (r : MxRun) : (State.stopCall s core r).tags = s.tags := rfl

@[simp] theorem State.stepWload_tags (s : State) (core : Nat) : (State.stepWload s core).tags = s.tags := by
  unfold State.stepWload
  repeat' split
  all_goals simp

@[simp] theorem State.stepStream_tags (s : State) (core : Nat) : (State.stepStream s core).tags = s.tags := by
  unfold State.stepStream
  split <;> simp

@[simp] theorem State.stepPromote_tags (s : State) (core : Nat) : (State.stepPromote s core).tags = s.tags := by
  unfold State.stepPromote
  dsimp only
  repeat' split
  all_goals simp

@[simp] theorem State.stepLoop_tags (s : State) (core : Nat) : (State.stepLoop s core).tags = s.tags := by
  unfold State.stepLoop
  dsimp only
  repeat' split
  all_goals simp

@[simp] theorem State.stepNop_tags (s : State) (core : Nat) : (State.stepNop s core).tags = s.tags := by
  unfold State.stepNop
  split <;> simp

@[simp] theorem State.stepEnd_tags (s : State) (core : Nat) : (State.stepEnd s core).tags = s.tags := by
  unfold State.stepEnd
  repeat' split
  all_goals simp

@[simp] theorem State.startMx_tags (s : State) (core : Nat) : (State.startMx s core).tags = s.tags := by
  unfold State.startMx
  dsimp only
  repeat' split
  all_goals simp

@[simp] theorem State.completeMx_tags (s : State) (core : Nat) : (State.completeMx s core).tags = s.tags := by
  unfold State.completeMx
  repeat' split
  all_goals simp

/-! ### The scan engine -/

@[simp] theorem State.setFrame_tags (s : State) (core i : Nat) (f : Frame) : (State.setFrame s core i f).tags = s.tags := rfl

@[simp] theorem State.setSlot_tags (s : State) (core n : Nat) (f : FrameSlot) : (State.setSlot s core n f).tags = s.tags := rfl

@[simp] theorem State.setFadeBit_tags (s : State) (core : Nat) (a : Accessor) (f : Frame) (n : Nat) (b : Bool) :
    (State.setFadeBit s core a f n b).tags = s.tags := by
  simp [State.setFadeBit]

@[simp] theorem State.writeHeader_tags (s : State) (core : Nat) (w : Who) (f : Frame) : (State.writeHeader s core w f).tags = s.tags := by
  simp [State.writeHeader]

@[simp] theorem State.setScanElem_tags (s : State) (core : Nat) (a : Accessor) (d : Word) (t n : Nat) (x : Lane) :
    (State.setScanElem s core a d t n x).tags = s.tags := by
  simp [State.setScanElem]

@[simp] theorem State.setPair_tags (s : State) (core : Nat) (a : Accessor) (f : Frame) (m : Nat) (h c : Lane) (fl : Bool) :
    (State.setPair s core a f m h c fl).tags = s.tags := by
  unfold State.setPair
  split <;> simp

@[simp] theorem State.scanColumn_tags (s : State) (core : Nat) (o : ScOp) (n : Nat) : (State.scanColumn s core o n).tags = s.tags := by
  unfold State.scanColumn
  dsimp only
  split
  · simp
  · have hput (xs : List (Nat × Lane × Lane × Bool)) (s : State) (x y : Word) :
        (xs.foldl (fun s e => (s.setScanElem core (o.who.accessor core) x e.1 n e.2.1).setScanElem core (o.who.accessor core) y e.1 n
          e.2.2.1) s).tags = s.tags := foldl_tags (fun _ _ => by simp) _ _
    split <;> simp [hput]
  · have hput (xs : List (Nat × Lane × Bool)) (s : State) (x : Word) :
        (xs.foldl (fun s r => s.setScanElem core (o.who.accessor core) x r.1 n r.2.1) s).tags = s.tags := foldl_tags (fun _ _ => by simp) _ _
    split <;> simp [hput]
  · simp
  · rfl

@[simp] theorem State.startScan_tags (s : State) (core : Nat) : (State.startScan s core).tags = s.tags := by
  unfold State.startScan
  dsimp only
  split <;> simp

@[simp] theorem State.endScan_tags (s : State) (core : Nat) (o : ScOp) : (State.endScan s core o).tags = s.tags := by
  unfold State.endScan
  dsimp only
  split <;> simp

@[simp] theorem State.scanBlock_tags (s : State) (core : Nat) : (State.scanBlock s core).tags = s.tags := by
  have hcols (xs : List Nat) (s : State) (o : ScOp) : (xs.foldl (fun s n => s.scanColumn core o n) s).tags = s.tags :=
    foldl_tags (fun _ _ => by simp) _ _
  unfold State.scanBlock
  dsimp only
  repeat' split
  all_goals simp [hcols]

/-! ### Queues and the ring -/

@[simp] theorem State.acquireStamp_tags (s : State) (l : Loc) (stamp : Nat × Nat) : (State.acquireStamp s l stamp).tags = s.tags := rfl

@[simp] theorem State.loadPort_tags (s : State) (dir way : Nat) : (State.loadPort s dir way).tags = s.tags := rfl

@[simp] theorem State.deliverMessage_tags (s : State) (id : Nat) : (State.deliverMessage s id).tags = s.tags := by
  unfold State.deliverMessage
  dsimp only
  repeat' split
  all_goals simp

@[simp] theorem State.portMessage_tags (s : State) (dir ch : Nat) (data : Word) : (State.portMessage s dir ch data).tags = s.tags := by
  unfold State.portMessage
  repeat' split
  all_goals simp

@[simp] theorem State.portEnters_tags (s : State) (z0 : PortInput) : (State.portEnters s z0).tags = s.tags := by
  unfold State.portEnters
  split <;> simp

@[simp] theorem State.takePort_tags (s : State) (p : PortInput) : (State.takePort s p).tags = s.tags := by
  unfold State.takePort
  repeat' split
  all_goals simp

@[simp] theorem State.takePorts_tags (s : State) (core : Nat) : (State.takePorts s core).tags = s.tags := foldl_tags State.takePort_tags _ _

@[simp] theorem State.returnCredit_tags (s : State) (core dir ch : Nat) : (State.returnCredit s core dir ch).tags = s.tags := by
  unfold State.returnCredit
  split <;> simp

/-! ### The integrators -/

@[simp] theorem State.setCell_tags (s : State) (l : Loc) (n : Nat) (c : Cell) : (State.setCell s l n c).tags = s.tags := rfl

@[simp] theorem State.stopDomain_tags (s : State) (l : Loc) (d : Nat) : (State.stopDomain s l d).tags = s.tags := rfl

@[simp] theorem State.actCells_tags (s : State) (l : Loc) (o : DdOp) : (State.actCells s l o).1.tags = s.tags :=
  foldl_fst_tags (fun a n => by dsimp only; split <;> [skip; split] <;> rfl) _ _

@[simp] theorem State.saveCells_tags (s : State) (l : Loc) (o : DdOp) : (State.saveCells s l o).tags = s.tags := by
  simp [State.saveCells]

@[simp] theorem State.loadCells_tags (s : State) (l : Loc) (o : DdOp) : (State.loadCells s l o).tags = s.tags := by
  unfold State.loadCells
  rw [State.arrival_tags]
  exact foldl_fst_tags (fun a i => by split <;> [split; skip] <;> rfl) _ _

@[simp] theorem State.schedule_tags (s : State) (l : Loc) (d cycle : Nat) : (State.schedule s l d cycle).tags = s.tags := rfl

@[simp] theorem State.startDomain_tags (s : State) (l : Loc) (id d : Nat) (byStep : Bool) (n : Nat) :
    (State.startDomain s l id d byStep n).tags = s.tags := rfl

@[simp] theorem State.actDd_tags (s : State) (l : Loc) (o : DdOp) : (State.actDd s l o).1.tags = s.tags := by
  unfold State.actDd
  dsimp only
  repeat' split
  all_goals simp

@[simp] theorem State.pumpDd_tags (s : State) (core : Nat) : (State.pumpDd s core).tags = s.tags := by
  unfold State.pumpDd
  refine foldl_fst_tags (fun a o => ?_) _ _
  dsimp only
  split
  · rfl
  · have h := State.actDd_tags a.1 ⟨core, o.who.ctx⟩ (((a.1.core core).ddq.find? fun p => p.id == o.id).getD o)
    split <;> simp_all

@[simp] theorem State.overrun_tags (s : State) (l : Loc) (d cell : Nat) : (State.overrun s l d cell).tags = s.tags := by
  unfold State.overrun
  dsimp only
  split
  · rw [State.onView_tags, State.stopDomain_tags]
  · rw [State.setCtx_tags, State.onView_tags, State.stopDomain_tags]

@[simp] theorem State.domainStep_tags (s : State) (core dom : Nat) : (State.domainStep s core dom).tags = s.tags := by
  unfold State.domainStep
  dsimp only
  repeat' split
  all_goals simp

/-! ### Completion entries -/

@[simp] theorem State.complete_tags (s : State) (pav vd : Nat) (e : List Byte) : (State.complete s pav vd e).tags = s.tags := rfl

/-! ### The core settles -/

@[simp] theorem State.settle_tags (s : State) (core : Nat) : (State.settle s core).tags = s.tags := by
  unfold State.settle
  split <;> simp

/-! ### Banks that are claimed and released -/

@[simp] theorem State.takeOverBank_tags (s : State) (core prog b : Nat) : (State.takeOverBank s core prog b).tags = s.tags := by
  unfold State.takeOverBank
  dsimp only
  split
  · exact foldl_tags (fun _ _ => by simp) _ _
  · rfl
  · rfl

@[simp] theorem State.holdClaim_tags (s : State) (core prog b : Nat) : (State.holdClaim s core prog b).tags = s.tags := by
  unfold State.holdClaim
  dsimp only
  split <;> simp

@[simp] theorem State.endReleases_tags (s : State) (core b : Nat) : (State.endReleases s core b).tags = s.tags := rfl

/-! ### Landings, halts and the selection of contexts -/

@[simp] theorem State.landNow_tags (s : State) (l : Loc) (id : Nat) : (State.landNow s l id).tags = s.tags := by
  unfold State.landNow
  dsimp only
  repeat' split
  all_goals simp

@[simp] theorem State.landResult_tags (s : State) (l : Loc) (id : Nat) : (State.landResult s l id).tags = s.tags := by
  unfold State.landResult
  repeat' split
  all_goals simp

@[simp] theorem State.landAll_tags (s : State) (l : Loc) : (State.landAll s l).tags = s.tags := by
  unfold State.landAll
  exact foldl_tags (fun _ _ => by simp) _ _

@[simp] theorem State.stopEngines_tags (s : State) (l : Loc) : (State.stopEngines s l).tags = s.tags := by
  simp [State.stopEngines]

@[simp] theorem State.haltSave_tags (s : State) (l : Loc) (off : Option Nat) : (State.haltSave s l off).tags = s.tags := by
  unfold State.haltSave
  dsimp only
  split <;> simp

@[simp] theorem State.moveTask_tags (s : State) (core dst id : Nat) : (State.moveTask s core dst id).tags = s.tags := by
  unfold State.moveTask
  split <;> simp

@[simp] theorem State.restoreCtx_tags (s : State) (l dst : Loc) : (State.restoreCtx s l dst).tags = s.tags := by
  unfold State.restoreCtx
  dsimp only
  repeat' split
  all_goals simp

@[simp] theorem State.lendPick_tags (s : State) (arb : Nat) (from_ : Option Nat) (waiting : List Nat) :
    (State.lendPick s arb from_ waiting).2.tags = s.tags := by
  unfold State.lendPick
  dsimp only
  repeat' split
  all_goals simp

theorem State.tags_of_lendPick {s t : State} {arb : Nat} {o k : Option Nat} {ks : List Nat} (h : s.lendPick arb o ks = (k, t)) :
    t.tags = s.tags := by
  rw [← State.lendPick_tags s arb o ks, h]

@[simp] theorem State.switchTo_tags (s : State) (core c : Nat) : (State.switchTo s core c).tags = s.tags := by
  unfold State.switchTo
  dsimp only
  repeat' split
  all_goals simp

@[simp] theorem State.selectAmong_tags (s : State) (core : Nat) (cs : List Nat) : (State.selectAmong s core cs).tags = s.tags := by
  unfold State.selectAmong
  dsimp only
  repeat' split
  any_goals simp only [State.switchTo_tags]
  all_goals exact State.tags_of_lendPick ‹_›

@[simp] theorem State.select_tags (s : State) (core : Nat) : (State.select s core).tags = s.tags := by
  unfold State.select
  split <;> simp

@[simp] theorem State.leave_tags (s : State) (l : Loc) (exit status : Nat) : (State.leave s l exit status).tags = s.tags := by
  unfold State.leave
  dsimp only
  repeat' split
  all_goals simp

@[simp] theorem State.endLate_tags (s : State) (l : Loc) (exit status : Nat) : (State.endLate s l exit status).tags = s.tags := by
  unfold State.endLate
  split <;> simp

/-! ### Rates and arbiters -/

@[simp] theorem State.passTime_tags (s : State) (core : Nat) : (State.passTime s core).tags = s.tags := by
  unfold State.passTime
  split <;> simp

@[simp] theorem State.takeOver_tags (s : State) (arb : Nat) : (State.takeOver s arb).tags = s.tags := rfl

@[simp] theorem State.walkReclaims_tags (s : State) (t : Nat) : (State.walkReclaims s t).tags = s.tags := by
  unfold State.walkReclaims
  split <;> simp

@[simp] theorem State.passCycle_tags (s : State) (core : Nat) : (State.passCycle s core).tags = s.tags := by
  unfold State.passCycle
  dsimp only
  split <;> simp

@[simp] theorem State.refill_tags (s : State) (arb : Nat) : (State.refill s arb).tags = s.tags := by
  unfold State.refill
  dsimp only
  repeat' split
  all_goals simp

@[simp] theorem State.reclaimLine_tags (s : State) (t : Nat) (r : Reclaim) (line : Nat) : (State.reclaimLine s t r line).tags = s.tags := rfl

@[simp] theorem State.grant_tags (s : State) (arb : Nat) : (State.grant s arb).tags = s.tags := by
  unfold State.grant
  dsimp only
  repeat' split
  any_goals simp
  all_goals exact State.tags_of_lendPick ‹_›

/-- A container that places packets leaves the tags where the placing does. -/
theorem State.fillContainer_tags (s : State) (arb slot free : Nat) (draws : Bool) (waiting : List (Nat × RingMsg))
    {place : State → Nat → Nat → State} (hplace : ∀ s key n, (place s key n).tags = s.tags) :
    (s.fillContainer arb slot free draws waiting place).tags = s.tags := by
  unfold State.fillContainer
  dsimp only
  repeat' split
  any_goals simp [hplace]
  all_goals exact State.tags_of_lendPick ‹_›

@[simp] theorem State.placePacket_tags (s : State) (core dir slot free : Nat) : (State.placePacket s core dir slot free).tags = s.tags := by
  unfold State.placePacket
  dsimp only
  split
  · exact State.fillContainer_tags _ _ _ _ _ _ fun _ _ _ => rfl
  · split
    · exact State.fillContainer_tags _ _ _ _ _ _ fun _ _ _ => rfl
    · rfl

/-! ### The dispatcher and its tasks -/

@[simp] theorem State.park_tags (s : State) (core c : Nat) : (State.park s core c).tags = s.tags := by
  unfold State.park
  dsimp only
  split <;> simp

@[simp] theorem State.unpark_tags (s : State) (core : Nat) (t : Task) : (State.unpark s core t).tags = s.tags := by
  unfold State.unpark
  dsimp only
  repeat' split
  all_goals simp

@[simp] theorem State.bindTask_tags (s : State) (pav core c : Nat) (t : Task) (qs : List Nat) :
    (State.bindTask s pav core c t qs).tags = s.tags := by
  unfold State.bindTask
  dsimp only
  split
  · exact (foldl_tags (fun _ _ => by simp) _ _).trans ((foldl_tags (fun _ _ => by simp) _ _).trans rfl)
  · rfl

@[simp] theorem State.bindGroup_tags (s : State) (pav core : Nat) (ts : List Task) : (State.bindGroup s pav core ts).tags = s.tags := by
  have hpark (cs : List Nat) : (cs.foldl (fun s c => s.park core c) s).tags = s.tags := foldl_tags (fun _ _ => by simp) _ _
  unfold State.bindGroup
  refine (foldl_tags (fun _ _ => by simp) _ _).trans ?_
  split
  · split <;> simp [hpark]
  · exact hpark _

@[simp] theorem State.bind_tags (s : State) (core task : Nat) : (State.bind s core task).tags = s.tags := by
  unfold State.bind
  dsimp only
  repeat' split
  all_goals simp

@[simp] theorem State.finish_tags (s : State) (core task : Nat) : (State.finish s core task).tags = s.tags := by
  unfold State.finish
  dsimp only
  repeat' split
  all_goals simp

@[simp] theorem State.postEntry_tags (s : State) (pav vd : Nat) : (State.postEntry s pav vd).tags = s.tags := by
  unfold State.postEntry
  dsimp only
  repeat' split
  all_goals simp

end Sys2Proof.Machine

/-! # The steps that move no data to memory (O59) -/

namespace Sys2Proof.Machine

/-- A wait that ends leaves memory and the tags where no trigger of its bundle was kept for it (R205). -/
theorem State.clearBlock_bytes {s : State} {l : Loc} (h : (s.ctx l).late = []) :
    (s.clearBlock l).mem = s.mem ∧ (s.clearBlock l).tags = s.tags := by
  have hactLate : s.actLate l = s := by
    unfold State.actLate
    simp [h]
  unfold State.clearBlock
  simp only [hactLate]
  repeat' split
  all_goals exact ⟨by simp, by simp⟩

theorem keeps_of_next {s t u : State} (h : (.next u : Host.Outcome State Fault Refusal) = .next t) (hm : u.mem = s.mem)
    (ht : u.tags = s.tags) : (∀ a, t.mem.byte a = s.mem.byte a) ∧ t.tags = s.tags := by
  obtain rfl := Host.Outcome.next.inj h
  exact ⟨fun a => by rw [hm], ht⟩

/-- Settles O59: each of the steps is one function of the model, which leaves memory and the tags. -/
theorem stepsOfEnginesAndTasksLeaveMemory : Obligations.StepsOfEnginesAndTasksLeaveMemory := by
  unfold Obligations.StepsOfEnginesAndTasksLeaveMemory
  intro s t i c n m d hi hlate h
  simp only [List.mem_cons, List.not_mem_nil, or_false] at hi
  rcases hi with rfl | rfl | rfl | rfl | rfl | rfl | rfl | rfl | rfl | rfl | rfl | rfl | rfl | rfl | rfl | rfl | rfl | rfl | rfl | rfl |
    rfl | rfl | rfl | rfl
  · exact keeps_of_next h (State.startMx_mem ..) (State.startMx_tags ..)
  · exact keeps_of_next h (State.stepWload_mem ..) (State.stepWload_tags ..)
  · exact keeps_of_next h (State.stepStream_mem ..) (State.stepStream_tags ..)
  · exact keeps_of_next h (State.stepPromote_mem ..) (State.stepPromote_tags ..)
  · exact keeps_of_next h (State.stepLoop_mem ..) (State.stepLoop_tags ..)
  · exact keeps_of_next h (State.stepEnd_mem ..) (State.stepEnd_tags ..)
  · exact keeps_of_next h (State.stepNop_mem ..) (State.stepNop_tags ..)
  · exact keeps_of_next h (State.completeMx_mem ..) (State.completeMx_tags ..)
  · exact keeps_of_next h (State.startScan_mem ..) (State.startScan_tags ..)
  · exact keeps_of_next h (State.scanBlock_mem ..) (State.scanBlock_tags ..)
  · exact keeps_of_next h (State.domainStep_mem ..) (State.domainStep_tags ..)
  · exact keeps_of_next h (State.landResult_mem ..) (State.landResult_tags ..)
  · obtain ⟨hm, ht⟩ := State.clearBlock_bytes (hlate rfl)
    exact keeps_of_next h hm ht
  · exact keeps_of_next h (State.select_mem ..) (State.select_tags ..)
  · exact keeps_of_next h (State.refill_mem ..) (State.refill_tags ..)
  · exact keeps_of_next h (State.grant_mem ..) (State.grant_tags ..)
  · exact keeps_of_next h (State.deliverMessage_mem ..) (State.deliverMessage_tags ..)
  · exact keeps_of_next h (State.returnCredit_mem ..) (State.returnCredit_tags ..)
  · exact keeps_of_next h (State.placePacket_mem ..) (State.placePacket_tags ..)
  · exact keeps_of_next h (State.bind_mem ..) (State.bind_tags ..)
  · exact keeps_of_next h (State.finish_mem ..) (State.finish_tags ..)
  · exact keeps_of_next h (State.postEntry_mem ..) (State.postEntry_tags ..)
  · exact keeps_of_next h (State.holdClaim_mem ..) (State.holdClaim_tags ..)
  · exact keeps_of_next h (State.endReleases_mem ..) (State.endReleases_tags ..)

end Sys2Proof.Machine

/-! # The step words of a matrix call (O42) -/

namespace Sys2Proof

/-! ### Overlays of tables -/

variable {α : Type}

theorem Table.find?_eq_none {t : Table α} {k : Nat} (h : ∀ e ∈ t, e.1 ≠ k) : t.find? k = none := by
  induction t with
  | nil => rfl
  | cons e t ih => rw [Table.find?, if_neg (h e List.mem_cons_self), ih fun d hd => h d (List.mem_cons_of_mem e hd)]

theorem Table.find?_of_mem {t : Table α} {k : Nat} {v : α} (ht : t.Pairwise fun d e => d.1 < e.1) (h : (k, v) ∈ t) :
    t.find? k = some v := by
  induction t with
  | nil => exact absurd h List.not_mem_nil
  | cons e t ih =>
    obtain ⟨hhead, htail⟩ := List.pairwise_cons.1 ht
    rcases List.mem_cons.1 h with rfl | h'
    · rw [Table.find?, if_pos rfl]
    · rw [Table.find?, if_neg (Nat.ne_of_lt (hhead _ h')), ih htail h']

theorem Table.find?_overlayFuel (k : Nat) : ∀ (f : Nat) (xs ys : Table α), ys.Pairwise (fun d e => d.1 < e.1) →
    xs.length + ys.length < f → (Table.overlayFuel f xs ys).find? k = (ys.find? k).or (xs.find? k)
  | 0, _, _, _, hf => absurd hf (Nat.not_lt_zero _)
  | f + 1, [], ys, _, _ => by rw [Table.overlayFuel, Table.find?, Option.or_none]
  | f + 1, x :: xs, [], _, _ => by
    rw [Table.overlayFuel, Table.find?, Option.none_or]
    intro h
    cases h
  | f + 1, (i, x) :: xs, (j, y) :: ys, hys, hf => by
    obtain ⟨hhead, htail⟩ := List.pairwise_cons.1 hys
    simp only [List.length_cons] at hf
    rw [Table.overlayFuel]
    split
    · next hij =>
      rw [Table.find?, Table.find?_overlayFuel k f xs _ hys (by simp only [List.length_cons]; omega)]
      by_cases hik : i = k
      · have hnone : Table.find? ((j, y) :: ys) k = none := Table.find?_eq_none fun e he => by
          rcases List.mem_cons.1 he with rfl | he
          · simp only; omega
          · have := hhead e he
            simp only at this; omega
        rw [if_pos hik, hnone, Table.find?, if_pos hik, Option.none_or]
      · rw [if_neg hik, show Table.find? ((i, x) :: xs) k = Table.find? xs k by rw [Table.find?, if_neg hik]]
    · split
      · rw [Table.find?, Table.find?_overlayFuel k f _ ys htail (by simp only [List.length_cons]; omega)]
        by_cases hjk : j = k <;> simp [Table.find?, hjk]
      · next h1 h2 =>
        have hij : i = j := by omega
        rw [Table.find?, Table.find?_overlayFuel k f xs ys htail (by omega)]
        by_cases hjk : j = k <;> simp [Table.find?, hij, hjk]

theorem Table.find?_overlay (xs : Table α) {ys : Table α} (h : ys.Pairwise fun d e => d.1 < e.1) (k : Nat) :
    (xs.overlay ys).find? k = (ys.find? k).or (xs.find? k) :=
  Table.find?_overlayFuel k _ xs ys h (Nat.lt_succ_self _)

end Sys2Proof

namespace Sys2Proof.Machine

/-! ### The arithmetic of the array and the accumulators (R62, R65 to R67) -/

/-- A number on its way into the array: one that is no number loses its value. -/
def Exact.clean (e : Exact) : Exact := if e.bad then ⟨0, 0, true⟩ else e

theorem product_eq_clean (x y : Exact) : product x y = (Spec.product x y).clean := by
  unfold product Exact.clean Spec.product
  cases x.bad || y.bad <;> rfl

@[simp] theorem Exact.clean_bad (e : Exact) : e.clean.bad = e.bad := by
  unfold Exact.clean
  split <;> simp_all

/-- The products that a group counts are those that are numbers and not 0. -/
theorem filter_clean (ps : List Exact) :
    (ps.map Exact.clean).filter (fun p => p.mant != 0) = ps.filter fun p => !p.bad && decide (p.mant ≠ 0) := by
  induction ps with
  | nil => rfl
  | cons p ps ih =>
    simp only [List.map_cons, List.filter_cons, ih]
    cases hp : p.bad <;> simp [Exact.clean, hp]

theorem max?_map_eq_foldl {β : Type} (f : β → Int) (p : β) (rest : List β) :
    ((p :: rest).map f).max? = some (rest.foldl (fun m q => max m (f q)) (f p)) := by
  rw [List.map_cons, List.max?_cons', List.foldl_map]

theorem foldl_add_eq_sum {β : Type} (f : β → Int) (us : List β) (a : Int) :
    us.foldl (fun acc u => acc + f u) a = a + (us.map f).sum := by
  induction us generalizing a with
  | nil => simp
  | cons u us ih => rw [List.foldl_cons, ih, List.map_cons, List.sum_cons, Int.add_assoc]

/-- The sum of a group, and what was lost (R66). -/
theorem groupSum_clean (ps : List Exact) : groupSum (ps.map Exact.clean) = Spec.groupOf ps := by
  unfold groupSum Spec.groupOf
  simp only [filter_clean]
  cases ps.filter fun p => !p.bad && decide (p.mant ≠ 0) with
  | nil => rfl
  | cons p rest =>
    have hmax := max?_map_eq_foldl (fun p : Exact => Int.ofNat (Nat.log2 p.mant.natAbs) + p.exp) p rest
    simp only [hmax, foldl_add_eq_sum, List.map_map, List.any_map, Int.zero_add]
    rfl

theorem saturated_cases (w : Nat) (x : Int) :
    (2 ^ (w - 1) - 1 < x ∧ Spec.saturated w x = 2 ^ (w - 1) - 1) ∨
    (x < -(2 ^ (w - 1)) ∧ ¬ 2 ^ (w - 1) - 1 < x ∧ Spec.saturated w x = -(2 ^ (w - 1))) ∨
    (¬ x < -(2 ^ (w - 1)) ∧ ¬ 2 ^ (w - 1) - 1 < x ∧ Spec.saturated w x = x) := by
  have hpos : (0 : Int) < 2 ^ (w - 1) := Int.pow_pos (by decide)
  unfold Spec.saturated
  omega

/-- AccAdd saturates its sum (R62). -/
theorem accAdd_eq (a : Acc) (m x : Int) : (accAdd a m x).1 = Spec.added a m x := by
  have hf : floorShift m (x - a.exp) = Spec.floored m (x - a.e.toInt) := rfl
  unfold accAdd Spec.added
  simp only [hf]
  generalize Spec.floored m (x - a.e.toInt) = r
  rcases saturated_cases 64 (a.w.toInt + r.1) with ⟨h, e⟩ | ⟨h, hn, e⟩ | ⟨h, hn, e⟩
  · rw [if_pos h, e, decide_eq_true (Int.ne_of_lt h), Bool.or_true]
  · rw [if_neg hn, if_pos h, e, decide_eq_true (Int.ne_of_gt h), Bool.or_true]
  · rw [if_neg hn, if_neg h, e, decide_eq_false (not_not_intro rfl), Bool.or_false]

theorem Inner.promote_eq (i : Inner) (a : Acc) : (i.promote a).1 = Spec.promoted i.acc a := by
  unfold Inner.promote Spec.promoted
  cases i.acc with
  | none => rfl
  | some v => exact accAdd_eq a v.1 (v.2 - 24)

theorem clamp36_eq (t : Int) :
    (if t > 2 ^ 35 - 1 then 2 ^ 35 - 1 else if t < -(2 ^ 35) then -(2 ^ 35) else t) = Spec.saturated 36 t := by
  rcases saturated_cases 36 t with ⟨h, e⟩ | ⟨h, hn, e⟩ | ⟨h, hn, e⟩
  · rw [if_pos h, e]
  · rw [if_neg hn, if_pos h, e]
  · rw [if_neg hn, if_neg h, e]

theorem outside36_eq (t : Int) : (decide (t > 2 ^ 35 - 1) || decide (t < -(2 ^ 35))) = decide (Spec.saturated 36 t ≠ t) := by
  rcases saturated_cases 36 t with ⟨h, e⟩ | ⟨h, hn, e⟩ | ⟨h, hn, e⟩
  · rw [decide_eq_true h, e, Bool.true_or, decide_eq_true (Int.ne_of_lt h)]
  · rw [decide_eq_true h, e, Bool.or_true, decide_eq_true (Int.ne_of_gt h)]
  · rw [decide_eq_false h, decide_eq_false hn, e, Bool.or_false, decide_eq_false (not_not_intro rfl)]

/-- A group entered into an inner accumulator (R67). -/
theorem Inner.enter_some (i : Inner) (g : Int × Int) : i.enter (some g) =
    (⟨some (Spec.entered i.acc g.1 g.2).1, i.count + 1⟩, (Spec.entered i.acc g.1 g.2).2.1, (Spec.entered i.acc g.1 g.2).2.2) := by
  unfold Inner.enter Spec.entered
  simp only [clamp36_eq, outside36_eq]
  cases i.acc <;> rfl

/-- A group of products enters an element on its way (R65 to R67). -/
theorem Cursor.group_eq (c : Cursor) (p : Nat) (ps : List Exact) :
    ((c.group p (ps.map Exact.clean)).inner, (c.group p (ps.map Exact.clean)).acc) = Spec.groupEnters p (c.inner, c.acc) ps := by
  have hbad : (ps.map Exact.clean).any Exact.bad = ps.any Exact.bad := by
    rw [List.any_map]
    exact congrArg ps.any (funext Exact.clean_bad)
  unfold Cursor.group Spec.groupEnters
  simp only [groupSum_clean, hbad]
  cases (Spec.groupOf ps).1 with
  | none =>
    simp only [Inner.enter, ge_iff_le]
    split
    · exact congrArg (Prod.mk _) (Inner.promote_eq ..)
    · rfl
  | some g =>
    simp only [Inner.enter_some, ge_iff_le]
    split
    · exact congrArg (Prod.mk _) (Inner.promote_eq ..)
    · rfl

theorem takeD_eq_map_getD {β : Type} (n : Nat) (xs : List β) (d : β) : xs.takeD n d = (List.range n).map fun i => xs.getD i d := by
  induction n generalizing xs with
  | zero => rfl
  | succ n ih =>
    rw [List.takeD, ih, List.range_succ_eq_map, List.map_cons, List.map_map]
    cases xs <;> rfl

/-- The products of a row and a column, by their place (R65). -/
theorem products_eq (row : Nat → Exact) (col : List Exact) : products ((List.range 128).map row) col =
    (List.range 128).map fun i => (Spec.product (row i) (col.getD i ⟨0, 0, false⟩)).clean := by
  unfold products
  rw [takeD_eq_map_getD, List.zip_map', List.map_map]
  exact List.map_congr_left fun i _ => product_eq_clean ..

/-- The groups of 32 products of a list enter in order (R66). -/
theorem Cursor.groups_eq (p : Nat) (f : Nat → Exact) (n k : Nat) (c : Cursor) :
    let e := Cursor.groups c p n ((List.range' (32 * k) (32 * n)).map fun i => (f i).clean)
    (e.inner, e.acc) = (List.range' k n).foldl
      (fun e g => Spec.groupEnters p e ((List.range 32).map fun i => f (32 * g + i))) (c.inner, c.acc) := by
  induction n generalizing k c with
  | zero => rfl
  | succ n ih =>
    have hsplit : List.range' (32 * k) (32 * (n + 1)) = List.range' (32 * k) 32 ++ List.range' (32 * (k + 1)) (32 * n) := by
      rw [show 32 * (n + 1) = 32 + 32 * n by omega, show 32 * (k + 1) = 32 * k + 1 * 32 by omega, List.range'_append]
    have hhead : ((List.range' (32 * k) 32).map fun i => (f i).clean) = ((List.range 32).map fun i => f (32 * k + i)).map Exact.clean := by
      rw [List.range'_eq_map_range, List.map_map, List.map_map]
      rfl
    have hlen : ((List.range' (32 * k) 32).map fun i => (f i).clean).length = 32 := by rw [List.length_map, List.length_range']
    rw [List.range'_succ, List.foldl_cons, ← Cursor.group_eq, hsplit, List.map_append, Cursor.groups, List.take_left' hlen,
      List.drop_left' hlen, hhead]
    exact ih (k + 1) _

/-! ### What an element gains (R148) -/

/-- The sticky bits of an element stay (R60). -/
structure Acc.Sticks (a b : Acc) : Prop where
  ovf : a.ovf = true → b.ovf = true
  inv : a.inv = true → b.inv = true
  inx : a.inx = true → b.inx = true

theorem Acc.Sticks.trans {a b c : Acc} (h : a.Sticks b) (h' : b.Sticks c) : a.Sticks c :=
  ⟨h'.ovf ∘ h.ovf, h'.inv ∘ h.inv, h'.inx ∘ h.inx⟩

theorem promoted_sticks (i : Option (Int × Int)) (a : Acc) : a.Sticks (Spec.promoted i a) := by
  cases i with
  | none => exact ⟨id, id, id⟩
  | some v => exact ⟨fun h => by simp [Spec.promoted, Spec.added, h], id, fun h => by simp [Spec.promoted, Spec.added, h]⟩

theorem groupEnters_sticks (p : Nat) (c : Inner × Acc) (ps : List Exact) : c.2.Sticks (Spec.groupEnters p c ps).2 := by
  unfold Spec.groupEnters
  dsimp only
  split
  · exact Acc.Sticks.trans ⟨fun h => by simp [h], fun h => by simp [h], fun h => by simp [h]⟩ (promoted_sticks _ _)
  · exact ⟨fun h => by simp [h], fun h => by simp [h], fun h => by simp [h]⟩

theorem foldl_groupEnters_sticks (p : Nat) (f : Nat → List Exact) (gs : List Nat) (c : Inner × Acc) :
    c.2.Sticks (gs.foldl (fun e g => Spec.groupEnters p e (f g)) c).2 := by
  induction gs generalizing c with
  | nil => exact ⟨id, id, id⟩
  | cons g gs ih => exact (groupEnters_sticks p c (f g)).trans (ih _)

theorem testBit_foldl_or {β : Type} (f : β → Nat) (xs : List β) (a j : Nat) :
    (xs.foldl (fun acc x => acc ||| f x) a).testBit j = (a.testBit j || xs.any fun x => (f x).testBit j) := by
  induction xs generalizing a with
  | nil => simp
  | cons x xs ih => rw [List.foldl_cons, ih, Nat.testBit_or, List.any_cons, Bool.or_assoc]

theorem testBit_gained (a b : Acc) : (∀ j, j < 5 → (gained a b).testBit j = false) ∧ (gained a b).testBit 5 = (b.ovf && !a.ovf) ∧
    (gained a b).testBit 6 = (b.inv && !a.inv) ∧ (gained a b).testBit 7 = (b.inx && !a.inx) := by
  unfold gained flagIf
  cases b.ovf && !a.ovf <;> cases b.inv && !a.inv <;> cases b.inx && !a.inx <;> decide

/-- A truth value raised where an element of a z tile gained a bit (R148). -/
def raisedBy (f : Acc → Bool) (a b : ZTile) (x y : Bool) : Prop :=
  y = true ↔ x = true ∨ ∃ n, f (a.elem n) = false ∧ f (b.elem n) = true

theorem raisedBy.trans {f : Acc → Bool} {a b c : ZTile} {x y w : Bool} (h : raisedBy f a b x y) (h' : raisedBy f b c y w)
    (hab : ∀ n, f (a.elem n) = true → f (b.elem n) = true) (hbc : ∀ n, f (b.elem n) = true → f (c.elem n) = true) : raisedBy f a c x w := by
  constructor
  · intro hw
    rcases h'.1 hw with hy | ⟨n, hb, hc⟩
    · rcases h.1 hy with hx | ⟨n, ha, hb⟩
      · exact .inl hx
      · exact .inr ⟨n, ha, hbc n hb⟩
    · exact .inr ⟨n, Bool.eq_false_iff.2 fun ha => by rw [hab n ha] at hb; exact Bool.noConfusion hb, hc⟩
  · rintro (hx | ⟨n, ha, hc⟩)
    · exact h'.2 (.inl (h.2 (.inl hx)))
    · cases hb : f (b.elem n) with
      | true => exact h'.2 (.inl (h.2 (.inr ⟨n, ha, hb⟩)))
      | false => exact h'.2 (.inr ⟨n, hb, hc⟩)

/-- A z tile after rounds that only add to its elements' sticky bits and to its flags (R148). -/
structure ZTile.Grows (a b : ZTile) : Prop where
  owner : b.owner = a.owner
  stat : b.stat = { a.stat with flags := b.stat.flags }
  low : ∀ j, j < 5 → b.stat.flags.getLsbD j = a.stat.flags.getLsbD j
  ovf : raisedBy Acc.ovf a b (a.stat.flags.getLsbD 5) (b.stat.flags.getLsbD 5)
  inv : raisedBy Acc.inv a b (a.stat.flags.getLsbD 6) (b.stat.flags.getLsbD 6)
  inx : raisedBy Acc.inx a b (a.stat.flags.getLsbD 7) (b.stat.flags.getLsbD 7)
  sticks : ∀ n, (a.elem n).Sticks (b.elem n)

theorem ZTile.Grows.gains {a b : ZTile} (h : a.Grows b) : Spec.gains a b := ⟨h.owner, h.stat, h.low, h.ovf, h.inv, h.inx⟩

theorem ZTile.Grows.refl (a : ZTile) : a.Grows a where
  owner := rfl
  stat := rfl
  low _ _ := rfl
  ovf := ⟨.inl, fun h => h.elim id fun ⟨_, h1, h2⟩ => absurd (h1.symm.trans h2) Bool.false_ne_true⟩
  inv := ⟨.inl, fun h => h.elim id fun ⟨_, h1, h2⟩ => absurd (h1.symm.trans h2) Bool.false_ne_true⟩
  inx := ⟨.inl, fun h => h.elim id fun ⟨_, h1, h2⟩ => absurd (h1.symm.trans h2) Bool.false_ne_true⟩
  sticks _ := ⟨id, id, id⟩

theorem ZTile.Grows.trans {a b c : ZTile} (h : a.Grows b) (h' : b.Grows c) : a.Grows c where
  owner := h'.owner.trans h.owner
  stat := by rw [h'.stat, h.stat]
  low j hj := (h'.low j hj).trans (h.low j hj)
  ovf := h.ovf.trans h'.ovf (fun n => (h.sticks n).ovf) fun n => (h'.sticks n).ovf
  inv := h.inv.trans h'.inv (fun n => (h.sticks n).inv) fun n => (h'.sticks n).inv
  inx := h.inx.trans h'.inx (fun n => (h.sticks n).inx) fun n => (h'.sticks n).inx
  sticks n := (h.sticks n).trans (h'.sticks n)

/-- The results of a round that is over some elements of a z tile, in ascending order. -/
structure ZTile.Round (z : ZTile) (gs : List Gain) : Prop where
  rises : gs.Pairwise fun g h => g.elem < h.elem
  old : ∀ g ∈ gs, g.old = z.elem g.elem
  sticks : ∀ g ∈ gs, g.old.Sticks g.new

/-- The results that differ from what their elements were. -/
def changedOf (gs : List Gain) : List Gain := gs.filter fun g => decide (g.old ≠ g.new)

/-- A z tile after a round. -/
def ZTile.after (z : ZTile) (gs : List Gain) : ZTile :=
  { z with
    elems := z.elems.overlay ((changedOf gs).map fun g => (g.elem, g.new))
    stat := z.stat.raise ((changedOf gs).foldl (fun f g => f ||| gained g.old g.new) 0) }

theorem ZTile.elem_after {z : ZTile} {gs : List Gain} (h : z.Round gs) (k : Nat) :
    (z.after gs).elem k = (Table.find? ((changedOf gs).map fun g => (g.elem, g.new)) k).getD (z.elem k) := by
  have hrises : ((changedOf gs).map fun g => (g.elem, g.new)).Pairwise fun d e => d.1 < e.1 :=
    List.pairwise_map.2 (h.rises.sublist List.filter_sublist)
  unfold ZTile.after ZTile.elem Table.getD
  rw [Table.find?_overlay _ hrises]
  cases Table.find? ((changedOf gs).map fun g => (g.elem, g.new)) k <;> rfl

/-- An element that the round did not reach is as it was. -/
theorem ZTile.elem_after_outside {z : ZTile} {gs : List Gain} (h : z.Round gs) {k : Nat} (hk : ∀ g ∈ gs, g.elem ≠ k) :
    (z.after gs).elem k = z.elem k := by
  rw [ZTile.elem_after h, Table.find?_eq_none]
  · rfl
  · intro e he
    obtain ⟨g, hg, rfl⟩ := List.mem_map.1 he
    exact hk g (List.mem_of_mem_filter hg)

theorem eq_of_elem_eq {gs : List Gain} (h : gs.Pairwise fun g h => g.elem < h.elem) {a b : Gain} (ha : a ∈ gs) (hb : b ∈ gs)
    (e : a.elem = b.elem) : a = b :=
  List.inj_on_of_nodup_map (List.pairwise_map.2 (h.imp Nat.ne_of_lt)) ha hb e

/-- An element of the round is what its result says. -/
theorem ZTile.elem_after_mem {z : ZTile} {gs : List Gain} (h : z.Round gs) {g : Gain} (hg : g ∈ gs) : (z.after gs).elem g.elem = g.new := by
  have hrises : ((changedOf gs).map fun g => (g.elem, g.new)).Pairwise fun d e => d.1 < e.1 :=
    List.pairwise_map.2 (h.rises.sublist List.filter_sublist)
  rw [ZTile.elem_after h]
  by_cases hc : g.old = g.new
  · rw [Table.find?_eq_none, Option.getD_none, ← h.old g hg, hc]
    intro e he
    obtain ⟨b, hb, rfl⟩ := List.mem_map.1 he
    obtain ⟨hmem, hne⟩ := List.mem_filter.1 hb
    intro heq
    rw [eq_of_elem_eq h.rises hmem hg heq] at hne
    simp [hc] at hne
  · rw [Table.find?_of_mem hrises (List.mem_map_of_mem (List.mem_filter.2 ⟨hg, decide_eq_true hc⟩)), Option.getD_some]

theorem ZTile.getLsbD_after (z : ZTile) (gs : List Gain) {j : Nat} (hj : j < 8) : (z.after gs).stat.flags.getLsbD j =
    (z.stat.flags.getLsbD j || (changedOf gs).any fun g => (gained g.old g.new).testBit j) := by
  unfold ZTile.after TileStat.raise
  rw [BitVec.getLsbD_or, BitVec.getLsbD_ofNat, testBit_foldl_or, Nat.zero_testBit, Bool.false_or, decide_eq_true hj, Bool.true_and]

theorem any_changed_iff {f : Acc → Bool} {z : ZTile} {gs : List Gain} (h : z.Round gs) :
    ((changedOf gs).any fun g => f g.new && !f g.old) = true ↔ ∃ n, f (z.elem n) = false ∧ f ((z.after gs).elem n) = true := by
  simp only [List.any_eq_true, Bool.and_eq_true, Bool.not_eq_true']
  constructor
  · rintro ⟨g, hg, hnew, hold⟩
    have hmem := List.mem_of_mem_filter hg
    exact ⟨g.elem, by rw [← h.old g hmem]; exact hold, by rw [ZTile.elem_after_mem h hmem]; exact hnew⟩
  · rintro ⟨n, hold, hnew⟩
    by_cases hn : ∃ g ∈ gs, g.elem = n
    · obtain ⟨g, hg, rfl⟩ := hn
      rw [ZTile.elem_after_mem h hg] at hnew
      rw [← h.old g hg] at hold
      refine ⟨g, List.mem_filter.2 ⟨hg, decide_eq_true fun e => ?_⟩, hnew, hold⟩
      rw [e, hnew] at hold
      exact Bool.noConfusion hold
    · rw [ZTile.elem_after_outside h (fun g hg e => hn ⟨g, hg, e⟩), hold] at hnew
      exact Bool.noConfusion hnew

theorem ZTile.Round.grows {z : ZTile} {gs : List Gain} (h : z.Round gs) : z.Grows (z.after gs) where
  owner := rfl
  stat := rfl
  low j hj := by simp [ZTile.getLsbD_after z gs (by omega : j < 8), (testBit_gained _ _).1 j hj]
  ovf := by
    rw [raisedBy, ZTile.getLsbD_after z gs (by decide), Bool.or_eq_true, ← any_changed_iff h]
    simp only [testBit_gained]
  inv := by
    rw [raisedBy, ZTile.getLsbD_after z gs (by decide), Bool.or_eq_true, ← any_changed_iff h]
    simp only [testBit_gained]
  inx := by
    rw [raisedBy, ZTile.getLsbD_after z gs (by decide), Bool.or_eq_true, ← any_changed_iff h]
    simp only [testBit_gained]
  sticks n := by
    by_cases hn : ∃ g ∈ gs, g.elem = n
    · obtain ⟨g, hg, rfl⟩ := hn
      rw [ZTile.elem_after_mem h hg, ← h.old g hg]
      exact h.sticks g hg
    · rw [ZTile.elem_after_outside h fun g hg e => hn ⟨g, hg, e⟩]
      exact ⟨id, id, id⟩

/-- A round changes its z tile, and of the call what has saturated, which counts as a fault where TE is 1 (R161). -/
theorem State.gainElems_eq (s : State) (core zi : Nat) (r : MxRun) (gs : List Gain) : ∃ r1 sat,
    s.gainElems core zi r gs = (s.setZ core zi (((s.core core).ztile zi).after gs), r1) ∧
    r1 = { r with saturated := sat, trip := r1.trip } ∧ (r.trip = true → r1.trip = true) ∧
    (((s.core core).ztile zi).stat.te = false → r1.trip = r.trip) := by
  unfold State.gainElems
  dsimp only
  split
  · exact ⟨_, _, rfl, rfl, fun h => by rw [h, Bool.true_or], fun h => by rw [h, Bool.or_false]⟩
  · exact ⟨_, _, rfl, rfl, id, fun _ => rfl⟩

/-! ### Rows of STREAM (R157) -/

/-- Column n of the array (R65). -/
def MxRun.column (r : MxRun) (n i : Nat) : Exact := (r.array.getD n []).getD i ⟨0, 0, false⟩

/-- An element after the four groups of a row and a column (R66, R67). -/
def streamed (p : Nat) (row col : Nat → Exact) (c : Inner × Acc) : Inner × Acc :=
  (List.range 4).foldl (fun e g => Spec.groupEnters p e ((List.range 32).map fun i => Spec.product (row (32 * g + i)) (col (32 * g + i)))) c

theorem getD_replicate {β : Type} (n i : Nat) (d : β) : (List.replicate n d).getD i d = d := by
  rw [List.getD_eq_getElem?_getD, List.getElem?_replicate]
  split <;> rfl

theorem Table.getD_replicate {β : Type} (t : Table (List β)) (k n i : Nat) (d : β) :
    (t.getD k (List.replicate n d)).getD i d = (t.getD k []).getD i d := by
  unfold Table.getD
  cases t.find? k with
  | none => exact Machine.getD_replicate n i d
  | some xs => rfl

theorem Cursor.groups_products (p : Nat) (row : Nat → Exact) (col : List Exact) (i : Inner) (a : Acc) :
    let e := Cursor.groups ⟨i, a, false⟩ p 4 (products ((List.range 128).map row) col)
    (e.inner, e.acc) = streamed p row (fun j => col.getD j ⟨0, 0, false⟩) (i, a) := by
  have h := Cursor.groups_eq p (fun i => Spec.product (row i) (col.getD i ⟨0, 0, false⟩)) 4 0 ⟨i, a, false⟩
  rw [products_eq]
  rw [← List.range_eq_range', ← List.range_eq_range'] at h
  exact h

/-- The result of a row of STREAM for column n. -/
def rowGain (s : State) (core p zi m : Nat) (r : MxRun) (row : Nat → Exact) (n : Nat) : Inner × Gain :=
  let old := ((s.core core).ztile zi).elem (128 * m + n)
  let c := Cursor.groups ⟨Spec.innerOf r zi m n, old, false⟩ p 4
    (products ((List.range 128).map row) (r.array.getD n (List.replicate 128 ⟨0, 0, false⟩)))
  (c.inner, ⟨128 * m + n, old, c.acc, c.sat⟩)

theorem rowGain_eq (s : State) (core p zi m : Nat) (r : MxRun) (row : Nat → Exact) (n : Nat) :
    ((rowGain s core p zi m r row n).1, (rowGain s core p zi m r row n).2.new) =
      streamed p row (r.column n) (Spec.innerOf r zi m n, ((s.core core).ztile zi).elem (128 * m + n)) := by
  have h := Cursor.groups_products p row (r.array.getD n (List.replicate 128 ⟨0, 0, false⟩)) (Spec.innerOf r zi m n)
    (((s.core core).ztile zi).elem (128 * m + n))
  simp only [Table.getD_replicate] at h
  exact h

theorem rowGain_round (s : State) (core p zi m : Nat) (r : MxRun) (row : Nat → Exact) :
    ((s.core core).ztile zi).Round ((List.range 128).map fun n => (rowGain s core p zi m r row n).2) where
  rises := List.pairwise_map.2 (List.pairwise_lt_range.imp fun h => Nat.add_lt_add_left h _)
  old g hg := by
    obtain ⟨n, -, rfl⟩ := List.mem_map.1 hg
    rfl
  sticks g hg := by
    obtain ⟨n, -, rfl⟩ := List.mem_map.1 hg
    have h : (rowGain s core p zi m r row n).2.new = _ := congrArg Prod.snd (rowGain_eq s core p zi m r row n)
    rw [h]
    exact foldl_groupEnters_sticks p _ _ (Spec.innerOf r zi m n, ((s.core core).ztile zi).elem (128 * m + n))

/-- A row of STREAM is one round over its elements, and its inner accumulators are those of the round (R157). -/
theorem State.streamRow_eq (s : State) (core p zi m : Nat) (r : MxRun) (row : Nat → Exact) :
    s.streamRow core p zi m r ((List.range 128).map row) =
      s.gainElems core zi { r with inner := r.inner.set (128 * zi + m) ((List.range 128).map fun n => (rowGain s core p zi m r row n).1) }
        ((List.range 128).map fun n => (rowGain s core p zi m r row n).2) := by
  have hzip : (List.range 128).zip ((r.inner.getD (128 * zi + m) (List.replicate 128 ⟨none, 0⟩)).takeD 128 ⟨none, 0⟩) =
      (List.range 128).map fun n => (n, Spec.innerOf r zi m n) := by
    rw [takeD_eq_map_getD, ← List.map_prod_left_eq_zip]
    simp only [Table.getD_replicate]
    rfl
  unfold State.streamRow
  simp only [hzip, List.map_map]
  rfl

/-- What the rows of STREAM up to one have made of a call and of its z tile (R157). -/
structure StreamedTo (s : State) (core p zi : Nat) (r : MxRun) (row : Nat → Nat → Exact) (m0 m1 : Nat) (t : State) (r1 : MxRun) : Prop where
  keeps : ∃ zs, t.core core = { s.core core with ztiles := zs }
  run : ∃ inner sat trip, r1 = { r with inner := inner, saturated := sat, trip := trip }
  others : ∀ z, z ≠ zi → (t.core core).ztile z = (s.core core).ztile z
  grows : ((s.core core).ztile zi).Grows ((t.core core).ztile zi)
  done : ∀ m n, m0 ≤ m → m < m1 → n < 128 → (Spec.innerOf r1 zi m n, ((t.core core).ztile zi).elem (128 * m + n)) =
    streamed p (row m) (r.column n) (Spec.innerOf r zi m n, ((s.core core).ztile zi).elem (128 * m + n))
  elems : ∀ n, n / 128 < m0 ∨ m1 ≤ n / 128 → ((t.core core).ztile zi).elem n = ((s.core core).ztile zi).elem n
  inner : ∀ m n, m < m0 ∨ m1 ≤ m → Spec.innerOf r1 zi m n = Spec.innerOf r zi m n

theorem StreamedTo.refl (s : State) (core p zi : Nat) (r : MxRun) (row : Nat → Nat → Exact) (m0 : Nat) :
    StreamedTo s core p zi r row m0 m0 s r where
  keeps := ⟨_, rfl⟩
  run := ⟨_, _, _, rfl⟩
  others _ _ := rfl
  grows := .refl _
  done _ _ h h' := absurd h' (Nat.not_lt.2 h)
  elems _ _ := rfl
  inner _ _ _ := rfl

theorem Core.ztile_set (k : Core) (i j : Nat) (z : ZTile) : ({ k with ztiles := k.ztiles.set i z } : Core).ztile j = if j = i then z else k.ztile j := by
  unfold Core.ztile
  split
  · next h => rw [h, Table.getD_set_self]
  · next h => rw [Table.getD_set_ne _ h]

theorem State.ztile_setZ (s : State) (core i j : Nat) (z : ZTile) :
    ((s.setZ core i z).core core).ztile j = if j = i then z else (s.core core).ztile j := by
  unfold State.setZ
  rw [State.core_setCore, Core.ztile_set]

theorem innerOf_of_set {r r1 : MxRun} {zi m : Nat} {xs : List Inner} (h : r1.inner = r.inner.set (128 * zi + m) xs) (j n : Nat) :
    Spec.innerOf r1 zi j n = if j = m then xs.getD n ⟨none, 0⟩ else Spec.innerOf r zi j n := by
  unfold Spec.innerOf
  rw [h]
  split
  · next hj => rw [hj, Table.getD_set_self]
  · next hj => rw [Table.getD_set_ne _ (by omega : 128 * zi + j ≠ 128 * zi + m)]

theorem StreamedTo.next {s t : State} {core p zi : Nat} {r r1 : MxRun} {row : Nat → Nat → Exact} {m0 m : Nat}
    (h : StreamedTo s core p zi r row m0 m t r1) (hm : m0 ≤ m) :
    StreamedTo s core p zi r row m0 (m + 1) (t.streamRow core p zi m r1 ((List.range 128).map (row m))).1
      (t.streamRow core p zi m r1 ((List.range 128).map (row m))).2 := by
  have hround := rowGain_round t core p zi m r1 (row m)
  obtain ⟨r2, sat, hgain, hr2, -, -⟩ := State.gainElems_eq t core zi
    { r1 with inner := r1.inner.set (128 * zi + m) ((List.range 128).map fun n => (rowGain t core p zi m r1 (row m) n).1) }
    ((List.range 128).map fun n => (rowGain t core p zi m r1 (row m) n).2)
  rw [State.streamRow_eq, hgain]
  dsimp only
  have hinner := innerOf_of_set (congrArg MxRun.inner hr2)
  have hcol : r1.column = r.column := by
    obtain ⟨inner, sat, trip, rfl⟩ := h.run
    rfl
  have hz : ∀ z, z ≠ zi → ((t.setZ core zi (((t.core core).ztile zi).after ((List.range 128).map fun n =>
      (rowGain t core p zi m r1 (row m) n).2))).core core).ztile z = (t.core core).ztile z := fun z hne => by
    rw [State.ztile_setZ, if_neg hne]
  have hkept : ∀ n, n / 128 ≠ m → (((t.core core).ztile zi).after ((List.range 128).map fun n =>
      (rowGain t core p zi m r1 (row m) n).2)).elem n = ((t.core core).ztile zi).elem n := fun n hn =>
    ZTile.elem_after_outside hround fun g hg e => by
      obtain ⟨j, hj, rfl⟩ := List.mem_map.1 hg
      have := List.mem_range.1 hj
      simp only [rowGain] at e
      omega
  constructor
  case keeps =>
    obtain ⟨zs, hcore⟩ := h.keeps
    exact ⟨_, by rw [State.setZ, State.core_setCore, hcore]⟩
  case run =>
    obtain ⟨inner, sat, trip, rfl⟩ := h.run
    exact ⟨_, _, _, hr2⟩
  case others => exact fun z hne => (hz z hne).trans (h.others z hne)
  case grows =>
    rw [State.ztile_setZ, if_pos rfl]
    exact h.grows.trans hround.grows
  case done =>
    intro j n hj hj' hn
    rw [State.ztile_setZ, if_pos rfl, hinner]
    by_cases hjm : j = m
    · have hmem := ZTile.elem_after_mem hround (List.mem_map_of_mem (List.mem_range.2 hn))
      rw [if_pos hjm, hjm, ← h.inner m n (.inr (Nat.le_refl m)), ← h.elems (128 * m + n) (.inr (by omega)), ← hcol, ← rowGain_eq]
      refine Prod.ext ?_ hmem
      simp [List.getD_eq_getElem?_getD, hn]
    · rw [if_neg hjm, hkept _ (by omega)]
      exact h.done j n hj (by omega) hn
  case elems =>
    intro n hn
    rw [State.ztile_setZ, if_pos rfl, hkept n (by omega)]
    exact h.elems n (by omega)
  case inner =>
    intro j n hj
    rw [hinner, if_neg (by omega)]
    exact h.inner j n (by omega)

/-- The value that place i of a k-block of row m of A enters with: 0 outside A (R157, log 15). -/
def State.entryOfA (s : State) (core : Nat) (a : Accessor) (d : Word) (kb : Int) (m i : Nat) : Exact :=
  if 0 ≤ 128 * kb + Int.ofNat i ∧ m < dRows d ∧ 128 * kb + Int.ofNat i < Int.ofNat (dCols d) then
    s.matrixElem core a d m (128 * kb + Int.ofNat i).toNat
  else ⟨0, 0, false⟩

theorem State.aRow_eq (s : State) (core : Nat) (a : Accessor) (d : Word) (m : Nat) (kb : Int) :
    s.aRow core a d m kb = (List.range 128).map (s.entryOfA core a d kb m) := by
  refine List.map_congr_left fun i _ => ?_
  have hcond : (128 * kb + Int.ofNat i < 0 ∨ m ≥ dRows d ∨ 128 * kb + Int.ofNat i ≥ Int.ofNat (dCols d)) ↔
      ¬ (0 ≤ 128 * kb + Int.ofNat i ∧ m < dRows d ∧ 128 * kb + Int.ofNat i < Int.ofNat (dCols d)) := by omega
  dsimp only
  rw [State.entryOfA, if_congr hcond rfl rfl, ite_not]

/-- STREAM goes over the rows that its word names (R157). -/
theorem State.stream_streamedTo {s : State} {core p : Nat} {r : MxRun} {w : Word} {ta tz : TileRef} (ha : r.op.tile (stPa w) = some ta)
    (hz : r.op.tile (stPz w) = some tz) :
    StreamedTo s core p (tz.code - 32) r (s.entryOfA core (r.op.who.accessor core) ta.desc (r.ik + Int.ofNat (stKb w))) (stM0 w)
      (stM0 w + (stMc w + 1)) (s.stream core p r w).1 (s.stream core p r w).2 := by
  unfold State.stream
  simp only [ha, hz, State.aRow_eq]
  generalize stMc w + 1 = n
  induction n with
  | zero => exact .refl ..
  | succ n ih =>
    rw [List.range_succ (n := n), List.foldl_append]
    exact ih.next (Nat.le_add_right _ _)

/-! ### The cycles of the next step (R158) -/

theorem State.rowPlanes_eq (s : State) (c : Nat) (r : MxRun) (w : Word) :
    let a := r.op.tile (w.extractLsb' 4 3).toNat
    let b := match r.wload with | some n => r.op.tile (((s.core c).word n).extractLsb' 7 3).toNat | none => none
    let wide (x : Option TileRef) : Bool := match x with | some t => dEw t.desc != 0 | none => false
    s.rowPlanes c r w = if wide a || wide b then 16 else
      match b with
      | some t => ((spanned t.desc).map fun n => (((s.core c).fmtOf n).extractLsb' 3 4).toNat).foldl max 0
      | none => 0 := by
  have hb : (r.wload.bind fun a => r.op.tile (stPb ((s.core c).word a))) =
      (match r.wload with | some n => r.op.tile (((s.core c).word n).extractLsb' 7 3).toNat | none => none) := by
    cases r.wload <;> rfl
  unfold State.rowPlanes
  simp only [hb, List.foldl_map, stPa, bits_eq_toNat_extractLsb']
  generalize (match r.wload with | some n => r.op.tile (((s.core c).word n).extractLsb' 7 3).toNat | none => none) = b
  generalize r.op.tile _ = a
  have hplanes (f : Byte) : fmtPlanes f = (f.extractLsb' 3 4).toNat := rfl
  simp only [hplanes]
  cases a with
  | none =>
    cases b with
    | none => rfl
    | some y => by_cases hy : dEw y.desc = 0 <;> simp [hy]
  | some x =>
    cases b with
    | none => by_cases hx : dEw x.desc = 0 <;> simp [hx]
    | some y => by_cases hx : dEw x.desc = 0 <;> by_cases hy : dEw y.desc = 0 <;> simp [hx, hy]

theorem State.stepCost_eq {s : State} {c : Nat} {r : MxRun} (hop : r.op.op = .mcall) (hdone : r.done = false) :
    s.stepCost c r = Spec.stepCycles (s.core c) r := by
  have hplanes := s.rowPlanes_eq c r ((s.core c).word r.next)
  dsimp only at hplanes
  unfold State.stepCost State.runCycles stCycles
  rw [if_pos ⟨hop, by rw [hdone]; rfl⟩, hplanes]
  unfold Spec.stepCycles stKind stMc
  simp only [bits_eq_toNat_extractLsb']
  generalize (((s.core c).word r.next).extractLsb' 0 (2 + 1 - 0)).toNat = k
  match k with
  | 0 => rfl
  | 1 => rfl
  | 2 => rfl
  | 3 => rfl
  | k + 4 => rfl

/-- A step that only changes the z tiles and the call gives the next step its cycles (R158). -/
theorem timed_setRun {s u : State} {c : Nat} {r : MxRun} (hop : r.op.op = .mcall) (hu : ∃ zs, u.core c = { s.core c with ztiles := zs }) :
    Spec.timed s (u.setRun c r) c := by
  obtain ⟨zs, hu⟩ := hu
  intro q hq hdone
  have hcost : u.stepCost c r = s.stepCost c r := by
    simp only [State.stepCost, State.runCycles, State.rowPlanes, hu]
    rfl
  rw [State.setRun, State.core_setCore, Option.some.injEq] at hq
  subst hq
  dsimp only at hdone ⊢
  rw [hcost, State.stepCost_eq hop hdone, hu]
  rfl

theorem State.core_setRun (s : State) (c : Nat) (r : MxRun) :
    (s.setRun c r).core c = { s.core c with mxRun := some { r with due := (s.core c).cycle + s.stepCost c r } } := by
  rw [State.setRun, State.core_setCore]

/-- A call that stands at a step word is at that step. -/
theorem State.atStep_of_callAt {s : State} {c kind : Nat} {r : MxRun} {w : Word} (h : Spec.callAt s c r w kind) : s.atStep c kind = some (r, w) := by
  obtain ⟨hrun, hop, hdone, hdue, rfl, hkind⟩ := h
  unfold State.atStep
  simp only [hrun]
  rw [if_pos ⟨hop, by rw [hdone]; rfl, hdue, hkind⟩]

/-! ### PROMOTE (R157) -/

/-- The result of PROMOTE for element (m, n) of its z tile. -/
def promoteGain (s : State) (core zi : Nat) (r : MxRun) (m n : Nat) : Gain :=
  let q := (Spec.innerOf r zi m n).promote (((s.core core).ztile zi).elem (128 * m + n))
  ⟨128 * m + n, ((s.core core).ztile zi).elem (128 * m + n), q.1, q.2⟩

/-- The results of PROMOTE for the inner accumulators that a row has. -/
def promoteGains (s : State) (core zi : Nat) (r : MxRun) : List Gain :=
  (List.range 128).flatMap fun m => (List.range (min 128 (r.inner.getD (128 * zi + m) []).length)).map (promoteGain s core zi r m)

theorem zip_range_eq {β : Type} (k : Nat) (xs : List β) (d : β) :
    (List.range k).zip xs = (List.range (min k xs.length)).map fun n => (n, xs.getD n d) := by
  refine List.ext_getElem (by simp) fun n h1 h2 => ?_
  have hn : n < xs.length := by simp at h1; omega
  simp [hn]

theorem State.promoteAll_eq (s : State) (core zi : Nat) (r : MxRun) : s.promoteAll core zi r =
    s.gainElems core zi { r with inner := r.inner.filter fun e => !(e.1 / 128 == zi) } (promoteGains s core zi r) := by
  unfold State.promoteAll promoteGains
  simp only [zip_range_eq 128 _ (⟨none, 0⟩ : Inner), List.map_map]
  rfl

theorem mem_promoteGains {s : State} {core zi : Nat} {r : MxRun} {g : Gain} : g ∈ promoteGains s core zi r ↔
    ∃ m n, m < 128 ∧ n < 128 ∧ n < (r.inner.getD (128 * zi + m) []).length ∧ promoteGain s core zi r m n = g := by
  simp only [promoteGains, List.mem_flatMap, List.mem_map, List.mem_range, Nat.lt_min]
  constructor
  · rintro ⟨m, hm, n, ⟨hn, hlen⟩, rfl⟩
    exact ⟨m, n, hm, hn, hlen, rfl⟩
  · rintro ⟨m, n, hm, hn, hlen, rfl⟩
    exact ⟨m, hm, n, ⟨hn, hlen⟩, rfl⟩

theorem promoteGains_round (s : State) (core zi : Nat) (r : MxRun) : ((s.core core).ztile zi).Round (promoteGains s core zi r) where
  rises := by
    unfold promoteGains
    refine List.pairwise_flatMap.2 ⟨fun m _ => List.pairwise_map.2 (List.pairwise_lt_range.imp fun h => Nat.add_lt_add_left h _), ?_⟩
    refine List.pairwise_lt_range.imp fun {m j} hmj g hg h hh => ?_
    obtain ⟨n, hn, rfl⟩ := List.mem_map.1 hg
    obtain ⟨i, -, rfl⟩ := List.mem_map.1 hh
    have := List.mem_range.1 hn
    simp only [promoteGain]
    omega
  old g hg := by
    obtain ⟨m, n, -, -, -, rfl⟩ := mem_promoteGains.1 hg
    rfl
  sticks g hg := by
    obtain ⟨m, n, -, -, -, rfl⟩ := mem_promoteGains.1 hg
    simp only [promoteGain, Inner.promote_eq]
    exact promoted_sticks _ _

/-- Every element of the tile is what its inner accumulator promotes it to; one that is empty leaves it (R67). -/
theorem elem_after_promoteGains (s : State) (core zi : Nat) (r : MxRun) {m n : Nat} (hm : m < 128) (hn : n < 128) :
    (((s.core core).ztile zi).after (promoteGains s core zi r)).elem (128 * m + n) =
      Spec.promoted (Spec.innerOf r zi m n).acc (((s.core core).ztile zi).elem (128 * m + n)) := by
  have hround := promoteGains_round s core zi r
  by_cases hlen : n < (r.inner.getD (128 * zi + m) []).length
  · have h := ZTile.elem_after_mem hround (mem_promoteGains.2 ⟨m, n, hm, hn, hlen, rfl⟩)
    rw [← Inner.promote_eq]
    exact h
  · have hnone : Spec.innerOf r zi m n = ⟨none, 0⟩ := by
      unfold Spec.innerOf
      rw [List.getD_eq_default _ _ (Nat.le_of_not_lt hlen)]
    rw [hnone]
    refine ZTile.elem_after_outside hround fun g hg e => ?_
    obtain ⟨j, i, hj, hi, hlen', rfl⟩ := mem_promoteGains.1 hg
    simp only [promoteGain] at e
    obtain ⟨rfl, rfl⟩ : j = m ∧ i = n := by omega
    exact hlen hlen'

/-! ### Statuses of tiles that change (R148, R149) -/

/-- A change of statuses of tiles of a core: its engines, the elements and owners of its z tiles and its programs stay. -/
structure State.OnlyStats (s t : State) (c : Nat) : Prop where
  core : ∃ ctxs zs, t.core c = { s.core c with ctxs := ctxs, ztiles := zs }
  elem : ∀ i n, ((t.core c).ztile i).elem n = ((s.core c).ztile i).elem n
  owner : ∀ i, ((t.core c).ztile i).owner = ((s.core c).ztile i).owner
  prog : ∀ n, t.progOf ⟨c, n⟩ = s.progOf ⟨c, n⟩

namespace State.OnlyStats

theorem refl (s : State) (c : Nat) : s.OnlyStats s c := ⟨⟨_, _, rfl⟩, fun _ _ => rfl, fun _ => rfl, fun _ => rfl⟩

theorem trans {s t u : State} {c : Nat} (h : s.OnlyStats t c) (h' : t.OnlyStats u c) : s.OnlyStats u c where
  core := by
    obtain ⟨_, _, ht⟩ := h.core
    obtain ⟨_, _, hu⟩ := h'.core
    exact ⟨_, _, by rw [hu, ht]⟩
  elem i n := (h'.elem i n).trans (h.elem i n)
  owner i := (h'.owner i).trans (h.owner i)
  prog n := (h'.prog n).trans (h.prog n)

theorem setTileStat (s : State) (c n code : Nat) (st : TileStat) : s.OnlyStats (s.setTileStat ⟨c, n⟩ code st) c := by
  have hprog : ∀ m, (s.setTileStat ⟨c, n⟩ code st).progOf ⟨c, m⟩ = s.progOf ⟨c, m⟩ := fun m => by
    unfold State.progOf
    by_cases hm : m = n
    · obtain ⟨tiles, h⟩ := s.setTileStat_ctx ⟨c, n⟩ code st
      rw [hm, h]
    · have hne : (⟨c, m⟩ : Loc) ≠ ⟨c, n⟩ := fun e => hm (congrArg Loc.ctx e)
      unfold State.setTileStat
      split
      · rw [State.ctx_setCtx_ne _ hne]
      · rw [State.setCore_ctx_of_ctxs (by rfl)]
  by_cases hcode : code < 32
  · obtain ⟨x, h⟩ : ∃ x, (s.setTileStat ⟨c, n⟩ code st).core c = (s.core c).setCtx n x := by
      rw [State.setTileStat, if_pos hcode]
      exact ⟨_, State.core_setCtx ..⟩
    exact ⟨⟨_, _, h⟩, fun i n => by rw [h]; rfl, fun i => by rw [h]; rfl, hprog⟩
  · have h : (s.setTileStat ⟨c, n⟩ code st).core c = { s.core c with
        ztiles := (s.core c).ztiles.set (code - 32) { (s.core c).ztile (code - 32) with stat := st } } := by
      rw [State.setTileStat, if_neg hcode, State.core_setCore]
    have hz : ∀ i, ((s.setTileStat ⟨c, n⟩ code st).core c).ztile i =
        if i = code - 32 then { (s.core c).ztile (code - 32) with stat := st } else (s.core c).ztile i := fun i => by
      rw [h, Core.ztile_set]
    refine ⟨⟨_, _, h⟩, fun i n => ?_, fun i => ?_, hprog⟩
    · rw [hz]
      split
      · next e => rw [e]; rfl
      · rfl
    · rw [hz]
      split
      · next e => rw [e]
      · rfl

theorem onTile (s : State) (c : Nat) (w : Who) (code : Nat) (f : TileStat → TileStat) : s.OnlyStats (s.onTile c w code f) c := by
  unfold State.onTile
  split
  · exact setTileStat ..
  · exact refl s c

theorem leaveTiles (s : State) (c : Nat) (w : Who) (ts : List TileRef) : s.OnlyStats (s.leaveTiles c w ts) c := by
  unfold State.leaveTiles
  exact List.foldlRecOn ts.eraseDups _ (motive := fun t => s.OnlyStats t c) (refl s c) fun t h x _ => h.trans (onTile ..)

end State.OnlyStats

/-! ### The end of a call (R149, R161) -/

/-- A fault that is due leaves the engines and the z tiles of its core, and is due at its context while its program is bound (R161). -/
theorem State.arithmeticFault_core (s : State) (core : Nat) (w : Who) (routine : Nat) (norm : Bool) (step tile ik inn : Nat) :
    let t := s.arithmeticFault core w routine norm step tile ik inn
    (∃ ctxs, t.core core = { s.core core with ctxs := ctxs }) ∧
      (s.progOf ⟨core, w.ctx⟩ = some w.bind.prog → (t.ctx ⟨core, w.ctx⟩).arithDue = true) := by
  unfold State.arithmeticFault
  dsimp only
  split
  · exact ⟨⟨_, by rw [State.setCtx, State.core_setCore, State.onView, State.setCtx, State.core_setCore]; rfl⟩,
      fun _ => by rw [State.ctx_setCtx]⟩
  · next h => exact ⟨⟨_, rfl⟩, fun h' => absurd h' h⟩

theorem State.endMx_eq (s : State) (core : Nat) (r : MxRun) (step : Nat) :
    let t := s.endMx core r step
    (t.core core).mxRun = none ∧ (∀ i n, ((t.core core).ztile i).elem n = ((s.core core).ztile i).elem n) ∧
      (r.trip = true → s.progOf ⟨core, r.op.who.ctx⟩ = some r.op.who.bind.prog → (t.ctx ⟨core, r.op.who.ctx⟩).arithDue = true) := by
  have hleft := State.OnlyStats.leaveTiles (s.setCore core { s.core core with mxRun := none }) core r.op.who r.op.tiles
  obtain ⟨ctxs, zs, hcore⟩ := hleft.core
  have helem : ∀ i n, (((s.setCore core { s.core core with mxRun := none }).leaveTiles core r.op.who r.op.tiles).core core |>.ztile i).elem n =
      ((s.core core).ztile i).elem n := fun i n => by rw [hleft.elem, State.core_setCore]; rfl
  unfold State.endMx
  dsimp only
  split
  · obtain ⟨⟨ctxs', hfault⟩, hdue⟩ := State.arithmeticFault_core
      ((s.setCore core { s.core core with mxRun := none }).leaveTiles core r.op.who r.op.tiles) core r.op.who r.op.routine
      (decide (r.op.op = .anorm)) step (r.saturated.foldl min 39) (BitVec.ofInt 16 r.ik).toNat (BitVec.ofInt 16 r.inn).toNat
    refine ⟨by rw [hfault, hcore, State.core_setCore], fun i n => ?_, fun _ hprog => hdue ?_⟩
    · rw [← helem, hfault]; rfl
    · rw [hleft.prog, State.progOf, State.setCore_ctx_of_ctxs (by rfl)]
      exact hprog
  · next h => exact ⟨by rw [hcore, State.core_setCore], helem, fun h' => absurd h' h⟩

/-! ### The block of W (R157) -/

/-- Column n of W in a k-block, as WLOAD lists it. -/
def State.wColumn (s : State) (core : Nat) (a : Accessor) (d : Word) (kb n : Int) : List Exact :=
  (List.range 128).map fun i =>
    if 128 * kb + Int.ofNat i < 0 then ⟨0, 0, false⟩ else s.matrixElem core a d (128 * kb + Int.ofNat i).toNat n.toNat

/-- The column that WLOAD lists for place j of the array: none outside W, and none of zeros alone. -/
def State.wListed (s : State) (core : Nat) (a : Accessor) (d : Word) (kb nb : Int) (j : Nat) : Option (List Exact) :=
  let n := 128 * nb + Int.ofNat j
  if n < 0 ∨ n ≥ Int.ofNat (dCols d) then none
  else if (s.wColumn core a d kb n).all fun v => decide (v.mant = 0) && !v.bad then none else some (s.wColumn core a d kb n)

theorem Table.find?_filterMap {β : Type} (f : Nat → Option β) {k j : Nat} (hj : j < k) :
    Table.find? ((List.range k).filterMap fun i => (f i).map fun v => (i, v)) j = f j := by
  have hrises : ((List.range k).filterMap fun i => (f i).map fun v => (i, v)).Pairwise fun d e => d.1 < e.1 := by
    refine List.pairwise_filterMap.2 (List.pairwise_lt_range.imp fun h d hd e he => ?_)
    obtain ⟨_, -, rfl⟩ := Option.map_eq_some_iff.1 hd
    obtain ⟨_, -, rfl⟩ := Option.map_eq_some_iff.1 he
    exact h
  cases hf : f j with
  | some v => exact Table.find?_of_mem hrises (List.mem_filterMap.2 ⟨j, List.mem_range.2 hj, by rw [hf]; rfl⟩)
  | none =>
    refine Table.find?_eq_none fun e he h => ?_
    obtain ⟨i, -, hi⟩ := List.mem_filterMap.1 he
    obtain ⟨v, hv, rfl⟩ := Option.map_eq_some_iff.1 hi
    rw [show i = j from h, hf] at hv
    cases hv

theorem State.wBlock_eq (s : State) (core : Nat) (a : Accessor) (d : Word) (kb nb : Int) :
    s.wBlock core a d kb nb = (List.range 128).filterMap fun j => (s.wListed core a d kb nb j).map fun v => (j, v) := by
  refine List.filterMap_congr fun j _ => ?_
  unfold State.wListed
  dsimp only
  split
  · rfl
  · change (if (s.wColumn core a d kb _).all _ = true then none else some (j, s.wColumn core a d kb _)) = _
    split <;> rfl

/-- A place of the array holds the element of W at its k and n, or 0 outside W (R157). -/
theorem State.wBlock_place (s : State) (core : Nat) (a : Accessor) (d : Word) (kb nb : Int) {i j : Nat} (hi : i < 128) (hj : j < 128) :
    let k := 128 * kb + Int.ofNat i
    let n := 128 * nb + Int.ofNat j
    let v := (Table.getD (s.wBlock core a d kb nb) j (List.replicate 128 ⟨0, 0, false⟩)).getD i ⟨0, 0, false⟩
    let e : Exact := if 0 ≤ k ∧ 0 ≤ n ∧ n < Int.ofNat (dCols d) then s.matrixElem core a d k.toNat n.toNat else ⟨0, 0, false⟩
    v.mant = e.mant ∧ v.bad = e.bad ∧ (e.mant ≠ 0 → v.exp = e.exp) := by
  have hplace : (s.wColumn core a d kb (128 * nb + Int.ofNat j)).getD i ⟨0, 0, false⟩ =
      if 128 * kb + Int.ofNat i < 0 then ⟨0, 0, false⟩
      else s.matrixElem core a d (128 * kb + Int.ofNat i).toNat (128 * nb + Int.ofNat j).toNat := by
    simp [State.wColumn, List.getD_eq_getElem?_getD, hi]
  dsimp only
  rw [Table.getD_replicate, Table.getD, State.wBlock_eq, Table.find?_filterMap _ hj]
  unfold State.wListed
  dsimp only
  by_cases hn : 128 * nb + Int.ofNat j < 0 ∨ 128 * nb + Int.ofNat j ≥ Int.ofNat (dCols d)
  · rw [if_pos hn, if_neg (by omega)]
    exact ⟨rfl, rfl, fun h => absurd rfl h⟩
  · have hwhole : (if 0 ≤ 128 * kb + Int.ofNat i ∧ 0 ≤ 128 * nb + Int.ofNat j ∧ 128 * nb + Int.ofNat j < Int.ofNat (dCols d) then
        s.matrixElem core a d (128 * kb + Int.ofNat i).toNat (128 * nb + Int.ofNat j).toNat else ⟨0, 0, false⟩) =
        (s.wColumn core a d kb (128 * nb + Int.ofNat j)).getD i ⟨0, 0, false⟩ := by
      rw [hplace]
      by_cases hk : 128 * kb + Int.ofNat i < 0
      · rw [if_pos hk, if_neg (by omega)]
      · rw [if_neg hk, if_pos (by omega)]
    rw [if_neg hn, hwhole]
    split
    · next hzero =>
      have hmem : (s.wColumn core a d kb (128 * nb + Int.ofNat j)).getD i ⟨0, 0, false⟩ ∈ s.wColumn core a d kb (128 * nb + Int.ofNat j) := by
        rw [List.getD_eq_getElem _ _ (by simp [State.wColumn, hi])]
        exact List.getElem_mem _
      have hv := List.all_eq_true.1 hzero _ hmem
      rw [Bool.and_eq_true, decide_eq_true_eq, Bool.not_eq_true'] at hv
      exact ⟨hv.1.symm, hv.2.symm, fun h => absurd hv.1 h⟩
    · exact ⟨rfl, rfl, fun _ => rfl⟩

/-! ### Each step word -/

theorem nibble_eq (w : Word) (lo : Nat) : nibble w lo = (w.extractLsb' lo 4).toInt := by
  unfold nibble
  rw [bits_eq_toNat_extractLsb', show lo + 3 + 1 - lo = 4 by omega, BitVec.ofNat_toNat, BitVec.setWidth_eq]

/-- WLOAD places a block of W in the array (R157). -/
theorem wloadStep {s : State} {c : Nat} {r : MxRun} {w : Word} (h : Spec.callAt s c r w 1) {x : TileRef}
    (hx : r.op.tile (w.extractLsb' 7 3).toNat = some x) :
    ∃ n, exec (.mxWload c) s = .next (s.stepWload c) ∧ Spec.timed s (s.stepWload c) c ∧ ((s.stepWload c).core c).mxRun =
      some { r with
        array := s.wBlock c (r.op.who.accessor c) x.desc (r.ik + Int.ofNat (w.extractLsb' 13 8).toNat)
          (r.inn + Int.ofNat (w.extractLsb' 21 8).toNat)
        wload := some r.next, next := r.next + 1, due := n } := by
  have hx' : r.op.tile (stPb w) = some x := hx
  have hstep : s.stepWload c = s.setRun c { r with
      array := s.wBlock c (r.op.who.accessor c) x.desc (r.ik + Int.ofNat (stKb w)) (r.inn + Int.ofNat (stNb w))
      wload := some r.next, next := r.next + 1 } := by
    unfold State.stepWload
    simp only [State.atStep_of_callAt h, hx']
  rw [hstep]
  exact ⟨_, congrArg Host.Outcome.next hstep, timed_setRun h.2.1 ⟨_, rfl⟩, by rw [State.core_setRun]; rfl⟩

/-- STREAM goes over its rows and on (R157). -/
theorem streamStep {s : State} {c : Nat} {r : MxRun} {w : Word} (h : Spec.callAt s c r w 2) {x y : TileRef}
    (hx : r.op.tile (w.extractLsb' 4 3).toNat = some x) (hy : r.op.tile (w.extractLsb' 10 3).toNat = some y) :
    ∃ t r1 n, StreamedTo s c ((((s.core c).word r.op.routine).extractLsb' 40 6).toNat + 1) (y.code - 32) r
        (s.entryOfA c (r.op.who.accessor c) x.desc (r.ik + Int.ofNat (w.extractLsb' 13 8).toNat)) (w.extractLsb' 29 7).toNat
        ((w.extractLsb' 29 7).toNat + ((w.extractLsb' 36 7).toNat + 1)) t r1 ∧
      exec (.mxStream c) s = .next (t.setRun c { r1 with next := r.next + 1 }) ∧
      Spec.timed s (t.setRun c { r1 with next := r.next + 1 }) c ∧
      (t.setRun c { r1 with next := r.next + 1 }).core c = { t.core c with mxRun := some { r1 with next := r.next + 1, due := n } } := by
  have hto := State.stream_streamedTo (s := s) (core := c) (p := dirP ((s.core c).word r.op.routine)) (w := w) hx hy
  have hop : (s.stream c (dirP ((s.core c).word r.op.routine)) r w).2.op = r.op := by
    obtain ⟨_, _, _, hr⟩ := hto.run
    rw [hr]
  refine ⟨_, _, _, hto, ?_, timed_setRun (by rw [hop]; exact h.2.1) hto.keeps, State.core_setRun ..⟩
  have hstep : s.stepStream c = (s.stream c (dirP ((s.core c).word r.op.routine)) r w).1.setRun c
      { (s.stream c (dirP ((s.core c).word r.op.routine)) r w).2 with next := r.next + 1 } := by
    unfold State.stepStream
    simp only [State.atStep_of_callAt h]
  exact congrArg Host.Outcome.next hstep

/-- LOOP goes back while its count is not done, and then on (R157). -/
theorem loopStep {s : State} {c : Nat} {r : MxRun} {w : Word} (h : Spec.callAt s c r w 4) :
    let cnt := (w.extractLsb' 9 8).toNat
    let count := if cnt = 0 then max 1 ((r.op.mp.getD (w.extractLsb' 17 3).toNat 0).extractLsb' 0 16).toNat else cnt
    ∃ t n, exec (.mxLoop c) s = .next t ∧ Spec.timed s t c ∧ (t.core c).mxRun = some
      (if r.passes + 1 < count then
        { r with ik := r.ik + (w.extractLsb' 20 4).toInt, inn := r.inn + (w.extractLsb' 24 4).toInt, passes := r.passes + 1,
                 next := r.next - (w.extractLsb' 4 5).toNat, due := n }
      else { r with passes := 0, next := r.next + 1, due := n }) := by
  have hstep : s.stepLoop c = if r.passes + 1 < (if (w.extractLsb' 9 8).toNat = 0 then
        max 1 ((r.op.mp.getD (w.extractLsb' 17 3).toNat 0).extractLsb' 0 16).toNat else (w.extractLsb' 9 8).toNat) then
      s.setRun c { r with ik := r.ik + (w.extractLsb' 20 4).toInt, inn := r.inn + (w.extractLsb' 24 4).toInt, passes := r.passes + 1,
                          next := r.next - (w.extractLsb' 4 5).toNat }
    else s.setRun c { r with passes := 0, next := r.next + 1 } := by
    unfold State.stepLoop
    simp only [State.atStep_of_callAt h, stDk, stDn, nibble_eq]
    rfl
  intro cnt count
  by_cases hc : r.passes + 1 < count
  · exact ⟨_, _, congrArg Host.Outcome.next (hstep.trans (if_pos hc)), timed_setRun h.2.1 ⟨_, rfl⟩,
      by rw [State.core_setRun, if_pos hc]⟩
  · exact ⟨_, _, congrArg Host.Outcome.next (hstep.trans (if_neg hc)), timed_setRun h.2.1 ⟨_, rfl⟩,
      by rw [State.core_setRun, if_neg hc]⟩

/-- NOP goes on (R157). -/
theorem nopStep {s : State} {c : Nat} {r : MxRun} {w : Word} (h : Spec.callAt s c r w 5) :
    ∃ t n, exec (.mxNop c) s = .next t ∧ Spec.timed s t c ∧ (t.core c).mxRun = some { r with next := r.next + 1, due := n } := by
  have hstep : s.stepNop c = s.setRun c { r with next := r.next + 1 } := by
    unfold State.stepNop
    simp only [State.atStep_of_callAt h]
  exact ⟨_, _, congrArg Host.Outcome.next hstep, timed_setRun h.2.1 ⟨_, rfl⟩, by rw [State.core_setRun]⟩

/-- END ends the call, or takes the fault that is due (R157, R161). -/
theorem endStep {s : State} {c : Nat} {r : MxRun} {w : Word} (h : Spec.callAt s c r w 0) : ∃ t, exec (.mxEnd c) s = .next t ∧
    (r.trip = false → ∃ n, (t.core c).mxRun = some { r with done := true, due := n }) ∧
    (r.trip = true → (t.core c).mxRun = none ∧
      (s.progOf ⟨c, r.op.who.ctx⟩ = some r.op.who.bind.prog → (t.ctx ⟨c, r.op.who.ctx⟩).arithDue = true)) := by
  have hstep : s.stepEnd c = if r.trip then s.endMx c r r.next else s.setRun c { r with done := true } := by
    unfold State.stepEnd
    simp only [State.atStep_of_callAt h]
  obtain ⟨hrun, -, hdue⟩ := State.endMx_eq s c r r.next
  refine ⟨_, congrArg Host.Outcome.next hstep, fun ht => ?_, fun ht => ?_⟩
  · rw [if_neg (by rw [ht]; exact Bool.false_ne_true), State.core_setRun]
    exact ⟨_, rfl⟩
  · rw [if_pos ht]
    exact ⟨hrun, hdue ht⟩

/-- PROMOTE ends the reductions of its tile, and a stated one stops the call for a fault that is due or for a pre-emption (R157, R161, R162). -/
theorem promoteStep {s : State} {c : Nat} {r : MxRun} {w : Word} (h : Spec.callAt s c r w 3) {x : TileRef}
    (hx : r.op.tile (w.extractLsb' 10 3).toNat = some x) :
    let zi := x.code - 32
    let u := s.setZ c zi (((s.core c).ztile zi).after (promoteGains s c zi r))
    ∃ r1 sat, r1 = { r with inner := r.inner.filter (fun e => !(e.1 / 128 == zi)), saturated := sat, trip := r1.trip, next := r.next + 1 } ∧
      (r.trip = true → r1.trip = true) ∧ (((s.core c).ztile zi).stat.te = false → r1.trip = r.trip) ∧
      exec (.mxPromote c) s = .next
        (if w.getLsbD 3 && r1.trip then u.endMx c r1 r.next else if w.getLsbD 3 && r1.stopping then u.stopCall c r1 else u.setRun c r1) := by
  have hx' : r.op.tile (stPz w) = some x := hx
  obtain ⟨r1, sat, hgain, hr1, htrip, hte⟩ := State.gainElems_eq s c (x.code - 32)
    { r with inner := r.inner.filter fun e => !(e.1 / 128 == x.code - 32) } (promoteGains s c (x.code - 32) r)
  refine ⟨{ r1 with next := r.next + 1 }, sat, by rw [hr1], htrip, hte, ?_⟩
  refine congrArg Host.Outcome.next ?_
  unfold State.stepPromote
  simp only [State.atStep_of_callAt h, hx', State.promoteAll_eq, hgain]
  rfl

/-! ### What follows a PROMOTE (R161, R162) -/

/-- A call that a pre-emption stops leaves the sequencer, and the operations that its context keeps begin with it (R162). -/
theorem State.stopCall_eq (s : State) (c : Nat) (r : MxRun) :
    let t := s.stopCall c r
    (t.core c).mxRun = none ∧ (∀ i, (t.core c).ztile i = (s.core c).ztile i) ∧ ∃ o rest,
      (t.ctx ⟨c, r.op.who.ctx⟩).keptMx = o :: rest ∧ o.id = r.op.id ∧ o.resume = some ⟨r.next, r.ik, r.inn, r.passes, r.wload⟩ := by
  unfold State.stopCall
  dsimp only
  rw [State.core_setCtx, State.ctx_setCtx]
  refine ⟨?_, fun i => ?_, _, _, rfl, rfl, rfl⟩
  · change ((s.setCore c { s.core c with mxRun := none }).core c).mxRun = none
    rw [State.core_setCore]
  · change ((s.setCore c { s.core c with mxRun := none }).core c).ztile i = _
    rw [State.core_setCore]
    rfl

/-- The state after a PROMOTE whose word is stated or not (R157, R161, R162). -/
def State.afterPromote (u : State) (c : Nat) (r : MxRun) (stated : Bool) (step : Nat) : State :=
  if stated && r.trip then u.endMx c r step else if stated && r.stopping then u.stopCall c r else u.setRun c r

theorem State.afterPromote_elem (u : State) (c : Nat) (r : MxRun) (stated : Bool) (step i n : Nat) :
    (((u.afterPromote c r stated step).core c).ztile i).elem n = ((u.core c).ztile i).elem n := by
  unfold State.afterPromote
  split
  · obtain ⟨-, h, -⟩ := State.endMx_eq u c r step
    exact h i n
  · split
    · obtain ⟨-, h, -⟩ := State.stopCall_eq u c r
      rw [h]
    · rw [State.core_setRun]
      rfl

/-- Without a fault that is due, a z tile is as PROMOTE left it. -/
theorem State.afterPromote_ztile {u : State} {c : Nat} {r : MxRun} {stated : Bool} {step : Nat} (h : r.trip = false) (i : Nat) :
    ((u.afterPromote c r stated step).core c).ztile i = (u.core c).ztile i := by
  unfold State.afterPromote
  rw [h, Bool.and_false, if_neg Bool.false_ne_true]
  split
  · obtain ⟨-, h, -⟩ := State.stopCall_eq u c r
    exact h i
  · rw [State.core_setRun]
    rfl

theorem State.afterPromote_timed {s u : State} {c : Nat} {r : MxRun} {stated : Bool} {step : Nat} (hop : r.op.op = .mcall)
    (hu : ∃ zs, u.core c = { s.core c with ztiles := zs }) : Spec.timed s (u.afterPromote c r stated step) c := by
  unfold State.afterPromote
  split
  · obtain ⟨h, -, -⟩ := State.endMx_eq u c r step
    exact fun q hq => absurd (h.symm.trans hq) (by simp)
  · split
    · obtain ⟨h, -, -⟩ := State.stopCall_eq u c r
      exact fun q hq => absurd (h.symm.trans hq) (by simp)
    · exact timed_setRun hop hu

theorem filtered_inner {t : Table (List Inner)} {z : Nat} {e : Nat × List Inner} (h : e ∈ t.filter fun e => !(e.1 / 128 == z)) : e.1 / 128 ≠ z := by
  simpa using (List.mem_filter.1 h).2

theorem State.progOf_setZ (s : State) (c i : Nat) (z : ZTile) (l : Loc) : (s.setZ c i z).progOf l = s.progOf l := by
  unfold State.progOf State.setZ
  rw [State.setCore_ctx_of_ctxs (by rfl)]

/-- PROMOTE, as O42 has it (R157, R161, R162). -/
theorem promoteClause {s : State} {c : Nat} {r : MxRun} {w : Word} (h : Spec.callAt s c r w 3) {x : TileRef}
    (hx : r.op.tile (w.extractLsb' 10 3).toNat = some x) :
    ∃ t, exec (.mxPromote c) s = .next t ∧ Spec.timed s t c ∧
      (let z := x.code - 32
       (r.trip = false → ((s.core c).ztile z).stat.te = false → Spec.gains ((s.core c).ztile z) ((t.core c).ztile z)) ∧
       ∀ m n, m < 128 → n < 128 → ((t.core c).ztile z).elem (128 * m + n) =
          Spec.promoted (Spec.innerOf r z m n).acc (((s.core c).ztile z).elem (128 * m + n))) ∧
      (w.getLsbD 3 = false → ∃ r1, (t.core c).mxRun = some r1 ∧ r1.next = r.next + 1 ∧ ∀ e ∈ r1.inner, e.1 / 128 ≠ x.code - 32) ∧
      (w.getLsbD 3 = true → r.trip = true → (t.core c).mxRun = none ∧
        (s.progOf ⟨c, r.op.who.ctx⟩ = some r.op.who.bind.prog → (t.ctx ⟨c, r.op.who.ctx⟩).arithDue = true)) ∧
      (w.getLsbD 3 = true → r.trip = false → ((s.core c).ztile (x.code - 32)).stat.te = false → r.stopping = true →
        (t.core c).mxRun = none ∧ ∃ o m rest, (t.ctx ⟨c, r.op.who.ctx⟩).keptMx = o :: rest ∧ o.id = r.op.id ∧ o.resume = some m ∧
          m.next = r.next + 1 ∧ m.ik = r.ik ∧ m.inn = r.inn) := by
  obtain ⟨r1, sat, hr1, htrip, hte, hexec⟩ := promoteStep h hx
  generalize hu : s.setZ c (x.code - 32) (((s.core c).ztile (x.code - 32)).after (promoteGains s c (x.code - 32) r)) = u at hexec
  have hz : (u.core c).ztile (x.code - 32) = ((s.core c).ztile (x.code - 32)).after (promoteGains s c (x.code - 32) r) := by
    rw [← hu, State.ztile_setZ, if_pos rfl]
  have hop : r1.op = r.op := by rw [hr1]
  have hkeeps : ∃ zs, u.core c = { s.core c with ztiles := zs } := ⟨_, by rw [← hu, State.setZ, State.core_setCore]⟩
  refine ⟨u.afterPromote c r1 (w.getLsbD 3) r.next, hexec, State.afterPromote_timed (by rw [hop]; exact h.2.1) hkeeps,
    ⟨fun ht hs => ?_, fun m n hm hn => ?_⟩, fun hst => ?_, fun hst ht => ?_, fun hst ht hs hstop => ?_⟩
  · rw [State.afterPromote_ztile ((hte hs).trans ht), hz]
    exact (promoteGains_round s c _ r).grows.gains
  · rw [State.afterPromote_elem, hz]
    exact elem_after_promoteGains s c _ r hm hn
  · refine ⟨_, by rw [State.afterPromote, hst, Bool.false_and, Bool.false_and, if_neg Bool.false_ne_true,
      if_neg Bool.false_ne_true, State.core_setRun], by rw [hr1], fun e he => ?_⟩
    rw [hr1] at he
    exact filtered_inner he
  · rw [State.afterPromote, hst, htrip ht, if_pos (by rfl)]
    obtain ⟨hrun, -, hdue⟩ := State.endMx_eq u c r1 r.next
    rw [hop] at hdue
    refine ⟨hrun, fun hprog => hdue (htrip ht) ?_⟩
    rw [← hu, State.progOf_setZ]
    exact hprog
  · have hstop1 : r1.stopping = true := by rw [hr1]; exact hstop
    rw [State.afterPromote, hst, hte hs, ht, hstop1, if_neg (by decide), if_pos (by rfl)]
    obtain ⟨hrun, -, o, rest, hkept, hid, hres⟩ := State.stopCall_eq u c r1
    rw [hop] at hkept hid
    exact ⟨hrun, o, _, rest, hkept, hid, hres, by rw [hr1], by rw [hr1], by rw [hr1]⟩

/-- STREAM, as O42 has it (R65 to R67, R157). -/
theorem streamClause {s : State} {c : Nat} {r : MxRun} {w : Word} (h : Spec.callAt s c r w 2) {x y : TileRef}
    (hx : r.op.tile (w.extractLsb' 4 3).toNat = some x) (hy : r.op.tile (w.extractLsb' 10 3).toNat = some y) :
    ∃ t r1, exec (.mxStream c) s = .next t ∧ (t.core c).mxRun = some r1 ∧ r1.op = r.op ∧ r1.next = r.next + 1 ∧ r1.ik = r.ik ∧
      r1.inn = r.inn ∧ r1.array = r.array ∧ (t.core c).pool = (s.core c).pool ∧ Spec.timed s t c ∧
      let m0 := (w.extractLsb' 29 7).toNat
      let mc := (w.extractLsb' 36 7).toNat
      let z := y.code - 32
      (∀ i n, (i ≠ z ∨ n / 128 < m0 ∨ m0 + mc < n / 128) → ((t.core c).ztile i).elem n = ((s.core c).ztile i).elem n) ∧
      Spec.gains ((s.core c).ztile z) ((t.core c).ztile z) ∧
      ∀ m n, m0 ≤ m → m ≤ m0 + mc → n < 128 → (Spec.innerOf r1 z m n, ((t.core c).ztile z).elem (128 * m + n)) =
        streamed ((((s.core c).word r.op.routine).extractLsb' 40 6).toNat + 1)
          (s.entryOfA c (r.op.who.accessor c) x.desc (r.ik + Int.ofNat (w.extractLsb' 13 8).toNat) m) (r.column n)
          (Spec.innerOf r z m n, ((s.core c).ztile z).elem (128 * m + n)) := by
  obtain ⟨t, r1, n, hto, hexec, htimed, hcore⟩ := streamStep h hx hy
  obtain ⟨inner, sat, trip, hr1⟩ := hto.run
  obtain ⟨zs, hkeeps⟩ := hto.keeps
  have hz : ∀ i, ((t.setRun c { r1 with next := r.next + 1 }).core c).ztile i = (t.core c).ztile i := fun i => by rw [hcore]; rfl
  refine ⟨_, _, hexec, by rw [hcore], by rw [hr1], rfl, by rw [hr1], by rw [hr1], by rw [hr1], by rw [hcore, hkeeps], htimed,
    fun i n hin => ?_, ?_, fun m n hm hm' hn => ?_⟩
  · rw [hz]
    by_cases hi : i = y.code - 32
    · rw [hi]
      exact hto.elems n (by omega)
    · rw [hto.others i hi]
  · rw [hz]
    exact hto.grows.gains
  · rw [hz]
    exact hto.done m n hm (by omega) hn

/-- Settles O42: each step word is followed through its own step function; the sum of a group is the exact one with the bad products as 0, a z
tile after STREAM or PROMOTE is the overlay of the results that differ, and END and a stated PROMOTE end or stop the call. -/
theorem stepWordsRunTheCall : Obligations.StepWordsRunTheCall := by
  unfold Obligations.StepWordsRunTheCall
  intro s c r w
  refine ⟨fun h x hx => ?_, fun h x y hx hy => ?_, fun h x hx => promoteClause h hx, loopStep, nopStep, endStep⟩
  · obtain ⟨n, hexec, htimed, hrun⟩ := wloadStep h hx
    exact ⟨_, _, n, hexec, hrun, htimed, fun i j hi hj => s.wBlock_place c (r.op.who.accessor c) x.desc _ _ hi hj⟩
  · obtain ⟨t, r1, hexec, hrun, hop, hnext, hik, hin, harray, hpool, htimed, hframe, hgains, hdone⟩ := streamClause h hx hy
    refine ⟨t, r1, hexec, hrun, hop, hnext, hik, hin, harray, hpool, htimed, hframe, fun _ => ⟨hgains, fun m n hm hm' hn => ?_⟩⟩
    exact Prod.mk.inj (hdone m n hm hm' hn)

end Sys2Proof.Machine

/-! # The scan and frame engines (O43) -/

namespace Sys2Proof.Machine

/-- The frame that was lost, and whose number was left in the table. -/
def strandedFrame : Frame := ⟨0, 0, 0, 0, 0, 0, false, 0⟩

/-- An FDROP without a barrier (NOBAR 1) whose frame 0 an operation before it lost (R188), with its home found at 0. -/
def strandedDrop : FrOp where
  id := 1
  who := ⟨0, ⟨0, 0, 0, 0, 0, 0⟩, 0⟩
  op := .fdrop
  cmd := 0x800000
  o1 := 0
  o2 := 0
  frame := 0
  running := true
  acts := true
  area := .found 0 0
  area2 := .found 0 0
  gone := some strandedFrame

/-- That FDROP runs on core 0 while the number of its frame still stands among the core's frames. -/
def strandedDropRuns : State :=
  State.reset.setCore 0 { State.reset.core 0 with frq := [strandedDrop], frames := [(0, strandedFrame)] }

/-- An FDROP whose frame was lost before it fails with cause record empty and loses no frame. -/
theorem doFrame_strandedDrop : strandedDropRuns.doFrame 0 strandedDrop = ⟨strandedDropRuns, some (frameFault 3), false⟩ := rfl

/-- So its completion leaves the frames of the core. -/
theorem completeFrame_strandedDrop : ((strandedDropRuns.completeFrame 0 1).core 0).frames.find? 0 = some strandedFrame := rfl

/-- Refutes O43, in its last clause for the completion of a frame operation: that an FDROP ends its frame is stated of every FDROP that runs,
and one whose frame an operation before it lost (R188) ends none, it only fails. Where the number of the lost frame still stands among the
core's frames, as in `strandedDropRuns`, it stands there after the completion too. (An operation that loses a frame erases its number, so no
run from reset comes to this state; the statement speaks of every state.) -/
theorem not_scanAndFrameOperationsStartAndComplete : ¬ Obligations.ScanAndFrameOperationsStartAndComplete := by
  unfold Obligations.ScanAndFrameOperationsStartAndComplete
  rintro ⟨hengines, -, -⟩
  obtain ⟨-, -, -, -, hcompletion⟩ := hengines strandedDropRuns 0
  obtain ⟨t, hexec, -, -, hended⟩ := hcompletion strandedDrop rfl
  obtain rfl : strandedDropRuns.completeFrame 0 1 = t := Host.Outcome.next.inj hexec
  have hgone := (hended rfl).symm.trans completeFrame_strandedDrop
  cases hgone

end Sys2Proof.Machine

/-! # Copies (O44) -/

namespace Sys2Proof.Machine

/-! ### The elements of a pattern (R213) -/

theorem length_flatMap_range {β γ : Type} (c : Nat) (f : β → Nat → γ) (ts : List β) :
    (ts.flatMap fun t => (List.range c).map (f t)).length = ts.length * c := by
  simp

theorem getElem?_flatMap_range {β γ : Type} (c : Nat) (f : β → Nat → γ) (ts : List β) (n : Nat) :
    (ts.flatMap fun t => (List.range c).map (f t))[n]? = (ts[n / c]?).bind fun t => if n % c < c then some (f t (n % c)) else none := by
  induction ts generalizing n with
  | nil => simp
  | cons t ts ih =>
    rw [List.flatMap_cons]
    by_cases hn : n < c
    · rw [List.getElem?_append_left (by simpa using hn), Nat.div_eq_of_lt hn, Nat.mod_eq_of_lt hn]
      simp [hn]
    · have hc : c ≤ n := Nat.le_of_not_lt hn
      rw [List.getElem?_append_right (by simpa using hc), List.length_map, List.length_range, ih]
      rcases Nat.eq_zero_or_pos c with rfl | hpos
      · simp
      · rw [Nat.div_eq_sub_div hpos hc, List.getElem?_cons_succ, Nat.mod_eq_sub_mod hc]

theorem length_tuples (cs : List Nat) : (tuples cs).length = cs.foldl (· * ·) 1 := by
  induction cs with
  | nil => rfl
  | cons c cs ih => rw [tuples, length_flatMap_range, ih, List.foldl_cons, Nat.mul_comm 1 c, List.foldl_assoc, Nat.mul_comm]

/-- The n-th tuple has the digits of n (R213). -/
theorem getElem?_tuples (cs : List Nat) (n : Nat) (h : n < (tuples cs).length) : (tuples cs)[n]? = some (Spec.digits cs n) := by
  induction cs generalizing n with
  | nil =>
    obtain rfl : n = 0 := Nat.lt_one_iff.1 h
    rfl
  | cons c cs ih =>
    rw [tuples, length_flatMap_range] at h
    have hc : 0 < c := Nat.pos_of_mul_pos_left (Nat.zero_lt_of_lt h)
    rw [tuples, getElem?_flatMap_range, ih _ (Nat.div_lt_of_lt_mul (by rwa [Nat.mul_comm]))]
    simp [Nat.mod_lt n hc, Spec.digits]

/-! ### Places of a pattern (R213) -/

theorem dotSum_eq (t : List Nat) (ds : List Int) : dotSum t ds = ((t.zip ds).map fun x => Int.ofNat x.1 * x.2).sum := by
  induction t generalizing ds with
  | nil => simp [dotSum]
  | cons i t ih => cases ds <;> simp [dotSum, ih]

theorem dotSum_map_int (t dels : List Nat) (f : Nat → Int) :
    dotSum t (dels.map f) = ((t.zip dels).map fun x => Int.ofNat x.1 * f x.2).sum := by
  rw [dotSum_eq, List.zip_map_right, List.map_map]
  rfl

theorem dotSum_map_nat (t dels : List Nat) (f : Nat → Nat) :
    (dotSum t (dels.map fun d => Int.ofNat (f d))).toNat = ((t.zip dels).map fun x => x.1 * f x.2).sum := by
  have hsum (xs : List (Nat × Nat)) : (xs.map fun x => Int.ofNat x.1 * Int.ofNat (f x.2)).sum = Int.ofNat ((xs.map fun x => x.1 * f x.2).sum) := by
    induction xs with
    | nil => rfl
    | cons x xs ih =>
      rw [List.map_cons, List.sum_cons, ih, List.map_cons, List.sum_cons]
      exact (Int.natCast_add ..).symm
  rw [dotSum_map_int, hsum]
  rfl

theorem Shape.srcAt_eq (p : Shape) (t : List Nat) : p.srcAt t = Spec.patternAddr p.sbase p.soff p.sdel t := by
  rw [Shape.srcAt, dotSum_map_int]
  rfl

theorem Shape.dstAt_eq (p : Shape) (t : List Nat) : p.dstAt t = Spec.patternAddr p.dbase p.doff p.ddel t := by
  rw [Shape.dstAt, dotSum_map_int]
  rfl

theorem elemNumber_tilePlace (d : Word) (base off : Nat) (dels t : List Nat) :
    elemNumber d (tilePlace base off dels t).1 (tilePlace base off dels t).2 = Spec.patternElem d base off dels t := by
  unfold tilePlace Spec.patternElem
  simp only [dotSum_map_nat]

theorem padded_eq (t ls : List Nat) : padded t ls = (t.zip ls).any fun x => x.2 != 0 && decide (x.2 ≤ x.1) := by
  induction t generalizing ls with
  | nil => simp [padded]
  | cons i t ih => cases ls <;> simp [padded, ih]

/-! ### What moving data leaves of the cores -/

/-- Every core of a state is as in another but for the bytes of its pool and their keys. -/
structure State.OnlyPools (s t : State) : Prop where
  core : ∀ n, ∃ pool keys, t.core n = { s.core n with pool := pool, sectorKey := keys }

namespace State.OnlyPools

theorem of_cores {s t : State} (h : t.cores = s.cores) : s.OnlyPools t :=
  ⟨fun n => ⟨_, _, by rw [State.core, h]; rfl⟩⟩

theorem refl (s : State) : s.OnlyPools s := of_cores rfl

theorem trans {s t u : State} (h : s.OnlyPools t) (h' : t.OnlyPools u) : s.OnlyPools u where
  core n := by
    obtain ⟨_, _, ht⟩ := h.core n
    obtain ⟨_, _, hu⟩ := h'.core n
    exact ⟨_, _, by rw [hu, ht]⟩

theorem copies {s t : State} (h : s.OnlyPools t) (n ch : Nat) : (t.core n).copies ch = (s.core n).copies ch := by
  obtain ⟨_, _, ht⟩ := h.core n
  rw [ht]
  rfl

theorem setCore {s : State} {c : Nat} {k : Core} (h : ∃ pool keys, k = { s.core c with pool := pool, sectorKey := keys }) :
    s.OnlyPools (s.setCore c k) where
  core n := by
    by_cases hn : n = c
    · rw [hn, State.core_setCore]
      exact h
    · rw [State.core_setCore_ne _ hn]
      exact ⟨_, _, rfl⟩

theorem rekeySector (s : State) (c : Nat) (a : Accessor) (sec kidx : Nat) : s.OnlyPools (s.rekeySector c a sec kidx) := by
  unfold State.rekeySector
  dsimp only
  split
  · exact refl s
  · exact setCore ⟨_, _, rfl⟩

theorem setPoolByte (s : State) (c : Nat) (a : Accessor) (kidx i : Nat) (b : Byte) : s.OnlyPools (s.setPoolByte c a kidx i b) := by
  unfold State.setPoolByte
  split
  · exact refl s
  · exact (rekeySector ..).trans (setCore ⟨_, _, rfl⟩)

theorem setPoolBytes (s : State) (c : Nat) (a : Accessor) (kidx i : Nat) (bs : List Byte) :
    s.OnlyPools (s.setPoolBytes c a kidx i bs) := by
  induction bs generalizing s i with
  | nil => exact refl s
  | cons b bs ih => exact (setPoolByte ..).trans (ih _ _)

theorem foldl {α β : Type} (g : β → State) (f : β → α → β) (h : ∀ b a, (g b).OnlyPools (g (f b a))) (as : List α) (b : β) :
    (g b).OnlyPools (g (as.foldl f b)) := by
  induction as generalizing b with
  | nil => exact refl _
  | cons a as ih => exact (h b a).trans (ih _)

theorem setBlock (s : State) (c : Nat) (a : Accessor) (kidx bank b : Nat) (qs : List Int) (e : Nat) :
    s.OnlyPools (s.setBlock c a kidx bank b qs e) := (setPoolBytes ..).trans (setPoolByte ..)

theorem setBpiInt (s : State) (c : Nat) (a : Accessor) (key : Nat) (d : Word) (e : Nat) (q : BitVec 8) :
    s.OnlyPools (s.setBpiInt c a key d e q) := foldl id _ (fun _ _ => setPoolByte ..) _ s

end State.OnlyPools

/-! ### Reads and writes of memory leave the cores (R216, R251) -/

@[simp] theorem State.requestLine_cores (s : State) (line kidx : Nat) : (s.requestLine line kidx).cores = s.cores := by
  unfold State.requestLine
  split <;> rfl

@[simp] theorem State.requestMiss_cores (s : State) (a : Accessor) (line kidx : Nat) : (s.requestMiss a line kidx).cores = s.cores := by
  unfold State.requestMiss
  split
  · rfl
  · exact State.requestLine_cores ..

@[simp] theorem State.evict_cores (s : State) (t set way : Nat) : (s.evict t set way).cores = s.cores := by
  unfold State.evict
  split
  · rfl
  · dsimp only
    split
    · exact State.requestLine_cores ..
    · rfl

@[simp] theorem State.placeLine_cores (s : State) (t line way kidx : Nat) : (s.placeLine t line way kidx).cores = s.cores :=
  State.evict_cores ..

@[simp] theorem State.touch_cores (s : State) (a : Accessor) (line kidx : Nat) (write : Bool) : (s.touch a line kidx write).cores = s.cores := by
  have hbring (u : State) : (match (u.slice (sliceOf a.core)).find? line with
      | some _ => u
      | none =>
        match u.chooseWay a.pav a.vd (sliceOf a.core) (setOf line) with
        | none => u.requestMiss a line kidx
        | some w => (u.placeLine (sliceOf a.core) line w kidx).requestMiss a line kidx).cores = u.cores := by
    split
    · rfl
    · split <;> simp
  have hdirty (u : State) : (match (u.slice (sliceOf a.core)).find? line with
      | none => u.writeBack line
      | some e =>
        let u2 : State := { u with l2 := u.l2.set (sliceOf a.core) ((u.slice (sliceOf a.core)).set line { e with dirty := true, kidx := kidx }) }
        if e.dirty || (u2.home.find? line).isSome then u2
        else { u2 with home := u2.home.set line (u2.homeLine line) }).cores = u.cores := by
    split
    · rfl
    · dsimp only
      split <;> rfl
  cases write with
  | false => exact hbring s
  | true => exact (hdirty _).trans (hbring (s.invalidateOthers (sliceOf a.core) line))

theorem State.foldl_cores {α : Type} (f : State → α → State) (h : ∀ s a, (f s a).cores = s.cores) (as : List α) (s : State) :
    (as.foldl f s).cores = s.cores := by
  induction as generalizing s with
  | nil => rfl
  | cons a as ih => rw [List.foldl_cons, ih, h]

@[simp] theorem State.touchRange_cores (s : State) (a : Accessor) (ps : List Piece) : (s.touchRange a ps).cores = s.cores :=
  State.foldl_cores _ (fun _ _ => State.touch_cores ..) ps _

@[simp] theorem State.clearTags_cores (s : State) (pa n : Nat) : (s.clearTags pa n).cores = s.cores := by
  unfold State.clearTags
  split <;> rfl

@[simp] theorem State.rekey_cores (s : State) (line serial : Nat) : (s.rekey line serial).cores = s.cores := by
  unfold State.rekey
  split
  · rfl
  · exact State.clearTags_cores ..

@[simp] theorem State.writePiece_cores (s : State) (a : Accessor) (p : Piece) (bs : List Byte) : (s.writePiece a p bs).cores = s.cores := by
  unfold State.writePiece
  dsimp only
  split
  · rfl
  · split <;> simp

@[simp] theorem State.writePieces_cores (s : State) (a : Accessor) (ps : List Piece) (bs : List Byte) :
    (s.writePieces a ps bs).cores = s.cores := by
  induction ps generalizing s bs with
  | nil => rfl
  | cons p ps ih => rw [State.writePieces, ih, State.writePiece_cores]

/-- A write of an engine leaves every core. -/
theorem State.cores_of_engineWrite {s t : State} {c va : Nat} {w : Who} {bs : List Byte} (h : s.engineWrite c w va bs = .ok t) :
    t.cores = s.cores := by
  unfold State.engineWrite State.writeAs at h
  split at h
  · cases h
  · split at h
    · cases h
    · cases h
      exact State.writePieces_cores ..

/-! ### What a copy reads and writes -/

theorem State.cores_of_memElem {s t : State} {c n x k : Nat} {w : Who} {va : Int} (h : s.memElem c w va n = .ok (x, k, t)) :
    t.cores = s.cores := by
  unfold State.memElem at h
  split at h <;> cases h
  exact State.touchRange_cores ..

theorem State.cores_of_copySource {s t : State} {c x k : Nat} {o : CpOp} {p : Shape} {js : List Nat} {e : Exact}
    (h : s.copySource c o p js = .ok (x, e, k, t)) : t.cores = s.cores := by
  unfold State.copySource at h
  dsimp only at h
  repeat' split at h
  all_goals cases h
  · exact State.cores_of_memElem ‹_›
  all_goals rfl

theorem State.cores_of_copyRead {s t : State} {c n : Nat} {o : CpOp} {p : Shape} {at_ : Int} {bs : List (Byte × Nat)}
    (h : s.copyRead c o p at_ n = .ok (bs, t)) : t.cores = s.cores := by
  unfold State.copyRead at h
  dsimp only at h
  repeat' split at h
  all_goals cases h
  · exact State.touchRange_cores ..
  · rfl

theorem State.cores_of_copyHalves {s t : State} {c : Nat} {o : CpOp} {p : Shape} {js : List (List Nat)} {hs : List (BitVec 16 × Nat)}
    (h : s.copyHalves c o p js = .ok (hs, t)) : t.cores = s.cores := by
  induction js generalizing s hs with
  | nil => cases h; rfl
  | cons j js ih =>
    unfold State.copyHalves at h
    repeat' split at h
    all_goals cases h
    rw [ih ‹_›, State.cores_of_copySource ‹_›]

namespace State.OnlyPools

theorem copyDest {s t : State} {c size x key : Nat} {o : CpOp} {p : Shape} {js : List Nat}
    (h : s.copyDest c o p js size x key = .ok t) : s.OnlyPools t := by
  unfold State.copyDest at h
  dsimp only at h
  repeat' split at h
  · exact of_cores (State.cores_of_engineWrite h)
  all_goals cases h
  · exact setPoolBytes ..
  · exact refl _
  · exact setBpiInt ..
  · exact setPoolBytes ..

theorem copyBytes {s t : State} {c : Nat} {o : CpOp} {p : Shape} {at_ : Int} {bs : List (Byte × Nat)}
    (h : s.copyBytes c o p at_ bs = .ok t) : s.OnlyPools t := by
  unfold State.copyBytes at h
  dsimp only at h
  repeat' split at h
  · cases h
  · exact of_cores (State.cores_of_engineWrite h)
  · cases h
  · cases h
  · cases h
    exact foldl Prod.fst _ (fun _ _ => setPoolByte ..) bs (s, at_.toNat)

end State.OnlyPools

/-! ### One element (R58, R213) -/

theorem fmtKind_eq_iff (f : Byte) : fmtKind f = 4 ↔ f.extractLsb' 0 3 = 4 :=
  ⟨fun h => BitVec.eq_of_toNat_eq h, fun h => congrArg BitVec.toNat h⟩

theorem padSource_eq (p : Shape) (sf : Byte) : padSource p sf = (p.pad % 2 ^ (8 * p.esz),
    if sf.extractLsb' 0 3 = 4 then decodeBpi (BitVec.ofNat 8 p.pad).toInt 0x7F 8 false else ⟨0, 0, false⟩) := by
  rw [padSource, if_congr (fmtKind_eq_iff sf) rfl rfl]

/-- The source element of a tuple on its way: PAD, or what the source side gives. -/
def Flow.source (fl : Flow) (c : Nat) (o : CpOp) (p : Shape) (sf : Byte) (t : List Nat) : Except EngineFault (Nat × Exact × Nat × State) :=
  if padded t p.slim then .ok ((padSource p sf).1, (padSource p sf).2, fl.key, fl.state) else fl.state.copySource c o p t

/-- An element whose source is a value, as `Spec.copyValue` has it; what is read stays, and so do the cores. -/
def Flow.reads (fl : Flow) (v : Except EngineFault (Nat × Exact)) (src : Except EngineFault (Nat × Exact × Nat × State)) : Prop :=
  match v with
  | .error e => src = .error e
  | .ok x => ∃ key s1, src = .ok (x.1, x.2, key, s1) ∧ s1.mem = fl.state.mem ∧ s1.cores = fl.state.cores

theorem Flow.source_reads (fl : Flow) (c : Nat) (o : CpOp) (p : Shape) (sf : Byte) (t : List Nat) :
    fl.reads (Spec.copyValue fl.state c o p sf t) (fl.source c o p sf t) := by
  unfold Spec.copyValue Flow.source
  dsimp only
  rw [← padded_eq]
  split
  · rw [padSource_eq]
    exact ⟨_, _, rfl, rfl, rfl⟩
  · unfold State.copySource
    rw [Shape.srcAt_eq, Shape.srcPlace]
    simp only [elemNumber_tilePlace]
    match p.skind, o.src with
    | 0, _ =>
      rw [if_pos rfl]
      unfold State.memElem
      cases hread : fl.state.engineRead c o.who (Int.ofNat p.scap.base + Spec.patternAddr p.sbase p.soff p.sdel t).toNat p.esz with
      | error e => rfl
      | ok r => exact ⟨_, _, rfl, State.touchRange_mem .., State.touchRange_cores ..⟩
    | 1, _ => exact ⟨_, _, rfl, rfl, rfl⟩
    | _ + 2, none => exact ⟨_, _, rfl, rfl, rfl⟩
    | _ + 2, some r =>
      rw [if_neg (by omega), if_neg (by omega)]
      by_cases hew : dEw r.desc = 0
      · refine cast (congrArg₂ fl.reads (if_pos hew).symm (if_pos hew).symm) ?_
        exact ⟨_, _, rfl, rfl, rfl⟩
      · refine cast (congrArg₂ fl.reads (if_neg hew).symm (if_neg hew).symm) ?_
        exact ⟨_, _, rfl, rfl, rfl⟩

/-- A destination element, by its side (R213). -/
theorem State.copyDest_eq (s : State) (c : Nat) (o : CpOp) (p : Shape) (t : List Nat) (size x key : Nat) :
    s.copyDest c o p t size x key =
      match p.dkind, o.dst with
      | 0, _ => s.engineWrite c o.who (Int.ofNat p.dcap.base + Spec.patternAddr p.dbase p.doff p.ddel t).toNat (leBytes size x)
      | 1, _ => .ok (s.setPoolBytes c (o.who.accessor c) key (Spec.patternAddr p.dbase p.doff p.ddel t).toNat (leBytes size x))
      | _, none => .ok s
      | _, some r =>
        let e := Spec.patternElem r.desc p.dbase p.doff p.ddel t
        .ok (if dEw r.desc = 0 then s.setBpiInt c (o.who.accessor c) key r.desc e (BitVec.ofNat 8 x)
          else s.setPoolBytes c (o.who.accessor c) key (elemAddr r.desc e) (leBytes size x)) := by
  unfold State.copyDest
  rw [Shape.dstAt_eq, Shape.dstPlace]
  simp only [elemNumber_tilePlace]
  match p.dkind, o.dst with
  | 0, _ => rfl
  | 1, _ => rfl
  | _ + 2, none => rfl
  | _ + 2, some r =>
    dsimp only
    rw [if_neg (by omega), if_neg (by omega)]
    exact (apply_ite Except.ok (dEw r.desc = 0) _ _).symm

/-- An element written where its tuple says: what the destination side has after it, or its failure (R213). -/
def Flow.Wrote (out : Flow) (s1 : State) (c : Nat) (o : CpOp) (p : Shape) (t : List Nat) (size x key : Nat) : Prop :=
  match s1.copyDest c o p t size x key with
  | .ok u => out.state = u ∧ out.fault = none
  | .error e => out.state = s1 ∧ out.fault = some e

theorem Flow.element_of_fault {fl : Flow} {e : EngineFault} (h : fl.fault = some e) (c : Nat) (o : CpOp) (p : Shape) (sf df : Byte) (t : List Nat) :
    Flow.element c o p sf df fl t = fl := by
  unfold Flow.element
  simp only [h]

theorem Flow.element_of_error {fl : Flow} {c : Nat} {o : CpOp} {p : Shape} {sf df : Byte} {t : List Nat} {e : EngineFault}
    (h : fl.fault = none) (hsrc : fl.source c o p sf t = .error e) : Flow.element c o p sf df fl t = { fl with fault := some e } := by
  unfold Flow.element
  unfold Flow.source at hsrc
  simp only [h, hsrc]

/-- An element that is read is written, converted where CONV is 1 (R58, R213). -/
theorem Flow.element_wrote {fl : Flow} {c : Nat} {o : CpOp} {p : Shape} {sf df : Byte} {t : List Nat} {raw key : Nat} {val : Exact} {s1 : State}
    (h : fl.fault = none) (hdf : p.conv = false ∨ fmtKind df ≠ 4) (hsrc : fl.source c o p sf t = .ok (raw, val, key, s1)) :
    let moved := convertTo (fmtKind sf) (fmtKind df) raw val
    let out := Flow.element c o p sf df fl t
    out.flags = (if p.conv then fl.flags ||| moved.2 else fl.flags) ∧
      out.Wrote s1 c o p t (if p.conv then fmtBytes df else p.esz) (if p.conv then moved.1 else raw) key := by
  unfold Flow.element Flow.Wrote
  unfold Flow.source at hsrc
  simp only [h, hsrc]
  cases hconv : p.conv with
  | false =>
    simp only [Bool.false_eq_true, if_false]
    split
    · next e he => simp only [he, true_and]
    · next u hu => simp [hu]
  | true =>
    rw [hconv] at hdf
    have hkind : fmtKind df ≠ 4 := hdf.resolve_left (by decide)
    simp only [if_true, if_neg hkind]
    split
    · next e he => simp only [he, true_and]
    · next u hu => simp [hu]

theorem patternsMoveTheirElements : Spec.PatternsMoveTheirElements := by
  unfold Spec.PatternsMoveTheirElements
  refine ⟨fun cs => ⟨length_tuples cs, getElem?_tuples cs⟩, fun c o fl sf df t => ?_⟩
  intro p a out
  refine ⟨fun e he => Flow.element_of_fault he .., fun hfl hdf => ?_⟩
  rw [Ne, ← fmtKind_eq_iff] at hdf
  have hreads := fl.source_reads c o p sf t
  cases hv : Spec.copyValue fl.state c o p sf t with
  | error e =>
    rw [hv] at hreads
    have hout : out = { fl with fault := some e } := Flow.element_of_error hfl hreads
    rw [hout]
    exact ⟨rfl, rfl⟩
  | ok v =>
    rw [hv] at hreads
    obtain ⟨key, s1, hsrc, hmem, hcores⟩ := hreads
    obtain ⟨hflags, hwrote⟩ := Flow.element_wrote hfl hdf hsrc
    refine ⟨hflags, s1, key, hmem, fun n => by rw [State.core, hcores]; rfl, ?_⟩
    unfold Flow.Wrote at hwrote
    rw [State.copyDest_eq] at hwrote
    dsimp only
    revert hwrote
    match p.dkind, o.dst with
    | 0, _ => exact id
    | 1, _ => exact id
    | _ + 2, none => exact And.left
    | _ + 2, some r =>
      rintro ⟨hstate, hfault⟩
      exact ⟨hfault, fun he => hstate.trans (if_neg he), fun he => hstate.trans (if_pos he)⟩

/-! ### Sparse-row walks (R217) -/

/-- Bytes of a walk moved from a source place to a destination place; after a failure nothing moves (R216). -/
def Flow.moveBytes (c : Nat) (o : CpOp) (p : Shape) (fl : Flow) (at_ n dst : Nat) : Flow :=
  match fl.fault with
  | some _ => fl
  | none =>
    match fl.state.copyRead c o p (Int.ofNat at_) n with
    | .error f => { fl with fault := some f }
    | .ok (bs, s0) =>
      match s0.copyBytes c o p (Int.ofNat dst) bs with
      | .error f => { fl with state := s0, fault := some f }
      | .ok s1 => { fl with state := s1 }

theorem Flow.walkEntry_eq (c : Nat) (o : CpOp) (p : Shape) (a : Nat) (fl : Flow) (e : Nat) :
    Flow.walkEntry c o p a fl e =
      Flow.moveBytes c o p (Flow.moveBytes c o p fl (bits (imageSlot o.image 5).raw 63 0 + 4 * (a + e)) 4 (p.dbase + p.doff + 4 * e))
        (bits (imageSlot o.image 5).raw 127 64 + p.esz * (a + e)) p.esz (bits (imageSlot o.image 6).raw 63 0 + p.esz * e) := rfl

theorem Flow.moveBytes_ok {c : Nat} {o : CpOp} {p : Shape} {fl : Flow} {at_ n dst : Nat} {bs : List (Byte × Nat)} {s0 s1 : State}
    (h : fl.fault = none) (hread : fl.state.copyRead c o p (Int.ofNat at_) n = .ok (bs, s0))
    (hwrite : s0.copyBytes c o p (Int.ofNat dst) bs = .ok s1) : Flow.moveBytes c o p fl at_ n dst = { fl with state := s1 } := by
  unfold Flow.moveBytes
  simp only [h, hread, hwrite]

/-- Moving bytes changes no core but for its pool, and counts nothing. -/
theorem Flow.moveBytes_keeps (c : Nat) (o : CpOp) (p : Shape) (fl : Flow) (at_ n dst : Nat) :
    fl.state.OnlyPools (Flow.moveBytes c o p fl at_ n dst).state ∧ (Flow.moveBytes c o p fl at_ n dst).bytes = fl.bytes := by
  unfold Flow.moveBytes
  split
  · exact ⟨.refl _, rfl⟩
  · split
    · exact ⟨.refl _, rfl⟩
    · next hread =>
      have hcores := State.OnlyPools.of_cores (State.cores_of_copyRead hread)
      split
      · exact ⟨hcores, rfl⟩
      · next hwrite => exact ⟨hcores.trans (.copyBytes hwrite), rfl⟩

theorem Flow.walkEntry_keeps (c : Nat) (o : CpOp) (p : Shape) (a : Nat) (fl : Flow) (e : Nat) :
    fl.state.OnlyPools (Flow.walkEntry c o p a fl e).state ∧ (Flow.walkEntry c o p a fl e).bytes = fl.bytes := by
  rw [Flow.walkEntry_eq]
  obtain ⟨hpools, hbytes⟩ := Flow.moveBytes_keeps c o p fl (bits (imageSlot o.image 5).raw 63 0 + 4 * (a + e)) 4 (p.dbase + p.doff + 4 * e)
  obtain ⟨hpools', hbytes'⟩ := Flow.moveBytes_keeps c o p
    (Flow.moveBytes c o p fl (bits (imageSlot o.image 5).raw 63 0 + 4 * (a + e)) 4 (p.dbase + p.doff + 4 * e))
    (bits (imageSlot o.image 5).raw 127 64 + p.esz * (a + e)) p.esz (bits (imageSlot o.image 6).raw 63 0 + p.esz * e)
  exact ⟨hpools.trans hpools', hbytes'.trans hbytes⟩

theorem walkEntriesMove : Spec.WalkEntriesMove := by
  unfold Spec.WalkEntriesMove
  intro c o fl first e ix vl s1 s2 s3 s4 p w cols vals vbuf hfault hcol hix hval hvl
  have hentry : Flow.walkEntry c o p first fl e = { fl with state := s4 } := by
    have hcolumn := Flow.moveBytes_ok (at_ := cols + 4 * (first + e)) (dst := p.dbase + p.doff + 4 * e) hfault hcol hix
    have hvalue := Flow.moveBytes_ok (fl := { fl with state := s2 }) (at_ := vals + p.esz * (first + e)) (dst := vbuf + p.esz * e) hfault hval hvl
    exact (Flow.walkEntry_eq ..).trans ((congrArg (fun f => Flow.moveBytes c o p f _ _ _) hcolumn).trans hvalue)
  rw [hentry]
  exact ⟨rfl, hfault⟩

/-- The entries of a walk whose rows are known, from entry a on (R217). -/
def Flow.walked (s0 : State) (c : Nat) (o : CpOp) (p : Shape) (key m a : Nat) : Flow :=
  (List.range m).foldl (Flow.walkEntry c o p a) ⟨s0, 0, none, key, m * (4 + p.esz) + 4, [], 0⟩

theorem Flow.walked_keeps (s0 : State) (c : Nat) (o : CpOp) (p : Shape) (key m a : Nat) :
    s0.OnlyPools (Flow.walked s0 c o p key m a).state ∧ (Flow.walked s0 c o p key m a).bytes = m * (4 + p.esz) + 4 := by
  unfold Flow.walked
  refine List.foldlRecOn (List.range m) _ (motive := fun fl : Flow => s0.OnlyPools fl.state ∧ fl.bytes = m * (4 + p.esz) + 4)
    ⟨.refl s0, rfl⟩ fun fl h e _ => ?_
  obtain ⟨hpools, hbytes⟩ := Flow.walkEntry_keeps c o p a fl e
  exact ⟨h.1.trans hpools, hbytes.trans h.2⟩

/-- A walk whose rows are known: n entries from entry a on, of which at most MAXN move, and then the total (R217). -/
def Flow.totalled (s0 : State) (c : Nat) (o : CpOp) (p : Shape) (key n a : Nat) : Flow :=
  let m := min n (bits (imageSlot o.image 4).raw 95 64)
  match p.walkFault o a m with
  | some f => ⟨s0, 0, some f, key, m * (4 + p.esz) + 4, [], 0⟩
  | none =>
    let fl := Flow.walked s0 c o p key m a
    match fl.fault with
    | some _ => fl
    | none =>
      match fl.state.copyBytes c o p (Int.ofNat (bits (imageSlot o.image 6).raw 127 64)) ((leBytes 4 n).map fun b => (b, s0.ownKey o.who)) with
      | .error f => { fl with fault := some f }
      | .ok s1 => { fl with state := s1 }

theorem State.csrWalk_eq (s : State) (c : Nat) (o : CpOp) (p : Shape) : s.csrWalk c o p =
    let first := bits (imageSlot o.image 4).raw 31 0
    let endRow := bits (imageSlot o.image 4).raw 63 32
    let start (s0 : State) (e : EngineFault) : Flow := ⟨s0, 0, some e, s.ownKey o.who, 0, [], 0⟩
    if endRow ≤ first then Flow.totalled s c o p (s.ownKey o.who) 0 0
    else
      match s.copyRead c o p (Int.ofNat (p.sbase + p.soff + 4 * first)) 4 with
      | .error e => start s e
      | .ok (x, s1) =>
        match s1.copyRead c o p (Int.ofNat (p.sbase + p.soff + 4 * endRow)) 4 with
        | .error e => start s1 e
        | .ok (y, s2) =>
          if leNat (y.map Prod.fst) < leNat (x.map Prod.fst) then start s2 ⟨3, 0, 0, 0⟩
          else Flow.totalled s2 c o p (s.ownKey o.who) (leNat (y.map Prod.fst) - leNat (x.map Prod.fst)) (leNat (x.map Prod.fst)) := rfl

theorem Flow.totalled_onlyPools (s0 : State) (c : Nat) (o : CpOp) (p : Shape) (key n a : Nat) :
    s0.OnlyPools (Flow.totalled s0 c o p key n a).state := by
  obtain ⟨hwalked, -⟩ := Flow.walked_keeps s0 c o p key (min n (bits (imageSlot o.image 4).raw 95 64)) a
  unfold Flow.totalled
  dsimp only
  split
  · exact .refl s0
  · split
    · exact hwalked
    · split
      · exact hwalked
      · next h => exact hwalked.trans (.copyBytes h)

theorem State.csrWalk_onlyPools (s : State) (c : Nat) (o : CpOp) (p : Shape) : s.OnlyPools (s.csrWalk c o p).state := by
  rw [State.csrWalk_eq]
  dsimp only
  split
  · exact Flow.totalled_onlyPools ..
  · split
    · exact .refl s
    · next hx =>
      have hfirst := State.OnlyPools.of_cores (State.cores_of_copyRead hx)
      split
      · exact hfirst
      · next hy =>
        have hrows := hfirst.trans (.of_cores (State.cores_of_copyRead hy))
        split
        · exact hrows
        · exact hrows.trans (Flow.totalled_onlyPools ..)

/-- A walk whose ranges pass and whose entries and total are written. -/
theorem Flow.totalled_ok {s0 u : State} {c : Nat} {o : CpOp} {p : Shape} {key n a : Nat}
    (hranges : p.walkFault o a (min n (bits (imageSlot o.image 4).raw 95 64)) = none)
    (hentries : (Flow.walked s0 c o p key (min n (bits (imageSlot o.image 4).raw 95 64)) a).fault = none)
    (htotal : (Flow.walked s0 c o p key (min n (bits (imageSlot o.image 4).raw 95 64)) a).state.copyBytes c o p
      (Int.ofNat (bits (imageSlot o.image 6).raw 127 64)) ((leBytes 4 n).map fun b => (b, s0.ownKey o.who)) = .ok u) :
    Flow.totalled s0 c o p key n a = { Flow.walked s0 c o p key (min n (bits (imageSlot o.image 4).raw 95 64)) a with state := u } := by
  unfold Flow.totalled
  simp only [hranges, hentries, htotal]

/-! ### What a copy that runs leaves of the cores -/

theorem Flow.element_onlyPools (c : Nat) (o : CpOp) (p : Shape) (sf df : Byte) (fl : Flow) (t : List Nat) :
    fl.state.OnlyPools (Flow.element c o p sf df fl t).state := by
  cases hfault : fl.fault with
  | some e =>
    rw [Flow.element_of_fault hfault]
    exact .refl _
  | none =>
    have hsource : ∀ {raw key : Nat} {bpi : Exact} {s1 : State}, fl.source c o p sf t = .ok (raw, bpi, key, s1) →
        fl.state.OnlyPools s1 := by
      intro raw key bpi s1 h
      unfold Flow.source at h
      split at h
      · cases h
        exact .refl _
      · exact .of_cores (State.cores_of_copySource h)
    unfold Flow.element
    simp only [hfault]
    split
    · exact .refl _
    · next hsrc =>
      have hread := hsource hsrc
      split
      · split
        · split
          · exact hread
          · split
            · exact hread.trans (.setBlock ..)
            · exact hread
        · split
          · exact hread
          · next hw => exact hread.trans (.copyDest hw)
      · split
        · exact hread
        · next hw => exact hread.trans (.copyDest hw)

theorem Flow.compress_onlyPools (c : Nat) (o : CpOp) (p : Shape) (fl : Flow) (runs : List (List (List Nat))) :
    fl.state.OnlyPools (Flow.compress c o p fl runs).state := by
  induction runs generalizing fl with
  | nil => exact .refl _
  | cons run runs ih =>
    unfold Flow.compress
    split
    · exact .refl _
    · split
      · exact .refl _
      · next hread =>
        have hhalves := State.OnlyPools.of_cores (State.cores_of_copyHalves hread)
        dsimp only
        split
        · exact hhalves
        · next hw =>
          refine State.OnlyPools.trans ?_ (ih _)
          exact hhalves.trans (.copyBytes hw)

/-- One half of a record written along the destination pattern; after a failure nothing is written (R216, R218). -/
def Flow.half (c : Nat) (o : CpOp) (p : Shape) (f : Flow) (x : List Nat × BitVec 16 × Nat) : Flow :=
  match f.fault with
  | some _ => f
  | none =>
    match f.state.copyDest c o p x.1 2 x.2.1.toNat x.2.2 with
    | .error e => { f with fault := some e }
    | .ok s1 => { f with state := s1 }

theorem Flow.half_onlyPools (c : Nat) (o : CpOp) (p : Shape) (f : Flow) (x : List Nat × BitVec 16 × Nat) :
    f.state.OnlyPools (Flow.half c o p f x).state := by
  unfold Flow.half
  split
  · exact .refl _
  · split
    · exact .refl _
    · next hw => exact .copyDest hw

/-- The values of a record after its header: none where its mask is 0 (R218). -/
def State.recordValues (s : State) (c : Nat) (o : CpOp) (p : Shape) (at_ : Int) (n : Nat) : Except EngineFault (List (Byte × Nat) × State) :=
  if n = 0 then .ok ([], s) else s.copyRead c o p at_ (2 * n)

/-- The halves of a record with the key indexes under which they are written (R218). -/
def recordHalves (h bs : List (Byte × Nat)) : List (BitVec 16 × Nat) :=
  let mask := leNat ((h.map Prod.fst).drop 4)
  (expandHalves mask 0 256 (bytesHalves 256 (bs.map Prod.fst))).zip (expandKeys mask 0 256 (bs.map Prod.snd) ((h.map Prod.snd).headD 0))

theorem Flow.expand_cons (c : Nat) (o : CpOp) (p : Shape) (fl : Flow) (run : List (List Nat)) (runs : List (List (List Nat))) :
    Flow.expand c o p fl (run :: runs) =
      match fl.fault with
      | some _ => fl
      | none =>
        let at_ := Int.ofNat (p.sbase + p.soff + fl.first)
        match fl.state.copyRead c o p at_ 36 with
        | .error e => { fl with fault := some e }
        | .ok (h, s0) =>
          let n := onesBelow (leNat ((h.map Prod.fst).drop 4)) 256
          match s0.recordValues c o p (at_ + 36) n with
          | .error e => { fl with state := s0, fault := some e }
          | .ok (bs, s2) =>
            let fl1 := (run.zip (recordHalves h bs)).foldl (Flow.half c o p) { fl with state := s2 }
            Flow.expand c o p { fl1 with first := fl1.first + recordSize n } runs := by
  -- one unfolding by definition: no equation lemma can be generated for a body of this depth
  change (match fl.fault with | some _ => fl | none => _) = _
  cases hfault : fl.fault with
  | some e => rfl
  | none =>
    dsimp only
    cases hread : fl.state.copyRead c o p (Int.ofNat (p.sbase + p.soff + fl.first)) 36 with
    | error e => rfl
    | ok r =>
      obtain ⟨h, s0⟩ := r
      unfold recordHalves State.recordValues
      dsimp only
      generalize leNat ((h.map Prod.fst).drop 4) = mask
      generalize onesBelow mask 256 = n
      generalize expandHalves mask 0 256 = halves
      generalize expandKeys mask 0 256 = keys
      generalize bytesHalves 256 = values
      rfl

theorem Flow.expand_onlyPools (c : Nat) (o : CpOp) (p : Shape) (fl : Flow) (runs : List (List (List Nat))) :
    fl.state.OnlyPools (Flow.expand c o p fl runs).state := by
  induction runs generalizing fl with
  | nil => exact .refl _
  | cons run runs ih =>
    rw [Flow.expand_cons]
    split
    · exact .refl _
    · dsimp only
      split
      · exact .refl _
      · next hread =>
        have hheader := State.OnlyPools.of_cores (State.cores_of_copyRead hread)
        split
        · exact hheader
        · next hvalues =>
          refine State.OnlyPools.trans ?_ (ih _)
          refine State.OnlyPools.trans ?_ (State.OnlyPools.foldl Flow.state _ (Flow.half_onlyPools c o p) _ _)
          unfold State.recordValues at hvalues
          split at hvalues
          · cases hvalues
            exact hheader
          · exact hheader.trans (.of_cores (State.cores_of_copyRead hvalues))

/-- A copy before its first element. -/
def Flow.start (s : State) (o : CpOp) (n : Nat) : Flow := ⟨s, 0, none, s.ownKey o.who, n, [], 0⟩

theorem State.runCopy_onlyPools (s : State) (c : Nat) (o : CpOp) : s.OnlyPools (s.runCopy c o).state := by
  unfold State.runCopy
  dsimp only
  split
  · exact State.csrWalk_onlyPools ..
  · split
    · exact Flow.compress_onlyPools c o _ (Flow.start s o 0) _
    · split
      · exact Flow.expand_onlyPools c o _ (Flow.start s o o.bytes) _
      · exact State.OnlyPools.foldl Flow.state _ (Flow.element_onlyPools c o _ _ _) _ (Flow.start s o o.bytes)

/-! ### The begin of a copy (R215, R216) -/

theorem Core.copies_setCopies (k : Core) (ch : Nat) (q : List CpOp) : (k.setCopies ch q).copies ch = q := by
  unfold Core.setCopies Core.copies
  split <;> rfl

theorem Core.setCopies_pool (k : Core) (ch : Nat) (q : List CpOp) : (k.setCopies ch q).pool = k.pool := by
  unfold Core.setCopies
  split <;> rfl

/-- The head of a channel's queue replaced. -/
theorem State.setCopy_head {s : State} {c ch : Nat} {o o1 : CpOp} {rest : List CpOp} (h : (s.core c).copies ch = o :: rest) (hid : o.id = o1.id) :
    (∃ tail, ((s.setCopy c ch o1).core c).copies ch = o1 :: tail) ∧ ((s.setCopy c ch o1).core c).pool = (s.core c).pool := by
  unfold State.setCopy
  dsimp only
  rw [State.core_setCore, Core.copies_setCopies, Core.setCopies_pool, h, List.map_cons, if_pos hid]
  exact ⟨⟨_, rfl⟩, rfl⟩

theorem State.beginCopy_refused {s : State} {c ch : Nat} {o : CpOp} {rest : List CpOp} (h : (s.core c).copies ch = o :: rest)
    (hrun : o.running = false) (href : o.refused ≠ 0) :
    s.beginCopy c ch = s.setCopy c ch { o with running := true, ecause := o.refused } := by
  unfold State.beginCopy
  simp only [h, hrun, Bool.false_eq_true, if_false, if_pos href]

/-- The operation of a copy that has run. -/
def CpOp.ran (o : CpOp) (fl : Flow) : CpOp :=
  { o with
    running := true
    ecause := match fl.fault with | some f => f.ecause | none => 0
    flags := fl.flags
    bytes := fl.bytes }

/-- The state after the movement of a copy, with the fault record of its failure (R216). -/
def State.posted (s : State) (c ch : Nat) (o : CpOp) : State :=
  let fl := s.runCopy c o
  match fl.fault with
  | some f =>
    if f.cls = 0 then fl.state
    else fl.state.post o.who.bind.pav o.who.bind.vd ⟨1 + ch, f.cls, f.cause, c, o.who.ctx, bits o.x 5 0, 0, f.addr⟩
  | none => fl.state

theorem State.posted_keeps (s : State) (c ch : Nat) (o : CpOp) :
    (s.posted c ch o).mem = (s.runCopy c o).state.mem ∧ (s.posted c ch o).cores = (s.runCopy c o).state.cores := by
  unfold State.posted
  dsimp only
  split
  · split <;> exact ⟨rfl, rfl⟩
  · exact ⟨rfl, rfl⟩

theorem State.beginCopy_eq {s : State} {c ch : Nat} {o : CpOp} {rest : List CpOp} (h : (s.core c).copies ch = o :: rest)
    (hrun : o.running = false) (href : o.refused = 0) : s.beginCopy c ch = (s.posted c ch o).setCopy c ch (o.ran (s.runCopy c o)) := by
  unfold State.beginCopy
  rw [h]
  exact (if_neg (by rw [hrun]; exact Bool.false_ne_true)).trans (if_neg (not_not_intro href))

/-- A copy that begins has run: memory and the pool are as its movement leaves them, and it heads its queue with what it met (R215, R216). -/
theorem State.beginCopy_ran {s : State} {c ch : Nat} {o : CpOp} {rest : List CpOp} (h : (s.core c).copies ch = o :: rest)
    (hrun : o.running = false) (href : o.refused = 0) :
    let t := s.beginCopy c ch
    t.mem = (s.runCopy c o).state.mem ∧ (t.core c).pool = ((s.runCopy c o).state.core c).pool ∧
      ∃ tail, (t.core c).copies ch = o.ran (s.runCopy c o) :: tail := by
  obtain ⟨hmem, hcores⟩ := s.posted_keeps c ch o
  have hcore : (s.posted c ch o).core c = (s.runCopy c o).state.core c := by rw [State.core, hcores]; rfl
  have hqueue : ((s.posted c ch o).core c).copies ch = o :: rest := by
    rw [hcore, (s.runCopy_onlyPools c o).copies, h]
  obtain ⟨⟨tail, htail⟩, hpool⟩ := State.setCopy_head (o1 := o.ran (s.runCopy c o)) hqueue rfl
  dsimp only
  rw [State.beginCopy_eq h hrun href]
  exact ⟨hmem, hpool.trans (congrArg Core.pool hcore), tail, htail⟩

theorem runs256_eq {α : Type} (n : Nat) (xs : List α) : runs256 n xs = (List.range n).map fun i => (xs.drop (256 * i)).take 256 := by
  induction n generalizing xs with
  | zero => rfl
  | succ n ih =>
    rw [runs256, ih, List.range_succ_eq_map, List.map_cons, List.map_map]
    refine congrArg _ (List.map_congr_left fun i _ => ?_)
    rw [List.drop_drop, Function.comp_apply, Nat.succ_eq_add_one, Nat.mul_add, Nat.mul_one, Nat.add_comm 256]

theorem copiesRunTheirPattern : Spec.CopiesRunTheirPattern := by
  unfold Spec.CopiesRunTheirPattern
  intro s t c ch o rest p queue fmt start runs hqueue hrun href hop hexec fl
  obtain rfl : s.beginCopy c ch = t := Host.Outcome.next.inj hexec
  have hfl : s.runCopy c o = fl := by
    have hruns : runs256 p.records (tuples p.cnt) = runs := runs256_eq ..
    unfold State.runCopy
    exact (if_neg hop).trans (by rw [hruns])
  obtain ⟨hmem, hpool, tail, htail⟩ := State.beginCopy_ran (ch := ch) hqueue hrun href
  rw [hfl] at hmem hpool htail
  exact ⟨hmem, hpool, _, tail, htail, rfl, rfl, rfl, rfl, rfl⟩

theorem CpOp.ran_ecause_of_none {o : CpOp} {fl : Flow} (h : fl.fault = none) : (o.ran fl).ecause = 0 := by
  unfold CpOp.ran
  simp only [h]

/-- A walk that begins has run. -/
theorem State.runCopy_walk {s : State} {c : Nat} {o : CpOp} (h : (shapeOf o.image o.disp).op = 1) :
    s.runCopy c o = s.csrWalk c o (shapeOf o.image o.disp) := by
  unfold State.runCopy
  exact if_pos h

theorem walksWriteTheirTotal : Spec.WalksWriteTheirTotal := by
  unfold Spec.WalksWriteTheirTotal
  intro s t c ch o rest p w firstRow endRow maxN naddr queue total hqueue hrun href hop hexec
  obtain rfl : s.beginCopy c ch = t := Host.Outcome.next.inj hexec
  obtain ⟨hmem, hpool, tail, htail⟩ := State.beginCopy_ran (ch := ch) hqueue hrun href
  rw [State.runCopy_walk hop] at hmem hpool htail
  have htotal (s0 : State) (n a : Nat) (h : s.csrWalk c o p = Flow.totalled s0 c o p (s.ownKey o.who) n a) : total s0 n a := by
    intro hranges hentries u hwrite
    have hwalk := h.trans (Flow.totalled_ok hranges hentries hwrite)
    obtain ⟨-, hbytes⟩ := Flow.walked_keeps s0 c o p (s.ownKey o.who) (min n maxN) a
    rw [hwalk] at hmem hpool htail
    exact ⟨hmem, hpool, _, tail, htail, CpOp.ran_ecause_of_none hentries, hbytes⟩
  have hcsr := s.csrWalk_eq c o p
  dsimp only at hcsr
  refine ⟨fun hle => htotal s 0 0 (hcsr.trans (if_pos hle)), fun hlt x y s1 s2 hx hy => ?_⟩
  replace hcsr := hcsr.trans (if_neg (Nat.not_le.2 hlt))
  have hx' : s.copyRead c o p (Int.ofNat (p.sbase + p.soff + 4 * bits (imageSlot o.image 4).raw 31 0)) 4 = .ok (x, s1) := hx
  have hy' : s1.copyRead c o p (Int.ofNat (p.sbase + p.soff + 4 * bits (imageSlot o.image 4).raw 63 32)) 4 = .ok (y, s2) := hy
  simp only [hx', hy'] at hcsr
  refine ⟨fun hle => htotal s2 _ _ (hcsr.trans (if_neg (Nat.not_lt.2 hle))), fun hlt => ?_⟩
  replace hcsr := hcsr.trans (if_pos hlt)
  rw [hcsr] at hmem hpool htail
  refine ⟨hmem.trans ((State.mem_of_copyRead hy).trans (State.mem_of_copyRead hx)), hpool.trans ?_, _, tail, htail, rfl⟩
  rw [State.core, State.cores_of_copyRead hy, State.cores_of_copyRead hx]
  rfl

/-! ### Records (R200, R218) -/

theorem length_of_copyHalves {s t : State} {c : Nat} {o : CpOp} {p : Shape} {js : List (List Nat)} {hs : List (BitVec 16 × Nat)}
    (h : s.copyHalves c o p js = .ok (hs, t)) : hs.length = js.length := by
  induction js generalizing s hs with
  | nil => cases h; rfl
  | cons j js ih =>
    unfold State.copyHalves at h
    repeat' split at h
    all_goals cases h
    rw [List.length_cons, List.length_cons, ih ‹_›]

/-- The bytes of a keyed record are those of the record. -/
theorem keyedRecord_bytes (hs : List (BitVec 16 × Nat)) : (keyedRecord hs).map Prod.fst = recordOf (hs.map Prod.fst) := by
  unfold keyedRecord
  refine List.map_fst_zip ?_
  rw [List.length_append, List.length_append, List.length_replicate, List.length_replicate]
  exact Nat.le_add_left _ _

theorem Flow.compress_cons {c : Nat} {o : CpOp} {p : Shape} {fl : Flow} {run : List (List Nat)} {runs : List (List (List Nat))}
    {hs : List (BitVec 16 × Nat)} {s0 s1 : State} (h : fl.fault = none) (hread : fl.state.copyHalves c o p run = .ok (hs, s0))
    (hwrite : s0.copyBytes c o p (Int.ofNat (p.dbase + p.doff + fl.bytes)) (keyedRecord hs) = .ok s1) :
    Flow.compress c o p fl (run :: runs) =
      Flow.compress c o p { fl with state := s1, bytes := fl.bytes + (recordOf (hs.map Prod.fst)).length } runs := by
  have hlen : (keyedRecord hs).length = (recordOf (hs.map Prod.fst)).length := by rw [← keyedRecord_bytes, List.length_map]
  conv_lhs => unfold Flow.compress
  simp only [h, hread, hwrite, hlen]

/-- The ones of a mask below a place. -/
def ones (mask j : Nat) : Nat := ((List.range j).filter mask.testBit).length

theorem ones_succ (mask j : Nat) : ones mask (j + 1) = ones mask j + if mask.testBit j then 1 else 0 := by
  unfold ones
  rw [List.range_succ, List.filter_append, List.length_append]
  cases h : mask.testBit j <;> simp [h]

theorem shiftRight_mod_two (mask j : Nat) : (mask >>> j) % 2 = if mask.testBit j then 1 else 0 := by
  rw [Nat.testBit_eq_decide_div_mod_eq, Nat.shiftRight_eq_div_pow]
  have := Nat.mod_lt (mask / 2 ^ j) (by decide : 2 > 0)
  split <;> simp_all

theorem onesBelow_eq (mask n : Nat) : onesBelow mask n = ones mask n := by
  induction n with
  | zero => rfl
  | succ n ih => rw [onesBelow, ih, shiftRight_mod_two, ones_succ, Nat.add_comm]

theorem getD_bytesHalves (bs : List Byte) {i n : Nat} (h : i < n) :
    (bytesHalves n bs).getD i 0 = BitVec.ofNat 16 (leNat ((bs.drop (2 * i)).take 2)) := by
  induction n generalizing i bs with
  | zero => exact absurd h (Nat.not_lt_zero _)
  | succ n ih =>
    rw [bytesHalves]
    cases i with
    | zero => rfl
    | succ i => rw [List.getD_cons_succ, ih _ (Nat.lt_of_succ_lt_succ h), List.drop_drop, Nat.mul_succ, Nat.add_comm]

theorem ones_le (mask j : Nat) : ones mask j ≤ j := by
  unfold ones
  exact (List.length_filter_le ..).trans (by simp)

/-- A half that a mask and values give: the next value where the mask has a one (R202). -/
theorem expandHalves_eq (mask n j : Nat) (vs : List (BitVec 16)) :
    expandHalves mask j n (vs.drop (ones mask j)) =
      (List.range' j n).map fun i => if mask.testBit i then vs.getD (ones mask i) 0 else 0 := by
  induction n generalizing j with
  | zero => rfl
  | succ n ih =>
    have hnext := ih (j + 1)
    rw [ones_succ] at hnext
    rw [expandHalves, shiftRight_mod_two, List.range'_succ, List.map_cons, ← hnext]
    cases mask.testBit j with
    | false => simp
    | true =>
      simp only [if_true, List.tail_drop]
      refine congrArg₂ _ ?_ rfl
      rw [List.headD_eq_head?_getD, List.head?_drop, List.getD_eq_getElem?_getD]

theorem length_expandKeys (mask i n own : Nat) (keys : List Nat) : (expandKeys mask i n keys own).length = n := by
  induction n generalizing i keys with
  | zero => rfl
  | succ n ih =>
    rw [expandKeys]
    split <;> rw [List.length_cons, ih]

theorem leNat_take_two_lt (bs : List Byte) : leNat (bs.take 2) < 2 ^ 16 := by
  match bs with
  | [] => decide
  | [a] =>
    have := a.isLt
    simp [leNat]
    omega
  | a :: b :: rest =>
    have := a.isLt
    have := b.isLt
    simp [leNat]
    omega

/-- Half j that a record gives: its value where its mask has a one, and 0 elsewhere (R202). -/
def recordHalf (mask : Nat) (bs : List Byte) (j : Nat) : Nat :=
  if mask.testBit j then leNat ((bs.drop (2 * ones mask j)).take 2) else 0

theorem expandHalves_bytes (mask : Nat) (bs : List Byte) :
    expandHalves mask 0 256 (bytesHalves 256 bs) = (List.range 256).map fun j => BitVec.ofNat 16 (recordHalf mask bs j) := by
  have h := expandHalves_eq mask 256 0 (bytesHalves 256 bs)
  rw [show ones mask 0 = 0 from rfl, List.drop_zero] at h
  rw [h, ← List.range_eq_range']
  refine List.map_congr_left fun j hj => ?_
  rw [getD_bytesHalves bs (Nat.lt_of_le_of_lt (ones_le mask j) (List.mem_range.1 hj)), recordHalf]
  split <;> rfl

theorem recordHalf_lt (mask : Nat) (bs : List Byte) (j : Nat) : recordHalf mask bs j < 2 ^ 16 := by
  unfold recordHalf
  split
  · exact leNat_take_two_lt _
  · decide

theorem zip_zip_eq {α β : Type} {n : Nat} {xs : List α} {ks : List Nat} (hxs : xs.length = n) (hks : ks.length = n) (f : Nat → β) :
    xs.zip (((List.range n).map f).zip ks) = xs.zipIdx.map fun x => (x.1, f x.2, ks.getD x.2 0) := by
  refine List.ext_getElem (by simp [hxs, hks]) fun j h1 h2 => ?_
  have hj : j < ks.length := by simp at h2; omega
  simp [hj]

/-- The halves of a record that are written one after the other along a run, each under its key (R218). -/
theorem zip_recordHalves (run : List (List Nat)) (h bs : List (Byte × Nat)) (hrun : run.length = 256) : ∃ keys : Nat → Nat,
    run.zip (recordHalves h bs) = run.zipIdx.map fun x =>
      (x.1, BitVec.ofNat 16 (recordHalf (leNat ((h.map Prod.fst).drop 4)) (bs.map Prod.fst) x.2), keys x.2) := by
  unfold recordHalves
  dsimp only
  rw [expandHalves_bytes]
  exact ⟨fun j => (expandKeys (leNat ((h.map Prod.fst).drop 4)) 0 256 (bs.map Prod.snd) ((h.map Prod.snd).headD 0)).getD j 0,
    zip_zip_eq hrun (length_expandKeys ..) _⟩

/-- Halves that are all written one after the other (R218). -/
theorem Flow.foldl_half {c : Nat} {o : CpOp} {p : Shape} {fl : Flow} (h : fl.fault = none) (half keys : Nat → Nat) (hlt : ∀ j, half j < 2 ^ 16)
    {xs : List (List Nat × Nat)} {s1 s2 : State}
    (hwrite : xs.foldlM (fun u x => u.copyDest c o p x.1 2 (half x.2) (keys x.2)) s1 = Except.ok s2) :
    (xs.map fun x => (x.1, BitVec.ofNat 16 (half x.2), keys x.2)).foldl (Flow.half c o p) { fl with state := s1 } = { fl with state := s2 } := by
  induction xs generalizing s1 with
  | nil =>
    cases hwrite
    rfl
  | cons x xs ih =>
    rw [List.foldlM_cons] at hwrite
    cases hx : s1.copyDest c o p x.1 2 (half x.2) (keys x.2) with
    | error e =>
      rw [hx] at hwrite
      cases hwrite
    | ok u =>
      rw [hx] at hwrite
      have hstep : Flow.half c o p { fl with state := s1 } (x.1, BitVec.ofNat 16 (half x.2), keys x.2) = { fl with state := u } := by
        unfold Flow.half
        simp only [h, BitVec.toNat_ofNat, Nat.mod_eq_of_lt (hlt x.2), hx]
      rw [List.map_cons, List.foldl_cons, hstep]
      exact ih hwrite

theorem recordsArePackedAndUnpacked : Spec.RecordsArePackedAndUnpacked := by
  unfold Spec.RecordsArePackedAndUnpacked
  intro c o fl run runs hfault hrun p
  refine ⟨fun hs s0 hread => ?_, fun h s0 bs s1 hread => ?_⟩
  · exact ⟨(length_of_copyHalves hread).trans hrun, keyedRecord hs, keyedRecord_bytes hs, fun s1 hwrite => Flow.compress_cons hfault hread hwrite⟩
  · intro mask below n hvalues half
    obtain ⟨keys, hzip⟩ := zip_recordHalves run h bs hrun
    refine ⟨keys, fun s2 hwrite => ?_⟩
    have hvals : s0.recordValues c o p (Int.ofNat (p.sbase + p.soff + fl.first) + 36) n = .ok (bs, s1) := by
      unfold State.recordValues
      split at hvalues
      · next hn =>
        obtain ⟨rfl, rfl⟩ := hvalues
        exact if_pos hn
      · next hn => exact (if_neg hn).trans hvalues
    have hhalves := Flow.foldl_half hfault (recordHalf mask (bs.map Prod.fst)) keys (recordHalf_lt mask _) hwrite
    rw [← hzip, hfault] at hhalves
    have hn : onesBelow mask 256 = n := onesBelow_eq mask 256
    rw [Flow.expand_cons]
    simp only [hfault, hread]
    rw [hn, hvals]
    dsimp only
    rw [hhalves]
    simp only [recordSize, Nat.add_assoc]

/-! ### Bytes written under the writer's own key (R301) -/

namespace State.OnlyPools

theorem reservedByte {s t : State} (h : s.OnlyPools t) (n i : Nat) : (t.core n).reservedByte i = (s.core n).reservedByte i := by
  obtain ⟨_, _, ht⟩ := h.core n
  rw [ht]
  rfl

end State.OnlyPools

/-- A byte written in the pool stands there, its sector is under the key, and where it was before, every other byte stays. -/
theorem State.setPoolByte_core (s : State) (c : Nat) (a : Accessor) (kidx i : Nat) (b : Byte) (h : (s.core c).reservedByte i = false) :
    let k := (s.setPoolByte c a kidx i b).core c
    k.sectorKey.getD (i / 64) 0 = kidx ∧ k.pool.byte i = b ∧
      ((s.core c).sectorKey.getD (i / 64) 0 = kidx → ∀ j, j ≠ i → k.pool.byte j = (s.core c).pool.byte j) := by
  have hkey : ((s.rekeySector c a (i / 64) kidx).core c).sectorKey.getD (i / 64) 0 = kidx ∧
      ((s.core c).sectorKey.getD (i / 64) 0 = kidx → s.rekeySector c a (i / 64) kidx = s) := by
    unfold State.rekeySector
    dsimp only
    split
    · next e => exact ⟨e, fun _ => rfl⟩
    · next e => exact ⟨by rw [State.core_setCore]; exact Table.getD_put_self .., fun e' => absurd e' e⟩
  obtain ⟨hkidx, hstays⟩ := hkey
  unfold State.setPoolByte
  rw [if_neg (by rw [h]; exact Bool.false_ne_true)]
  dsimp only
  rw [State.core_setCore]
  refine ⟨hkidx, Memory.byte_setByte .., fun e j hj => ?_⟩
  rw [hstays e]
  exact Memory.byte_setByte_ne _ hj b

/-- Bytes written into a sector that is under their key stand there, and the bytes before them stay. -/
theorem State.setPoolBytes_core (c : Nat) (a : Accessor) (kidx sec : Nat) : ∀ (bs : List Byte) (s : State) (i : Nat),
    (∀ j, j < bs.length → (s.core c).reservedByte (i + j) = false ∧ (i + j) / 64 = sec) → (s.core c).sectorKey.getD sec 0 = kidx →
    let k := (s.setPoolBytes c a kidx i bs).core c
    k.sectorKey.getD sec 0 = kidx ∧ (∀ j, j < bs.length → k.pool.byte (i + j) = bs.getD j 0) ∧
      ∀ j, j < i → k.pool.byte j = (s.core c).pool.byte j
  | [], _, _, _, hkey => ⟨hkey, fun _ h => absurd h (Nat.not_lt_zero _), fun _ _ => rfl⟩
  | b :: bs, s, i, hplace, hkey => by
    obtain ⟨hfree, hsec⟩ := hplace 0 (Nat.succ_pos _)
    rw [Nat.add_zero] at hfree hsec
    obtain ⟨hkey1, hbyte, hothers⟩ := s.setPoolByte_core c a kidx i b hfree
    rw [hsec] at hkey1 hothers
    have hrest : ∀ j, j < bs.length → ((s.setPoolByte c a kidx i b).core c).reservedByte (i + 1 + j) = false ∧ (i + 1 + j) / 64 = sec := by
      intro j hj
      obtain ⟨hf, hs⟩ := hplace (j + 1) (Nat.succ_lt_succ hj)
      rw [(State.OnlyPools.setPoolByte ..).reservedByte, Nat.add_assoc, Nat.add_comm 1]
      exact ⟨hf, hs⟩
    obtain ⟨hkey2, hbytes, hbefore⟩ := State.setPoolBytes_core c a kidx sec bs (s.setPoolByte c a kidx i b) (i + 1) hrest hkey1
    refine ⟨hkey2, fun j hj => ?_, fun j hj => ?_⟩
    · cases j with
      | zero =>
        exact (hbefore i (Nat.lt_succ_self i)).trans hbyte
      | succ j =>
        rw [List.getD_cons_succ, ← hbytes j (Nat.lt_of_succ_lt_succ hj), Nat.add_assoc, Nat.add_comm 1]
        rfl
    · rw [← hothers hkey j (Nat.ne_of_lt hj)]
      exact hbefore j (Nat.lt_succ_of_lt hj)

theorem State.setPoolByte_keys (s : State) (c : Nat) (a : Accessor) (kidx i : Nat) (b : Byte) :
    (s.setPoolByte c a kidx i b).keys = s.keys ∧ (s.setPoolByte c a kidx i b).pavs = s.pavs := by
  unfold State.setPoolByte
  split
  · exact ⟨rfl, rfl⟩
  · unfold State.rekeySector
    dsimp only
    split <;> exact ⟨rfl, rfl⟩

theorem State.setPoolBytes_keys (s : State) (c : Nat) (a : Accessor) (kidx i : Nat) (bs : List Byte) :
    (s.setPoolBytes c a kidx i bs).keys = s.keys ∧ (s.setPoolBytes c a kidx i bs).pavs = s.pavs := by
  induction bs generalizing s i with
  | nil => exact ⟨rfl, rfl⟩
  | cons b bs ih =>
    obtain ⟨hkeys, hpavs⟩ := s.setPoolByte_keys c a kidx i b
    obtain ⟨hkeys', hpavs'⟩ := ih (s.setPoolByte c a kidx i b) (i + 1)
    exact ⟨hkeys'.trans hkeys, hpavs'.trans hpavs⟩

/-- Bytes that a device may read, and that it wrote into one sector of the pool under a key index, are what it reads there. -/
theorem State.poolByte_setPoolBytes {s : State} {c kidx i : Nat} {a : Accessor} {bs : List Byte}
    (hplace : ∀ j, j < bs.length → (s.core c).reservedByte (i + j) = false ∧ (i + j) / 64 = i / 64)
    (hallows : kidx = 0 ∨ s.keyAllows a kidx = true) {j : Nat} (hj : j < bs.length) :
    (s.setPoolBytes c a kidx i bs).poolByte c a (i + j) = bs.getD j 0 := by
  have hbytes : ((s.setPoolBytes c a kidx i bs).core c).sectorKey.getD (i / 64) 0 = kidx ∧
      ((s.setPoolBytes c a kidx i bs).core c).pool.byte (i + j) = bs.getD j 0 := by
    cases bs with
    | nil => exact absurd hj (Nat.not_lt_zero _)
    | cons b bs =>
      obtain ⟨hfree, -⟩ := hplace 0 (Nat.succ_pos _)
      obtain ⟨hkey, hbyte, -⟩ := s.setPoolByte_core c a kidx i b hfree
      have hrest : ∀ j, j < bs.length → ((s.setPoolByte c a kidx i b).core c).reservedByte (i + 1 + j) = false ∧ (i + 1 + j) / 64 = i / 64 := by
        intro j hj
        obtain ⟨hf, hs⟩ := hplace (j + 1) (Nat.succ_lt_succ hj)
        rw [(State.OnlyPools.setPoolByte ..).reservedByte, Nat.add_assoc, Nat.add_comm 1]
        exact ⟨hf, hs⟩
      obtain ⟨hkey', hbytes, hbefore⟩ := State.setPoolBytes_core c a kidx (i / 64) bs (s.setPoolByte c a kidx i b) (i + 1) hrest hkey
      refine ⟨hkey', ?_⟩
      cases j with
      | zero =>
        exact (hbefore i (Nat.lt_succ_self i)).trans hbyte
      | succ j =>
        rw [List.getD_cons_succ, ← hbytes j (Nat.lt_of_succ_lt_succ hj), Nat.add_assoc, Nat.add_comm 1]
        rfl
  obtain ⟨hkeys, hpavs⟩ := s.setPoolBytes_keys c a kidx i bs
  have hallowed : (s.setPoolBytes c a kidx i bs).keyAllows a kidx = s.keyAllows a kidx := by
    simp only [State.keyAllows, hkeys, State.dev, State.pav, hpavs]
  obtain ⟨hfree, hsec⟩ := hplace j hj
  unfold State.poolByte
  dsimp only
  rw [(State.OnlyPools.setPoolBytes ..).reservedByte, hfree, hsec, hbytes.1, hallowed, if_neg Bool.false_ne_true, if_pos (by simpa using hallows)]
  exact hbytes.2

/-! ### Barriers (R220, R221) -/

/-- A barrier whose fields are in their ranges. -/
structure Barrier.InRange (b : Barrier) : Prop where
  phase : b.phase < 16
  ecause : b.ecause < 8
  arr : b.arr < 2 ^ 24
  sec : b.sec < 2 ^ 32
  iarr : b.iarr < 2 ^ 24
  isec : b.isec < 2 ^ 32

theorem barrierOf_inRange (lo hi : Nat) : (barrierOf lo hi).InRange := by
  unfold barrierOf
  exact ⟨Nat.mod_lt _ (by decide), Nat.mod_lt _ (by decide), Nat.mod_lt _ (by decide), Nat.mod_lt _ (by decide), Nat.mod_lt _ (by decide),
    Nat.mod_lt _ (by decide)⟩

theorem barrierOf_low_high {b : Barrier} (h : b.InRange) : barrierOf b.low b.high = b ∧ b.low < 2 ^ 64 ∧ b.high < 2 ^ 64 := by
  obtain ⟨phase, err, ecause, arr, sec, iarr, isec⟩ := b
  obtain ⟨h1, h2, h3, h4, h5, h6⟩ := h
  dsimp only at h1 h2 h3 h4 h5 h6
  unfold barrierOf Barrier.low Barrier.high
  rw [Barrier.mk.injEq]
  cases err with
  | false =>
    simp only [show b2n false = 0 from rfl]
    exact ⟨⟨by omega, decide_eq_false (by omega), by omega, by omega, by omega, by omega, by omega⟩, by omega, by omega⟩
  | true =>
    simp only [show b2n true = 1 from rfl]
    exact ⟨⟨by omega, decide_eq_true (by omega), by omega, by omega, by omega, by omega, by omega⟩, by omega, by omega⟩

theorem Barrier.fail_inRange {b : Barrier} (h : b.InRange) {cause : Nat} (hc : cause < 8) : (b.fail cause).InRange := by
  unfold Barrier.fail
  split
  · exact h
  · exact { h with ecause := hc }

theorem Barrier.arrive_inRange {b : Barrier} (h : b.InRange) (k : Nat) : (b.arrive k).InRange := by
  have hfail : (if b.arr = 0 ∨ b.sec < k then b.fail 7 else b).InRange := by
    split
    · exact Barrier.fail_inRange h (by decide)
    · exact h
  unfold Barrier.arrive
  generalize (if b.arr = 0 ∨ b.sec < k then b.fail 7 else b) = b1 at hfail
  dsimp only
  split
  · exact ⟨Nat.mod_lt _ (by decide), hfail.ecause, hfail.iarr, hfail.isec, hfail.iarr, hfail.isec⟩
  · exact { hfail with arr := (Nat.sub_le ..).trans_lt hfail.arr, sec := (Nat.sub_le ..).trans_lt hfail.sec }

/-- An arrival, as R221 has it. -/
theorem Barrier.arrive_eq (b : Barrier) (n : Nat) : b.arrive n = Spec.arrived b n := by
  obtain ⟨phase, err, ecause, arr, sec, iarr, isec⟩ := b
  unfold Barrier.arrive Spec.arrived Barrier.fail
  dsimp only
  have hend : (arr - 1 = 0 ∧ sec - n = 0) ↔ (arr ≤ 1 ∧ sec ≤ n) := by omega
  by_cases hu : arr = 0 ∨ sec < n <;> by_cases he : arr ≤ 1 ∧ sec ≤ n <;> cases err <;> simp [hu, hend, he]

theorem leNat_leBytes_mod (n x : Nat) : leNat (leBytes n x) = x % 256 ^ n := by
  induction n generalizing x with
  | zero => rw [leBytes, leNat, Nat.pow_zero, Nat.mod_one]
  | succ n ih =>
    rw [leBytes, leNat, ih, BitVec.toNat_ofNat, Nat.pow_succ' (m := 256), Nat.mod_mul]

theorem getD_leBytes {n j : Nat} (x : Nat) (h : j < n) : (leBytes n x).getD j 0 = BitVec.ofNat 8 (x / 256 ^ j) := by
  induction n generalizing x j with
  | zero => exact absurd h (Nat.not_lt_zero _)
  | succ n ih =>
    rw [leBytes]
    cases j with
    | zero => rw [List.getD_cons_zero, Nat.pow_zero, Nat.div_one]
    | succ j => rw [List.getD_cons_succ, ih _ (Nat.lt_of_succ_lt_succ h), Nat.div_div_eq_div_mul, Nat.pow_succ, Nat.mul_comm 256]

theorem leBytes_eq_map (n x : Nat) : leBytes n x = (List.range n).map fun j => BitVec.ofNat 8 (x / 256 ^ j) := by
  refine List.ext_getElem (by simp) fun j h1 h2 => ?_
  have hj : j < n := by simpa using h1
  rw [← List.getD_eq_getElem _ 0 h1, getD_leBytes x hj]
  simp

/-- A barrier that its device writes is what it reads there (R220). -/
theorem State.barrier_setBarrier {s : State} {c m : Nat} {a : Accessor} {b : Barrier} (hb : b.InRange)
    (hfree : ∀ j, j < 16 → (s.core c).reservedByte (16 * m + j) = false)
    (hallows : (s.dev a.pav a.vd).kidx = 0 ∨ s.keyAllows a (s.dev a.pav a.vd).kidx = true) :
    (s.setBarrier c a (16 * m) b).barrier c a (16 * m) = b := by
  obtain ⟨hof, hlow, hhigh⟩ := barrierOf_low_high hb
  have hbytes (j : Nat) (hj : j < 16) : (s.setBarrier c a (16 * m) b).poolByte c a (16 * m + j) =
      BitVec.ofNat 8 ((b.low + b.high * 2 ^ 64) / 256 ^ j) := by
    rw [← getD_leBytes _ hj]
    refine State.poolByte_setPoolBytes (fun j hj => ?_) hallows (by simpa using hj)
    rw [length_leBytes] at hj
    exact ⟨hfree j hj, by omega⟩
  have hlo : (s.setBarrier c a (16 * m) b).poolNat c a (16 * m) 8 = b.low := by
    have hlist : (s.setBarrier c a (16 * m) b).poolBytes c a (16 * m) 8 = leBytes 8 (b.low + b.high * 2 ^ 64) := by
      rw [leBytes_eq_map]
      exact List.map_congr_left fun j hj => hbytes j (by have := List.mem_range.1 hj; omega)
    rw [State.poolNat, hlist, leNat_leBytes_mod]
    omega
  have hhi : (s.setBarrier c a (16 * m) b).poolNat c a (16 * m + 8) 8 = b.high := by
    have hlist : (s.setBarrier c a (16 * m) b).poolBytes c a (16 * m + 8) 8 = leBytes 8 b.high := by
      rw [leBytes_eq_map]
      refine List.map_congr_left fun j hj => ?_
      have hj8 := List.mem_range.1 hj
      have hdiv : (b.low + b.high * 2 ^ 64) / 2 ^ 64 = b.high := by omega
      rw [Nat.add_assoc, hbytes (8 + j) (by omega), Nat.pow_add, ← Nat.div_div_eq_div_mul, show (256 : Nat) ^ 8 = 2 ^ 64 by decide, hdiv]
    rw [State.poolNat, hlist, leNat_leBytes_mod]
    omega
  rw [State.barrier, hlo, hhi, hof]

/-! ### What the end of a copy leaves of the pool (R215) -/

/-- Two states whose pools, with their keys, formats and frames, are the same, and so are the keys and the devices. -/
structure State.SameSectors (s t : State) : Prop where
  pool : ∀ n, (t.core n).pool = (s.core n).pool
  sectorKey : ∀ n, (t.core n).sectorKey = (s.core n).sectorKey
  fmt : ∀ n, (t.core n).fmt = (s.core n).fmt
  frames : ∀ n, (t.core n).frames = (s.core n).frames
  keys : t.keys = s.keys
  pavs : t.pavs = s.pavs

namespace State.SameSectors

theorem refl (s : State) : s.SameSectors s := ⟨fun _ => rfl, fun _ => rfl, fun _ => rfl, fun _ => rfl, rfl, rfl⟩

theorem trans {s t u : State} (h : s.SameSectors t) (h' : t.SameSectors u) : s.SameSectors u where
  pool n := (h'.pool n).trans (h.pool n)
  sectorKey n := (h'.sectorKey n).trans (h.sectorKey n)
  fmt n := (h'.fmt n).trans (h.fmt n)
  frames n := (h'.frames n).trans (h.frames n)
  keys := h'.keys.trans h.keys
  pavs := h'.pavs.trans h.pavs

theorem setCore {s : State} {c : Nat} {k : Core} (hpool : k.pool = (s.core c).pool) (hsec : k.sectorKey = (s.core c).sectorKey)
    (hfmt : k.fmt = (s.core c).fmt) (hframes : k.frames = (s.core c).frames) : s.SameSectors (s.setCore c k) := by
  have hcore {β : Type} (f : Core → β) (h : f k = f (s.core c)) (n : Nat) : f ((s.setCore c k).core n) = f (s.core n) := by
    by_cases hn : n = c
    · rw [hn, State.core_setCore, h]
    · rw [State.core_setCore_ne _ hn]
  exact ⟨hcore _ hpool, hcore _ hsec, hcore _ hfmt, hcore _ hframes, rfl, rfl⟩

theorem setCtx (s : State) (l : Loc) (x : Ctx) : s.SameSectors (s.setCtx l x) := setCore rfl rfl rfl rfl

theorem onTile (s : State) (c : Nat) (w : Who) (code : Nat) (f : TileStat → TileStat) : s.SameSectors (s.onTile c w code f) := by
  unfold State.onTile State.setTileStat
  split
  · split
    · exact setCtx ..
    · exact setCore rfl rfl rfl rfl
  · exact refl s

theorem reservedByte {s t : State} (h : s.SameSectors t) (c i : Nat) : (t.core c).reservedByte i = (s.core c).reservedByte i := by
  simp only [Core.reservedByte, Core.fmtOf, Core.frameHeld, h.fmt, h.frames]

theorem dev {s t : State} (h : s.SameSectors t) (p d : Nat) : t.dev p d = s.dev p d := by
  simp only [State.dev, State.pav, h.pavs]

theorem keyAllows {s t : State} (h : s.SameSectors t) (a : Accessor) (k : Nat) : t.keyAllows a k = s.keyAllows a k := by
  simp only [State.keyAllows, h.keys, h.dev]

theorem poolByte {s t : State} (h : s.SameSectors t) (c : Nat) (a : Accessor) (i : Nat) : t.poolByte c a i = s.poolByte c a i := by
  simp only [State.poolByte, State.serialOf, h.reservedByte, h.keyAllows, h.dev, h.keys, h.pool, h.sectorKey]

theorem barrier {s t : State} (h : s.SameSectors t) (c : Nat) (a : Accessor) (i : Nat) : t.barrier c a i = s.barrier c a i := by
  simp only [State.barrier, State.poolNat, State.poolBytes, h.poolByte]

end State.SameSectors

/-! ### Tiles at the end of a copy (R148, R215) -/

theorem State.tileStat_setTileStat (s : State) (l : Loc) (code n : Nat) (st : TileStat) :
    (s.setTileStat l code st).tileStat l n = if n = code then st else s.tileStat l n := by
  unfold State.setTileStat State.tileStat
  by_cases hcode : code < 32
  · rw [if_pos hcode, State.ctx_setCtx, State.core_setCtx]
    by_cases hn : n < 32
    · rw [if_pos hn, if_pos hn]
      unfold Ctx.tile
      dsimp only
      split
      · next e => rw [e, Table.getD_set_self]
      · next e => rw [Table.getD_set_ne _ e]
    · rw [if_neg hn, if_neg hn, if_neg (by omega)]
      rfl
  · rw [if_neg hcode]
    by_cases hn : n < 32
    · rw [if_pos hn, if_pos hn, if_neg (by omega), State.setCore_ctx_of_ctxs (by rfl)]
    · rw [if_neg hn, if_neg hn, State.core_setCore, Core.ztile_set]
      by_cases hne : n = code
      · rw [hne, if_pos rfl, if_pos rfl]
      · rw [if_neg hne, if_neg (by omega)]

/-- The status of a tile that stands changes, and no other status. -/
theorem State.tileStat_onTile (s : State) (c : Nat) (w : Who) (code n : Nat) (f : TileStat → TileStat) :
    (s.onTile c w code f).tileStat ⟨c, w.ctx⟩ n =
      if n = code ∧ s.tileStands c w code = true then f (s.tileStat ⟨c, w.ctx⟩ code) else s.tileStat ⟨c, w.ctx⟩ n := by
  unfold State.onTile
  split
  · next h => rw [State.tileStat_setTileStat]; simp [h]
  · next h => simp [h]

theorem State.onTile_ctx (s : State) (c : Nat) (w : Who) (code : Nat) (f : TileStat → TileStat) :
    ∃ tiles, (s.onTile c w code f).ctx ⟨c, w.ctx⟩ = { s.ctx ⟨c, w.ctx⟩ with tiles := tiles } := by
  unfold State.onTile
  split
  · exact State.setTileStat_ctx ..
  · exact ⟨_, rfl⟩

theorem State.OnlyStats.tileStands {s t : State} {c : Nat} (h : s.OnlyStats t c) (w : Who) (code : Nat) :
    t.tileStands c w code = s.tileStands c w code := by
  unfold State.tileStands
  rw [h.prog, h.owner]

theorem State.OnlyStats.copies {s t : State} {c : Nat} (h : s.OnlyStats t c) (ch : Nat) : (t.core c).copies ch = (s.core c).copies ch := by
  obtain ⟨_, _, ht⟩ := h.core
  rw [ht]
  rfl

/-- The change of a tile that a copy names, if it names one. -/
def State.onSide (s : State) (c : Nat) (w : Who) (side : Option TileRef) (f : TileStat → TileStat) : State :=
  match side with
  | some x => s.onTile c w x.code f
  | none => s

namespace State.onSide

theorem onlyStats (s : State) (c : Nat) (w : Who) (side : Option TileRef) (f : TileStat → TileStat) : s.OnlyStats (s.onSide c w side f) c := by
  unfold State.onSide
  split
  · exact .onTile ..
  · exact .refl s c

theorem sameSectors (s : State) (c : Nat) (w : Who) (side : Option TileRef) (f : TileStat → TileStat) : s.SameSectors (s.onSide c w side f) := by
  unfold State.onSide
  split
  · exact .onTile ..
  · exact .refl s

theorem ctx (s : State) (c : Nat) (w : Who) (side : Option TileRef) (f : TileStat → TileStat) :
    ∃ tiles, (s.onSide c w side f).ctx ⟨c, w.ctx⟩ = { s.ctx ⟨c, w.ctx⟩ with tiles := tiles } := by
  unfold State.onSide
  split
  · exact State.onTile_ctx ..
  · exact ⟨_, rfl⟩

/-- The status of the tile of a side that stands. -/
theorem tileStat_self (s : State) (c : Nat) (w : Who) {x : TileRef} (f : TileStat → TileStat) (h : s.tileStands c w x.code = true) :
    (s.onSide c w (some x) f).tileStat ⟨c, w.ctx⟩ x.code = f (s.tileStat ⟨c, w.ctx⟩ x.code) :=
  (State.tileStat_onTile ..).trans (if_pos ⟨rfl, h⟩)

theorem tileStat_other (s : State) (c : Nat) (w : Who) {side : Option TileRef} {n : Nat} (f : TileStat → TileStat)
    (h : ∀ y, side = some y → y.code ≠ n) : (s.onSide c w side f).tileStat ⟨c, w.ctx⟩ n = s.tileStat ⟨c, w.ctx⟩ n := by
  cases side with
  | none => rfl
  | some y => exact (State.tileStat_onTile ..).trans (if_neg fun e => h y rfl e.1.symm)

end State.onSide

/-! ### The end of a copy (R215) -/

/-- The status of the destination tile of a copy that ends. -/
def CpOp.landed (o : CpOp) (st : TileStat) : TileStat := if o.ecause = 0 then { st with state := 2 } else { st with state := 0, err := true }

/-- The state in which a copy has left its queue and its tiles have left their roles. -/
def State.copyLeft (s : State) (c ch : Nat) (o : CpOp) : State :=
  let s1 := s.setCore c ((s.core c).setCopies ch (((s.core c).copies ch).filter fun p => p.id != o.id))
  (s1.onSide c o.who o.dst o.landed).onSide c o.who o.src fun st => { st with state := 2 }

/-- Its flags are raised where its program is still bound. -/
def State.copyFlagged (s : State) (c : Nat) (o : CpOp) : State :=
  if s.progOf ⟨c, o.who.ctx⟩ = some o.who.bind.prog then s.onView ⟨c, o.who.ctx⟩ false fun w => w.raise o.flags else s

/-- A copy that has left its queue and its tiles ends: its flags, its arrival and the stream banks (R215). -/
def State.ended (u : State) (c : Nat) (o : CpOp) : State := ((u.copyFlagged c o).copyArrival c o o.ecause).leaveStreams c o

theorem State.completeCopy_eq {s : State} {c ch : Nat} {o : CpOp} (h : ((s.core c).copies ch).find? (fun p => p.id == o.id && p.running) = some o) :
    s.completeCopy c ch o.id = (s.copyLeft c ch o).ended c o := by
  unfold State.completeCopy
  simp only [h]
  rfl

theorem Core.setCopies_keeps (k : Core) (ch : Nat) (q : List CpOp) : ∃ q0 q1, k.setCopies ch q = { k with cp0q := q0, cp1q := q1 } := by
  unfold Core.setCopies
  split <;> exact ⟨_, _, rfl⟩

/-- What the queue and the tiles of a copy are once it has left them, and what stays. -/
structure State.CopyLeft (s t : State) (c ch : Nat) (o : CpOp) : Prop where
  copies : (t.core c).copies ch = ((s.core c).copies ch).filter fun p => p.id != o.id
  sectors : s.SameSectors t
  cur : (t.ctx ⟨c, o.who.ctx⟩).cur = (s.ctx ⟨c, o.who.ctx⟩).cur
  prog : t.progOf ⟨c, o.who.ctx⟩ = s.progOf ⟨c, o.who.ctx⟩
  dst : ∀ x, o.dst = some x → (∀ y, o.src = some y → y.code ≠ x.code) → s.tileStands c o.who x.code = true →
    t.tileStat ⟨c, o.who.ctx⟩ x.code = o.landed (s.tileStat ⟨c, o.who.ctx⟩ x.code)
  src : ∀ y, o.src = some y → s.tileStands c o.who y.code = true → (t.tileStat ⟨c, o.who.ctx⟩ y.code).state = 2

theorem State.copyLeft_left (s : State) (c ch : Nat) (o : CpOp) : s.CopyLeft (s.copyLeft c ch o) c ch o := by
  unfold State.copyLeft
  obtain ⟨q0, q1, hkeeps⟩ := (s.core c).setCopies_keeps ch (((s.core c).copies ch).filter fun p => p.id != o.id)
  generalize hs1 : s.setCore c ((s.core c).setCopies ch (((s.core c).copies ch).filter fun p => p.id != o.id)) = s1
  have hcore : s1.core c = (s.core c).setCopies ch (((s.core c).copies ch).filter fun p => p.id != o.id) := by rw [← hs1, State.core_setCore]
  have hctx (l : Loc) : s1.ctx l = s.ctx l := by
    rw [← hs1]
    exact State.setCore_ctx_of_ctxs (by rw [hkeeps]) l
  have hz (i : Nat) : (s1.core c).ztile i = (s.core c).ztile i := by rw [hcore, hkeeps]; rfl
  have hprog : s1.progOf ⟨c, o.who.ctx⟩ = s.progOf ⟨c, o.who.ctx⟩ := by rw [State.progOf, hctx]; rfl
  have hstands (code : Nat) : s1.tileStands c o.who code = s.tileStands c o.who code := by rw [State.tileStands, hprog, hz]; rfl
  have hstat (code : Nat) : s1.tileStat ⟨c, o.who.ctx⟩ code = s.tileStat ⟨c, o.who.ctx⟩ code := by rw [State.tileStat, hctx, hz]; rfl
  have hdst := State.onSide.onlyStats s1 c o.who o.dst o.landed
  have hsrc := State.onSide.onlyStats (s1.onSide c o.who o.dst o.landed) c o.who o.src fun st => { st with state := 2 }
  have hboth := hdst.trans hsrc
  refine ⟨?_, ?_, ?_, ?_, fun x hx hne hs => ?_, fun y hy hs => ?_⟩
  · rw [hboth.copies, hcore, Core.copies_setCopies]
  · have hqueue : s.SameSectors s1 := by
      rw [← hs1]
      exact .setCore (by rw [hkeeps]) (by rw [hkeeps]) (by rw [hkeeps]) (by rw [hkeeps])
    exact hqueue.trans ((State.onSide.sameSectors ..).trans (State.onSide.sameSectors ..))
  · obtain ⟨_, h1⟩ := State.onSide.ctx s1 c o.who o.dst o.landed
    obtain ⟨_, h2⟩ := State.onSide.ctx (s1.onSide c o.who o.dst o.landed) c o.who o.src fun st => { st with state := 2 }
    rw [h2, h1, hctx]
  · rw [hboth.prog, hprog]
  · rw [State.onSide.tileStat_other _ c o.who _ hne, hx, State.onSide.tileStat_self _ c o.who _ ((hstands _).trans hs), hstat]
  · rw [hy, State.onSide.tileStat_self _ c o.who _ ((hdst.tileStands ..).trans ((hstands _).trans hs))]

/-- A context changed in nothing that its tiles or its copies are read from. -/
theorem State.tileStat_setCtx {s : State} {l : Loc} {x : Ctx} (h : x.tiles = (s.ctx l).tiles) (code : Nat) :
    (s.setCtx l x).tileStat l code = s.tileStat l code := by
  unfold State.tileStat Ctx.tile
  rw [State.ctx_setCtx, State.core_setCtx, h]
  rfl

theorem State.copies_setCtx (s : State) (l : Loc) (x : Ctx) (ch : Nat) : ((s.setCtx l x).core l.core).copies ch = (s.core l.core).copies ch := by
  rw [State.core_setCtx]
  rfl

/-- A core changed in nothing but its pool and what has arrived. -/
def Core.OnlyArrives (k k1 : Core) : Prop := ∃ pool keys arrived, k1 = { k with pool := pool, sectorKey := keys, arrived := arrived }

theorem State.setArrived_core {s u : State} {c n : Nat} (arrived : List (Nat × Nat × Nat × Nat)) (h : (s.core n).OnlyArrives (u.core n)) :
    (s.core n).OnlyArrives ((u.setCore c { u.core c with arrived := arrived }).core n) := by
  obtain ⟨_, _, _, hu⟩ := h
  by_cases hn : n = c
  · rw [← hn, State.core_setCore, hu]
    exact ⟨_, _, _, rfl⟩
  · rw [State.core_setCore_ne _ hn, hu]
    exact ⟨_, _, _, rfl⟩

theorem State.moveBarrier_core (s : State) (c : Nat) (a : Accessor) (i : Nat) (old new : Barrier) (n : Nat) :
    (s.core n).OnlyArrives ((s.moveBarrier c a i old new).core n) := by
  have hwrite : (s.core n).OnlyArrives ((s.setBarrier c a i new).core n) := by
    obtain ⟨_, _, h⟩ := (State.OnlyPools.setPoolBytes s c a (s.dev a.pav a.vd).kidx i (leBytes 16 (new.low + new.high * 2 ^ 64))).core n
    exact ⟨_, _, _, h⟩
  unfold State.moveBarrier
  dsimp only
  split
  · exact hwrite
  · exact State.setArrived_core _ hwrite

theorem State.moveBarrier_sameSectors (s : State) (c : Nat) (a : Accessor) (i : Nat) (old new : Barrier) :
    (s.setBarrier c a i new).SameSectors (s.moveBarrier c a i old new) := by
  unfold State.moveBarrier
  dsimp only
  split
  · exact .refl _
  · exact .setCore rfl rfl rfl rfl

/-- What the arrival of a copy leaves: of every core all but the pool and what has arrived. -/
theorem State.copyArrival_core (s : State) (c : Nat) (o : CpOp) (cause n : Nat) : (s.core n).OnlyArrives ((s.copyArrival c o cause).core n) := by
  unfold State.copyArrival
  split
  · exact ⟨_, _, _, rfl⟩
  · exact State.setArrived_core _ (State.moveBarrier_core ..)

theorem State.setArrived_sameSectors (s : State) (c : Nat) (arrived : List (Nat × Nat × Nat × Nat)) :
    s.SameSectors (s.setCore c { s.core c with arrived := arrived }) := .setCore rfl rfl rfl rfl

theorem State.copyArrival_eq {s : State} {c : Nat} {o : CpOp} {cause i : Nat} (h : o.bar = some i) : ∃ arrived,
    s.copyArrival c o cause =
      let s1 := s.arrival c (o.who.accessor c) (some i) cause ((o.bytes + 63) / 64)
      s1.setCore c { s1.core c with arrived := arrived } := by
  unfold State.copyArrival
  simp only [h]
  exact ⟨_, rfl⟩

/-- An arrival on a barrier, after the error that it reports, is its barrier written (R221). -/
theorem State.arrival_sameSectors (s : State) (c : Nat) (a : Accessor) (i cause k : Nat) :
    let b := s.barrier c a i
    (s.setBarrier c a i ((if cause = 0 then b else b.fail cause).arrive k)).SameSectors (s.arrival c a (some i) cause k) :=
  State.moveBarrier_sameSectors ..

/-- A barrier at which a cause is reported: the first error stands (R216, R221). -/
def Barrier.reported (b : Barrier) (cause : Nat) : Barrier := if cause = 0 then b else b.fail cause

theorem Barrier.reported_eq (b : Barrier) (cause : Nat) :
    b.reported cause = if cause = 0 ∨ b.err = true then b else { b with err := true, ecause := cause } := by
  unfold Barrier.reported Barrier.fail
  by_cases hcause : cause = 0
  · rw [if_pos hcause, if_pos (.inl hcause)]
  · rw [if_neg hcause]
    exact if_congr (by simp [hcause]) rfl rfl

theorem Barrier.reported_inRange {b : Barrier} (h : b.InRange) {cause : Nat} (hcause : cause < 8) : (b.reported cause).InRange := by
  unfold Barrier.reported
  split
  · exact h
  · exact Barrier.fail_inRange h hcause

/-- The arrival of a copy at its barrier, after the first error that it reports (R215, R216, R221). -/
theorem State.barrier_copyArrival {s : State} {c : Nat} {o : CpOp} {cause m : Nat} (hbar : o.bar = some (16 * m)) (hcause : cause < 8)
    (hfree : ∀ j, j < 16 → (s.core c).reservedByte (16 * m + j) = false)
    (hallows : (s.dev o.who.bind.pav o.who.bind.vd).kidx = 0 ∨
      s.keyAllows (o.who.accessor c) (s.dev o.who.bind.pav o.who.bind.vd).kidx = true) :
    (s.copyArrival c o cause).barrier c (o.who.accessor c) (16 * m) =
      Spec.arrived ((s.barrier c (o.who.accessor c) (16 * m)).reported cause) ((o.bytes + 63) / 64) := by
  have hin : (s.barrier c (o.who.accessor c) (16 * m)).InRange := barrierOf_inRange ..
  have hnew := Barrier.arrive_inRange (Barrier.reported_inRange hin hcause) ((o.bytes + 63) / 64)
  have hwritten := s.arrival_sameSectors c (o.who.accessor c) (16 * m) cause ((o.bytes + 63) / 64)
  obtain ⟨arrived, harrival⟩ := State.copyArrival_eq (s := s) (c := c) (cause := cause) hbar
  rw [harrival, (State.setArrived_sameSectors ..).barrier, hwritten.barrier, ← Barrier.arrive_eq]
  exact State.barrier_setBarrier hnew hfree hallows

/-- What the end of a copy leaves once its queue and its tiles are done with. -/
structure State.TilesStay (s t : State) (l : Loc) : Prop where
  copies : ∀ ch, (t.core l.core).copies ch = (s.core l.core).copies ch
  stat : ∀ code, t.tileStat l code = s.tileStat l code

theorem State.TilesStay.trans {s t u : State} {l : Loc} (h : s.TilesStay t l) (h' : t.TilesStay u l) : s.TilesStay u l :=
  ⟨fun ch => (h'.copies ch).trans (h.copies ch), fun code => (h'.stat code).trans (h.stat code)⟩

theorem State.TilesStay.setCtx {s : State} {l : Loc} {x : Ctx} (h : x.tiles = (s.ctx l).tiles) : s.TilesStay (s.setCtx l x) l :=
  ⟨s.copies_setCtx l x, State.tileStat_setCtx h⟩

theorem State.copyArrival_ctx (s : State) (c : Nat) (o : CpOp) (cause : Nat) (l : Loc) : (s.copyArrival c o cause).ctx l = s.ctx l := by
  obtain ⟨_, _, _, h⟩ := s.copyArrival_core c o cause l.core
  rw [State.ctx, h]
  rfl

theorem State.copyArrival_tilesStay (s : State) (c : Nat) (o : CpOp) (cause : Nat) (l : Loc) : s.TilesStay (s.copyArrival c o cause) l := by
  obtain ⟨_, _, _, h⟩ := s.copyArrival_core c o cause l.core
  refine ⟨fun ch => by rw [h]; rfl, fun code => ?_⟩
  unfold State.tileStat
  rw [State.copyArrival_ctx, h]
  rfl

theorem State.copyFlagged_tilesStay (s : State) (c : Nat) (o : CpOp) : s.TilesStay (s.copyFlagged c o) ⟨c, o.who.ctx⟩ := by
  unfold State.copyFlagged
  split
  · exact .setCtx rfl
  · exact ⟨fun _ => rfl, fun _ => rfl⟩

theorem State.copyFlagged_sameSectors (s : State) (c : Nat) (o : CpOp) : s.SameSectors (s.copyFlagged c o) := by
  unfold State.copyFlagged
  split
  · exact .setCtx ..
  · exact .refl s

/-- The flags of a copy are raised in its context while its program is bound (R52, R215). -/
theorem State.copyFlagged_fpflags {s : State} {c : Nat} {o : CpOp} (h : s.progOf ⟨c, o.who.ctx⟩ = some o.who.bind.prog) (j : Nat) :
    ((s.copyFlagged c o).ctx ⟨c, o.who.ctx⟩).cur.ctl.fpflags.getLsbD j =
      ((s.ctx ⟨c, o.who.ctx⟩).cur.ctl.fpflags.getLsbD j || (decide (j < 64) && o.flags.testBit j)) := by
  unfold State.copyFlagged
  rw [if_pos h, State.onView_ctx, Ctx.onView_cur, View.raise]
  dsimp only
  rw [BitVec.getLsbD_or, BitVec.getLsbD_ofNat]

theorem State.copyArrival_of_none {s : State} {c : Nat} {o : CpOp} {cause : Nat} (h : o.bar = none) : s.copyArrival c o cause = s := by
  unfold State.copyArrival
  simp only [h]

theorem State.leaveStreams_sameSectors (s : State) (c : Nat) (o : CpOp) : s.SameSectors (s.leaveStreams c o) := .setCtx ..

theorem State.ended_tilesStay (u : State) (c : Nat) (o : CpOp) : u.TilesStay (u.ended c o) ⟨c, o.who.ctx⟩ :=
  (u.copyFlagged_tilesStay c o).trans ((State.copyArrival_tilesStay ..).trans (.setCtx rfl))

theorem State.ended_cur (u : State) (c : Nat) (o : CpOp) :
    ((u.ended c o).ctx ⟨c, o.who.ctx⟩).cur = ((u.copyFlagged c o).ctx ⟨c, o.who.ctx⟩).cur := by
  unfold State.ended State.leaveStreams
  dsimp only
  rw [State.ctx_setCtx, State.copyArrival_ctx]

theorem copiesBeginAndEnd : Spec.CopiesBeginAndEnd := by
  unfold Spec.CopiesBeginAndEnd
  intro s c ch queue
  refine ⟨fun o rest hqueue hrun => ?_, fun o hfind => ?_⟩
  · by_cases href : o.refused = 0
    · obtain ⟨-, -, tail, htail⟩ := State.beginCopy_ran (ch := ch) hqueue hrun href
      exact ⟨_, _, tail, rfl, htail, rfl, rfl, fun h => absurd href h⟩
    · obtain ⟨⟨tail, htail⟩, hpool⟩ := State.setCopy_head (ch := ch) (o1 := { o with running := true, ecause := o.refused }) hqueue rfl
      rw [← State.beginCopy_refused (ch := ch) hqueue hrun href] at htail hpool
      refine ⟨_, _, tail, rfl, htail, rfl, rfl, fun _ => ⟨rfl, ?_, hpool⟩⟩
      rw [State.beginCopy_refused (ch := ch) hqueue hrun href]
      rfl
  · obtain ⟨hcopies, hsectors, hcur, hprog, hdst, hsrc⟩ := s.copyLeft_left c ch o
    have hstay := State.ended_tilesStay (s.copyLeft c ch o) c o
    refine ⟨_, congrArg Host.Outcome.next (State.completeCopy_eq (ch := ch) hfind), (hstay.copies ch).trans hcopies, fun x hx hne hs => ?_,
      fun y hy hs => ?_, fun hbound j => ?_, fun hnobar => ?_, fun hbar hcause => ?_⟩
    · dsimp only
      rw [hstay.stat, hdst x hx hne hs, CpOp.landed]
      split
      · rfl
      · exact ⟨rfl, rfl⟩
    · rw [hstay.stat]
      exact hsrc y hy hs
    · rw [State.ended_cur, State.copyFlagged_fpflags (hprog.trans hbound), hcur]
    · rw [State.ended, State.copyArrival_of_none (if_pos hnobar), (State.leaveStreams_sameSectors ..).pool]
      exact (hsectors.trans (State.copyFlagged_sameSectors ..)).pool c
    · intro a failed n hfree hallows
      have hsame := hsectors.trans (State.copyFlagged_sameSectors (s.copyLeft c ch o) c o)
      have hbarrier := State.barrier_copyArrival (s := (s.copyLeft c ch o).copyFlagged c o) (c := c) (o := o) (cause := o.ecause)
        (m := (o.x.extractLsb' 6 19).toNat) (if_neg (by rw [bit, hbar]; exact Bool.false_ne_true)) hcause (fun j hj => (hsame.reservedByte c _).trans (hfree j hj))
        (by rw [hsame.dev, hsame.keyAllows]; exact hallows)
      rw [State.ended, (State.leaveStreams_sameSectors ..).barrier]
      refine hbarrier.trans ?_
      rw [hsame.barrier, Barrier.reported_eq]
      rfl

/-- Settles O44: the n-th tuple of a pattern has the digits of n; an element, an entry of a walk and a record are read and written as their
equations say; moving data leaves every core but for its pool, so that the copy that runs still heads its queue; and the barrier at which a
copy arrives is read back as it was written. -/
theorem copiesBeginAndComplete : Obligations.CopiesBeginAndComplete := by
  unfold Obligations.CopiesBeginAndComplete
  exact ⟨copiesBeginAndEnd, copiesRunTheirPattern, patternsMoveTheirElements, walkEntriesMove, walksWriteTheirTotal, recordsArePackedAndUnpacked⟩

end Sys2Proof.Machine

/-! # Every bundle word has one row (O16, O17) -/

namespace Sys2Proof

/-! ### Codes of sources (R79) -/

theorem UnitId.num_of_unitOfNum {n : Nat} {u : UnitId} (h : unitOfNum n = some u) : u.num = n := by
  have hnum : ∀ k : Fin allUnits.length, allUnits[k].num = k := by decide
  obtain ⟨hn, rfl⟩ := List.getElem?_eq_some_iff.mp h
  exact hnum ⟨n, hn⟩

/-- A number that names no unit is past the last of them (R79). -/
theorem le_of_unitOfNum_eq_none {n : Nat} (h : unitOfNum n = none) : 22 ≤ n := List.getElem?_eq_none_iff.mp h

/-- Every 9-bit code names a source, and is that source's code (R79). -/
theorem decodeSrc_wf_encode {c : Nat} (hc : c < 0x200) : (decodeSrc c).wf = true ∧ encodeSrc (decodeSrc c) = c := by
  fun_cases decodeSrc c
  case case1 | case2 | case3 | case4 | case5 | case8 =>
    rw [Src.wf_reg, RFile.codes, encodeSrc]
    omega
  case case6 | case17 => exact ⟨Src.wf_reserved.mpr (by omega), rfl⟩
  case case9 u h => exact ⟨rfl, by rw [encodeSrc, UnitId.num_of_unitOfNum h]; omega⟩
  case case10 h =>
    have := le_of_unitOfNum_eq_none h
    exact ⟨Src.wf_reserved.mpr (by omega), rfl⟩
  case case7 =>
    rw [encodeSrc, BitVec.toNat_ofNat]
    exact ⟨rfl, by omega⟩
  case case11 | case12 | case13 =>
    simp only [Src.wf, encodeSrc, decide_eq_true_eq, Bool.or_eq_true, beq_iff_eq]
    omega
  case case14 | case15 | case16 => exact ⟨rfl, by rw [encodeSrc]; omega⟩

/-! ### Codes of destinations (R81 to R83) -/

/-- A block that holds a code is that of a unit of the bus class, and its offset is within the block (R82). -/
theorem bus_of_findBlock {bus : Bus} {c : Nat} {u : UnitId} {off : Nat} (h : findBlock c (unitBlocks bus) = some (u, off)) :
    u.bus = bus ∧ off < u.blockSize := by
  cases bus <;> simp only [unitBlocks, findBlock] at h <;> split_ifs at h <;> cases h <;>
    simp only [UnitId.bus, UnitId.blockSize, UnitId.kind, true_and] <;> omega

theorem Dst.wf_reg {bus : Bus} {f : RFile} {n : Nat} : (Dst.reg f n).wf bus = true ↔ f ≠ .p ∧ n < f.codes := by
  simp [Dst.wf]

theorem nodup_opsOf (k : UnitKind) : (opsOf k).Nodup := by
  cases k <;> decide

/-- The place of a trigger in its unit's code list is that at which the list has it (R83). -/
theorem position_of_getElem? {k : UnitKind} {n : Nat} {op : Op} (h : (opsOf k)[n]? = some op) :
    op ∈ opsOf k ∧ position op (opsOf k) = n := by
  obtain ⟨hn, rfl⟩ := List.getElem?_eq_some_iff.mp h
  exact ⟨List.getElem_mem hn, by rw [position_eq_idxOf, (nodup_opsOf k).idxOf_getElem]⟩

/-- Every offset of a unit's block names a port of its bus class, and is that port's code in the block (R83). -/
theorem decodePort_wf_encode (u : UnitId) {off : Nat} (h : off < u.blockSize) :
    (decodePort u off).wf u.bus = true ∧ encodeDst (decodePort u off) = u.base + off := by
  have hu := u.block_fits
  fun_cases decodePort u off
  case case5 =>
    have hf := findBlock_of_mem (u := u) (c := u.base + off) (by omega) (by omega)
    refine ⟨?_, rfl⟩
    simp only [Dst.wf, reservedDst, hf, Bool.or_eq_true, Bool.and_eq_true, decide_eq_true_eq]
    omega
  case case6 op hop =>
    obtain ⟨hmem, hpos⟩ := position_of_getElem? hop
    simp only [Dst.wf, encodeDst, hmem, hpos, and_self, decide_true, true_and]
    omega
  case case7 hop =>
    have := List.getElem?_eq_none_iff.mp hop
    simp only [Dst.wf, encodeDst, and_true, true_and, decide_eq_true_eq]
    omega
  all_goals
    simp only [Dst.wf, encodeDst, true_and, decide_eq_true_eq]
    omega

/-- Every 9-bit code names a destination of each bus class, and is that destination's code (R81 to R83). -/
theorem decodeDst_wf_encode (bus : Bus) {c : Nat} (hc : c < 0x200) :
    (decodeDst bus c).wf bus = true ∧ encodeDst (decodeDst bus c) = c := by
  fun_cases decodeDst bus c
  case case1 h => exact ⟨rfl, h.symm⟩
  case case2 => exact ⟨decide_eq_true (by omega), rfl⟩
  case case3 | case4 | case5 | case6 | case7 =>
    rw [Dst.wf_reg, RFile.codes, encodeDst]
    exact ⟨⟨by decide, by omega⟩, by omega⟩
  case case8 =>
    refine ⟨?_, rfl⟩
    simp only [Dst.wf, reservedDst, Bool.or_eq_true, Bool.and_eq_true, decide_eq_true_eq]
    omega
  case case9 u off h =>
    obtain ⟨rfl, hoff⟩ := bus_of_findBlock h
    rw [eq_base_of_findBlock h]
    exact decodePort_wf_encode u hoff
  case case10 h =>
    refine ⟨?_, rfl⟩
    simp [Dst.wf, reservedDst, h]
    omega

/-! ### Items and slots (R74, R76) -/

theorem b2n_bit {n : Nat} (w : BitVec n) (i : Nat) : b2n (bit w i) = w.toNat / 2 ^ i % 2 := by
  rw [bit, BitVec.getLsbD, Nat.testBit_eq_decide_div_mod_eq]
  obtain h | h := Nat.mod_two_eq_zero_or_one (w.toNat / 2 ^ i) <;> rw [h] <;> rfl

/-- Any 24 bits are an item of each slot, whose bits they are (R76). -/
theorem decodeItem_wf_encode (slot : Nat) (w : BitVec 24) :
    (decodeItem slot w).wf slot = true ∧ encodeItem (decodeItem slot w) = w.toNat := by
  have hw := w.isLt
  unfold decodeItem
  split
  · rename_i himm
    rw [bits_eq_div_mod] at himm
    refine ⟨rfl, ?_⟩
    rw [encodeItem, BitVec.toNat_ofNat]
    omega
  · rename_i hmove
    rw [bits_eq_div_mod] at hmove
    obtain ⟨hsrc, hsrcCode⟩ := decodeSrc_wf_encode (c := bits w 17 9) (by rw [bits_eq_div_mod]; omega)
    obtain ⟨hdst, hdstCode⟩ := decodeDst_wf_encode (slotBus slot) (c := bits w 8 0) (by rw [bits_eq_div_mod]; omega)
    have hg : BitVec.ofNat 4 (bits w 23 20) ≠ 8#4 := fun e => by
      have := congrArg BitVec.toNat e
      rw [BitVec.toNat_ofNat, bits_eq_div_mod, show (8#4).toNat = 8 from rfl] at this
      omega
    refine ⟨by simp [Item.wf, hg, hsrc, hdst], ?_⟩
    rw [encodeItem, hsrcCode, hdstCode, b2n_bit, b2n_bit, BitVec.toNat_ofNat]
    simp only [bits_eq_div_mod]
    omega

@[simp] theorem length_decodeSlots (w slot n : Nat) : (decodeSlots w slot n).length = n := by
  induction n generalizing slot with
  | zero => rfl
  | succ n ih => rw [decodeSlots, List.length_cons, ih]

theorem itemsWf_decodeSlots (w slot n : Nat) : itemsWf slot (decodeSlots w slot n) = true := by
  induction n generalizing slot with
  | zero => rfl
  | succ n ih => rw [decodeSlots, itemsWf, (decodeItem_wf_encode slot _).1, ih]; rfl

/-- The slots of a word hold the bits of the word from the first of them on (R74). -/
theorem encodeSlots_decodeSlots (w slot n : Nat) : encodeSlots (decodeSlots w slot n) = (w >>> (24 * slot)) % 2 ^ (24 * n) := by
  induction n generalizing slot with
  | zero => rw [decodeSlots, encodeSlots, Nat.mul_zero, Nat.pow_zero, Nat.mod_one]
  | succ n ih =>
    rw [decodeSlots, encodeSlots, ih, (decodeItem_wf_encode slot _).2, BitVec.toNat_ofNat, Nat.mul_succ, Nat.shiftRight_add,
      Nat.shiftRight_eq_div_pow _ 24, Nat.mul_succ, Nat.add_comm (24 * n) 24, Nat.pow_add, Nat.mod_mul]

theorem getElem?_decodeSlots (w slot : Nat) {n k : Nat} (h : k < n) :
    (decodeSlots w slot n)[k]? = some (decodeItem (slot + k) (BitVec.ofNat 24 (w >>> (24 * (slot + k))))) := by
  induction n generalizing slot k with
  | zero => omega
  | succ n ih =>
    rw [decodeSlots]
    cases k with
    | zero => rfl
    | succ k => rw [List.getElem?_cons_succ, ih (slot + 1) (by omega), Nat.add_assoc, Nat.add_comm 1 k]

/-! ### Bytes (R4) -/

theorem leNat_lt (bs : List Byte) : leNat bs < 256 ^ bs.length := by
  induction bs with
  | nil => decide
  | cons b bs ih =>
    have hb := b.isLt
    rw [leNat, List.length_cons, Nat.pow_succ]
    omega

theorem leBytes_leNat (bs : List Byte) : leBytes bs.length (leNat bs) = bs := by
  induction bs with
  | nil => rfl
  | cons b bs ih =>
    have hb := b.isLt
    rw [List.length_cons, leBytes, leNat, show (b.toNat + 256 * leNat bs) / 256 = leNat bs by omega, ih]
    congr 1
    apply BitVec.eq_of_toNat_eq
    rw [BitVec.toNat_ofNat]
    omega

/-- The number of the bytes from the k-th on is that of all of them without the k lowest (R4). -/
theorem leNat_drop (bs : List Byte) (k : Nat) : leNat (bs.drop k) = leNat bs >>> (8 * k) := by
  induction k generalizing bs with
  | zero => rfl
  | succ k ih =>
    cases bs with
    | nil => rw [List.drop_nil, leNat, Nat.zero_shiftRight]
    | cons b bs =>
      have hb := b.isLt
      rw [List.drop_succ_cons, ih, leNat, Nat.mul_succ, Nat.add_comm (8 * k), Nat.shiftRight_add, Nat.shiftRight_eq_div_pow _ 8,
        show (b.toNat + 256 * leNat bs) / 2 ^ 8 = leNat bs by omega]

/-- The lowest 24 bits of bytes are the first three of them, the least significant first (R4). -/
theorem ofNat_leNat_three (a b c : Byte) (rest : List Byte) :
    BitVec.ofNat 24 (leNat (a :: b :: c :: rest)) = (c ++ b ++ a : BitVec 24) := by
  have ha := a.isLt
  have hb := b.isLt
  have hc := c.isLt
  apply BitVec.eq_of_toNat_eq
  rw [BitVec.toNat_ofNat, leNat, leNat, leNat, BitVec.toNat_append, BitVec.toNat_append, ← Nat.shiftLeft_add_eq_or_of_lt a.isLt,
    ← Nat.shiftLeft_add_eq_or_of_lt b.isLt, Nat.shiftLeft_eq, Nat.shiftLeft_eq]
  omega

/-- The three bytes at a place of a list are those of the word that begins there (R74). -/
theorem ofNat_leNat_shiftRight {bs : List Byte} {k : Nat} (h : k + 3 ≤ bs.length) :
    BitVec.ofNat 24 (leNat bs >>> (8 * k)) = (bs.getD (k + 2) 0 ++ bs.getD (k + 1) 0 ++ bs.getD k 0 : BitVec 24) := by
  rw [← leNat_drop, List.drop_eq_getElem_cons (by omega), List.drop_eq_getElem_cons (by omega), List.drop_eq_getElem_cons (by omega),
    ofNat_leNat_three]
  simp only [List.getD_eq_getElem?_getD, List.getElem?_eq_getElem (show k < bs.length by omega),
    List.getElem?_eq_getElem (show k + 1 < bs.length by omega), List.getElem?_eq_getElem (show k + 2 < bs.length by omega),
    Option.getD_some]

/-! ### The row of eight items -/

theorem eq_replicate_of_occupied_eq_nil {slot : Nat} {items : List Item} (h : occupied slot items = []) :
    items = List.replicate items.length Item.empty := by
  induction items generalizing slot with
  | nil => rfl
  | cons it rest ih =>
    rw [occupied] at h
    split at h
    · rename_i he
      rw [List.length_cons, List.replicate_succ, ← ih h, he]
    · cases h

/-- Items of which one alone is not empty (R76). -/
theorem eq_set_of_occupied_eq_singleton {slot n : Nat} {it : Item} {items : List Item} (h : occupied slot items = [(n, it)]) :
    ∃ k, n = slot + k ∧ k < items.length ∧ items = (List.replicate items.length Item.empty).set k it := by
  induction items generalizing slot with
  | nil => cases h
  | cons d rest ih =>
    rw [occupied] at h
    split at h
    · rename_i he
      obtain ⟨k, hn, hk, hrest⟩ := ih h
      refine ⟨k + 1, by omega, by simpa using hk, ?_⟩
      rw [List.length_cons, List.replicate_succ, List.set_cons_succ, ← hrest, he]
    · obtain ⟨⟨rfl, rfl⟩, hrest⟩ : (slot = n ∧ d = it) ∧ occupied (slot + 1) rest = [] := by simpa using h
      refine ⟨0, rfl, by simp, ?_⟩
      rw [List.length_cons, List.replicate_succ, List.set_cons_zero, ← eq_replicate_of_occupied_eq_nil hrest]

theorem wf_of_mem_itemsWf {slot k : Nat} {it : Item} {items : List Item} (h : itemsWf slot items = true) (hk : items[k]? = some it) :
    it.wf (slot + k) = true := by
  induction items generalizing slot k with
  | nil => cases hk
  | cons d rest ih =>
    obtain ⟨hd, hrest⟩ : d.wf slot = true ∧ itemsWf (slot + 1) rest = true := by simpa [itemsWf] using h
    cases k with
    | zero =>
      obtain rfl : d = it := by simpa using hk
      exact hd
    | succ k =>
      have := ih hrest (by simpa using hk)
      rwa [Nat.add_right_comm] at this

/-- Eight items stand for a whole bundle, or for the trigger that is their one move. -/
theorem rowOf_cases {items : List Item} (hlen : items.length = 8) (h : itemsWf 0 items = true) :
    rowOf items = .transportMove items ∨
      ∃ u op m, op ∈ opsOf u.kind ∧ m.wf u = true ∧ items = oneItem m.slot (m.item u op) ∧ rowOf items = ofTrigger u op m := by
  rw [rowOf]
  split
  · rename_i slot g s b src u op hocc
    obtain ⟨k, hk, hlt, hitems⟩ := eq_set_of_occupied_eq_singleton hocc
    obtain rfl : slot = k := by omega
    rw [hlen] at hlt hitems
    have hget : items[slot]? = some (.move g s b src (.trig u op)) := by simp [hitems, hlt]
    obtain ⟨⟨hg, hsrc⟩, hbus, hop⟩ : (g ≠ 8 ∧ src.wf = true) ∧ u.bus = slotBus slot ∧ op ∈ opsOf u.kind := by
      simpa [Item.wf, Dst.wf] using wf_of_mem_itemsWf h hget
    exact .inr ⟨u, op, ⟨slot, g, s, b, src⟩, hop, by simpa [Mv.wf, hlt, hbus, hsrc] using hg, hitems, rfl⟩
  · exact .inl rfl

/-- The row of a trigger names its unit, its operation and its move (R82, R83). -/
theorem ofTrigger_trigger? {u : UnitId} {op : Op} (m : Mv) (h : op ∈ opsOf u.kind) :
    (ofTrigger u op m).trigger? = some (u, op, m) ∧ unitNumberWf (ofTrigger u op m) = true := by
  revert op
  cases u <;> simp only [UnitId.kind, opsOf, List.forall_mem_cons, List.not_mem_nil, false_imp_iff, implies_true, and_true] <;>
    repeat' apply And.intro
  all_goals rfl

section
variable {i : Instr} {u : UnitId} {op : Op} {m : Mv}

theorem itemsOf_of_trigger (h : i.trigger? = some (u, op, m)) : itemsOf i = some (oneItem m.slot (m.item u op)) := by
  unfold itemsOf
  split
  · cases h
  · rw [h]

theorem wellFormed_of_trigger (h : i.trigger? = some (u, op, m)) (hunit : unitNumberWf i = true) (hm : m.wf u = true) :
    wellFormed i = true := by
  unfold wellFormed
  split
  · cases h
  · rw [h, hunit]
    exact hm

end

/-- The row of eight items is well-formed and has those items (R74). -/
theorem rowOf_wf_items {items : List Item} (hlen : items.length = 8) (h : itemsWf 0 items = true) :
    wellFormed (rowOf items) = true ∧ itemsOf (rowOf items) = some items := by
  obtain hrow | ⟨u, op, m, hop, hm, hitems, hrow⟩ := rowOf_cases hlen h
  · have hwf : wellFormed (.transportMove items) = (decide (items.length = 8 ∧ rowOf items = .transportMove items) && itemsWf 0 items) := rfl
    rw [hrow, hwf, decide_eq_true ⟨hlen, hrow⟩, h]
    exact ⟨rfl, rfl⟩
  · obtain ⟨ht, hunit⟩ := ofTrigger_trigger? m hop
    rw [hrow]
    exact ⟨wellFormed_of_trigger ht hunit hm, hitems ▸ itemsOf_of_trigger ht⟩

/-- 24 bytes decode to the row of the items in their slots (R74). -/
theorem decode_of_length {bs : List Byte} (h : bs.length = 24) : decode bs = .ok (rowOf (decodeSlots (leNat bs) 0 8), []) := by
  rw [decode, if_neg (by omega), List.take_of_length_le (by omega), List.drop_eq_nil_of_le (by omega), decodeBundle]

/-- The items in the slots of 24 bytes are encoded by those bytes (R74). -/
theorem leBytes_encodeSlots_decodeSlots {bs : List Byte} (h : bs.length = 24) :
    leBytes 24 (encodeSlots (decodeSlots (leNat bs) 0 8)) = bs := by
  have hlt := leNat_lt bs
  rw [h] at hlt
  rw [encodeSlots_decodeSlots, Nat.mul_zero, Nat.shiftRight_zero, Nat.mod_eq_of_lt (by omega)]
  exact h ▸ leBytes_leNat bs

/-- Settles O16: the items of the eight slots, each of which is the item of its three bytes, make the row. -/
theorem everyBundleWordHasOneRow : Obligations.EveryBundleWordHasOneRow := by
  unfold Obligations.EveryBundleWordHasOneRow
  intro bs
  refine ⟨fun hlen => ?_, fun hlen => if_pos hlen⟩
  obtain ⟨hwf, hitems⟩ := rowOf_wf_items (length_decodeSlots (leNat bs) 0 8) (itemsWf_decodeSlots _ _ _)
  refine ⟨_, _, decode_of_length hlen, hwf, ?_, hitems, length_decodeSlots _ _ _, fun n hn => ?_⟩
  · rw [encode, hitems]
    exact congrArg some (leBytes_encodeSlots_decodeSlots hlen)
  · rw [getElem?_decodeSlots _ _ hn, Nat.zero_add, show 24 * n = 8 * (3 * n) by omega, ofNat_leNat_shiftRight (by omega)]

/-- Settles O17: the decoder, evaluated on each of the three words. -/
theorem writtenWordsDecodeToTheirRows : Obligations.WrittenWordsDecodeToTheirRows := by
  unfold Obligations.WrittenWordsDecodeToTheirRows
  simp only [List.forall_mem_cons, List.not_mem_nil, false_imp_iff, implies_true, and_true]
  exact ⟨by decide, by decide, by decide⟩

end Sys2Proof
/-! # Bundles that move nothing (O8, O20) -/

namespace Sys2Proof.Machine

/-! ### The issue of a bundle without enabled moves -/

theorem liveMoves_empty (w : View) (slot n : Nat) : liveMoves w slot (List.replicate n Item.empty) = [] := by
  induction n generalizing slot with
  | zero => rfl
  | succ n ih => exact ih (slot + 1)

section
variable {s : State} {l : Loc} {items : List Item}

theorem judge_of_no_moves (sem : Op → OpSem) (h : liveMoves (s.ctx l).cur 0 items = []) : judge sem s l items = .go [] := by
  have hexam : examine sem s l items = [] := by simp [examine, h]
  simp [judge, hexam, h, conflictSlot, firstTrap, passed]

/-- The end of a bundle of which no move takes effect does not ask what operations do. -/
theorem State.perform_nil (sem : Op → OpSem) (s : State) (l : Loc) : s.perform sem l [] = s.perform opSem l [] := rfl

/-- A bundle without enabled moves passes its checks and ends (R29, R77). -/
theorem State.issue_of_no_moves (sem : Op → OpSem) (hb : (s.ctx l).boundaryTrap = none) (h : liveMoves (s.ctx l).cur 0 items = []) :
    s.issue sem l items = (s.charge l).perform opSem l [] := by
  rw [State.issue, hb]
  simp only [judge_of_no_moves sem h]
  exact State.perform_nil sem _ l

theorem State.bundle_of_no_moves (sem : Op → OpSem) (hm : s.mayIssue l) (h : liveMoves (s.ctx l).cur 0 items = []) :
    s.bundle sem items = (s.issued l).perform opSem l [] := by
  obtain ⟨hturn, hb⟩ := hm
  rw [State.bundle, hturn]
  exact State.issue_of_no_moves sem (by rw [State.take_ctx, hb]) (by rw [State.take_ctx, h])

/-- The empty bundle (R76) has no effects but those of its end. -/
theorem exec_empty (hm : s.mayIssue l) :
    exec (.transportMove (List.replicate 8 Item.empty)) s = .next ((s.issued l).perform opSem l []) :=
  congrArg Host.Outcome.next (State.bundle_of_no_moves opSem hm (liveMoves_empty _ 0 8))

end

/-- Settles O20: without its guard the row has no enabled move, as the empty bundle has none. -/
theorem guardedOffRowsMoveNothing : Obligations.GuardedOffRowsMoveNothing := by
  unfold Obligations.GuardedOffRowsMoveNothing
  intro i s l u op m hm ht hg
  rw [exec_empty hm, exec_trigger ht, runTrigger, State.bundle_of_no_moves _ hm (liveMoves_oneItem_off _ u op m hg)]

/-! ### The end of a bundle, with and without a branch (R36) -/

@[simp] theorem Ctx.endBundle_ctime (x : Ctx) (lp : Bool) : (x.endBundle lp).ctime = x.ctime + 1 := by
  unfold Ctx.endBundle
  dsimp only
  split
  · rfl
  · rfl
  · rfl
  · split <;> rfl

section
variable {x : Ctx}

/-- The first delay bundle of a taken branch leaves it to the second (R36). -/
theorem Ctx.endBundle_firstDelay {target : Word} (h : x.branch = some (1, target)) (lp : Bool) :
    (x.endBundle lp).branch = some (2, target) ∧ (x.endBundle lp).pc = x.pc + 24 := by
  unfold Ctx.endBundle
  dsimp only
  rw [h]
  exact ⟨rfl, rfl⟩

/-- After the second delay bundle of a taken branch the context goes on at the target, with the view without what the branch killed (R36, R37). -/
theorem Ctx.endBundle_secondDelay {target : Word} {w : View} (h : x.branch = some (2, target)) (hfin : x.fin = some w)
    (hfl : w.flights = []) (lp : Bool) :
    x.endBundle lp = { x with cur := w, fin := none, branch := none, pc := target, ctime := x.ctime + 1, started := true } := by
  unfold Ctx.endBundle
  dsimp only
  rw [h, hfin]
  simp [hfl]

end

/-! ### What the resolution of a branch leaves of its context -/

/-- A context whose branch has resolved: releases became final, and what provisional moves kept is gone (R37). -/
def Ctx.Resolved (x y : Ctx) : Prop :=
  ∃ z undo late, x.Released z ∧ (x.releases = [] → z = x) ∧ y = { z with undo := undo, late := late }

theorem Ctx.Resolved.refl (x : Ctx) : x.Resolved x := ⟨x, _, _, .refl x, fun _ => rfl, rfl⟩

theorem Ctx.Resolved.of_released {x y : Ctx} (h : x.Released y) (hnone : x.releases = [] → y = x) : x.Resolved y :=
  ⟨y, _, _, h, hnone, rfl⟩

/-- What a resolution leaves of the course of a context: its place, its time, its branch and its fence. -/
theorem Ctx.Resolved.course {x y : Ctx} (h : x.Resolved y) :
    y.pc = x.pc ∧ y.ctime = x.ctime ∧ y.branch = x.branch ∧ y.fence = x.fence := by
  obtain ⟨_, _, _, ⟨_, _, _, -, rfl⟩, -, rfl⟩ := h
  exact ⟨rfl, rfl, rfl, rfl⟩

/-- Without releases a resolution leaves the registers of a context. -/
theorem Ctx.Resolved.views {x y : Ctx} (h : x.Resolved y) (hrel : x.releases = []) : y.cur = x.cur ∧ y.fin = x.fin := by
  obtain ⟨z, _, _, -, hz, rfl⟩ := h
  rw [hz hrel]
  exact ⟨rfl, rfl⟩

theorem State.resolveCore_resolved (s : State) (l : Loc) (taken : Bool) : (s.ctx l).Resolved ((s.resolveCore l taken).ctx l) := by
  have hrel := State.finalReleases_ctx s l (s.ctx l).ctime
  have hnone (h : (s.ctx l).releases = []) : (s.finalReleases l (s.ctx l).ctime).ctx l = s.ctx l := by
    rw [State.finalReleases_of_none h, State.ctx_setCtx, ← h]
  cases taken with
  | false => exact .of_released hrel hnone
  | true =>
    unfold State.resolveCore
    simp only [if_true, State.ctx_setCtx, State.restoreCore_ctx]
    exact ⟨_, _, _, hrel, hnone, rfl⟩

/-- The state at the end of a bundle without enabled moves, before a branch resolves (R29). -/
def State.unmoved (s : State) (l : Loc) : State :=
  let u := s.setCtx l (s.ctx l).unmarked
  u.setCtx l ((u.ctx l).endBundle (s.ctx l).cur.looping)

theorem State.unmoved_ctx (s : State) (l : Loc) :
    (s.unmoved l).ctx l = (s.ctx l).unmarked.endBundle (s.ctx l).cur.looping := by
  rw [State.unmoved, State.ctx_setCtx, State.ctx_setCtx]

/-- A bundle without enabled moves ends, and the branch that is due resolves (R29, R36). -/
theorem State.perform_nil_resolved {s : State} {l : Loc} (hf : (s.ctx l).fence = []) :
    ((s.unmoved l).ctx l).Resolved ((s.perform opSem l []).ctx l) := by
  generalize ht : (if (s.ctx l).resolving then (s.unmoved l).resolveCore l (s.ctx l).inLastDelay else s.unmoved l) = t
  have hres : ((s.unmoved l).ctx l).Resolved (t.ctx l) := by
    rw [← ht]
    split
    · exact State.resolveCore_resolved _ l _
    · exact .refl _
  obtain ⟨-, -, -, hfence⟩ := hres.course
  have hperform : s.perform opSem l [] = if (t.ctx l).fence.isEmpty || !(t.ctx l).goesOn then t else t.block l .fence := by
    rw [← ht]
    rfl
  have hempty : (t.ctx l).fence.isEmpty = true := by
    rw [hfence, State.unmoved_ctx, Ctx.endBundle_fence]
    exact List.isEmpty_iff.mpr hf
  rw [hperform, hempty]
  exact hres

/-- Settles O8: the empty bundle ends, and its context is that of the bundle's end, resolved where a branch was due. -/
theorem takenBranchResolvesAfterTwoDelayBundles : Obligations.TakenBranchResolvesAfterTwoDelayBundles := by
  unfold Obligations.TakenBranchResolvesAfterTwoDelayBundles
  intro s l hm hf hl
  have hend := State.perform_nil_resolved (s := s.issued l) (l := l) (by rw [State.issued_ctx, hf])
  rw [State.unmoved_ctx, State.issued_ctx, hl] at hend
  obtain ⟨hpc, htime, hbranch, -⟩ := hend.course
  refine ⟨_, exec_empty hm, by rw [htime, Ctx.endBundle_ctime]; rfl, fun h => ?_, fun target h => ?_, fun target w h hfin hfl hrel => ?_⟩
  · rw [hbranch, hpc, Ctx.endBundle_straight (show (s.ctx l).unmarked.branch = none from h)]
    exact ⟨h, rfl⟩
  · rw [hbranch, hpc]
    exact Ctx.endBundle_firstDelay (x := (s.ctx l).unmarked) h false
  · have hsecond := Ctx.endBundle_secondDelay (x := (s.ctx l).unmarked) h hfin hfl false
    obtain ⟨hcur, hfin'⟩ := hend.views (by rw [hsecond]; exact hrel)
    rw [hbranch, hfin', hpc, hcur, hsecond]
    exact ⟨rfl, rfl, rfl, rfl⟩

end Sys2Proof.Machine

/-! # The scalar units, the predicate unit and the immediate unit (O1, O2, O3) -/

namespace Sys2Proof.Machine

/-! ### Operations that give a result and no more -/

/-- An operation without checks of its own that gives a result after some bundles (R30). -/
def OpSem.gives (sm : OpSem) (lat : Nat) (f : Opd → Value) : Prop :=
  ∃ xw ls fs, sm = { OpSem.base with xw := xw, latches := ls, sel := fs, act := fun s l o => s.result l o lat (f o) }

/-- Such an operation completes with its result (R30, R392). -/
theorem exec_gives {i : Instr} {s : State} {l : Loc} {o : Opd} {lat : Nat} {f : Opd → Value} (hr : s.ready l i o)
    (h : (opSem o.op).gives lat f) : exec i s = .next (s.fixedNext l o lat (o.resultEffs (f o) none)) := by
  obtain ⟨xw, ls, fs, hop⟩ := h
  have hpasses : (s.take l).passes l o := by
    rw [State.passes, hop]
    exact ⟨rfl, rfl, rfl, rfl⟩
  exact exec_after hr hpasses (by rw [hop]; rfl) (fun _ => by rw [hop]; rfl) (fun _ => by rw [hop]; rfl) (by rw [hop]; rfl)

/-- The operations of a list whose selector names some files and that consume every latch of theirs refuse a selector that names another
file (R28). -/
theorem selectorsMustName {ops : List (Op × Nat)} {files : List RFile}
    (h : ∀ op ∈ ops.map Prod.fst, (opSem op).sel = some files ∧ (opSem op).outward = false ∧ ∀ x, (opSem op).needs x = true) :
    Spec.SelectorsMustName ops files := by
  unfold Spec.SelectorsMustName
  intro i s l u op m v v' vs r f hm ht hop hslot hg hsrc ha hl hsel hf hn
  obtain ⟨hfiles, hout, hneeds⟩ := h op hop
  exact exec_selector hm ht hslot hg hsrc ha hl hsel hf hn hfiles hout hneeds

/-! ### The arithmetic of the integer operations (R99) -/

theorem Opd.amount_eq (o : Opd) : o.amount = o.b.toNat % 64 := bits_low o.b 5

theorem shiftLeft_eq_ofNat (x : Word) (n : Nat) : x <<< n = BitVec.ofNat 64 (x.toNat * 2 ^ n) := by
  apply BitVec.eq_of_toNat_eq
  rw [BitVec.toNat_shiftLeft, BitVec.toNat_ofNat, Nat.shiftLeft_eq]

theorem ushiftRight_eq_ofNat (x : Word) (n : Nat) : x >>> n = BitVec.ofNat 64 (x.toNat / 2 ^ n) := by
  apply BitVec.eq_of_toNat_eq
  have hlt : x.toNat / 2 ^ n < 2 ^ 64 := (Nat.div_le_self _ _).trans_lt x.isLt
  rw [BitVec.toNat_ushiftRight, Nat.shiftRight_eq_div_pow, BitVec.toNat_ofNat, Nat.mod_eq_of_lt hlt]

theorem sshiftRight_eq_ofInt (x : Word) (n : Nat) : x.sshiftRight n = BitVec.ofInt 64 (x.toInt / 2 ^ n) := by
  rw [BitVec.sshiftRight, Int.shiftRight_eq_div_pow]
  rfl

theorem ite_toInt_le (x b : Word) : (if x.toInt ≤ b.toInt then x else b) = BitVec.ofInt 64 (min x.toInt b.toInt) := by
  rw [min_def]
  split <;> rw [BitVec.ofInt_toInt]

theorem ite_toInt_ge (x b : Word) : (if b.toInt ≤ x.toInt then x else b) = BitVec.ofInt 64 (max x.toInt b.toInt) := by
  rw [max_comm, max_def]
  split <;> rw [BitVec.ofInt_toInt]

theorem ite_toNat_le (x b : Word) : (if x.toNat ≤ b.toNat then x else b) = BitVec.ofNat 64 (min x.toNat b.toNat) := by
  rw [min_def]
  split <;> rw [BitVec.ofNat_toNat, BitVec.setWidth_eq]

theorem ite_toNat_ge (x b : Word) : (if b.toNat ≤ x.toNat then x else b) = BitVec.ofNat 64 (max x.toNat b.toNat) := by
  rw [max_comm, max_def]
  split <;> rw [BitVec.ofNat_toNat, BitVec.setWidth_eq]

/-- The zeros that lead are those of the bits taken from the top. -/
theorem leadingZeros_eq (x : Word) (n : Nat) :
    leadingZeros x n = ((List.range n).takeWhile fun i => !x.getLsbD (n - 1 - i)).length := by
  induction n with
  | zero => rfl
  | succ n ih =>
    rw [leadingZeros, ih, List.range_succ_eq_map, List.takeWhile_cons, List.takeWhile_map, bit]
    cases h : x.getLsbD n <;> simp [h, Function.comp_def, Nat.sub_sub, Nat.add_comm]

theorem trailingZeros_eq (x : Word) (i n : Nat) :
    trailingZeros x i n = ((List.range n).takeWhile fun j => !x.getLsbD (i + j)).length := by
  induction n generalizing i with
  | zero => rfl
  | succ n ih =>
    rw [trailingZeros, ih, List.range_succ_eq_map, List.takeWhile_cons, List.takeWhile_map, bit, Nat.add_zero]
    cases x.getLsbD i <;> simp [Function.comp_def, Nat.add_assoc, Nat.add_comm 1]

theorem popCount_eq (x : Word) (n : Nat) : popCount x n = ((List.range n).filter fun i => x.getLsbD i).length := by
  induction n with
  | zero => rfl
  | succ n ih =>
    rw [popCount, ih, List.range_succ, List.filter_append, List.length_append, Nat.add_comm, bit]
    cases h : x.getLsbD n <;> simp [h, b2n]

theorem signExtend_low (x : Word) (w : Nat) :
    BitVec.ofInt 64 (signedLow x (w + 1)) = (x.setWidth (w + 1)).signExtend 64 := by
  rw [BitVec.signExtend, BitVec.toInt_eq_toNat_cond, BitVec.toNat_setWidth, signedLow, Nat.add_sub_cancel, Nat.pow_succ]
  split <;> split <;> first | rfl | omega

theorem zeroExtend_low (x : Word) (w : Nat) : BitVec.ofNat 64 (x.toNat % 2 ^ w) = (x.setWidth w).setWidth 64 := by
  apply BitVec.eq_of_toNat_eq
  simp

theorem ite_truth (x b c : Word) : (if truth x then b else c) = if x = 0 then c else b := by
  by_cases h : x = 0 <;> simp [truth, h]

/-- Every integer operation is one shape, with the result and the latency of the table (R99). -/
theorem opSem_of_integer {op : Op} {x b c r : Word} {lat : Nat} (h : Spec.integer op x b c = some (r, lat)) :
    ∃ ls f, opSem op = intSem lat ls f ∧ ∀ o : Opd, o.xw = x → o.b = b → o.c = c → f o = r := by
  cases op <;> cases h
  case shl => exact ⟨_, _, rfl, fun o hx hb _ => by rw [hx, Opd.amount_eq, hb, shiftLeft_eq_ofNat]⟩
  case shr => exact ⟨_, _, rfl, fun o hx hb _ => by rw [hx, Opd.amount_eq, hb, ushiftRight_eq_ofNat]⟩
  case sar => exact ⟨_, _, rfl, fun o hx hb _ => by rw [hx, Opd.amount_eq, hb, sshiftRight_eq_ofInt]⟩
  case min => exact ⟨_, _, rfl, fun o hx hb _ => by rw [hx, hb]; exact ite_toInt_le x b⟩
  case max => exact ⟨_, _, rfl, fun o hx hb _ => by rw [hx, hb]; exact ite_toInt_ge x b⟩
  case minn => exact ⟨_, _, rfl, fun o hx hb _ => by rw [hx, hb, ite_toNat_le]⟩
  case maxn => exact ⟨_, _, rfl, fun o hx hb _ => by rw [hx, hb, ite_toNat_ge]⟩
  case clz => exact ⟨_, _, rfl, fun o hx _ _ => by rw [hx, leadingZeros_eq]⟩
  case ctz => exact ⟨_, _, rfl, fun o hx _ _ => by rw [hx, trailingZeros_eq]; simp only [Nat.zero_add]⟩
  case popc => exact ⟨_, _, rfl, fun o hx _ _ => by rw [hx, popCount_eq]⟩
  case sext => exact ⟨_, _, rfl, fun o hx hb _ => by rw [hx, Opd.amount_eq, hb, signExtend_low]⟩
  case zext => exact ⟨_, _, rfl, fun o hx hb _ => by rw [hx, Opd.amount_eq, hb, zeroExtend_low]⟩
  case sel => exact ⟨_, _, rfl, fun o hx hb hc => by rw [hx, hb, hc, ite_truth]⟩
  all_goals exact ⟨_, _, rfl, fun o hx hb _ => by rw [hx, hb] <;> rfl⟩

/-- The operations that the codes of R99 name are those of the table. -/
theorem integer_of_code : ∀ op ∈ Spec.integerCodes.map Prod.fst, (Spec.integer op 0 0 0).isSome = true := by
  decide

/-- Settles O1: every integer operation is one shape without checks of its own, and its result is that of the table. -/
theorem integerOperationsGiveTheTableResult : Obligations.IntegerOperationsGiveTheTableResult := by
  unfold Obligations.IntegerOperationsGiveTheTableResult
  refine ⟨fun i s l o r lat hr h => ?_, selectorsMustName fun op hop => ?_, ?_⟩
  · obtain ⟨ls, f, hsem, hf⟩ := opSem_of_integer h
    rw [← hf o rfl rfl rfl]
    exact exec_gives hr (f := fun o => .word (f o)) ⟨_, _, _, hsem⟩
  · obtain ⟨⟨r, lat⟩, h⟩ := Option.isSome_iff_exists.mp (integer_of_code op hop)
    obtain ⟨ls, f, hsem, -⟩ := opSem_of_integer h
    rw [hsem]
    exact ⟨rfl, rfl, fun _ => rfl⟩
  · unfold Spec.CodesOfSx
    decide

/-! ### The fields of a capability (R101) -/

theorem Cap.base_eq (x : Cap) : x.base = (x.raw.extractLsb' 0 57).toNat := bits_eq_toNat_extractLsb' x.raw 56 0

theorem Cap.len_eq (x : Cap) : x.len = (x.raw.extractLsb' 57 48).toNat := bits_eq_toNat_extractLsb' x.raw 104 57

theorem Cap.tenant_eq (x : Cap) : x.tenant = (x.raw.extractLsb' 113 8).toNat := bits_eq_toNat_extractLsb' x.raw 120 113

theorem Cap.perm_eq (x : Cap) : x.perm = x.raw.extractLsb' 105 8 := by
  rw [Cap.perm, bits_eq_toNat_extractLsb']
  exact (BitVec.ofNat_toNat ..).trans (BitVec.setWidth_eq _)

theorem Cap.isSealed_eq (x : Cap) : x.isSealed = (x.raw.extractLsb' 105 8).getLsbD 6 := by
  rw [Cap.isSealed, Cap.perm_eq]
  rfl

/-- Two bit vectors one above the other, as a number. -/
theorem toNat_append_eq_add {n m : Nat} (x : BitVec n) (y : BitVec m) : (x ++ y).toNat = x.toNat * 2 ^ m + y.toNat := by
  rw [BitVec.toNat_append, ← Nat.shiftLeft_add_eq_or_of_lt y.isLt, Nat.shiftLeft_eq]

/-- The fields of a capability stand one above the other (R101). -/
theorem Cap.make_eq (base len : Nat) (perm tenant : Byte) :
    Cap.make base len perm tenant.toNat = Spec.capability (BitVec.ofNat 57 base) (BitVec.ofNat 57 len) perm tenant := by
  have hraw : BitVec.ofNat 128 (base % 2 ^ 57 + (len % 2 ^ 48) * 2 ^ 57 + perm.toNat * 2 ^ 105 + (tenant.toNat % 256) * 2 ^ 113) =
      (0 : BitVec 7) ++ tenant ++ perm ++ (BitVec.ofNat 57 len).setWidth 48 ++ BitVec.ofNat 57 base := by
    apply BitVec.eq_of_toNat_eq
    simp only [toNat_append_eq_add, BitVec.toNat_ofNat, BitVec.toNat_setWidth]
    have hzero : (0 : BitVec 7).toNat = 0 := rfl
    have := tenant.isLt
    have := perm.isLt
    omega
  exact congrArg (Cap.mk · true) hraw

/-- A capability with other bounds keeps its rights and its tenant. -/
theorem Cap.cover_eq (x : Cap) (base len : Nat) :
    x.cover base len = Spec.capability (BitVec.ofNat 57 base) (BitVec.ofNat 57 len) (x.raw.extractLsb' 105 8) (x.raw.extractLsb' 113 8) := by
  rw [Cap.cover, Cap.tenant_eq, Cap.perm_eq, Cap.make_eq]

/-- A capability with other rights keeps its bounds and its tenant. -/
theorem Cap.permit_eq (x : Cap) (perm : Byte) :
    x.permit perm =
      Spec.capability (x.raw.extractLsb' 0 57) ((x.raw.extractLsb' 57 48).setWidth 57) perm (x.raw.extractLsb' 113 8) := by
  rw [Cap.permit, Cap.tenant_eq, Cap.make_eq, Cap.base_eq, Cap.len_eq, BitVec.ofNat_toNat, BitVec.ofNat_toNat, BitVec.setWidth_eq]

/-- The bounds of a capability that begins at an offset. -/
theorem Cap.cover_offset (x : Cap) (b : Word) (len : Nat) :
    x.cover (x.base + b.toNat) len = Spec.capability (x.raw.extractLsb' 0 57 + b.setWidth 57) (BitVec.ofNat 57 len)
      (x.raw.extractLsb' 105 8) (x.raw.extractLsb' 113 8) := by
  rw [Cap.cover_eq, BitVec.ofNat_add, Cap.base_eq, BitVec.ofNat_toNat, BitVec.ofNat_toNat, BitVec.setWidth_eq]

/-- The length that is left after an offset. -/
theorem ofNat_sub_toNat {n : BitVec 48} {b : Word} (h : b.toNat ≤ n.toNat) :
    BitVec.ofNat 57 (n.toNat - b.toNat) = n.setWidth 57 - b.setWidth 57 := by
  apply BitVec.eq_of_toNat_eq
  have := n.isLt
  rw [BitVec.toNat_ofNat, BitVec.toNat_sub, BitVec.toNat_setWidth, BitVec.toNat_setWidth]
  omega

/-! ### Derivations (R105) -/

/-- A derivation comes out as its rule says: with the capability where no requirement fails, else with the fault of a cause. -/
def Derives (fault : Option Trap) (y : Cap) : Except Nat Cap → Prop
  | .ok z => fault = none ∧ y = z
  | .error c => fault = some (capTrap c 0)

/-- The tag and the seal are the first requirements (R105). -/
theorem derives_operand {x y : Cap} {fault : Option Trap} {r : Except Nat Cap} (want : Bool) (h : Derives fault y r) :
    Derives ((capOperand x want).or fault) y
      (if !x.tag then .error 1 else if (x.raw.extractLsb' 105 8).getLsbD 6 != want then .error 2 else r) := by
  unfold capOperand
  rw [Cap.isSealed_eq]
  cases x.tag
  · rfl
  · cases (x.raw.extractLsb' 105 8).getLsbD 6 != want
    · exact h
    · rfl

theorem derives_of_unsealed {x y : Cap} {fault : Option Trap} {r : Except Nat Cap} (h : Derives fault y r) :
    Derives ((capOperand x false).or fault) y
      (if !x.tag then .error 1 else if (x.raw.extractLsb' 105 8).getLsbD 6 then .error 2 else r) := by
  have hf := derives_operand (x := x) false h
  rwa [Bool.bne_false] at hf

theorem derives_of_sealed {x y : Cap} {fault : Option Trap} {r : Except Nat Cap} (h : Derives fault y r) :
    Derives ((capOperand x true).or fault) y
      (if !x.tag then .error 1 else if !(x.raw.extractLsb' 105 8).getLsbD 6 then .error 2 else r) := by
  have hf := derives_operand (x := x) true h
  rwa [Bool.bne_true] at hf

theorem derives_bounds {p : Prop} [Decidable p] {y z : Cap} (h : p → y = z) :
    Derives (boundsUnless (decide p)) y (if p then .ok z else .error 5) := by
  by_cases hp : p
  · simp [Derives, boundsUnless, hp, h hp]
  · simp [Derives, boundsUnless, hp]

theorem derives_always {y z : Cap} (h : y = z) : Derives none y (.ok z) := ⟨rfl, h⟩

/-- What CUNSEAL requires of its authority (R105). -/
theorem authorises_iff (k x : Cap) : authorises k x = true ↔
    k.tag ∧ (k.raw.extractLsb' 105 8).getLsbD 6 = false ∧ k.raw.extractLsb' 113 8 = x.raw.extractLsb' 113 8 ∧
      (k.raw.extractLsb' 0 57).toNat ≤ (x.raw.extractLsb' 0 57).toNat ∧
      (x.raw.extractLsb' 0 57).toNat + (x.raw.extractLsb' 57 48).toNat ≤ (k.raw.extractLsb' 0 57).toNat + (k.raw.extractLsb' 57 48).toNat ∧
      x.raw.extractLsb' 105 8 &&& ~~~(k.raw.extractLsb' 105 8) &&& 0x8F = 0 ∧
      k.raw.extractLsb' 105 8 &&& ~~~(x.raw.extractLsb' 105 8) &&& 0x30 = 0 := by
  simp only [authorises, Cap.isSealed_eq, Cap.perm_eq, Cap.tenant_eq, Cap.base_eq, Cap.len_eq, Bool.and_eq_true, beq_iff_eq,
    decide_eq_true_eq, Bool.not_eq_true', BitVec.toNat_inj, and_assoc]

theorem derives_authorised {x k y z : Cap} {p : Prop} [Decidable p] (hp : authorises k x = true ↔ p) (h : y = z) :
    Derives (if authorises k x then none else some (capTrap 4 0)) y (if p then .ok z else .error 4) := by
  by_cases hk : p
  · rw [if_pos hk, if_pos (hp.mpr hk)]
    exact ⟨rfl, h⟩
  · rw [if_neg hk, if_neg (mt hp.mp hk)]
    rfl

/-- Every deriving operation is one shape, whose fault and whose result are those of its rule (R105). -/
theorem opSem_of_derive {op : Op} {x k : Cap} {b c : Word} {r : Except Nat Cap} (h : Spec.derive op x b c k = some r) :
    ∃ ls want check f ps, opSem op = { capSem ls want check f with parts := ps } ∧
      ∀ o : Opd, o.xc = x → o.b = b → o.c = c → o.k = k → Derives ((capOperand o.xc want).or (check o)) (f o) r := by
  cases op <;> cases h
  case cderive =>
    refine ⟨_, _, _, _, _, rfl, fun o hx hb hc _ => ?_⟩
    rw [hx, hb, hc, Cap.len_eq, Cap.cover_offset, BitVec.ofNat_toNat]
    exact derives_of_unsealed (derives_bounds fun _ => rfl)
  case cnarrow =>
    refine ⟨_, _, _, _, _, rfl, fun o hx hb _ _ => ?_⟩
    rw [hx, hb, Cap.len_eq, Cap.cover_eq, Cap.base_eq, BitVec.ofNat_toNat, BitVec.ofNat_toNat, BitVec.setWidth_eq]
    exact derives_of_unsealed (derives_bounds fun _ => rfl)
  case cinc =>
    refine ⟨_, _, _, _, _, rfl, fun o hx hb _ _ => ?_⟩
    rw [hx, hb, Cap.len_eq, Cap.cover_offset]
    exact derives_of_unsealed (derives_bounds fun hle => by rw [ofNat_sub_toNat hle])
  case crestrict =>
    refine ⟨_, _, _, _, _, rfl, fun o hx hb _ _ => ?_⟩
    rw [hx, hb, Cap.permit_eq, Cap.perm_eq]
    exact derives_of_unsealed (derives_always rfl)
  case cseal =>
    refine ⟨_, _, _, _, _, rfl, fun o hx _ _ _ => ?_⟩
    rw [hx, Cap.permit_eq, Cap.perm_eq]
    exact derives_of_unsealed (derives_always rfl)
  case cunseal =>
    refine ⟨_, _, _, _, _, rfl, fun o hx _ _ hk => ?_⟩
    rw [hx, hk, Cap.permit_eq, Cap.perm_eq]
    exact derives_of_sealed (derives_authorised (authorises_iff k x) rfl)

/-- The operations that the codes of R105 name are those of its table. -/
theorem derive_of_code :
    ∀ op ∈ Spec.deriveCodes.map Prod.fst, (Spec.derive op ⟨0, false⟩ 0 0 ⟨0, false⟩).isSome = true := by
  decide

theorem capSem_capability (ls : List (Nat × Width)) (want : Bool) (check : Opd → Option Trap) (f : Opd → Cap) (s : State) (l : Loc)
    (o : Opd) : (capSem ls want check f).capability s l o = (capOperand o.xc want).or (check o) := by
  change (match capOperand o.xc want with | some t => some t | none => check o) = _
  cases capOperand o.xc want <;> rfl

/-- Settles O2: the fault of a derivation is the first requirement that fails, and without one the operation gives its capability. -/
theorem capabilityDerivationsOrTheirFault : Obligations.CapabilityDerivationsOrTheirFault := by
  unfold Obligations.CapabilityDerivationsOrTheirFault
  refine ⟨fun i s l o r hr h => ?_, selectorsMustName fun op hop => ?_, ?_⟩
  · obtain ⟨ls, want, check, f, ps, hsem, hout⟩ := opSem_of_derive h
    have hcap : (opSem o.op).capability (s.take l) l o = (capOperand o.xc want).or (check o) := by
      rw [hsem]
      exact capSem_capability ls want check f (s.take l) l o
    specialize hout o rfl rfl rfl rfl
    cases r with
    | ok y =>
      obtain ⟨hnone, rfl⟩ := hout
      have hpasses : (s.take l).passes l o := by
        rw [State.passes, hcap, hsem]
        exact ⟨rfl, rfl, hnone, rfl⟩
      exact exec_after hr hpasses (by rw [hsem]; rfl) (fun _ => by rw [hsem]; rfl) (fun _ => by rw [hsem]; rfl) (by rw [hsem]; rfl)
    | error c => exact fun hp => exec_capability hr hp (by rw [hsem]; rfl) (by rw [hsem]; rfl) (hcap.trans hout)
  · obtain ⟨r, h⟩ := Option.isSome_iff_exists.mp (derive_of_code op hop)
    obtain ⟨ls, want, check, f, ps, hsem, -⟩ := opSem_of_derive h
    rw [hsem]
    exact ⟨rfl, rfl, fun _ => rfl⟩
  · unfold Spec.CodesOfSx
    decide

/-! ### Tests, inspections and immediates (R100, R106, R107, R109) -/

theorem truth_eq (x : Word) : truth x = decide (x ≠ 0) := decide_not.symm

/-- Every compare is one shape with the relation of the table (R100). -/
theorem opSem_of_relation {op : Op} {x b : Word} {r : Bool} (h : Spec.relation op x b = some r) :
    ∃ f, opSem op = cmpSem f ∧ f x b = r := by
  cases op <;> cases h
  case cmpeq => exact ⟨_, opSem_cmpeq, rfl⟩
  case cmpne => exact ⟨_, opSem_cmpne, decide_not.symm⟩
  case cmplt => exact ⟨_, opSem_cmplt, rfl⟩
  case cmple => exact ⟨_, opSem_cmple, rfl⟩
  case cmpltn => exact ⟨_, opSem_cmpltn, rfl⟩
  case cmplen => exact ⟨_, opSem_cmplen, rfl⟩

/-- Every predicate operation is one shape with the result of the table (R107). -/
theorem opSem_of_predicate {op : Op} {x b : Word} {r : Bool} (h : Spec.predicate op x b = some r) :
    ∃ ls f, opSem op = predSem ls f ∧ ∀ o : Opd, o.xw = x → o.b = b → f o = r := by
  cases op <;> cases h
  case pset => exact ⟨_, _, rfl, fun o hx hb => by rw [hx, Opd.amount_eq, hb]; rfl⟩
  all_goals
    refine ⟨_, _, rfl, ?_⟩
    rintro o rfl rfl
    simp only [truth_eq]

theorem comparesAndPredicatesGiveZeroOrOne : Spec.ComparesAndPredicatesGiveZeroOrOne := by
  unfold Spec.ComparesAndPredicatesGiveZeroOrOne
  intro i s l o r hr h
  obtain h | h := h
  · obtain ⟨f, hsem, rfl⟩ := opSem_of_relation h
    exact exec_gives hr (f := fun o => .word (boolWord (f o.xw o.b))) ⟨_, _, _, hsem⟩
  · obtain ⟨ls, f, hsem, hf⟩ := opSem_of_predicate h
    rw [← hf o rfl rfl]
    exact exec_gives hr (f := fun o => .word (boolWord (f o))) ⟨_, _, _, hsem⟩

/-- PERM, TENANT and the tag of a capability, one above the other (R106). -/
theorem ofNat_perm_tenant_tag (x : Cap) :
    BitVec.ofNat 64 (x.perm.toNat + x.tenant * 2 ^ 8 + b2n x.tag * 2 ^ 16) =
      (BitVec.ofBool x.tag ++ x.raw.extractLsb' 113 8 ++ x.raw.extractLsb' 105 8 : BitVec 17).setWidth 64 := by
  have htag : (BitVec.ofBool x.tag).toNat = b2n x.tag := by cases x.tag <;> rfl
  apply BitVec.eq_of_toNat_eq
  rw [BitVec.toNat_ofNat, BitVec.toNat_setWidth, toNat_append_eq_add, toNat_append_eq_add, htag, Cap.perm_eq, Cap.tenant_eq]
  omega

/-- Every inspection is one shape with the field that it reads (R106). -/
theorem opSem_of_inspect {op : Op} {x : Cap} {r : Word} (h : Spec.inspect op x = some r) :
    ∃ files f, opSem op = capRead files f ∧ f x = r := by
  cases op <;> cases h
  case cbase => exact ⟨_, _, opSem_cbase, (congrArg (BitVec.ofNat 64) x.base_eq).trans (BitVec.ofNat_toNat ..)⟩
  case clen => exact ⟨_, _, opSem_clen, (congrArg (BitVec.ofNat 64) x.len_eq).trans (BitVec.ofNat_toNat ..)⟩
  case cperm => exact ⟨_, _, opSem_cperm, ofNat_perm_tenant_tag x⟩
  case cvalid => exact ⟨_, _, opSem_cvalid, rfl⟩

theorem capabilityInspectionsNeverFault : Spec.CapabilityInspectionsNeverFault := by
  unfold Spec.CapabilityInspectionsNeverFault
  intro i s l o r hr h
  obtain ⟨files, f, hsem, rfl⟩ := opSem_of_inspect h
  exact exec_gives hr (f := fun o => .word (f o.xc)) ⟨_, _, _, hsem⟩

/-- The low halves of two words, one above the other (R109). -/
theorem ofNat_halves (x b : Word) :
    BitVec.ofNat 64 (x.toNat % 2 ^ 32 * 2 ^ 32 + b.toNat % 2 ^ 32) = (x.setWidth 32 ++ b.setWidth 32 : BitVec 64) := by
  apply BitVec.eq_of_toNat_eq
  rw [BitVec.toNat_ofNat, toNat_append_eq_add, BitVec.toNat_setWidth, BitVec.toNat_setWidth]
  omega

theorem immediateOperationsDeliverConstants : Spec.ImmediateOperationsDeliverConstants := by
  unfold Spec.ImmediateOperationsDeliverConstants
  intro i s l o hr
  refine ⟨fun hop => ?_, fun hop => ?_⟩
  · exact exec_gives hr (f := fun o => .word o.xw) (by rw [hop]; exact ⟨_, _, _, rfl⟩)
  · rw [← ofNat_halves]
    exact exec_gives hr (f := fun o => .word (BitVec.ofNat 64 (o.xw.toNat % 2 ^ 32 * 2 ^ 32 + o.b.toNat % 2 ^ 32)))
      (by rw [hop]; exact ⟨_, _, _, rfl⟩)

/-- Settles O3: each operation gives its result, and no check of its own can fail. -/
theorem scalarTestsInspectionsAndImmediatesGiveTheirResult : Obligations.ScalarTestsInspectionsAndImmediatesGiveTheirResult := by
  unfold Obligations.ScalarTestsInspectionsAndImmediatesGiveTheirResult
  exact ⟨comparesAndPredicatesGiveZeroOrOne, capabilityInspectionsNeverFault, immediateOperationsDeliverConstants⟩

end Sys2Proof.Machine

/-! # Loop replay (O9) -/

namespace Sys2Proof.Machine

/-! ### What MARK accepts and refuses (R113) -/

/-- A loop word that MARK refuses (R113). -/
theorem loopWordBad_eq_true {x : Word}
    (h : (x.extractLsb' 25 24).toNat = 0 ∨ x.extractLsb' 49 15 ≠ 0 ∨
      (0 < (x.extractLsb' 6 5).toNat ∧ ((x.extractLsb' 11 7).toNat = 0 ∨
        127 < (x.extractLsb' 11 7).toNat + (x.extractLsb' 6 5).toNat - 1 ∨ (x.extractLsb' 25 24).toNat < (x.extractLsb' 6 5).toNat)) ∨
      (x.getLsbD 24 = true ∧ 58 < (x.extractLsb' 18 6).toNat)) : loopWordBad x = true := by
  have hzero : x.extractLsb' 49 15 ≠ 0 → bits x 63 49 ≠ 0 := fun hne e =>
    hne (BitVec.eq_of_toNat_eq ((bits_eq_toNat_extractLsb' x 63 49).symm.trans e))
  unfold loopWordBad
  simp only [bits_eq_toNat_extractLsb' x 10 6, bits_eq_toNat_extractLsb' x 17 11, bits_eq_toNat_extractLsb' x 48 25,
    bits_eq_toNat_extractLsb' x 23 18, bit, Bool.or_eq_true, Bool.and_eq_true, beq_iff_eq, bne_iff_ne, decide_eq_true_eq]
  obtain h | h | ⟨h, hstages⟩ | h := h
  · exact .inl (.inl (.inl h))
  · exact .inl (.inl (.inr (hzero h)))
  · exact .inl (.inr ⟨h, or_assoc.mpr hstages⟩)
  · exact .inr h

theorem markRefusesBadLoopWords : Spec.MarkRefusesBadLoopWords := by
  unfold Spec.MarkRefusesBadLoopWords
  intro i s l o hr hop stages sp wb passes hbad
  refine exec_encoding hr ?_
  rw [hop, opSem_mark]
  exact if_pos (loopWordBad_eq_true hbad)

/-! ### What MARK writes (R112, R113) -/

/-- The loop word loses no bit in LOOPWD where its reserved bits are 0. -/
theorem loopWord_and_mask {x : Word} (h : x.extractLsb' 49 15 = 0) : x &&& 0x1FFFFFFFFFFFF = x := by
  have hbits : bits x 63 49 = 0 := (bits_eq_toNat_extractLsb' x 63 49).trans (congrArg BitVec.toNat h)
  apply BitVec.eq_of_toNat_eq
  rw [BitVec.toNat_and]
  exact (Nat.and_two_pow_sub_one_eq_mod x.toNat 49).trans (Nat.mod_eq_of_lt (bits_eq_zero_iff.mp hbits))

theorem View.pred_setPred_self (w : View) {n : Nat} (h : n ≠ 0) (hn : n < 128) (b : Bool) : (w.setPred n b).pred n = b := by
  rw [View.setPred, if_neg h, View.pred, beq_false_of_ne h, Bool.false_or]
  exact getLsbD_putBit_self _ hn b

@[simp] theorem View.setPred_looping (w : View) (n : Nat) (b : Bool) : (w.setPred n b).looping = w.looping := by
  unfold View.setPred
  split <;> rfl

@[simp] theorem View.writeReg_looping (w : View) (f : RFile) (n : Nat) (v : Value) (m : Option Mask) :
    (w.writeReg f n v m).looping = w.looping := by
  cases f with
  | p => exact View.setPred_looping ..
  | _ => rfl

/-- The stage predicates from one on, the first 1 and the others 0 (R112). -/
def stageEffs (sp n : Nat) : List Eff := (List.range n).map fun j => .reg .p (sp + j) (.word (boolWord (j == 0))) none

theorem View.stageEffs_keep (h : Bool) (w : View) (sp n : Nat) :
    ((stageEffs sp n).foldl (View.effect h) w).ctl = w.ctl ∧ ((stageEffs sp n).foldl (View.effect h) w).looping = w.looping := by
  unfold stageEffs
  refine List.foldlRecOn _ _ (motive := fun v : View => v.ctl = w.ctl ∧ v.looping = w.looping) ⟨rfl, rfl⟩ fun v ⟨hctl, hloop⟩ e he => ?_
  obtain ⟨j, -, rfl⟩ := List.mem_map.mp he
  exact ⟨(View.writeReg_ctl ..).trans hctl, (View.writeReg_looping ..).trans hloop⟩

theorem View.stageEffs_pred (h : Bool) (w : View) {sp n j : Nat} (hsp : sp ≠ 0) (hn : sp + n ≤ 128) (hj : j < n) :
    ((stageEffs sp n).foldl (View.effect h) w).pred (sp + j) = decide (j = 0) := by
  induction n with
  | zero => exact absurd hj (Nat.not_lt_zero j)
  | succ n ih =>
    have hlast : (stageEffs sp (n + 1)).foldl (View.effect h) w =
        ((stageEffs sp n).foldl (View.effect h) w).setPred (sp + n) (boolWord (n == 0) != 0) := by
      simp [stageEffs, List.range_succ, View.effect, View.writeReg, Value.toWord]
    rw [hlast]
    by_cases hjn : j = n
    · subst hjn
      rw [View.pred_setPred_self _ (by omega) (by omega)]
      cases j <;> rfl
    · rw [View.pred_setPred_ne _ (by omega)]
      exact ih (by omega) (by omega)

/-- A view in which the effects of a MARK with an accepted loop word have taken place (R112). -/
theorem View.markEffs_spec (h : Bool) (w : View) {x sw : Word} (hzero : x.extractLsb' 49 15 = 0)
    (hstages : (x.extractLsb' 6 5).toNat ≠ 0 → (x.extractLsb' 11 7).toNat ≠ 0 ∧
      (x.extractLsb' 11 7).toNat + (x.extractLsb' 6 5).toNat ≤ 128) :
    let v := (markEffs x sw).foldl (View.effect h) w
    v.looping = true ∧ v.ctl.loopwd = x ∧ v.ctl.loopsw = sw ∧ v.ctl.loopst = 0x40000000 ∧ v.ctl.loopcnt = 0 ∧
      ∀ j, j < (x.extractLsb' 6 5).toNat → v.pred ((x.extractLsb' 11 7).toNat + j) = decide (j = 0) := by
  intro v
  let w5 : View := [Eff.ctl 0x00C x, .ctl 0x00D sw, .ctl 0x00E 0x40000000, .ctl 0x00F 0, .startLoop].foldl (View.effect h) w
  have hv : v = (stageEffs (x.extractLsb' 11 7).toNat (x.extractLsb' 6 5).toNat).foldl (View.effect h) w5 := by
    rw [← bits_eq_toNat_extractLsb' x 10 6, ← bits_eq_toNat_extractLsb' x 17 11]
    exact List.foldl_append
  obtain ⟨hctl, hloop⟩ := View.stageEffs_keep h w5 (x.extractLsb' 11 7).toNat (x.extractLsb' 6 5).toNat
  rw [← hv] at hctl hloop
  rw [hctl, hloop]
  refine ⟨rfl, (loopWord_and_mask hzero : _), rfl, rfl, rfl, fun j hj => ?_⟩
  obtain ⟨hsp, hfit⟩ := hstages (by omega)
  rw [hv]
  exact View.stageEffs_pred h w5 hsp hfit hj

/-- The context after a straight bundle of latency 1: its effects are the last that land (R30). -/
theorem Ctx.afterFixed_straight {x : Ctx} (hx : x.straight) (vc : Nat) (o : Opd) (effs : List Eff) :
    (x.afterFixed vc o 1 effs).pc = x.pc + 24 ∧
      ∃ w, (x.afterFixed vc o 1 effs).cur = effs.foldl (View.effect x.cur.inHandler) w := by
  obtain ⟨hb, -, hl⟩ := hx
  let f : Flight := ⟨x.ctime + 1 - 1, o.s, x.cur.inHandler, effs⟩
  have hend := Ctx.endBundle_straight (x := x.unmarked.onView o.prov fun w =>
    ({ w with flights := w.flights ++ [f] } : View).increment (opSem o.op) vc o.unit o.x) hb
  have hland := View.land_of_append (f := f) (t := x.ctime)
    (View.increment_flights { x.cur with flights := x.cur.flights ++ [f] } (opSem o.op) vc o.unit o.x) (Nat.le_refl _)
  rw [Ctx.afterFixed, hl, hend]
  exact ⟨rfl, _, hland⟩

theorem mark_passes {s : State} {l : Loc} {o : Opd} (hs : (s.ctx l).straight) (hop : o.op = .mark) (hword : loopWordBad o.xw = false) :
    (s.take l).passes l o := by
  obtain ⟨hb, -, hl⟩ := hs
  rw [State.passes, hop, opSem_mark]
  refine ⟨?_, ?_, rfl, rfl⟩
  · change (if loopWordBad o.xw then some 29 else none) = none
    rw [hword]
    rfl
  · change branchPlace (s.take l) l o = none
    simp [branchPlace, Ctx.inDelay, hb, hl]

theorem markStartsLoopReplay : Spec.MarkStartsLoopReplay := by
  unfold Spec.MarkStartsLoopReplay
  intro i s l o hr hstraight hop stages sp wb passes hpasses hzero hstages hwalker
  have hp := mark_passes hstraight hop (loopWordBad_eq_false hpasses hzero hstages hwalker)
  have hexec : exec i s = .next (s.fixedNext l o 1 (markEffs o.xw o.b)) :=
    exec_after hr hp (by rw [hop]; rfl) (fun _ => by rw [hop]; rfl) (fun _ => by rw [hop]; rfl) (by rw [hop]; rfl)
  obtain ⟨hpc, w, hcur⟩ := Ctx.afterFixed_straight hstraight ((s.core l.core).vcount l.ctx) o (markEffs o.xw o.b)
  refine ⟨_, hexec, ?_⟩
  rw [State.fixedNext, State.ctx_setCtx, hpc, hcur]
  exact ⟨rfl, View.markEffs_spec _ w hzero fun h => ⟨(hstages h).1, (hstages h).2.1⟩⟩

/-! ### The boundaries of a loop body (R112, R115) -/

/-- The end of a bundle of a loop body at which nothing is in flight. -/
theorem Ctx.endBundle_looping {x : Ctx} (hb : x.branch = none) (hfl : x.cur.flights = []) :
    (x.endBundle true).cur = (x.cur.loopBoundary x.pc).1 ∧ (x.endBundle true).pc = (x.cur.loopBoundary x.pc).2 := by
  unfold Ctx.endBundle
  dsimp only
  rw [hb, View.land_of_none hfl]
  exact ⟨rfl, rfl⟩

/-- A resolution leaves the control registers and the replay of its context. -/
theorem Ctx.Resolved.loop {x y : Ctx} (h : x.Resolved y) : y.cur.ctl = x.cur.ctl ∧ y.cur.looping = x.cur.looping := by
  obtain ⟨_, _, _, ⟨_, _, _, -, rfl⟩, -, rfl⟩ := h
  exact ⟨rfl, rfl⟩

/-- Another pass goes on with the replay (R115). -/
theorem View.nextPass_looping (w : View) : w.nextPass.looping = w.looping := by
  have hmoved (js : List Nat) (sp stages : Nat) : (js.foldl (fun (acc : View) j =>
      acc.setPred (sp + (stages - 1 - j)) (acc.pred (sp + (stages - 1 - j) - 1))) w).looping = w.looping :=
    List.foldlRecOn js _ (motive := fun v : View => v.looping = w.looping) rfl fun v hv j _ => (View.setPred_looping ..).trans hv
  unfold View.nextPass
  dsimp only
  split
  · rw [View.writeReg_looping]
    dsimp only
    split
    · rw [View.setPred_looping, hmoved]
    · rfl
  · split
    · rw [View.setPred_looping, hmoved]
    · rfl

/-- LOOPST at the start of a pass: BIDX is 0, PASS its number and ACTIVE 1 (R115). -/
theorem loopst_of_pass {n : Nat} (h : n < 2 ^ 24) :
    let x := BitVec.ofNat 64 (n * 2 ^ 6 + 2 ^ 30)
    x.extractLsb' 0 6 = 0 ∧ (x.extractLsb' 6 24).toNat = n ∧ x.getLsbD 30 = true := by
  intro x
  have hx : x.toNat = n * 2 ^ 6 + 2 ^ 30 := by
    rw [BitVec.toNat_ofNat]
    omega
  refine ⟨BitVec.eq_of_toNat_eq ?_, ?_, ?_⟩
  · rw [BitVec.extractLsb'_toNat, hx, Nat.shiftRight_zero]
    change (n * 2 ^ 6 + 2 ^ 30) % 2 ^ 6 = 0
    omega
  · rw [BitVec.extractLsb'_toNat, hx, Nat.shiftRight_eq_div_pow]
    omega
  · rw [← BitVec.testBit_toNat, hx, Nat.add_comm, Nat.testBit_two_pow_add_eq, Nat.testBit_lt_two_pow (by omega)]
    rfl

theorem getLsbD_loopst_ended (x : Word) : (x &&& ~~~0x40000000).getLsbD 30 = false := by
  rw [BitVec.getLsbD_and, BitVec.getLsbD_not]
  simp

theorem loopBoundariesFollowTheBodyCount : Spec.LoopBoundariesFollowTheBodyCount := by
  unfold Spec.LoopBoundariesFollowTheBodyCount
  intro s l hm hf hb hl hfl c bidx pass nm1 passes
  have hend := State.perform_nil_resolved (s := s.issued l) (l := l) (by rw [State.issued_ctx, hf])
  rw [State.unmoved_ctx, State.issued_ctx, hl] at hend
  obtain ⟨hpc, -, -, -⟩ := hend.course
  obtain ⟨hctl, hloop⟩ := hend.loop
  obtain ⟨hcur, hpc'⟩ := Ctx.endBundle_looping (x := (s.ctx l).unmarked) hb hfl
  refine ⟨_, exec_empty hm, ?_⟩
  rw [hpc, hctl, hloop, hcur, hpc']
  have hbidx : bits c.loopst 5 0 = bidx := bits_eq_toNat_extractLsb' c.loopst 5 0
  have hpass : bits c.loopst 29 6 = pass := bits_eq_toNat_extractLsb' c.loopst 29 6
  have hnm1 : bits c.loopwd 5 0 = nm1 := bits_eq_toNat_extractLsb' c.loopwd 5 0
  have hpasses : bits c.loopwd 48 25 = passes := bits_eq_toNat_extractLsb' c.loopwd 48 25
  rw [Ctx.unmarked_cur, Ctx.unmarked_pc, View.loopBoundary]
  simp only [show (s.ctx l).cur.ctl = c from rfl, hbidx, hpass, hnm1, hpasses]
  refine ⟨fun h => ?_, fun h hlast => ?_, fun h hnext => ?_⟩
  · rw [if_pos h]
    exact ⟨rfl, rfl⟩
  · rw [if_neg (by omega), if_pos hlast]
    exact ⟨rfl, rfl, getLsbD_loopst_ended _⟩
  · rw [if_neg (by omega), if_neg (by omega)]
    have hst : (s.ctx l).cur.nextPass.ctl.loopst = BitVec.ofNat 64 ((pass + 1) * 2 ^ 6 + 2 ^ 30) := by
      rw [← hpass]
      rfl
    have hlt : passes < 2 ^ 24 := (c.loopwd.extractLsb' 25 24).isLt
    rw [hst]
    exact ⟨rfl, (View.nextPass_looping _).trans hl, loopst_of_pass (by omega)⟩

/-- Settles O9: MARK's effects are the last that land with its bundle, and a boundary is one branch of the count. -/
theorem loopReplayStartsAndFollowsTheBodyCount : Obligations.LoopReplayStartsAndFollowsTheBodyCount := by
  unfold Obligations.LoopReplayStartsAndFollowsTheBodyCount
  exact ⟨markStartsLoopReplay, markRefusesBadLoopWords, loopBoundariesFollowTheBodyCount⟩

end Sys2Proof.Machine

/-! # The end of a program (R249, R277, R394): what O13 and O47 rest on -/

namespace Sys2Proof.Machine

/-! ### What brings the holds of a core up to date (R278) -/

@[simp] theorem State.settle_ctx (s : State) (core : Nat) (m : Loc) : (s.settle core).ctx m = s.ctx m := by
  unfold State.settle
  split
  · rfl
  · exact State.setCore_ctx_of_ctxs (by rfl) m

theorem State.settle_core (s : State) (core : Nat) : ∃ hs, (s.settle core).core core = { s.core core with holds := hs } := by
  unfold State.settle
  split
  · exact ⟨_, rfl⟩
  · exact ⟨_, State.core_setCore ..⟩

@[simp] theorem State.settle_dev (s : State) (core p d : Nat) : (s.settle core).dev p d = s.dev p d := by
  unfold State.settle
  split <;> rfl

theorem State.landAll_of_none {s : State} {l : Loc} (h : (s.ctx l).landings = []) : s.landAll l = s := by
  rw [State.landAll, h]
  rfl

/-! ### What the end of a task leaves of its core (R281, R298) -/

/-- A core that runs the same context, whose tasks have the same numbers, contexts and ends. -/
def Core.KeepsEnds (k k' : Core) : Prop :=
  k'.running = k.running ∧ ∀ t ∈ k.table, ∃ u ∈ k'.table, u.id = t.id ∧ u.bound = t.bound ∧ u.ended = t.ended

namespace Core.KeepsEnds

theorem of_table {k k' : Core} (hrun : k'.running = k.running) (h : k'.table = k.table) : k.KeepsEnds k' :=
  ⟨hrun, fun t ht => ⟨t, h ▸ ht, rfl, rfl, rfl⟩⟩

theorem trans {k k' k'' : Core} (h : k.KeepsEnds k') (h' : k'.KeepsEnds k'') : k.KeepsEnds k'' := by
  obtain ⟨hrun, htable⟩ := h
  obtain ⟨hrun', htable'⟩ := h'
  refine ⟨hrun'.trans hrun, fun t ht => ?_⟩
  obtain ⟨u, hu, hid, hbound, hended⟩ := htable t ht
  obtain ⟨v, hv, hid', hbound', hended'⟩ := htable' u hu
  exact ⟨v, hv, hid'.trans hid, hbound'.trans hbound, hended'.trans hended⟩

/-- A change of every entry of the table that leaves its number, its context and its end. -/
theorem of_map {k k' : Core} (f : Task → Task) (hrun : k'.running = k.running) (h : k'.table = k.table.map f)
    (hf : ∀ t, (f t).id = t.id ∧ (f t).bound = t.bound ∧ (f t).ended = t.ended) : k.KeepsEnds k' :=
  ⟨hrun, fun t ht => ⟨f t, h ▸ List.mem_map_of_mem ht, hf t⟩⟩

theorem passBanks (k : Core) (t : Task) (kept : List Nat) : k.KeepsEnds (k.passBanks t kept) := by
  have hpass : k.KeepsEnds (match t.ended with
      | some (_, _, w, r) =>
        (k.claims.filter fun (c : Claim) => c.prog == t.id && decide (c.state = ClaimState.held)).foldl
          (fun (k : Core) (c : Claim) => k.passOn t.id c.bank (w, r)) k
      | none => k) := by
    split
    · exact List.foldlRecOn _ _ (motive := fun j : Core => k.KeepsEnds j) (of_table rfl rfl) fun j hj c _ => hj.trans (of_table rfl rfl)
    · exact of_table rfl rfl
  refine hpass.trans (of_map _ rfl rfl fun u => ?_)
  split <;> exact ⟨rfl, rfl, rfl⟩

theorem endTask (k : Core) (id : Nat) : k.KeepsEnds (k.endTask id) := by
  unfold Core.endTask
  split
  · exact of_table rfl rfl
  · rename_i t _
    split
    · exact passBanks k t []
    · dsimp only
      split
      · refine (passBanks k t t.pipeBanks).trans (of_map _ rfl rfl fun u => ?_)
        split <;> exact ⟨rfl, rfl, rfl⟩
      · exact passBanks k t t.pipeBanks

theorem dropScans (k : Core) (os : List ScOp) : k.KeepsEnds (k.dropScans os) := of_table rfl rfl

end Core.KeepsEnds

/-! ### A program that leaves its context (R249, R394) -/

/-- The core of a context that a program leaves, before the banks of its task pass on. -/
def State.exitCore (s : State) (l : Loc) (b : Binding) (exit status : Nat) : Core :=
  let k := s.core l.core
  let x := s.ctx l
  let w := (x.fin.getD x.cur).complete
  { k with
    ddq := k.ddq.filter fun o => !s.isMine l o.who
    table := k.table.map fun t =>
      if t.id = b.task then
        { t with bound := none, ended := some (exit, status, l.phys, if x.saved.isSome then (w.region + 15) % 32 else w.region) }
      else t
    running := if k.running = some l.ctx then none else k.running }

/-- A context that its program has left: off, with its registers. -/
def Ctx.exited (x : Ctx) : Ctx :=
  let w := (x.fin.getD x.cur).complete
  let v := if x.saved.isSome then w else w.leaveRegion
  { Ctx.reset with pc := x.pc, ctime := x.ctime, cur := { v with pending := [], looping := false, ctl := v.ctl.stopped } }

/-- A program leaves its context where nothing of it has still to land: the context is off, the table keeps the exit, the banks pass on, and a
trap that is due goes to the lodge. -/
theorem State.leave_eq {s : State} {l : Loc} {b : Binding} (hb : (s.ctx l).binding = some b) (hl : (s.ctx l).landings = [])
    (exit status : Nat) : ∃ u : State, s.leave l exit status = u.settle l.core ∧
      u.cores = (((s.settle l.core).setCore l.core
        ((((s.settle l.core).exitCore l b exit status).endTask b.task).dropScans (s.ctx l).keptSc)).setCtx l (s.ctx l).exited).cores ∧
      ((s.ctx l).lateTrap = none → u.pavs = s.pavs) := by
  have hpavs : (s.settle l.core).pavs = s.pavs := by
    unfold State.settle
    split <;> rfl
  unfold State.leave State.exitCore
  simp only [State.landAll_of_none hl, State.settle_ctx, hb]
  refine ⟨_, rfl, ?_, fun h => ?_⟩
  · split <;> rfl
  · rw [h]
    exact hpavs

/-- The entry of a task in a table, ended with an exit code and a status (R274, R277). -/
def Core.endedWith (k : Core) (task exit status : Nat) : Prop :=
  ∃ v ∈ k.table, v.id = task ∧ v.bound = none ∧ ∃ w r, v.ended = some (exit, status, w, r)

/-- The entry of the task that leaves is ended, and nothing runs where its context ran. -/
theorem State.exitCore_ended (s : State) (l : Loc) (b : Binding) (exit status : Nat) {k : Core}
    (h : (s.exitCore l b exit status).KeepsEnds k) :
    ((s.core l.core).running = some l.ctx → k.running = none) ∧
      ∀ u ∈ (s.core l.core).table, u.id = b.task → k.endedWith b.task exit status := by
  obtain ⟨hrun, htable⟩ := h
  rw [hrun]
  refine ⟨fun hr => if_pos hr, fun u hu hid => ?_⟩
  obtain ⟨v, hv, hvid, hbound, hended⟩ := htable _ (List.mem_map_of_mem hu)
  rw [if_pos hid] at hvid hbound hended
  exact ⟨v, hv, hvid.trans hid, hbound, _, _, hended⟩

/-- A context that its program has left, in a state that followed another (R249, R394). -/
structure State.Left (s t : State) (l : Loc) (b : Binding) (exit status : Nat) : Prop where
  ctx : t.ctx l = (s.ctx l).exited
  running : (s.core l.core).running = some l.ctx → (t.core l.core).running = none
  task : ∀ u ∈ (s.core l.core).table, u.id = b.task → (t.core l.core).endedWith b.task exit status
  dev : (s.ctx l).lateTrap = none → ∀ p d, t.dev p d = s.dev p d

theorem State.leave_left {s : State} {l : Loc} {b : Binding} (hb : (s.ctx l).binding = some b) (hl : (s.ctx l).landings = [])
    (exit status : Nat) : s.Left (s.leave l exit status) l b exit status := by
  obtain ⟨hs, hsettled⟩ := s.settle_core l.core
  obtain ⟨u, hleave, hcores, hpavs⟩ := State.leave_eq hb hl exit status
  obtain ⟨hs', hsettled'⟩ := u.settle_core l.core
  obtain ⟨hrun, htask⟩ := (s.settle l.core).exitCore_ended l b exit status
    ((Core.KeepsEnds.endTask _ b.task).trans (Core.KeepsEnds.dropScans _ (s.ctx l).keptSc))
  have hcore : u.core l.core = ((((s.settle l.core).exitCore l b exit status).endTask b.task).dropScans (s.ctx l).keptSc).setCtx l.ctx
      (s.ctx l).exited := by
    rw [State.core, hcores]
    exact (State.core_setCtx ..).trans (by rw [State.core_setCore])
  rw [hsettled] at hrun htask
  generalize (((s.settle l.core).exitCore l b exit status).endTask b.task).dropScans (s.ctx l).keptSc = k at hcore hrun htask
  refine ⟨?_, fun hr => ?_, fun v hv hid => ?_, fun h p d => ?_⟩
  · rw [hleave, State.settle_ctx, State.ctx, hcore, Core.ctx_setCtx]
  · rw [hleave, hsettled', hcore]
    exact hrun hr
  · rw [hleave, hsettled', hcore]
    exact htask v hv hid
  · rw [hleave, State.settle_dev, State.dev, State.pav, hpavs h]
    rfl

/-- The registers of a context that its program has left stay as they were (R249). -/
theorem Ctx.exited_spec (x : Ctx) :
    x.exited.mode = .off ∧ x.exited.binding = none ∧ x.exited.fence = [] ∧ x.exited.cur.ctl.ddgrant = 0 ∧
      ∀ f n, x.exited.cur.readReg f n = (x.fin.getD x.cur).complete.readReg f n := by
  unfold Ctx.exited
  dsimp only
  refine ⟨rfl, rfl, rfl, rfl, fun f n => ?_⟩
  cases x.saved <;> exact View.readReg_congr rfl rfl rfl rfl rfl rfl f n

/-- A program of which nothing has still to act leaves its context at once (R249, R394). -/
theorem State.endProgram_of_done {s : State} {l : Loc}
    (h : (s.ctx l).saved.isSome = true ∨ ((s.ctx l).late = [] ∧ ∀ o ∈ (s.core l.core).ddq, s.isMine l o.who = false)) (exit status : Nat) :
    s.endProgram l exit status = s.leave l exit status := by
  refine if_neg ?_
  obtain h | ⟨hlate, hddq⟩ := h
  · simp [Option.isNone_eq_false_iff.mpr h]
  · simpa [hlate] using fun _ => hddq

/-- A program of which an integrator operation has still to act waits for it (R249). -/
theorem State.endProgram_of_held {s : State} {l : Loc} (hsaved : (s.ctx l).saved = none)
    (h : ∃ o ∈ (s.core l.core).ddq, s.isMine l o.who = true) (exit status : Nat) :
    let t := s.endProgram l exit status
    ((s.core l.core).running = some l.ctx → (t.core l.core).running = none) ∧ (t.ctx l).mode = .blocked ∧
      (t.ctx l).wait = some (.ending exit status) ∧ (t.ctx l).binding = (s.ctx l).binding ∧ (t.ctx l).fence = (s.ctx l).fence := by
  intro t
  have ht : t = _ := if_pos (by simpa [hsaved] using .inr h)
  rw [ht, State.core_setCtx, State.ctx_setCtx, State.setCore_ctx_of_ctxs (by rfl)]
  refine ⟨fun hr => ?_, rfl, rfl, rfl, rfl⟩
  rw [Core.setCtx_running, State.core_setCore]
  exact if_pos hr

/-! # SAFE, YIELD and HALT (O13) -/

/-! ### A bundle at whose boundary something happens (R29, R118, R247 to R249) -/

/-- The state at the end of a bundle whose one trigger has acted, before what follows at its boundary. -/
def State.atBoundary (s : State) (l : Loc) (o : Opd) : State :=
  ((opSem o.op).act (s.acting l) l o).closeBundle l o ((s.core l.core).vcount l.ctx) (s.ctx l).cur.looping

/-- The effects of a bundle with one trigger: it ends, its boundary follows, and its context waits at a fence that it has left (R29, R205). -/
theorem perform_one_eq {s : State} {l : Loc} {o : Opd} (hx : (s.ctx l).resolving = false) :
    s.perform (fun _ => opSem o.op) l [.trig o] =
      (let t := (opSem o.op).after (((opSem o.op).act (s.setCtx l (s.ctx l).unmarked) l o).closeBundle l o
        ((s.core l.core).vcount l.ctx) (s.ctx l).cur.looping) l o
      if (t.ctx l).fence.isEmpty || !(t.ctx l).goesOn then t else t.block l .fence) := by
  have hlatch : (s.setCtx l (s.ctx l).unmarked).onView l (RMove.trig o).prov (fun w => w.latchMove (RMove.trig o)) =
      s.setCtx l (s.ctx l).unmarked := by
    rw [State.onView_setCtx]
    exact congrArg _ (Ctx.onView_self _ _)
  unfold State.perform State.applyMoves State.closeBundle
  simp only [List.foldl_cons, List.foldl_nil, actOrWait_one, hlatch, hx, State.setCtx_vcount]
  rfl

/-- A trigger row whose boundary leaves its context at no fence, or stopped, issues (R29, R392). -/
theorem exec_atBoundary {i : Instr} {s : State} {l : Loc} {o : Opd} (hr : s.ready l i o) (hp : (s.take l).passes l o)
    (hacc : (opSem o.op).access = none)
    (hf : (((opSem o.op).after (s.atBoundary l o) l o).ctx l).fence = [] ∨
      (((opSem o.op).after (s.atBoundary l o) l o).ctx l).goesOn = false) :
    exec i s = .next ((opSem o.op).after (s.atBoundary l o) l o) := by
  obtain ⟨hi, hm, hresolving, -⟩ := hr
  have hstate : (opSem o.op).after (((opSem o.op).act ((s.issued l).setCtx l ((s.issued l).ctx l).unmarked) l o).closeBundle l o
      (((s.issued l).core l.core).vcount l.ctx) ((s.issued l).ctx l).cur.looping) l o =
      (opSem o.op).after (s.atBoundary l o) l o := by
    rw [State.issued_ctx, State.issued_vcount]
    rfl
  rw [exec_operands hi hm hp, hacc, if_neg (by decide), perform_one_eq (by rw [State.issued_ctx, hresolving]), hstate]
  refine congrArg _ (if_pos ?_)
  rw [Bool.or_eq_true, Bool.not_eq_true', List.isEmpty_iff]
  exact hf

/-- An entry of a table with the cycles that are counted for a task (R386). -/
def Task.counted (task n : Nat) (t : Task) : Task := if t.id = task then { t with cycles := t.cycles + n } else t

theorem Task.counted_id (task n : Nat) (t : Task) : (t.counted task n).id = t.id := by
  unfold Task.counted
  split <;> rfl

/-- Cycles that are counted change the core's table alone (R386). -/
theorem State.measured_core (s : State) (core : Nat) (b : Binding) (n : Nat) :
    (s.measured core b n).core core = { s.core core with table := (s.core core).table.map (Task.counted b.task n) } :=
  State.core_setCore ..

/-- A bundle that is charged leaves its core but for the cycles of its tasks (R386). -/
theorem State.charge_core (s : State) (l : Loc) : ∃ f : Task → Task, (∀ t, (f t).id = t.id) ∧
    (s.charge l).core l.core = { s.core l.core with table := (s.core l.core).table.map f } := by
  unfold State.charge
  split
  · exact ⟨id, fun _ => rfl, by rw [List.map_id]⟩
  · rename_i b _
    refine ⟨Task.counted b.task 1, Task.counted_id b.task 1, ?_⟩
    dsimp only
    rw [State.measured_core]
    split <;> rfl

/-- What a bundle leaves of the core of its context: what runs in it, the integrator queue, and the numbers of its tasks (R386). -/
theorem State.acting_core (s : State) (l : Loc) : ((s.acting l).core l.core).running = (s.core l.core).running ∧
    ((s.acting l).core l.core).ddq = (s.core l.core).ddq ∧
    ∀ u ∈ (s.core l.core).table, ∃ v ∈ ((s.acting l).core l.core).table, v.id = u.id := by
  have htake : (s.take l).core l.core = { s.core l.core with taken := some l.ctx } := State.core_setCore ..
  obtain ⟨f, hf, hcharge⟩ := (s.take l).charge_core l
  rw [State.acting, State.issued, State.core_setCtx, hcharge, htake]
  exact ⟨rfl, rfl, fun u hu => ⟨f u, List.mem_map_of_mem hu, hf u⟩⟩

/-- The core of a context at the boundary of its bundle. -/
theorem State.closeBundle_core {s : State} {l : Loc} {o : Opd} (h : o.op ≠ .crw) (vc : Nat) (lp : Bool) :
    (s.closeBundle l o vc lp).core l.core = (s.core l.core).setCtx l.ctx ((s.closeBundle l o vc lp).ctx l) := by
  simp [State.closeBundle, finish_eq h, State.onView]

/-- The context of a straight bundle at its boundary: its operation has acted, and its operands have stepped (R27, R29). -/
theorem State.atBoundary_ctx {s : State} {l : Loc} {o : Opd} {x : Ctx} (hcrw : o.op ≠ .crw) (hs : (s.ctx l).straight)
    (hx : ((opSem o.op).act (s.acting l) l o).ctx l = x) (hb : x.branch = none) :
    let y := x.onView o.prov fun w => w.increment (opSem o.op) ((s.core l.core).vcount l.ctx) o.unit o.x
    (s.atBoundary l o).ctx l =
      { y with cur := y.cur.land x.ctime, fin := y.fin.map fun w => w.land x.ctime, ctime := x.ctime + 1, started := true, pc := x.pc + 24 } := by
  intro y
  rw [State.atBoundary, State.closeBundle_ctx hcrw, hx, Ctx.looping_of_straight hs]
  exact Ctx.endBundle_straight (x := y) hb

theorem branchPlace_of_straight {s : State} {l : Loc} (h : (s.ctx l).straight) (o : Opd) : branchPlace (s.take l) l o = none := by
  obtain ⟨hb, -, hl⟩ := h
  simp [branchPlace, Ctx.inDelay, hb, hl]

/-! ### SAFE (R118, R254, R405) -/

/-- A context at whose trigger a SAFE with a list stands: at a marker, but in a handler (R118, R254). -/
def Ctx.safe (x : Ctx) (off : Nat) : Ctx := { x with marker := if x.cur.inHandler then none else some off }

theorem semSafe_act_eq (s : State) (l : Loc) (o : Opd) : semSafe.act s l o =
    if (s.ctx l).cur.inHandler then s else s.setCtx l { s.ctx l with marker := some (bits o.xw 31 0) } := rfl

theorem semSafe_act (s : State) (l : Loc) (o : Opd) : (semSafe.act (s.acting l) l o).ctx l = (s.ctx l).safe (bits o.xw 31 0) := by
  rw [semSafe_act_eq, State.acting_ctx, Ctx.unmarked_cur, Ctx.safe]
  split
  · exact State.acting_ctx s l
  · rw [State.ctx_setCtx]
    rfl

/-- A marker at which no halt is asked for changes nothing at the boundary. -/
theorem semSafe_after_stays {s : State} {l : Loc} (h : (s.ctx l).marker = none ∨ (s.ctx l).preempt = false) (o : Opd) :
    semSafe.after s l o = s := by
  change (match (s.ctx l).marker with | some off => if (s.ctx l).preempt then s.haltSave l (some off) else s | none => s) = s
  obtain h | h := h
  · rw [h]
  · rw [h]
    split <;> rfl

theorem semSafe_after_halts {s : State} {l : Loc} {off : Nat} (hm : (s.ctx l).marker = some off) (hp : (s.ctx l).preempt = true) (o : Opd) :
    semSafe.after s l o = s.haltSave l (some off) := by
  change (match (s.ctx l).marker with | some off => if (s.ctx l).preempt then s.haltSave l (some off) else s | none => s) = _
  simp only [hm, hp, if_true]

theorem State.haltSave_running (s : State) (l : Loc) (off : Option Nat) : ((s.haltSave l off).core l.core).running ≠ some l.ctx := by
  unfold State.haltSave
  dsimp only
  split
  · rw [State.core_setCore]
    nofun
  · assumption

theorem safe_passes {s : State} {l : Loc} {o : Opd} (hs : (s.ctx l).straight) (hop : o.op = .safe) (hlt : o.xw.toNat < 2 ^ 32)
    (ha : o.xw.toNat % 4 = 0) : (s.take l).passes l o := by
  obtain ⟨hb, -, hl⟩ := hs
  have hhigh : bits o.xw 63 32 = 0 := bits_eq_zero_iff.mpr hlt
  have hlow : bits o.xw 1 0 = 0 := (bits_low _ _).trans ha
  rw [State.passes, hop, opSem_safe]
  refine ⟨if_neg (by omega), ?_, rfl, rfl⟩
  change safePlace (s.take l) l = none
  simp [safePlace, Ctx.inDelay, hb, hl]

theorem safeMarksOrHalts : Spec.SafeMarksOrHalts := by
  unfold Spec.SafeMarksOrHalts
  intro i s l o hr hstraight hop hlt ha
  have hp := safe_passes hstraight hop hlt ha
  have hoff : bits o.xw 31 0 = o.xw.toNat := (bits_low _ _).trans (Nat.mod_eq_of_lt hlt)
  have hctx := State.atBoundary_ctx (x := (s.ctx l).safe o.xw.toNat) (by rw [hop]; decide) hstraight
    (by rw [hop, opSem_safe, semSafe_act, hoff]) hstraight.1
  have hexec := exec_atBoundary hr hp (by rw [hop]; rfl)
  rw [hop, opSem_safe] at hexec
  generalize s.atBoundary l o = u at hctx hexec
  have hmarker : (u.ctx l).marker = if (s.ctx l).cur.inHandler then none else some o.xw.toNat := by rw [hctx]; rfl
  have hpre : (u.ctx l).preempt = (s.ctx l).preempt := by rw [hctx]; rfl
  have hfence : (u.ctx l).fence = [] := by rw [hctx]; exact State.fence_of_ready hr
  have hpc : (u.ctx l).pc = (s.ctx l).pc + 24 := by rw [hctx]; rfl
  have hmode : (u.ctx l).mode = (s.ctx l).mode := by rw [hctx]; rfl
  cases hin : (s.ctx l).cur.inHandler with
  | true =>
    rw [hin, if_pos rfl] at hmarker
    rw [semSafe_after_stays (.inl hmarker)] at hexec
    have hbit : (s.ctx l).cur.ctl.hndst.getLsbD 0 = true := hin
    rw [hbit]
    exact ⟨u, hexec (.inl hfence), fun _ => ⟨hmarker, hpc⟩, nofun, nofun⟩
  | false =>
    rw [hin, if_neg (by decide)] at hmarker
    have hbit : (s.ctx l).cur.ctl.hndst.getLsbD 0 = false := hin
    rw [hbit]
    cases hask : (s.ctx l).preempt with
    | false =>
      rw [semSafe_after_stays (.inr (hpre.trans hask))] at hexec
      exact ⟨u, hexec (.inl hfence), nofun, fun _ _ => ⟨hmarker, hpc, hmode⟩, nofun⟩
    | true =>
      obtain ⟨hhalted, hoffed, -, -, v, hsaved, -⟩ := u.haltSave_ctx l (some o.xw.toNat)
      rw [semSafe_after_halts hmarker (hpre.trans hask)] at hexec
      refine ⟨_, hexec (.inr (by rw [Ctx.goesOn, hhalted]; rfl)), nofun, nofun, fun _ _ => ?_⟩
      exact ⟨hhalted, by rw [hsaved]; rfl, hoffed, u.haltSave_running l _⟩

/-! ### YIELD (R35, R248, R379) -/

theorem Core.ready_others_of_none {k : Core} {n : Nat}
    (h : ∀ c, c < 4 → c ≠ n → (k.ctx c).mode ≠ .ready ∧ (k.ctx c).mode ≠ .running) : k.ready.filter (· != n) = [] := by
  rw [Core.ready, List.filter_filter, List.filter_eq_nil_iff]
  intro c hc
  by_cases hn : c = n
  · simp [hn]
  · obtain ⟨h1, h2⟩ := h c (List.mem_range.mp hc) hn
    simp [h1, h2]

theorem Core.ready_others_of_one {k : Core} {n d : Nat} (hd : d < 4) (hne : d ≠ n) (hready : (k.ctx d).mode = .ready)
    (h : ∀ c, c < 4 → c ≠ n → c ≠ d → (k.ctx c).mode ≠ .ready ∧ (k.ctx c).mode ≠ .running) : k.ready.filter (· != n) = [d] := by
  have hone : (List.range 4).filter (fun c => decide (c = d)) = [d] := by
    match d, hd with
    | 0, _ | 1, _ | 2, _ | 3, _ => rfl
  rw [← hone, Core.ready, List.filter_filter]
  refine List.filter_congr fun c hc => ?_
  by_cases hcd : c = d
  · simp [hcd, hne, hready]
  · by_cases hn : c = n
    · simp [hn, Ne.symm hne]
    · obtain ⟨h1, h2⟩ := h c (List.mem_range.mp hc) hn hcd
      simp [hcd, h1, h2]

/-- A core that switches from one context to another (R35). -/
theorem State.switchTo_from {s : State} {core r c : Nat} (h : (s.core core).running = some r) (hne : c ≠ r) :
    ((s.switchTo core c).core core).running = some c ∧ ((s.switchTo core c).ctx ⟨core, c⟩).mode = .running ∧
      ((s.ctx ⟨core, r⟩).mode = .running → ((s.switchTo core c).ctx ⟨core, r⟩).mode = .ready) := by
  obtain ⟨hrun, -, hmode⟩ := (s.stoodDown core).stoodUp_runs core c
  have hdown (hr : (s.ctx ⟨core, r⟩).mode = .running) : (((s.stoodDown core).stoodUp core c).ctx ⟨core, r⟩).mode = .ready := by
    unfold State.stoodUp State.stoodDown
    rw [State.ctx_setCtx_ne _ (by simpa using Ne.symm hne), State.setCore_ctx_of_ctxs (by rfl)]
    simp only [h]
    rw [State.ctx_setCtx]
    exact if_pos hr
  rw [State.switchTo_eq, h, if_neg (by simpa using Ne.symm hne)]
  split
  · rename_i b _
    obtain ⟨hmeasured, -⟩ := ((s.stoodDown core).stoodUp core c).measured_runs core b 1
    rw [hmeasured, State.measured_ctx, State.measured_ctx]
    exact ⟨hrun, hmode, hdown⟩
  · exact ⟨hrun, hmode, hdown⟩

theorem State.yieldAt_of_alone {s : State} {l : Loc}
    (h : ∀ c, c < 4 → c ≠ l.ctx → (s.ctx ⟨l.core, c⟩).mode ≠ .ready ∧ (s.ctx ⟨l.core, c⟩).mode ≠ .running) : s.yieldAt l = s := by
  unfold State.yieldAt
  rw [Core.ready_others_of_none h]

/-- The one other context that is ready, and is asked to halt, runs after the bubble of the switch (R35, R379). -/
theorem State.yieldAt_of_one {s : State} {l : Loc} {d : Nat} (hrun : (s.core l.core).running = some l.ctx) (hd : d < 4) (hne : d ≠ l.ctx)
    (hmode : (s.ctx l).mode = .running) (hready : (s.ctx ⟨l.core, d⟩).mode = .ready) (hpre : (s.ctx ⟨l.core, d⟩).preempt = true)
    (h : ∀ c, c < 4 → c ≠ l.ctx → c ≠ d → (s.ctx ⟨l.core, c⟩).mode ≠ .ready ∧ (s.ctx ⟨l.core, c⟩).mode ≠ .running) :
    let t := s.yieldAt l
    (t.core l.core).running = some d ∧ (t.core l.core).bubble = some d ∧ (t.ctx l).mode = .ready ∧ (t.ctx ⟨l.core, d⟩).mode = .running := by
  intro t
  obtain ⟨hsrun, hsd, hsl⟩ := State.switchTo_from hrun hne
  have hselect : s.selectAmong l.core [d] = s.switchTo l.core d := by
    have hfilter : [d].filter (fun c => ((s.core l.core).ctx c).preempt) = [d] := List.filter_cons_of_pos hpre
    unfold State.selectAmong
    simp only [hfilter]
  have ht : t = (s.switchTo l.core d).setCore l.core
      { (s.switchTo l.core d).core l.core with taken := some l.ctx, bubble := ((s.switchTo l.core d).core l.core).running } := by
    have hneq : ((s.switchTo l.core d).core l.core).running ≠ some l.ctx := by
      rw [hsrun]
      simpa using hne
    unfold t State.yieldAt
    rw [Core.ready_others_of_one hd hne hready h]
    simp only [hselect]
    exact if_neg hneq
  rw [ht, State.core_setCore, State.setCore_ctx_of_ctxs (by rfl), State.setCore_ctx_of_ctxs (by rfl)]
  exact ⟨hsrun, hsrun, hsl hmode, hsd⟩

theorem semYield_after (s : State) (l : Loc) (o : Opd) : semYield.after s l o = s.yieldAt l := rfl

theorem yield_passes {s : State} {l : Loc} {o : Opd} (hs : (s.ctx l).straight) (hop : o.op = .yield) : (s.take l).passes l o := by
  rw [State.passes, hop, opSem_yield]
  exact ⟨rfl, branchPlace_of_straight hs o, rfl, rfl⟩

/-- The turn is that of the context that runs in its core (R35). -/
theorem State.running_of_mayIssue {s : State} {l : Loc} (h : s.mayIssue l) : (s.core l.core).running = some l.ctx := by
  obtain ⟨hturn, -⟩ := h
  unfold State.turn at hturn
  split at hturn
  · obtain rfl := Option.some.inj hturn
    assumption
  · cases hturn

/-- What a bundle whose operation acts at its boundary alone leaves of its core and of the other contexts. -/
theorem State.atBoundary_of_idle {s : State} {l : Loc} {o : Opd} (hcrw : o.op ≠ .crw) (hact : (opSem o.op).act (s.acting l) l o = s.acting l) :
    ((s.atBoundary l o).core l.core).running = (s.core l.core).running ∧
      ((s.atBoundary l o).core l.core).ddq = (s.core l.core).ddq ∧
      (∀ u ∈ (s.core l.core).table, ∃ v ∈ ((s.atBoundary l o).core l.core).table, v.id = u.id) ∧
      ∀ m, m ≠ l → (s.atBoundary l o).ctx m = s.ctx m := by
  rw [State.atBoundary, hact, State.closeBundle_core hcrw]
  obtain ⟨hrun, hddq, htable⟩ := s.acting_core l
  exact ⟨hrun, hddq, htable, fun m hm => by rw [State.closeBundle_ctx_ne hcrw hm, State.acting_ctx_ne s hm]⟩

theorem yieldLetsAnotherContextRun : Spec.YieldLetsAnotherContextRun := by
  unfold Spec.YieldLetsAnotherContextRun
  intro i s l o hr hstraight hop hl
  have hcrw : o.op ≠ .crw := by rw [hop]; decide
  have hact : (opSem o.op).act (s.acting l) l o = s.acting l := by rw [hop]; rfl
  obtain ⟨hrun, -, -, hother⟩ := State.atBoundary_of_idle hcrw hact
  have hctx := State.atBoundary_ctx (x := (s.ctx l).unmarked) hcrw hstraight (by rw [hact, State.acting_ctx]) hstraight.1
  have hexec := exec_atBoundary hr (yield_passes hstraight hop) (by rw [hop]; rfl)
  rw [hop, opSem_yield] at hexec
  rw [semYield_after] at hexec
  generalize s.atBoundary l o = u at hrun hother hctx hexec
  rw [State.running_of_mayIssue (State.mayIssue_of_ready hr)] at hrun
  have hother' (c : Nat) (hc : c ≠ l.ctx) : u.ctx ⟨l.core, c⟩ = s.ctx ⟨l.core, c⟩ := hother _ fun e => hc (by rw [← e])
  have hkeep := u.yieldAt_ctx l l
  refine ⟨_, hexec (.inl ?_), ?_, fun halone => ?_, fun d hd hne hmode hready hpre hothers => ?_⟩
  · rw [hkeep, hctx]
    exact State.fence_of_ready hr
  · rw [hkeep, hctx]
    rfl
  · rw [State.yieldAt_of_alone fun c hc hn => by rw [hother' c hn]; exact halone c hc hn]
    exact hrun
  · exact State.yieldAt_of_one hrun hd hne (by rw [hctx]; exact hmode) (by rw [hother' d hne]; exact hready) (by rw [hother' d hne]; exact hpre)
      fun c hc hn hcd => by rw [hother' c hn]; exact hothers c hc hn hcd

/-! ### HALT (R249, R277) -/

theorem State.isMine_iff {s : State} {l : Loc} {b : Binding} (hb : (s.ctx l).binding = some b) (w : Who) :
    s.isMine l w = true ↔ w.ctx = l.ctx ∧ w.bind.prog = b.prog := by
  unfold State.isMine State.progOf
  rw [hb]
  simp only [Option.map_some, Bool.and_eq_true, beq_iff_eq, Option.some.injEq]
  exact and_congr_right fun _ => eq_comm

theorem semHalt_after (s : State) (l : Loc) (o : Opd) : semHalt.after s l o = s.endProgram l (bits o.xw 31 0) 0 := rfl

theorem halt_passes {s : State} {l : Loc} {o : Opd} (hs : (s.ctx l).straight) (hop : o.op = .halt) (hlt : o.xw.toNat < 2 ^ 32) :
    (s.take l).passes l o := by
  have hhigh : bits o.xw 63 32 = 0 := bits_eq_zero_iff.mpr hlt
  rw [State.passes, hop, opSem_halt]
  exact ⟨if_neg (by omega), branchPlace_of_straight hs o, rfl, rfl⟩

theorem haltEndsTheProgram : Spec.HaltEndsTheProgram := by
  unfold Spec.HaltEndsTheProgram
  intro i s l o b u hr hstraight hop hlt hb hlandings hlate hsaved hu hid held
  have hcrw : o.op ≠ .crw := by rw [hop]; decide
  have hact : (opSem o.op).act (s.acting l) l o = s.acting l := by rw [hop]; rfl
  have hexit : bits o.xw 31 0 = o.xw.toNat := (bits_low _ _).trans (Nat.mod_eq_of_lt hlt)
  obtain ⟨hrun, hddq, htable, -⟩ := State.atBoundary_of_idle hcrw hact
  have hctx := State.atBoundary_ctx (x := (s.ctx l).unmarked) hcrw hstraight (by rw [hact, State.acting_ctx]) hstraight.1
  have hexec := exec_atBoundary hr (halt_passes hstraight hop hlt) (by rw [hop]; rfl)
  rw [hop, opSem_halt] at hexec
  rw [semHalt_after, hexit] at hexec
  generalize s.atBoundary l o = v at hrun hddq htable hctx hexec
  rw [State.running_of_mayIssue (State.mayIssue_of_ready hr)] at hrun
  have hvb : (v.ctx l).binding = some b := by rw [hctx]; exact hb
  have hvl : (v.ctx l).landings = [] := by rw [hctx]; exact hlandings
  have hvs : (v.ctx l).saved = none := by rw [hctx]; exact hsaved
  have hvt : (v.ctx l).late = [] := by rw [hctx]; exact hlate
  have hheld : held ↔ ∃ e ∈ (v.core l.core).ddq, v.isMine l e.who = true := by
    rw [hddq]
    exact exists_congr fun e => and_congr_right fun _ => (State.isMine_iff hvb e.who).symm
  by_cases h : held
  · obtain ⟨hnone, hblocked, hwait, hbinding, -⟩ := State.endProgram_of_held hvs (hheld.mp h) o.xw.toNat 0
    refine ⟨_, hexec (.inr (by rw [Ctx.goesOn, hblocked]; rfl)), hnone hrun, fun hnot => absurd h hnot, fun _ => ?_⟩
    exact ⟨hblocked, hwait, hbinding.trans hvb⟩
  · have hdone : ∀ e ∈ (v.core l.core).ddq, v.isMine l e.who = false := fun e he =>
      Bool.eq_false_iff.mpr fun hmine => h (hheld.mpr ⟨e, he, hmine⟩)
    obtain ⟨hleft, hnone, htask, -⟩ := State.leave_left hvb hvl o.xw.toNat 0
    obtain ⟨hoff, hunbound, hfence, hgrant, hreg⟩ := (v.ctx l).exited_spec
    rw [State.endProgram_of_done (.inr ⟨hvt, hdone⟩)] at hexec
    refine ⟨_, hexec (.inl (by rw [hleft, hfence])), hnone hrun, fun _ => ?_, fun hh => absurd hh h⟩
    obtain ⟨w, hw, hwid⟩ := htable u hu
    rw [hleft]
    refine ⟨hoff, hunbound, hgrant, htask w hw (hwid.trans hid), fun hfl f n => ?_⟩
    have hvfin : (v.ctx l).fin = none := by
      have hfin : (s.ctx l).unmarked.fin = none := Ctx.fin_of_straight hstraight
      rw [hctx]
      dsimp only [Ctx.onView]
      rw [hfin]
      cases o.prov <;> rfl
    have hvcur : (v.ctx l).cur = (s.ctx l).cur.increment (opSem o.op) ((s.core l.core).vcount l.ctx) o.unit o.x := by
      rw [hctx]
      exact View.land_of_none ((View.increment_flights ..).trans hfl) _
    rw [hreg, hvfin, hvcur]
    exact (congrArg (View.readReg · f n) (View.complete_of_none ((View.increment_flights ..).trans hfl))).trans (View.increment_readReg ..)

/-- Settles O13: SAFE, YIELD and HALT act at the boundary of their bundle, on the state that the bundle has left. -/
theorem safePointsYieldsAndHaltsComplete : Obligations.SafePointsYieldsAndHaltsComplete := by
  unfold Obligations.SafePointsYieldsAndHaltsComplete
  exact ⟨safeMarksOrHalts, yieldLetsAnotherContextRun, haltEndsTheProgram⟩

end Sys2Proof.Machine

/-! # Halted contexts: their restore, their release and their save areas (O47) -/

namespace Sys2Proof.Machine

/-! ### The restore in place (R407, R408) -/

/-- A halted context that resumes: ready, with nothing kept of its save. -/
def Ctx.resumed (x : Ctx) : Ctx :=
  { x with mode := .ready, wait := none, saved := none, keptMx := [], keptSc := [], keptDd := [], stepAt := [] }

/-- The last part of a restore: the integrator queue acts, a boundary trap that is due is taken, and the context waits at its fence (R205, R407). -/
def State.takeUp (s : State) (l : Loc) : State :=
  let t := s.pumpDd l.core
  let u := match (t.ctx l).boundaryTrap with | some e => t.takeBoundary l e | none => t
  if (u.ctx l).fence.isEmpty || !(u.ctx l).goesOn then u else u.block l .fence

theorem State.pumpDd_of_empty {s : State} {core : Nat} (h : (s.core core).ddq = []) : s.pumpDd core = s := by
  rw [State.pumpDd, h]
  rfl

theorem State.takeUp_of_idle {s : State} {l : Loc} (hddq : (s.core l.core).ddq = []) (htrap : (s.ctx l).boundaryTrap = none)
    (hfence : (s.ctx l).fence = []) : s.takeUp l = s := by
  unfold State.takeUp
  simp only [State.pumpDd_of_empty hddq, htrap, hfence, List.isEmpty_nil, Bool.true_or, if_true]

theorem State.mayResume_of_idle {s : State} {l : Loc} (hmx : (s.core l.core).mxRun = none) (hsc : (s.core l.core).scRun = none) (v : Saved) :
    s.mayResume l l v = true := by
  simp [State.mayResume, State.engineBusy, hmx, hsc]

/-- The core in which a context resumes: its program's operations, those of its save among them, belong to it again (R407). -/
def Core.resuming (k : Core) (x : Ctx) (n : Nat) : Core :=
  let moveWho (w : Who) : Who := { w with ctx := n }
  let j := k.moveOps (match x.binding with | some b => b.prog | none => 0) n
  { j with
    table := j.table.map fun t => if t.id = (match x.binding with | some b => b.task | none => 0) then { t with bound := some n } else t
    mxq := j.mxq ++ x.keptMx.map fun o => { o with who := moveWho o.who }
    scq := j.scq ++ x.keptSc.map fun o => { o with who := moveWho o.who }
    ddq := j.ddq ++ x.keptDd.map fun o => { o with who := moveWho o.who, bounds := (List.range x.cur.domainCount).filter x.cur.runs } }

theorem State.restoreCtx_in_place {s : State} {l : Loc} {v : Saved} (hv : (s.ctx l).saved = some v) (hmay : s.mayResume l l v = true) :
    s.restoreCtx l l = ((s.setCtx l (s.ctx l).resumed).setCore l.core
      (((s.setCtx l (s.ctx l).resumed).core l.core).resuming (s.ctx l) l.ctx)).takeUp l := by
  have hgrant : s.regrant l l v = some (s.ctx l).cur.ctl.ddgrant := if_pos rfl
  have hmove (n : Nat) : s.moveTask l.core l.core n = s := if_pos rfl
  unfold State.restoreCtx
  simp only [hv, hmay, hgrant, if_pos, hmove]
  rfl

/-- A halted context of which no dd operation is held resumes in its place (R407, R408). -/
theorem State.restoreCtx_ctx {s : State} {l : Loc} (hv : (s.ctx l).saved.isSome = true) (hfence : (s.ctx l).fence = [])
    (hmx : (s.core l.core).mxRun = none) (hsc : (s.core l.core).scRun = none) (hddq : (s.core l.core).ddq = [])
    (hkept : (s.ctx l).keptDd = []) (htrap : (s.ctx l).boundaryTrap = none) :
    (s.restoreCtx l l).ctx l = (s.ctx l).resumed := by
  obtain ⟨v, hv⟩ := Option.isSome_iff_exists.mp hv
  have hctx : ((s.setCtx l (s.ctx l).resumed).setCore l.core
      (((s.setCtx l (s.ctx l).resumed).core l.core).resuming (s.ctx l) l.ctx)).ctx l = (s.ctx l).resumed := by
    rw [State.setCore_ctx_of_ctxs (by rfl), State.ctx_setCtx]
  have hempty : (((s.setCtx l (s.ctx l).resumed).core l.core).resuming (s.ctx l) l.ctx).ddq = [] := by
    rw [State.core_setCtx, Core.resuming, hkept]
    exact (List.append_nil _).trans hddq
  rw [State.restoreCtx_in_place hv (State.mayResume_of_idle hmx hsc v), State.takeUp_of_idle, hctx]
  · rw [State.core_setCore, hempty]
  · rw [hctx]
    exact htrap
  · rw [hctx]
    exact hfence

/-! ### The release and the watchdog (R394, R412) -/

/-- A program leaves at once where its save holds what has still to act, or nothing has (R249, R394). -/
theorem State.endProgram_of_idle {s : State} {l : Loc}
    (h : (s.ctx l).saved.isSome = true ∨ (s.ctx l).late = [] ∧ (s.core l.core).ddq = []) (exit status : Nat) :
    s.endProgram l exit status = s.leave l exit status :=
  State.endProgram_of_done (h.imp_right fun ⟨hlate, hddq⟩ => ⟨hlate, by simp [hddq]⟩) exit status

theorem Ctx.lateTrap_of_none {x : Ctx} (harith : x.arithDue = false) (hover : x.overrunDue = false) : x.lateTrap = none :=
  if_neg (by simp [harith, hover])

theorem State.Left.ended {s t : State} {l : Loc} {b : Binding} {exit status : Nat} (h : s.Left t l b exit status) :
    (t.ctx l).mode = .off ∧ (t.ctx l).binding = none := by
  obtain ⟨hmode, hbinding, -⟩ := (s.ctx l).exited_spec
  rw [h.ctx]
  exact ⟨hmode, hbinding⟩

theorem exec_contextRelease_of_off {s : State} {c n : Nat} (h : (s.ctx ⟨c, n⟩).mode = .off) : exec (.contextRelease c n) s = .next s := by
  change Host.Outcome.next (match (s.ctx ⟨c, n⟩).mode with
    | .off => s
    | .halted => s.endProgram ⟨c, n⟩ 0 4
    | _ => (s.setCtx ⟨c, n⟩ (s.ctx ⟨c, n⟩).settle).endProgram ⟨c, n⟩ 0 4) = _
  rw [h]

theorem exec_contextRelease_of_halted {s : State} {c n : Nat} (h : (s.ctx ⟨c, n⟩).mode = .halted) :
    exec (.contextRelease c n) s = .next (s.endProgram ⟨c, n⟩ 0 4) := by
  change Host.Outcome.next (match (s.ctx ⟨c, n⟩).mode with
    | .off => s
    | .halted => s.endProgram ⟨c, n⟩ 0 4
    | _ => (s.setCtx ⟨c, n⟩ (s.ctx ⟨c, n⟩).settle).endProgram ⟨c, n⟩ 0 4) = _
  rw [h]

/-- What the watchdog leaves before the program ends: the overrun is charged, the context is settled, and ORIGIN 9 is posted (R385, R412). -/
def State.expired (s : State) (l : Loc) (b : Binding) : State :=
  (((s.chargeOverrun l).setCtx l (s.ctx l).settle).post b.pav b.vd ⟨9, 13, 0, l.core, l.ctx, 0, 0, (s.ctx l).pc⟩).countHealth 6

theorem exec_watchdogExpiry_of_late {s : State} {l : Loc} {b : Binding} (hp : (s.ctx l).preempt = true)
    (hw : 40000 * 42 ≤ (s.ctx l).waited) (hb : (s.ctx l).binding = some b) :
    exec (.watchdogExpiry l.core l.ctx) s = .next ((s.expired l b).endProgram l 0 4) := by
  have hdue : ((s.ctx l).preempt && decide (watchdogTime ≤ (s.ctx l).waited)) = true := by
    rw [hp, Bool.true_and]
    exact decide_eq_true hw
  change execWatchdogExpiry l.core l.ctx s = _
  unfold execWatchdogExpiry
  simp only [hdue, hb]
  rfl

theorem exec_watchdogExpiry_of_early {s : State} {c n : Nat} (h : (s.ctx ⟨c, n⟩).preempt = false ∨ (s.ctx ⟨c, n⟩).waited < 40000 * 42) :
    exec (.watchdogExpiry c n) s = .next s := by
  have hdue : ((s.ctx ⟨c, n⟩).preempt && decide (watchdogTime ≤ (s.ctx ⟨c, n⟩).waited)) = false := by
    obtain h | h := h
    · rw [h, Bool.false_and]
    · have hlt : ¬ watchdogTime ≤ (s.ctx ⟨c, n⟩).waited := Nat.not_le.mpr h
      rw [decide_eq_false hlt, Bool.and_false]
  change execWatchdogExpiry c n s = _
  unfold execWatchdogExpiry
  simp only [hdue]

theorem State.countHealth_ctx (s : State) (n : Nat) (l : Loc) : (s.countHealth n).ctx l = s.ctx l := rfl

@[simp] theorem State.expired_ctx (s : State) (l : Loc) (b : Binding) : (s.expired l b).ctx l = (s.ctx l).settle := by
  rw [State.expired, State.countHealth_ctx, State.post_ctx, State.ctx_setCtx]

/-- A change of a device that leaves its log of faults and its count of records leaves those of every device (R398). -/
theorem State.setDev_log {s : State} {p d : Nat} {x : Dev} (hflog : x.flog = (s.dev p d).flog) (hseq : x.seq = (s.dev p d).seq) (q e : Nat) :
    ((s.setDev p d x).dev q e).flog = (s.dev q e).flog ∧ ((s.setDev p d x).dev q e).seq = (s.dev q e).seq := by
  by_cases h : q = p ∧ e = d
  · obtain ⟨rfl, rfl⟩ := h
    rw [State.dev_setDev]
    exact ⟨hflog, hseq⟩
  · rw [State.dev_setDev_ne _ h]
    exact ⟨rfl, rfl⟩

theorem Dev.setDeficit_flog (d : Dev) (x : Int) : (d.setDeficit x).flog = d.flog := by rw [Dev.setDeficit]

theorem Dev.setDeficit_seq (d : Dev) (x : Int) : (d.setDeficit x).seq = d.seq := by rw [Dev.setDeficit]

/-- A device that is charged an overrun keeps its log of faults (R385, R398). -/
theorem State.chargeOverrun_log (s : State) (l : Loc) (p d : Nat) :
    ((s.chargeOverrun l).dev p d).flog = (s.dev p d).flog ∧ ((s.chargeOverrun l).dev p d).seq = (s.dev p d).seq := by
  unfold State.chargeOverrun
  split
  · rename_i b _ _
    dsimp only
    split
    · exact ⟨rfl, rfl⟩
    · apply State.setDev_log
      · simp only [Dev.setDeficit_flog]
      · simp only [Dev.setDeficit_seq]
  · exact ⟨rfl, rfl⟩

theorem State.post_flog {s : State} {p d : Nat} (h : (s.dev p d).flog.length < 64) (r : FaultRec) :
    ((s.post p d r).dev p d).flog = (s.dev p d).flog ++ [{ r with seq := (s.dev p d).seq }] := by
  unfold State.post
  simp only [if_pos h]
  exact congrArg Dev.flog (State.dev_setDev ..)

theorem State.countHealth_dev (s : State) (n p d : Nat) : (s.countHealth n).dev p d = s.dev p d := rfl

theorem State.expired_flog {s : State} {l : Loc} {b : Binding} (h : (s.dev b.pav b.vd).flog.length < 64) :
    ((s.expired l b).dev b.pav b.vd).flog =
      (s.dev b.pav b.vd).flog ++ [⟨9, 13, 0, l.core, l.ctx, 0, (s.dev b.pav b.vd).seq, (s.ctx l).pc⟩] := by
  obtain ⟨hflog, hseq⟩ := s.chargeOverrun_log l b.pav b.vd
  have hdev : ((s.chargeOverrun l).setCtx l (s.ctx l).settle).dev b.pav b.vd = (s.chargeOverrun l).dev b.pav b.vd := rfl
  rw [State.expired, State.countHealth_dev, State.post_flog (by rwa [hdev, hflog]), hdev, hflog, hseq]

/-- The watchdog leaves the integrator queue and the task table of the core (R412). -/
theorem State.expired_core (s : State) (l : Loc) (b : Binding) :
    ((s.expired l b).core l.core).ddq = (s.core l.core).ddq ∧ ((s.expired l b).core l.core).table = (s.core l.core).table := by
  have hcharge : (s.chargeOverrun l).core l.core = s.core l.core := by fun_cases State.chargeOverrun <;> rfl
  have hcore : (s.expired l b).core l.core = ((s.chargeOverrun l).core l.core).setCtx l.ctx (s.ctx l).settle := State.core_setCtx ..
  rw [hcore, hcharge]
  exact ⟨rfl, rfl⟩

theorem haltedContextsResumeOrLeave : Spec.HaltedContextsResumeOrLeave := by
  unfold Spec.HaltedContextsResumeOrLeave
  intro s c n l x ended
  refine ⟨fun _ hv hfence hmx hsc hddq hkept htrap => ?_, exec_contextRelease_of_off, fun b hmode hb hl hdone => ?_,
    fun b hp hw hb hl hlate hddq harith hover hlog => ?_, exec_watchdogExpiry_of_early⟩
  · have hctx : (s.restoreCtx l l).ctx l = x.resumed := State.restoreCtx_ctx hv hfence hmx hsc hddq hkept htrap
    refine ⟨s.restoreCtx l l, rfl, ?_⟩
    rw [hctx]
    exact ⟨rfl, rfl, rfl, fun _ _ => rfl, rfl⟩
  · have hleft : s.Left (s.leave l 0 4) l b 0 4 := State.leave_left hb hl 0 4
    have hend : s.endProgram l 0 4 = s.leave l 0 4 := State.endProgram_of_idle hdone 0 4
    obtain ⟨hoff, hunbound⟩ := hleft.ended
    exact ⟨_, (exec_contextRelease_of_halted hmode).trans (congrArg _ hend), hoff, hunbound, hleft.task⟩
  · obtain ⟨hexpddq, htable⟩ := s.expired_core l b
    have hleft : (s.expired l b).Left ((s.expired l b).leave l 0 4) l b 0 4 :=
      State.leave_left (by rw [State.expired_ctx]; exact hb) (by rw [State.expired_ctx]; exact hl) 0 4
    have hend : (s.expired l b).endProgram l 0 4 = (s.expired l b).leave l 0 4 :=
      State.endProgram_of_idle (.inr ⟨by rw [State.expired_ctx]; exact hlate, hexpddq.trans hddq⟩) 0 4
    have htrap : ((s.expired l b).ctx l).lateTrap = none := by
      rw [State.expired_ctx]
      exact Ctx.lateTrap_of_none harith hover
    obtain ⟨hoff, hunbound⟩ := hleft.ended
    have htask := hleft.task
    rw [htable] at htask
    refine ⟨_, (exec_watchdogExpiry_of_late hp hw hb).trans (congrArg _ hend), ⟨hoff, hunbound, htask⟩, ?_⟩
    rw [hleft.dev htrap]
    exact State.expired_flog hlog

/-! ### Save areas (R409) -/

theorem length_padTo (n : Nat) (bs : List Byte) : (padTo n bs).length = n := by
  simp [padTo]

theorem isPrefix_padTo {n : Nat} {as bs : List Byte} (h : as <+: bs) (hn : as.length ≤ n) : as <+: padTo n bs :=
  List.prefix_take_iff.mpr ⟨h.trans (List.prefix_append ..), hn⟩

theorem Ctx.length_areaBytes (x : Ctx) (v : Saved) (live : List LiveEntry) : (x.areaBytes v live).length = 131072 := by
  simp only [Ctx.areaBytes, List.length_append, length_padTo]

/-- The first words of a save area: its mark, its layout, the resume PC and the LOFF (R409). -/
def Ctx.headWords (x : Ctx) (v : Saved) : List Byte :=
  leBytes 4 0x53415645 ++ (leBytes 4 1 ++ (wordBytes x.pc ++ leBytes 8 (v.loff.getD (2 ^ 64 - 1))))

theorem Ctx.length_headWords (x : Ctx) (v : Saved) : (x.headWords v).length = 24 := by
  simp [Ctx.headWords, wordBytes]

theorem Ctx.headWords_prefix_saveHeader (x : Ctx) (v : Saved) : x.headWords v <+: x.saveHeader v := by
  refine isPrefix_padTo ?_ (by rw [Ctx.length_headWords]; decide)
  simp only [Ctx.headWords, List.append_assoc, List.prefix_append_right_inj, List.prefix_append]

theorem Ctx.headWords_prefix_areaBytes (x : Ctx) (v : Saved) (live : List LiveEntry) : x.headWords v <+: x.areaBytes v live := by
  unfold Ctx.areaBytes
  simp only [List.append_assoc]
  refine (isPrefix_padTo ?_ (by rw [Ctx.length_headWords]; decide)).trans (List.prefix_append ..)
  exact (x.headWords_prefix_saveHeader v).trans (List.prefix_append ..)

/-- The words of the header of a save area, as bytes (R409). -/
theorem Ctx.areaBytes_words (x : Ctx) (v : Saved) (live : List LiveEntry) :
    (x.areaBytes v live).take 4 = leBytes 4 0x53415645 ∧ ((x.areaBytes v live).drop 4).take 4 = leBytes 4 1 ∧
      ((x.areaBytes v live).drop 8).take 8 = wordBytes x.pc ∧
      ((x.areaBytes v live).drop 16).take 8 = leBytes 8 (v.loff.getD (2 ^ 64 - 1)) := by
  obtain ⟨rest, hrest⟩ := x.headWords_prefix_areaBytes v live
  rw [← hrest]
  have hmark : (leBytes 4 0x53415645).drop 16 = [] := List.drop_of_length_le (by rw [length_leBytes]; decide)
  have hlayout : (leBytes 4 1).drop 12 = [] := List.drop_of_length_le (by rw [length_leBytes]; decide)
  simp [Ctx.headWords, wordBytes, List.take_append, List.drop_append, hmark, hlayout]

theorem saveAreasHaveTheirHeader : Spec.SaveAreasHaveTheirHeader := by
  unfold Spec.SaveAreasHaveTheirHeader
  intro s l
  refine ⟨fun h => by rw [State.saveArea, h]; rfl, fun v hv => ?_⟩
  obtain ⟨live, harea⟩ : ∃ live, s.saveArea l = some ((s.ctx l).areaBytes v live) := ⟨_, by rw [State.saveArea, hv]; rfl⟩
  obtain ⟨hmark, hlayout, hpc, hloff⟩ := (s.ctx l).areaBytes_words v live
  refine ⟨_, harea, Ctx.length_areaBytes .., ?_, ?_, ?_, ?_, fun j _ => ?_⟩
  · rw [hmark, leNat_leBytes (by decide)]
  · rw [hlayout, leNat_leBytes (by decide)]
  · rw [hpc, wordBytes, leNat_leBytes (s.ctx l).pc.isLt]
  · rw [hloff, leNat_leBytes_mod, show 256 ^ 8 = 2 ^ 64 from rfl]
  · rw [State.areaByte, hv, harea]
    simp

/-- Settles O47: a restore in place gives the context back whole, a release and a watchdog end its task, and a save area is laid out from its header on. -/
theorem contextsAreRestoredAndReleased : Obligations.ContextsAreRestoredAndReleased := by
  unfold Obligations.ContextsAreRestoredAndReleased
  exact ⟨haltedContextsResumeOrLeave, saveAreasHaveTheirHeader⟩

end Sys2Proof.Machine

/-! # The mask stack (O4) -/

namespace Sys2Proof.Machine

/-- The low bits of a bit vector, as a number. -/
theorem bits_to_zero {n : Nat} (x : BitVec n) (hi : Nat) : bits x hi 0 = x.toNat % 2 ^ (hi + 1) := by
  rw [bits_eq_div_mod, Nat.pow_zero, Nat.div_one, Nat.sub_zero]

/-! ### The depth and the entries of the stack (R135) -/

theorem topOf_drop (ms : List Mask) (n : Nat) : topOf (ms.drop n) = ms.getD n (BitVec.allOnes 128) := by
  rw [topOf, List.headD_eq_head?_getD, List.head?_drop, List.getD_eq_getElem?_getD]

theorem topOf_eq (ms : List Mask) : topOf ms = ms.getD 0 (BitVec.allOnes 128) := topOf_drop ms 0

theorem topOf_tail (ms : List Mask) : topOf ms.tail = ms.getD 1 (BitVec.allOnes 128) := by
  rw [← List.drop_one, topOf_drop]

/-- A stack that becomes no deeper loses its top entries. -/
theorem View.setDepth_stack_of_le {w : View} {d : Nat} (h : d ≤ w.stack.length) :
    (w.setDepth d).stack = w.stack.drop (w.stack.length - d) := by
  simp [View.setDepth, Nat.sub_eq_zero_of_le h]

/-- A stack that becomes deeper by one shows the entry that stood above its top. -/
theorem View.setDepth_stack_succ (w : View) : (w.setDepth (w.stack.length + 1)).stack = w.above.getD 0 0 :: w.stack := by
  simp [View.setDepth]

theorem View.setEntry_stack_top {w : View} {a : Mask} {ms : List Mask} (h : w.stack = a :: ms) (m : Mask) :
    (w.setEntry w.stack.length m).stack = m :: ms := by
  simp [View.setEntry, h]

/-! ### The operations of mk (R136) -/

/-- A mask operation that finds a stack comes out as its rule says: with the new stack and the result, or with the cause of a trap. -/
def MaskOutcome (cause : Option Cause) (e : MaskEffect) (ms : List Mask) : Except Nat (List Mask × Mask) → Prop
  | .ok (ms', y) => cause = none ∧ e.result = y ∧ ∀ h w, View.stack w = ms → (w.effect h (.stack e.depth e.put)).stack = ms'
  | .error c => cause = some c

theorem maskOutcome_ite {p : Prop} [Decidable p] {cause : Option Cause} {e : MaskEffect} {ms : List Mask} {r : List Mask × Mask} {c : Nat}
    (hok : p → MaskOutcome cause e ms (.ok r)) (hbad : ¬ p → cause = some c) :
    MaskOutcome cause e ms (if p then .ok r else .error c) := by
  split
  · exact hok ‹p›
  · exact hbad ‹¬ p›

theorem mpush_outcome (ms : List Mask) (m : Mask) :
    MaskOutcome (maskFull ms) ⟨some (ms.length + 1), some (ms.length + 1, m), m⟩ ms
      (if ms.length < 16 then .ok (m :: ms, m) else .error 2) := by
  refine maskOutcome_ite (fun h => ⟨if_pos h, rfl, ?_⟩) fun h => if_neg h
  rintro - w rfl
  have hdepth := w.setDepth_stack_succ
  have hput := View.setEntry_stack_top hdepth m
  rwa [congrArg List.length hdepth] at hput

theorem maskNone_eq_none {ms : List Mask} (h : ms.length ≥ 1) : maskNone ms = none := if_neg (List.ne_nil_of_length_pos h)

theorem maskNone_eq_some {ms : List Mask} (h : ¬ ms.length ≥ 1) : maskNone ms = some 3 :=
  if_pos (List.eq_nil_of_length_eq_zero (by omega))

theorem minv_outcome (ms : List Mask) (m : Mask) :
    MaskOutcome (maskNone ms) ⟨none, some (ms.length, m), m⟩ ms (if ms.length ≥ 1 then .ok (m :: ms.tail, m) else .error 3) := by
  refine maskOutcome_ite (fun h => ⟨maskNone_eq_none h, rfl, ?_⟩) maskNone_eq_some
  rintro - w rfl
  exact View.setEntry_stack_top (List.cons_head_tail (List.ne_nil_of_length_pos h)).symm m

theorem mpop_outcome (ms : List Mask) (m : Mask) :
    MaskOutcome (maskNone ms) ⟨some (ms.length - 1), none, m⟩ ms (if ms.length ≥ 1 then .ok (ms.tail, m) else .error 3) := by
  refine maskOutcome_ite (fun h => ⟨maskNone_eq_none h, rfl, ?_⟩) maskNone_eq_some
  rintro - w rfl
  refine (View.setDepth_stack_of_le (Nat.sub_le ..)).trans ?_
  rw [Nat.sub_sub_self h, List.drop_one]

theorem mreset_outcome (ms : List Mask) (m : Mask) : MaskOutcome none ⟨some 0, none, m⟩ ms (.ok ([], m)) := by
  refine ⟨rfl, rfl, ?_⟩
  rintro - w rfl
  exact (View.setDepth_stack_of_le (Nat.zero_le _)).trans (List.drop_length ..)

/-- Every mask operation is one shape, with the outcome of the table (R136). -/
theorem opSem_of_stack {op : Op} {ms : List Mask} {x : Mask} {r : Except Nat (List Mask × Mask)} (h : Spec.stack op ms x = some r) :
    ∃ need f, opSem op = maskSem need f ∧ MaskOutcome (need ms) (f ms x) ms r := by
  cases op <;> cases h
  case mpush => exact ⟨_, _, opSem_mpush, topOf_eq ms ▸ mpush_outcome ms _⟩
  case minv => exact ⟨_, _, opSem_minv, topOf_eq ms ▸ topOf_tail ms ▸ minv_outcome ms _⟩
  case mpop => exact ⟨_, _, opSem_mpop, topOf_tail ms ▸ mpop_outcome ms _⟩
  case mpeek => exact ⟨_, _, opSem_mpeek, rfl, (topOf_drop ..).trans (congrArg (ms.getD · _) (bits_to_zero x 3)), fun _ _ hw => hw⟩
  case mreset => exact ⟨_, _, opSem_mreset, mreset_outcome ms _⟩

section
variable {i : Instr} {s : State} {l : Loc} {o : Opd} {need : List Mask → Option Cause} {f : List Mask → Mask → MaskEffect}

/-- A mask operation whose condition on the depth holds completes (R136). -/
theorem exec_mask (hr : s.ready l i o) (hop : opSem o.op = maskSem need f) (hneed : need (s.ctx l).cur.stack = none) :
    exec i s = .next (s.fixedNext l o 1 (.stack (f (s.ctx l).cur.stack o.xm).depth (f (s.ctx l).cur.stack o.xm).put ::
      o.resultEffs (.mask (f (s.ctx l).cur.stack o.xm).result) none)) := by
  have hpasses : (s.take l).passes l o := by
    rw [State.passes, hop]
    refine ⟨rfl, ?_, rfl, rfl⟩
    change need ((s.take l).ctx l).cur.stack = none
    rwa [State.take_ctx]
  refine exec_after hr hpasses (by rw [hop]; rfl) (fun _ => by rw [hop]; rfl) (fun _ => by rw [hop]; rfl) ?_
  have hstack : ((s.acting l).ctx l).cur.stack = (s.ctx l).cur.stack := by rw [State.acting_ctx, Ctx.unmarked_cur]
  rw [hop, ← hstack]
  rfl

/-- A mask operation whose condition on the depth fails takes its sequence trap (R136, R396). -/
theorem exec_mask_trap {c : Cause} (hr : s.ready l i o) (hp : o.prov = false) (hop : opSem o.op = maskSem need f)
    (hneed : need (s.ctx l).cur.stack = some c) :
    exec i s = .next ((s.take l).takeTrap l (sequenceTrap c) o.slot false (s.ctx l).pc) := by
  refine exec_sequence hr hp (by rw [hop]; rfl) ?_
  rw [hop]
  change need ((s.take l).ctx l).cur.stack = some c
  rwa [State.take_ctx]

end

theorem View.land_single {w : View} {f : Flight} {t : Nat} (h : w.flights = [f]) (hf : f.due ≤ t) :
    w.land t = f.effs.foldl (View.effect f.hset) { w with flights := [] } := by
  rw [View.land_of_append (fs := []) h hf, View.land_of_none rfl]

/-- The context after a straight bundle of latency 1 with nothing else in flight: its effects act on a view with the stack of before. -/
theorem Ctx.afterFixed_alone {x : Ctx} (hx : x.straight) (hfl : x.cur.flights = []) (vc : Nat) (o : Opd) (effs : List Eff) :
    ∃ w, View.stack w = x.cur.stack ∧ (x.afterFixed vc o 1 effs).cur = effs.foldl (View.effect x.cur.inHandler) w := by
  obtain ⟨hb, -, hl⟩ := hx
  let f : Flight := ⟨x.ctime + 1 - 1, o.s, x.cur.inHandler, effs⟩
  have hend := Ctx.endBundle_straight (x := x.unmarked.onView o.prov fun w =>
    ({ w with flights := w.flights ++ [f] } : View).increment (opSem o.op) vc o.unit o.x) hb
  have hflights : ({ x.cur with flights := x.cur.flights ++ [f] } : View).flights = [f] := congrArg (· ++ [f]) hfl
  have hland := View.land_single ((View.increment_flights _ (opSem o.op) vc o.unit o.x).trans hflights) (Nat.le_refl x.ctime)
  rw [Ctx.afterFixed, hl, hend]
  refine ⟨_, ?_, hland⟩
  exact View.increment_stack ..

/-- Settles O4: each mask operation is one shape, and its depth and its entry make the stack of the table of the one that it finds. -/
theorem maskOperationsChangeTheStack : Obligations.MaskOperationsChangeTheStack := by
  unfold Obligations.MaskOperationsChangeTheStack
  intro i s l o r hr h
  obtain ⟨need, f, hop, hout⟩ := opSem_of_stack h
  cases r with
  | error c => exact fun hp => exec_mask_trap hr hp hop hout
  | ok p =>
    obtain ⟨ms, y⟩ := p
    obtain ⟨hneed, rfl, hstack⟩ := hout
    refine ⟨_, _, hstack o.s _ rfl, exec_mask hr hop hneed, fun hstraight hfl => ?_⟩
    obtain ⟨w, hw, hcur⟩ := Ctx.afterFixed_alone hstraight hfl ((s.core l.core).vcount l.ctx) o _
    rw [State.fixedNext, State.ctx_setCtx, hcur, List.foldl_cons,
      (View.effects_keepsBut (o.resultEffs_within _ none) _ _).stack]
    exact hstack _ w hw

end Sys2Proof.Machine

/-! # Operations on lanes: what they share, and O5 -/

namespace Sys2Proof.Machine

/-! ### Operations whose effects land, and the lanes under a mask (R30, R52, R124) -/

/-- An operation without checks of its own whose effects land some bundles after its trigger (R30). -/
def OpSem.lands (sm : OpSem) (lat : Nat) (effs : State → Loc → Opd → List Eff) : Prop :=
  ∃ xw ls fs, sm = { OpSem.base with xw := xw, latches := ls, sel := fs, act := fun s l o => s.after l o lat (effs s l o) }

/-- Such an operation completes with its effects (R30, R392). -/
theorem exec_lands {i : Instr} {s : State} {l : Loc} {o : Opd} {op : Op} {lat : Nat} {effs : State → Loc → Opd → List Eff}
    (hr : s.ready l i o) (hop : o.op = op) (h : (opSem op).lands lat effs) :
    exec i s = .next (s.fixedNext l o lat (effs (s.acting l) l o)) := by
  subst hop
  obtain ⟨xw, ls, fs, hop⟩ := h
  have hpasses : (s.take l).passes l o := by
    rw [State.passes, hop]
    exact ⟨rfl, rfl, rfl, rfl⟩
  exact exec_after hr hpasses (by rw [hop]; rfl) (fun _ => by rw [hop]; rfl) (fun _ => by rw [hop]; rfl) (by rw [hop])

/-- The mask under which an operation acts is the lane mask of its context (R124). -/
theorem State.acting_laneMask (s : State) (l : Loc) : (s.acting l).laneMask l = Spec.mask (s.ctx l) := by
  rw [State.laneMask, State.acting_ctx, Ctx.unmarked_cur, View.top, Spec.mask, List.headD_eq_head?_getD, List.head?_eq_getElem?,
    List.getD_eq_getElem?_getD]

theorem runLanes_fst (m : Mask) (f : Nat → Lane × Nat) (i n : Nat) :
    (runLanes m f i n).1 = lanesNat (fun j => if bit m j then (f j).1 else 0) i n := by
  induction n generalizing i with
  | zero => rfl
  | succ n ih =>
    rw [runLanes, lanesNat, ih]
    split <;> rfl

theorem runLanes_flags (m : Mask) (f : Nat → Lane × Nat) (i n k : Nat) :
    (runLanes m f i n).2.testBit k = true ↔ ∃ j, i ≤ j ∧ j < i + n ∧ m.getLsbD j = true ∧ (f j).2.testBit k = true := by
  induction n generalizing i with
  | zero =>
    refine iff_of_false (by simp [runLanes]) ?_
    rintro ⟨j, hle, hlt, -⟩
    omega
  | succ n ih =>
    have hhead : ((if bit m i then f i else (0, 0)).2.testBit k = true) ↔ m.getLsbD i = true ∧ (f i).2.testBit k = true := by
      unfold bit
      split <;> simp_all
    rw [runLanes, Nat.testBit_or, Bool.or_eq_true, hhead, ih]
    constructor
    · rintro (h | ⟨j, hle, hlt, h⟩)
      · exact ⟨i, le_rfl, by omega, h⟩
      · exact ⟨j, by omega, by omega, h⟩
    · rintro ⟨j, hle, hlt, h⟩
      obtain rfl | hne := eq_or_ne j i
      · exact .inl h
      · exact .inr ⟨j, by omega, by omega, h⟩

section
variable (m : Mask) (f : Nat → Lane × Nat)

theorem lane_maskedLanes {j : Nat} (hj : j < 128) (hm : m.getLsbD j = true) : lane (maskedLanes m f).1 j = (f j).1 := by
  rw [maskedLanes, runLanes_fst]
  exact (lane_ofLanes _ hj).trans (if_pos hm)

theorem maskedLanes_flags : Spec.flagsOf m (fun j => (f j).2) (maskedLanes m f).2 := by
  intro k
  rw [maskedLanes, runLanes_flags]
  simp

end

/-- The flags of lanes depend on the lanes alone. -/
theorem flagsOf_congr {m : Mask} {f g : Nat → Nat} {fl : Nat} (h : ∀ j, j < 128 → f j = g j) (hf : Spec.flagsOf m f fl) :
    Spec.flagsOf m g fl := by
  intro k
  rw [hf k]
  exact exists_congr fun j => and_congr_right fun hj => by rw [h j hj]

/-! ### Operations on lanes -/

/-- An operation that gives each enabled lane a result and flags (R124). -/
def OpSem.givesLanes (sm : OpSem) (lat : Nat) (g : Opd → Nat → Lane × Nat) : Prop :=
  ∃ xw ls, sm = { laneSem lat ls g with xw := xw }

/-- Such an operation completes with the lanes and the flags that it gives (R124). -/
theorem exec_givesLanes {i : Instr} {s : State} {l : Loc} {o : Opd} {lat : Nat} {g : Opd → Nat → Lane × Nat} (hr : s.ready l i o)
    (h : (opSem o.op).givesLanes lat g) :
    ∃ v fl, exec i s = .next (s.fixedNext l o lat (o.resultEffs (.vec v) (some (Spec.mask (s.ctx l))) ++ [.flags fl])) ∧
      (∀ j, j < 128 → (Spec.mask (s.ctx l)).getLsbD j = true → lane v j = (g o j).1) ∧
      Spec.flagsOf (Spec.mask (s.ctx l)) (fun j => (g o j).2) fl := by
  obtain ⟨xw, ls, hop⟩ := h
  have hexec := exec_lands hr rfl ⟨_, _, _, hop⟩
  rw [State.acting_laneMask] at hexec
  exact ⟨_, _, hexec, fun j => lane_maskedLanes _ _, maskedLanes_flags _ _⟩

/-! ### Lanes as integers (R130) -/

section
variable (x b : Lane)

theorem lane_amount_eq : bits b 4 0 = b.toNat % 32 := bits_to_zero b 4

theorem lane_shiftLeft_eq : x <<< bits b 4 0 = BitVec.ofNat 32 (x.toNat * 2 ^ (b.toNat % 32)) := by
  rw [lane_amount_eq, ← Nat.shiftLeft_eq]
  rfl

theorem lane_ushiftRight_eq : x >>> bits b 4 0 = BitVec.ofNat 32 (x.toNat / 2 ^ (b.toNat % 32)) := by
  rw [lane_amount_eq, ← Nat.shiftRight_eq_div_pow, ← BitVec.toNat_ushiftRight, BitVec.ofNat_toNat, BitVec.setWidth_eq]

theorem lane_sshiftRight_eq : x.sshiftRight (bits b 4 0) = BitVec.ofInt 32 (x.toInt / 2 ^ (b.toNat % 32)) := by
  rw [lane_amount_eq, BitVec.sshiftRight, Int.shiftRight_eq_div_pow]
  rfl

theorem lane_toInt_min : (if x.toInt ≤ b.toInt then x else b) = BitVec.ofInt 32 (min x.toInt b.toInt) := by
  rw [min_def]
  split <;> rw [BitVec.ofInt_toInt]

theorem lane_toInt_max : (if b.toInt ≤ x.toInt then x else b) = BitVec.ofInt 32 (max x.toInt b.toInt) := by
  rw [max_comm, max_def]
  split <;> rw [BitVec.ofInt_toInt]

theorem lane_toNat_min : (if x.toNat ≤ b.toNat then x else b) = BitVec.ofNat 32 (min x.toNat b.toNat) := by
  rw [min_def]
  split <;> rw [BitVec.ofNat_toNat, BitVec.setWidth_eq]

theorem lane_toNat_max : (if b.toNat ≤ x.toNat then x else b) = BitVec.ofNat 32 (max x.toNat b.toNat) := by
  rw [max_comm, max_def]
  split <;> rw [BitVec.ofNat_toNat, BitVec.setWidth_eq]

/-- The low bit of the selecting lane names the half that CVTBF widens (R132). -/
theorem lane_half_eq : 16 * bits b 0 0 = if b.getLsbD 0 then 16 else 0 := by
  rw [bits_to_zero, BitVec.getLsbD, Nat.testBit_zero]
  have := Nat.mod_two_eq_zero_or_one b.toNat
  split <;> simp_all

end

/-! ### The table of lane operations (R125, R126, R128, R130, R132, R137) -/

/-- An operation gives in each lane what the table says of the lanes of its operands, with one latency. -/
def LaneTable (op : Op) (lat : Nat) (g : Opd → Nat → Lane × Nat) : Prop :=
  ∀ o j, Spec.laneOp op (lane o.xv j) (lane o.bv j) (lane o.cv j) = some ((g o j).1, (g o j).2, lat)

theorem laneTable_of_intLanes {op : Op} {lat : Nat} {f f' : Lane → Lane → Lane} (hop : opSem op = intLanes lat f)
    (h : ∀ x b, f x b = f' x b) (htable : ∀ x b c, Spec.laneOp op x b c = some (f' x b, 0, lat)) :
    ∃ g, (opSem op).givesLanes lat g ∧ LaneTable op lat g :=
  ⟨_, ⟨_, _, hop⟩, fun _ _ => by rw [htable, ← h]⟩

/-- Every lane operation is one shape, with the results of the table. -/
theorem opSem_of_laneOp {op : Op} {x b c y : Lane} {fl lat : Nat} (h : Spec.laneOp op x b c = some (y, fl, lat)) :
    ∃ g, (opSem op).givesLanes lat g ∧ LaneTable op lat g := by
  cases op <;> cases h
  case ishl => exact laneTable_of_intLanes opSem_ishl lane_shiftLeft_eq fun _ _ _ => rfl
  case ishr => exact laneTable_of_intLanes opSem_ishr lane_ushiftRight_eq fun _ _ _ => rfl
  case isar => exact laneTable_of_intLanes opSem_isar lane_sshiftRight_eq fun _ _ _ => rfl
  case imin => exact laneTable_of_intLanes opSem_imin lane_toInt_min fun _ _ _ => rfl
  case imax => exact laneTable_of_intLanes opSem_imax lane_toInt_max fun _ _ _ => rfl
  case iminn => exact laneTable_of_intLanes opSem_iminn lane_toNat_min fun _ _ _ => rfl
  case imaxn => exact laneTable_of_intLanes opSem_imaxn lane_toNat_max fun _ _ _ => rfl
  case cvtbf => exact ⟨_, ⟨_, _, rfl⟩, fun o j => by rw [lane_half_eq]; rfl⟩
  all_goals exact ⟨_, ⟨_, _, rfl⟩, fun o j => rfl⟩

theorem laneOperationsGiveTheTableResult : Spec.LaneOperationsGiveTheTableResult := by
  unfold Spec.LaneOperationsGiveTheTableResult
  intro i s l o f lat hr h
  obtain ⟨g, hop, htable⟩ := opSem_of_laneOp (h 0 (by decide))
  have hf (j : Nat) (hj : j < 128) : g o j = f j := by
    have heq := (htable o j).symm.trans (h j hj)
    simp only [Option.some.injEq, Prod.mk.injEq, and_true] at heq
    exact Prod.ext heq.1 heq.2
  obtain ⟨v, fl, hexec, hv, hfl⟩ := exec_givesLanes hr hop
  exact ⟨v, fl, hexec, fun j hj hm => by rw [hv j hj hm, hf j hj], flagsOf_congr (fun j hj => by rw [hf j hj]) hfl⟩

/-! ### Moves of lanes (R133) -/

/-- Every move of lanes is one shape, with the lanes of the table and without flags. -/
theorem opSem_of_laneMove {op : Op} {o : Opd} {i : Nat} {y : Lane} {lat : Nat} (h : Spec.laneMove op o i = some (y, lat)) :
    ∃ g : Opd → Nat → Lane, (opSem op).givesLanes lat (fun o j => (g o j, 0)) ∧ ∀ o j, Spec.laneMove op o j = some (g o j, lat) := by
  cases op <;> cases h
  case vsel => exact ⟨_, ⟨_, _, rfl⟩, fun o j => rfl⟩
  case vperm => exact ⟨_, ⟨_, _, rfl⟩, fun o j => by rw [bits_to_zero]; rfl⟩
  case vrot => exact ⟨_, ⟨_, _, rfl⟩, fun o j => by rw [bits_to_zero]; rfl⟩
  case xchg => exact ⟨_, ⟨_, _, rfl⟩, fun o j => by rw [bits_to_zero]; rfl⟩

theorem laneMovesGiveTheTableResult : Spec.LaneMovesGiveTheTableResult := by
  unfold Spec.LaneMovesGiveTheTableResult
  intro i s l o f lat hr h
  obtain ⟨g, hop, htable⟩ := opSem_of_laneMove (h 0 (by decide))
  have hf (j : Nat) (hj : j < 128) : g o j = f j := by
    have heq := (htable o j).symm.trans (h j hj)
    simpa using heq
  obtain ⟨v, fl, hexec, hv, hfl⟩ := exec_givesLanes hr hop
  obtain rfl : fl = 0 := Nat.eq_of_testBit_eq fun k => by simpa using hfl k
  exact ⟨v, hexec, fun j hj hm => by rw [hv j hj hm, hf j hj]⟩

/-! ### Compares (R129, R131) -/

theorem getLsbD_ofBits (f : Nat → Bool) {j : Nat} (h : j < 128) : (ofBits f).getLsbD j = f j := by
  rw [ofBits, BitVec.getLsbD_ofNat, testBit_bitsNat]
  simp [h]

/-- Every compare is one shape, with the relation and the flags of the table. -/
theorem opSem_of_laneRelation {op : Op} {x b : Lane} {r : Bool × Nat} (h : Spec.laneRelation op x b = some r) :
    ∃ f flags, opSem op = laneCmp f flags ∧ ∀ x b, Spec.laneRelation op x b = some (f x b, flags x b) := by
  cases op <;> cases h
  case fcmpeq => exact ⟨_, _, opSem_fcmpeq, fun _ _ => rfl⟩
  case fcmplt => exact ⟨_, _, opSem_fcmplt, fun _ _ => rfl⟩
  case fcmple => exact ⟨_, _, opSem_fcmple, fun _ _ => rfl⟩
  case icmpeq => exact ⟨_, _, opSem_icmpeq, fun _ _ => rfl⟩
  case icmplt => exact ⟨_, _, opSem_icmplt, fun _ _ => rfl⟩
  case icmpltn => exact ⟨_, _, opSem_icmpltn, fun _ _ => rfl⟩

theorem vectorComparesGiveTheRelation : Spec.VectorComparesGiveTheRelation := by
  unfold Spec.VectorComparesGiveTheRelation
  intro i s l o f hr h
  obtain ⟨rel, flags, hop, htable⟩ := opSem_of_laneRelation (h 0 (by decide))
  have hf (j : Nat) (hj : j < 128) : f j = (rel (lane o.xv j) (lane o.bv j), flags (lane o.xv j) (lane o.bv j)) :=
    Option.some.inj ((h j hj).symm.trans (htable _ _))
  have hexec := exec_lands hr rfl ⟨_, _, _, hop⟩
  rw [State.acting_laneMask] at hexec
  refine ⟨_, _, hexec, fun j hj hm => ?_, flagsOf_congr (fun j hj => ?_) (maskedLanes_flags _ _)⟩
  · rw [getLsbD_ofBits _ hj, bit, hm, Bool.true_and, hf j hj]
  · rw [hf j hj]

/-- Settles O5: each lane operation, each move of lanes and each compare is one shape, with the lanes of its table under the mask. -/
theorem laneOperationsMovesAndComparesGiveTheTableResult : Obligations.LaneOperationsMovesAndComparesGiveTheTableResult := by
  unfold Obligations.LaneOperationsMovesAndComparesGiveTheTableResult
  exact ⟨laneOperationsGiveTheTableResult, laneMovesGiveTheTableResult, vectorComparesGiveTheRelation⟩

end Sys2Proof.Machine

/-! # Reductions, FCADD and the sorter (O6) -/

namespace Sys2Proof.Machine

/-! ### The tree of a reduction (R134) -/

/-- Two places of the tree combined, with the flags: an absent argument passes the other unchanged. -/
def joinPair (f : Lane → Lane → Lane × Nat) : Option Lane → Option Lane → Option Lane × Nat
  | some p, some q => (some (f p q).1, (f p q).2)
  | some p, none => (some p, 0)
  | none, q => (q, 0)

section
variable (f : Lane → Lane → Lane × Nat)

theorem tree_succ (t : Nat → Option Lane) (k m : Nat) :
    Spec.tree f t (k + 1) m = (joinPair f (Spec.tree f t k (2 * m)) (Spec.tree f t k (2 * m + 1))).1 := by
  rw [Spec.tree]
  cases Spec.tree f t k (2 * m) <;> cases Spec.tree f t k (2 * m + 1) <;> rfl

theorem treeFlags_succ (t : Nat → Option Lane) (k m : Nat) :
    Spec.treeFlags f t (k + 1) m = Spec.treeFlags f t k (2 * m) ||| Spec.treeFlags f t k (2 * m + 1) |||
      (joinPair f (Spec.tree f t k (2 * m)) (Spec.tree f t k (2 * m + 1))).2 := by
  rw [Spec.treeFlags]
  cases Spec.tree f t k (2 * m) <;> cases Spec.tree f t k (2 * m + 1) <;> rfl

theorem reducePairs_cons_cons (p q : Option Lane) (ts : List (Option Lane)) :
    reducePairs f (p :: q :: ts) = ((joinPair f p q).1 :: (reducePairs f ts).1, (joinPair f p q).2 ||| (reducePairs f ts).2) := by
  cases p <;> cases q <;> simp [reducePairs, joinPair]

theorem length_reducePairs {n : Nat} {ts : List (Option Lane)} (h : ts.length = 2 * n) : (reducePairs f ts).1.length = n := by
  induction n generalizing ts with
  | zero => rw [List.eq_nil_of_length_eq_zero h]; rfl
  | succ n ih =>
    match ts, h with
    | p :: q :: ts, h => rw [reducePairs_cons_cons, List.length_cons, ih (by simp at h; omega)]

theorem reducePairs_append {n : Nat} {ts : List (Option Lane)} (h : ts.length = 2 * n) (us : List (Option Lane)) :
    reducePairs f (ts ++ us) = ((reducePairs f ts).1 ++ (reducePairs f us).1, (reducePairs f ts).2 ||| (reducePairs f us).2) := by
  induction n generalizing ts with
  | zero => rw [List.eq_nil_of_length_eq_zero h]; simp [reducePairs]
  | succ n ih =>
    match ts, h with
    | p :: q :: ts, h =>
      rw [List.cons_append, List.cons_append, reducePairs_cons_cons, reducePairs_cons_cons, ih (by simp at h; omega), Nat.or_assoc]
      rfl

/-- The model's tree goes level by level; over two halves it is the join of the trees of the halves. -/
theorem reduceTree_append {k : Nat} {ts us : List (Option Lane)} (ht : ts.length = 2 ^ k) (hu : us.length = 2 ^ k) :
    reduceTree f (k + 1) (ts ++ us) = ((joinPair f (reduceTree f k ts).1 (reduceTree f k us).1).1,
      (reduceTree f k ts).2 ||| (reduceTree f k us).2 ||| (joinPair f (reduceTree f k ts).1 (reduceTree f k us).1).2) := by
  induction k generalizing ts us with
  | zero =>
    obtain ⟨p, rfl⟩ := List.length_eq_one_iff.mp ht
    obtain ⟨q, rfl⟩ := List.length_eq_one_iff.mp hu
    simp [reduceTree, reducePairs_cons_cons, reducePairs]
  | succ k ih =>
    rw [Nat.pow_succ'] at ht hu
    rw [reduceTree, reducePairs_append f ht, ih (length_reducePairs f ht) (length_reducePairs f hu), reduceTree, reduceTree]
    refine Prod.ext rfl ?_
    dsimp only
    ac_rfl

/-- The leaves of the tree over 2^k places from place m on. -/
def treeLeaves (t : Nat → Option Lane) (k m : Nat) : List (Option Lane) := (List.range (2 ^ k)).map fun j => t (2 ^ k * m + j)

theorem treeLeaves_succ (t : Nat → Option Lane) (k m : Nat) :
    treeLeaves t (k + 1) m = treeLeaves t k (2 * m) ++ treeLeaves t k (2 * m + 1) := by
  have hpow : 2 ^ (k + 1) = 2 ^ k + 2 ^ k := by omega
  simp only [treeLeaves, hpow, List.range_add, List.map_append, List.map_map]
  congr 1
  · exact List.map_congr_left fun j _ => congrArg t (by ring)
  · exact List.map_congr_left fun j _ => congrArg t (by ring)

/-- The model's tree is the fixed tree, with its flags (R134). -/
theorem reduceTree_leaves (t : Nat → Option Lane) (k m : Nat) :
    reduceTree f k (treeLeaves t k m) = (Spec.tree f t k m, Spec.treeFlags f t k m) := by
  induction k generalizing m with
  | zero => simp [treeLeaves, reduceTree, Spec.tree, Spec.treeFlags]
  | succ k ih =>
    rw [treeLeaves_succ, reduceTree_append f (by simp [treeLeaves]) (by simp [treeLeaves]), ih, ih, tree_succ, treeFlags_succ]

theorem isSome_joinPair {p q : Option Lane} (h : p.isSome ∨ q.isSome) : (joinPair f p q).1.isSome := by
  cases p <;> cases q <;> simp_all [joinPair]

/-- A tree with a present leaf has a value. -/
theorem isSome_tree {t : Nat → Option Lane} {j : Nat} (h : (t j).isSome) (k : Nat) : (Spec.tree f t k (j / 2 ^ k)).isSome := by
  induction k with
  | zero => simpa [Spec.tree] using h
  | succ k ih =>
    rw [Nat.pow_succ, ← Nat.div_div_eq_div_mul, tree_succ]
    apply isSome_joinPair
    obtain heven | hodd : j / 2 ^ k = 2 * (j / 2 ^ k / 2) ∨ j / 2 ^ k = 2 * (j / 2 ^ k / 2) + 1 := by omega
    · exact .inl (heven ▸ ih)
    · exact .inr (hodd ▸ ih)

end

/-! ### Reductions (R134) -/

theorem opSem_of_treeOp {op : Op} {f : Lane → Lane → Lane × Nat} (h : Spec.treeOp op = some f) : opSem op = reduceSem f := by
  cases op <;> cases h
  case radd => exact opSem_radd
  case rmax => exact opSem_rmax
  case rmin => exact opSem_rmin

/-- The argument of a reduction at a place: its lane, where the mask enables it. -/
def maskedLane (m : Mask) (x : Vec) (j : Nat) : Option Lane := if m.getLsbD j then some (lane x j) else none

theorem reduceCluster_eq (f : Lane → Lane → Lane × Nat) (m : Mask) (x : Vec) (c : Nat) :
    reduceCluster f m x c = (Spec.tree f (maskedLane m x) 4 c, Spec.treeFlags f (maskedLane m x) 4 c) :=
  reduceTree_leaves f (maskedLane m x) 4 c

theorem reductionsFollowTheFixedTree : Spec.ReductionsFollowTheFixedTree := by
  unfold Spec.ReductionsFollowTheFixedTree
  intro i s l o f hr h t
  have hexec := exec_lands hr rfl ⟨_, _, _, opSem_of_treeOp h⟩
  rw [State.acting_laneMask] at hexec
  refine ⟨_, _, hexec, fun j hj hm => ?_, fun k => ?_⟩
  · have ht : t = maskedLane (Spec.mask (s.ctx l)) o.xv := rfl
    have hc : j / 16 < 8 := by omega
    obtain ⟨y, hy⟩ := Option.isSome_iff_exists.mp (isSome_tree f (t := t) (j := j) (by simp [t, hm]) 4)
    change Spec.tree f t 4 (j / 16) = some y at hy
    rw [lane_ofLanes _ hj, List.getD_eq_getElem?_getD, List.getElem?_map, List.getElem?_range hc, Option.map_some, Option.getD_some,
      reduceCluster_eq, ← ht, hy, Option.getD_some]
  · rw [testBit_foldl_or]
    simp only [Nat.zero_testBit, Bool.false_or, List.any_map, List.any_eq_true, List.mem_range, Function.comp, reduceCluster_eq]
    exact Iff.rfl

/-! ### The compensated add (R127) -/

theorem isFinite_unpack (x : Lane) : (unpack x).isFinite = !decide (bits x 30 23 = 255) := by
  unfold unpack
  dsimp only
  split
  · next h =>
    rw [h]
    split <;> rfl
  · next h =>
    rw [decide_eq_false h]
    split <;> rfl

/-- The compensated add of a lane, with the test for an exponent of all ones (R127). -/
theorem fcadd_eq (x b c : Lane) :
    let sum := fadd b x
    let z := (fsub sum.1 b).1
    let e := (fadd (fsub b (fsub sum.1 z).1).1 (fsub x z).1).1
    let comp := fadd c (if bits sum.1 30 23 = 255 then 0 else e)
    fcadd x b c = (sum.1, comp.1, sum.2 ||| comp.2) := by
  intro sum z e comp
  have hfinite := isFinite_unpack sum.1
  unfold fcadd
  by_cases h : bits sum.1 30 23 = 255 <;> simp_all [sum, z, e, comp]

theorem compensatedAddWritesBothRegisters : Spec.CompensatedAddWritesBothRegisters := by
  unfold Spec.CompensatedAddWritesBothRegisters
  intro i s l o hr hop
  have hexec := exec_lands hr hop ⟨_, _, _, opSem_fcadd⟩
  rw [State.acting_laneMask, State.acting_vcount] at hexec
  simp only [fcadd_eq] at hexec
  refine ⟨_, _, _, hexec, fun j hj hm => ⟨?_, ?_⟩, ?_⟩
  · exact lane_maskedLanes _ _ hj hm
  · exact lane_maskedLanes _ _ hj hm
  · exact maskedLanes_flags _ _

/-! ### The sorter (R141, R142) -/

theorem sorterOperationsActAtTheirResultTime : Spec.SorterOperationsActAtTheirResultTime := by
  unfold Spec.SorterOperationsActAtTheirResultTime
  intro i s l o hr m cands
  have hm : (s.acting l).laneMask l = m := State.acting_laneMask s l
  refine ⟨fun hop => ?_, fun hop => ?_, fun hop => ?_, fun hop => ?_, fun hop => ?_⟩
  · have hexec := exec_lands hr hop ⟨_, _, _, opSem_csort⟩
    rwa [hm] at hexec
  · have hexec := exec_lands hr hop ⟨_, _, _, opSem_cmerge⟩
    rwa [hm] at hexec
  · have hexec := exec_lands hr hop ⟨_, _, _, opSem_cthr⟩
    rwa [hm] at hexec
  · have hexec := exec_lands hr hop ⟨_, _, _, opSem_cread⟩
    have hentry : bits o.xw 5 0 = o.xw.toNat % 64 := bits_to_zero o.xw 5
    rwa [hentry] at hexec
  · exact (exec_lands hr hop ⟨_, _, _, opSem_cclr⟩ :)

/-! ### The candidate file (R139 to R142) -/

theorem score_eq (c : Word) : Spec.score c = fpKey (c.setWidth 32) := by
  have hsign : bit (c.setWidth 32) 31 = c.getLsbD 31 := by simp [bit]
  have hmag : bits (c.setWidth 32) 30 0 = (c.extractLsb' 0 31).toNat := by
    rw [bits_to_zero, BitVec.toNat_setWidth, BitVec.extractLsb'_toNat, Nat.shiftRight_zero]
    omega
  rw [Spec.score, fpKey, hsign, hmag]

theorem score_lane (x : Lane) : Spec.score (x.setWidth 64) = fpKey x := by
  rw [score_eq, BitVec.setWidth_setWidth_of_le _ (by decide), BitVec.setWidth_eq]

/-- The model's order is the ranking but for the places: by score and identifier (R140). -/
theorem ranksBefore_iff (p q : Word) : ranksBefore p q = true ↔
    Spec.score q < Spec.score p ∨
      (Spec.score p = Spec.score q ∧ (p.extractLsb' 32 32).toNat < (q.extractLsb' 32 32).toNat) := by
  simp only [ranksBefore, score_eq, bits_eq_toNat_extractLsb', Bool.or_eq_true, Bool.and_eq_true, decide_eq_true_eq, beq_iff_eq]

theorem ranks_of_ranksBefore {p q : Word × Nat} (h : ranksBefore p.1 q.1 = true) : Spec.ranks p q := by
  rw [ranksBefore_iff] at h
  exact h.imp_right fun h => ⟨h.1, .inl h.2⟩

/-- A candidate that does not rank before one of an earlier place ranks after it (R140). -/
theorem ranks_of_not_ranksBefore {p q : Word × Nat} (h : ¬ ranksBefore p.1 q.1 = true) (hplace : q.2 < p.2) : Spec.ranks q p := by
  rw [ranksBefore_iff] at h
  unfold Spec.ranks
  omega

theorem ranks_trans {p q r : Word × Nat} (h : Spec.ranks p q) (h' : Spec.ranks q r) : Spec.ranks p r := by
  unfold Spec.ranks at *
  omega

/-- A new candidate goes to its place in the ranking of those of earlier places (R140, R141). -/
theorem rankInsert_ranked (d : Word × Nat) {c : List (Word × Nat)} (hc : c.Pairwise Spec.ranks) (hplace : ∀ e ∈ c, e.2 < d.2) :
    ∃ c' : List (Word × Nat), c'.Perm (d :: c) ∧ c'.Pairwise Spec.ranks ∧ c'.map Prod.fst = rankInsert d.1 (c.map Prod.fst) := by
  induction c with
  | nil => exact ⟨[d], .refl _, List.pairwise_singleton .., rfl⟩
  | cons e c ih =>
    obtain ⟨he, hc'⟩ := List.pairwise_cons.mp hc
    by_cases hfirst : ranksBefore d.1 e.1 = true
    · have hde := ranks_of_ranksBefore hfirst
      refine ⟨d :: e :: c, .refl _, List.pairwise_cons.mpr ⟨fun x hx => ?_, hc⟩, ?_⟩
      · obtain rfl | hx := List.mem_cons.mp hx
        · exact hde
        · exact ranks_trans hde (he x hx)
      · rw [List.map_cons, List.map_cons, rankInsert, if_pos hfirst]
    · obtain ⟨c', hperm, hranked, hmap⟩ := ih hc' fun x hx => hplace x (List.mem_cons_of_mem e hx)
      refine ⟨e :: c', (hperm.cons e).trans (.swap d e c), List.pairwise_cons.mpr ⟨fun x hx => ?_, hranked⟩, ?_⟩
      · obtain rfl | hx := List.mem_cons.mp (hperm.mem_iff.mp hx)
        · exact ranks_of_not_ranksBefore hfirst (hplace e List.mem_cons_self)
        · exact he x hx
      · rw [List.map_cons, List.map_cons, rankInsert, if_neg hfirst, hmap]

/-- New candidates in lane order go one by one to their places in a ranked file (R141). -/
theorem foldl_rankInsert_ranked {old : List Word} (hold : old.zipIdx.Pairwise Spec.ranks) (new : List Word) :
    ∃ c : List (Word × Nat), c.Perm (old ++ new).zipIdx ∧ c.Pairwise Spec.ranks ∧
      c.map Prod.fst = new.foldl (fun f w => rankInsert w f) old := by
  induction new using List.reverseRecOn with
  | nil => exact ⟨old.zipIdx, by rw [List.append_nil], hold, List.zipIdx_map_fst ..⟩
  | append_singleton new w ih =>
    obtain ⟨c, hperm, hranked, hmap⟩ := ih
    have hplace (e : Word × Nat) (he : e ∈ c) : e.2 < (old ++ new).length :=
      (List.mem_zipIdx' (hperm.mem_iff.mp he)).1
    obtain ⟨c', hperm', hranked', hmap'⟩ := rankInsert_ranked (w, (old ++ new).length) hranked hplace
    refine ⟨c', hperm'.trans ?_, hranked', ?_⟩
    · rw [← List.append_assoc, List.zipIdx_append, Nat.zero_add]
      exact (hperm.cons _).trans (List.perm_append_singleton _ _).symm
    · rw [hmap', hmap, List.foldl_append]
      rfl

/-- A merge keeps the first 64 of the ranking (R141). -/
theorem mergeCandidates_ranked (cands : List (Lane × Lane)) {old : List Word} (hold : old.zipIdx.Pairwise Spec.ranks) :
    ∃ c : List (Word × Nat),
      c.Perm (old ++ (cands.filter fun c => !isNaN c.1).map fun c => (c.2 ++ c.1 : Word)).zipIdx ∧ c.Pairwise Spec.ranks ∧
      mergeCandidates cands old = (c.map Prod.fst).take 64 := by
  obtain ⟨c, hperm, hranked, hmap⟩ := foldl_rankInsert_ranked hold ((cands.filter fun c => !isNaN c.1).map fun c => (c.2 ++ c.1 : Word))
  refine ⟨c, hperm, hranked, ?_⟩
  rw [hmap, List.foldl_map]
  rfl

/-- A count above a score, as one word (R139, R141). -/
theorem ofNat_count_score (n : Nat) (score : Lane) :
    BitVec.ofNat 64 (score.toNat + n * 2 ^ 32) = (BitVec.ofNat 32 n ++ score : Word) := by
  apply BitVec.eq_of_toNat_eq
  have := score.isLt
  rw [toNat_append_eq_add, BitVec.toNat_ofNat, BitVec.toNat_ofNat]
  omega

/-- The result of a merge: the count above the score of the last entry of a full file (R141). -/
theorem View.mergeResult_eq (w : View) : w.mergeResult =
    (BitVec.ofNat 32 w.cf.length ++ (if w.cf.length = 64 then (w.cf.getD 63 0).setWidth 32 else 0xFF800000 : Lane) : Word) := by
  have hlast (hfull : w.cf.length = 64) : w.candidate 63 = w.cf.getD 63 0 := by
    rw [View.candidate, List.getD_eq_getElem _ _ (by omega), List.getD_eq_getElem _ _ (by omega)]
  rw [View.mergeResult, ofNat_count_score]
  split
  · next hfull => rw [hlast hfull]
  · rfl

/-- A merge of new candidates into the entries of the file, or into none of them, as its effect (R141). -/
theorem View.effect_merge (h : Bool) (w : View) (u : UnitId) (dest : Option (RFile × Nat)) (fresh : Bool) (cands : List (Lane × Lane)) :
    let w1 : View := { w with cf := mergeCandidates cands (if fresh then [] else w.cf) }
    w.effect h (.merge u dest fresh cands) =
      (if ∃ d ∈ cands, isNaN d.1 = true then w1.raise 1 else w1).deliver h u dest (.word w1.mergeResult) none := by
  intro w1
  have hany : (cands.any fun d => isNaN d.1) = true ↔ ∃ d ∈ cands, isNaN d.1 = true := List.any_eq_true
  by_cases hnan : ∃ d ∈ cands, isNaN d.1 = true
  · rw [View.effect, if_pos (hany.mpr hnan), if_pos hnan]
    rfl
  · rw [View.effect, if_neg (mt hany.mp hnan), if_neg hnan]

theorem ofNat_b2n {b : Bool} {p : Prop} [Decidable p] (h : b = true ↔ p) : BitVec.ofNat 32 (b2n b) = if p then (1 : Lane) else 0 := by
  by_cases hp : p
  · rw [if_pos hp, h.mpr hp]
    rfl
  · rw [if_neg hp, Bool.eq_false_iff.mpr (mt h.mp hp)]
    rfl

/-- The threshold test of a lane (R141): a number that would enter the file. -/
theorem entersFile_iff (w : View) (x : Lane) :
    (!isNaN x && (decide (w.cf.length < 64) || decide (fpKey x > fpKey ((w.candidate 63).setWidth 32)))) = true ↔
      isNaN x = false ∧ (w.cf.length < 64 ∨ Spec.score (w.candidate 63) < Spec.score (x.setWidth 64)) := by
  rw [score_eq, score_lane]
  simp

theorem candidateFileFollowsTheRanking : Spec.CandidateFileFollowsTheRanking := by
  unfold Spec.CandidateFileFollowsTheRanking
  intro h w u dest entry
  refine ⟨?_, fun x m => ⟨_, rfl, fun j hj => ?_⟩, fun j => rfl, rfl⟩
  · intro fresh cands old new hold
    obtain ⟨c, hperm, hranked, hfile⟩ := mergeCandidates_ranked cands hold
    refine ⟨c, hperm, hranked, ?_⟩
    intro file w1 last
    have hresult : w1.mergeResult = (BitVec.ofNat 32 file.length ++ last : Word) := View.mergeResult_eq w1
    rw [View.effect_merge, hfile, ← hresult]
  · rw [lane_ofLanes _ hj]
    exact ofNat_b2n (entersFile_iff w (lane x j))

/-- Settles O6: the levels of the model's tree make the fixed tree, FCADD writes two registers, and the candidate file is a ranking to which
each new candidate is added in its place. -/
theorem reductionsCompensatedAddsAndSorterComplete : Obligations.ReductionsCompensatedAddsAndSorterComplete := by
  unfold Obligations.ReductionsCompensatedAddsAndSorterComplete
  exact ⟨reductionsFollowTheFixedTree, compensatedAddWritesBothRegisters, sorterOperationsActAtTheirResultTime,
    candidateFileFollowsTheRanking⟩

end Sys2Proof.Machine

/-! # Tiles, and the operations of the engines: TDESC, TSTAT and TSET (O28) -/

namespace Sys2Proof.Machine

/-! ### A bundle whose one trigger is over with it (R29) -/

/-- The core in which a trigger acts is that of its bundle, but for its contexts, the cycle taken and the cycles of its tasks (R35, R386). -/
theorem State.acting_core_eq (s : State) (l : Loc) : ∃ ctxs taken table,
    (s.acting l).core l.core = { s.core l.core with ctxs := ctxs, taken := taken, table := table } := by
  have htake : (s.take l).core l.core = { s.core l.core with taken := some l.ctx } := State.core_setCore ..
  obtain ⟨f, -, hcharge⟩ := (s.take l).charge_core l
  rw [State.acting, State.issued, State.core_setCtx, hcharge, htake]
  exact ⟨_, _, _, rfl⟩

theorem Ctx.endBundle_tiles (x : Ctx) (lp : Bool) : (x.endBundle lp).tiles = x.tiles := by
  unfold Ctx.endBundle
  dsimp only
  split
  · rfl
  · rfl
  · rfl
  · split <;> rfl

/-- An operation that is over with its bundle: it waits for no acceptance and does nothing at the boundary. -/
structure Inward (op : Op) : Prop where
  notCrw : op ≠ .crw
  access : (opSem op).access = none
  after : ∀ t l o, (opSem op).after t l o = t

/-- A trigger that is over with its bundle issues: of what its operation has left, the core keeps all but this context, and the context keeps
its tiles. -/
theorem exec_inward {i : Instr} {s u : State} {l : Loc} {o : Opd} (hr : s.ready l i o) (hp : (s.take l).passes l o) (ho : Inward o.op)
    (hact : (opSem o.op).act (s.acting l) l o = u) (hfence : (u.ctx l).fence = ((s.acting l).ctx l).fence) :
    ∃ t, exec i s = .next t ∧ t.core l.core = (u.core l.core).setCtx l.ctx (t.ctx l) ∧ (t.ctx l).tiles = (u.ctx l).tiles := by
  obtain ⟨hcrw, hacc, hafter⟩ := ho
  have hnone : (((opSem o.op).act (s.acting l) l o).ctx l).fence = [] := by
    rw [hact, hfence, State.acting_ctx]
    exact State.fence_of_ready hr
  refine ⟨_, exec_acts hr hp hacc (fun t => hafter t l o) hnone, ?_, ?_⟩
  · rw [hact, State.completed]
    exact State.closeBundle_core hcrw ..
  · rw [hact, State.completed, State.closeBundle_ctx hcrw, Ctx.endBundle_tiles]
    rfl

/-- The end of a bundle leaves the z tiles. -/
theorem Core.setCtx_ztile (k : Core) (n : Nat) (x : Ctx) (i : Nat) : (k.setCtx n x).ztile i = k.ztile i := rfl

/-! ### Tiles in the state in which an operation acts -/

theorem State.acting_tile (s : State) (l : Loc) (n : Nat) : ((s.acting l).ctx l).tile n = (s.ctx l).tile n := by
  rw [State.acting_ctx]
  rfl

theorem State.acting_progOf (s : State) (l : Loc) : (s.acting l).progOf l = s.progOf l := by
  rw [State.progOf, State.acting_ctx]
  rfl

theorem State.acting_tileStat (s : State) (l : Loc) (code : Nat) : (s.acting l).tileStat l code = s.tileStat l code := by
  rw [State.tileStat, State.acting_tile, (State.SameReads.acting s l).ztile]
  rfl

theorem State.tileStat_t (s : State) (l : Loc) {code : Nat} (h : code < 32) : s.tileStat l code = ((s.ctx l).tile code).stat := if_pos h

theorem State.tileStat_z (s : State) (l : Loc) {code : Nat} (h : 32 ≤ code) :
    s.tileStat l code = ((s.core l.core).ztile (code - 32)).stat := if_neg (Nat.not_lt.2 h)

/-- A t tile whose status changes keeps its descriptor. -/
theorem State.setTileStat_tile (s : State) (l : Loc) {code : Nat} (h : code < 32) (st : TileStat) :
    ((s.setTileStat l code st).ctx l).tile code = { (s.ctx l).tile code with stat := st } := by
  rw [State.setTileStat, if_pos h, State.ctx_setCtx]
  exact Table.getD_set_self ..

/-- A z tile whose status changes keeps its owner and its elements. -/
theorem State.setTileStat_ztile (s : State) (l : Loc) {code : Nat} (h : 32 ≤ code) (st : TileStat) :
    ((s.setTileStat l code st).core l.core).ztile (code - 32) = { (s.core l.core).ztile (code - 32) with stat := st } := by
  rw [State.setTileStat, if_neg (Nat.not_lt.2 h), State.core_setCore]
  exact Table.getD_set_self ..

theorem State.setTileStat_fence (s : State) (l : Loc) (code : Nat) (st : TileStat) :
    ((s.setTileStat l code st).ctx l).fence = (s.ctx l).fence := by
  obtain ⟨tiles, h⟩ := s.setTileStat_ctx l code st
  rw [h]

theorem Ctx.tile_congr {x y : Ctx} (h : x.tiles = y.tiles) (n : Nat) : x.tile n = y.tile n := by
  rw [Ctx.tile, h]
  rfl

/-! ### TDESC (R147) -/

/-- A context with a t tile that has a new descriptor, and its status that of an empty tile with TE as it was (R147). -/
def Ctx.described (x : Ctx) (n : Nat) (d : Word) : Ctx :=
  { x with tiles := x.tiles.set n ⟨d, { (x.tile n).stat with state := 0, flags := 0, err := false }⟩ }

theorem Ctx.described_tile_self (x : Ctx) (n : Nat) (d : Word) :
    (x.described n d).tile n = ⟨d, { (x.tile n).stat with state := 0, flags := 0, err := false }⟩ := Table.getD_set_self ..

theorem Ctx.described_tile_ne (x : Ctx) {n m : Nat} (h : m ≠ n) (d : Word) : (x.described n d).tile m = x.tile m := Table.getD_set_ne _ h ..

theorem tCode_of_semTdesc {s : State} {l : Loc} {o : Opd} (h : semTdesc.encoding s l o = none) : o.b.toNat < 32 := by
  by_contra hb
  have hcode : tCode o.b = none := if_neg hb
  simp [semTdesc, hcode] at h

theorem tdescCompletes {i : Instr} {s : State} {l : Loc} {o : Opd} (hr : s.ready l i o) (hp : (s.take l).passes l o) (hop : o.op = .tdesc) :
    ∃ t, exec i s = .next t ∧ o.b.toNat < 32 ∧
      let st := ((s.ctx l).tile o.b.toNat).stat
      (t.ctx l).tile o.b.toNat = ⟨o.xw, { st with state := 0, flags := 0, err := false }⟩ ∧
        ∀ n, n ≠ o.b.toNat → (t.ctx l).tile n = (s.ctx l).tile n := by
  have hsem : opSem o.op = semTdesc := by rw [hop, opSem_tdesc]
  have hact : (opSem o.op).act (s.acting l) l o = (s.acting l).setCtx l (((s.acting l).ctx l).described o.b.toNat o.xw) := by
    rw [hsem]
    rfl
  obtain ⟨t, hexec, -, htiles⟩ := exec_inward hr hp ⟨by rw [hop]; decide, by rw [hsem]; rfl, fun _ _ _ => by rw [hsem]; rfl⟩ hact
    (by rw [State.ctx_setCtx]; rfl)
  rw [State.ctx_setCtx] at htiles
  refine ⟨t, hexec, ?_, ?_, fun n hn => ?_⟩
  · obtain ⟨henc, -⟩ := hp
    rw [hsem] at henc
    exact tCode_of_semTdesc henc
  · rw [Ctx.tile_congr htiles, Ctx.described_tile_self, State.acting_tile]
  · rw [Ctx.tile_congr htiles, Ctx.described_tile_ne _ hn, State.acting_tile]

/-! ### TSTAT (R150) -/

/-- The status word of a tile (R148). -/
theorem TileStat.word_eq (st : TileStat) : st.word = BitVec.ofNat 64
    (st.state + 4 * st.rcnt + 256 * st.flags.toNat + (if st.te then 2 ^ 16 else 0) + (if st.err then 2 ^ 17 else 0)) := by
  have hbit (b : Bool) (k : Nat) : b2n b * k = if b then k else 0 := by cases b <;> simp [b2n]
  rw [TileStat.word, hbit, hbit, Nat.mul_comm st.rcnt, Nat.mul_comm st.flags.toNat]
  rfl

/-- What TSTAT reads of a tile: 0 for a z tile that the program does not own (R150, R302). -/
def State.tstat (s : State) (l : Loc) (code : Nat) : Word := if code < 32 || s.ownsZ l code then (s.tileStat l code).word else 0

theorem State.acting_tstat (s : State) (l : Loc) (code : Nat) : (s.acting l).tstat l code = s.tstat l code := by
  simp only [State.tstat, State.ownsZ, State.acting_tileStat, State.acting_progOf, (State.SameReads.acting s l).ztile]
  rfl

theorem State.tstat_t (s : State) (l : Loc) {code : Nat} (h : code < 32) : s.tstat l code = ((s.ctx l).tile code).stat.word := by
  rw [State.tstat, decide_eq_true h, Bool.true_or, if_pos rfl, State.tileStat_t s l h]

theorem State.tstat_z (s : State) (l : Loc) {code : Nat} (h : 32 ≤ code) :
    let z := (s.core l.core).ztile (code - 32)
    s.tstat l code = if z.owner.isSome ∧ z.owner = s.progOf l then z.stat.word else 0 := by
  intro z
  rw [State.tstat, decide_eq_false (Nat.not_lt.2 h), Bool.false_or, State.tileStat_z s l h]
  exact if_congr (by rw [State.ownsZ, Bool.and_eq_true, beq_iff_eq]) rfl rfl

/-- TSTAT completes with what it reads, with latency 1. -/
theorem exec_tstat {i : Instr} {s : State} {l : Loc} {o : Opd} (hr : s.ready l i o) (hp : (s.take l).passes l o) (hop : o.op = .tstat) :
    exec i s = .next (s.fixedNext l o 1 (o.resultEffs (.word (s.tstat l o.xw.toNat)) none)) := by
  have hsem : opSem o.op = semTstat := by rw [hop, opSem_tstat]
  refine exec_after hr hp (by rw [hsem]; rfl) (fun _ => by rw [hsem]; rfl) (fun _ => by rw [hsem]; rfl) ?_
  rw [hsem, ← State.acting_tstat]
  rfl

/-! ### TSET (R151) -/

/-- The status that TSET leaves of a tile that it does not give back (R151). -/
def TileStat.tset (st : TileStat) (b : Word) : TileStat :=
  { st with
    flags := st.flags &&& ~~~(b.extractLsb' 8 8)
    te := if b.getLsbD 4 then b.getLsbD 3 else st.te
    state := if b.getLsbD 2 then (b.extractLsb' 0 2).toNat else st.state }

/-- TSET gives a z tile back: SST with ST 0 (R302). -/
abbrev givesBack (b : Word) : Prop := b.getLsbD 2 = true ∧ b.extractLsb' 0 2 = 0

/-- A z tile without an owner, its status that of reset (R302). -/
def ZTile.givenBack (z : ZTile) : ZTile := { z with owner := none, stat := .reset }

theorem semTset_act (s : State) (l : Loc) (o : Opd) : semTset.act s l o =
    if 32 ≤ o.xw.toNat ∧ givesBack o.b then s.setZ l.core (o.xw.toNat - 32) ((s.core l.core).ztile (o.xw.toNat - 32)).givenBack
    else s.setTileStat l o.xw.toNat ((s.tileStat l o.xw.toNat).tset o.b) := by
  have hst : bits o.b 1 0 = 0 ↔ o.b.extractLsb' 0 2 = 0 := by
    rw [bits_eq_toNat_extractLsb']
    exact ⟨fun h => BitVec.eq_of_toNat_eq h, congrArg BitVec.toNat⟩
  have hclr : BitVec.ofNat 8 (bits o.b 15 8) = o.b.extractLsb' 8 8 := by
    rw [bits_eq_toNat_extractLsb', BitVec.ofNat_toNat]
    exact BitVec.setWidth_eq _
  have hstate : bits o.b 1 0 = (o.b.extractLsb' 0 2).toNat := bits_eq_toNat_extractLsb' ..
  generalize hu : s.tileStat l o.xw.toNat = st
  simp only [semTset, tsetSst, bit, hu, hclr]
  have hback : givesBack o.b ↔ o.b.getLsbD 2 = true ∧ bits o.b 1 0 = 0 := and_congr_right fun _ => hst.symm
  rw [TileStat.tset, ← hstate]
  simp only [hback]
  by_cases hsst : o.b.getLsbD 2 = true
  · simp only [hsst, if_true, true_and]
    refine if_congr Iff.rfl rfl ?_
    split <;> rfl
  · simp only [hsst, Bool.false_eq_true, if_false, false_and, and_false]
    split <;> rfl

theorem tset_inward {o : Opd} (hop : o.op = .tset) : Inward o.op := by
  rw [hop]
  exact ⟨by decide, rfl, fun _ _ _ => rfl⟩

/-- TSET completes; the status of a tile that it does not give back is the one it sets. -/
theorem exec_tset {i : Instr} {s : State} {l : Loc} {o : Opd} (hr : s.ready l i o) (hp : (s.take l).passes l o) (hop : o.op = .tset) :
    ∃ t, exec i s = .next t ∧
      (o.xw.toNat < 32 → (t.ctx l).tile o.xw.toNat =
        { (s.ctx l).tile o.xw.toNat with stat := ((s.ctx l).tile o.xw.toNat).stat.tset o.b }) ∧
      (32 ≤ o.xw.toNat → (t.core l.core).ztile (o.xw.toNat - 32) =
        if givesBack o.b then ((s.core l.core).ztile (o.xw.toNat - 32)).givenBack
        else { (s.core l.core).ztile (o.xw.toNat - 32) with stat := ((s.core l.core).ztile (o.xw.toNat - 32)).stat.tset o.b }) := by
  have hact := semTset_act (s.acting l) l o
  rw [← opSem_tset, ← hop] at hact
  have hz := (State.SameReads.acting s l).ztile l.core (o.xw.toNat - 32)
  split at hact
  · next h =>
    obtain ⟨hle, hback⟩ := h
    obtain ⟨t, hexec, hcore, -⟩ := exec_inward hr hp (tset_inward hop) hact
      (by rw [State.setZ, State.setCore_ctx_of_ctxs (by rfl)])
    refine ⟨t, hexec, fun hlt => absurd hle (Nat.not_le.2 hlt), fun _ => ?_⟩
    rw [hcore, Core.setCtx_ztile, State.ztile_setZ, if_pos rfl, hz, if_pos hback]
  · next h =>
    obtain ⟨t, hexec, hcore, htiles⟩ := exec_inward hr hp (tset_inward hop) hact (State.setTileStat_fence ..)
    refine ⟨t, hexec, fun hlt => ?_, fun hle => ?_⟩
    · rw [Ctx.tile_congr htiles, State.setTileStat_tile _ _ hlt, State.tileStat_t _ _ hlt, State.acting_tile]
    · rw [hcore, Core.setCtx_ztile, State.setTileStat_ztile _ _ hle, State.tileStat_z _ _ hle, hz, if_neg fun hb => h ⟨hle, hb⟩]

/-- Settles O28: TDESC and TSET act on the tile alone, and TSTAT reads the tile as issue has left it. -/
theorem tileControlOperationsComplete : Obligations.TileControlOperationsComplete := by
  unfold Obligations.TileControlOperationsComplete
  intro i s l o hr hp
  refine ⟨tdescCompletes hr hp, fun hop hlt => ?_, fun hop hlt => ?_, fun hop hle => ?_, fun hop hle => ?_⟩
  · rw [exec_tstat hr hp hop, State.tstat_t s l hlt, TileStat.word_eq]
  · obtain ⟨t, hexec, htile, -⟩ := exec_tset hr hp hop
    refine ⟨t, hexec, ?_⟩
    rw [htile hlt]
    exact ⟨rfl, rfl, rfl, rfl, rfl⟩
  · rw [exec_tstat hr hp hop, State.tstat_z s l hle, TileStat.word_eq]
  · obtain ⟨t, hexec, -, hztile⟩ := exec_tset hr hp hop
    refine ⟨t, hexec, fun hback => ?_, fun hkeep => ?_⟩
    · rw [hztile hle, if_pos hback]
      exact ⟨rfl, rfl, rfl, rfl, rfl, rfl⟩
    · rw [hztile hle, if_neg hkeep]
      exact ⟨rfl, fun _ => rfl, rfl, rfl, rfl, rfl⟩

end Sys2Proof.Machine

/-! # The triggers of the engines join their queues (O30) -/

namespace Sys2Proof.Machine

/-! ### Tiles that take their roles (R149) -/

theorem State.OnlyStats.enterTiles (s : State) (l : Loc) (ts : List TileRef) : s.OnlyStats (s.enterTiles l ts) l.core := by
  unfold State.enterTiles
  exact List.foldlRecOn ts.eraseDups _ (motive := fun t => s.OnlyStats t l.core) (.refl s l.core)
    fun t h x _ => h.trans (State.OnlyStats.setTileStat t l.core l.ctx x.code _)

theorem State.enterTiles_fence (s : State) (l : Loc) (ts : List TileRef) : ((s.enterTiles l ts).ctx l).fence = (s.ctx l).fence := by
  unfold State.enterTiles
  exact List.foldlRecOn ts.eraseDups _ (motive := fun t : State => (t.ctx l).fence = (s.ctx l).fence) rfl
    fun t h x _ => (State.setTileStat_fence ..).trans h

theorem State.enterTiles_one (s : State) (l : Loc) (x : TileRef) :
    s.enterTiles l [x] = s.setTileStat l x.code (x.role.enter (s.tileStat l x.code)) := by
  rfl

/-! ### What an operation finds of tiles before and after the issue of its bundle (R29) -/

/-- Two states in which a context finds the same of its tiles, of the z tiles and of the formats of the pool. -/
structure State.SameTiles (s t : State) (l : Loc) : Prop where
  tiles : (s.ctx l).tiles = (t.ctx l).tiles
  prog : s.progOf l = t.progOf l
  cfg : (s.ctx l).cur.ctl.sccfg = (t.ctx l).cur.ctl.sccfg
  ztiles : (s.core l.core).ztiles = (t.core l.core).ztiles
  fmt : (s.core l.core).fmt = (t.core l.core).fmt
  frames : (s.core l.core).frames = (t.core l.core).frames
  poolpart : (s.core l.core).poolpart = (t.core l.core).poolpart

theorem State.SameTiles.acting (s : State) (l : Loc) : (s.acting l).SameTiles (s.take l) l := by
  have hctx : (s.acting l).ctx l = ((s.take l).ctx l).unmarked := by rw [State.acting_ctx, State.take_ctx]
  have htake : (s.take l).core l.core = { s.core l.core with taken := some l.ctx } := State.core_setCore ..
  obtain ⟨_, _, _, hcore⟩ := s.acting_core_eq l
  constructor
  · rw [hctx]; rfl
  · rw [State.progOf, hctx]; rfl
  · rw [hctx]; rfl
  all_goals rw [hcore, htake]

namespace State.SameTiles

variable {s t : State} {l : Loc}

theorem zCode (h : s.SameTiles t l) (x : Word) : (s.core l.core).zCode x = (t.core l.core).zCode x := by
  simp only [Core.zCode, Core.zGranted, h.poolpart]
  rfl

theorem ztile (h : s.SameTiles t l) (n : Nat) : (s.core l.core).ztile n = (t.core l.core).ztile n := by
  simp only [Core.ztile, h.ztiles]

theorem ownedZ (h : s.SameTiles t l) (x : Word) : s.ownedZ l x = t.ownedZ l x := by
  simp only [State.ownedZ, State.ownsZ, h.zCode, h.ztile, h.prog]
  rfl

theorem oneZ (h : s.SameTiles t l) (x : Word) (role : TileRole) : s.oneZ l x role = t.oneZ l x role := by
  simp only [State.oneZ, h.ownedZ]

theorem zeroTile (h : s.SameTiles t l) (o : Opd) : s.zeroTile l o = t.zeroTile l o := by
  simp only [State.zeroTile, h.zCode, h.ztile, h.prog]

theorem tTile (h : s.SameTiles t l) (x : Word) (role : TileRole) : s.tTile l x role = t.tTile l x role := by
  simp only [State.tTile, State.tileRef, Ctx.tile, h.tiles]

theorem tTiles (h : s.SameTiles t l) (xs : List (Word × TileRole)) : s.tTiles l xs = t.tTiles l xs := by
  induction xs with
  | nil => rfl
  | cons x xs ih => simp only [State.tTiles, h.tTile, ih]

theorem spansOne (h : s.SameTiles t l) (d : Word) (kinds : List Nat) :
    (s.core l.core).spansOne d kinds = (t.core l.core).spansOne d kinds := by
  simp only [Core.spansOne, Core.spansKind, Core.frameHeld, Core.fmtOf, h.fmt, h.frames]

theorem spansAgree (h : s.SameTiles t l) (d : Word) : (s.core l.core).spansAgree d = (t.core l.core).spansAgree d := by
  simp only [Core.spansAgree, Core.frameHeld, Core.fmtOf, h.fmt, h.frames]

theorem cvtTile (h : s.SameTiles t l) (o : Opd) : s.cvtTile l o = t.cvtTile l o := by
  simp only [State.cvtTile, State.oneTile, h.tTile, h.spansAgree]

end State.SameTiles

/-! ### The tiles that operands name (R144) -/

theorem State.tTile_ok {s : State} {l : Loc} {x : Word} {role : TileRole} {t : TileRef} (h : s.tTile l x role = .ok t) :
    t.code = x.toNat ∧ t.role = role := by
  by_cases hx : x.toNat < 32
  · rw [State.tTile, tCode, if_pos hx] at h
    cases h
    exact ⟨rfl, rfl⟩
  · rw [State.tTile, tCode, if_neg hx] at h
    cases h

theorem Core.zCode_some {k : Core} {x : Word} {c : Nat} (h : k.zCode x = some c) : c = x.toNat ∧ 32 ≤ x.toNat := by
  unfold Core.zCode at h
  split at h
  · next hz => exact ⟨(Option.some.inj h).symm, hz.1⟩
  · cases h

theorem State.ownedZ_ok {s : State} {l : Loc} {x : Word} {c : Nat} (h : s.ownedZ l x = .ok c) : c = x.toNat ∧ 32 ≤ x.toNat := by
  unfold State.ownedZ at h
  split at h
  · cases h
  · next hz =>
    split at h
    · cases h
      exact Core.zCode_some hz
    · cases h

theorem State.oneZ_ok {s : State} {l : Loc} {x : Word} {role : TileRole} {ts : List TileRef} (h : s.oneZ l x role = .ok ts) :
    ts = [⟨x.toNat, 0, role⟩] ∧ 32 ≤ x.toNat := by
  unfold State.oneZ at h
  split at h
  · next hz =>
    obtain ⟨rfl, hle⟩ := State.ownedZ_ok hz
    cases h
    exact ⟨rfl, hle⟩
  · cases h

theorem State.oneTile_ok {s : State} {l : Loc} {x : Word} {role : TileRole} {check : Word → Option Cause} {ts : List TileRef}
    (h : s.oneTile l x role check = .ok ts) : ∃ t, ts = [t] ∧ t.code = x.toNat ∧ t.role = role := by
  unfold State.oneTile at h
  split at h
  · cases h
  · next ht =>
    split at h
    · cases h
    · cases h
      exact ⟨_, rfl, State.tTile_ok ht⟩

theorem State.zeroTile_ok {s : State} {l : Loc} {o : Opd} {ts : List TileRef} (h : s.zeroTile l o = .ok ts) :
    ts = [⟨o.xw.toNat, 0, .destination⟩] ∧ 32 ≤ o.xw.toNat := by
  unfold State.zeroTile at h
  dsimp only at h
  split at h
  · cases h
  · next hz =>
    obtain ⟨rfl, hle⟩ := Core.zCode_some hz
    split at h
    · cases h
    · cases h
      exact ⟨rfl, hle⟩

theorem State.tTiles_codes {s : State} {l : Loc} {xs : List (Word × TileRole)} {ts : List TileRef} (h : s.tTiles l xs = .ok ts) :
    ts.map TileRef.code = xs.map fun x => x.1.toNat := by
  induction xs generalizing ts with
  | nil =>
    cases h
    rfl
  | cons x xs ih =>
    obtain ⟨w, role⟩ := x
    unfold State.tTiles at h
    split at h
    · cases h
    · next ht =>
      split at h
      · cases h
      · next hts =>
        cases h
        rw [List.map_cons, List.map_cons, ih hts, (State.tTile_ok ht).1]

/-! ### An operation of the sequencer joins its queue (R152) -/

/-- The entry of an operation in the queue of the sequencer: its operands, and the lanes that its trigger found enabled (R152). -/
def State.mxEntry (s : State) (l : Loc) (o : Opd) (routine : Nat) (mp : List Word) (ts : List TileRef) (ctl : Word) : MxOp :=
  { id := s.opId, who := s.who l, op := o.op, routine := routine, mp := mp, tiles := ts, ctl := ctl, vec := o.xv, lanes := Spec.mask (s.ctx l),
    resume := none }

/-- A state in which the trigger of an operation has done no more than change the store and the z tiles of its core. -/
structure State.Prepared (s u : State) (l : Loc) : Prop where
  core : ∃ store zs, u.core l.core = { (s.acting l).core l.core with store := store, ztiles := zs }
  ctx : u.ctx l = (s.acting l).ctx l
  opId : u.opId = s.opId

theorem State.Prepared.acting (s : State) (l : Loc) : s.Prepared (s.acting l) l := ⟨⟨_, _, rfl⟩, rfl, State.acting_opId s l⟩

theorem State.Prepared.setCore (s : State) (l : Loc) (store : Table Word) (zs : Table ZTile) :
    s.Prepared ((s.acting l).setCore l.core { (s.acting l).core l.core with store := store, ztiles := zs }) l :=
  ⟨⟨store, zs, State.core_setCore ..⟩, State.setCore_ctx_of_ctxs (by rfl) l, State.acting_opId s l⟩

section
variable {s u : State} {l : Loc} (o : Opd) (routine : Nat) (mp : List Word) (ts : List TileRef) (ctl : Word)

/-- A queued operation is at the tail of the queue, and its tiles take their roles (R149, R152). -/
theorem State.queueMx_eq (h : s.Prepared u l) : u.queueMx l o routine mp ts ctl =
    (({ u with opId := u.opId + 1 } : State).setCore l.core
      { u.core l.core with mxq := (s.core l.core).mxq ++ [s.mxEntry l o routine mp ts ctl] }).enterTiles l ts := by
  obtain ⟨store, zs, hcore⟩ := h.core
  obtain ⟨_, _, _, hacting⟩ := s.acting_core_eq l
  have hq : (u.core l.core).mxq = (s.core l.core).mxq := by rw [hcore, hacting]
  have hwho : u.who l = s.who l := by
    rw [State.who, h.ctx, State.acting_ctx]
    rfl
  have hlanes : u.laneMask l = Spec.mask (s.ctx l) := by rw [State.laneMask, h.ctx, ← State.acting_laneMask, State.laneMask]
  unfold State.queueMx State.mxEntry
  rw [hwho, hlanes, h.opId, ← hq]
  rfl

/-- A trigger that queues an operation of the sequencer completes: the operation is at the tail of the queue, the store stays, and the one z
tile that it names takes its role. -/
theorem exec_queueMx {i : Instr} (hr : s.ready l i o) (hp : (s.take l).passes l o) (ho : Inward o.op) (hu : s.Prepared u l)
    (hact : (opSem o.op).act (s.acting l) l o = u.queueMx l o routine mp ts ctl) :
    ∃ t, exec i s = .next t ∧ (t.core l.core).mxq = (s.core l.core).mxq ++ [s.mxEntry l o routine mp ts ctl] ∧
      (t.core l.core).store = (u.core l.core).store ∧
      ∀ x, ts = [x] → 32 ≤ x.code →
        let z := (u.core l.core).ztile (x.code - 32)
        (t.core l.core).ztile (x.code - 32) = { z with stat := x.role.enter z.stat } := by
  rw [State.queueMx_eq o routine mp ts ctl hu] at hact
  generalize hv : (({ u with opId := u.opId + 1 } : State).setCore l.core
    { u.core l.core with mxq := (s.core l.core).mxq ++ [s.mxEntry l o routine mp ts ctl] }) = v at hact
  have hvcore : v.core l.core = { u.core l.core with mxq := (s.core l.core).mxq ++ [s.mxEntry l o routine mp ts ctl] } := by
    rw [← hv, State.core_setCore]
  have hvctx : v.ctx l = u.ctx l := by
    rw [← hv]
    exact State.setCore_ctx_of_ctxs (by rfl) l
  obtain ⟨t, hexec, hcore, -⟩ := exec_inward hr hp ho hact (by rw [State.enterTiles_fence, hvctx, hu.ctx])
  obtain ⟨_, _, hentered⟩ := (State.OnlyStats.enterTiles v l ts).core
  refine ⟨t, hexec, ?_, ?_, fun x hx hle => ?_⟩
  · rw [hcore, Core.setCtx_mxq, hentered, hvcore]
  · rw [hcore, Core.setCtx_store, hentered, hvcore]
  · have hztile : (v.core l.core).ztile (x.code - 32) = (u.core l.core).ztile (x.code - 32) := by
      rw [hvcore]
      rfl
    rw [hcore, Core.setCtx_ztile, hx, State.enterTiles_one, State.setTileStat_ztile v l hle, State.tileStat_z v l hle, hztile]

end

/-! ### The operations of the sequencer at their triggers (R154, R159, R163 to R168) -/

/-- A word of the store that is written stands there; the entries that lose their VALID are others (R159). -/
theorem Core.writeStore_store_self (k : Core) (n : Nat) (x : Word) : (k.writeStore n x).store.getD n 0 = x := by
  unfold Core.writeStore
  dsimp only
  split
  · exact Table.getD_set_self ..
  · next hn =>
    refine List.foldlRecOn (List.range 64) _ (motive := fun t : Table Word => t.getD n 0 = x) (Table.getD_set_self ..) fun t h r hr => ?_
    split
    · rw [Table.getD_set_ne _ (by have := List.mem_range.1 hr; omega), h]
    · exact h

section
variable {latches : List (Nat × Width)} {xw : Width} {parts : List Part} {enc : State → Loc → Opd → Except Cause (List TileRef)}
  {go : State → Loc → Opd → List TileRef → State} {s : State} {l : Loc} {o : Opd}

/-- An operation that names tiles acts on some list of tiles. -/
theorem queuedSem_act : ∃ ts, (queuedSem latches xw parts enc go).act s l o = go s l o ts := ⟨_, rfl⟩

/-- An operation that finds its tiles acts on them. -/
theorem queuedSem_act_ok {ts : List TileRef} (h : enc s l o = .ok ts) : (queuedSem latches xw parts enc go).act s l o = go s l o ts := by
  simp only [queuedSem, h]

/-- An operation whose operands are not refused finds its tiles. -/
theorem queuedSem_encoding (h : (queuedSem latches xw parts enc go).encoding s l o = none) : ∃ ts, enc s l o = .ok ts := by
  simp only [queuedSem] at h
  split at h
  · exact ⟨_, ‹_›⟩
  · cases h

/-- An operation that passes its checks acts on the tiles that it found in them. -/
theorem queuedSem_passes (hsem : opSem o.op = queuedSem latches xw parts enc go) (hp : (s.take l).passes l o)
    (hsame : enc (s.acting l) l o = enc (s.take l) l o) :
    ∃ ts, enc (s.acting l) l o = .ok ts ∧ (opSem o.op).act (s.acting l) l o = go (s.acting l) l o ts := by
  obtain ⟨henc, -⟩ := hp
  rw [hsem] at henc
  obtain ⟨ts, hts⟩ := queuedSem_encoding henc
  rw [hsem]
  exact ⟨ts, hsame.trans hts, queuedSem_act_ok (hsame.trans hts)⟩

end

/-- The operations of the engines that join a queue, and SCFG. -/
abbrev queueingOps : List Op := [.mcall, .mwr, .quant, .azero, .awrite, .anorm, .acvt, .scfg, .sload, .scomp, .scarry, .sapply, .fbind, .fswap,
  .snap, .fork, .roll, .fdrop]

theorem inward_of_queueing {op : Op} (h : op ∈ queueingOps) : Inward op := by
  simp only [queueingOps, List.mem_cons, List.not_mem_nil, or_false] at h
  obtain rfl | rfl | rfl | rfl | rfl | rfl | rfl | rfl | rfl | rfl | rfl | rfl | rfl | rfl | rfl | rfl | rfl | rfl := h <;>
    exact ⟨by decide, rfl, fun _ _ _ => rfl⟩

section
variable {i : Instr} {s : State} {l : Loc} {o : Opd} (hr : s.ready l i o) (hp : (s.take l).passes l o)
include hr hp

theorem exec_mcall (hop : o.op = .mcall) : ∃ t ts, exec i s = .next t ∧ (t.core l.core).mxq = (s.core l.core).mxq ++
    [s.mxEntry l o o.xw.toNat ((List.range 8).map fun j => (s.ctx l).cur.mp.getD j 0) ts 0] := by
  have hmp : ((s.acting l).ctx l).cur.mp = (s.ctx l).cur.mp := by
    rw [State.acting_ctx]
    rfl
  obtain ⟨ts, hact⟩ : ∃ ts, (opSem o.op).act (s.acting l) l o =
      (s.acting l).queueMx l o o.xw.toNat ((List.range 8).map fun j => (s.ctx l).cur.mp.getD j 0) ts 0 := by
    rw [hop, opSem_mcall, ← hmp]
    exact queuedSem_act
  obtain ⟨t, hexec, hq, -⟩ := exec_queueMx _ _ _ _ _ hr hp (inward_of_queueing (by rw [hop]; decide)) (.acting s l) hact
  exact ⟨t, ts, hexec, hq⟩

theorem exec_mwr (hop : o.op = .mwr) : ∃ t, exec i s = .next t ∧
    (t.core l.core).mxq = (s.core l.core).mxq ++ [s.mxEntry l o o.b.toNat [] [] o.xw] ∧ (t.core l.core).store.getD o.b.toNat 0 = o.xw := by
  have hu := State.Prepared.setCore s l (((s.acting l).core l.core).writeStore o.b.toNat o.xw).store ((s.acting l).core l.core).ztiles
  obtain ⟨t, hexec, hq, hstore, -⟩ := exec_queueMx o o.b.toNat [] [] o.xw hr hp (inward_of_queueing (by rw [hop]; decide)) hu
    (by rw [hop, opSem_mwr]; rfl)
  refine ⟨t, hexec, hq, ?_⟩
  rw [hstore, State.core_setCore]
  exact Core.writeStore_store_self ..

theorem exec_quant (hop : o.op = .quant) : ∃ t a d, exec i s = .next t ∧
    (t.core l.core).mxq = (s.core l.core).mxq ++ [s.mxEntry l o 0 [] [a, d] 0] ∧
    (a.code = o.b.toNat ∧ a.role = .source) ∧ d.code = o.xw.toNat ∧ d.role = .destination := by
  have hsem : opSem o.op = semQuant := by rw [hop, opSem_quant]
  have hsame := State.SameTiles.acting s l
  obtain ⟨ts, hts, hact⟩ := queuedSem_passes hsem hp (by simp only [hsame.tTile, hsame.spansOne])
  split at hts
  · next a d ha hd =>
    dsimp only at hts
    split at hts
    · cases hts
    · split at hts
      · cases hts
      · cases hts
        obtain ⟨t, hexec, hq, -⟩ := exec_queueMx _ _ _ _ _ hr hp (inward_of_queueing (by rw [hop]; decide)) (.acting s l) hact
        exact ⟨t, a, d, hexec, hq, State.tTile_ok ha, State.tTile_ok hd⟩
  · cases hts
  · cases hts

theorem exec_azero (hop : o.op = .azero) : ∃ t, exec i s = .next t ∧
    (t.core l.core).mxq = (s.core l.core).mxq ++ [s.mxEntry l o 0 [] [⟨o.xw.toNat, 0, .destination⟩] (o.b &&& 0xFFFF)] ∧
    ((t.core l.core).ztile (o.xw.toNat - 32)).owner = s.progOf l ∧ ((t.core l.core).ztile (o.xw.toNat - 32)).stat.state = 1 := by
  have hsem : opSem o.op = semAzero := by rw [hop, opSem_azero]
  have hsame := State.SameTiles.acting s l
  obtain ⟨ts, hts, hact⟩ := queuedSem_passes hsem hp (by simp only [hsame.zeroTile])
  obtain ⟨rfl, hle⟩ := State.zeroTile_ok hts
  have hu := State.Prepared.setCore s l ((s.acting l).core l.core).store (((s.acting l).core l.core).ztiles.set (o.xw.toNat - 32)
    { ((s.acting l).core l.core).ztile (o.xw.toNat - 32) with owner := (s.acting l).progOf l })
  obtain ⟨t, hexec, hq, -, hz⟩ := exec_queueMx _ _ _ _ _ hr hp (inward_of_queueing (by rw [hop]; decide)) hu hact
  refine ⟨t, hexec, hq, ?_⟩
  have hztile := hz _ rfl hle
  rw [State.core_setCore, Core.ztile_set, if_pos rfl] at hztile
  rw [hztile]
  exact ⟨State.acting_progOf s l, rfl⟩

theorem exec_awrite (hop : o.op = .awrite) : ∃ t, exec i s = .next t ∧
    (t.core l.core).mxq = (s.core l.core).mxq ++ [s.mxEntry l o 0 [] [⟨o.b.toNat, 0, .update⟩] o.c] := by
  have hsem : opSem o.op = semAwrite := by rw [hop, opSem_awrite]
  have hsame := State.SameTiles.acting s l
  obtain ⟨ts, hts, hact⟩ := queuedSem_passes hsem hp (by simp only [hsame.ownedZ])
  split at hts
  · next c hc =>
    split at hts
    · cases hts
    · cases hts
      obtain ⟨rfl, -⟩ := State.ownedZ_ok hc
      obtain ⟨t, hexec, hq, -⟩ := exec_queueMx _ _ _ _ _ hr hp (inward_of_queueing (by rw [hop]; decide)) (.acting s l) hact
      exact ⟨t, hexec, hq⟩
  · cases hts

theorem exec_anorm (hop : o.op = .anorm) : ∃ t, exec i s = .next t ∧
    (t.core l.core).mxq = (s.core l.core).mxq ++ [s.mxEntry l o 0 [] [⟨o.xw.toNat, 0, .update⟩] 0] ∧
    ((t.core l.core).ztile (o.xw.toNat - 32)).stat.state = 1 := by
  have hsem : opSem o.op = semAnorm := by rw [hop, opSem_anorm]
  have hsame := State.SameTiles.acting s l
  obtain ⟨ts, hts, hact⟩ := queuedSem_passes hsem hp (by simp only [hsame.oneZ])
  obtain ⟨rfl, hle⟩ := State.oneZ_ok hts
  obtain ⟨t, hexec, hq, -, hz⟩ := exec_queueMx _ _ _ _ _ hr hp (inward_of_queueing (by rw [hop]; decide)) (.acting s l) hact
  refine ⟨t, hexec, hq, ?_⟩
  rw [hz _ rfl hle]
  rfl

theorem exec_acvt (hop : o.op = .acvt) : ∃ t z d, exec i s = .next t ∧
    (t.core l.core).mxq = (s.core l.core).mxq ++ [s.mxEntry l o 0 [] [z, d] 0] ∧
    (z.code = o.b.toNat ∧ z.role = .source) ∧ d.code = o.xw.toNat ∧ d.role = .destination := by
  have hsem : opSem o.op = semAcvt := by rw [hop, opSem_acvt]
  have hsame := State.SameTiles.acting s l
  obtain ⟨ts, hts, hact⟩ := queuedSem_passes hsem hp (by simp only [hsame.oneZ, hsame.cvtTile])
  split at hts
  · next zs ds hz hd =>
    obtain ⟨rfl, -⟩ := State.oneZ_ok hz
    obtain ⟨d, rfl, hcode⟩ := State.oneTile_ok hd
    cases hts
    obtain ⟨t, hexec, hq, -⟩ := exec_queueMx _ _ _ _ _ hr hp (inward_of_queueing (by rw [hop]; decide)) (.acting s l) hact
    exact ⟨t, _, d, hexec, hq, ⟨rfl, rfl⟩, hcode⟩
  · cases hts
  · cases hts

end

/-- The entry that joins the queue carries the operands of its trigger (R152). -/
theorem matrixOperationsJoinTheQueue : Spec.MatrixOperationsJoinTheQueue := by
  unfold Spec.MatrixOperationsJoinTheQueue
  intro i s l o hr hp hop
  simp only [List.mem_cons, List.not_mem_nil, or_false] at hop
  obtain hop | hop | hop | hop | hop | hop | hop := hop
  · obtain ⟨t, ts, hexec, hq⟩ := exec_mcall hr hp hop
    refine ⟨t, _, hexec, hq, rfl, rfl, rfl, rfl, rfl, ?_⟩
    simp [hop, State.mxEntry]
  · obtain ⟨t, hexec, hq, hstore⟩ := exec_mwr hr hp hop
    refine ⟨t, _, hexec, hq, rfl, rfl, rfl, rfl, rfl, ?_⟩
    simpa [hop, State.mxEntry] using hstore
  · obtain ⟨t, a, d, hexec, hq, ⟨hac, har⟩, hdc, hdr⟩ := exec_quant hr hp hop
    refine ⟨t, _, hexec, hq, rfl, rfl, rfl, rfl, rfl, ?_⟩
    simp [hop, State.mxEntry, hac, har, hdc, hdr]
  · obtain ⟨t, hexec, hq, howner, hstate⟩ := exec_azero hr hp hop
    refine ⟨t, _, hexec, hq, rfl, rfl, rfl, rfl, rfl, ?_⟩
    simp [hop, State.mxEntry, howner, hstate]
  · obtain ⟨t, hexec, hq⟩ := exec_awrite hr hp hop
    refine ⟨t, _, hexec, hq, rfl, rfl, rfl, rfl, rfl, ?_⟩
    simp [hop, State.mxEntry]
  · obtain ⟨t, hexec, hq, hstate⟩ := exec_anorm hr hp hop
    refine ⟨t, _, hexec, hq, rfl, rfl, rfl, rfl, rfl, ?_⟩
    simp [hop, State.mxEntry, hstate]
  · obtain ⟨t, z, d, hexec, hq, ⟨hzc, hzr⟩, hdc, hdr⟩ := exec_acvt hr hp hop
    refine ⟨t, _, hexec, hq, rfl, rfl, rfl, rfl, rfl, ?_⟩
    simp [hop, State.mxEntry, hzc, hzr, hdc, hdr]

/-! ### SCFG (R175) -/

theorem View.setPred_ctl (w : View) (n : Nat) (b : Bool) : (w.setPred n b).ctl = w.ctl := by
  unfold View.setPred
  split <;> rfl

/-- Another pass of a loop changes no control registers but LOOPST and LOOPCNT (R115). -/
theorem View.nextPass_ctl (w : View) : ∃ st cnt, w.nextPass.ctl = { w.ctl with loopst := st, loopcnt := cnt } := by
  have hmoved (js : List Nat) (sp stages : Nat) : (js.foldl (fun (acc : View) j =>
      acc.setPred (sp + (stages - 1 - j)) (acc.pred (sp + (stages - 1 - j) - 1))) w).ctl = w.ctl :=
    List.foldlRecOn js _ (motive := fun v : View => v.ctl = w.ctl) rfl fun v hv j _ => (View.setPred_ctl ..).trans hv
  unfold View.nextPass
  simp only [apply_ite View.ctl, View.writeReg_ctl, View.setPred_ctl, hmoved, ite_self]
  split
  · exact ⟨_, _, rfl⟩
  · exact ⟨_, _, rfl⟩

theorem View.nextPass_sccfg (w : View) : w.nextPass.ctl.sccfg = w.ctl.sccfg := by
  obtain ⟨_, _, h⟩ := w.nextPass_ctl
  rw [h]

theorem View.loopBoundary_sccfg (w : View) (pc : Word) : (w.loopBoundary pc).1.ctl.sccfg = w.ctl.sccfg := by
  unfold View.loopBoundary
  dsimp only
  split
  · rfl
  · split
    · rfl
    · exact View.nextPass_sccfg w

/-- What both views of a context have in SCCFG once their results have landed, the context has at the end of its bundle (R36, R115). -/
theorem Ctx.endBundle_sccfg {x : Ctx} {v : Word} (hcur : (x.cur.land x.ctime).ctl.sccfg = v)
    (hfin : ∀ w, x.fin = some w → (w.land x.ctime).ctl.sccfg = v) (lp : Bool) : (x.endBundle lp).cur.ctl.sccfg = v := by
  unfold Ctx.endBundle
  dsimp only
  split
  · exact hcur
  · exact hcur
  · cases hf : x.fin with
    | none => exact hcur
    | some w => exact hfin w hf
  · split
    · exact (View.loopBoundary_sccfg ..).trans hcur
    · exact hcur

/-- A write of SCCFG that lands with its bundle, the last of those in flight (R175). -/
theorem View.land_sccfg {w : View} {fs : List Flight} {t : Nat} {sbit h : Bool} {x : Word} (hw : w.flights = fs ++ [⟨t, sbit, h, [.ctl 0x00B x]⟩]) :
    (w.land t).ctl.sccfg = x &&& 0x3FFFFFFFFFFFFF := by
  rw [View.land_of_append hw (Nat.le_refl t)]
  rfl

/-- SCCFG holds the whole of a configuration that is not refused (R175). -/
theorem and_sccfg_of_not_bad {x : Word} (h : badScfg x = false) : x &&& 0x3FFFFFFFFFFFFF = x := by
  have hzero : bits x 63 54 = 0 := by
    unfold badScfg at h
    rw [Bool.or_eq_false_iff] at h
    simpa using h.1
  apply BitVec.eq_of_toNat_eq
  rw [BitVec.toNat_and]
  exact (Nat.and_two_pow_sub_one_eq_mod x.toNat 54).trans (Nat.mod_eq_of_lt (bits_eq_zero_iff.1 hzero))

theorem exec_scfg {i : Instr} {s : State} {l : Loc} {o : Opd} (hr : s.ready l i o) (hp : (s.take l).passes l o) (hop : o.op = .scfg) :
    ∃ t, exec i s = .next t ∧ (t.ctx l).cur.ctl.sccfg = o.xw := by
  have hsem : opSem o.op = semScfg := by rw [hop, opSem_scfg]
  have hgood : badScfg o.xw = false := by
    obtain ⟨henc, -⟩ := hp
    rw [hsem] at henc
    by_contra hbad
    simp [semScfg, hbad] at henc
  obtain ⟨hcrw, hacc, hafter⟩ := inward_of_queueing (op := o.op) (by rw [hop]; decide)
  let f : Flight := ⟨(s.ctx l).ctime, false, (s.ctx l).cur.inHandler, [.ctl 0x00B o.xw]⟩
  have hact : ((opSem o.op).act (s.acting l) l o).ctx l =
      (s.ctx l).unmarked.onView false fun w => { w with flights := w.flights ++ [f] } := by
    rw [hsem, ← State.acting_ctx]
    exact (State.onView_ctx ..).trans (by rw [State.acting_ctx]; rfl)
  refine ⟨_, exec_acts hr hp hacc (fun t => hafter t l o) (by rw [hact]; exact State.fence_of_ready hr), ?_⟩
  rw [State.completed, State.closeBundle_ctx hcrw, hact, ← and_sccfg_of_not_bad hgood]
  refine Ctx.endBundle_sccfg (View.land_sccfg (View.increment_flights ..)) (fun w hw => ?_) _
  have hflights : ∃ fs, w.flights = fs ++ [f] := by
    unfold Ctx.onView at hw
    dsimp only at hw
    split at hw
    · obtain ⟨v, -, rfl⟩ := Option.map_eq_some_iff.1 hw
      exact ⟨_, rfl⟩
    · obtain ⟨v, hv, rfl⟩ := Option.map_eq_some_iff.1 hw
      obtain ⟨v, -, rfl⟩ := Option.map_eq_some_iff.1 hv
      exact ⟨_, View.increment_flights ..⟩
  obtain ⟨fs, hfs⟩ := hflights
  exact View.land_sccfg hfs

/-! ### An operation of the scan engine joins its queue (R176, R182) -/

/-- The entry of an operation in the queue of the scan engine, with its copy of SCCFG (R175, R182). -/
def State.scEntry (s : State) (l : Loc) (o : Opd) (ts : List TileRef) : ScOp :=
  { id := s.opId, who := s.who l, op := o.op, cfg := (s.ctx l).cur.ctl.sccfg, tiles := ts, next := 0, due := 0 }

/-- The core of an operation that has joined the queue of the scan engine, and that SCNT of its slot counts (R182). -/
def Core.scanQueued (k : Core) (e : ScOp) : Core :=
  { k with
    scq := k.scq ++ [e]
    slots := k.slots.set (cfgSlot e.cfg) { k.slot (cfgSlot e.cfg) with scnt := (k.slot (cfgSlot e.cfg)).scnt + 1 } }

theorem Core.scanQueued_slot (k : Core) (e : ScOp) :
    (k.scanQueued e).slot (cfgSlot e.cfg) = { k.slot (cfgSlot e.cfg) with scnt := (k.slot (cfgSlot e.cfg)).scnt + 1 } :=
  Table.getD_set_self ..

section
variable {latches : List (Nat × Width)} {named : Opd → List (Word × TileRole)} {rows : Word → Nat} {s : State} {l : Loc} {o : Opd}

theorem scanSem_encoding (h : (scanSem latches named rows).encoding s l o = none) : ∃ ts, s.tTiles l (named o) = .ok ts := by
  simp only [scanSem] at h
  split at h
  · cases h
  · exact ⟨_, ‹_›⟩

theorem scanSem_act {ts : List TileRef} (h : s.tTiles l (named o) = .ok ts) : (scanSem latches named rows).act s l o =
    (({ s with opId := s.opId + 1 } : State).setCore l.core ((s.core l.core).scanQueued (s.scEntry l o ts))).enterTiles l ts := by
  simp only [scanSem, h, State.setSlot, State.core_setCore, State.setCore_setCore]
  rfl

/-- A scan operation completes: it is at the tail of its queue, and SCNT of its slot counts it. -/
theorem exec_scan {i : Instr} (hr : s.ready l i o) (hp : (s.take l).passes l o) (ho : Inward o.op)
    (hsem : opSem o.op = scanSem latches named rows) :
    ∃ t ts, exec i s = .next t ∧ (t.core l.core).scq = (s.core l.core).scq ++ [s.scEntry l o ts] ∧
      ((t.core l.core).slot (cfgSlot (s.ctx l).cur.ctl.sccfg)).scnt = ((s.core l.core).slot (cfgSlot (s.ctx l).cur.ctl.sccfg)).scnt + 1 ∧
      ts.map TileRef.code = (named o).map fun x => x.1.toNat := by
  obtain ⟨ts, hts⟩ : ∃ ts, (s.take l).tTiles l (named o) = .ok ts := by
    obtain ⟨henc, -⟩ := hp
    rw [hsem] at henc
    exact scanSem_encoding henc
  have hact := scanSem_act (latches := latches) (rows := rows) (((State.SameTiles.acting s l).tTiles (named o)).trans hts)
  have hentry : (s.acting l).scEntry l o ts = s.scEntry l o ts := by
    unfold State.scEntry State.who
    rw [State.acting_ctx, State.acting_opId]
    rfl
  rw [← hsem, hentry] at hact
  generalize hv : (({ s.acting l with opId := (s.acting l).opId + 1 } : State).setCore l.core
    (((s.acting l).core l.core).scanQueued (s.scEntry l o ts))) = v at hact
  have hvcore : v.core l.core = ((s.acting l).core l.core).scanQueued (s.scEntry l o ts) := by rw [← hv, State.core_setCore]
  have hvctx : v.ctx l = (s.acting l).ctx l := by
    rw [← hv]
    exact State.setCore_ctx_of_ctxs (by rfl) l
  obtain ⟨t, hexec, hcore, -⟩ := exec_inward hr hp ho hact (by rw [State.enterTiles_fence, hvctx])
  obtain ⟨_, _, hentered⟩ := (State.OnlyStats.enterTiles v l ts).core
  obtain ⟨_, _, _, hacting⟩ := s.acting_core_eq l
  refine ⟨t, ts, hexec, ?_, ?_, State.tTiles_codes hts⟩
  · rw [hcore, Core.setCtx_scq, hentered, hvcore, hacting]
    rfl
  · have hslot : (t.core l.core).slot (cfgSlot (s.ctx l).cur.ctl.sccfg) =
        (((s.acting l).core l.core).scanQueued (s.scEntry l o ts)).slot (cfgSlot (s.ctx l).cur.ctl.sccfg) := by
      rw [hcore, hentered, hvcore]
      rfl
    have hcounted := ((s.acting l).core l.core).scanQueued_slot (s.scEntry l o ts)
    rw [hslot]
    rw [State.scEntry] at hcounted ⊢
    rw [hcounted, (State.SameReads.acting s l).slot]

end

theorem scanOperationsJoinTheQueue : Spec.ScanOperationsJoinTheQueue := by
  unfold Spec.ScanOperationsJoinTheQueue
  intro i s l o hr hp
  refine ⟨fun hop _ => exec_scfg hr hp hop, fun hop => ?_⟩
  intro c n
  have hslot : cfgSlot c = n := bits_eq_toNat_extractLsb' ..
  have hmem : o.op ∈ queueingOps := (by decide : [Op.sload, .scomp, .scarry, .sapply] ⊆ queueingOps) hop
  have hjoined {latches : List (Nat × Width)} {named : Opd → List (Word × TileRole)} {rows : Word → Nat}
      (hsem : opSem o.op = scanSem latches named rows) := exec_scan hr hp (inward_of_queueing hmem) hsem
  rw [hslot] at hjoined
  simp only [List.mem_cons, List.not_mem_nil, or_false] at hop
  obtain hop | hop | hop | hop := hop
  · obtain ⟨t, ts, hexec, hq, hscnt, hcodes⟩ := hjoined (by rw [hop, opSem_sload]; rfl)
    exact ⟨t, _, hexec, hq, rfl, rfl, rfl, rfl, rfl, hscnt, by rw [hop]; exact hcodes⟩
  · obtain ⟨t, ts, hexec, hq, hscnt, hcodes⟩ := hjoined (by rw [hop, opSem_scomp]; rfl)
    exact ⟨t, _, hexec, hq, rfl, rfl, rfl, rfl, rfl, hscnt, by rw [hop]; exact hcodes⟩
  · obtain ⟨t, ts, hexec, hq, hscnt, hcodes⟩ := hjoined (by rw [hop, opSem_scarry]; rfl)
    exact ⟨t, _, hexec, hq, rfl, rfl, rfl, rfl, rfl, hscnt, by rw [hop]; exact hcodes⟩
  · obtain ⟨t, ts, hexec, hq, hscnt, hcodes⟩ := hjoined (by rw [hop, opSem_sapply]; rfl)
    exact ⟨t, _, hexec, hq, rfl, rfl, rfl, rfl, rfl, hscnt, by rw [hop]; exact hcodes⟩

/-! ### An operation of the frame engine joins its queue (R171, R183, R184) -/

/-- The entry of an operation in the queue of the frame engine (R183). -/
def State.frEntry (s : State) (l : Loc) (o : Opd) (frame : Nat) : FrOp :=
  { id := s.opId, who := s.who l, op := o.op, cmd := o.xw, o1 := o.b, o2 := o.c, frame := frame, running := false, acts := true,
    area := .found 0 0, area2 := .found 0 0, gone := none }

/-- A frame slot with one operation more: FBIND and FORK bind a frame, and FDROP unbinds the one that it has (R184, R186). -/
def FrameSlot.joined (f : FrameSlot) (op : Op) (new : Nat) : FrameSlot :=
  { f with
    frame := if binds op then some new else if op = .fdrop then none else f.frame
    err := !binds op && f.err
    fcnt := f.fcnt + 1 }

/-- The frame that FBIND and FORK bind, by their latches (R184; log 15). -/
def Opd.newFrame (o : Opd) (vd : Nat) : Frame :=
  ⟨keySid o.b, keyLayer o.b, bits o.c 6 0, placeNe o.c, 0, 0, false, vd⟩

/-- The core of an operation that has joined the queue of the frame engine (R183, R184). -/
def Core.frameQueued (k : Core) (o : Opd) (e : FrOp) (next : Nat) : Core :=
  { k with
    frq := k.frq ++ [e]
    slots := k.slots.set (cmdSlot o.xw) ((k.slot (cmdSlot o.xw)).joined o.op k.frameId)
    frames := if binds o.op then k.frames.set k.frameId (o.newFrame e.who.bind.vd) else k.frames
    frameId := next }

section
variable {s : State} {l : Loc} {o : Opd}

theorem frameSem_act (latches : List (Nat × Width)) (s : State) (l : Loc) (o : Opd) : ∃ frame next, (frameSem o.op latches).act s l o =
    ({ s with opId := s.opId + 1 } : State).setCore l.core ((s.core l.core).frameQueued o (s.frEntry l o frame) next) := by
  unfold frameSem Core.frameQueued FrameSlot.joined State.frEntry
  dsimp only
  by_cases hbinds : binds o.op = true
  · simp only [hbinds, if_true]
    exact ⟨_, _, rfl⟩
  · by_cases hdrop : o.op = .fdrop
    · have hnot : binds Op.fdrop = false := rfl
      simp only [hnot, hdrop, Bool.false_eq_true, if_false, if_true]
      exact ⟨_, _, rfl⟩
    · simp only [hbinds, hdrop, Bool.false_eq_true, if_false]
      exact ⟨_, _, rfl⟩

theorem Core.frameQueued_slot (k : Core) (o : Opd) (e : FrOp) (next : Nat) :
    (k.frameQueued o e next).slot (cmdSlot o.xw) = (k.slot (cmdSlot o.xw)).joined o.op k.frameId := Table.getD_set_self ..

/-- A slot that an operation binds has the new frame. -/
theorem Core.frameQueued_frameOf (k : Core) {o : Opd} (hbinds : binds o.op = true) (e : FrOp) (next : Nat) :
    (k.frameQueued o e next).frameOf (cmdSlot o.xw) = o.newFrame e.who.bind.vd := by
  have hframe : ((k.frameQueued o e next).slot (cmdSlot o.xw)).frame = some k.frameId := by
    rw [Core.frameQueued_slot]
    exact if_pos hbinds
  unfold Core.frameOf
  rw [hframe]
  dsimp only [Core.frameQueued]
  rw [if_pos hbinds, Table.getD_set_self]

/-- A frame operation completes: it is at the tail of its queue, and its slot is what it makes of it. -/
theorem exec_frame {i : Instr} {latches : List (Nat × Width)} (hr : s.ready l i o) (hp : (s.take l).passes l o) (ho : Inward o.op)
    (hsem : opSem o.op = frameSem o.op latches) :
    ∃ t frame new, exec i s = .next t ∧ (t.core l.core).frq = (s.core l.core).frq ++ [s.frEntry l o frame] ∧
      (t.core l.core).slot (cmdSlot o.xw) = ((s.core l.core).slot (cmdSlot o.xw)).joined o.op new ∧
      (binds o.op = true → (t.core l.core).frameOf (cmdSlot o.xw) = o.newFrame (s.who l).bind.vd) := by
  obtain ⟨frame, next, hact⟩ := frameSem_act latches (s.acting l) l o
  have hentry : (s.acting l).frEntry l o frame = s.frEntry l o frame := by
    unfold State.frEntry State.who
    rw [State.acting_ctx, State.acting_opId]
    rfl
  rw [← hsem, hentry] at hact
  obtain ⟨t, hexec, hcore, -⟩ := exec_inward hr hp ho hact (by rw [State.setCore_ctx_of_ctxs (by rfl)]; rfl)
  rw [State.core_setCore] at hcore
  obtain ⟨_, _, _, hacting⟩ := s.acting_core_eq l
  refine ⟨t, frame, ((s.acting l).core l.core).frameId, hexec, ?_, ?_, fun hbinds => ?_⟩
  · rw [hcore, Core.setCtx_frq, hacting]
    rfl
  · rw [hcore, ← (State.SameReads.acting s l).slot]
    exact Core.frameQueued_slot _ o (s.frEntry l o frame) next
  · rw [hcore]
    exact Core.frameQueued_frameOf _ hbinds (s.frEntry l o frame) next

theorem Core.heldBy_none (k : Core) (b : Nat) : k.heldBy none b = false := by
  simp [Core.heldBy, Core.claimsOf]

theorem placeBanks_ne_nil (p : Word) : placeBanks p ≠ [] := by
  unfold placeBanks frameBanks frameBytes
  rw [Ne, List.map_eq_nil_iff, List.range_eq_nil]
  omega

/-- A slot is bound for a program alone: FBIND and FORK wait for banks that their program holds (R184). -/
theorem binding_of_frameSem {op : Op} {latches : List (Nat × Width)} (hbinds : binds op = true)
    (h : (frameSem op latches).blocks s l o = false) : ∃ b, (s.ctx l).binding = some b := by
  by_contra hnone
  have hprog : s.progOf l = none := by
    rw [State.progOf, Option.eq_none_iff_forall_ne_some.2 fun b hb => hnone ⟨b, hb⟩]
    rfl
  obtain ⟨b, hb⟩ := List.exists_mem_of_ne_nil _ (placeBanks_ne_nil o.c)
  have hwaits : (placeBanks o.c).any (fun b => !(s.core l.core).heldBy (s.progOf l) b || (s.core l.core).frameHeld b) = true :=
    List.any_eq_true.2 ⟨b, hb, by rw [hprog, Core.heldBy_none]; rfl⟩
  simp [frameSem, hbinds, hwaits] at h

/-- The frame that a program binds is that of its latches, for its device (R184). -/
theorem newFrame_eq (o : Opd) {b : Binding} (hb : (s.ctx l).binding = some b) : o.newFrame (s.who l).bind.vd =
    ⟨(o.b.extractLsb' 0 16).toNat, (o.b.extractLsb' 16 8).toNat, (o.c.extractLsb' 0 7).toNat, 32 * ((o.c.extractLsb' 7 13).toNat + 1), 0, 0,
      false, ((s.ctx l).binding.map Binding.vd).getD 256⟩ := by
  have hvd : (s.who l).bind.vd = b.vd := by rw [State.who, hb]; rfl
  rw [Opd.newFrame, hvd, hb, keySid, keyLayer, placeNe]
  simp only [bits_eq_toNat_extractLsb']
  rfl

end

theorem opSem_frame {op : Op} (h : op ∈ [Op.fbind, .fswap, .snap, .fork, .roll, .fdrop]) : ∃ latches, opSem op = frameSem op latches := by
  simp only [List.mem_cons, List.not_mem_nil, or_false] at h
  obtain rfl | rfl | rfl | rfl | rfl | rfl := h <;> exact ⟨_, rfl⟩

theorem frameOperationsJoinTheQueue : Spec.FrameOperationsJoinTheQueue := by
  unfold Spec.FrameOperationsJoinTheQueue
  intro i s l o hr hp hop n f
  obtain ⟨latches, hsem⟩ := opSem_frame hop
  have hslotNo : cmdSlot o.xw = n := bits_eq_toNat_extractLsb' ..
  have hmem : o.op ∈ queueingOps := (by decide : [Op.fbind, .fswap, .snap, .fork, .roll, .fdrop] ⊆ queueingOps) hop
  obtain ⟨t, frame, new, hexec, hq, hslot, hframe⟩ := exec_frame hr hp (inward_of_queueing hmem) hsem
  rw [hslotNo] at hslot hframe
  refine ⟨t, _, hexec, hq, rfl, rfl, rfl, rfl, rfl, rfl, rfl, by rw [hslot]; rfl, fun hb => ?_, fun hd => ?_, fun hk => ?_⟩
  · have hbinds : binds o.op = true := by
      simp only [List.mem_cons, List.not_mem_nil, or_false] at hb
      obtain hb | hb := hb <;> rw [hb] <;> rfl
    obtain ⟨-, -, -, hblocks⟩ := hp
    rw [hsem] at hblocks
    obtain ⟨b, hbound⟩ := binding_of_frameSem hbinds hblocks
    rw [State.take_ctx] at hbound
    refine ⟨?_, (hframe hbinds).trans (newFrame_eq o hbound)⟩
    rw [hslot, FrameSlot.joined, hbinds]
    rfl
  · rw [hslot, hd]
    rfl
  · rw [hslot]
    simp only [List.mem_cons, List.not_mem_nil, or_false] at hk
    obtain hk | hk | hk := hk <;> rw [hk] <;> rfl

/-- Settles O30: an operation that passes its checks finds, as it acts, the tiles that the checks found, and its entry takes its operands. -/
theorem engineOperationsJoinTheirQueue : Obligations.EngineOperationsJoinTheirQueue := by
  unfold Obligations.EngineOperationsJoinTheirQueue
  exact ⟨matrixOperationsJoinTheQueue, scanOperationsJoinTheQueue, frameOperationsJoinTheQueue⟩

end Sys2Proof.Machine

/-! # Operations of the matrix sequencer start and complete (O41) -/

namespace Sys2Proof.Machine

/-! ### What the operations that are no calls leave of their core (R163, R168) -/

namespace State.OnlyPools

theorem writeBlocks (s : State) (c : Nat) (a : Accessor) (d : Word) (f : Nat → Fp × Nat) (gs : List Nat) :
    s.OnlyPools (s.writeBlocks c a d f gs).1 := by
  induction gs generalizing s with
  | nil => exact refl s
  | cons g gs ih => exact (setBlock ..).trans (ih _)

theorem writeElems (s : State) (c : Nat) (a : Accessor) (d : Word) (f : Nat → Nat × Nat) (es : List Nat) :
    s.OnlyPools (s.writeElems c a d f es).1 := by
  induction es generalizing s with
  | nil => exact refl s
  | cons e es ih => exact (setPoolBytes ..).trans (ih _)

end State.OnlyPools

/-- A core whose engines are as they were: at most its pool, its tiles and its contexts changed. -/
def Core.SameEngines (k j : Core) : Prop :=
  ∃ ctxs pool keys zs, j = { k with ctxs := ctxs, pool := pool, sectorKey := keys, ztiles := zs }

namespace Core.SameEngines

theorem refl (k : Core) : k.SameEngines k := ⟨_, _, _, _, rfl⟩

theorem trans {k j i : Core} (h : k.SameEngines j) (h' : j.SameEngines i) : k.SameEngines i := by
  obtain ⟨_, _, _, _, rfl⟩ := h
  obtain ⟨_, _, _, _, rfl⟩ := h'
  exact ⟨_, _, _, _, rfl⟩

theorem of_onlyPools {s t : State} (h : s.OnlyPools t) (c : Nat) : (s.core c).SameEngines (t.core c) := by
  obtain ⟨_, _, h⟩ := h.core c
  exact ⟨_, _, _, _, h⟩

theorem of_onlyStats {s t : State} {c : Nat} (h : s.OnlyStats t c) : (s.core c).SameEngines (t.core c) := by
  obtain ⟨_, _, h⟩ := h.core
  exact ⟨_, _, _, _, h⟩

theorem setZ (s : State) (c i : Nat) (z : ZTile) : (s.core c).SameEngines ((s.setZ c i z).core c) :=
  ⟨_, _, _, _, State.core_setCore ..⟩

theorem doQuant (s : State) (c : Nat) (o : MxOp) : (s.core c).SameEngines ((s.doQuant c o).core c) := by
  unfold State.doQuant
  split
  · exact (of_onlyPools (.writeBlocks ..) c).trans (of_onlyStats (.onTile ..))
  · exact refl _

theorem doAzero (s : State) (c : Nat) (o : MxOp) : (s.core c).SameEngines ((s.doAzero c o).core c) := by
  unfold State.doAzero
  split
  · exact setZ ..
  · exact refl _

theorem doAwrite (s : State) (c : Nat) (o : MxOp) : (s.core c).SameEngines ((s.doAwrite c o).core c) := by
  unfold State.doAwrite
  split
  · exact List.foldlRecOn (enabledLanes o.lanes) _ (motive := fun t : State => (s.core c).SameEngines (t.core c)) (refl _)
      fun t h n _ => h.trans (setZ ..)
  · exact refl _

theorem doAcvt (s : State) (c : Nat) (o : MxOp) : (s.core c).SameEngines ((s.doAcvt c o).core c) := by
  unfold State.doAcvt
  split
  · dsimp only
    split
    · exact (of_onlyPools (.writeBlocks ..) c).trans (of_onlyStats (.onTile ..))
    · exact (of_onlyPools (.writeElems ..) c).trans (of_onlyStats (.onTile ..))
  · exact refl _

end Core.SameEngines

/-! ### AZERO and AWRITE (R164, R166) -/

theorem State.doAzero_elem {s : State} {c : Nat} {o : MxOp} {x : TileRef} (h : o.tiles = [x]) (n : Nat) :
    (((s.doAzero c o).core c).ztile (x.code - 32)).elem n = ⟨0, o.ctl.setWidth 16, false, false, false, false⟩ := by
  unfold State.doAzero
  rw [h]
  dsimp only
  rw [State.ztile_setZ, if_pos rfl]
  rfl

/-- A z tile with one element written. -/
def ZTile.setElem (z : ZTile) (e : Nat) (a : Acc) : ZTile := { z with elems := z.elems.set e a }

theorem ZTile.elem_setElem (z : ZTile) (e n : Nat) (a : Acc) : (z.setElem e a).elem n = if n = e then a else z.elem n := by
  unfold ZTile.setElem ZTile.elem
  split
  · next h => rw [h, Table.getD_set_self]
  · next h => rw [Table.getD_set_ne _ h]

/-- The step of AWRITE for one lane: a WORD of the element of that lane in the row (R166). -/
def State.awriteLane (c i row word : Nat) (v : Vec) (s : State) (n : Nat) : State :=
  s.setZ c i (((s.core c).ztile i).setElem (128 * row + n) (accWrite (((s.core c).ztile i).elem (128 * row + n)) word (lane v n)))

theorem State.doAwrite_eq {s : State} {c : Nat} {o : MxOp} {x : TileRef} (h : o.tiles = [x]) : s.doAwrite c o =
    (enabledLanes o.lanes).foldl (State.awriteLane c (x.code - 32) (bits o.ctl 6 0) (bits o.ctl 8 7) o.vec) s := by
  unfold State.doAwrite
  rw [h]
  rfl

theorem accWrite_low (a : Acc) (x : Lane) : (accWrite a 0 x).w.extractLsb' 0 32 = x := by
  change (a.w.extractLsb' 32 32 ++ x).extractLsb' 0 32 = x
  rw [BitVec.extractLsb'_append_eq_right]

/-- The low word of an element of the row after the lanes of a list are written. -/
theorem State.awriteLanes_low (c i row : Nat) (v : Vec) (ns : List Nat) (s : State) (n : Nat) :
    (((ns.foldl (State.awriteLane c i row 0 v) s).core c).ztile i |>.elem (128 * row + n)).w.extractLsb' 0 32 =
      if n ∈ ns then lane v n else (((s.core c).ztile i).elem (128 * row + n)).w.extractLsb' 0 32 := by
  induction ns generalizing s with
  | nil => rfl
  | cons m ns ih =>
    rw [List.foldl_cons, ih]
    by_cases hmem : n ∈ ns
    · rw [if_pos hmem, if_pos (List.mem_cons_of_mem m hmem)]
    · rw [if_neg hmem, State.awriteLane, State.ztile_setZ, if_pos rfl, ZTile.elem_setElem]
      by_cases hnm : n = m
      · rw [hnm, if_pos rfl, if_pos List.mem_cons_self, accWrite_low]
      · rw [if_neg (by omega), if_neg (by simp [hnm, hmem])]

theorem mem_enabledLanes {m : Mask} {n : Nat} (h : n < 128) : n ∈ enabledLanes m ↔ m.getLsbD n = true := by
  simp [enabledLanes, bit, h]

theorem State.doAwrite_low {s : State} {c n : Nat} {o : MxOp} {x : TileRef} (h : o.tiles = [x]) (hword : (o.ctl.extractLsb' 7 2).toNat = 0)
    (hn : n < 128) :
    (((s.doAwrite c o).core c).ztile (x.code - 32) |>.elem (128 * (o.ctl.extractLsb' 0 7).toNat + n)).w.extractLsb' 0 32 =
      if o.lanes.getLsbD n then lane o.vec n
      else (((s.core c).ztile (x.code - 32)).elem (128 * (o.ctl.extractLsb' 0 7).toNat + n)).w.extractLsb' 0 32 := by
  have hrow : bits o.ctl 6 0 = (o.ctl.extractLsb' 0 7).toNat := bits_eq_toNat_extractLsb' ..
  have hlow : bits o.ctl 8 7 = 0 := (bits_eq_toNat_extractLsb' ..).trans hword
  rw [State.doAwrite_eq h, hrow, hlow, State.awriteLanes_low]
  exact if_congr (mem_enabledLanes hn) rfl rfl

/-! ### The start of an operation (R152, R424) -/

theorem Oper.mayStart_of_holdsAllow {s : State} {wait : Option (Nat × Nat)} {op cycle : Nat} (h : Spec.holdsAllow s wait op cycle) :
    s.oper.mayStart wait op cycle = true := by
  obtain ⟨hfull, hhold⟩ := h
  unfold Oper.mayStart
  rw [hfull]
  cases hh : s.oper.hold with
  | false => rfl
  | true =>
    obtain ⟨n, rfl, hn⟩ := hhold hh
    simp [hn]

/-- The state in which the oldest operation has left the queue of the sequencer, and does not run yet (R152). -/
def State.mxDequeued (s : State) (c : Nat) (rest : List MxOp) : State := s.setCore c { s.core c with mxq := rest, mxRun := none, mxWait := none }

/-- An operation that begins to run: a call at the START of its directory entry, with ik and in at 0; another is done with its effect
(R157). -/
def Core.firstRun (k : Core) (o : MxOp) (done : Bool) : MxRun :=
  { op := o, next := dirStart (k.word o.routine), ik := 0, inn := 0, passes := 0, wload := none, array := [], inner := [], saturated := [],
    trip := false, stopping := false, due := 0, done := done }

/-- What the start of the oldest operation leaves before its run is set, and the run: an operation other than a call has taken effect. -/
structure State.MxStarted (s : State) (c : Nat) (o : MxOp) (rest : List MxOp) (u : State) (r : MxRun) : Prop where
  start : s.startMx c = u.setRun c r
  same : ((s.mxDequeued c rest).core c).SameEngines (u.core c)
  op : r.op = o
  call : o.op = .mcall → o.resume = none → u = s.mxDequeued c rest ∧ r = (s.core c).firstRun o false
  zero : o.op = .azero → u = (s.mxDequeued c rest).doAzero c o ∧ r.done = true
  write : o.op = .awrite → u = (s.mxDequeued c rest).doAwrite c o

/-- The start of an operation that is no new call, no AZERO and no AWRITE. -/
theorem State.MxStarted.of_other {s u : State} {c : Nat} {o : MxOp} {rest : List MxOp} {r : MxRun} (hstart : s.startMx c = u.setRun c r)
    (hsame : ((s.mxDequeued c rest).core c).SameEngines (u.core c)) (hop : r.op = o) (hcall : o.op = .mcall → o.resume ≠ none)
    (hzero : o.op ≠ .azero) (hwrite : o.op ≠ .awrite) : s.MxStarted c o rest u r :=
  ⟨hstart, hsame, hop, fun h h' => absurd h' (hcall h), fun h => absurd h hzero, fun h => absurd h hwrite⟩

theorem State.startMx_started {s : State} {c : Nat} {o : MxOp} {rest : List MxOp} (hrun : (s.core c).mxRun = none)
    (hq : (s.core c).mxq = o :: rest) (hallow : Spec.holdsAllow s (s.core c).mxWait o.id (s.core c).cycle) :
    ∃ u r, s.MxStarted c o rest u r := by
  have hmay := Oper.mayStart_of_holdsAllow hallow
  generalize ht : s.startMx c = t
  have hstart := ht
  unfold State.startMx at hstart
  simp only [hrun, hq, hmay, Bool.not_true, Bool.false_eq_true, if_false] at hstart
  split at hstart
  · next hop =>
    split at hstart
    · exact ⟨_, _, ht.trans hstart.symm, .refl _, rfl, fun _ _ => ⟨rfl, rfl⟩, by rw [hop]; nofun, by rw [hop]; nofun⟩
    · next hres => exact ⟨_, _, .of_other (ht.trans hstart.symm) (.refl _) rfl (by rw [hres]; nofun) (by rw [hop]; nofun) (by rw [hop]; nofun)⟩
  · next hop =>
    exact ⟨_, _, .of_other (ht.trans hstart.symm) (.doQuant ..) rfl (by rw [hop]; nofun) (by rw [hop]; nofun) (by rw [hop]; nofun)⟩
  · next hop =>
    exact ⟨_, _, ht.trans hstart.symm, .doAzero .., rfl, by rw [hop]; nofun, fun _ => ⟨rfl, rfl⟩, by rw [hop]; nofun⟩
  · next hop =>
    exact ⟨_, _, ht.trans hstart.symm, .doAwrite .., rfl, by rw [hop]; nofun, by rw [hop]; nofun, fun _ => rfl⟩
  · next hop =>
    exact ⟨_, _, .of_other (ht.trans hstart.symm) (.doAcvt ..) rfl (by rw [hop]; nofun) (by rw [hop]; nofun) (by rw [hop]; nofun)⟩
  · next hop =>
    split at hstart
    · exact ⟨_, _, .of_other (ht.trans hstart.symm) (.setZ ..) rfl (by rw [hop]; nofun) (by rw [hop]; nofun) (by rw [hop]; nofun)⟩
    · exact ⟨_, _, .of_other (ht.trans hstart.symm) (.refl _) rfl (by rw [hop]; nofun) (by rw [hop]; nofun) (by rw [hop]; nofun)⟩
  · next hcall _ hzero hwrite _ _ =>
    exact ⟨_, _, .of_other (ht.trans hstart.symm) (.refl _) rfl (fun h => absurd h hcall) hzero hwrite⟩

/-- While the hold is active and no wait has begun, the sequencer begins to wait with its oldest operation (R424). -/
theorem State.startMx_held {s : State} {c : Nat} {o : MxOp} {rest : List MxOp} (hrun : (s.core c).mxRun = none)
    (hq : (s.core c).mxq = o :: rest) (hhold : s.oper.hold = true) (hfull : s.oper.fullHold = false) (hwait : (s.core c).mxWait = none) :
    s.startMx c = s.setCore c { s.core c with mxWait := some (o.id, (s.core c).cycle + 256) } := by
  have hmay : s.oper.mayStart none o.id (s.core c).cycle = false := by simp [Oper.mayStart, hhold]
  have hbegin : s.oper.startWait none o.id (s.core c).cycle = some (o.id, (s.core c).cycle + 256) := by simp [Oper.startWait, hfull]
  unfold State.startMx
  simp only [hrun, hq, hwait, hmay, hbegin, Bool.not_false, if_true]

/-- The first step of a call takes its cycles (R158). -/
theorem timed_firstRun (s : State) (c : Nat) {o : MxOp} (rest : List MxOp) (hop : o.op = .mcall) :
    Spec.timed s ((s.mxDequeued c rest).setRun c ((s.core c).firstRun o false)) c := by
  intro r hr _
  have hcore : (s.mxDequeued c rest).core c = { s.core c with mxq := rest, mxRun := none, mxWait := none } := State.core_setCore ..
  rw [State.core_setRun, Option.some.injEq] at hr
  subst hr
  dsimp only
  rw [State.stepCost_eq (r := (s.core c).firstRun o false) hop rfl, hcore]
  rfl

/-- A call that starts anew runs from the START of its entry. -/
theorem mcallStarts {s : State} {c : Nat} {o : MxOp} {rest : List MxOp} {r : MxRun} (hop : o.op = .mcall)
    (hr : ((((s.mxDequeued c rest).setRun c ((s.core c).firstRun o false)).core c).mxRun = some r)) :
    r.next = (((s.core c).word o.routine).extractLsb' 0 12).toNat ∧ r.ik = 0 ∧ r.inn = 0 ∧ r.done = false ∧
      Spec.timed s ((s.mxDequeued c rest).setRun c ((s.core c).firstRun o false)) c := by
  have htimed := timed_firstRun s c rest hop
  rw [State.core_setRun, Option.some.injEq] at hr
  subst hr
  exact ⟨bits_eq_toNat_extractLsb' .., rfl, rfl, rfl, htimed⟩

theorem matrixOperationsStart {s : State} {c : Nat} {o : MxOp} {rest : List MxOp} (hrun : (s.core c).mxRun = none)
    (hq : (s.core c).mxq = o :: rest) (hallow : Spec.holdsAllow s (s.core c).mxWait o.id (s.core c).cycle) :
    ∃ t r, exec (.mxOperationStart c) s = .next t ∧ (t.core c).mxq = rest ∧ (t.core c).mxRun = some r ∧ r.op = o ∧
      (o.op = .mcall → o.resume = none → r.next = (((s.core c).word o.routine).extractLsb' 0 12).toNat ∧ r.ik = 0 ∧ r.inn = 0 ∧
        r.done = false ∧ Spec.timed s t c) ∧
      (∀ x, o.op = .azero → o.tiles = [x] → r.done = true ∧ ∀ n,
        ((t.core c).ztile (x.code - 32)).elem n = ⟨0, o.ctl.setWidth 16, false, false, false, false⟩) ∧
      ∀ x n, o.op = .awrite → o.tiles = [x] → (o.ctl.extractLsb' 7 2).toNat = 0 → n < 128 →
        (((t.core c).ztile (x.code - 32)).elem (128 * (o.ctl.extractLsb' 0 7).toNat + n)).w.extractLsb' 0 32 =
          if o.lanes.getLsbD n then lane o.vec n
          else (((s.core c).ztile (x.code - 32)).elem (128 * (o.ctl.extractLsb' 0 7).toNat + n)).w.extractLsb' 0 32 := by
  obtain ⟨u, r, hstart, ⟨_, _, _, _, hsame⟩, hop, hcall, hzero, hwrite⟩ := State.startMx_started hrun hq hallow
  have hdequeued : (s.mxDequeued c rest).core c = { s.core c with mxq := rest, mxRun := none, mxWait := none } := State.core_setCore ..
  have hz (i : Nat) : ((u.setRun c r).core c).ztile i = (u.core c).ztile i := by
    rw [State.core_setRun]
    rfl
  have hr : ((u.setRun c r).core c).mxRun = some { r with due := (u.core c).cycle + u.stepCost c r } := by rw [State.core_setRun]
  refine ⟨_, _, congrArg Host.Outcome.next hstart, ?_, hr, hop, fun hmcall hres => ?_, fun x hazero hx => ?_, fun x n hawrite hx hword hn => ?_⟩
  · rw [State.core_setRun, hsame, hdequeued]
  · obtain ⟨rfl, rfl⟩ := hcall hmcall hres
    exact mcallStarts hmcall hr
  · obtain ⟨rfl, hdone⟩ := hzero hazero
    exact ⟨hdone, fun n => by rw [hz, State.doAzero_elem hx]⟩
  · obtain rfl := hwrite hawrite
    rw [hz, State.doAwrite_low hx hword hn, hdequeued]
    rfl

/-! ### The completion of an operation (R149) -/

theorem State.endMx_of_not_trip {s : State} {c : Nat} {r : MxRun} (h : r.trip = false) (step : Nat) :
    s.endMx c r step = (s.setCore c { s.core c with mxRun := none }).leaveTiles c r.op.who r.op.tiles := by
  unfold State.endMx
  dsimp only
  rw [h, if_neg Bool.false_ne_true]

theorem State.leaveTiles_one (s : State) (c : Nat) (w : Who) (x : TileRef) : s.leaveTiles c w [x] = s.onTile c w x.code x.role.leave := rfl

theorem State.tileStands_of_core {s : State} {c : Nat} {k : Core} (hctxs : k.ctxs = (s.core c).ctxs) (hz : k.ztiles = (s.core c).ztiles)
    (w : Who) (code : Nat) : (s.setCore c k).tileStands c w code = s.tileStands c w code := by
  unfold State.tileStands State.progOf Core.ztile
  rw [State.setCore_ctx_of_ctxs hctxs, State.core_setCore, hz]

theorem TileRole.leave_state {role : TileRole} (h : role ≠ .source) (st : TileStat) : (role.leave st).state = 2 := by
  cases role with
  | source => exact absurd rfl h
  | update => rfl
  | destination => rfl
  | drain => rfl

theorem matrixOperationsComplete {s : State} {c : Nat} {r : MxRun} (hrun : (s.core c).mxRun = some r) (hdone : r.done = true)
    (htrip : r.trip = false) :
    ∃ t, exec (.mxOperationCompletion c) s = .next t ∧ (t.core c).mxRun = none ∧
      ∀ x, r.op.tiles = [x] → x.role ≠ .source → s.tileStands c r.op.who x.code = true →
        (t.tileStat ⟨c, r.op.who.ctx⟩ x.code).state = 2 := by
  have hend : s.completeMx c = s.endMx c r 0 := by
    unfold State.completeMx
    rw [hrun]
    exact if_pos hdone
  obtain ⟨hnone, -⟩ := s.endMx_eq c r 0
  refine ⟨_, congrArg Host.Outcome.next hend, hnone, fun x hx hrole hstands => ?_⟩
  rw [State.endMx_of_not_trip htrip, hx, State.leaveTiles_one, State.tileStat_onTile,
    if_pos ⟨rfl, (State.tileStands_of_core (by rfl) (by rfl) ..).trans hstands⟩]
  exact TileRole.leave_state hrole _

/-- Settles O41: a start is one case of its definition, whose effect on a z tile the run leaves as it is; a completion lets the tiles leave
their roles. -/
theorem matrixOperationsStartAndComplete : Obligations.MatrixOperationsStartAndComplete := by
  unfold Obligations.MatrixOperationsStartAndComplete
  intro s c
  refine ⟨fun o rest hrun hq hhold hfull hwait => ?_, fun o rest hrun hq hallow => matrixOperationsStart hrun hq hallow,
    fun r hrun hdone htrip => matrixOperationsComplete hrun hdone htrip⟩
  refine ⟨_, congrArg Host.Outcome.next (State.startMx_held hrun hq hhold hfull hwait), ?_, ?_, ?_⟩
  · rw [State.core_setCore, hrun]
  · rw [State.core_setCore, hq]
  · rw [State.core_setCore]

end Sys2Proof.Machine

/-! # Accesses of memory: their acceptance (O34) -/

namespace Sys2Proof.Machine

/-! ### A row whose access waits, and the state in which it is accepted (R193, R194) -/

/-- The context in whose state an accepted access acts (R194). -/
def Ctx.accessing (x : Ctx) : Ctx := { x.unmarked with held := none, mode := .running, wait := none }

/-- The state in which the operation of an accepted access acts (R194). -/
def State.accessing (s : State) (l : Loc) (o : Opd) : State := ((s.waiting l o).endWait l).setCtx l (s.ctx l).accessing

theorem State.turn_eq_some {s : State} {l : Loc} (h : s.turn = some l) :
    (s.core l.core).running = some l.ctx ∧ (s.core l.core).taken = none := by
  unfold State.turn at h
  split at h
  · rename_i hrun htaken
    obtain rfl := Option.some.inj h
    exact ⟨hrun, htaken⟩
  · cases h

/-- A context that leaves its core changes it in that alone. -/
theorem State.block_core_of_running {s : State} {l : Loc} (h : (s.core l.core).running = some l.ctx) (w : Wait) :
    (s.block l w).core l.core =
      { (s.core l.core).setCtx l.ctx { s.ctx l with mode := .blocked, wait := some w } with running := none } := by
  have hrun : (((({ s with waits := s.waits + 1 } : State).setCtx l { s.ctx l with mode := .blocked, wait := some w }).core
      l.core).running = some l.ctx) := by
    rw [State.core_setCtx]
    exact h
  refine (congrArg (fun t : State => t.core l.core) (if_pos hrun)).trans ?_
  rw [State.core_setCore, State.core_setCtx]
  rfl

theorem State.issued_core (s : State) (l : Loc) : ∃ f : Task → Task,
    (s.issued l).core l.core = { s.core l.core with taken := some l.ctx, table := (s.core l.core).table.map f } := by
  obtain ⟨f, -, hf⟩ := (s.take l).charge_core l
  refine ⟨f, hf.trans ?_⟩
  rw [State.take, State.core_setCore]

/-- While a row waits for the acceptance of its access its context has taken the cycle and left the core (R35, R194). -/
theorem State.waiting_core {s : State} {l : Loc} (h : (s.core l.core).running = some l.ctx) (o : Opd) :
    ((s.waiting l o).core l.core).taken = some l.ctx ∧ ((s.waiting l o).core l.core).running = none ∧
      ((s.waiting l o).core l.core).cycle = (s.core l.core).cycle ∧
      ((s.waiting l o).core l.core).poolpart = (s.core l.core).poolpart := by
  obtain ⟨f, hf⟩ := s.issued_core l
  unfold State.waiting
  rw [State.block_core_of_running]
  · rw [State.core_setCtx, hf]
    exact ⟨rfl, rfl, rfl, rfl⟩
  · rw [State.core_setCtx, hf]
    exact h

/-- A wait for acceptance that ends in the cycle of its bundle lets the context go on (R194). -/
theorem State.endWait_now {s : State} {l : Loc} (htaken : (s.core l.core).taken = some l.ctx) (hrun : (s.core l.core).running = none) :
    (s.endWait l).core l.core =
      { (s.core l.core).setCtx l.ctx { s.ctx l with held := none, mode := .running, wait := none } with running := some l.ctx } := by
  unfold State.endWait
  simp only [htaken, hrun, beq_self_eq_true, Option.isNone_none, Bool.and_self, if_true]
  rw [State.core_setCore, State.core_setCtx]

theorem State.endWait_ctx_now {s : State} {l : Loc} (htaken : (s.core l.core).taken = some l.ctx) (hrun : (s.core l.core).running = none) :
    (s.endWait l).ctx l = { s.ctx l with held := none, mode := .running, wait := none } := by
  unfold State.ctx
  rw [State.endWait_now htaken hrun]
  exact Table.getD_set_self ..

theorem State.endWait_opId (s : State) (l : Loc) : (s.endWait l).opId = s.opId := by
  unfold State.endWait
  dsimp only
  split <;> rfl

theorem State.waiting_opId (s : State) (l : Loc) (o : Opd) : (s.waiting l o).opId = s.opId :=
  (State.block_opId ..).trans ((State.charge_opId ..).trans (State.take_opId s l))

theorem State.accessing_opId (s : State) (l : Loc) (o : Opd) : (s.accessing l o).opId = s.opId :=
  (State.endWait_opId ..).trans (State.waiting_opId ..)

@[simp] theorem State.accessing_ctx (s : State) (l : Loc) (o : Opd) : (s.accessing l o).ctx l = (s.ctx l).accessing := State.ctx_setCtx ..

theorem State.accessing_core {s : State} {l : Loc} (h : (s.core l.core).running = some l.ctx) (o : Opd) :
    ((s.accessing l o).core l.core).cycle = (s.core l.core).cycle ∧ ((s.accessing l o).core l.core).poolpart = (s.core l.core).poolpart := by
  obtain ⟨htaken, hrun, hcycle, hpool⟩ := State.waiting_core h o
  unfold State.accessing
  rw [State.core_setCtx, State.endWait_now htaken hrun]
  exact ⟨hcycle, hpool⟩

/-- The wait of an access changes nothing that its translation and its data come from. -/
theorem SameTables.accessing (s : State) (l : Loc) (o : Opd) : SameTables (s.accessing l o) (s.waiting l o) := by
  have h := SameTables.endWait (s.waiting l o) l
  exact ⟨(SameMemory.setCtx _ _ _).trans h.toSameMemory, h.tlb, h.waits⟩

theorem SameMemory.charge (s : State) (l : Loc) : SameMemory (s.charge l) { s with pavs := (s.charge l).pavs } := by
  unfold State.charge
  split
  · exact ⟨rfl, rfl, rfl, rfl, rfl, rfl, rfl, rfl⟩
  · dsimp only
    split <;> exact ⟨rfl, rfl, rfl, rfl, rfl, rfl, rfl, rfl⟩

theorem SameMemory.block (s : State) (l : Loc) (w : Wait) : SameMemory (s.block l w) s := by
  unfold State.block
  dsimp only
  split <;> exact ⟨rfl, rfl, rfl, rfl, rfl, rfl, rfl, rfl⟩

/-- A row that waits has left memory, and all that says how its bytes read, as they were. -/
theorem SameMemory.waiting (s : State) (l : Loc) (o : Opd) : SameMemory (s.waiting l o) { s with pavs := (s.waiting l o).pavs } := by
  have hb := SameMemory.block ((s.issued l).setCtx l { (s.issued l).ctx l with held := some [.trig o] }) l .acceptance
  have hc := SameMemory.charge (s.take l) l
  exact ⟨hb.mem.trans hc.mem, hb.poison.trans hc.poison, hb.lineKey.trans hc.lineKey, hb.lineMeta.trans hc.lineMeta, hb.tags.trans hc.tags,
    hb.granules.trans hc.granules, hb.keys.trans hc.keys, rfl⟩

@[simp] theorem State.waiting_byteUnder (s : State) (l : Loc) (o : Opd) (k pa : Nat) :
    (s.waiting l o).byteUnder k pa = s.byteUnder k pa := by
  rw [(SameMemory.waiting s l o).byteUnder]
  rfl

/-! ### The acceptance of one access -/

/-- A row whose operation checks nothing but its access (R193). -/
structure OpSem.AccessOnly (sm : OpSem) : Prop where
  encoding : sm.encoding = fun _ _ _ => none
  sequence : sm.sequence = fun _ _ _ => none
  capability : sm.capability = fun _ _ _ => none
  blocks : sm.blocks = fun _ _ _ => false
  after : sm.after = fun s _ _ => s

theorem OpSem.AccessOnly.passes {o : Opd} (h : (opSem o.op).AccessOnly) (s : State) (l : Loc) : s.passes l o := by
  refine ⟨?_, ?_, ?_, ?_⟩
  · rw [h.encoding]
  · rw [h.sequence]
  · rw [h.capability]
  · rw [h.blocks]

theorem perform_opSem (s : State) (l : Loc) (o : Opd) : s.perform opSem l [.trig o] = s.perform (fun _ => opSem o.op) l [.trig o] := by
  simp only [State.perform, State.applyMoves, List.foldl_cons, List.foldl_nil, actOrWait_one]

/-- A row whose access is accepted: it waits, and then its operation acts and its bundle ends (R193, R194). -/
theorem exec_accepted {i : Instr} {s : State} {l : Loc} {o : Opd} (hr : s.ready l i o) (hx : (s.ctx l).straight) (ha : s.accessible l o)
    (hp : (s.take l).passes l o) (hafter : (opSem o.op).after = fun s _ _ => s)
    (hf : (((opSem o.op).act (s.accessing l o) l o).ctx l).fence = []) :
    exec i s = .next (s.waiting l o) ∧ exec (.accessAcceptance l.core l.ctx) (s.waiting l o) =
      .next (((opSem o.op).act (s.accessing l o) l o).closeBundle l o ((s.core l.core).vcount l.ctx) false) := by
  obtain ⟨check, hacc, hcheck, hblocks⟩ := ha
  obtain ⟨-, ⟨hturn, -⟩, hresolving, -⟩ := id hr
  obtain ⟨hrunning, -⟩ := State.turn_eq_some hturn
  obtain ⟨htaken, hrun, -, -⟩ := State.waiting_core hrunning o
  have hheld : ((s.waiting l o).ctx l).held = some [.trig o] := by rw [State.waiting_ctx]
  have hctx : ((s.waiting l o).endWait l).ctx l = { s.ctx l with held := none, mode := .running, wait := none } := by
    rw [State.endWait_ctx_now htaken hrun, State.waiting_ctx]
  have hvcount : (((s.waiting l o).endWait l).core l.core).vcount l.ctx = (s.core l.core).vcount l.ctx := by
    obtain ⟨-, -, -, hpool⟩ := State.waiting_core hrunning o
    rw [State.endWait_now htaken hrun]
    exact Core.vcount_congr hpool _
  have hunmarked : ((s.waiting l o).endWait l).setCtx l (((s.waiting l o).endWait l).ctx l).unmarked = s.accessing l o := by
    rw [hctx]
    rfl
  have hlooping : (((s.waiting l o).endWait l).ctx l).cur.looping = false := by
    rw [hctx]
    exact Ctx.looping_of_straight hx
  have hresolves : (((s.waiting l o).endWait l).ctx l).resolving = false := by
    rw [hctx]
    exact hresolving
  refine ⟨exec_waits hr hp (by rw [hacc]; rfl), congrArg Host.Outcome.next ?_⟩
  rw [show (⟨l.core, l.ctx⟩ : Loc) = l from rfl, accept_one hheld hacc hcheck hblocks, perform_opSem, perform_one hresolves]
  all_goals rw [hunmarked, hvcount, hlooping, hafter]
  simpa using hf

/-! ### Accesses that fail (O34) -/

/-- Acceptance of an access that finds a fault (R194): the trap at its slot. -/
theorem exec_access_fault {s : State} {l : Loc} {o : Opd} {check : State → Loc → Opd → Option Trap} {tr : Trap} (hp : o.prov = false)
    (hc : (opSem o.op).access = some check) (hn : check (s.waiting l o) l o = some tr) :
    exec (.accessAcceptance l.core l.ctx) (s.waiting l o) =
      .next (((s.waiting l o).endWait l).takeTrap l tr o.slot false (s.ctx l).pc) := by
  refine congrArg Host.Outcome.next ((accept_fault (by rw [State.waiting_ctx]) hc hn hp).trans ?_)
  rw [State.waiting_ctx]

theorem State.waiting_tenantOf (s : State) (l : Loc) (o : Opd) : (s.waiting l o).tenantOf l = s.tenantOf l := by
  unfold State.tenantOf
  rw [State.waiting_ctx]

theorem State.waiting_accessor (s : State) (l : Loc) (o : Opd) : (s.waiting l o).accessor l = s.accessor l := by
  unfold State.accessor
  rw [State.waiting_ctx]

/-- The loads of R196, by their sizes and extensions. -/
theorem opSem_load {op : Op} {size : Nat} {signed : Bool} (h : Spec.loadOf op = some (size, signed)) :
    ∃ acquire, opSem op = loadSem size signed acquire := by
  unfold Spec.loadOf at h
  split at h <;> cases h <;> exact ⟨_, rfl⟩

/-- The stores of R196 and R197: a row of one is a store of a word, or STC. -/
theorem opSem_store {o : Opd} {size x : Nat} (h : Spec.storeOf o = some (size, x)) :
    (o.op ≠ .stc ∧ x = o.xw.toNat ∧ ∃ rel, opSem o.op = storeSem size rel) ∨
      (o.op = .stc ∧ size = 16 ∧ x = o.xc.raw.toNat) := by
  unfold Spec.storeOf at h
  split at h
  case h_7 hop => cases h; exact .inr ⟨hop, rfl, rfl⟩
  case h_8 => cases h
  all_goals
    rename_i hop
    cases h
    rw [hop]
    exact .inl ⟨by decide, rfl, _, rfl⟩

/-- The access of a scalar load or store begins with the checks of its capability (R193). -/
theorem scalar_access {o : Opd} {size : Nat} {addr : Int} {need : Byte}
    (h : (∃ sg, Spec.loadOf o.op = some (size, sg)) ∧ addr = o.loadAddr ∧ need = 0x01 ∨
      (∃ x, Spec.storeOf o = some (size, x)) ∧ addr = o.storeAddr ∧ need = 0x02) :
    ∃ write checked, (opSem o.op).access = some fun s l o' => 
      s.accessTrap l o'.cap (if need = 0x01 then o'.loadAddr else o'.storeAddr) size size need write checked := by
  obtain ⟨⟨sg, hload⟩, -, rfl⟩ | ⟨⟨x, hstore⟩, -, rfl⟩ := h
  · obtain ⟨acquire, hsem⟩ := opSem_load hload
    rw [hsem]
    exact ⟨_, _, rfl⟩
  · obtain ⟨-, -, rel, hsem⟩ | ⟨hop, rfl, -⟩ := opSem_store hstore
    · rw [hsem]
      exact ⟨_, _, rfl⟩
    · rw [hop]
      exact ⟨_, _, rfl⟩

theorem capCheck_grant {p need : Byte} (hneed : need = 0x01 ∨ need = 0x02) : (need &&& ~~~p &&& 0x8F) ≠ 0 ↔ p &&& need = 0 := by
  have h : ∀ p : BitVec 8, ((0x01#8 &&& ~~~p &&& 0x8F) ≠ 0 ↔ p &&& 0x01#8 = 0) ∧ ((0x02#8 &&& ~~~p &&& 0x8F) ≠ 0 ↔ p &&& 0x02#8 = 0) := by
    decide
  obtain rfl | rfl := hneed
  · exact (h p).1
  · exact (h p).2

theorem State.accessTrap_of_capCheck {s : State} {l : Loc} {k : Cap} {addr : Int} {size align c : Nat} {need : Byte}
    (h : capCheck k addr size need (s.tenantOf l) false = some c) (write checked : Bool) :
    s.accessTrap l k addr size align need write checked = some (capTrap c (addrWord addr)) := by
  unfold State.accessTrap State.checkAccess
  rw [h]

theorem State.accessTrap_of_misaligned {s : State} {l : Loc} {k : Cap} {addr : Int} {size align : Nat} {need : Byte}
    (h : capCheck k addr size need (s.tenantOf l) false = none) (ha : addr % (align : Int) ≠ 0) (write checked : Bool) :
    s.accessTrap l k addr size align need write checked = some (capTrap 6 (addrWord addr)) := by
  unfold State.accessTrap State.checkAccess
  rw [h]
  simp only [Int.ofNat_eq_natCast]
  rw [if_pos ha]

/-- The order of the checks of a capability (R104, R397). -/
theorem capCheck_order {k : Cap} {addr : Int} {size tenant : Nat} {need : Byte} (hneed : need = 0x01 ∨ need = 0x02) :
    capCheck k addr size need tenant false =
      if k.tag = false then some 1
      else if k.perm.getLsbD 6 = true then some 2
      else if k.tenant ≠ tenant then some 3
      else if k.perm &&& need = 0 ∨ k.perm.getLsbD 4 = true then some 4
      else if addr < k.base ∨ (k.base + k.len : Int) < addr + size then some 5
      else none := by
  unfold capCheck
  simp only [capCheck_grant hneed, Cap.isSealed, bit, Bool.not_eq_true', Bool.not_false, Bool.and_true, Int.ofNat_eq_natCast, gt_iff_lt,
    Int.natCast_add]
  by_cases hg : k.perm &&& need = 0 <;> by_cases hl : k.perm[4] = true <;> simp [hg, hl]

/-- Settles O34: at its acceptance the first check that fails gives the trap, and the checks of a capability stand in the order of R104. -/
theorem failingAccessesTrapAtAcceptance : Obligations.FailingAccessesTrapAtAcceptance := by
  unfold Obligations.FailingAccessesTrapAtAcceptance
  intro i s l o hr hp hprov
  refine ⟨fun check tr hc hn => ⟨exec_waits hr hp (by rw [hc]; rfl), exec_access_fault hprov hc hn⟩, fun size addr need h => ?_⟩
  obtain ⟨write, checked, hacc⟩ := scalar_access h
  have hneed : need = 0x01 ∨ need = 0x02 := h.imp (fun h => h.2.2) fun h => h.2.2
  have haddr : (if need = 0x01 then o.loadAddr else o.storeAddr) = addr := by
    obtain ⟨-, rfl, rfl⟩ | ⟨-, rfl, rfl⟩ := h <;> rfl
  have htrap {c : Nat}
      (ht : (s.waiting l o).accessTrap l o.cap addr size size need write checked = some (capTrap c (BitVec.ofInt 64 addr))) :
      exec (.accessAcceptance l.core l.ctx) (s.waiting l o) =
        .next (((s.waiting l o).endWait l).takeTrap l (capTrap c (BitVec.ofInt 64 addr)) o.slot false (s.ctx l).pc) :=
    exec_access_fault hprov hacc (by rw [haddr]; exact ht)
  have hcap {c : Nat} (hc : capCheck o.cap addr size need (s.tenantOf l) false = some c) :=
    htrap (State.accessTrap_of_capCheck (by rw [State.waiting_tenantOf]; exact hc) ..)
  rw [capCheck_order hneed] at hcap
  refine ⟨fun htag => hcap ?_, fun htag hseal => hcap ?_, fun htag hseal hten => hcap ?_, fun htag hseal hten hgrant => hcap ?_,
    fun htag hseal hten hgrant hlocal hbounds => hcap ?_, fun htag hseal hten hgrant hlocal hlow hhigh halign => htrap ?_⟩
  · simp [htag]
  · simp only [htag, hseal]
    simp
  · simp only [htag, hseal]
    simp [hten]
  · simp only [htag, hseal, hten, hgrant]
    simp
  · simp only [htag, hseal, hten, hgrant, hlocal, hbounds]
    simp
  · refine State.accessTrap_of_misaligned ?_ halign ..
    rw [State.waiting_tenantOf, capCheck_order hneed]
    simp only [htag, hseal, hten, hgrant, hlocal, Int.not_lt.mpr hlow, Int.not_lt.mpr hhigh]
    simp

end Sys2Proof.Machine

/-! # Loads (O32) -/

namespace Sys2Proof.Machine

/-! ### A context that goes on after its access (R29, R194) -/

/-- A context that runs at its bundle, with nothing pending that would keep it there. -/
structure Ctx.GoesOn (x : Ctx) (pc : Word) : Prop where
  mode : x.mode = .running
  wait : x.wait = none
  pc : x.pc = pc
  branch : x.branch = none
  fence : x.fence = []

theorem Ctx.GoesOn.accessing {x : Ctx} (hx : x.straight) (hs : x.settled) : x.accessing.GoesOn x.pc := by
  obtain ⟨hbranch, -, -⟩ := hx
  obtain ⟨-, hfence⟩ := hs
  exact ⟨rfl, rfl, rfl, hbranch, hfence⟩

/-- The context after its bundle has ended, with no branch pending. -/
theorem State.closeBundle_straight {t : State} {l : Loc} {o : Opd} (h : o.op ≠ .crw) (hb : (t.ctx l).branch = none) (vc : Nat) :
    (t.closeBundle l o vc false).ctx l =
      (let y := (t.ctx l).onView o.prov fun w => w.increment (opSem o.op) vc o.unit o.x
       { y with cur := y.cur.land y.ctime, fin := y.fin.map fun w => w.land y.ctime, ctime := y.ctime + 1, started := true,
                pc := y.pc + 24 }) := by
  rw [State.closeBundle_ctx h]
  exact Ctx.endBundle_straight hb

theorem SameMemory.closeBundle (t : State) (l : Loc) {o : Opd} (h : o.op ≠ .crw) (vc : Nat) (lp : Bool) :
    SameMemory (t.closeBundle l o vc lp) t := by
  unfold State.closeBundle
  rw [finish_eq h]
  exact ⟨rfl, rfl, rfl, rfl, rfl, rfl, rfl, rfl⟩

/-- The state that a row leaves whose access is accepted: what its operation leaves, at the end of its bundle. -/
def State.accessed (s : State) (l : Loc) (o : Opd) : State :=
  ((opSem o.op).act (s.accessing l o) l o).closeBundle l o ((s.core l.core).vcount l.ctx) false

/-- A row of an accessible access whose operation lets its context go on is accepted, and its context is at the next bundle. -/
structure AcceptsTo (i : Instr) (s : State) (l : Loc) (o : Opd) (u : State) : Prop where
  waits : exec i s = .next (s.waiting l o)
  accepts : exec (.accessAcceptance l.core l.ctx) (s.waiting l o) = .next u
  mode : (u.ctx l).mode = .running
  wait : (u.ctx l).wait = none
  pc : (u.ctx l).pc = (s.ctx l).pc + 24

theorem acceptsTo_accessed {i : Instr} {s : State} {l : Loc} {o : Opd} (hr : s.ready l i o) (hx : (s.ctx l).straight)
    (ha : s.accessible l o) (hp : (s.take l).passes l o) (hafter : (opSem o.op).after = fun s _ _ => s) (hcrw : o.op ≠ .crw)
    (hgo : (((opSem o.op).act (s.accessing l o) l o).ctx l).GoesOn (s.ctx l).pc) : AcceptsTo i s l o (s.accessed l o) := by
  obtain ⟨hmode, hwait, hpc, hbranch, hfence⟩ := hgo
  obtain ⟨hwaits, haccepts⟩ := exec_accepted hr hx ha hp hafter hfence
  refine ⟨hwaits, haccepts, ?_, ?_, ?_⟩ <;> rw [State.accessed, State.closeBundle_straight hcrw hbranch]
  · exact hmode
  · exact hwait
  · exact congrArg (· + 24) hpc

/-! ### A value on its way to a register, in some lanes or whole (R31, R252) -/

/-- The start of a long-latency operation in a view, in the lanes of a mask if there is one (R31). -/
def View.begun (w : View) (o : Opd) (id : Nat) (lanes : Option Mask) (hset : Bool) : View :=
  let w' := match o.dest with | some (f, n) => w.markEmpty f n true | none => w
  { w' with pending := w'.pending ++ [⟨id, o.unit, o.dest, lanes, hset⟩] }

theorem View.begun_pending (w : View) (o : Opd) (id : Nat) (lanes : Option Mask) (hset : Bool) :
    (⟨id, o.unit, o.dest, lanes, hset⟩ : Pending) ∈ (w.begun o id lanes hset).pending :=
  List.mem_append_right _ (List.mem_singleton_self _)

theorem View.begun_flights (w : View) (o : Opd) (id : Nat) (lanes : Option Mask) (hset : Bool) :
    (w.begun o id lanes hset).flights = w.flights := by
  unfold View.begun
  dsimp only
  split
  · rename_i f n _
    cases f <;> rfl
  · rfl

theorem View.begun_isEmpty {w : View} {o : Opd} {f : RFile} {n : Nat} (hd : o.dest = some (f, n))
    (hf : f = .s ∧ n < 64 ∨ f = .a ∧ n < 32) (id : Nat) (lanes : Option Mask) (hset : Bool) :
    (w.begun o id lanes hset).isEmpty f n = true := by
  unfold View.begun
  rw [hd]
  obtain ⟨rfl, hn⟩ | ⟨rfl, hn⟩ := hf
  · exact getLsbD_putBit_self _ hn true
  · exact getLsbD_putBit_self _ hn true

/-- The context of a data value on its way (R31, R252, R400). -/
theorem State.deliverData_ctx (s : State) (l : Loc) (o : Opd) (lanes : Option Mask) (lat : Nat) (bad : Bool) (v : Value) :
    (s.deliverData l o lanes lat bad v).ctx l =
      { (s.ctx l).onView o.prov (fun w => w.begun o s.opId lanes (s.ctx l).cur.inHandler) with
        landings := (s.ctx l).landings.set s.opId ⟨(s.core l.core).cycle + 1 + lat, if bad then none else some v, none⟩ } := by
  have hstart : (s.startLong l o lanes).2.ctx l = (s.ctx l).onView o.prov fun w => w.begun o s.opId lanes (s.ctx l).cur.inHandler :=
    State.onView_ctx ..
  have hcycle : ((s.startLong l o lanes).2.core l.core).cycle = (s.core l.core).cycle := by
    change (((({ s with opId := s.opId + 1 } : State).setCtx l _).core l.core).cycle = _)
    rw [State.core_setCtx]
    rfl
  change ((s.startLong l o lanes).2.deliverLong l s.opId lat _).ctx l = _
  rw [State.deliverLong_ctx, hstart, hcycle]
  rfl

/-- A data value on its way leaves memory as it was. -/
theorem SameMemory.deliverData (s : State) (l : Loc) (o : Opd) (lanes : Option Mask) (lat : Nat) (bad : Bool) (v : Value) :
    SameMemory (s.deliverData l o lanes lat bad v) s := ⟨rfl, rfl, rfl, rfl, rfl, rfl, rfl, rfl⟩

/-! ### Acquires (R324) -/

/-- An acquire changes the table of a context's view alone. -/
theorem State.acquireLine_ctx (s : State) (l : Loc) (prov : Bool) (word : Nat) : ∃ f : View → View,
    (∀ w, ∃ t, f w = { w with acquired := t }) ∧ (s.acquireLine l prov word).ctx l = (s.ctx l).onView prov f := by
  unfold State.acquireLine
  split
  · exact ⟨id, fun w => ⟨w.acquired, rfl⟩, (Ctx.onView_self ..).symm⟩
  · dsimp only
    split
    · exact ⟨_, fun w => ⟨_, rfl⟩, State.onView_ctx ..⟩
    · exact ⟨_, fun w => ⟨_, rfl⟩, State.onView_ctx ..⟩

theorem State.acquireLine_cycle (s : State) (l : Loc) (prov : Bool) (word : Nat) (c : Nat) :
    ((s.acquireLine l prov word).core c).cycle = (s.core c).cycle := by
  have h (p : Bool) (f : View → View) : ((s.onView l p f).core c).cycle = (s.core c).cycle := by
    by_cases hc : c = l.core
    · subst hc; rw [State.onView, State.core_setCtx]; rfl
    · rw [State.onView, State.core_setCtx_ne _ hc]
  unfold State.acquireLine
  split
  · rfl
  · dsimp only
    split <;> exact h _ _

theorem State.acquireLine_opId (s : State) (l : Loc) (prov : Bool) (word : Nat) : (s.acquireLine l prov word).opId = s.opId := by
  unfold State.acquireLine
  split
  · rfl
  · dsimp only
    split <;> rfl

theorem SameMemory.acquireLine (s : State) (l : Loc) (prov : Bool) (word : Nat) : SameMemory (s.acquireLine l prov word) s := by
  unfold State.acquireLine
  split
  · exact ⟨rfl, rfl, rfl, rfl, rfl, rfl, rfl, rfl⟩
  · dsimp only
    split <;> exact SameMemory.onView ..

/-! ### What an access does to the copies of lines (R251, R310, R363, R376) -/

/-- A state that differs in nothing but the copies of lines, what waits at the arbiters for them, and the entries that are held. -/
def State.OnlyCaches (s t : State) : Prop := ∃ l2 home arbs tlb, t = { s with l2 := l2, home := home, arbs := arbs, tlb := tlb }

namespace State.OnlyCaches

theorem refl (s : State) : s.OnlyCaches s := ⟨_, _, _, _, rfl⟩

theorem trans {s t u : State} (h : s.OnlyCaches t) (h' : t.OnlyCaches u) : s.OnlyCaches u := by
  obtain ⟨_, _, _, _, rfl⟩ := h
  obtain ⟨_, _, _, _, rfl⟩ := h'
  exact ⟨_, _, _, _, rfl⟩

theorem requestMiss (s : State) (a : Accessor) (line kidx : Nat) : s.OnlyCaches (s.requestMiss a line kidx) := by
  unfold State.requestMiss State.requestLine
  split
  · exact ⟨_, _, _, _, rfl⟩
  · split <;> exact ⟨_, _, _, _, rfl⟩

theorem placeLine (s : State) (n line way kidx : Nat) : s.OnlyCaches (s.placeLine n line way kidx) := by
  have hevict : s.OnlyCaches (s.evict n (setOf line) way) := by
    unfold State.evict
    split
    · exact refl s
    · dsimp only
      split
      · unfold State.requestLine
        split <;> exact ⟨_, _, _, _, rfl⟩
      · exact ⟨_, _, _, _, rfl⟩
  exact hevict.trans ⟨_, _, _, _, rfl⟩

theorem touch (s : State) (a : Accessor) (line kidx : Nat) (write : Bool) : s.OnlyCaches (s.touch a line kidx write) := by
  have hbring (u : State) : u.OnlyCaches (match (u.slice (sliceOf a.core)).find? line with
      | some _ => u
      | none =>
        match u.chooseWay a.pav a.vd (sliceOf a.core) (setOf line) with
        | none => u.requestMiss a line kidx
        | some w => (u.placeLine (sliceOf a.core) line w kidx).requestMiss a line kidx) := by
    split
    · exact refl u
    · split
      · exact requestMiss ..
      · exact (placeLine ..).trans (requestMiss ..)
  have hdirty (u : State) : u.OnlyCaches (match (u.slice (sliceOf a.core)).find? line with
      | none => u.writeBack line
      | some e =>
        let u2 : State := { u with l2 := u.l2.set (sliceOf a.core) ((u.slice (sliceOf a.core)).set line { e with dirty := true, kidx := kidx }) }
        if e.dirty || (u2.home.find? line).isSome then u2
        else { u2 with home := u2.home.set line (u2.homeLine line) }) := by
    split
    · exact ⟨_, _, _, _, rfl⟩
    · dsimp only
      split <;> exact ⟨_, _, _, _, rfl⟩
  cases write with
  | false => exact hbring s
  | true =>
    have hothers : s.OnlyCaches (s.invalidateOthers (sliceOf a.core) line) := ⟨_, _, _, _, rfl⟩
    exact (hothers.trans (hbring _)).trans (hdirty _)

theorem foldl {α : Type} (f : State → α → State) (h : ∀ (s : State) a, s.OnlyCaches (f s a)) (as : List α) (s : State) :
    s.OnlyCaches (as.foldl f s) := by
  induction as generalizing s with
  | nil => exact refl s
  | cons a as ih => exact (h s a).trans (ih _)

theorem touchRange (s : State) (a : Accessor) (ps : List Piece) : s.OnlyCaches (s.touchRange a ps) :=
  trans (t := s.holdRange a ps) ⟨_, _, _, _, rfl⟩ (foldl _ (fun _ _ => touch ..) ps _)

variable {s t : State}

theorem core (h : s.OnlyCaches t) (c : Nat) : t.core c = s.core c := by
  obtain ⟨_, _, _, _, rfl⟩ := h
  rfl

theorem ctx (h : s.OnlyCaches t) (l : Loc) : t.ctx l = s.ctx l := by
  obtain ⟨_, _, _, _, rfl⟩ := h
  rfl

theorem opId (h : s.OnlyCaches t) : t.opId = s.opId := by
  obtain ⟨_, _, _, _, rfl⟩ := h
  rfl

theorem accessor (h : s.OnlyCaches t) (l : Loc) : t.accessor l = s.accessor l := by
  obtain ⟨_, _, _, _, rfl⟩ := h
  rfl

theorem sameMemory (h : s.OnlyCaches t) : SameMemory t s := by
  obtain ⟨_, _, _, _, rfl⟩ := h
  exact ⟨rfl, rfl, rfl, rfl, rfl, rfl, rfl, rfl⟩

end State.OnlyCaches

/-! ### A load delivers its bytes -/

theorem SameTables.parts {s t : State} (h : SameTables s t) {l : Loc} (ha : s.accessor l = t.accessor l) (addr : Int) (size : Nat)
    (write : Bool) : s.parts l addr size write = t.parts l addr size write := by
  unfold State.parts
  rw [h.range, ha]

theorem State.accessing_accessor (s : State) (l : Loc) (o : Opd) : (s.accessing l o).accessor l = s.accessor l := by
  unfold State.accessor
  rw [State.accessing_ctx]
  rfl

/-- An accepted access finds the places that its checks found (R193). -/
theorem State.accessing_parts (s : State) (l : Loc) (o : Opd) (addr : Int) (size : Nat) (write : Bool) :
    (s.accessing l o).parts l addr size write = (s.waiting l o).parts l addr size write :=
  (SameTables.accessing s l o).parts ((State.accessing_accessor s l o).trans (State.waiting_accessor s l o).symm) addr size write

theorem State.accessing_readRange (s : State) (l : Loc) (o : Opd) (ps : List Piece) :
    (s.accessing l o).readRange ps = (s.waiting l o).readRange ps :=
  (SameTables.accessing s l o).readRange ps

theorem SameMemory.tagOf {s t : State} (h : SameMemory s t) (ps : List Piece) : s.tagOf ps = t.tagOf ps := by
  unfold State.tagOf
  split
  · rw [h.keyDead, h.serialOf, h.lineKey, h.tags]
  · rfl

/-- What an operation has done that delivers a data value and nothing else to its context but what it has acquired: a state whose context has the
value on its way, with memory as it was. -/
structure State.Delivers (s : State) (l : Loc) (o : Opd) (lanes : Option Mask) (lat : Nat) (v : Option Value) (t : State) : Prop where
  ctx : ∃ f : View → View, (∀ w, ∃ a, f w = { w with acquired := a }) ∧ t.ctx l =
    { (s.ctx l).onView o.prov (fun w => (f w).begun o s.opId lanes (s.ctx l).cur.inHandler) with
      landings := (s.ctx l).landings.set s.opId ⟨(s.core l.core).cycle + 1 + lat, v, none⟩ }
  same : SameMemory t s

/-- Data whose lines have been brought in is delivered. -/
theorem State.OnlyCaches.delivers {s t : State} (h : s.OnlyCaches t) (l : Loc) (o : Opd) (lanes : Option Mask) (lat : Nat) (bad : Bool)
    (v : Value) : s.Delivers l o lanes lat (if bad then none else some v) (t.deliverData l o lanes lat bad v) where
  ctx := ⟨id, fun w => ⟨w.acquired, rfl⟩, by rw [State.deliverData_ctx, h.ctx, h.opId, h.core]; rfl⟩
  same := (SameMemory.deliverData ..).trans h.sameMemory

/-- Data is delivered after an acquire. -/
theorem State.OnlyCaches.delivers_acquire {s t : State} (h : s.OnlyCaches t) (l : Loc) (o : Opd) (prov : Bool) (word : Nat) (lanes : Option Mask) (lat : Nat) (bad : Bool)
    (v : Value) (hp : prov = o.prov) : s.Delivers l o lanes lat (if bad then none else some v) ((t.acquireLine l prov word).deliverData l o lanes lat bad v) where
  ctx := by
    obtain ⟨f, hf, hctx⟩ := t.acquireLine_ctx l prov word
    refine ⟨f, hf, ?_⟩
    rw [State.deliverData_ctx, hctx, State.acquireLine_opId, State.acquireLine_cycle, h.ctx, h.opId, h.core, hp, Ctx.onView_onView]
    have hin : (f (s.ctx l).cur).inHandler = (s.ctx l).cur.inHandler := by
      obtain ⟨a, ha⟩ := hf (s.ctx l).cur
      rw [ha]
      rfl
    simp only [Ctx.onView, hin]
  same := (SameMemory.deliverData ..).trans ((SameMemory.acquireLine ..).trans h.sameMemory)

theorem loadSem_delivers (s : State) (l : Loc) (o : Opd) (size : Nat) (signed acquire : Bool) :
    let ps := s.parts l o.loadAddr size false
    let x : Word := BitVec.ofNat 64 (leNat (s.readRange ps).1)
    s.Delivers l o none 24
      (if (s.readRange ps).2 then none else some (.word (if signed then BitVec.ofInt 64 (signedLow x (8 * size)) else x)))
      ((loadSem size signed acquire).act s l o) := by
  unfold loadSem
  dsimp only
  generalize s.parts l o.loadAddr size false = ps
  have htouch := State.OnlyCaches.touchRange s (s.accessor l) ps
  cases acquire with
  | false => exact htouch.delivers ..
  | true =>
    cases ps with
    | nil => exact htouch.delivers ..
    | cons p ps =>
      by_cases hw : p.place.watched = true
      · simp only [hw, if_true]
        exact htouch.delivers_acquire _ _ _ _ _ _ _ _ rfl
      · simp only [hw]
        exact htouch.delivers ..

theorem semLdc_delivers (s : State) (l : Loc) (o : Opd) :
    let ps := s.parts l o.loadAddr 16 false
    s.Delivers l o none 24
      (if (s.readRange ps).2 then none else some (.cap ⟨BitVec.ofNat 128 (leNat (s.readRange ps).1), s.tagOf ps⟩))
      (semLdc.act s l o) :=
  (State.OnlyCaches.touchRange s (s.accessor l) _).delivers ..

/-- The context of a row that delivers goes on. -/
theorem State.Delivers.goesOn {s t : State} {l : Loc} {o : Opd} {lanes : Option Mask} {lat : Nat} {v : Option Value} {pc : Word}
    (h : s.Delivers l o lanes lat v t) (hgo : (s.ctx l).GoesOn pc) : (t.ctx l).GoesOn pc := by
  obtain ⟨f, -, hctx⟩ := h.ctx
  rw [hctx]
  exact ⟨hgo.mode, hgo.wait, hgo.pc, hgo.branch, hgo.fence⟩

/-- After its bundle a delivered value stands among the landings of its context. -/
theorem State.Delivers.landing {s t : State} {l : Loc} {o : Opd} {lanes : Option Mask} {lat : Nat} {v : Option Value}
    (h : s.Delivers l o lanes lat v t) (hb : (s.ctx l).branch = none) (hcrw : o.op ≠ .crw) (vc : Nat) :
    ((t.closeBundle l o vc false).ctx l).landings.find? s.opId = some ⟨(s.core l.core).cycle + 1 + lat, v, none⟩ := by
  obtain ⟨f, -, hctx⟩ := h.ctx
  rw [State.closeBundle_straight hcrw (by rw [hctx]; exact hb), hctx]
  exact Table.find?_set_self ..

/-- After its bundle the destination of a value on its way is empty, where nothing else was in flight (R31). -/
theorem State.Delivers.isEmpty {s t : State} {l : Loc} {o : Opd} {lanes : Option Mask} {lat : Nat} {v : Option Value}
    (h : s.Delivers l o lanes lat v t) (hb : (s.ctx l).branch = none) (hfl : (s.ctx l).cur.flights = []) (hcrw : o.op ≠ .crw) (vc : Nat)
    {f : RFile} {n : Nat} (hd : o.dest = some (f, n)) (hf : f = .s ∧ n < 64 ∨ f = .a ∧ n < 32) :
    ((t.closeBundle l o vc false).ctx l).cur.isEmpty f n = true := by
  obtain ⟨g, hg, hctx⟩ := h.ctx
  have hflights : (g (s.ctx l).cur).flights = [] := by
    obtain ⟨a, ha⟩ := hg (s.ctx l).cur
    rw [ha]
    exact hfl
  rw [State.closeBundle_straight hcrw (by rw [hctx]; exact hb), hctx]
  dsimp only
  have hnone : ((((s.ctx l).onView o.prov fun w => (g w).begun o s.opId lanes (s.ctx l).cur.inHandler).cur).increment (opSem o.op) vc o.unit
      o.x).flights = [] :=
    (View.increment_flights ..).trans ((View.begun_flights ..).trans hflights)
  exact (congrArg (fun w : View => w.isEmpty f n) (View.land_of_none hnone _)).trans
    ((View.increment_isEmpty ..).trans (View.begun_isEmpty hd hf _ _ _))

theorem State.readRange_whole {s : State} {ps : List Piece} (h : ∀ p ∈ ps, s.piecePoisoned p = false) : (s.readRange ps).2 = false := by
  simpa [State.readRange] using h

/-- A row whose operation delivers a value does so when its access is accepted (R194, R252). -/
theorem exec_delivers {i : Instr} {s : State} {l : Loc} {o : Opd} {lanes : Option Mask} {lat : Nat} {v : Value} (hr : s.ready l i o)
    (hx : (s.ctx l).straight) (ha : s.accessible l o) (hsem : (opSem o.op).AccessOnly) (hcrw : o.op ≠ .crw)
    (h : (s.accessing l o).Delivers l o lanes lat (some v) ((opSem o.op).act (s.accessing l o) l o)) :
    AcceptsTo i s l o (s.accessed l o) ∧ ((s.accessed l o).ctx l).landings.find? s.opId = some ⟨(s.core l.core).cycle + 1 + lat, some v, none⟩ ∧
      SameMemory (s.accessed l o) (s.waiting l o) := by
  obtain ⟨-, ⟨hturn, -⟩, hsettled⟩ := id hr
  obtain ⟨hcycle, -⟩ := State.accessing_core (State.turn_eq_some hturn).1 o
  have hgo : ((s.accessing l o).ctx l).GoesOn (s.ctx l).pc := by
    rw [State.accessing_ctx]
    exact .accessing hx hsettled
  have hland := h.landing hgo.branch hcrw ((s.core l.core).vcount l.ctx)
  rw [State.accessing_opId, hcycle] at hland
  exact ⟨acceptsTo_accessed hr hx ha (hsem.passes ..) hsem.after hcrw (h.goesOn hgo), hland,
    (SameMemory.closeBundle _ l hcrw _ _).trans (h.same.trans (SameTables.accessing s l o).toSameMemory)⟩

theorem accessOnly_loadSem (size : Nat) (signed acquire : Bool) : (loadSem size signed acquire).AccessOnly := ⟨rfl, rfl, rfl, rfl, rfl⟩

theorem accessOnly_semLdc : semLdc.AccessOnly := ⟨rfl, rfl, rfl, rfl, rfl⟩

/-- The value of a load is its bytes, extended (R196). -/
theorem load_value {size : Nat} (hsize : size ≠ 0) (hle : size ≤ 8) (n : Nat) :
    BitVec.ofInt 64 (signedLow (BitVec.ofNat 64 n) (8 * size)) = (BitVec.ofNat (8 * size) n).signExtend 64 := by
  obtain ⟨w, hw⟩ : ∃ w, 8 * size = w + 1 := ⟨8 * size - 1, by omega⟩
  rw [hw, signExtend_low, BitVec.setWidth_ofNat_of_le (by omega)]

theorem loadOf_size {op : Op} {size : Nat} {signed : Bool} (h : Spec.loadOf op = some (size, signed)) : size ≠ 0 ∧ size ≤ 8 ∧ op ≠ .crw := by
  unfold Spec.loadOf at h
  split at h <;> cases h <;> decide

/-- Settles O32: an accepted load puts its value among the landings of its context, and only its destination, its region table and the copies of
lines change. -/
theorem loadsDeliverTheirBytes : Obligations.LoadsDeliverTheirBytes := by
  unfold Obligations.LoadsDeliverTheirBytes
  intro i s l o hr hx hfl ha t done
  have hbranch : ((s.accessing l o).ctx l).branch = none := by
    rw [State.accessing_ctx]
    exact hx.1
  have hflights : ((s.accessing l o).ctx l).cur.flights = [] := by
    rw [State.accessing_ctx]
    exact hfl
  have hdone {v : Value} (hsem : (opSem o.op).AccessOnly) (hcrw : o.op ≠ .crw)
      (h : (s.accessing l o).Delivers l o none 24 (some v) ((opSem o.op).act (s.accessing l o) l o)) : ∃ u, done u v := by
    obtain ⟨hacc, hland, hsame⟩ := exec_delivers hr hx ha hsem hcrw h
    exact ⟨_, hacc.waits, hacc.accepts, hacc.mode, hacc.wait, hacc.pc, hland, fun f n hd hf => h.isEmpty hbranch hflights hcrw _ hd hf,
      hsame.mem.trans (SameMemory.waiting s l o).mem⟩
  refine ⟨?_, ?_⟩
  · intro size signed hload ps n hpoison
    obtain ⟨acquire, hsem⟩ := opSem_load hload
    obtain ⟨hsize, hle, hcrw⟩ := loadOf_size hload
    have h := loadSem_delivers (s.accessing l o) l o size signed acquire
    have hwhole : ((s.waiting l o).readRange ((s.waiting l o).parts l o.loadAddr size false)).2 = false := State.readRange_whole hpoison
    simp only [State.accessing_parts, State.accessing_readRange, hwhole, Bool.false_eq_true, if_false, load_value hsize hle, ← hsem] at h
    exact hdone (hsem ▸ accessOnly_loadSem size signed acquire) hcrw h
  · intro hop ps hpoison
    have hsem : opSem o.op = semLdc := by rw [hop]; rfl
    have h := semLdc_delivers (s.accessing l o) l o
    have hwhole : ((s.waiting l o).readRange ((s.waiting l o).parts l o.loadAddr 16 false)).2 = false := State.readRange_whole hpoison
    simp only [State.accessing_parts, State.accessing_readRange, hwhole, Bool.false_eq_true, if_false,
      (SameTables.accessing s l o).tagOf, ← hsem] at h
    exact hdone (hsem ▸ accessOnly_semLdc) (by rw [hop]; decide) h

end Sys2Proof.Machine

/-! # Writes of bytes: scalar stores (O33) and atomics (O36) -/

namespace Sys2Proof.Machine

/-! ### What a write changes -/

/-- A state that differs in nothing but memory, what is recorded of its lines and pages, the copies of lines, and the entries that are held. -/
def State.OnlyMemory (s t : State) : Prop := ∃ mem poison lineKey lineMeta tags watched l2 home arbs tlb,
  t = { s with mem := mem, poison := poison, lineKey := lineKey, lineMeta := lineMeta, tags := tags, watched := watched, l2 := l2,
               home := home, arbs := arbs, tlb := tlb }

namespace State.OnlyMemory

theorem refl (s : State) : s.OnlyMemory s := ⟨_, _, _, _, _, _, _, _, _, _, rfl⟩

theorem trans {s t u : State} (h : s.OnlyMemory t) (h' : t.OnlyMemory u) : s.OnlyMemory u := by
  obtain ⟨_, _, _, _, _, _, _, _, _, _, rfl⟩ := h
  obtain ⟨_, _, _, _, _, _, _, _, _, _, rfl⟩ := h'
  exact ⟨_, _, _, _, _, _, _, _, _, _, rfl⟩

theorem of_caches {s t : State} (h : s.OnlyCaches t) : s.OnlyMemory t := by
  obtain ⟨_, _, _, _, rfl⟩ := h
  exact ⟨_, _, _, _, _, _, _, _, _, _, rfl⟩

theorem clearTags (s : State) (pa n : Nat) : s.OnlyMemory (s.clearTags pa n) := by
  unfold State.clearTags
  split
  · exact refl s
  · exact ⟨_, _, _, _, _, _, _, _, _, _, rfl⟩

theorem rekey (s : State) (line serial : Nat) : s.OnlyMemory (s.rekey line serial) := by
  unfold State.rekey
  split
  · exact refl s
  · exact trans ⟨_, _, _, _, _, _, _, _, _, _, rfl⟩ (clearTags ..)

theorem writePiece (s : State) (a : Accessor) (p : Piece) (bs : List Byte) : s.OnlyMemory (s.writePiece a p bs) := by
  unfold State.writePiece
  dsimp only
  split
  · exact refl s
  · split
    · exact refl s
    · exact ((of_caches (State.OnlyCaches.touch ..)).trans (rekey ..)).trans
        (trans ⟨_, _, _, _, _, _, _, _, _, _, rfl⟩ (clearTags ..))

theorem writePieces (s : State) (a : Accessor) (ps : List Piece) (bs : List Byte) : s.OnlyMemory (s.writePieces a ps bs) := by
  induction ps generalizing s bs with
  | nil => exact refl s
  | cons p ps ih => exact (writePiece ..).trans (ih _ _)

theorem foldl {α : Type} (f : State → α → State) (h : ∀ (s : State) a, s.OnlyMemory (f s a)) (as : List α) (s : State) :
    s.OnlyMemory (as.foldl f s) := by
  induction as generalizing s with
  | nil => exact refl s
  | cons a as ih => exact (h s a).trans (ih _)

theorem recordWrite (s : State) (a : Accessor) (w reg : Nat) (rel : Bool) (ps : List Piece) : s.OnlyMemory (s.recordWrite a w reg rel ps) :=
  ⟨_, _, _, _, _, _, _, _, _, _, rfl⟩

theorem holdRange (s : State) (a : Accessor) (ps : List Piece) : s.OnlyMemory (s.holdRange a ps) := ⟨_, _, _, _, _, _, _, _, _, _, rfl⟩

variable {s t : State}

theorem core (h : s.OnlyMemory t) (c : Nat) : t.core c = s.core c := by
  obtain ⟨_, _, _, _, _, _, _, _, _, _, rfl⟩ := h
  rfl

theorem ctx (h : s.OnlyMemory t) (l : Loc) : t.ctx l = s.ctx l := by
  obtain ⟨_, _, _, _, _, _, _, _, _, _, rfl⟩ := h
  rfl

theorem opId (h : s.OnlyMemory t) : t.opId = s.opId := by
  obtain ⟨_, _, _, _, _, _, _, _, _, _, rfl⟩ := h
  rfl

theorem serialOf (h : s.OnlyMemory t) (k : Nat) : t.serialOf k = s.serialOf k := by
  obtain ⟨_, _, _, _, _, _, _, _, _, _, rfl⟩ := h
  rfl

theorem keyDead (h : s.OnlyMemory t) (k : Nat) : t.keyDead k = s.keyDead k := by
  obtain ⟨_, _, _, _, _, _, _, _, _, _, rfl⟩ := h
  rfl

end State.OnlyMemory

/-! ### The bytes, the tags and the poison of a piece that is written (R195, R360, R364) -/

/-- What says how bytes read: memory, the keys of lines and the poison. -/
structure SameBytes (s t : State) : Prop where
  mem : s.mem = t.mem
  lineKey : s.lineKey = t.lineKey
  poison : s.poison = t.poison
  keys : s.keys = t.keys

theorem SameMemory.sameBytes {s t : State} (h : SameMemory s t) : SameBytes s t := ⟨h.mem, h.lineKey, h.poison, h.keys⟩

theorem SameBytes.byteUnder {s t : State} (h : SameBytes s t) (k pa : Nat) : s.byteUnder k pa = t.byteUnder k pa := by
  simp only [State.byteUnder, h.lineKey, h.mem]

theorem SameBytes.trans {s t u : State} (h : SameBytes s t) (h' : SameBytes t u) : SameBytes s u :=
  ⟨h.mem.trans h'.mem, h.lineKey.trans h'.lineKey, h.poison.trans h'.poison, h.keys.trans h'.keys⟩

theorem SameBytes.clearTags (s : State) (pa n : Nat) : SameBytes (s.clearTags pa n) s := by
  unfold State.clearTags
  split <;> exact ⟨rfl, rfl, rfl, rfl⟩

/-- A line brought under a key stands under it, and every line reads under it as before (R364). -/
theorem State.rekey_lineKey (s : State) (line serial n : Nat) :
    (s.rekey line serial).lineKey.getD n 0 = if n = line then serial else s.lineKey.getD n 0 := by
  unfold State.rekey
  split
  · rename_i h
    split
    · rename_i hn
      rw [hn, h]
    · rfl
  · rw [(SameBytes.clearTags _ _ _).lineKey]
    dsimp only
    split
    · rename_i hn
      rw [hn]
      exact Table.getD_put_self ..
    · rename_i hn
      exact Table.getD_put_ne _ _ _ hn

theorem State.rekey_byteUnder (s : State) (line serial a : Nat) : (s.rekey line serial).byteUnder serial a = s.byteUnder serial a := by
  by_cases h : s.lineKey.getD line 0 = serial
  · rw [State.rekey, if_pos h]
  · rw [State.rekey, if_neg h, (SameBytes.clearTags _ _ _).byteUnder]
    conv_lhs => unfold State.byteUnder
    dsimp only
    by_cases ha : a / 64 = line
    · rw [ha, Table.getD_put_self, if_pos rfl]
      obtain ⟨i, hi, rfl⟩ : ∃ i, i < 64 ∧ a = 64 * line + i := ⟨a % 64, by omega, by omega⟩
      rw [Memory.byte_setBytes _ _ _ _ (by simpa using hi), List.getElem_map, List.getElem_range]
      rfl
    · rw [Table.getD_put_ne _ _ _ ha, Memory.byte_setBytes_outside _ _ (by simp; omega)]
      rfl

theorem State.rekey_byteUnder_other (s : State) {line a : Nat} (h : a / 64 ≠ line) (serial k : Nat) :
    (s.rekey line serial).byteUnder k a = s.byteUnder k a := by
  unfold State.rekey
  split
  · rfl
  · rw [(SameBytes.clearTags _ _ _).byteUnder]
    unfold State.byteUnder
    dsimp only
    rw [Table.getD_put_ne _ _ _ h, Memory.byte_setBytes_outside _ _ (by simp; omega)]

/-- The granules that some bytes cover have no tag once it is cleared (R195). -/
theorem State.clearTags_tags (s : State) (pa n g : Nat) : (s.clearTags pa n).tags.getD g false =
    (s.tags.getD g false && !(decide (n ≠ 0) && decide (pa / 16 ≤ g) && decide (g ≤ (pa + n - 1) / 16))) := by
  have hfold (k : Nat) (t : Table Bool) : (((List.range k).foldl (fun t i => t.put false (pa / 16 + i) false) t).getD g false) =
      (t.getD g false && !(decide (pa / 16 ≤ g) && decide (g < pa / 16 + k))) := by
    induction k with
    | zero => simp; omega
    | succ k ih =>
      rw [List.range_succ, List.foldl_append, List.foldl_cons, List.foldl_nil]
      by_cases hg : g = pa / 16 + k
      · subst hg
        rw [Table.getD_put_self]
        simp
      · rw [Table.getD_put_ne _ _ _ hg, ih]
        have hlt : (g < pa / 16 + (k + 1)) ↔ g < pa / 16 + k := by omega
        simp only [hlt]
  unfold State.clearTags
  split
  · rename_i hn
    simp [hn]
  · rename_i hn
    dsimp only
    rw [hfold]
    have hle : g < pa / 16 + ((pa + n - 1) / 16 - pa / 16 + 1) ↔ pa / 16 ≤ g ∧ g ≤ (pa + n - 1) / 16 ∨ g < pa / 16 := by omega
    by_cases h1 : pa / 16 ≤ g <;> by_cases h2 : g ≤ (pa + n - 1) / 16 <;> simp [hle, hn, h1, h2]

theorem State.rekey_tags (s : State) (line serial g : Nat) : (s.rekey line serial).tags.getD g false =
    (s.tags.getD g false && !(g / 4 == line && s.lineKey.getD line 0 != serial)) := by
  unfold State.rekey
  split
  · rename_i h
    simp [h]
  · rename_i h
    rw [State.clearTags_tags]
    dsimp only
    have hline : (decide (64 * line / 16 ≤ g) && decide (g ≤ (64 * line + 64 - 1) / 16)) = (g / 4 == line) := by
      rw [Bool.eq_iff_iff]
      simp only [Bool.and_eq_true, decide_eq_true_eq, beq_iff_eq]
      omega
    have hkey : (s.lineKey.getD line 0 != serial) = true := by simpa using h
    rw [Bool.and_assoc, hline, hkey]
    simp

/-! ### A piece that is written -/

section
variable {s : State} {p : Piece} {bs : List Byte} (a : Accessor)

/-- What a piece of a live page off poison leaves: the line under its key, with the bytes in it and the tags cleared. -/
theorem State.writePiece_eq (hdead : s.keyDead p.place.kidx = false) (hpoison : s.poison.getD (p.place.pa / 64) false = false) :
    ∃ t, s.OnlyCaches t ∧ s.writePiece a p bs =
      ({ t.rekey (p.place.pa / 64) (s.serialOf p.place.kidx) with
          mem := (t.rekey (p.place.pa / 64) (s.serialOf p.place.kidx)).mem.setBytes p.place.pa bs
          poison := (t.rekey (p.place.pa / 64) (s.serialOf p.place.kidx)).poison.put false (p.place.pa / 64) false } : State).clearTags
        p.place.pa p.len := by
  have htouch := State.OnlyCaches.touch s a (p.place.pa / 64) p.place.kidx true
  refine ⟨_, htouch, ?_⟩
  unfold State.writePiece
  dsimp only
  rw [hdead, hpoison, (State.OnlyMemory.of_caches htouch).serialOf]
  rfl

variable (hdead : s.keyDead p.place.kidx = false) (hpoison : s.poison.getD (p.place.pa / 64) false = false)
  (hline : p.place.pa % 64 + bs.length ≤ 64)
include hdead hpoison hline

/-- The bytes of a piece read as they were written, under the key of its page; every other byte reads under it as before. -/
theorem State.writePiece_byteUnder (b : Nat) : (s.writePiece a p bs).byteUnder (s.serialOf p.place.kidx) b =
    if p.place.pa ≤ b ∧ b < p.place.pa + bs.length then bs.getD (b - p.place.pa) 0 else s.byteUnder (s.serialOf p.place.kidx) b := by
  obtain ⟨t, ht, he⟩ := State.writePiece_eq a (bs := bs) hdead hpoison
  rw [he, (SameBytes.clearTags _ _ _).byteUnder]
  have hrekey := t.rekey_byteUnder (p.place.pa / 64) (s.serialOf p.place.kidx) b
  rw [ht.sameMemory.byteUnder] at hrekey
  have hkey := t.rekey_lineKey (p.place.pa / 64) (s.serialOf p.place.kidx) (b / 64)
  unfold State.byteUnder at hrekey ⊢
  dsimp only at hrekey ⊢
  by_cases hb : p.place.pa ≤ b ∧ b < p.place.pa + bs.length
  · have hsame : b / 64 = p.place.pa / 64 := by omega
    rw [if_pos hsame] at hkey
    obtain ⟨i, rfl⟩ := Nat.exists_eq_add_of_le hb.1
    have hi : i < bs.length := by omega
    rw [if_pos hb, hkey, if_pos rfl, Memory.byte_setBytes _ _ _ _ hi, Nat.add_sub_cancel_left, List.getD_eq_getElem _ _ hi]
  · rw [if_neg hb, ← hrekey, Memory.byte_setBytes_outside _ _ (by omega)]

/-- A write leaves the bytes of other lines, under every key. -/
theorem State.writePiece_byteUnder_other {b : Nat} (hb : b / 64 ≠ p.place.pa / 64) (k : Nat) :
    (s.writePiece a p bs).byteUnder k b = s.byteUnder k b := by
  obtain ⟨t, ht, he⟩ := State.writePiece_eq a (bs := bs) hdead hpoison
  rw [he, (SameBytes.clearTags _ _ _).byteUnder, ← ht.sameMemory.byteUnder, ← t.rekey_byteUnder_other hb (s.serialOf p.place.kidx) k]
  unfold State.byteUnder
  dsimp only
  rw [Memory.byte_setBytes_outside _ _ (by omega)]

omit hline in
theorem State.writePiece_tags (g : Nat) : (s.writePiece a p bs).tags.getD g false =
    (s.tags.getD g false && !(g / 4 == p.place.pa / 64 && s.lineKey.getD (p.place.pa / 64) 0 != s.serialOf p.place.kidx) &&
      !(decide (p.len ≠ 0) && decide (p.place.pa / 16 ≤ g) && decide (g ≤ (p.place.pa + p.len - 1) / 16))) := by
  obtain ⟨t, ht, he⟩ := State.writePiece_eq a (bs := bs) hdead hpoison
  rw [he, State.clearTags_tags]
  dsimp only
  rw [State.rekey_tags, ht.sameMemory.tags, ht.sameMemory.lineKey]

omit hline in
/-- A line that is written is not poisoned, and the poison of the others stays. -/
theorem State.writePiece_poison (n : Nat) : (s.writePiece a p bs).poison.getD n false = s.poison.getD n false := by
  obtain ⟨t, ht, he⟩ := State.writePiece_eq a (bs := bs) hdead hpoison
  have hrekey : (t.rekey (p.place.pa / 64) (s.serialOf p.place.kidx)).poison = t.poison := by
    unfold State.rekey
    split
    · rfl
    · exact (SameBytes.clearTags _ _ _).poison
  rw [he, (SameBytes.clearTags _ _ _).poison]
  dsimp only
  rw [hrekey, ht.sameMemory.poison]
  by_cases hn : n = p.place.pa / 64
  · rw [hn, Table.getD_put_self, hpoison]
  · exact Table.getD_put_ne _ _ _ hn

end

/-! ### A store of one piece -/

/-- The state in which the bytes of a store are written: its writer is recorded and its translation held. -/
def State.recorded (s : State) (l : Loc) (rel : Bool) (ps : List Piece) : State :=
  (s.recordWrite (s.accessor l) l.phys (s.ctx l).cur.region rel ps).holdRange (s.accessor l) ps

theorem State.recorded_onlyMemory (s : State) (l : Loc) (rel : Bool) (ps : List Piece) : s.OnlyMemory (s.recorded l rel ps) :=
  (State.OnlyMemory.recordWrite ..).trans (.holdRange ..)

theorem State.recorded_sameBytes (s : State) (l : Loc) (rel : Bool) (ps : List Piece) : SameBytes (s.recorded l rel ps) s :=
  ⟨rfl, rfl, rfl, rfl⟩

theorem State.recorded_tags (s : State) (l : Loc) (rel : Bool) (ps : List Piece) : (s.recorded l rel ps).tags = s.tags := rfl

theorem State.storeBytes_eq {s : State} {ps : List Piece} (h : s.writeRefused ps = false) (l : Loc) (rel : Bool) (bs : List Byte) :
    s.storeBytes l rel ps bs = (s.recorded l rel ps).writePieces (s.accessor l) ps bs := by
  unfold State.storeBytes
  rw [h]
  rfl

/-- A piece of a live page off poison. -/
structure State.Writable (s : State) (p : Piece) : Prop where
  live : s.keyDead p.place.kidx = false
  clean : s.poison.getD (p.place.pa / 64) false = false

theorem State.Writable.piecePoisoned {s : State} {p : Piece} (h : s.Writable p) : s.piecePoisoned p = false := by
  simp [State.piecePoisoned, h.clean]

theorem State.writeRefused_of_writable {s : State} {ps : List Piece} (h : ∀ p ∈ ps, s.Writable p) : s.writeRefused ps = false := by
  simp only [State.writeRefused, List.any_eq_false]
  intro p hp
  simp [(h p hp).piecePoisoned]

theorem State.Writable.of_same {s t : State} {p : Piece} (h : s.Writable p) (hs : SameBytes t s) : t.Writable p where
  live := by
    have hd : t.keyDead p.place.kidx = s.keyDead p.place.kidx := by simp only [State.keyDead, hs.keys]
    exact hd.trans h.live
  clean := by rw [hs.poison]; exact h.clean

/-- A store of one piece writes that piece. -/
theorem State.storeBytes_single {s : State} {p : Piece} (h : s.Writable p) (l : Loc) (rel : Bool) {bs : List Byte} (hlen : bs.length = p.len) :
    s.storeBytes l rel [p] bs = (s.recorded l rel [p]).writePiece (s.accessor l) p bs := by
  rw [State.storeBytes_eq (State.writeRefused_of_writable (by simpa using h)), State.writePieces, State.writePieces, ← hlen, List.take_length]

/-- What a store does to its context: a memory error is due, or nothing. -/
theorem State.storeBytes_ctx (s : State) (l : Loc) (rel : Bool) (ps : List Piece) (bs : List Byte) :
    ∃ b, (s.storeBytes l rel ps bs).ctx l = { s.ctx l with memErrDue := b } := by
  unfold State.storeBytes
  split
  · exact ⟨true, State.ctx_setCtx ..⟩
  · refine ⟨(s.ctx l).memErrDue, ?_⟩
    exact ((State.recorded_onlyMemory s l rel ps).trans (State.OnlyMemory.writePieces ..)).ctx l

/-- What a store of one piece leaves: its bytes at its place, the other bytes, and the tags. -/
structure State.Stores (s : State) (p : Piece) (bs : List Byte) (t : State) : Prop where
  only : s.OnlyMemory t
  bytes : ∀ b, t.byteUnder (s.serialOf p.place.kidx) b =
    if p.place.pa ≤ b ∧ b < p.place.pa + bs.length then bs.getD (b - p.place.pa) 0 else s.byteUnder (s.serialOf p.place.kidx) b
  tags : ∀ g, t.tags.getD g false =
    (s.tags.getD g false && !(g / 4 == p.place.pa / 64 && s.lineKey.getD (p.place.pa / 64) 0 != s.serialOf p.place.kidx) &&
      !(decide (p.len ≠ 0) && decide (p.place.pa / 16 ≤ g) && decide (g ≤ (p.place.pa + p.len - 1) / 16)))

theorem State.storeBytes_stores {s : State} {p : Piece} (h : s.Writable p) (l : Loc) (rel : Bool) {bs : List Byte} (hlen : bs.length = p.len)
    (hline : p.place.pa % 64 + bs.length ≤ 64) : s.Stores p bs (s.storeBytes l rel [p] bs) := by
  have hrec := h.of_same (s.recorded_sameBytes l rel [p])
  rw [State.storeBytes_single h l rel hlen]
  exact ⟨(s.recorded_onlyMemory l rel [p]).trans (.writePiece ..), State.writePiece_byteUnder _ hrec.live hrec.clean hline,
    State.writePiece_tags _ hrec.live hrec.clean⟩

theorem State.Stores.byteUnder_inside {s t : State} {p : Piece} {size x : Nat} (h : s.Stores p (leBytes size x) t) {j : Nat} (hj : j < size) :
    t.byteUnder (s.serialOf p.place.kidx) (p.place.pa + j) = BitVec.ofNat 8 (x / 256 ^ j) := by
  rw [h.bytes, if_pos (by rw [length_leBytes]; omega), Nat.add_sub_cancel_left, getD_leBytes x hj]

theorem State.Stores.byteUnder_outside {s t : State} {p : Piece} {size x : Nat} (h : s.Stores p (leBytes size x) t) {a : Nat}
    (ha : a < p.place.pa ∨ p.place.pa + size ≤ a) :
    t.byteUnder (s.serialOf p.place.kidx) a = s.byteUnder (s.serialOf p.place.kidx) a := by
  rw [h.bytes, if_neg (by rw [length_leBytes]; omega)]

theorem State.Stores.tag_inside {s t : State} {p : Piece} {bs : List Byte} (h : s.Stores p bs t) {j : Nat} (hj : j < p.len) :
    t.tags.getD ((p.place.pa + j) / 16) false = false := by
  have h1 : p.place.pa / 16 ≤ (p.place.pa + j) / 16 := by omega
  have h2 : (p.place.pa + j) / 16 ≤ (p.place.pa + p.len - 1) / 16 := by omega
  have h3 : p.len ≠ 0 := by omega
  rw [h.tags]
  simp [h1, h2, h3]

theorem State.Stores.tag_outside {s t : State} {p : Piece} {bs : List Byte} (h : s.Stores p bs t) {g : Nat}
    (hg : g < p.place.pa / 16 ∨ (p.place.pa + p.len - 1) / 16 < g) : t.tags.getD g false =
      (s.tags.getD g false && !(g / 4 == p.place.pa / 64 && s.lineKey.getD (p.place.pa / 64) 0 != s.serialOf p.place.kidx)) := by
  rw [h.tags]
  obtain hg | hg := hg
  · simp [Nat.not_le.mpr hg]
  · simp [Nat.not_le.mpr hg]

/-! ### The scalar stores (O33) -/

theorem SameBytes.onView (s : State) (l : Loc) (p : Bool) (f : View → View) : SameBytes (s.onView l p f) s := ⟨rfl, rfl, rfl, rfl⟩

theorem Ctx.GoesOn.onView {x : Ctx} {pc : Word} (h : x.GoesOn pc) (p : Bool) (f : View → View) : (x.onView p f).GoesOn pc :=
  ⟨h.mode, h.wait, h.pc, h.branch, h.fence⟩

/-- The state in which an access is accepted, where it is ready and nothing else goes on. -/
theorem State.accessing_goesOn {i : Instr} {s : State} {l : Loc} {o : Opd} (hr : s.ready l i o) (hx : (s.ctx l).straight) :
    ((s.accessing l o).ctx l).GoesOn (s.ctx l).pc := by
  obtain ⟨-, -, hsettled⟩ := hr
  rw [State.accessing_ctx]
  exact .accessing hx hsettled

theorem State.accessing_byteUnder (s : State) (l : Loc) (o : Opd) (k a : Nat) : (s.accessing l o).byteUnder k a = s.byteUnder k a := by
  rw [(SameTables.accessing s l o).byteUnder, State.waiting_byteUnder]

theorem State.Writable.accessing {s : State} {l : Loc} {o : Opd} {p : Piece} (h : (s.waiting l o).Writable p) : (s.accessing l o).Writable p :=
  h.of_same (SameTables.accessing s l o).sameBytes

theorem accessOnly_storeSem (size : Nat) (rel : Bool) : (storeSem size rel).AccessOnly := ⟨rfl, rfl, rfl, rfl, rfl⟩

theorem accessOnly_semStc : semStc.AccessOnly := ⟨rfl, rfl, rfl, rfl, rfl⟩

/-- A store of a word in one piece: what it writes, and the region that a release ends (R196, R324). -/
theorem storeSem_act {s : State} {l : Loc} {o : Opd} {size : Nat} {p : Piece} (rel : Bool) (hp : s.parts l o.storeAddr size true = [p])
    (hw : s.Writable p) (hlen : p.len = size) (hline : p.place.pa % 64 + size ≤ 64) :
    ∃ t, s.Stores p (leBytes size o.xw.toNat) t ∧
      ((storeSem size rel).act s l o = t ∨ (storeSem size rel).act s l o = t.release l) := by
  have h := State.storeBytes_stores hw l rel (bs := leBytes size o.xw.toNat) (by rw [length_leBytes, hlen]) (by rw [length_leBytes]; exact hline)
  refine ⟨_, h, ?_⟩
  unfold storeSem
  dsimp only
  rw [hp]
  cases rel with
  | false => exact .inl rfl
  | true => exact .inr rfl

/-- STC in one piece: what it writes, and its tag (R197). -/
theorem semStc_act {s : State} {l : Loc} {o : Opd} {p : Piece} (hp : s.parts l o.storeAddr 16 true = [p])
    (hw : s.Writable p) (hlen : p.len = 16) (hline : p.place.pa % 64 + 16 ≤ 64) :
    ∃ t, s.Stores p (leBytes 16 o.xc.raw.toNat) t ∧
      semStc.act s l o = { t with tags := t.tags.put false (p.place.pa / 16) (keepsTag o.cap o.xc) } := by
  refine ⟨_, State.storeBytes_stores hw l false (by rw [length_leBytes, hlen]) (by rw [length_leBytes]; exact hline), ?_⟩
  have hrefused : s.writeRefused [p] = false := State.writeRefused_of_writable (by simpa using hw)
  unfold semStc
  dsimp only
  rw [hp]
  simp only [hrefused, hw.live, Bool.or_self, Bool.false_eq_true, if_false]

theorem storeOf_ne_crw {o : Opd} {size x : Nat} (h : Spec.storeOf o = some (size, x)) : o.op ≠ .crw := by
  rintro hop
  rw [Spec.storeOf, hop] at h
  cases h

theorem State.waiting_tags (s : State) (l : Loc) (o : Opd) : (s.waiting l o).tags = s.tags := (SameMemory.waiting s l o).tags

/-- Settles O33: the one piece of an accepted store is written, and the end of its bundle leaves memory. -/
theorem storesWriteTheirBytes : Obligations.StoresWriteTheirBytes := by
  unfold Obligations.StoresWriteTheirBytes
  intro i s l o size x p hr hx ha hstore t hparts hlen hline hdead hpoison key pa
  have hw : (s.accessing l o).Writable p := State.Writable.accessing ⟨hdead, hpoison⟩
  have hsame := SameTables.accessing s l o
  have hp : (s.accessing l o).parts l o.storeAddr size true = [p] := by rw [State.accessing_parts]; exact hparts
  have hcrw := storeOf_ne_crw hstore
  have hgo := State.accessing_goesOn hr hx
  obtain ⟨v, hv, hact, hsem, hstc⟩ : ∃ v, (s.accessing l o).Stores p (leBytes size x) v ∧
      (SameBytes ((opSem o.op).act (s.accessing l o) l o) v ∧ (((opSem o.op).act (s.accessing l o) l o).ctx l).GoesOn (s.ctx l).pc) ∧
      (opSem o.op).AccessOnly ∧
      ((o.op ≠ .stc ∧ ((opSem o.op).act (s.accessing l o) l o).tags = v.tags) ∨ (o.op = .stc ∧ size = 16 ∧
        ((opSem o.op).act (s.accessing l o) l o).tags = v.tags.put false (p.place.pa / 16) (keepsTag o.cap o.xc))) := by
    obtain ⟨hop, rfl, rel, hsem⟩ | ⟨hop, rfl, rfl⟩ := opSem_store hstore
    · obtain ⟨v, hv, hact⟩ := storeSem_act rel hp hw hlen hline
      have hctx : (v.ctx l).GoesOn (s.ctx l).pc := by rw [hv.only.ctx]; exact hgo
      rw [hsem]
      refine ⟨v, hv, ?_, accessOnly_storeSem size rel, .inl ⟨hop, ?_⟩⟩
      · obtain hact | hact := hact <;> rw [hact]
        · exact ⟨⟨rfl, rfl, rfl, rfl⟩, hctx⟩
        · refine ⟨SameBytes.onView .., ?_⟩
          rw [State.release, State.onView_ctx]
          exact hctx.onView _ _
      · obtain hact | hact := hact
        · rw [hact]
        · rw [hact]
          rfl
    · obtain ⟨v, hv, hact⟩ := semStc_act hp hw hlen hline
      rw [hop, opSem_stc, hact]
      refine ⟨v, hv, ⟨⟨rfl, rfl, rfl, rfl⟩, ?_⟩, accessOnly_semStc, .inr ⟨rfl, rfl, rfl⟩⟩
      change (v.ctx l).GoesOn _
      rw [hv.only.ctx]
      exact hgo
  have hacc := acceptsTo_accessed hr hx ha (hsem.passes ..) hsem.after hcrw hact.2
  have hclose := SameMemory.closeBundle ((opSem o.op).act (s.accessing l o) l o) l hcrw ((s.core l.core).vcount l.ctx) false
  have hbytes : SameBytes (s.accessed l o) v := hclose.sameBytes.trans hact.1
  have hkey : (s.accessing l o).serialOf p.place.kidx = key := hsame.serialOf _
  have htags : (s.accessing l o).tags = s.tags := hsame.tags.trans (State.waiting_tags s l o)
  refine ⟨_, hacc.waits, hacc.accepts, hacc.mode, hacc.pc, fun j hj => ?_, fun a ha => ?_, fun hop j hj => ?_, fun hop => ?_, fun g hg => ?_⟩
  · rw [hbytes.byteUnder, ← hkey]
    exact hv.byteUnder_inside hj
  · rw [hbytes.byteUnder, ← hkey, hv.byteUnder_outside ha, State.accessing_byteUnder]
  · obtain ⟨-, htag⟩ | ⟨hop', -⟩ := hstc
    · rw [State.accessed, hclose.tags, htag]
      exact hv.tag_inside (by omega)
    · exact absurd hop' hop
  · obtain ⟨hop', -⟩ | ⟨-, -, htag⟩ := hstc
    · exact absurd hop hop'
    · rw [State.accessed, hclose.tags, htag]
      exact Table.getD_put_self ..
  · have hout := hv.tag_outside (g := g) (by rw [hlen]; exact hg)
    rw [htags, hsame.lineKey, hkey] at hout
    rw [State.accessed, hclose.tags, ← hout]
    obtain ⟨-, htag⟩ | ⟨-, rfl, htag⟩ := hstc
    · rw [htag]
    · rw [htag]
      exact Table.getD_put_ne _ _ _ (by omega)

/-! ### Atomics (O36) -/

theorem accessOnly_atomicSem (size : Nat) (usesC : Bool) (new : Opd → Nat → Option Nat) (res : Nat → Value) :
    (atomicSem size usesC new res).AccessOnly := ⟨rfl, rfl, rfl, rfl, rfl⟩

/-- The value of an atomic from the number in memory (R203, R252). -/
def Opd.atomicResult (o : Opd) (m : Nat) : Value :=
  if o.op = .cas128 then .cap ⟨BitVec.ofNat 128 m, false⟩
  else if o.op = .atadd32 then .word ((BitVec.ofNat 32 m).signExtend 64) else .word (BitVec.ofNat 64 m)

theorem signedWord_toNat (x : Word) : signedWord x.toNat = sgn x := by simp [signedWord, sgn]

/-- The atomics, by their sizes, what they write and what they give. -/
theorem opSem_atomic {o : Opd} {m size : Nat} {new : Option Nat} (h : Spec.atomicOf o m = some (size, new)) :
    o.op ≠ .crw ∧ ∃ usesC f res, opSem o.op = atomicSem size usesC f res ∧ f o m = new ∧ res m = o.atomicResult m := by
  have hword (h1 : o.op ≠ .cas128) (h2 : o.op ≠ .atadd32) : oldWord m = o.atomicResult m := by
    rw [Opd.atomicResult, if_neg h1, if_neg h2]
    rfl
  have hlow (h : o.op = .atadd32) : Value.word (BitVec.ofInt 64 (signedLow (BitVec.ofNat 64 m) 32)) = o.atomicResult m := by
    rw [Opd.atomicResult, if_neg (by rw [h]; decide), if_pos h]
    exact congrArg Value.word (load_value (size := 4) (by decide) (by decide) m)
  have hpick (x y : Int) (a b : Nat) : (if x ≤ y then a else b) = if y < x then b else a := by
    by_cases hxy : x ≤ y
    · rw [if_pos hxy, if_neg (Int.not_lt.mpr hxy)]
    · rw [if_neg hxy, if_pos (Int.not_le.mp hxy)]
  unfold Spec.atomicOf at h
  dsimp only at h
  split at h
  case h_1 hop =>
    cases h
    exact ⟨by rw [hop]; decide, _, _, _, (congrArg opSem hop).trans opSem_atadd32, congrArg some (Nat.add_mod_mod ..), hlow hop⟩
  case h_2 hop =>
    cases h
    exact ⟨by rw [hop]; decide, _, _, _, (congrArg opSem hop).trans opSem_atadd64, rfl, hword (by rw [hop]; decide) (by rw [hop]; decide)⟩
  case h_3 hop =>
    cases h
    exact ⟨by rw [hop]; decide, _, _, _, (congrArg opSem hop).trans opSem_atand, rfl, hword (by rw [hop]; decide) (by rw [hop]; decide)⟩
  case h_4 hop =>
    cases h
    exact ⟨by rw [hop]; decide, _, _, _, (congrArg opSem hop).trans opSem_ator, rfl, hword (by rw [hop]; decide) (by rw [hop]; decide)⟩
  case h_5 hop =>
    cases h
    exact ⟨by rw [hop]; decide, _, _, _, (congrArg opSem hop).trans opSem_atxor, rfl, hword (by rw [hop]; decide) (by rw [hop]; decide)⟩
  case h_6 hop =>
    cases h
    exact ⟨by rw [hop]; decide, _, _, _, (congrArg opSem hop).trans opSem_atmax, congrArg some ((hpick _ _ _ _).trans (by rw [← signedWord_toNat]; rfl)), hword (by rw [hop]; decide) (by rw [hop]; decide)⟩
  case h_7 hop =>
    cases h
    exact ⟨by rw [hop]; decide, _, _, _, (congrArg opSem hop).trans opSem_atmin, congrArg some ((hpick _ _ _ _).trans (by rw [← signedWord_toNat]; rfl)), hword (by rw [hop]; decide) (by rw [hop]; decide)⟩
  case h_8 hop =>
    cases h
    exact ⟨by rw [hop]; decide, _, _, _, (congrArg opSem hop).trans opSem_atswp, rfl, hword (by rw [hop]; decide) (by rw [hop]; decide)⟩
  case h_9 hop =>
    cases h
    exact ⟨by rw [hop]; decide, _, _, _, (congrArg opSem hop).trans opSem_cas64, rfl, hword (by rw [hop]; decide) (by rw [hop]; decide)⟩
  case h_10 hop =>
    cases h
    exact ⟨by rw [hop]; decide, _, _, _, (congrArg opSem hop).trans opSem_cas128, rfl, (if_pos hop).symm⟩
  case h_11 => cases h

/-- A data value on its way stands among the landings of its context, which goes on. -/
theorem State.deliverData_landing (s : State) (l : Loc) (o : Opd) (lanes : Option Mask) (lat : Nat) (bad : Bool) (v : Value) :
    ((s.deliverData l o lanes lat bad v).ctx l).landings.find? s.opId =
      some ⟨(s.core l.core).cycle + 1 + lat, if bad then none else some v, none⟩ := by
  rw [State.deliverData_ctx]
  exact Table.find?_set_self ..

theorem State.deliverData_goesOn {s : State} {l : Loc} {pc : Word} (h : (s.ctx l).GoesOn pc) (o : Opd) (lanes : Option Mask) (lat : Nat)
    (bad : Bool) (v : Value) : ((s.deliverData l o lanes lat bad v).ctx l).GoesOn pc := by
  rw [State.deliverData_ctx]
  exact ⟨h.mode, h.wait, h.pc, h.branch, h.fence⟩

/-- What an atomic leaves before its old number is on its way: its bytes written or none, and its context, its cycle and the operations numbered
as they were but for the views of the context. -/
structure State.Swaps (s : State) (l : Loc) (p : Piece) (size : Nat) (new : Option Nat) (w : State) : Prop where
  goesOn : ∀ pc, (s.ctx l).GoesOn pc → (w.ctx l).GoesOn pc
  opId : w.opId = s.opId
  cycle : (w.core l.core).cycle = (s.core l.core).cycle
  bytes : ∃ u v, SameMemory u s ∧ SameBytes w v ∧ match new with
    | some x => u.Stores p (leBytes size x) v
    | none => v = u

theorem State.Swaps.byteUnder_inside {s w : State} {l : Loc} {p : Piece} {size : Nat} {new : Option Nat} (h : s.Swaps l p size new w) {j : Nat}
    (hj : j < size) : w.byteUnder (s.serialOf p.place.kidx) (p.place.pa + j) = match new with
      | some x => BitVec.ofNat 8 (x / 256 ^ j)
      | none => s.byteUnder (s.serialOf p.place.kidx) (p.place.pa + j) := by
  obtain ⟨u, v, hu, hsame, hv⟩ := h.bytes
  rw [hsame.byteUnder, ← hu.serialOf]
  cases new with
  | some x => exact hv.byteUnder_inside hj
  | none => exact hv ▸ hu.byteUnder ..

theorem State.Swaps.byteUnder_outside {s w : State} {l : Loc} {p : Piece} {size : Nat} {new : Option Nat} (h : s.Swaps l p size new w) {a : Nat}
    (ha : a < p.place.pa ∨ p.place.pa + size ≤ a) :
    w.byteUnder (s.serialOf p.place.kidx) a = s.byteUnder (s.serialOf p.place.kidx) a := by
  obtain ⟨u, v, hu, hsame, hv⟩ := h.bytes
  rw [hsame.byteUnder, ← hu.serialOf, ← hu.byteUnder]
  cases new with
  | some x => exact hv.byteUnder_outside ha
  | none => exact hv ▸ rfl

/-- What an acquire leaves of its context, its cycle, the operations numbered and memory (R324). -/
structure State.Acquired (s : State) (l : Loc) (t : State) : Prop where
  goesOn : ∀ pc, (s.ctx l).GoesOn pc → (t.ctx l).GoesOn pc
  opId : t.opId = s.opId
  cycle : (t.core l.core).cycle = (s.core l.core).cycle
  same : SameMemory t s

theorem State.Acquired.acquireLine {s : State} {l : Loc} (prov : Bool) (word : Nat) : s.Acquired l (s.acquireLine l prov word) where
  goesOn pc h := by
    obtain ⟨f, -, hctx⟩ := s.acquireLine_ctx l prov word
    rw [hctx]
    exact h.onView _ _
  opId := State.acquireLine_opId ..
  cycle := State.acquireLine_cycle ..
  same := SameMemory.acquireLine ..

theorem State.release_cycle (s : State) (l : Loc) : ((s.release l).core l.core).cycle = (s.core l.core).cycle := by
  rw [State.release, State.onView, State.core_setCtx, Core.setCtx_cycle]

/-- An atomic in one piece: the lines are brought in, what a release left there is acquired, the new number is written, and a region ends. -/
theorem atomicSem_act {s : State} {l : Loc} {o : Opd} {size : Nat} {p : Piece} (usesC : Bool) (f : Opd → Nat → Option Nat) (res : Nat → Value)
    (hp : s.parts l o.storeAddr size true = [p]) (hw : s.Writable p) (hlen : p.len = size) (hline : p.place.pa % 64 + size ≤ 64) :
    ∃ w, s.Swaps l p size (f o (leNat (s.readPiece p))) w ∧
      (atomicSem size usesC f res).act s l o = w.deliverData l o none 40 false (res (leNat (s.readPiece p))) := by
  have hread : s.readRange [p] = (s.readPiece p, false) := by
    simp only [State.readRange, List.flatMap_singleton, List.any_cons, hw.piecePoisoned, List.any_nil, Bool.or_self]
  unfold atomicSem
  dsimp only
  rw [hp, hread]
  dsimp only
  generalize (if p.place.watched then s.metaOf p.place.pa else 0) = word
  have htouch := State.OnlyCaches.touchRange s (s.accessor l) [p]
  have hacq := State.Acquired.acquireLine (s := s.touchRange (s.accessor l) [p]) (l := l) false word
  have hsame : SameMemory ((s.touchRange (s.accessor l) [p]).acquireLine l false word) s := hacq.same.trans htouch.sameMemory
  have hgo (pc : Word) (h : (s.ctx l).GoesOn pc) : (((s.touchRange (s.accessor l) [p]).acquireLine l false word).ctx l).GoesOn pc :=
    hacq.goesOn pc (by rw [htouch.ctx]; exact h)
  have hopId := hacq.opId.trans htouch.opId
  have hcycle := hacq.cycle.trans (congrArg Core.cycle (htouch.core l.core))
  generalize (s.touchRange (s.accessor l) [p]).acquireLine l false word = u at hsame hgo hopId hcycle
  have hwu : u.Writable p := hw.of_same hsame.sameBytes
  cases f o (leNat (s.readPiece p)) with
  | none =>
    refine ⟨u.release l, ⟨fun pc h => ?_, hopId, (State.release_cycle u l).trans hcycle, u, u, hsame, SameBytes.onView .., rfl⟩, rfl⟩
    rw [State.release, State.onView_ctx]
    exact (hgo pc h).onView _ _
  | some x =>
    have hst := State.storeBytes_stores hwu l true (bs := leBytes size x) (by rw [length_leBytes, hlen]) (by rw [length_leBytes]; exact hline)
    have hcycle' := (State.release_cycle _ l).trans ((congrArg Core.cycle (hst.only.core l.core)).trans hcycle)
    refine ⟨(u.storeBytes l true [p] (leBytes size x)).release l, ⟨fun pc h => ?_, hst.only.opId.trans hopId, hcycle', u, _, hsame,
      SameBytes.onView .., hst⟩, rfl⟩
    rw [State.release, State.onView_ctx, hst.only.ctx]
    exact (hgo pc h).onView _ _

/-- Settles O36: an accepted atomic writes the one piece that it reads and puts its old number among the landings of its context. -/
theorem atomicsReadAndWriteInOneStep : Obligations.AtomicsReadAndWriteInOneStep := by
  unfold Obligations.AtomicsReadAndWriteInOneStep
  intro i s l o size new p hr hx ha t m hatomic hparts hlen hline hdead hpoison key pa
  obtain ⟨hcrw, usesC, f, res, hsem, hnew, hres⟩ := opSem_atomic hatomic
  have hsame := SameTables.accessing s l o
  have hp : (s.accessing l o).parts l o.storeAddr size true = [p] := by rw [State.accessing_parts]; exact hparts
  obtain ⟨w, hw, hact⟩ := atomicSem_act (l := l) (o := o) usesC f res hp (State.Writable.accessing ⟨hdead, hpoison⟩) hlen hline
  rw [hsame.readPiece] at hw hact
  rw [← hsem, hres] at hact
  rw [hnew] at hw
  have hkey : (s.accessing l o).serialOf p.place.kidx = key := hsame.serialOf _
  have hgo := hw.goesOn _ (State.accessing_goesOn hr hx)
  have hacc := acceptsTo_accessed hr hx ha ((hsem ▸ accessOnly_atomicSem size usesC f res : (opSem o.op).AccessOnly).passes ..)
    (by rw [hsem]; rfl) hcrw (by rw [hact]; exact State.deliverData_goesOn hgo ..)
  have hbytes : SameBytes (s.accessed l o) w := by
    rw [State.accessed, hact]
    exact ((SameMemory.closeBundle _ l hcrw _ _).trans (SameMemory.deliverData ..)).sameBytes
  refine ⟨_, hacc.waits, hacc.accepts, hacc.mode, hacc.pc, ?_, fun j hj => ?_, fun a ha => ?_⟩
  · obtain ⟨-, ⟨hturn, -⟩, -⟩ := id hr
    obtain ⟨hcycle, -⟩ := State.accessing_core (State.turn_eq_some hturn).1 o
    have hland := w.deliverData_landing l o none 40 false (o.atomicResult m)
    rw [hw.opId, State.accessing_opId, hw.cycle, hcycle] at hland
    rw [State.accessed, State.closeBundle_straight hcrw (by rw [hact]; exact (State.deliverData_goesOn hgo ..).branch), hact]
    exact hland
  · have hin := hw.byteUnder_inside hj
    rw [hkey] at hin
    rw [hbytes.byteUnder]
    refine hin.trans ?_
    cases new with
    | some x => rfl
    | none => exact State.accessing_byteUnder ..
  · have hout := hw.byteUnder_outside ha
    rw [hkey] at hout
    rw [hbytes.byteUnder]
    exact hout.trans (State.accessing_byteUnder ..)

end Sys2Proof.Machine

/-! # Vector loads and stores (O35) -/

namespace Sys2Proof.Machine

/-! ### Lanes and halves of bytes (R199, R202) -/

theorem leNat_take (bs : List Byte) (k : Nat) : leNat (bs.take k) = leNat bs % 256 ^ k := by
  induction k generalizing bs with
  | zero => rw [List.take_zero, Nat.pow_zero, Nat.mod_one]; rfl
  | succ k ih =>
    cases bs with
    | nil => rw [List.take_nil, leNat, Nat.zero_mod]
    | cons b bs =>
      have hb := b.isLt
      rw [List.take_succ_cons, leNat, leNat, ih, Nat.pow_succ' (m := 256), Nat.mod_mul, show (b.toNat + 256 * leNat bs) / 256 = leNat bs by omega]
      omega

theorem leNat_append_two (x : BitVec 16) (bs : List Byte) : leNat (leBytes 2 x.toNat ++ bs) = x.toNat + 2 ^ 16 * leNat bs := by
  have hx := x.isLt
  simp only [leBytes, List.cons_append, List.nil_append, leNat, BitVec.toNat_ofNat]
  omega

/-- A lane of the vector that bytes hold (R199). -/
theorem lane_bytesVec (bs : List Byte) {j : Nat} (hj : j < 128) :
    lane (bytesVec bs) j = BitVec.ofNat 32 (leNat ((bs.drop (4 * j)).take 4)) := by
  apply BitVec.eq_of_toNat_eq
  rw [lane, bytesVec, BitVec.extractLsb'_toNat, BitVec.toNat_ofNat, BitVec.toNat_ofNat, leNat_take, leNat_drop, Nat.mod_mod_of_dvd _ (by decide),
    show 8 * (4 * j) = 32 * j by omega]
  apply Nat.eq_of_testBit_eq
  intro k
  simp only [Nat.testBit_mod_two_pow, Nat.testBit_shiftRight]
  by_cases hk : k < 32
  · rw [decide_eq_true (show 32 * j + k < 4096 by omega)]
    rfl
  · simp [hk]

theorem leNat_halves (hs : List (BitVec 16)) (h : Nat) :
    (leNat (hs.flatMap fun x => leBytes 2 x.toNat) >>> (16 * h)) % 2 ^ 16 = (hs.getD h 0).toNat := by
  induction hs generalizing h with
  | nil => simp [leNat]
  | cons x hs ih =>
    have hx := x.isLt
    rw [List.flatMap_cons, leNat_append_two]
    cases h with
    | zero => simp; omega
    | succ h =>
      rw [List.getD_cons_succ, ← ih, show 16 * (h + 1) = 16 + 16 * h by omega, Nat.shiftRight_add, Nat.shiftRight_eq_div_pow _ 16,
        Nat.add_mul_div_left _ _ (by decide), Nat.div_eq_of_lt hx, Nat.zero_add]

/-- A half of the vector that halves give (R200, R202). -/
theorem half_halvesVec (hs : List (BitVec 16)) {h : Nat} (hh : h < 256) : (halvesVec hs).extractLsb' (16 * h) 16 = hs.getD h 0 := by
  apply BitVec.eq_of_toNat_eq
  rw [← leNat_halves, halvesVec, bytesVec, BitVec.extractLsb'_toNat, BitVec.toNat_ofNat]
  apply Nat.eq_of_testBit_eq
  intro k
  simp only [Nat.testBit_mod_two_pow, Nat.testBit_shiftRight]
  by_cases hk : k < 16
  · rw [decide_eq_true (show 16 * h + k < 4096 by omega)]
    rfl
  · simp [hk]

/-- Two bytes, the low one first, are the half that they make. -/
theorem ofNat_leNat_two (f : Nat → Byte) {n r : Nat} (h : 2 * r + 1 < n) :
    BitVec.ofNat 16 (leNat ((((List.range n).map f).drop (2 * r)).take 2)) = (f (2 * r + 1) ++ f (2 * r) : BitVec 16) := by
  have htake : (((List.range n).map f).drop (2 * r)).take 2 = [f (2 * r), f (2 * r + 1)] := by
    refine List.ext_getElem (by simp; omega) fun i h1 h2 => ?_
    have hi : i < 2 := by simpa using h2
    match i, hi with
    | 0, _ => simp
    | 1, _ => simp
  have hlow := (f (2 * r)).isLt
  have hhigh := (f (2 * r + 1)).isLt
  rw [htake]
  apply BitVec.eq_of_toNat_eq
  rw [BitVec.toNat_ofNat, BitVec.toNat_append, leNat, leNat, leNat, Nat.shiftLeft_eq, Nat.mul_comm _ (2 ^ 8),
    ← Nat.two_pow_add_eq_or_of_lt hlow]
  omega

/-- The halves that VLDX gives (R202). -/
theorem half_expanded (mask : Nat) (f : Nat → Byte) {h : Nat} (hh : h < 256) :
    (halvesVec (expandHalves mask 0 256 (bytesHalves 256 ((List.range (2 * onesBelow mask 256)).map f)))).extractLsb' (16 * h) 16 =
      if mask.testBit h then f (2 * ones mask h + 1) ++ f (2 * ones mask h) else 0 := by
  rw [half_halvesVec _ hh, expandHalves_bytes, List.getD_eq_getElem _ _ (by simpa using hh), List.getElem_map, List.getElem_range, recordHalf]
  split
  · rename_i hbit
    have hlt : ones mask h < ones mask 256 := by
      have hmono : ∀ k, ones mask (h + 1) ≤ ones mask (h + 1 + k) := fun k => by
        induction k with
        | zero => exact le_refl _
        | succ k ih => rw [show h + 1 + (k + 1) = h + 1 + k + 1 from rfl, ones_succ mask (h + 1 + k)]; omega
      have hnext := hmono (256 - (h + 1))
      rw [ones_succ, hbit, show h + 1 + (256 - (h + 1)) = 256 by omega] at hnext
      simpa using hnext
    exact ofNat_leNat_two f (by rw [onesBelow_eq]; omega)
  · rfl

/-! ### The vector loads (R199, R202) -/

theorem State.accessing_laneMask (s : State) (l : Loc) (o : Opd) : (s.accessing l o).laneMask l = Spec.mask (s.ctx l) := by
  rw [← State.acting_laneMask, State.laneMask, State.laneMask, State.accessing_ctx, State.acting_ctx]
  rfl

theorem State.waiting_laneMask (s : State) (l : Loc) (o : Opd) : (s.waiting l o).laneMask l = Spec.mask (s.ctx l) := by
  rw [← State.acting_laneMask, State.laneMask, State.laneMask, State.waiting_ctx, State.acting_ctx]
  rfl

/-- Two views whose pending operations and latches are the same, in both sets of ports. -/
structure View.SameLatches (w v : View) : Prop where
  pending : w.pending = v.pending
  handler : w.ctl.hndst = v.ctl.hndst
  latch : ∀ h u i, (w.portOf h u).latch i = (v.portOf h u).latch i

/-- A port written is what its unit then has in that set, and every other port stays (R254). -/
theorem View.portOf_setPortOf (w : View) (h g : Bool) (u u' : UnitId) (p : Port) :
    (w.setPortOf h u p).portOf g u' = if g = h ∧ u'.num = u.num then p else w.portOf g u' := by
  by_cases hu : u'.num = u.num
  · cases h <;> cases g <;> simp [View.setPortOf, View.portOf, hu]
  · cases h <;> cases g <;> simp [View.setPortOf, View.portOf, hu, Table.getD_set_ne _ hu]

namespace View.SameLatches

theorem refl (w : View) : w.SameLatches w := ⟨rfl, rfl, fun _ _ _ => rfl⟩

theorem trans {w v u : View} (h : w.SameLatches v) (h' : v.SameLatches u) : w.SameLatches u :=
  ⟨h.pending.trans h'.pending, h.handler.trans h'.handler, fun a b c => (h.latch a b c).trans (h'.latch a b c)⟩

theorem port {w v : View} (h : w.SameLatches v) (u : UnitId) (i : Nat) : (w.port u).latch i = (v.port u).latch i := by
  rw [View.port, View.port, View.inHandler, h.handler]
  exact h.latch ..

/-- A view whose ports, control registers and pending operations are the same. -/
theorem of_ports {w v : View} (hpending : w.pending = v.pending) (hhandler : w.ctl.hndst = v.ctl.hndst) (hports : w.ports = v.ports)
    (hhports : w.hports = v.hports) : w.SameLatches v :=
  ⟨hpending, hhandler, fun h u i => by simp only [View.portOf, hports, hhports]⟩

theorem writeReg (w : View) (f : RFile) (n : Nat) (v : Value) (m : Option Mask) : (w.writeReg f n v m).SameLatches w := by
  cases f
  case p =>
    unfold View.writeReg View.setPred
    dsimp only
    split
    · exact refl w
    · exact of_ports rfl rfl rfl rfl
  all_goals exact of_ports rfl rfl rfl rfl

theorem setRes (w : View) (h : Bool) (u : UnitId) (v : Value) (m : Option Mask) : (w.setRes h u v m).SameLatches w := by
  refine ⟨by simp [View.setRes], by simp [View.setRes], fun g u' i => ?_⟩
  unfold View.setRes
  dsimp only
  rw [View.portOf_setPortOf]
  split
  · rename_i hu
    obtain ⟨rfl, hu⟩ := hu
    simp only [View.portOf, hu]
    rfl
  · rfl

theorem deliver (w : View) (h : Bool) (u : UnitId) (d : Option (RFile × Nat)) (v : Value) (m : Option Mask) :
    (w.deliver h u d v m).SameLatches w := by
  unfold View.deliver
  split
  · exact (setRes ..).trans (writeReg ..)
  · exact setRes ..

theorem hndst_write (c : Ctl) (n : Nat) (x : Word) : (c.write n x).hndst = c.hndst := by
  unfold Ctl.write
  simp only [apply_ite Ctl.hndst, ite_self]

theorem setEntry (w : View) (n : Nat) (m : Mask) : (w.setEntry n m).SameLatches w := by
  unfold View.setEntry
  split <;> exact of_ports rfl rfl rfl rfl

theorem memcnt (w : View) (x : Word) : ({ w with ctl := { w.ctl with memcnt := x } } : View).SameLatches w := of_ports rfl rfl rfl rfl

theorem stackEffect (h : Bool) (w : View) (d : Option Nat) (p : Option (Nat × Mask)) : (View.effect h w (.stack d p)).SameLatches w := by
  unfold View.effect
  dsimp only
  have hdepth : (match d with | some d => w.setDepth d | none => w : View).SameLatches w := by
    split
    · exact of_ports rfl rfl rfl rfl
    · exact refl w
  cases p with
  | none => exact hdepth
  | some p => exact (setEntry ..).trans hdepth

theorem effect (h : Bool) (w : View) (e : Eff) : (View.effect h w e).SameLatches w := by
  cases e with
  | reg f n v m => exact writeReg ..
  | res u v m => exact setRes ..
  | flags b => exact of_ports rfl rfl rfl rfl
  | ctl n x => exact of_ports rfl (hndst_write ..) rfl rfl
  | startLoop => exact of_ports rfl rfl rfl rfl
  | stack d p => exact stackEffect ..
  | launchFull => exact memcnt ..
  | merge u d em c =>
    refine (deliver ..).trans (trans (v := { w with cf := mergeCandidates c (if em then [] else w.cf) }) ?_ (of_ports rfl rfl rfl rfl))
    split
    · exact of_ports rfl rfl rfl rfl
    · exact refl _
  | threshold u d x m => exact deliver ..
  | candidate u d j => exact deliver ..
  | clear u d => exact (deliver ..).trans (of_ports rfl rfl rfl rfl)

theorem foldl {α : Type} {f : View → α → View} (h : ∀ w a, (f w a).SameLatches w) (as : List α) (w : View) :
    (as.foldl f w).SameLatches w := by
  induction as generalizing w with
  | nil => exact refl w
  | cons a as ih => exact (ih _).trans (h w a)

/-- The results that land at the end of a bundle leave the latches and the pending operations (R30). -/
theorem land (w : View) (t : Nat) : (w.land t).SameLatches w := by
  unfold View.land
  dsimp only
  exact (foldl (fun w (f : Flight) => foldl (effect f.hset) f.effs w) _ _).trans (of_ports rfl rfl rfl rfl)

end View.SameLatches

theorem View.increment_pending (w : View) (sm : OpSem) (vc : Nat) (u : UnitId) (x : Value) : (w.increment sm vc u x).pending = w.pending := by
  simp [View.increment, View.setPort]

/-- After its bundle a delivered value is pending for its destination, in its lanes (R31). -/
theorem State.Delivers.pending {s t : State} {l : Loc} {o : Opd} {lanes : Option Mask} {lat : Nat} {v : Option Value}
    (h : s.Delivers l o lanes lat v t) (hb : (s.ctx l).branch = none) (hcrw : o.op ≠ .crw) (vc : Nat) :
    ∃ q ∈ ((t.closeBundle l o vc false).ctx l).cur.pending, q.id = s.opId ∧ q.dest = o.dest ∧ q.lanes = lanes := by
  obtain ⟨g, -, hctx⟩ := h.ctx
  refine ⟨⟨s.opId, o.unit, o.dest, lanes, (s.ctx l).cur.inHandler⟩, ?_, rfl, rfl, rfl⟩
  rw [State.closeBundle_straight hcrw (by rw [hctx]; exact hb), hctx]
  dsimp only
  rw [(View.SameLatches.land _ _).pending]
  change _ ∈ (((g (s.ctx l).cur).begun o s.opId lanes (s.ctx l).cur.inHandler).increment (opSem o.op) vc o.unit o.x).pending
  rw [View.increment_pending]
  exact View.begun_pending ..

theorem State.readRange_whole_of_parts {s : State} {l : Loc}
    (h : ∀ a n p, p ∈ s.parts l a n false → s.piecePoisoned p = false) (a : Int) (n : Nat) : (s.readRange (s.parts l a n false)).2 = false :=
  State.readRange_whole fun p hp => h a n p hp

/-- VLD with an enabled lane delivers the words of its range (R199). -/
theorem semVld_delivers {s : State} {l : Loc} {o : Opd} (hm : s.laneMask l ≠ 0) (hpoison : ∀ a n p, p ∈ s.parts l a n false → s.piecePoisoned p = false) :
    s.Delivers l o (some (s.laneMask l)) 28 (some (.vec (bytesVec (s.readRange (s.parts l o.loadAddr 512 false)).1))) (semVld.act s l o) := by
  have hwhole : (s.readRange (enabledParts (s.laneMask l) o.loadAddr.toNat (s.parts l o.loadAddr 512 false))).2 = false :=
    State.readRange_whole fun p hp => hpoison _ _ p (List.mem_of_mem_filter hp)
  have h := (State.OnlyCaches.touchRange s (s.accessor l)
    (enabledParts (s.laneMask l) o.loadAddr.toNat (s.parts l o.loadAddr 512 false))).delivers l o (some (s.laneMask l)) 28 false
      (.vec (bytesVec (s.readRange (s.parts l o.loadAddr 512 false)).1))
  unfold semVld
  dsimp only
  rw [if_neg hm, hwhole]
  exact h

/-- GATH delivers to each enabled lane the word at its address (R199). -/
theorem semGath_delivers {s : State} {l : Loc} {o : Opd} (hpoison : ∀ a n p, p ∈ s.parts l a n false → s.piecePoisoned p = false) :
    s.Delivers l o (some (s.laneMask l)) 32 (some (.vec (ofLanes fun i =>
      if bit (s.laneMask l) i then BitVec.ofNat 32 (leNat (s.readRange (s.parts l (laneAddr o o.xv i) 4 false)).1) else 0))) (semGath.act s l o) := by
  have hwhole : (s.readRange ((enabledLanes (s.laneMask l)).flatMap fun i => s.parts l (laneAddr o o.xv i) 4 false)).2 = false := by
    refine State.readRange_whole fun p hp => ?_
    obtain ⟨i, -, hp⟩ := List.mem_flatMap.mp hp
    exact hpoison _ _ p hp
  unfold semGath
  dsimp only
  rw [hwhole]
  exact (State.OnlyCaches.touchRange ..).delivers l o (some (s.laneMask l)) 32 false _

/-- VLDX with an enabled lane delivers the halves that its record gives (R202). -/
theorem semVldx_delivers {s : State} {l : Loc} {o : Opd} (hm : s.laneMask l ≠ 0) (hpoison : ∀ a n p, p ∈ s.parts l a n false → s.piecePoisoned p = false) :
    let mask := leNat ((s.readRange (s.parts l o.loadAddr 36 false)).1.drop 4)
    s.Delivers l o (some (s.laneMask l)) 28 (some (.vec (halvesVec (expandHalves mask 0 256 (bytesHalves 256
      ((List.range (2 * onesBelow mask 256)).map fun i => s.valueByte l o.cap (o.loadAddr.toNat + 36 + i))))))) (semVldx.act s l o) := by
  intro mask
  have hvalues : (s.readRange (s.valueParts l o (s.parts l o.loadAddr 36 false))).2 = false := by
    refine State.readRange_whole fun p hp => ?_
    obtain ⟨q, -, hp⟩ := List.mem_flatMap.mp hp
    exact hpoison _ _ p hp
  have hhead : (s.readRange (s.parts l o.loadAddr 36 false)).2 = false := State.readRange_whole_of_parts hpoison ..
  unfold semVldx
  dsimp only
  rw [if_neg hm, hvalues, hhead]
  have h := (State.OnlyCaches.touchRange s (s.accessor l) (s.parts l o.loadAddr 36 false ++
    (s.valueParts l o (s.parts l o.loadAddr 36 false)).filter fun p =>
      !(s.parts l o.loadAddr 36 false).any fun q => q.place.pa / 64 == p.place.pa / 64)).delivers l o (some (s.laneMask l)) 28 (false || false)
        (.vec (halvesVec (expandHalves mask 0 256 (bytesHalves 256
          ((List.range (2 * onesBelow mask 256)).map fun i => s.valueByte l o.cap (o.loadAddr.toNat + 36 + i))))))
  exact ⟨h.ctx, ⟨h.same.mem, h.same.poison, h.same.lineKey, h.same.lineMeta, h.same.tags, h.same.granules, h.same.keys, h.same.pavs⟩⟩

theorem accessOnly_semVld : semVld.AccessOnly := ⟨rfl, rfl, rfl, rfl, rfl⟩
theorem accessOnly_semGath : semGath.AccessOnly := ⟨rfl, rfl, rfl, rfl, rfl⟩
theorem accessOnly_semVldx : semVldx.AccessOnly := ⟨rfl, rfl, rfl, rfl, rfl⟩

theorem State.endWait_freeCtr (s : State) (l : Loc) : (s.endWait l).freeCtr = s.freeCtr := by
  unfold State.endWait
  dsimp only
  split <;> rfl

theorem State.accessing_valueByte (s : State) (l : Loc) (o : Opd) (k : Cap) (va : Nat) :
    (s.accessing l o).valueByte l k va = (s.waiting l o).valueByte l k va := by
  have hfree : (s.accessing l o).freeCtr = (s.waiting l o).freeCtr := State.endWait_freeCtr ..
  unfold State.valueByte
  rw [State.accessing_parts, hfree]
  split
  · rfl
  · split
    · rw [(SameTables.accessing s l o).readPiece]
    · rfl

theorem vectorLoadsDeliverTheirLanes : Spec.VectorLoadsDeliverTheirLanes := by
  unfold Spec.VectorLoadsDeliverTheirLanes
  intro i s l o hr hx ha hop m hm t lat word head hpoison
  have hbranch := (State.accessing_goesOn (o := o) hr hx).branch
  have hmask : (s.accessing l o).laneMask l = m := State.accessing_laneMask ..
  have hpoison' : ∀ a n p, p ∈ (s.accessing l o).parts l a n false → (s.accessing l o).piecePoisoned p = false := by
    intro a n p hp
    rw [State.accessing_parts] at hp
    have h := hpoison a n p hp
    simpa only [State.piecePoisoned, (SameTables.accessing s l o).keyDead, (SameTables.accessing s l o).poison] using h
  have hdone {y : Vec} (hsem : (opSem o.op).AccessOnly) (hcrw : o.op ≠ .crw)
      (h : (s.accessing l o).Delivers l o (some m) lat (some (.vec y)) ((opSem o.op).act (s.accessing l o) l o)) :
      ∃ u, exec i s = .next t ∧ exec (.accessAcceptance l.core l.ctx) t = .next u ∧ (u.ctx l).mode = .running ∧
        (u.ctx l).pc = (s.ctx l).pc + 24 ∧ u.mem = s.mem ∧
        (u.ctx l).landings.find? s.opId = some ⟨(s.core l.core).cycle + 1 + lat, some (.vec y), none⟩ ∧
        ∃ q ∈ (u.ctx l).cur.pending, q.id = s.opId ∧ q.dest = o.dest ∧ q.lanes = some m := by
    obtain ⟨hacc, hland, hsame⟩ := exec_delivers hr hx ha hsem hcrw h
    have hpending := h.pending hbranch hcrw ((s.core l.core).vcount l.ctx)
    rw [State.accessing_opId] at hpending
    exact ⟨_, hacc.waits, hacc.accepts, hacc.mode, hacc.pc, hsame.mem.trans (SameMemory.waiting s l o).mem, hland, hpending⟩
  simp only [List.mem_cons, List.not_mem_nil, or_false] at hop
  obtain hop | hop | hop := hop
  · have h := semVld_delivers (o := o) (hmask ▸ hm) hpoison'
    rw [hmask, ← opSem_vld, ← hop] at h
    obtain ⟨u, hwaits, haccepts, hmode, hpc, hmem, hland, hpending⟩ := hdone (by rw [hop]; exact accessOnly_semVld) (by rw [hop]; decide)
      (by simpa [lat, hop] using h)
    refine ⟨u, _, hwaits, haccepts, hmode, hpc, hmem, hland, hpending, fun _ j hj => ?_, fun h => ?_, fun h => ?_⟩
    · rw [lane_bytesVec _ hj, State.accessing_parts, State.accessing_readRange]
    · exact absurd (hop.symm.trans h) (by decide)
    · exact absurd (hop.symm.trans h) (by decide)
  · have h := semGath_delivers (o := o) hpoison'
    rw [hmask, ← opSem_gath, ← hop] at h
    obtain ⟨u, hwaits, haccepts, hmode, hpc, hmem, hland, hpending⟩ := hdone (by rw [hop]; exact accessOnly_semGath) (by rw [hop]; decide)
      (by simpa [lat, hop] using h)
    refine ⟨u, _, hwaits, haccepts, hmode, hpc, hmem, hland, hpending, fun h => ?_, fun _ j hj hbit => ?_, fun h => ?_⟩
    · exact absurd (hop.symm.trans h) (by decide)
    · rw [lane_ofLanes _ hj, if_pos (show bit m j = true from hbit), State.accessing_parts, State.accessing_readRange]
    · exact absurd (hop.symm.trans h) (by decide)
  · have h := semVldx_delivers (o := o) (hmask ▸ hm) hpoison'
    rw [hmask, ← opSem_vldx, ← hop] at h
    obtain ⟨u, hwaits, haccepts, hmode, hpc, hmem, hland, hpending⟩ := hdone (by rw [hop]; exact accessOnly_semVldx) (by rw [hop]; decide)
      (by simpa [lat, hop] using h)
    refine ⟨u, _, hwaits, haccepts, hmode, hpc, hmem, hland, hpending, fun h => ?_, fun h => ?_, fun _ h hh => ?_⟩
    · exact absurd (hop.symm.trans h) (by decide)
    · exact absurd (hop.symm.trans h) (by decide)
    · rw [half_expanded _ _ hh, State.accessing_valueByte, State.accessing_valueByte, State.accessing_parts, State.accessing_readRange]
      rfl

end Sys2Proof.Machine

namespace Sys2Proof.Machine

/-! ### The pieces of a range (R193) -/

/-- The parts of a range follow each other from an address on. -/
def contiguous : Nat → List Piece → Prop
  | _, [] => True
  | a, p :: ps => p.va = a ∧ contiguous (a + p.len) ps

/-- Every part of an aligned range of whole words is one. -/
theorem lineParts_words {a va n m : Nat} (k : Nat) (ha : a % 4 = 0) (hn : n % 4 = 0) (h : (va, m) ∈ lineParts k a n) :
    a ≤ va ∧ va % 4 = 0 ∧ m % 4 = 0 := by
  induction k generalizing a n with
  | zero => cases h
  | succ k ih =>
    unfold lineParts at h
    split at h
    · cases h
    · obtain h | h := List.mem_cons.mp h
      · obtain ⟨rfl, rfl⟩ := Prod.mk.inj h
        omega
      · obtain ⟨hle, hva, hm⟩ := ih (by omega) (by omega) h
        exact ⟨by omega, hva, hm⟩

theorem State.translateParts_ok {s : State} {a : Accessor} {w : Bool} {xs : List (Nat × Nat)} {ps : List Piece}
    (h : s.translateParts a w xs = .ok ps) : ps.map (fun p => (p.va, p.len)) = xs := by
  induction xs generalizing ps with
  | nil => cases h; rfl
  | cons x xs ih =>
    obtain ⟨va, n⟩ := x
    unfold State.translateParts at h
    split at h
    · cases h
    · split at h
      · cases h
      · rename_i hrest
        cases h
        rw [List.map_cons, ih hrest]

theorem contiguous_lineParts {a n k : Nat} {ps : List Piece} (h : ps.map (fun p => (p.va, p.len)) = lineParts k a n) :
    contiguous a ps ∧ (ps.map Piece.len).sum ≤ n := by
  induction k generalizing a n ps with
  | zero => 
    obtain rfl : ps = [] := by simpa [lineParts] using h
    exact ⟨trivial, Nat.zero_le _⟩
  | succ k ih =>
    unfold lineParts at h
    split at h
    · obtain rfl : ps = [] := by simpa using h
      exact ⟨trivial, Nat.zero_le _⟩
    · obtain ⟨p, ps', rfl, hp, hrest⟩ := List.map_eq_cons_iff.mp h
      obtain ⟨hva, hlen⟩ := Prod.mk.inj hp
      obtain ⟨hcont, hsum⟩ := ih hrest
      refine ⟨⟨hva, by rw [hlen]; exact hcont⟩, ?_⟩
      rw [List.map_cons, List.sum_cons]
      omega

theorem State.parts_eq (s : State) (l : Loc) (addr : Int) (n : Nat) (w : Bool) : s.parts l addr n w = [] ∨
    (s.parts l addr n w).map (fun p => (p.va, p.len)) = lineParts (n / 64 + 2) addr.toNat n := by
  unfold State.parts
  split
  · rename_i h
    exact .inr (State.translateParts_ok h)
  · exact .inl rfl

theorem State.parts_words {s : State} {l : Loc} {addr : Int} {n : Nat} {w : Bool} {p : Piece} (ha : addr.toNat % 4 = 0) (hn : n % 4 = 0)
    (hp : p ∈ s.parts l addr n w) : addr.toNat ≤ p.va ∧ p.va % 4 = 0 ∧ p.len % 4 = 0 := by
  obtain h | h := s.parts_eq l addr n w
  · rw [h] at hp
    cases hp
  · exact lineParts_words _ ha hn (h ▸ List.mem_map.mpr ⟨p, hp, rfl⟩)

theorem State.parts_contiguous (s : State) (l : Loc) (addr : Int) (n : Nat) (w : Bool) :
    contiguous addr.toNat (s.parts l addr n w) ∧ ((s.parts l addr n w).map Piece.len).sum ≤ n := by
  obtain h | h := s.parts_eq l addr n w
  · rw [h]
    exact ⟨trivial, Nat.zero_le _⟩
  · exact contiguous_lineParts h

/-! ### Writes of pieces in order -/

/-- Writes of pieces in order, each with its bytes. -/
def State.writeAll (s : State) (a : Accessor) (ws : List (Piece × List Byte)) : State := ws.foldl (fun s w => s.writePiece a w.1 w.2) s

theorem State.writeAll_append (s : State) (a : Accessor) (ws vs : List (Piece × List Byte)) :
    s.writeAll a (ws ++ vs) = (s.writeAll a ws).writeAll a vs := List.foldl_append

/-- A write of bytes inside a line of a live page off poison. -/
structure State.Fits (s : State) (w : Piece × List Byte) : Prop where
  writable : s.Writable w.1
  line : w.1.place.pa % 64 + w.2.length ≤ 64

theorem State.Writable.writePiece {s : State} {p q : Piece} (hp : s.Writable p) (hq : s.Writable q) (a : Accessor) (bs : List Byte) :
    (s.writePiece a p bs).Writable q where
  live := ((State.OnlyMemory.writePiece s a p bs).keyDead _).trans hq.live
  clean := (State.writePiece_poison a hp.live hp.clean _).trans hq.clean

theorem State.Fits.of_same {s t : State} {w : Piece × List Byte} (h : s.Fits w) (hs : SameBytes t s) : t.Fits w :=
  ⟨h.writable.of_same hs, h.line⟩

theorem State.Fits.writePiece {s : State} {p : Piece} (hp : s.Writable p) {w : Piece × List Byte} (hw : s.Fits w) (a : Accessor) (bs : List Byte) :
    (s.writePiece a p bs).Fits w := ⟨hp.writePiece hw.writable a bs, hw.line⟩

section
variable {s : State} (a : Accessor) {ws : List (Piece × List Byte)}

theorem State.writeAll_writable (h : ∀ w ∈ ws, s.Writable w.1) {q : Piece} (hq : s.Writable q) : (s.writeAll a ws).Writable q := by
  induction ws generalizing s with
  | nil => exact hq
  | cons w ws ih =>
    have hw := h w List.mem_cons_self
    exact ih (fun v hv => hw.writePiece (h v (List.mem_cons_of_mem w hv)) a w.2) (hw.writePiece hq a w.2)

theorem State.writeAll_fits (h : ∀ w ∈ ws, s.Writable w.1) {v : Piece × List Byte} (hv : s.Fits v) : (s.writeAll a ws).Fits v :=
  ⟨State.writeAll_writable a h hv.writable, hv.line⟩

theorem State.writeAll_onlyMemory (s : State) (ws : List (Piece × List Byte)) : s.OnlyMemory (s.writeAll a ws) :=
  State.OnlyMemory.foldl _ (fun _ _ => .writePiece ..) ws s

/-- Writes leave the bytes of other lines. -/
theorem State.writeAll_byteUnder_other (h : ∀ w ∈ ws, s.Fits w) {b : Nat} (hb : ∀ w ∈ ws, b / 64 ≠ w.1.place.pa / 64) (k : Nat) :
    (s.writeAll a ws).byteUnder k b = s.byteUnder k b := by
  induction ws generalizing s with
  | nil => rfl
  | cons w ws ih =>
    have hw := h w List.mem_cons_self
    refine (ih (fun v hv => (h v (List.mem_cons_of_mem w hv)).writePiece hw.writable a w.2) fun v hv => hb v (List.mem_cons_of_mem w hv)).trans ?_
    exact State.writePiece_byteUnder_other a hw.writable.live hw.writable.clean hw.line (hb w List.mem_cons_self) k

end

/-! ### The lanes of a part of a range (R199) -/

/-- A byte of a vector by its number in the range of 512 bytes. -/
def vecByte (x : Vec) (n : Nat) : Byte := (lane x (n / 4)).extractLsb' (8 * (n % 4)) 8

theorem getD_leBytes_lane (x : Lane) {j : Nat} (hj : j < 4) : (leBytes 4 x.toNat).getD j 0 = x.extractLsb' (8 * j) 8 := by
  rw [getD_leBytes _ hj]
  apply BitVec.eq_of_toNat_eq
  rw [BitVec.toNat_ofNat, BitVec.extractLsb'_toNat, Nat.shiftRight_eq_div_pow, Nat.pow_mul]

theorem getD_flatMap_lanes (x : Vec) (first n : Nat) {k : Nat} (hk : k < 4 * n) :
    (((List.range n).map fun j => first + j).flatMap fun i => leBytes 4 (lane x i).toNat).getD k 0 =
      (lane x (first + k / 4)).extractLsb' (8 * (k % 4)) 8 := by
  induction n generalizing k with
  | zero => omega
  | succ n ih =>
    have hlen : (((List.range n).map fun j => first + j).flatMap fun i => leBytes 4 (lane x i).toNat).length = 4 * n := by
      simp [List.length_flatMap, Function.comp_def, Nat.mul_comm]
    rw [List.range_succ, List.map_append, List.flatMap_append]
    by_cases hlow : k < 4 * n
    · rw [List.getD_append _ _ _ _ (by rw [hlen]; exact hlow), ih hlow]
    · rw [List.getD_append_right _ _ _ _ (by rw [hlen]; omega), hlen]
      simp only [List.map_cons, List.map_nil, List.flatMap_cons, List.flatMap_nil, List.append_nil]
      rw [getD_leBytes_lane _ (by omega), show k / 4 = n by omega, show k - 4 * n = k % 4 by omega]

/-- Lanes of a part written one by one: those that are written stand there, the others are as before. -/
theorem State.writeAll_lanes {s : State} (a : Accessor) {p : Piece} (hp : s.Writable p) (hline : p.place.pa % 64 + p.len ≤ 64) (hlen : p.len % 4 = 0)
    (x : Vec) (first : Nat) (js : List Nat) (hjs : ∀ j ∈ js, j < p.len / 4) {k : Nat} (hk : k < p.len) :
    (s.writeAll a (js.map fun j => (p.sub (4 * j) 4, leBytes 4 (lane x (first + j)).toNat))).byteUnder (s.serialOf p.place.kidx) (p.place.pa + k) =
      if k / 4 ∈ js then (lane x (first + k / 4)).extractLsb' (8 * (k % 4)) 8 else s.byteUnder (s.serialOf p.place.kidx) (p.place.pa + k) := by
  induction js generalizing s with
  | nil => rfl
  | cons j js ih =>
    have hj := hjs j List.mem_cons_self
    have hsub : s.Writable (p.sub (4 * j) 4) := by
      refine ⟨hp.live, ?_⟩
      have hsame : (p.place.pa + 4 * j) / 64 = p.place.pa / 64 := by omega
      exact (congrArg (fun n => s.poison.getD n false) hsame).trans hp.clean
    have hin : (p.sub (4 * j) 4).place.pa = p.place.pa + 4 * j := rfl
    have hw := State.writePiece_byteUnder a hsub.live hsub.clean (bs := leBytes 4 (lane x (first + j)).toNat)
      (by rw [length_leBytes, hin]; omega) (p.place.pa + k)
    have hrest := ih (s := s.writePiece a (p.sub (4 * j) 4) (leBytes 4 (lane x (first + j)).toNat)) (hsub.writePiece hp a _)
      (fun i hi => hjs i (List.mem_cons_of_mem j hi))
    rw [(State.OnlyMemory.writePiece ..).serialOf] at hrest
    refine hrest.trans ?_
    by_cases hmem : k / 4 ∈ js
    · rw [if_pos hmem, if_pos (List.mem_cons_of_mem j hmem)]
    · rw [if_neg hmem]
      refine hw.trans ?_
      rw [length_leBytes, hin]
      by_cases hkj : k / 4 = j
      · rw [if_pos (by omega), if_pos (hkj ▸ List.mem_cons_self), show p.place.pa + k - (p.place.pa + 4 * j) = k % 4 by omega,
          getD_leBytes_lane _ (by omega), hkj]
      · rw [if_neg (by omega), if_neg (by simp [hkj, hmem])]
        rfl

/-- The enabled lanes of a part of a range of 512 bytes stand in memory once they are written, and the others as before (R199). -/
theorem State.writeAll_laneWrites {s : State} (a : Accessor) {p : Piece} (hp : s.Writable p) (hline : p.place.pa % 64 + p.len ≤ 64)
    (hlen : p.len % 4 = 0) {addr : Nat} (haddr : addr ≤ p.va) (hva : (p.va - addr) % 4 = 0) (m : Mask) (x : Vec) {k : Nat} (hk : k < p.len) :
    (s.writeAll a (laneWrites m addr x p)).byteUnder (s.serialOf p.place.kidx) (p.place.pa + k) =
      if m.getLsbD ((p.va + k - addr) / 4) then (lane x ((p.va + k - addr) / 4)).extractLsb' (8 * ((p.va + k - addr) % 4)) 8
      else s.byteUnder (s.serialOf p.place.kidx) (p.place.pa + k) := by
  have hq : (p.va + k - addr) / 4 = (p.va - addr) / 4 + k / 4 := by omega
  have hr : (p.va + k - addr) % 4 = k % 4 := by omega
  rw [hq, hr]
  unfold laneWrites
  dsimp only
  split
  · rename_i hall
    have hbit : m.getLsbD ((p.va - addr) / 4 + k / 4) = true := by
      refine List.all_eq_true.mp hall _ (List.mem_map.mpr ⟨k / 4, List.mem_range.mpr (by omega), rfl⟩)
    have hbytes : (((List.range (p.len / 4)).map fun j => (p.va - addr) / 4 + j).flatMap fun i => leBytes 4 (lane x i).toNat).length = p.len := by
      simp [List.length_flatMap, Function.comp_def]
      omega
    rw [if_pos hbit]
    refine (State.writePiece_byteUnder a hp.live hp.clean (by rw [hbytes]; exact hline) _).trans ?_
    rw [if_pos (by rw [hbytes]; omega), Nat.add_sub_cancel_left]
    exact getD_flatMap_lanes x _ _ (by omega)
  · have heq : (((List.range (p.len / 4)).map fun j => (p.va - addr) / 4 + j).filter fun i => bit m i).map (fun i =>
        (p.sub (addr + 4 * i - p.va) 4, leBytes 4 (lane x i).toNat)) =
        ((List.range (p.len / 4)).filter fun j => bit m ((p.va - addr) / 4 + j)).map fun j =>
          (p.sub (4 * j) 4, leBytes 4 (lane x ((p.va - addr) / 4 + j)).toNat) := by
      rw [List.filter_map, List.map_map]
      refine List.map_congr_left fun j _ => ?_
      rw [Function.comp_apply, show addr + 4 * ((p.va - addr) / 4 + j) - p.va = 4 * j by omega]
    rw [heq, State.writeAll_lanes a hp hline hlen x _ _ (fun j hj => List.mem_range.mp (List.mem_of_mem_filter hj)) hk]
    have hmem : (k / 4 ∈ (List.range (p.len / 4)).filter fun j => bit m ((p.va - addr) / 4 + j)) ↔
        m.getLsbD ((p.va - addr) / 4 + k / 4) = true := by
      rw [List.mem_filter, List.mem_range]
      exact ⟨fun h => h.2, fun h => ⟨by omega, h⟩⟩
    simp only [hmem]

/-- The writes of a part are of its line, and fit there. -/
theorem State.fits_laneWrites {s : State} {p : Piece} (hp : s.Writable p) (hline : p.place.pa % 64 + p.len ≤ 64) (hlen : p.len % 4 = 0)
    {addr : Nat} (haddr : addr ≤ p.va) (hva : (p.va - addr) % 4 = 0) (m : Mask) (x : Vec) {w : Piece × List Byte} (hw : w ∈ laneWrites m addr x p) :
    s.Fits w ∧ w.1.place.pa / 64 = p.place.pa / 64 := by
  unfold laneWrites at hw
  dsimp only at hw
  split at hw
  · obtain rfl := List.mem_singleton.mp hw
    refine ⟨⟨hp, ?_⟩, rfl⟩
    have hbytes : (((List.range (p.len / 4)).map fun j => (p.va - addr) / 4 + j).flatMap fun i => leBytes 4 (lane x i).toNat).length = p.len := by
      simp [List.length_flatMap, Function.comp_def]
      omega
    rw [hbytes]
    exact hline
  · obtain ⟨i, hi, rfl⟩ := List.mem_map.mp hw
    obtain ⟨j, hj, rfl⟩ := List.mem_map.mp (List.mem_of_mem_filter hi)
    have hjlt := List.mem_range.mp hj
    have hpa : (p.sub (addr + 4 * ((p.va - addr) / 4 + j) - p.va) 4).place.pa = p.place.pa + 4 * j := by
      rw [show addr + 4 * ((p.va - addr) / 4 + j) - p.va = 4 * j by omega]
      rfl
    have hsame : (p.place.pa + 4 * j) / 64 = p.place.pa / 64 := by omega
    refine ⟨⟨⟨hp.live, ?_⟩, ?_⟩, ?_⟩
    · rw [hpa, hsame]
      exact hp.clean
    · rw [hpa, length_leBytes]
      omega
    · rw [hpa, hsame]

/-! ### Stores of several pieces -/

theorem State.OnlyMemory.accessor {s t : State} (h : s.OnlyMemory t) (l : Loc) : t.accessor l = s.accessor l := by
  unfold State.accessor
  rw [h.ctx]

/-- The accessor of a context stays while it writes. -/
theorem State.foldl_writePiece_eq (s : State) (l : Loc) (ws : List (Piece × List Byte)) :
    ws.foldl (fun s w => s.writePiece (s.accessor l) w.1 w.2) s = s.writeAll (s.accessor l) ws := by
  induction ws generalizing s with
  | nil => rfl
  | cons w ws ih =>
    rw [List.foldl_cons, ih, (State.OnlyMemory.writePiece ..).accessor]
    rfl

theorem State.storePieces_eq {s : State} {ws : List (Piece × List Byte)} (h : ∀ w ∈ ws, s.Writable w.1) (l : Loc) :
    ∃ t, s.OnlyMemory t ∧ SameBytes t s ∧ s.storePieces l ws = t.writeAll (s.accessor l) ws := by
  have hrefused : s.writeRefused (ws.map Prod.fst) = false := State.writeRefused_of_writable fun p hp => by
    obtain ⟨w, hw, rfl⟩ := List.mem_map.mp hp
    exact h w hw
  refine ⟨(s.holdRange (s.accessor l) (ws.map Prod.fst)).recordWrite (s.accessor l) l.phys (s.ctx l).cur.region false (ws.map Prod.fst),
    (State.OnlyMemory.holdRange ..).trans (.recordWrite ..), ⟨rfl, rfl, rfl, rfl⟩, ?_⟩
  unfold State.storePieces
  dsimp only
  rw [hrefused, if_neg (by decide), State.foldl_writePiece_eq]
  rfl

theorem Ctx.GoesOn.memErrDue {x : Ctx} {pc : Word} (h : x.GoesOn pc) (b : Bool) : ({ x with memErrDue := b } : Ctx).GoesOn pc :=
  ⟨h.mode, h.wait, h.pc, h.branch, h.fence⟩

theorem State.storePieces_goesOn {s : State} {l : Loc} {pc : Word} (h : (s.ctx l).GoesOn pc) (ws : List (Piece × List Byte)) :
    ((s.storePieces l ws).ctx l).GoesOn pc := by
  unfold State.storePieces
  dsimp only
  split
  · rw [State.memoryError, State.ctx_setCtx]
    exact h.memErrDue true
  · rw [(State.OnlyMemory.foldl _ (fun _ _ => .writePiece ..) ws _).ctx]
    exact h

/-- The lanes that VST stores stand where the parts of its range do (R199). -/
theorem State.storePieces_lanes {s : State} {l : Loc} {ps : List Piece} {addr : Nat} (m : Mask) (x : Vec)
    (hps : ∀ p ∈ ps, s.Writable p ∧ p.place.pa % 64 + p.len ≤ 64 ∧ p.len % 4 = 0 ∧ addr ≤ p.va ∧ (p.va - addr) % 4 = 0)
    (hlines : (ps.map fun p => p.place.pa / 64).Nodup) {p : Piece} (hp : p ∈ ps) {k : Nat} (hk : k < p.len) :
    (s.storePieces l (ps.flatMap (laneWrites m addr x))).byteUnder (s.serialOf p.place.kidx) (p.place.pa + k) =
      if m.getLsbD ((p.va + k - addr) / 4) then (lane x ((p.va + k - addr) / 4)).extractLsb' (8 * ((p.va + k - addr) % 4)) 8
      else s.byteUnder (s.serialOf p.place.kidx) (p.place.pa + k) := by
  have hfits : ∀ q ∈ ps, ∀ w ∈ laneWrites m addr x q, s.Fits w ∧ w.1.place.pa / 64 = q.place.pa / 64 := fun q hq w hw => by
    obtain ⟨hwr, hline, hlen, haddr, hva⟩ := hps q hq
    exact State.fits_laneWrites hwr hline hlen haddr hva m x hw
  obtain ⟨t, htonly, htsame, heq⟩ := State.storePieces_eq (s := s) (ws := ps.flatMap (laneWrites m addr x)) (fun w hw => by
    obtain ⟨q, hq, hw⟩ := List.mem_flatMap.mp hw
    exact (hfits q hq w hw).1.writable) l
  obtain ⟨pre, post, rfl⟩ := List.append_of_mem hp
  have hother : ∀ q ∈ pre ++ post, q.place.pa / 64 ≠ p.place.pa / 64 := fun q hq he => by
    rw [List.map_append, List.map_cons, List.nodup_append] at hlines
    obtain ⟨-, hcons, hdisj⟩ := hlines
    obtain hq | hq := List.mem_append.mp hq
    · exact hdisj _ (List.mem_map.mpr ⟨q, hq, rfl⟩) _ List.mem_cons_self he
    · exact (List.nodup_cons.mp hcons).1 (List.mem_map.mpr ⟨q, hq, he⟩)
  have hline : (p.place.pa + k) / 64 = p.place.pa / 64 := by
    obtain ⟨-, h, -⟩ := hps p hp
    omega
  obtain ⟨hwr, hpline, hlen, haddr, hva⟩ := hps p hp
  have hserial := htonly.serialOf p.place.kidx
  have hin : ∀ q ∈ pre ++ post, q ∈ pre ++ p :: post := fun q hq => by simp at hq ⊢; tauto
  have hpart (qs : List Piece) (hqs : ∀ q ∈ qs, q ∈ pre ++ post) (w : Piece × List Byte) (hw : w ∈ qs.flatMap (laneWrites m addr x)) :
      t.Fits w ∧ (p.place.pa + k) / 64 ≠ w.1.place.pa / 64 := by
    obtain ⟨q, hq, hw⟩ := List.mem_flatMap.mp hw
    obtain ⟨hf, hl⟩ := hfits q (hin q (hqs q hq)) w hw
    exact ⟨hf.of_same htsame, by rw [hline, hl]; exact (hother q (hqs q hq)).symm⟩
  have hpre := hpart pre fun q hq => List.mem_append_left _ hq
  have hpost := hpart post fun q hq => List.mem_append_right _ hq
  have hown : ∀ w ∈ laneWrites m addr x p, t.Fits w := fun w hw => ((hfits p hp w hw).1).of_same htsame
  have hprew : ∀ w ∈ pre.flatMap (laneWrites m addr x), t.Writable w.1 := fun w hw => (hpre w hw).1.writable
  have hpostfits : ∀ w ∈ post.flatMap (laneWrites m addr x),
      ((t.writeAll (s.accessor l) (pre.flatMap (laneWrites m addr x))).writeAll (s.accessor l) (laneWrites m addr x p)).Fits w := fun w hw =>
    State.writeAll_fits _ (fun v hv => (State.writeAll_fits _ hprew (hown v hv)).writable) (State.writeAll_fits _ hprew (hpost w hw).1)
  rw [heq, List.flatMap_append, List.flatMap_cons, State.writeAll_append, State.writeAll_append,
    State.writeAll_byteUnder_other _ hpostfits (fun w hw => (hpost w hw).2)]
  have hlane := State.writeAll_laneWrites (s.accessor l) (State.writeAll_writable (s.accessor l) hprew (hwr.of_same htsame)) hpline hlen haddr hva m x hk
  rw [(State.writeAll_onlyMemory ..).serialOf, hserial,
    State.writeAll_byteUnder_other _ (fun w hw => (hpre w hw).1) (fun w hw => (hpre w hw).2), htsame.byteUnder] at hlane
  exact hlane

/-! ### Bytes over contiguous parts (R200, R201) -/

theorem contiguous_le {a : Nat} {ps : List Piece} (h : contiguous a ps) {p : Piece} (hp : p ∈ ps) : a ≤ p.va := by
  induction ps generalizing a with
  | nil => cases hp
  | cons q ps ih =>
    obtain ⟨hva, hcont⟩ := h
    obtain rfl | hp := List.mem_cons.mp hp
    · omega
    · have := ih hcont hp
      omega

/-- Parts that are written leave the bytes of other lines. -/
theorem State.writePieces_byteUnder_other {s : State} (a : Accessor) {ps : List Piece} (bs : List Byte)
    (hps : ∀ p ∈ ps, s.Writable p ∧ p.place.pa % 64 + p.len ≤ 64) {b : Nat} (hb : ∀ p ∈ ps, b / 64 ≠ p.place.pa / 64) (k : Nat) :
    (s.writePieces a ps bs).byteUnder k b = s.byteUnder k b := by
  induction ps generalizing s bs with
  | nil => rfl
  | cons q ps ih =>
    obtain ⟨hq, hqline⟩ := hps q List.mem_cons_self
    refine (ih _ (fun r hr => ⟨hq.writePiece (hps r (List.mem_cons_of_mem q hr)).1 a _, (hps r (List.mem_cons_of_mem q hr)).2⟩)
      fun r hr => hb r (List.mem_cons_of_mem q hr)).trans ?_
    refine State.writePiece_byteUnder_other a hq.live hq.clean ?_ (hb q List.mem_cons_self) k
    rw [List.length_take]
    omega

/-- The bytes of parts that follow each other, in lines that differ, stand at their places (R201). -/
theorem State.writePieces_bytes {s : State} (a : Accessor) {start : Nat} {ps : List Piece} {bs : List Byte} (hcont : contiguous start ps)
    (hlen : (ps.map Piece.len).sum ≤ bs.length) (hps : ∀ p ∈ ps, s.Writable p ∧ p.place.pa % 64 + p.len ≤ 64)
    (hlines : (ps.map fun p => p.place.pa / 64).Nodup) {p : Piece} (hp : p ∈ ps) {k : Nat} (hk : k < p.len) :
    (s.writePieces a ps bs).byteUnder (s.serialOf p.place.kidx) (p.place.pa + k) = bs.getD (p.va + k - start) 0 := by
  induction ps generalizing s start bs with
  | nil => cases hp
  | cons q ps ih =>
    obtain ⟨hva, hcont⟩ := hcont
    obtain ⟨hq, hqline⟩ := hps q List.mem_cons_self
    rw [List.map_cons, List.sum_cons] at hlen
    rw [List.map_cons, List.nodup_cons] at hlines
    obtain ⟨hnot, hlines⟩ := hlines
    have hrest : ∀ r ∈ ps, (s.writePiece a q (bs.take q.len)).Writable r ∧ r.place.pa % 64 + r.len ≤ 64 := fun r hr =>
      ⟨hq.writePiece (hps r (List.mem_cons_of_mem q hr)).1 a _, (hps r (List.mem_cons_of_mem q hr)).2⟩
    have hdrop : (ps.map Piece.len).sum ≤ (bs.drop q.len).length := by
      rw [List.length_drop]
      omega
    have htake : (bs.take q.len).length = q.len := by
      rw [List.length_take]
      omega
    rw [State.writePieces]
    obtain rfl | hp := List.mem_cons.mp hp
    · have hlater : ∀ r ∈ ps, (p.place.pa + k) / 64 ≠ r.place.pa / 64 := fun r hr he =>
        hnot (List.mem_map.mpr ⟨r, hr, by omega⟩)
      rw [State.writePieces_byteUnder_other a _ (fun r hr => hrest r hr) hlater]
      refine (State.writePiece_byteUnder a hq.live hq.clean (by rw [htake]; exact hqline) _).trans ?_
      rw [if_pos (by rw [htake]; omega), Nat.add_sub_cancel_left, hva, Nat.add_sub_cancel_left, List.getD_eq_getElem?_getD,
        List.getD_eq_getElem?_getD, List.getElem?_take_of_lt hk]
    · have h := ih hcont hdrop hrest hlines hp
      rw [(State.OnlyMemory.writePiece ..).serialOf] at h
      have hle : start + q.len ≤ p.va := contiguous_le hcont hp
      rw [h, List.getD_eq_getElem?_getD, List.getD_eq_getElem?_getD, List.getElem?_drop, show q.len + (p.va + k - (start + q.len)) = p.va + k - start by omega]

/-! ### The vector stores (R199 to R201) -/

theorem View.port_setPort_self (w : View) (u : UnitId) (p : Port) : (w.setPort u p).port u = p := by
  have h : (w.setPort u p).inHandler = w.inHandler := by simp [View.setPort, View.inHandler]
  rw [View.port, h, View.setPort, View.portOf_setPortOf, if_pos ⟨rfl, rfl⟩]

/-- The latches K and o2 advance by their steps when a trigger has consumed them (R27). -/
theorem View.increment_latch_two (w : View) {sm : OpSem} (hlatches : sm.latches = memLatches) (hneeds : sm.needs = fun _ => true)
    (vc : Nat) (u : UnitId) (x : Value) : ((w.increment sm vc u x).port u).latch 2 = ((w.port u).latch 2).advance vc := by
  unfold View.increment
  dsimp only
  rw [View.port_setPort_self, hlatches, hneeds]
  split <;> rfl

theorem accessOnly_semVst : semVst.AccessOnly := ⟨rfl, rfl, rfl, rfl, rfl⟩
theorem accessOnly_semScat : semScat.AccessOnly := ⟨rfl, rfl, rfl, rfl, rfl⟩
theorem accessOnly_semVstc : semVstc.AccessOnly := ⟨rfl, rfl, rfl, rfl, rfl⟩

/-- What VSTC does to its address latch (R201). -/
def View.advanceAddress (u : UnitId) (n : Nat) (w : View) : View :=
  match ((w.port u).latch 2).content with
  | .value (.word x) => w.setLatch u 2 (.value (.word (x + BitVec.ofNat 64 n)))
  | _ => w

theorem semVstc_none {s : State} {l : Loc} {o : Opd} (hm : s.laneMask l = 0) : semVstc.act s l o = s := by
  unfold semVstc
  dsimp only
  rw [if_pos hm]

theorem semVst_act (s : State) (l : Loc) (o : Opd) : semVst.act s l o = if s.laneMask l = 0 then s else
    s.storePieces l ((s.parts l o.storeAddr 512 true).flatMap (laneWrites (s.laneMask l) o.storeAddr.toNat o.xv)) := by
  unfold semVst
  rfl

theorem semScat_act (s : State) (l : Loc) (o : Opd) : semScat.act s l o = s.storePieces l ((enabledLanes (s.laneMask l)).flatMap fun i =>
    (s.parts l (laneAddr o o.offsets i) 4 true).map fun p => (p, leBytes 4 (lane o.xv i).toNat)) := by
  unfold semScat
  rfl

theorem semVstc_act {s : State} {l : Loc} {o : Opd} (hm : s.laneMask l ≠ 0) : semVstc.act s l o =
    (s.storeBytes l false (s.parts l o.storeAddr (vstcRecord s l o).length true) (vstcRecord s l o)).onView l false
      (View.advanceAddress o.unit (vstcRecord s l o).length) := by
  unfold semVstc
  dsimp only
  rw [if_neg hm]
  rfl

theorem View.advanceAddress_latch {w : View} {u : UnitId} {n : Nat} {x : Word} (h : (w.port u).latch 2 = ⟨.value (.word x), 0⟩) :
    ((w.advanceAddress u n).port u).latch 2 = ⟨.value (.word (x + BitVec.ofNat 64 n)), 0⟩ := by
  unfold View.advanceAddress
  rw [h]
  dsimp only
  rw [View.setLatch, View.port_setPort_self, h]
  rfl

theorem SameMemory.storePieces_nil (s : State) (l : Loc) : (s.storePieces l []).mem = s.mem := rfl

theorem checkAccess_aligned {s : State} {l : Loc} {k : Cap} {addr : Int} {size align : Nat} {need : Byte} {write : Bool} {ps : List Piece}
    (h : s.checkAccess l k addr size align need write = .ok ps) : addr % (align : Int) = 0 := by
  unfold State.checkAccess at h
  split at h
  · cases h
  · split at h
    · cases h
    · rename_i hal
      exact not_not.mp hal

/-- An accessible VST with an enabled lane stands at a multiple of 4 (R199). -/
theorem vst_aligned {s : State} {l : Loc} {o : Opd} (ha : s.accessible l o) (hop : o.op = .vst) (hm : Spec.mask (s.ctx l) ≠ 0) :
    o.storeAddr.toNat % 4 = 0 := by
  obtain ⟨check, hacc, hcheck, -⟩ := ha
  rw [hop] at hacc
  obtain rfl := Option.some.inj hacc
  unfold State.vectorTrap at hcheck
  dsimp only at hcheck
  rw [State.waiting_laneMask, if_neg hm] at hcheck
  split at hcheck
  · cases hcheck
  · rename_i hok
    have h := checkAccess_aligned hok
    omega

/-- The last enabled lane stands at the end of the enabled lanes. -/
theorem enabledLanes_last {m : Mask} {j : Nat} (hj : j < 128) (hbit : m.getLsbD j = true)
    (hlast : ∀ q, q < 128 → j < q → m.getLsbD q = false) : ∃ js, enabledLanes m = js ++ [j] := by
  have hsplit : List.range 128 = List.range j ++ j :: List.range' (j + 1) (127 - j) := by
    have h : List.range' 0 j ++ List.range' (0 + j) (127 - j + 1) = List.range' 0 (j + (127 - j + 1)) := List.range'_append_1
    rw [Nat.zero_add, show j + (127 - j + 1) = 128 by omega] at h
    rw [List.range_eq_range', List.range_eq_range', ← List.range'_succ, h]
  have hnone : (List.range' (j + 1) (127 - j)).filter (fun i => bit m i) = [] := by
    rw [List.filter_eq_nil_iff]
    intro q hq
    have h := List.mem_range'_1.mp hq
    rw [bit, hlast q (by omega) (by omega)]
    decide
  refine ⟨(List.range j).filter fun i => bit m i, ?_⟩
  rw [enabledLanes, hsplit, List.filter_append, List.filter_cons_of_pos (by exact hbit), hnone]

/-- Parts in lines that differ, of live pages off poison. -/
structure State.Apart (s : State) (ps : List Piece) : Prop where
  lines : (ps.map fun p => p.place.pa / 64).Nodup
  writable : ∀ p ∈ ps, s.Writable p ∧ p.place.pa % 64 + p.len ≤ 64

theorem State.Apart.accessing {s : State} {l : Loc} {o : Opd} {ps : List Piece} (h : (s.waiting l o).Apart ps) : (s.accessing l o).Apart ps :=
  ⟨h.lines, fun p hp => ⟨(h.writable p hp).1.accessing, (h.writable p hp).2⟩⟩

theorem State.accessing_mem (s : State) (l : Loc) (o : Opd) : (s.accessing l o).mem = s.mem :=
  (SameTables.accessing s l o).mem.trans (SameMemory.waiting s l o).mem

section
variable {i : Instr} {s : State} {l : Loc} {o : Opd} (hr : s.ready l i o) (hx : (s.ctx l).straight) (ha : s.accessible l o)
include hr hx ha

/-- A row whose access is accepted leaves the bytes that its operation has left. -/
theorem exec_stores (hsem : (opSem o.op).AccessOnly) (hcrw : o.op ≠ .crw)
    (hact : (((opSem o.op).act (s.accessing l o) l o).ctx l).GoesOn (s.ctx l).pc) :
    AcceptsTo i s l o (s.accessed l o) ∧ SameBytes (s.accessed l o) ((opSem o.op).act (s.accessing l o) l o) :=
  ⟨acceptsTo_accessed hr hx ha (hsem.passes ..) hsem.after hcrw hact, (SameMemory.closeBundle _ l hcrw _ _).sameBytes⟩

theorem exec_vst (hop : o.op = .vst) : AcceptsTo i s l o (s.accessed l o) ∧
    (Spec.mask (s.ctx l) = 0 → (s.accessed l o).mem = s.mem) ∧
    (Spec.mask (s.ctx l) ≠ 0 → (s.waiting l o).Apart ((s.waiting l o).parts l o.storeAddr 512 true) →
      ∀ p ∈ (s.waiting l o).parts l o.storeAddr 512 true, ∀ k, k < p.len →
      (s.accessed l o).byteUnder ((s.waiting l o).serialOf p.place.kidx) (p.place.pa + k) =
        if (Spec.mask (s.ctx l)).getLsbD ((p.va + k - o.storeAddr.toNat) / 4) then
          (lane o.xv ((p.va + k - o.storeAddr.toNat) / 4)).extractLsb' (8 * ((p.va + k - o.storeAddr.toNat) % 4)) 8
        else s.byteUnder ((s.waiting l o).serialOf p.place.kidx) (p.place.pa + k)) := by
  have hgo := State.accessing_goesOn (o := o) hr hx
  have hact : (opSem o.op).act (s.accessing l o) l o = if Spec.mask (s.ctx l) = 0 then s.accessing l o else
      (s.accessing l o).storePieces l
        (((s.waiting l o).parts l o.storeAddr 512 true).flatMap (laneWrites (Spec.mask (s.ctx l)) o.storeAddr.toNat o.xv)) := by
    rw [hop, opSem_vst, semVst_act, State.accessing_parts, State.accessing_laneMask]
  obtain ⟨hacc, hbytes⟩ := exec_stores hr hx ha (by rw [hop]; exact accessOnly_semVst) (by rw [hop]; decide) (by
    rw [hact]
    split
    · exact hgo
    · exact State.storePieces_goesOn hgo _)
  refine ⟨hacc, fun hm => ?_, fun hm hw p hp k hk => ?_⟩
  · rw [hbytes.mem, hact, if_pos hm, State.accessing_mem]
  · have hal := vst_aligned ha hop hm
    have hps : ∀ q ∈ (s.waiting l o).parts l o.storeAddr 512 true, (s.accessing l o).Writable q ∧ q.place.pa % 64 + q.len ≤ 64 ∧
        q.len % 4 = 0 ∧ o.storeAddr.toNat ≤ q.va ∧ (q.va - o.storeAddr.toNat) % 4 = 0 := fun q hq => by
      obtain ⟨hle, hva, hlen⟩ := State.parts_words hal (by decide) hq
      obtain ⟨hwr, hline⟩ := hw.accessing.writable q hq
      exact ⟨hwr, hline, hlen, hle, by omega⟩
    have h := State.storePieces_lanes (l := l) (Spec.mask (s.ctx l)) o.xv hps hw.lines hp hk
    rw [(SameTables.accessing s l o).serialOf, State.accessing_byteUnder] at h
    rw [hbytes.byteUnder, hact, if_neg hm]
    exact h

/-- The record that VSTC writes for its enabled lanes (R201). -/
theorem exec_vstc {record : List Byte} (hop : o.op = .vstc) (hrecord : vstcRecord (s.accessing l o) l o = record) :
    AcceptsTo i s l o (s.accessed l o) ∧ (Spec.mask (s.ctx l) = 0 → (s.accessed l o).mem = s.mem) ∧
    (Spec.mask (s.ctx l) ≠ 0 → (s.waiting l o).Apart ((s.waiting l o).parts l o.storeAddr record.length true) →
      (∀ p ∈ (s.waiting l o).parts l o.storeAddr record.length true, ∀ k, k < p.len →
        (s.accessed l o).byteUnder ((s.waiting l o).serialOf p.place.kidx) (p.place.pa + k) = record.getD (p.va + k - o.storeAddr.toNat) 0) ∧
      ∀ x, (((s.ctx l).cur.port o.unit).latch 2) = ⟨.value (.word x), 0⟩ →
        ((((s.accessed l o).ctx l).cur.port o.unit).latch 2).content = .value (.word (x + BitVec.ofNat 64 record.length))) := by
  have hgo := State.accessing_goesOn (o := o) hr hx
  generalize hps : (s.waiting l o).parts l o.storeAddr record.length true = ps
  have hnone (hm : Spec.mask (s.ctx l) = 0) : (opSem o.op).act (s.accessing l o) l o = s.accessing l o := by
    rw [hop, opSem_vstc, semVstc_none ((State.accessing_laneMask s l o).trans hm)]
  have hact (hm : Spec.mask (s.ctx l) ≠ 0) : (opSem o.op).act (s.accessing l o) l o =
      ((s.accessing l o).storeBytes l false ps record).onView l false (View.advanceAddress o.unit record.length) := by
    rw [hop, opSem_vstc, semVstc_act (by rw [State.accessing_laneMask]; exact hm), hrecord, State.accessing_parts, hps]
  obtain ⟨b, hctx⟩ := State.storeBytes_ctx (s.accessing l o) l false ps record
  have hview : (((s.accessing l o).storeBytes l false ps record).onView l false (View.advanceAddress o.unit record.length)).ctx l =
      ({ (s.ctx l).accessing with memErrDue := b } : Ctx).onView false (View.advanceAddress o.unit record.length) := by
    rw [State.onView_ctx, hctx, State.accessing_ctx]
  have hstored : (({ (s.ctx l).accessing with memErrDue := b } : Ctx).onView false (View.advanceAddress o.unit record.length)).GoesOn
      (s.ctx l).pc := by
    rw [State.accessing_ctx] at hgo
    exact (hgo.memErrDue b).onView _ _
  obtain ⟨hacc, hbytes⟩ := exec_stores hr hx ha (by rw [hop]; exact accessOnly_semVstc) (by rw [hop]; decide) (by
    by_cases hm : Spec.mask (s.ctx l) = 0
    · rw [hnone hm]
      exact hgo
    · rw [hact hm, hview]
      exact hstored)
  refine ⟨hacc, fun hm => ?_, fun hm hw => ⟨fun p hp k hk => ?_, fun x hlatch => ?_⟩⟩
  · rw [hbytes.mem, hnone hm, State.accessing_mem]
  · obtain ⟨hcont, hsum⟩ := State.parts_contiguous (s.waiting l o) l o.storeAddr record.length true
    rw [hps] at hcont hsum
    have hwr := hw.accessing.writable
    have hrec := State.recorded_sameBytes (s.accessing l o) l false ps
    have h := State.writePieces_bytes ((s.accessing l o).accessor l) hcont hsum (fun p hp => ⟨(hwr p hp).1.of_same hrec, (hwr p hp).2⟩)
      hw.lines hp hk
    rw [(State.recorded_onlyMemory ..).serialOf, (SameTables.accessing s l o).serialOf] at h
    rw [hbytes.byteUnder, hact hm, (SameBytes.onView ..).byteUnder, State.storeBytes_eq (State.writeRefused_of_writable fun p hp => (hwr p hp).1)]
    exact h
  · rw [State.accessed, hact hm, State.closeBundle_straight (by rw [hop]; decide) (by rw [hview]; exact hstored.branch), hview]
    dsimp only
    rw [(View.SameLatches.land _ _).port]
    change (((((s.ctx l).cur.advanceAddress o.unit record.length).increment (opSem o.op) ((s.core l.core).vcount l.ctx) o.unit o.x).port
      o.unit).latch 2).content = _
    rw [View.increment_latch_two _ (by rw [hop]; rfl) (by rw [hop]; rfl), View.advanceAddress_latch hlatch]
    exact congrArg (fun y => LatchContent.value (.word y)) (BitVec.add_zero _)

/-- SCAT writes its lanes in ascending order, so its last enabled lane stands in memory (R199). -/
theorem exec_scat (hop : o.op = .scat) : AcceptsTo i s l o (s.accessed l o) ∧ (Spec.mask (s.ctx l) = 0 → (s.accessed l o).mem = s.mem) ∧
    ∀ j p, j < 128 → (Spec.mask (s.ctx l)).getLsbD j = true → (∀ q, q < 128 → j < q → (Spec.mask (s.ctx l)).getLsbD q = false) →
      (∀ q r, r ∈ (s.waiting l o).parts l (laneAddr o o.offsets q) 4 true → (s.waiting l o).Writable r) →
      (s.waiting l o).parts l (laneAddr o o.offsets j) 4 true = [p] → p.place.pa % 64 + 4 ≤ 64 →
      ∀ k, k < 4 → (s.accessed l o).byteUnder ((s.waiting l o).serialOf p.place.kidx) (p.place.pa + k) =
        (lane o.xv j).extractLsb' (8 * k) 8 := by
  have hgo := State.accessing_goesOn (o := o) hr hx
  have hact : (opSem o.op).act (s.accessing l o) l o = (s.accessing l o).storePieces l ((enabledLanes (Spec.mask (s.ctx l))).flatMap fun i =>
      ((s.waiting l o).parts l (laneAddr o o.offsets i) 4 true).map fun p => (p, leBytes 4 (lane o.xv i).toNat)) := by
    rw [hop, opSem_scat, semScat_act, State.accessing_laneMask]
    simp only [State.accessing_parts]
  obtain ⟨hacc, hbytes⟩ := exec_stores hr hx ha (by rw [hop]; exact accessOnly_semScat) (by rw [hop]; decide) (by
    rw [hact]
    exact State.storePieces_goesOn hgo _)
  refine ⟨hacc, fun hm => ?_, fun j p hj hbit hlast hw hp hline k hk => ?_⟩
  · have hnone : enabledLanes (Spec.mask (s.ctx l)) = [] := by
      rw [hm]
      decide
    rw [hbytes.mem, hact, hnone]
    exact State.accessing_mem s l o
  · obtain ⟨js, hjs⟩ := enabledLanes_last hj hbit hlast
    have hwr : ∀ v ∈ (enabledLanes (Spec.mask (s.ctx l))).flatMap (fun i =>
        ((s.waiting l o).parts l (laneAddr o o.offsets i) 4 true).map fun p => (p, leBytes 4 (lane o.xv i).toNat)),
        (s.accessing l o).Writable v.1 := fun v hv => by
      obtain ⟨q, -, hv⟩ := List.mem_flatMap.mp hv
      obtain ⟨r, hr, rfl⟩ := List.mem_map.mp hv
      exact (hw q r hr).accessing
    obtain ⟨t, htonly, htsame, heq⟩ := State.storePieces_eq hwr l
    have hpw : (s.accessing l o).Writable p := (hw j p (by rw [hp]; exact List.mem_singleton_self p)).accessing
    have hserial := (htonly.serialOf p.place.kidx).trans ((SameTables.accessing s l o).serialOf p.place.kidx)
    rw [hjs, List.flatMap_append, List.flatMap_singleton, hp] at heq hwr
    have hbefore := State.writeAll_writable ((s.accessing l o).accessor l)
      (fun v hv => (hwr v (List.mem_append_left _ hv)).of_same htsame) (hpw.of_same htsame)
    have h := State.writePiece_byteUnder ((s.accessing l o).accessor l) hbefore.live hbefore.clean (bs := leBytes 4 (lane o.xv j).toNat)
      (by rw [length_leBytes]; exact hline) (p.place.pa + k)
    rw [(State.writeAll_onlyMemory ..).serialOf, hserial, if_pos (by rw [length_leBytes]; omega), Nat.add_sub_cancel_left,
      getD_leBytes_lane _ hk] at h
    rw [hbytes.byteUnder, hact, hjs, List.flatMap_append, List.flatMap_singleton, hp, heq, State.writeAll_append]
    exact h

end

theorem vectorStoresWriteTheirLanes : Spec.VectorStoresWriteTheirLanes := by
  unfold Spec.VectorStoresWriteTheirLanes
  intro i s l o hr hx ha hop m t record writable
  have hapart {ps : List Piece} (h : writable ps) : (s.waiting l o).Apart ps :=
    ⟨h.1, fun p hp => ⟨⟨(h.2 p hp).1, (h.2 p hp).2.1⟩, (h.2 p hp).2.2⟩⟩
  simp only [List.mem_cons, List.not_mem_nil, or_false] at hop
  obtain hop | hop | hop := hop
  · obtain ⟨hacc, hnone, hlanes⟩ := exec_vst hr hx ha hop
    refine ⟨_, hacc.waits, hacc.accepts, hacc.mode, hacc.pc, hnone, fun _ hm hw => hlanes hm (hapart hw), fun h => ?_, fun h => ?_⟩
    · exact absurd (hop.symm.trans h) (by decide)
    · exact absurd (hop.symm.trans h) (by decide)
  · have hrecord : vstcRecord (s.accessing l o) l o = record := by
      rw [vstcRecord, State.accessing_laneMask]
      rfl
    obtain ⟨hacc, hnone, hbytes⟩ := exec_vstc hr hx ha hop hrecord
    refine ⟨_, hacc.waits, hacc.accepts, hacc.mode, hacc.pc, hnone, fun h => ?_, fun _ hm hw => hbytes hm (hapart hw), fun h => ?_⟩
    · exact absurd (hop.symm.trans h) (by decide)
    · exact absurd (hop.symm.trans h) (by decide)
  · obtain ⟨hacc, hnone, hlast⟩ := exec_scat hr hx ha hop
    refine ⟨_, hacc.waits, hacc.accepts, hacc.mode, hacc.pc, hnone, fun h => ?_, fun h => ?_, fun _ j p hj hbit hafter hw hp _ hline =>
      hlast j p hj hbit hafter (fun q r hr => ⟨(hw q r hr).1, (hw q r hr).2⟩) hp hline⟩
    · exact absurd (hop.symm.trans h) (by decide)
    · exact absurd (hop.symm.trans h) (by decide)

/-- Settles O35: the loads put the lanes of their pieces among the landings, and the stores write the pieces of their lanes in order. -/
theorem vectorLoadsAndStoresMoveTheirLanes : Obligations.VectorLoadsAndStoresMoveTheirLanes := by
  unfold Obligations.VectorLoadsAndStoresMoveTheirLanes
  exact ⟨vectorLoadsDeliverTheirLanes, vectorStoresWriteTheirLanes⟩

end Sys2Proof.Machine

/-! # Barrier operations (O38) -/

namespace Sys2Proof.Machine

/-! ### A row that acts in its bundle (R29) -/

/-- A row that is over with its bundle leaves what its operation leaves, at the end of the bundle. -/
theorem exec_completes {i : Instr} {s u : State} {l : Loc} {o : Opd} (hr : s.ready l i o) (hp : (s.take l).passes l o)
    (hacc : (opSem o.op).access = none) (hafter : (opSem o.op).after = fun s _ _ => s)
    (hact : (opSem o.op).act (s.acting l) l o = u) (hfence : (u.ctx l).fence = (s.ctx l).fence) :
    exec i s = .next (s.completed l o u) := by
  subst hact
  exact exec_acts hr hp hacc (fun t => by rw [hafter]) (hfence.trans (State.fence_of_ready hr))

theorem State.completed_straight {s : State} {l : Loc} (hx : (s.ctx l).straight) (o : Opd) (u : State) :
    s.completed l o u = u.closeBundle l o ((s.core l.core).vcount l.ctx) false := by
  rw [State.completed, Ctx.looping_of_straight hx]

/-- The end of a bundle leaves the pools, their keys, formats and frames. -/
theorem State.SameSectors.completed (s : State) (l : Loc) {o : Opd} (h : o.op ≠ .crw) (u : State) :
    u.SameSectors (s.completed l o u) := by
  unfold State.completed State.closeBundle
  rw [finish_eq h]
  exact (State.SameSectors.setCtx ..).trans (.setCtx ..)

theorem State.completed_pc {s u : State} {l : Loc} {o : Opd} (h : o.op ≠ .crw) (hx : (s.ctx l).straight)
    (hbranch : (u.ctx l).branch = none) : ((s.completed l o u).ctx l).pc = (u.ctx l).pc + 24 := by
  rw [State.completed_straight hx, State.closeBundle_straight h hbranch]
  rfl

/-! ### The barrier that a row finds (R220) -/

theorem State.SameReads.barrier {s t : State} (h : s.SameReads t) (c : Nat) (a : Accessor) (i : Nat) :
    s.barrier c a i = t.barrier c a i := by
  simp only [State.barrier, h.poolNat]

theorem State.SameReads.reservedByte {s t : State} (h : s.SameReads t) (c i : Nat) :
    (s.core c).reservedByte i = (t.core c).reservedByte i := by
  obtain ⟨-, -, -, hfmt, -, -, hframes⟩ := h.core c
  simp only [Core.reservedByte, Core.fmtOf, Core.frameHeld, hfmt, hframes]

theorem State.SameReads.kidx {s t : State} (h : s.SameReads t) (p d : Nat) : (s.dev p d).kidx = (t.dev p d).kidx :=
  congrArg (fun x : Word => bits x 16 9) (h.vdcfg p d)

theorem State.SameReads.keyAllows {s t : State} (h : s.SameReads t) (a : Accessor) (k : Nat) : s.keyAllows a k = t.keyAllows a k := by
  simp only [State.keyAllows, Dev.enabled, Dev.tenant, Dev.hostedBy, h.keys, h.vdcfg]

theorem State.SameReads.take (s : State) (l : Loc) : (s.take l).SameReads s := .setCore ⟨rfl, rfl, rfl, rfl, rfl, rfl, rfl⟩

/-- The pool of a core at a barrier that its device can read and write: no byte of it is reserved, and the device's key is its own. -/
structure State.BarrierPlace (s : State) (c : Nat) (a : Accessor) (n : Nat) : Prop where
  aligned : n % 16 = 0
  free : ∀ j, j < 16 → (s.core c).reservedByte (n + j) = false
  allows : (s.dev a.pav a.vd).kidx = 0 ∨ s.keyAllows a (s.dev a.pav a.vd).kidx = true

theorem State.BarrierPlace.of_sameReads {s t : State} {c n : Nat} {a : Accessor} (hp : s.BarrierPlace c a n) (h : t.SameReads s) :
    t.BarrierPlace c a n where
  aligned := hp.aligned
  free j hj := (h.reservedByte ..).trans (hp.free j hj)
  allows := by rw [h.kidx, h.keyAllows]; exact hp.allows

/-- A barrier written at such a place stands there. -/
theorem State.BarrierPlace.barrier_setBarrier {s : State} {c n : Nat} {a : Accessor} {b : Barrier} (hp : s.BarrierPlace c a n)
    (hb : b.InRange) : (s.setBarrier c a n b).barrier c a n = b := by
  obtain ⟨haligned, hfree, hallows⟩ := hp
  obtain ⟨m, rfl⟩ : ∃ m, n = 16 * m := ⟨n / 16, by omega⟩
  exact State.barrier_setBarrier hb hfree hallows

theorem State.aligned_of_goodBarrier {s : State} {l : Loc} {n : Nat} (h : s.badBarrier l n = false) : n % 16 = 0 := by
  simp only [State.badBarrier, Bool.or_eq_false_iff, decide_eq_false_iff_not, not_not] at h
  exact h.1.1.1

theorem State.OnlyPools.setBarrier (s : State) (c : Nat) (a : Accessor) (i : Nat) (b : Barrier) : s.OnlyPools (s.setBarrier c a i b) :=
  .setPoolBytes ..

theorem State.setBarrier_ctx (s : State) (c : Nat) (a : Accessor) (i : Nat) (b : Barrier) (l : Loc) :
    (s.setBarrier c a i b).ctx l = s.ctx l := by
  obtain ⟨_, _, hcore⟩ := (State.OnlyPools.setBarrier s c a i b).core l.core
  rw [State.ctx, hcore]
  rfl

theorem State.moveBarrier_ctx (s : State) (c : Nat) (a : Accessor) (i : Nat) (old new : Barrier) (l : Loc) :
    (s.moveBarrier c a i old new).ctx l = s.ctx l := by
  obtain ⟨_, _, _, hcore⟩ := State.moveBarrier_core s c a i old new l.core
  rw [State.ctx, hcore]
  rfl

theorem State.setArrived_ctx (s : State) (c : Nat) (arrived : List (Nat × Nat × Nat × Nat)) (l : Loc) :
    (s.setCore c { s.core c with arrived := arrived }).ctx l = s.ctx l := State.setCore_ctx_of_ctxs (by rfl) l

/-! ### The operations (R221) -/

/-- Counts raised, as R221 has it. -/
theorem Barrier.expect_eq (b : Barrier) (a n : Nat) : b.expect a n = Spec.expected b a n := by
  obtain ⟨phase, err, ecause, arr, sec, iarr, isec⟩ := b
  unfold Barrier.expect Spec.expected Barrier.fail
  by_cases hu : 2 ^ 24 ≤ arr + a ∨ 2 ^ 32 ≤ sec + n <;> cases err <;> simp [hu, -Nat.reducePow]

theorem Barrier.expect_inRange {b : Barrier} (h : b.InRange) (a n : Nat) : (b.expect a n).InRange := by
  have hfail : (if b.arr + a ≥ 2 ^ 24 ∨ b.sec + n ≥ 2 ^ 32 then b.fail 7 else b).InRange := by
    split
    · exact Barrier.fail_inRange h (by decide)
    · exact h
  exact { hfail with
    arr := (Nat.min_le_right ..).trans_lt (by decide)
    sec := (Nat.min_le_right ..).trans_lt (by decide) }

/-- The low half of a barrier that was read is the word it was read from (R221). -/
theorem State.barrier_low (s : State) (c : Nat) (a : Accessor) (i : Nat) : (s.barrier c a i).low = s.poolNat c a i 8 := by
  have hlt : s.poolNat c a i 8 < 2 ^ 64 := by
    have := leNat_lt (s.poolBytes c a i 8)
    simpa [State.poolNat, State.poolBytes] using this
  unfold State.barrier barrierOf Barrier.low
  generalize s.poolNat c a i 8 = x at hlt
  dsimp only
  by_cases he : x / 16 % 2 = 1
  · simp only [he, decide_true, b2n, if_true]
    omega
  · simp only [he, decide_false, b2n, Bool.false_eq_true, if_false]
    omega

theorem State.acquireCopies_ctx (s : State) (l : Loc) (i q : Nat) :
    ((s.acquireCopies l i q).ctx l).pc = (s.ctx l).pc ∧ ((s.acquireCopies l i q).ctx l).branch = (s.ctx l).branch ∧
      ((s.acquireCopies l i q).ctx l).fence = (s.ctx l).fence := by
  unfold State.acquireCopies
  generalize (s.core l.core).arrived.filter _ = es
  induction es generalizing s with
  | nil => exact ⟨rfl, rfl, rfl⟩
  | cons e es ih =>
    obtain ⟨hpc, hbranch, hfence⟩ := ih (s.onView l false fun v =>
      { v with acquired := v.acquired.set e.2.2.1 (newest (v.acquired.find? e.2.2.1) e.2.2.2) })
    rw [List.foldl_cons]
    simp only [State.onView_ctx] at hpc hbranch hfence
    exact ⟨hpc, hbranch, hfence⟩

theorem State.acquireCopies_sameSectors (s : State) (l : Loc) (i q : Nat) : s.SameSectors (s.acquireCopies l i q) := by
  unfold State.acquireCopies
  generalize (s.core l.core).arrived.filter _ = es
  induction es generalizing s with
  | nil => exact .refl s
  | cons e es ih => exact (State.SameSectors.setCtx ..).trans (ih _)

/-- An operation on a barrier, with its parts. -/
def OpSem.OnBarrier (sm : OpSem) (act : State → Loc → Opd → Barrier → State) : Prop :=
  ∃ sel bad waits, sm = barrierSem sel bad waits act

/-- A barrier operation that passes its checks has an aligned operand (R220). -/
theorem OpSem.OnBarrier.aligned {s : State} {l : Loc} {o : Opd} {act : State → Loc → Opd → Barrier → State}
    (h : (opSem o.op).OnBarrier act) (hp : s.passes l o) : o.xw.toNat % 16 = 0 := by
  obtain ⟨sel, bad, waits, hop⟩ := h
  obtain ⟨henc, -⟩ := hp
  rw [hop] at henc
  by_cases hbad : s.badBarrier l o.xw.toNat = true
  · exact absurd (henc.symm.trans (if_pos hbad)) nofun
  · exact State.aligned_of_goodBarrier (by simpa using hbad)

/-- A barrier operation that passes its checks leaves what it does with the barrier that its device reads (R221). -/
theorem OpSem.OnBarrier.exec {i : Instr} {s u : State} {l : Loc} {o : Opd} {act : State → Loc → Opd → Barrier → State}
    (h : (opSem o.op).OnBarrier act) (hr : s.ready l i o) (hp : (s.take l).passes l o)
    (hu : act (s.acting l) l o (s.barrier l.core (s.accessor l) o.xw.toNat) = u) (hfence : (u.ctx l).fence = (s.ctx l).fence) :
    exec i s = .next (s.completed l o u) := by
  obtain ⟨sel, bad, waits, hop⟩ := h
  refine exec_completes hr hp (by rw [hop]; rfl) (by rw [hop]; rfl) ?_ hfence
  rw [← hu, hop, ← (State.SameReads.acting s l).barrier, ← State.acting_accessor s l]
  rfl

/-- An operation that writes the barrier at its place leaves that barrier there. -/
theorem OpSem.OnBarrier.writes {i : Instr} {s u : State} {l : Loc} {o : Opd} {b : Barrier} {act : State → Loc → Opd → Barrier → State}
    (h : (opSem o.op).OnBarrier act) (hr : s.ready l i o) (hp : (s.take l).passes l o) (hcrw : o.op ≠ .crw)
    (hfree : ∀ j, j < 16 → (s.core l.core).reservedByte (o.xw.toNat + j) = false)
    (hallows : (s.dev (s.accessor l).pav (s.accessor l).vd).kidx = 0 ∨
      s.keyAllows (s.accessor l) (s.dev (s.accessor l).pav (s.accessor l).vd).kidx = true)
    (hb : b.InRange) (hu : act (s.acting l) l o (s.barrier l.core (s.accessor l) o.xw.toNat) = u)
    (hsame : ((s.acting l).setBarrier l.core ((s.acting l).accessor l) o.xw.toNat b).SameSectors u)
    (hctx : u.ctx l = (s.acting l).ctx l) :
    ∃ t, Machine.exec i s = .next t ∧ t.barrier l.core (s.accessor l) o.xw.toNat = b := by
  have hplace : (s.acting l).BarrierPlace l.core (s.accessor l) o.xw.toNat :=
    State.BarrierPlace.of_sameReads ⟨h.aligned hp, hfree, hallows⟩ (.acting s l)
  refine ⟨_, h.exec hr hp hu (by rw [hctx, State.acting_ctx]; rfl), ?_⟩
  rw [State.acting_accessor] at hsame
  rw [(State.SameSectors.completed s l hcrw u).barrier, hsame.barrier, hplace.barrier_setBarrier hb]

theorem onBarrier_binit {o : Opd} (hop : o.op = .binit) : ∃ act, (opSem o.op).OnBarrier act ∧ ∀ s l b, act s l o b =
    (let s1 := s.setBarrier l.core (s.accessor l) o.xw.toNat ⟨0, false, 0, bits o.b 23 0, bits o.b 55 24, bits o.b 23 0, bits o.b 55 24⟩
     let k := s1.core l.core
     s1.setCore l.core { k with arrived := k.arrived.filter fun e => e.1 != o.xw.toNat }) :=
  ⟨_, ⟨_, _, _, (congrArg opSem hop).trans opSem_binit⟩, fun _ _ _ => rfl⟩

theorem onBarrier_barr {o : Opd} (hop : o.op = .barr) : ∃ act, (opSem o.op).OnBarrier act ∧ ∀ s l b, act s l o b =
    s.moveBarrier l.core (s.accessor l) o.xw.toNat b (b.arrive (bits o.b 31 0)) :=
  ⟨_, ⟨_, _, _, (congrArg opSem hop).trans opSem_barr⟩, fun _ _ _ => rfl⟩

theorem onBarrier_bexp {o : Opd} (hop : o.op = .bexp) : ∃ act, (opSem o.op).OnBarrier act ∧ ∀ s l b, act s l o b =
    s.setBarrier l.core (s.accessor l) o.xw.toNat (b.expect (bits o.b 23 0) (bits o.b 55 24)) :=
  ⟨_, ⟨_, _, _, (congrArg opSem hop).trans opSem_bexp⟩, fun _ _ _ => rfl⟩

theorem onBarrier_bwait {o : Opd} (hop : o.op = .bwait) : ∃ act, (opSem o.op).OnBarrier act ∧ ∀ s l b, act s l o b =
    s.acquireCopies l o.xw.toNat o.b.toNat :=
  ⟨_, ⟨_, _, _, (congrArg opSem hop).trans opSem_bwait⟩, fun _ _ _ => rfl⟩

/-- The value of a BTEST by its destination (R221). -/
theorem btest_value (d : Option (RFile × Nat)) (x : Bool) (w : Word) :
    (if (match d with | some (.p, _) => true | _ => false) = true then boolWord x else w) =
      match d with
      | some (.p, _) => Spec.flag x
      | _ => w := by
  rcases d with _ | ⟨f, n⟩
  · rfl
  · cases f <;> rfl

/-- A BTEST that passes its checks completes with what it reads (R221). -/
theorem exec_btest {i : Instr} {s : State} {l : Loc} {o : Opd} (hr : s.ready l i o) (hp : (s.take l).passes l o) (hop : o.op = .btest) :
    exec i s = .next (s.fixedNext l o 2 (o.resultEffs (.word (match o.dest with
      | some (.p, _) => Spec.flag (decide ((s.barrier l.core (s.accessor l) o.xw.toNat).phase ≠ o.b.toNat))
      | _ => BitVec.ofNat 64 (s.poolNat l.core (s.accessor l) o.xw.toNat 8))) none)) := by
  have hsem : opSem o.op = semBtest := (congrArg opSem hop).trans opSem_btest
  refine exec_after hr hp (by rw [hsem]; rfl) (fun _ => by rw [hsem]; rfl) (fun _ => by rw [hsem]; rfl) ?_
  rw [hsem, ← State.barrier_low, ← (State.SameReads.acting s l).barrier, ← State.acting_accessor s l]
  unfold semBtest barrierSem State.result
  exact congrArg (fun v => (s.acting l).after l o 2 (o.resultEffs (.word v) none)) (btest_value ..)

/-- A BWAIT for the phase in force waits (R221). -/
theorem exec_bwait_waits {i : Instr} {s : State} {l : Loc} {o : Opd} (hr : s.ready l i o) (hop : o.op = .bwait)
    (hgood : (s.take l).badBarrier l o.xw.toNat = false) (hphase : o.b.toNat < 16)
    (heq : (s.barrier l.core (s.accessor l) o.xw.toNat).phase = o.b.toNat) : exec i s = .next ((s.take l).block l .bundle) := by
  have hsem : opSem o.op = semBwait := (congrArg opSem hop).trans opSem_bwait
  have hbits : bits o.b 63 4 = 0 := bits_eq_zero_iff.2 hphase
  have hbarrier : (s.take l).barrier l.core (s.accessor l) o.xw.toNat = s.barrier l.core (s.accessor l) o.xw.toNat :=
    (State.SameReads.take s l).barrier ..
  have haccessor : (s.take l).accessor l = s.accessor l := by rw [State.accessor, State.take_ctx]; rfl
  refine exec_blocks hr ?_ (by rw [hsem]; rfl) (by rw [hsem]; rfl) ?_
  · rw [hsem]
    simp [semBwait, barrierSem, hgood, hbits]
  · rw [hsem]
    simp [semBwait, barrierSem, haccessor, hbarrier, heq]

/-- Settles O38: each operation writes the barrier that it makes of the one its device reads, and that barrier stands at its place. -/
theorem barrierOperationsFollowTheCounts : Obligations.BarrierOperationsFollowTheCounts := by
  unfold Obligations.BarrierOperationsFollowTheCounts
  intro i s l o hr hx a n b hfree hallows
  have hb : b.InRange := barrierOf_inRange ..
  refine ⟨fun hp => ⟨fun hop => ?_, fun hop => ?_, fun hop => ?_, fun hop => ?_, fun hop => exec_btest hr hp hop⟩,
    fun hop hgood hphase heq => exec_bwait_waits hr hop hgood hphase heq⟩
  · obtain ⟨act, hsem, hact⟩ := onBarrier_binit hop
    have ha : (o.b.extractLsb' 0 24).toNat < 2 ^ 24 := (o.b.extractLsb' 0 24).isLt
    have hs : (o.b.extractLsb' 24 32).toNat < 2 ^ 32 := (o.b.extractLsb' 24 32).isLt
    rw [bits_eq_toNat_extractLsb', bits_eq_toNat_extractLsb'] at hact
    exact hsem.writes hr hp (by rw [hop]; decide) hfree hallows ⟨Nat.zero_lt_succ _, Nat.zero_lt_succ _, ha, hs, ha, hs⟩ (hact ..)
      (State.setArrived_sameSectors ..) ((State.setArrived_ctx ..).trans (State.setBarrier_ctx ..))
  · obtain ⟨act, hsem, hact⟩ := onBarrier_barr hop
    rw [bits_eq_toNat_extractLsb'] at hact
    refine hsem.writes hr hp (by rw [hop]; decide) hfree hallows ?_ (hact ..) ?_ (State.moveBarrier_ctx ..)
    · rw [← Barrier.arrive_eq]
      exact Barrier.arrive_inRange hb _
    · rw [← Barrier.arrive_eq]
      exact State.moveBarrier_sameSectors ..
  · obtain ⟨act, hsem, hact⟩ := onBarrier_bexp hop
    rw [bits_eq_toNat_extractLsb', bits_eq_toNat_extractLsb'] at hact
    refine hsem.writes hr hp (by rw [hop]; decide) hfree hallows ?_ (hact ..) ?_ (State.setBarrier_ctx ..)
    · rw [← Barrier.expect_eq]
      exact Barrier.expect_inRange hb ..
    · rw [← Barrier.expect_eq]
      exact .refl _
  · obtain ⟨act, hsem, hact⟩ := onBarrier_bwait hop
    have hcrw : o.op ≠ .crw := by rw [hop]; decide
    obtain ⟨hpc, hbranch, hfence⟩ := State.acquireCopies_ctx (s.acting l) l o.xw.toNat o.b.toNat
    rw [State.acting_ctx] at hpc hbranch hfence
    refine ⟨_, hsem.exec hr hp (hact ..) hfence, ?_, ?_⟩
    · rw [State.completed_pc hcrw hx (hbranch.trans hx.1)]
      exact congrArg (· + 24) hpc
    · rw [(State.SameSectors.completed s l hcrw _).pool, (State.acquireCopies_sameSectors ..).pool,
        ((State.SameReads.acting s l).core l.core).pool]

end Sys2Proof.Machine

/-! # What the issue of a bundle leaves (R29, R379, R385, R386) -/

namespace Sys2Proof.Machine

/-- Two states that differ in what the issue of a bundle changes alone: the contexts, the cycle taken and the cycles that tasks have had in a
core, the deficits of devices, and the arbiters. -/
structure State.Issuing (s t : State) : Prop where
  rest : ∃ cores pavs arbs, t = { s with cores := cores, pavs := pavs, arbs := arbs }
  core : ∀ c, ∃ ctxs taken f, (∀ u : Task, ∃ n, f u = { u with cycles := n }) ∧
    t.core c = { s.core c with ctxs := ctxs, taken := taken, table := (s.core c).table.map f }
  pav : ∀ p, ∃ devs, t.pav p = { s.pav p with devs := devs }
  dev : ∀ p d, ∃ x, t.dev p d = { s.dev p d with rdwrr := x }

namespace State.Issuing

theorem core_refl (k : Core) : ∃ ctxs taken f, (∀ u : Task, ∃ n, f u = { u with cycles := n }) ∧
    k = { k with ctxs := ctxs, taken := taken, table := k.table.map f } :=
  ⟨k.ctxs, k.taken, id, fun u => ⟨u.cycles, rfl⟩, by rw [List.map_id]⟩

theorem of_core {s t : State} (c : Nat) (k : Core) (h : t = s.setCore c k) (hk : ∃ ctxs taken f, (∀ u : Task, ∃ n, f u = { u with cycles := n }) ∧
    k = { s.core c with ctxs := ctxs, taken := taken, table := (s.core c).table.map f }) : s.Issuing t where
  rest := ⟨_, _, _, h⟩
  core d := by
    rw [h]
    by_cases hd : d = c
    · rw [hd, State.core_setCore]
      exact hk
    · rw [State.core_setCore_ne _ hd]
      exact core_refl _
  pav p := ⟨_, by rw [h]; rfl⟩
  dev p d := ⟨_, by rw [h]; rfl⟩

theorem refl (s : State) : s.Issuing s := ⟨⟨_, _, _, rfl⟩, fun _ => core_refl _, fun _ => ⟨_, rfl⟩, fun _ _ => ⟨_, rfl⟩⟩

theorem trans {s t u : State} (h : s.Issuing t) (h' : t.Issuing u) : s.Issuing u where
  rest := by
    obtain ⟨_, _, _, rfl⟩ := h.rest
    obtain ⟨_, _, _, rfl⟩ := h'.rest
    exact ⟨_, _, _, rfl⟩
  core c := by
    obtain ⟨_, _, f, hf, hcore⟩ := h.core c
    obtain ⟨ctxs, taken, g, hg, hcore'⟩ := h'.core c
    refine ⟨ctxs, taken, g ∘ f, fun v => ?_, by rw [hcore', hcore, List.map_map]⟩
    obtain ⟨n, hn⟩ := hf v
    obtain ⟨m, hm⟩ := hg (f v)
    exact ⟨m, by rw [Function.comp, hm, hn]⟩
  pav p := by
    obtain ⟨_, hp⟩ := h.pav p
    obtain ⟨_, hp'⟩ := h'.pav p
    exact ⟨_, by rw [hp', hp]⟩
  dev p d := by
    obtain ⟨_, hd⟩ := h.dev p d
    obtain ⟨_, hd'⟩ := h'.dev p d
    exact ⟨_, by rw [hd', hd]⟩

theorem setCtx (s : State) (l : Loc) (x : Ctx) : s.Issuing (s.setCtx l x) :=
  of_core l.core _ rfl ⟨_, (s.core l.core).taken, id, fun u => ⟨u.cycles, rfl⟩, by rw [List.map_id]; rfl⟩

theorem take (s : State) (l : Loc) : s.Issuing (s.take l) :=
  of_core l.core _ rfl ⟨(s.core l.core).ctxs, _, id, fun u => ⟨u.cycles, rfl⟩, by rw [List.map_id]⟩

theorem setArb (s : State) (n : Nat) (a : Arb) : s.Issuing (s.setArb n a) :=
  ⟨⟨_, _, _, rfl⟩, fun _ => core_refl _, fun _ => ⟨_, rfl⟩, fun _ _ => ⟨_, rfl⟩⟩

theorem setDeficit (s : State) (p d : Nat) (x : Int) : s.Issuing (s.setDev p d ((s.dev p d).setDeficit x)) where
  rest := ⟨_, _, _, rfl⟩
  core _ := core_refl _
  pav q := by
    unfold State.setDev State.setPav State.pav
    by_cases hq : q = p
    · rw [hq, Table.getD_set_self]
      exact ⟨_, rfl⟩
    · rw [Table.getD_set_ne _ hq]
      exact ⟨_, rfl⟩
  dev q e := by
    unfold State.setDev State.setPav State.dev State.pav
    by_cases hq : q = p
    · rw [hq, Table.getD_set_self]
      by_cases he : e = d
      · rw [he, Table.getD_set_self]
        exact ⟨_, rfl⟩
      · rw [Table.getD_set_ne _ he]
        exact ⟨_, rfl⟩
    · rw [Table.getD_set_ne _ hq]
      exact ⟨_, rfl⟩

theorem measured (s : State) (c : Nat) (b : Binding) (n : Nat) : s.Issuing (s.measured c b n) := by
  unfold State.measured
  dsimp only
  refine (setDeficit s b.pav b.vd _).trans (of_core c _ rfl ⟨_, _, Task.counted b.task n, fun u => ?_, rfl⟩)
  unfold Task.counted
  split
  · exact ⟨_, rfl⟩
  · exact ⟨u.cycles, rfl⟩

theorem charge (s : State) (l : Loc) : s.Issuing (s.charge l) := by
  unfold State.charge
  split
  · exact refl s
  · dsimp only
    refine trans ?_ (measured ..)
    split
    · exact setArb ..
    · exact refl s

/-- A bundle that issues has changed nothing else (R29). -/
theorem acting (s : State) (l : Loc) : s.Issuing (s.acting l) := ((take s l).trans (charge ..)).trans (setCtx ..)

section
variable {s t : State}

theorem opId (h : s.Issuing t) : t.opId = s.opId := by
  obtain ⟨_, _, _, rfl⟩ := h.rest
  rfl

theorem messages (h : s.Issuing t) : t.messages = s.messages := by
  obtain ⟨_, _, _, rfl⟩ := h.rest
  rfl

theorem credits (h : s.Issuing t) : t.credits = s.credits := by
  obtain ⟨_, _, _, rfl⟩ := h.rest
  rfl

theorem oper (h : s.Issuing t) : t.oper = s.oper := by
  obtain ⟨_, _, _, rfl⟩ := h.rest
  rfl

theorem pav_cores (h : s.Issuing t) (p : Nat) : (t.pav p).cores = (s.pav p).cores := by
  obtain ⟨_, hp⟩ := h.pav p
  rw [hp]

theorem queues (h : s.Issuing t) (c : Nat) : (t.core c).queues = (s.core c).queues := by
  obtain ⟨_, _, _, -, hc⟩ := h.core c
  rw [hc]

theorem spent (h : s.Issuing t) (c : Nat) : (t.core c).spent = (s.core c).spent := by
  obtain ⟨_, _, _, -, hc⟩ := h.core c
  rw [hc]

theorem ring (h : s.Issuing t) (c : Nat) : (t.core c).ring = (s.core c).ring := by
  obtain ⟨_, _, _, -, hc⟩ := h.core c
  rw [hc]

theorem neighbour (h : s.Issuing t) (p c d : Nat) : t.neighbour p c d = s.neighbour p c d := by
  simp only [State.neighbour, State.joined, h.pav_cores, h.oper]
  rfl

theorem launches (h : s.Issuing t) (p d : Nat) : (t.dev p d).launches = (s.dev p d).launches := by
  obtain ⟨_, hd⟩ := h.dev p d
  rw [hd]

theorem placesHeld (h : s.Issuing t) (p d : Nat) : t.placesHeld p d = s.placesHeld p d := by
  have hentries : (t.dev p d).entries = (s.dev p d).entries := by
    obtain ⟨_, hd⟩ := h.dev p d
    rw [hd]
  have hcore (c : Nat) : ((t.core c).table.filter fun u => u.vd == d).length = ((s.core c).table.filter fun u => u.vd == d).length ∧
      (t.core c).walker = (s.core c).walker := by
    obtain ⟨_, _, f, hf, hc⟩ := h.core c
    have hvd : (fun u : Task => u.vd == d) ∘ f = fun u => u.vd == d := by
      funext u
      obtain ⟨n, hn⟩ := hf u
      simp only [Function.comp, hn]
    rw [hc]
    refine ⟨?_, rfl⟩
    dsimp only
    rw [List.filter_map, List.length_map, hvd]
  simp only [State.placesHeld, hentries, h.pav_cores, (hcore _).1, (hcore _).2]

theorem storeFull (h : s.Issuing t) (p d : Nat) : t.storeFull p d = s.storeFull p d := by
  have hlstore : (t.dev p d).lstore = (s.dev p d).lstore := by
    obtain ⟨_, hd⟩ := h.dev p d
    rw [hd]
    rfl
  simp only [State.storeFull, hlstore, h.launches, h.placesHeld]

end

end State.Issuing

end Sys2Proof.Machine

/-! # Queues, rings and launches (O40) -/

namespace Sys2Proof.Machine

/-! ### What the results that land leave of flights and regions (R30, R324) -/

/-- Two views whose flights and whose region are the same. -/
structure View.SameFlights (w v : View) : Prop where
  flights : w.flights = v.flights
  region : w.region = v.region

theorem View.setRes_flights (w : View) (h : Bool) (u : UnitId) (v : Value) (m : Option Mask) : (w.setRes h u v m).flights = w.flights := by
  simp [View.setRes]

theorem View.setRes_region (w : View) (h : Bool) (u : UnitId) (v : Value) (m : Option Mask) : (w.setRes h u v m).region = w.region := by
  unfold View.setRes View.setPortOf
  dsimp only
  split <;> rfl

namespace View.SameFlights

theorem refl (w : View) : w.SameFlights w := ⟨rfl, rfl⟩

theorem trans {w v u : View} (h : w.SameFlights v) (h' : v.SameFlights u) : w.SameFlights u :=
  ⟨h.flights.trans h'.flights, h.region.trans h'.region⟩

theorem writeReg (w : View) (f : RFile) (n : Nat) (v : Value) (m : Option Mask) : (w.writeReg f n v m).SameFlights w := by
  cases f
  case p =>
    unfold View.writeReg View.setPred
    dsimp only
    split <;> exact ⟨rfl, rfl⟩
  all_goals exact ⟨rfl, rfl⟩

theorem memcnt (w : View) (x : Word) : ({ w with ctl := { w.ctl with memcnt := x } } : View).SameFlights w := ⟨rfl, rfl⟩

theorem setRes (w : View) (h : Bool) (u : UnitId) (v : Value) (m : Option Mask) : (w.setRes h u v m).SameFlights w :=
  ⟨View.setRes_flights .., View.setRes_region ..⟩

theorem deliver (w : View) (h : Bool) (u : UnitId) (d : Option (RFile × Nat)) (v : Value) (m : Option Mask) :
    (w.deliver h u d v m).SameFlights w := by
  unfold View.deliver
  split
  · exact (setRes ..).trans (writeReg ..)
  · exact setRes ..

theorem stackEffect (h : Bool) (w : View) (d : Option Nat) (p : Option (Nat × Mask)) : (View.effect h w (.stack d p)).SameFlights w := by
  have hdepth : (match d with | some d => w.setDepth d | none => w : View).SameFlights w := by
    split <;> exact ⟨rfl, rfl⟩
  have hentry (v : View) (n : Nat) (m : Mask) : (v.setEntry n m).SameFlights v := by
    unfold View.setEntry
    split <;> exact ⟨rfl, rfl⟩
  cases p with
  | none => exact hdepth
  | some p => exact (hentry ..).trans hdepth

theorem effect (h : Bool) (w : View) (e : Eff) : (View.effect h w e).SameFlights w := by
  cases e with
  | reg f n v m => exact writeReg ..
  | res u v m => exact setRes ..
  | flags b => exact ⟨rfl, rfl⟩
  | ctl n x => exact ⟨rfl, rfl⟩
  | startLoop => exact ⟨rfl, rfl⟩
  | stack d p => exact stackEffect ..
  | launchFull => exact memcnt ..
  | merge u d em c =>
    refine (deliver ..).trans ?_
    split <;> exact ⟨rfl, rfl⟩
  | threshold u d x m => exact deliver ..
  | candidate u d j => exact deliver ..
  | clear u d => exact (deliver ..).trans ⟨rfl, rfl⟩

theorem foldl {α : Type} {f : View → α → View} (h : ∀ w a, (f w a).SameFlights w) (as : List α) (w : View) :
    (as.foldl f w).SameFlights w := by
  induction as generalizing w with
  | nil => exact refl w
  | cons a as ih => exact (ih _).trans (h w a)

end View.SameFlights

/-- What is due later is still in flight after a bundle has ended, and the region stays (R30). -/
theorem View.land_keeps (w : View) (t : Nat) :
    (w.land t).flights = (w.flights.filter fun f => ¬ f.due ≤ t) ∧ (w.land t).region = w.region := by
  unfold View.land
  dsimp only
  obtain ⟨hflights, hregion⟩ := View.SameFlights.foldl (fun w (f : Flight) => View.SameFlights.foldl (View.SameFlights.effect f.hset) f.effs w)
    (w.flights.filter fun f => f.due ≤ t) { w with flights := w.flights.filter fun f => ¬ f.due ≤ t }
  exact ⟨hflights, hregion⟩

theorem View.mem_land_flights {w : View} {t : Nat} {f : Flight} (hf : f ∈ w.flights) (h : t < f.due) : f ∈ (w.land t).flights := by
  rw [(View.land_keeps w t).1]
  exact List.mem_filter.2 ⟨hf, by simpa using h⟩

theorem View.increment_region (w : View) (sm : OpSem) (vc : Nat) (u : UnitId) (x : Value) : (w.increment sm vc u x).region = w.region := by
  simp [View.increment, View.setPort, View.setPortOf, apply_ite View.region]

end Sys2Proof.Machine

namespace Sys2Proof.Machine

/-! ### A row that ends its region and gives a result in the next bundle (R30, R324) -/

theorem State.closeBundle_setCtx (v : State) (l : Loc) (y : Ctx) {o : Opd} (h : o.op ≠ .crw) (vc : Nat) (lp : Bool) :
    ∃ x, (v.setCtx l y).closeBundle l o vc lp = v.setCtx l x := by
  unfold State.closeBundle
  rw [finish_eq h]
  simp only [State.onView, State.setCtx_setCtx]
  exact ⟨_, rfl⟩

/-- A row whose operation leaves a state, ends its region there and gives a result of latency 2: of its context, what it leaves. -/
theorem exec_releases {i : Instr} {s v : State} {l : Loc} {o : Opd} {r : Value} (hr : s.ready l i o) (hp : (s.take l).passes l o)
    (hx : (s.ctx l).straight) (hcrw : o.op ≠ .crw) (hacc : (opSem o.op).access = none) (hafter : (opSem o.op).after = fun s _ _ => s)
    (hact : (opSem o.op).act (s.acting l) l o = (v.release l).result l o 2 r) (hctx : v.ctx l = (s.ctx l).unmarked) :
    ∃ x, exec i s = .next (v.setCtx l x) ∧ x.cur.region = ((s.ctx l).cur.region + 1) % 32 ∧
      Spec.nextBundle (s.ctx l) x (o.resultEffs r none) := by
  have hu : ∃ y, (v.release l).result l o 2 r = v.setCtx l y := by
    simp only [State.release, State.result, State.after, State.fly, State.onView, State.setCtx_setCtx]
    exact ⟨_, rfl⟩
  have huctx : ((v.release l).result l o 2 r).ctx l =
      ((s.ctx l).unmarked.onView false View.endRegion).onView o.prov fun w =>
        { w with flights := w.flights ++ [⟨(s.ctx l).ctime + 2 - 1, o.s, (s.ctx l).cur.inHandler, o.resultEffs r none⟩] } := by
    simp only [State.release, State.result, State.after, State.fly, State.onView_ctx, hctx]
    rfl
  have hfence : (((v.release l).result l o 2 r).ctx l).fence = (s.ctx l).fence := by rw [huctx]; rfl
  have hbranch : (((v.release l).result l o 2 r).ctx l).branch = none := by rw [huctx]; exact hx.1
  have hclosed := State.closeBundle_straight hcrw hbranch ((s.core l.core).vcount l.ctx)
  obtain ⟨y, hy⟩ := hu
  obtain ⟨x, hnext⟩ := State.closeBundle_setCtx v l y hcrw ((s.core l.core).vcount l.ctx) false
  have hxctx : x = (((v.release l).result l o 2 r).closeBundle l o ((s.core l.core).vcount l.ctx) false).ctx l := by
    rw [hy, hnext, State.ctx_setCtx]
  refine ⟨x, ?_, ?_, ?_⟩
  · rw [exec_completes hr hp hacc hafter hact hfence, State.completed_straight hx, hy, hnext]
  · rw [hxctx, hclosed, huctx]
    dsimp only
    rw [(View.land_keeps _ _).2]
    exact View.increment_region ..
  · rw [hxctx, hclosed, huctx]
    refine ⟨⟨(s.ctx l).ctime + 2 - 1, o.s, (s.ctx l).cur.inHandler, o.resultEffs r none⟩, View.mem_land_flights ?_ ?_, rfl, rfl⟩
    · exact (View.increment_flights ..).symm ▸ List.mem_append_right _ (List.mem_singleton_self _)
    · exact Nat.lt_succ_self _

/-- A row of the queues without a value on its way gives 1 and changes nothing else (R225, R226). -/
theorem exec_refuses {i : Instr} {s : State} {l : Loc} {o : Opd} {effs : List Eff} (hr : s.ready l i o) (hp : (s.take l).passes l o)
    (hcrw : o.op ≠ .crw) (hacc : (opSem o.op).access = none) (hafter : (opSem o.op).after = fun s _ _ => s)
    (hact : (opSem o.op).act (s.acting l) l o = (s.acting l).after l o 2 effs) : exec i s = .next (s.fixedNext l o 2 effs) :=
  exec_after hr hp hacc (fun t => by rw [hafter]) (fun t => finish_eq hcrw t l o) hact

/-! ### A value of a queue on its way (R225, R226) -/

/-- A value that is started after an acquire is delivered (R31, R324). -/
theorem State.Delivers.of_acquired {s u : State} {l : Loc} {o : Opd} {lat : Nat} {v : Option Value} {f : View → View}
    (hf : ∀ w, ∃ a, f w = { w with acquired := a }) (hfin : (s.ctx l).fin = none) (hctx : u.ctx l = (s.ctx l).onView false f)
    (hcycle : (u.core l.core).cycle = (s.core l.core).cycle) (hid : u.opId = s.opId) (hsame : SameMemory u s) :
    s.Delivers l o none lat v ((u.startLong l o none).2.deliverLong l u.opId lat v) where
  ctx := by
    have hin : (f (s.ctx l).cur).inHandler = (s.ctx l).cur.inHandler := by
      obtain ⟨a, ha⟩ := hf (s.ctx l).cur
      rw [ha]
      rfl
    refine ⟨f, hf, ?_⟩
    rw [State.startDeliver_ctx, hctx, hcycle, hid]
    simp only [Ctx.onItsWay, Ctx.onView, hin, hfin, Option.map_none, ite_self]
    rfl
  same := ⟨hsame.mem, hsame.poison, hsame.lineKey, hsame.lineMeta, hsame.tags, hsame.granules, hsame.keys, hsame.pavs⟩

/-- A row that delivers a value completes, with the value on its way and its destination pending. -/
theorem exec_delivering {i : Instr} {s t : State} {l : Loc} {o : Opd} {lat : Nat} {v : Value} (hr : s.ready l i o)
    (hp : (s.take l).passes l o) (hx : (s.ctx l).straight) (hcrw : o.op ≠ .crw) (hacc : (opSem o.op).access = none)
    (hafter : (opSem o.op).after = fun s _ _ => s) (hact : (opSem o.op).act (s.acting l) l o = t)
    (hd : (s.acting l).Delivers l o none lat (some v) t) :
    exec i s = .next (s.completed l o t) ∧
      ((s.completed l o t).ctx l).landings.find? s.opId = some ⟨(s.core l.core).cycle + 1 + lat, some v, none⟩ ∧
      ∃ q ∈ ((s.completed l o t).ctx l).cur.pending, q.id = s.opId ∧ q.dest = o.dest := by
  have hbranch : ((s.acting l).ctx l).branch = none := by rw [State.acting_ctx]; exact hx.1
  have hfence : (t.ctx l).fence = (s.ctx l).fence := by
    obtain ⟨f, -, hctx⟩ := hd.ctx
    rw [hctx, State.acting_ctx]
    rfl
  refine ⟨exec_completes hr hp hacc hafter hact hfence, ?_, ?_⟩
  · rw [State.completed_straight hx, ← State.acting_opId s l, hd.landing hbranch hcrw, ((State.SameReads.acting s l).core l.core).cycle]
  · obtain ⟨q, hq, hid, hdest, -⟩ := hd.pending hbranch hcrw ((s.core l.core).vcount l.ctx)
    rw [State.completed_straight hx]
    exact ⟨q, hq, hid.trans (State.acting_opId s l), hdest⟩

theorem State.completed_core {s t : State} {l : Loc} {o : Opd} (h : o.op ≠ .crw) :
    ∃ x, (s.completed l o t).core l.core = (t.core l.core).setCtx l.ctx x :=
  ⟨_, State.closeBundle_core h ..⟩

theorem State.completed_credits {s t : State} {l : Loc} {o : Opd} (h : o.op ≠ .crw) : (s.completed l o t).credits = t.credits := by
  unfold State.completed State.closeBundle
  rw [finish_eq h]
  rfl

theorem State.deliverLong_startLong_core (u : State) (l : Loc) (o : Opd) (id lat : Nat) (v : Option Value) :
    ∃ x, ((u.startLong l o none).2.deliverLong l id lat v).core l.core = (u.core l.core).setCtx l.ctx x := by
  simp only [State.deliverLong, State.startLong, State.onView, State.setCtx_setCtx, State.core_setCtx]
  exact ⟨_, rfl⟩

/-! ### The entries of a queue (R223, R225) -/

/-- A word that is written in a sector of its device is what the device reads there. -/
theorem State.poolNat_setPoolNat {s : State} {c i x : Nat} {a : Accessor} (halign : i % 8 = 0) (hx : x < 2 ^ 64)
    (hfree : ∀ j, j < 8 → (s.core c).reservedByte (i + j) = false)
    (hallows : (s.dev a.pav a.vd).kidx = 0 ∨ s.keyAllows a (s.dev a.pav a.vd).kidx = true) :
    (s.setPoolNat c a i 8 x).poolNat c a i 8 = x := by
  have hlist : (s.setPoolNat c a i 8 x).poolBytes c a i 8 = leBytes 8 x := by
    rw [leBytes_eq_map]
    refine List.map_congr_left fun j hj => ?_
    have hj8 := List.mem_range.1 hj
    rw [← getD_leBytes _ hj8]
    refine State.poolByte_setPoolBytes (fun j hj => ?_) hallows (by simpa using hj8)
    rw [length_leBytes] at hj
    exact ⟨hfree j hj, by omega⟩
  rw [State.poolNat, hlist, leNat_leBytes_mod]
  exact Nat.mod_eq_of_lt hx

theorem Core.queue_setQueue (s : State) (c n : Nat) (q : Queue) : ((s.setQueue c n q).core c).queues.getD n .reset = q := by
  rw [State.setQueue, State.core_setCore]
  exact Table.getD_set_self ..

theorem State.acquireStamp_ctx (s : State) (l : Loc) (stamp : Nat × Nat) : ∃ f : View → View,
    (∀ w, ∃ a, f w = { w with acquired := a }) ∧ (s.acquireStamp l stamp).ctx l = (s.ctx l).onView false f :=
  ⟨_, fun _ => ⟨_, rfl⟩, State.onView_ctx ..⟩

theorem State.SameSectors.poolNat {s t : State} (h : s.SameSectors t) (c : Nat) (a : Accessor) (i n : Nat) :
    t.poolNat c a i n = s.poolNat c a i n := by
  simp only [State.poolNat, State.poolBytes, h.poolByte]

/-- The state with an entry appended to a queue (R225). -/
def State.appended (s : State) (l : Loc) (o : Opd) : State :=
  let q := (s.core l.core).queue o.b.toNat
  (s.setPoolNat l.core (s.accessor l) (q.entryAddr q.count) 8 o.xw.toNat).setQueue l.core o.b.toNat
    { q with count := q.count + 1, stamps := q.stamps ++ [s.stampOf l] }

theorem semQput_act (s : State) (l : Loc) (o : Opd) : semQput.act s l o =
    if ((s.core l.core).queue o.b.toNat).count = ((s.core l.core).queue o.b.toNat).capacity then s.result l o 2 (.word 1)
    else ((s.appended l o).release l).result l o 2 (.word 0) := rfl

theorem State.setPoolNat_ctx (s : State) (c : Nat) (a : Accessor) (i n x : Nat) (l : Loc) : (s.setPoolNat c a i n x).ctx l = s.ctx l := by
  obtain ⟨_, _, hcore⟩ := (State.OnlyPools.setPoolBytes s c a (s.dev a.pav a.vd).kidx i (leBytes n x)).core l.core
  rw [State.ctx, State.setPoolNat, hcore]
  rfl

theorem State.appended_ctx (s : State) (l : Loc) (o : Opd) : (s.appended l o).ctx l = s.ctx l :=
  (State.setCore_ctx_of_ctxs (by rfl) l).trans (State.setPoolNat_ctx ..)

theorem State.appended_sameSectors (s : State) (l : Loc) (o : Opd) :
    let q := (s.core l.core).queue o.b.toNat
    (s.setPoolNat l.core (s.accessor l) (q.entryAddr q.count) 8 o.xw.toNat).SameSectors (s.appended l o) := .setCore rfl rfl rfl rfl

theorem State.Issuing.queue {s t : State} (h : s.Issuing t) (c n : Nat) : (t.core c).queue n = (s.core c).queue n := by
  rw [Core.queue, h.queues]
  rfl

theorem opSem_qput_of {o : Opd} (hop : o.op = .qput) : opSem o.op = semQput := (congrArg opSem hop).trans opSem_qput
theorem opSem_qget_of {o : Opd} (hop : o.op = .qget) : opSem o.op = semQget := (congrArg opSem hop).trans opSem_qget
theorem opSem_rput_of {o : Opd} (hop : o.op = .rput) : opSem o.op = semRput := (congrArg opSem hop).trans opSem_rput
theorem opSem_rget_of {o : Opd} (hop : o.op = .rget) : opSem o.op = semRget := (congrArg opSem hop).trans opSem_rget
theorem opSem_launch_of {o : Opd} (hop : o.op = .launch) : opSem o.op = semLaunch := (congrArg opSem hop).trans opSem_launch

section
variable {i : Instr} {s : State} {l : Loc} {o : Opd}

/-- A QPUT on a full queue gives 1 (R225). -/
theorem exec_qput_full (hr : s.ready l i o) (hp : (s.take l).passes l o) (hop : o.op = .qput)
    (hfull : ((s.core l.core).queue o.b.toNat).count = ((s.core l.core).queue o.b.toNat).capacity) :
    exec i s = .next (s.fixedNext l o 2 (o.resultEffs (.word 1) none)) := by
  have hsem := opSem_qput_of hop
  refine exec_refuses hr hp (by rw [hop]; decide) (by rw [hsem]; rfl) (by rw [hsem]; rfl) ?_
  rw [hsem, semQput_act, (State.Issuing.acting s l).queue, if_pos hfull]
  rfl

/-- A QPUT on a queue with room leaves its entry appended (R225). -/
theorem exec_qput (hr : s.ready l i o) (hp : (s.take l).passes l o) (hx : (s.ctx l).straight) (hop : o.op = .qput)
    (hroom : ((s.core l.core).queue o.b.toNat).count ≠ ((s.core l.core).queue o.b.toNat).capacity) :
    ∃ x, exec i s = .next (((s.acting l).appended l o).setCtx l x) ∧ x.cur.region = ((s.ctx l).cur.region + 1) % 32 ∧
      Spec.nextBundle (s.ctx l) x (o.resultEffs (.word 0) none) := by
  have hsem := opSem_qput_of hop
  refine exec_releases hr hp hx (by rw [hop]; decide) (by rw [hsem]; rfl) (by rw [hsem]; rfl) ?_
    ((State.appended_ctx ..).trans (State.acting_ctx s l))
  rw [hsem, semQput_act, (State.Issuing.acting s l).queue, if_neg hroom]

/-- The entry that a QPUT appends stands in the pool of its core (R223, R225). -/
theorem State.appended_poolNat (hfree : ∀ j, j < 8 →
      (s.core l.core).reservedByte (((s.core l.core).queue o.b.toNat).entryAddr ((s.core l.core).queue o.b.toNat).count + j) = false)
    (hallows : (s.dev (s.accessor l).pav (s.accessor l).vd).kidx = 0 ∨
      s.keyAllows (s.accessor l) (s.dev (s.accessor l).pav (s.accessor l).vd).kidx = true) :
    ((s.acting l).appended l o).poolNat l.core (s.accessor l)
      (((s.core l.core).queue o.b.toNat).entryAddr ((s.core l.core).queue o.b.toNat).count) 8 = o.xw.toNat := by
  have hsame := State.appended_sameSectors (s.acting l) l o
  have hreads := State.SameReads.acting s l
  dsimp only at hsame
  rw [(State.Issuing.acting s l).queue, State.acting_accessor] at hsame
  refine (hsame.poolNat ..).trans (State.poolNat_setPoolNat ?_ o.xw.isLt (fun j hj => (hreads.reservedByte ..).trans (hfree j hj)) ?_)
  · unfold Queue.entryAddr
    omega
  · rw [hreads.kidx, hreads.keyAllows]
    exact hallows

/-- The state with the oldest entry of a queue taken (R225). -/
def State.taking (s : State) (l : Loc) (o : Opd) : State :=
  let q := (s.core l.core).queue o.xw.toNat
  let s1 := s.setQueue l.core o.xw.toNat { q with head := (q.head + 1) % q.capacity, count := q.count - 1, stamps := q.stamps.drop 1 }
  match q.stamps with
  | st :: _ => s1.acquireStamp l st
  | [] => s1

theorem semQget_act (s : State) (l : Loc) (o : Opd) : semQget.act s l o =
    ((s.taking l o).startLong l o none).2.deliverLong l (s.taking l o).opId 3
      (some (.word (BitVec.ofNat 64 (s.poolNat l.core (s.accessor l) (((s.core l.core).queue o.xw.toNat).entryAddr 0) 8)))) := rfl

/-- A value is delivered from a state with the same context and memory (R31). -/
theorem State.Delivers.of_same {u : State} {lat : Nat} {v : Option Value} (hfin : (s.ctx l).fin = none) (hctx : u.ctx l = s.ctx l)
    (hcycle : (u.core l.core).cycle = (s.core l.core).cycle) (hid : u.opId = s.opId) (hsame : SameMemory u s) :
    s.Delivers l o none lat v ((u.startLong l o none).2.deliverLong l u.opId lat v) :=
  .of_acquired (f := id) (fun w => ⟨w.acquired, rfl⟩) hfin (hctx.trans (Ctx.onView_self ..).symm) hcycle hid hsame

/-- A value is delivered after the acquire of a stamp (R31, R324). -/
theorem State.Delivers.of_stamp {u : State} {lat : Nat} {v : Option Value} {st : Nat × Nat} {c : List Credit} (hfin : (s.ctx l).fin = none)
    (hctx : u.ctx l = s.ctx l) (hcycle : (u.core l.core).cycle = (s.core l.core).cycle) (hid : u.opId = s.opId) (hsame : SameMemory u s) :
    let t : State := { (u.acquireStamp l st) with credits := c }
    s.Delivers l o none lat v ((t.startLong l o none).2.deliverLong l t.opId lat v) := by
  obtain ⟨f, hf, hacq⟩ := State.acquireStamp_ctx u l st
  refine .of_acquired hf hfin (Eq.trans hacq (by rw [hctx])) ?_ hid ⟨hsame.mem, hsame.poison, hsame.lineKey, hsame.lineMeta, hsame.tags,
    hsame.granules, hsame.keys, hsame.pavs⟩
  change ((u.acquireStamp l st).core l.core).cycle = _
  rw [State.acquireStamp, State.onView, State.core_setCtx, Core.setCtx_cycle, hcycle]

theorem State.setQueue_cycle (s : State) (c n : Nat) (q : Queue) : ((s.setQueue c n q).core c).cycle = (s.core c).cycle := by
  rw [State.setQueue, State.core_setCore]

theorem State.setQueue_ctx (s : State) (c n : Nat) (q : Queue) (m : Loc) : (s.setQueue c n q).ctx m = s.ctx m :=
  State.setCore_ctx_of_ctxs (by rfl) m

theorem State.taking_delivers (hfin : (s.ctx l).fin = none) (lat : Nat) (v : Option Value) :
    s.Delivers l o none lat v (((s.taking l o).startLong l o none).2.deliverLong l (s.taking l o).opId lat v) := by
  unfold State.taking
  dsimp only
  split
  · exact .of_stamp hfin (State.setQueue_ctx ..) (State.setQueue_cycle ..) rfl ⟨rfl, rfl, rfl, rfl, rfl, rfl, rfl, rfl⟩
  · exact .of_same hfin (State.setQueue_ctx ..) (State.setQueue_cycle ..) rfl ⟨rfl, rfl, rfl, rfl, rfl, rfl, rfl, rfl⟩

theorem State.taking_queue (s : State) (l : Loc) (o : Opd) :
    let q := (s.core l.core).queue o.xw.toNat
    (((s.taking l o).core l.core).queues.getD o.xw.toNat .reset) =
      { q with head := (q.head + 1) % q.capacity, count := q.count - 1, stamps := q.stamps.drop 1 } := by
  intro q
  unfold State.taking
  dsimp only
  split
  · rw [State.acquireStamp, State.onView, State.core_setCtx, Core.setCtx_queues]
    exact Core.queue_setQueue ..
  · exact Core.queue_setQueue ..

/-- A QGET takes the oldest entry, with its value on its way (R225). -/
theorem exec_qget (hr : s.ready l i o) (hp : (s.take l).passes l o) (hx : (s.ctx l).straight) (hop : o.op = .qget) :
    let n := o.xw.toNat
    let q := (s.core l.core).queues.getD n .reset
    ∃ t, exec i s = .next t ∧
      let r := (t.core l.core).queues.getD n .reset
      r.count = q.count - 1 ∧ r.head = (q.head + 1) % 2 ^ q.lcap ∧ r.base8 = q.base8 ∧ r.lcap = q.lcap ∧ r.owner = q.owner ∧
        (t.ctx l).landings.find? s.opId = some ⟨(s.core l.core).cycle + 4,
          some (.word (BitVec.ofNat 64 (s.poolNat l.core (s.accessor l) (8 * q.base8 + 8 * (q.head % 2 ^ q.lcap)) 8))), none⟩ ∧
        ∃ p ∈ (t.ctx l).cur.pending, p.id = s.opId ∧ p.dest = o.dest := by
  intro n q
  have hsem := opSem_qget_of hop
  have hcrw : o.op ≠ .crw := by rw [hop]; decide
  have hfin : ((s.acting l).ctx l).fin = none := by rw [State.acting_ctx]; exact hx.2.1
  have hvalue : (s.acting l).poolNat l.core ((s.acting l).accessor l) ((((s.acting l).core l.core).queue o.xw.toNat).entryAddr 0) 8 =
      s.poolNat l.core (s.accessor l) (8 * q.base8 + 8 * (q.head % 2 ^ q.lcap)) 8 := by
    rw [(State.SameReads.acting s l).poolNat, State.acting_accessor, (State.Issuing.acting s l).queue]
    rfl
  have hact := semQget_act (s.acting l) l o
  rw [hvalue, ← hsem] at hact
  obtain ⟨hexec, hland, hpend⟩ := exec_delivering hr hp hx hcrw (by rw [hsem]; rfl) (by rw [hsem]; rfl) hact
    (State.taking_delivers hfin 3 _)
  refine ⟨_, hexec, ?_⟩
  obtain ⟨x, hcore⟩ := State.completed_core (s := s) (t := ((((s.acting l).taking l o).startLong l o none).2.deliverLong l
    ((s.acting l).taking l o).opId 3 (some (.word (BitVec.ofNat 64 (s.poolNat l.core (s.accessor l) (8 * q.base8 + 8 * (q.head % 2 ^ q.lcap)) 8))))))
    (l := l) hcrw
  obtain ⟨y, hcore'⟩ := State.deliverLong_startLong_core ((s.acting l).taking l o) l o ((s.acting l).taking l o).opId 3
    (some (.word (BitVec.ofNat 64 (s.poolNat l.core (s.accessor l) (8 * q.base8 + 8 * (q.head % 2 ^ q.lcap)) 8))))
  have hqueue := State.taking_queue (s.acting l) l o
  dsimp only at hqueue ⊢
  rw [hcore, hcore', Core.setCtx_queues, Core.setCtx_queues, hqueue, (State.Issuing.acting s l).queue]
  exact ⟨rfl, rfl, rfl, rfl, rfl, hland, hpend⟩

/-! ### Ring messages (R226, R369) -/

/-- The message that an RPUT sends (R226). -/
def State.ringMessage (s : State) (l : Loc) (o : Opd) (dst : Nat) : RingMsg :=
  { id := s.opId, src := l.core, dst := dst, dir := bits o.b 0 0, ch := bits o.b 3 1, data := o.xw, vd := (s.accessor l).vd, waiting := dst != l.core,
    held := crossesBridge l.core dst (bits o.b 0 0), stamp := s.stampOf l
    wait := 1 + if crossesBridge l.core dst (bits o.b 0 0) then bridgeTime l.core (bits o.b 0 0) else ringTime l.core dst (bits o.b 0 0) }

/-- The state with a message sent and its credit spent (R226). -/
def State.sending (s : State) (l : Loc) (o : Opd) (dst : Nat) : State :=
  let k := s.core l.core
  let key := 8 * bits o.b 0 0 + bits o.b 3 1
  ({ s with opId := s.opId + 1, messages := s.messages ++ [s.ringMessage l o dst] } : State).setCore l.core
    { k with spent := k.spent.set key (k.spent.getD key 0 + 1) }

theorem semRput_act (s : State) (l : Loc) (o : Opd) : semRput.act s l o =
    match s.neighbour (s.accessor l).pav l.core (bits o.b 0 0) with
    | none => s.result l o 2 (.word 1)
    | some dst =>
      if (s.core l.core).spent.getD (8 * bits o.b 0 0 + bits o.b 3 1) 0 ≥ 16 then s.result l o 2 (.word 1)
      else ((s.sending l o dst).release l).result l o 2 (.word 0) := rfl

theorem State.sending_ctx (s : State) (l : Loc) (o : Opd) (dst : Nat) : (s.sending l o dst).ctx l = s.ctx l :=
  State.setCore_ctx_of_ctxs (s := { s with opId := s.opId + 1, messages := s.messages ++ [s.ringMessage l o dst] }) (by rfl) l

/-- An RPUT without a neighbour or without a credit gives 1 (R226). -/
theorem exec_rput_refused (hr : s.ready l i o) (hp : (s.take l).passes l o) (hop : o.op = .rput)
    (h : s.neighbour (s.accessor l).pav l.core (bits o.b 0 0) = none ∨ 16 ≤ (s.core l.core).spent.getD (8 * bits o.b 0 0 + bits o.b 3 1) 0) :
    exec i s = .next (s.fixedNext l o 2 (o.resultEffs (.word 1) none)) := by
  have hsem := opSem_rput_of hop
  refine exec_refuses hr hp (by rw [hop]; decide) (by rw [hsem]; rfl) (by rw [hsem]; rfl) ?_
  rw [hsem, semRput_act, State.acting_accessor, (State.Issuing.acting s l).neighbour, (State.Issuing.acting s l).spent]
  obtain h | h := h
  · rw [h]
    rfl
  · split
    · rfl
    · exact if_pos h

/-- An RPUT with a neighbour and a credit sends its message (R226). -/
theorem exec_rput (hr : s.ready l i o) (hp : (s.take l).passes l o) (hx : (s.ctx l).straight) (hop : o.op = .rput) {dst : Nat}
    (hdst : s.neighbour (s.accessor l).pav l.core (bits o.b 0 0) = some dst)
    (hcredit : (s.core l.core).spent.getD (8 * bits o.b 0 0 + bits o.b 3 1) 0 < 16) :
    ∃ x, exec i s = .next (((s.acting l).sending l o dst).setCtx l x) ∧ Spec.nextBundle (s.ctx l) x (o.resultEffs (.word 0) none) := by
  have hsem := opSem_rput_of hop
  have hact : (opSem o.op).act (s.acting l) l o = (((s.acting l).sending l o dst).release l).result l o 2 (.word 0) := by
    rw [hsem, semRput_act, State.acting_accessor, (State.Issuing.acting s l).neighbour, (State.Issuing.acting s l).spent, hdst]
    exact if_neg (Nat.not_le.2 hcredit)
  obtain ⟨x, hexec, -, hnext⟩ := exec_releases hr hp hx (by rw [hop]; decide) (by rw [hsem]; rfl) (by rw [hsem]; rfl) hact
    ((State.sending_ctx ..).trans (State.acting_ctx s l))
  exact ⟨x, hexec, hnext⟩

/-- The state with the oldest message of a ring queue taken and its credit on its way back (R226, R369). -/
def State.receiving (s : State) (l : Loc) (key : Nat) (m : RingMsg) (rest : List RingMsg) : State :=
  let k := s.core l.core
  let s1 := s.setCore l.core { k with ring := k.ring.set key rest }
  if m.src = 128 then s1
  else { (s1.acquireStamp l m.stamp) with credits := s1.credits ++ [⟨m.src, m.dir, m.ch, 1 + ringTime m.src l.core m.dir⟩] }

theorem semRget_act {s : State} {l : Loc} {o : Opd} {m : RingMsg} {rest : List RingMsg}
    (h : (s.core l.core).ring.getD (8 * bits o.xw 0 0 + bits o.xw 3 1) [] = m :: rest) : semRget.act s l o =
      ((s.receiving l (8 * bits o.xw 0 0 + bits o.xw 3 1) m rest).startLong l o none).2.deliverLong l
        (s.receiving l (8 * bits o.xw 0 0 + bits o.xw 3 1) m rest).opId 3 (some (.word m.data)) := by
  unfold semRget
  dsimp only
  rw [h]
  rfl

theorem State.receiving_delivers {key : Nat} {m : RingMsg} {rest : List RingMsg} (hfin : (s.ctx l).fin = none) (lat : Nat) (v : Option Value) :
    s.Delivers l o none lat v
      (((s.receiving l key m rest).startLong l o none).2.deliverLong l (s.receiving l key m rest).opId lat v) := by
  have hctx : (s.setCore l.core { s.core l.core with ring := (s.core l.core).ring.set key rest }).ctx l = s.ctx l :=
    State.setCore_ctx_of_ctxs (by rfl) l
  have hcycle : ((s.setCore l.core { s.core l.core with ring := (s.core l.core).ring.set key rest }).core l.core).cycle =
      (s.core l.core).cycle := by rw [State.core_setCore]
  unfold State.receiving
  dsimp only
  split
  · exact .of_same hfin hctx hcycle rfl ⟨rfl, rfl, rfl, rfl, rfl, rfl, rfl, rfl⟩
  · exact .of_stamp hfin hctx hcycle rfl ⟨rfl, rfl, rfl, rfl, rfl, rfl, rfl, rfl⟩

theorem State.receiving_ring (s : State) (l : Loc) (key : Nat) (m : RingMsg) (rest : List RingMsg) :
    (((s.receiving l key m rest).core l.core).ring.getD key []) = rest := by
  have hcore : ((s.setCore l.core { s.core l.core with ring := (s.core l.core).ring.set key rest }).core l.core).ring.getD key [] = rest := by
    rw [State.core_setCore]
    exact Table.getD_set_self ..
  unfold State.receiving
  dsimp only
  split
  · exact hcore
  · change (((State.acquireStamp _ _ _).core l.core).ring.getD key []) = rest
    rw [State.acquireStamp, State.onView, State.core_setCtx, Core.setCtx_ring]
    exact hcore

/-- An RGET takes the oldest message, with its value on its way (R226). -/
theorem exec_rget (hr : s.ready l i o) (hp : (s.take l).passes l o) (hx : (s.ctx l).straight) (hop : o.op = .rget) {m : RingMsg}
    {rest : List RingMsg} (hring : (s.core l.core).ring.getD (8 * bits o.xw 0 0 + bits o.xw 3 1) [] = m :: rest) :
    ∃ t, exec i s = .next t ∧ (t.core l.core).ring.getD (8 * bits o.xw 0 0 + bits o.xw 3 1) [] = rest ∧
      t.credits = ((s.acting l).receiving l (8 * bits o.xw 0 0 + bits o.xw 3 1) m rest).credits ∧
      (t.ctx l).landings.find? s.opId = some ⟨(s.core l.core).cycle + 4, some (.word m.data), none⟩ ∧
      ∃ p ∈ (t.ctx l).cur.pending, p.id = s.opId ∧ p.dest = o.dest := by
  have hsem := opSem_rget_of hop
  have hcrw : o.op ≠ .crw := by rw [hop]; decide
  have hfin : ((s.acting l).ctx l).fin = none := by rw [State.acting_ctx]; exact hx.2.1
  have hact := semRget_act (s := s.acting l) (o := o) (by rw [(State.Issuing.acting s l).ring]; exact hring)
  rw [← hsem] at hact
  obtain ⟨hexec, hland, hpend⟩ := exec_delivering hr hp hx hcrw (by rw [hsem]; rfl) (by rw [hsem]; rfl) hact
    (State.receiving_delivers hfin 3 _)
  refine ⟨_, hexec, ?_, State.completed_credits hcrw, hland, hpend⟩
  obtain ⟨x, hcore⟩ := State.completed_core (s := s) (l := l) hcrw (t := (((s.acting l).receiving l (8 * bits o.xw 0 0 + bits o.xw 3 1) m rest).startLong l o
    none).2.deliverLong l ((s.acting l).receiving l (8 * bits o.xw 0 0 + bits o.xw 3 1) m rest).opId 3 (some (.word m.data)))
  obtain ⟨y, hcore'⟩ := State.deliverLong_startLong_core ((s.acting l).receiving l (8 * bits o.xw 0 0 + bits o.xw 3 1) m rest) l o
    ((s.acting l).receiving l (8 * bits o.xw 0 0 + bits o.xw 3 1) m rest).opId 3 (some (.word m.data))
  rw [hcore, hcore', Core.setCtx_ring, Core.setCtx_ring]
  exact State.receiving_ring ..

end

end Sys2Proof.Machine

namespace Sys2Proof.Machine

/-! ### Launches (R228) -/

section
variable {i : Instr} {s : State} {l : Loc} {o : Opd}

/-- The entry that a LAUNCH reserves (R228). -/
def State.launchEntry (s : State) (l : Loc) (o : Opd) : Launch :=
  { id := s.opId, queue := o.b.toNat, record := none, tagged := false, stamp := some (s.stampOf l), core := l.core,
    ctx := l.ctx, addr := BitVec.ofNat 64 o.xc.base, walk := none }

/-- The state with an entry reserved (R228). -/
def State.launching (s : State) (l : Loc) (o : Opd) : State :=
  let a := s.accessor l
  let d := s.dev a.pav a.vd
  ({ s with opId := s.opId + 1 } : State).setDev a.pav a.vd { d with launches := d.launches ++ [s.launchEntry l o] }

theorem semLaunch_act (s : State) (l : Loc) (o : Opd) : semLaunch.act s l o =
    if s.storeFull (s.accessor l).pav (s.accessor l).vd then s.after l o 2 (.launchFull :: o.resultEffs (.word 1) none)
    else ((s.launching l o).release l).result l o 2 (.word 0) := rfl

theorem State.Issuing.storeFull_acting (s : State) (l : Loc) :
    (s.acting l).storeFull ((s.acting l).accessor l).pav ((s.acting l).accessor l).vd = s.storeFull (s.accessor l).pav (s.accessor l).vd := by
  rw [State.acting_accessor, (State.Issuing.acting s l).storeFull]

/-- A LAUNCH without a free entry gives 1 and is counted (R228). -/
theorem exec_launch_full (hr : s.ready l i o) (hp : (s.take l).passes l o) (hop : o.op = .launch)
    (hfull : s.storeFull (s.accessor l).pav (s.accessor l).vd = true) :
    exec i s = .next (s.fixedNext l o 2 (.launchFull :: o.resultEffs (.word 1) none)) := by
  have hsem := opSem_launch_of hop
  refine exec_refuses hr hp (by rw [hop]; decide) (by rw [hsem]; rfl) (by rw [hsem]; rfl) ?_
  rw [hsem, semLaunch_act, State.Issuing.storeFull_acting, if_pos hfull]

/-- A LAUNCH with a free entry reserves it (R228). -/
theorem exec_launch (hr : s.ready l i o) (hp : (s.take l).passes l o) (hx : (s.ctx l).straight) (hop : o.op = .launch)
    (hfree : s.storeFull (s.accessor l).pav (s.accessor l).vd = false) :
    ∃ x, exec i s = .next (((s.acting l).launching l o).setCtx l x) ∧ Spec.nextBundle (s.ctx l) x (o.resultEffs (.word 0) none) := by
  have hsem := opSem_launch_of hop
  have hact : (opSem o.op).act (s.acting l) l o = (((s.acting l).launching l o).release l).result l o 2 (.word 0) := by
    rw [hsem, semLaunch_act, State.Issuing.storeFull_acting, if_neg (by rw [hfree]; exact Bool.false_ne_true)]
  obtain ⟨x, hexec, -, hnext⟩ := exec_releases hr hp hx (by rw [hop]; decide) (by rw [hsem]; rfl) (by rw [hsem]; rfl) hact
    (State.acting_ctx s l)
  exact ⟨x, hexec, hnext⟩

theorem State.launching_launches (s : State) (l : Loc) (o : Opd) (x : Ctx) :
    (((s.launching l o).setCtx l x).dev (s.accessor l).pav (s.accessor l).vd).launches =
      (s.dev (s.accessor l).pav (s.accessor l).vd).launches ++ [s.launchEntry l o] :=
  congrArg Dev.launches (State.dev_setDev ..)

end

/-- A refused launch adds 1 to MEMCNT.LFULL that is not at its most (R208, R228). -/
theorem View.countLaunchFull_memcnt {w : View} (h : w.ctl.memcnt.extractLsb' 32 32 ≠ 0xFFFFFFFF) :
    w.countLaunchFull.ctl.memcnt = w.ctl.memcnt + 0x100000000 := by
  unfold View.countLaunchFull
  dsimp only
  generalize w.ctl.memcnt = x at h
  have hlt : x.toNat < 2 ^ 64 := x.isLt
  have hhigh : x.toNat / 2 ^ 32 ≠ 2 ^ 32 - 1 := by
    intro e
    refine h (BitVec.eq_of_toNat_eq ?_)
    rw [BitVec.extractLsb'_toNat, Nat.shiftRight_eq_div_pow, e]
    rfl
  rw [bits_eq_div_mod, bits_eq_div_mod]
  apply BitVec.eq_of_toNat_eq
  rw [BitVec.toNat_ofNat, BitVec.toNat_add, show (0x100000000 : Word).toNat = 2 ^ 32 from rfl]
  generalize x.toNat = n at hlt hhigh
  norm_num only at hlt hhigh ⊢
  omega

theorem View.readReg_countLaunchFull (w : View) (f : RFile) (n : Nat) : w.countLaunchFull.readReg f n = w.readReg f n := by
  have h (x : Word) : ({ w with ctl := { w.ctl with memcnt := x } } : View).readReg f n = w.readReg f n := by
    cases f <;> rfl
  exact h _

/-! ### The statement -/

theorem State.receiving_credits {s : State} {l : Loc} {key : Nat} {m : RingMsg} {rest : List RingMsg} (h : m.src ≠ 128) :
    (s.receiving l key m rest).credits = s.credits ++ [⟨m.src, m.dir, m.ch, 1 + ringTime m.src l.core m.dir⟩] := by
  unfold State.receiving
  dsimp only
  rw [if_neg h]
  rfl

theorem State.receiving_credits_port {s : State} {l : Loc} {key : Nat} {m : RingMsg} {rest : List RingMsg} (h : m.src = 128) :
    (s.receiving l key m rest).credits = s.credits := by
  unfold State.receiving
  dsimp only
  rw [if_pos h]
  rfl

theorem queueOperationsMoveTheirEntries : Spec.QueueOperationsMoveTheirEntries := by
  unfold Spec.QueueOperationsMoveTheirEntries
  intro i s l o hr hp hx a k landing refused
  refine ⟨fun hop => ?_, fun hop => ?_, fun hop => ?_, fun hop => ?_⟩
  · intro n q place
    refine ⟨fun hfull => exec_qput_full hr hp hop hfull, fun hroom => ?_⟩
    obtain ⟨x, hexec, hregion, hnext⟩ := exec_qput hr hp hx hop hroom
    refine ⟨_, hexec, ?_⟩
    have hqueue : ((((s.acting l).appended l o).setCtx l x).core l.core).queues.getD n .reset =
        { q with count := q.count + 1, stamps := q.stamps ++ [(s.acting l).stampOf l] } := by
      rw [State.core_setCtx, Core.setCtx_queues, State.appended, (State.Issuing.acting s l).queue]
      exact Core.queue_setQueue ..
    dsimp only
    rw [hqueue, State.ctx_setCtx, (State.SameSectors.setCtx _ _ _).poolNat]
    exact ⟨rfl, rfl, rfl, rfl, rfl, hregion, hnext, State.appended_poolNat⟩
  · exact exec_qget hr hp hx hop
  · intro dir ch used
    have hdir : bits o.b 0 0 = dir := bits_eq_toNat_extractLsb' ..
    have hch : bits o.b 3 1 = ch := bits_eq_toNat_extractLsb' ..
    refine ⟨fun h => exec_rput_refused hr hp hop (by rw [hdir, hch]; exact h), fun dst hdst hcredit => ?_⟩
    obtain ⟨x, hexec, hnext⟩ := exec_rput hr hp hx hop (by rw [hdir]; exact hdst) (by rw [hdir, hch]; exact hcredit)
    refine ⟨_, (s.acting l).ringMessage l o dst, hexec, ?_, State.acting_opId s l, rfl, rfl, hdir, hch, rfl, ?_, ?_⟩
    · exact congrArg (· ++ _) (State.Issuing.acting s l).messages
    · rw [State.core_setCtx, Core.setCtx_spent, State.sending, State.core_setCore, ← hdir, ← hch]
      dsimp only
      rw [Table.getD_set_self, (State.Issuing.acting s l).spent, hdir, hch]
    · rw [State.ctx_setCtx]
      exact hnext
  · intro key m rest hring
    have hkey : 8 * bits o.xw 0 0 + bits o.xw 3 1 = key := by
      rw [bits_eq_toNat_extractLsb', bits_eq_toNat_extractLsb']
    obtain ⟨t, hexec, hrest, hcredits, hland, hpend⟩ := exec_rget hr hp hx hop (by rw [hkey]; exact hring)
    rw [hkey] at hrest hcredits
    have hold := (State.Issuing.acting s l).credits
    refine ⟨t, ⟨m.src, m.dir, m.ch, 1 + ringTime m.src l.core m.dir⟩, hexec, hrest, fun hsrc => ⟨?_, rfl, rfl, rfl⟩, fun hsrc => ?_, hland, hpend⟩
    · rw [hcredits, State.receiving_credits hsrc, hold]
    · rw [hcredits, State.receiving_credits_port hsrc, hold]

theorem launchReservesAnEntryOrCounts : Spec.LaunchReservesAnEntryOrCounts := by
  unfold Spec.LaunchReservesAnEntryOrCounts
  intro i s l o hr hp hx hop a d lstore free
  have hiff : s.storeFull a.pav a.vd = false ↔ free := State.storeFull_eq_false_iff s a.pav a.vd
  refine ⟨fun hfree => ?_, fun hfull => ?_, fun w h => ⟨fun hmost => View.countLaunchFull_memcnt hmost, fun f j => View.readReg_countLaunchFull w f j⟩⟩
  · obtain ⟨x, hexec, hnext⟩ := exec_launch hr hp hx hop (hiff.2 hfree)
    have hlaunches := State.launching_launches (s.acting l) l o x
    rw [State.acting_accessor, (State.Issuing.acting s l).launches] at hlaunches
    exact ⟨_, hexec, by rw [State.ctx_setCtx]; exact hnext, _, hlaunches, State.acting_opId s l, rfl, rfl, rfl, rfl, rfl⟩
  · exact exec_launch_full hr hp hop (by
      cases hfull' : s.storeFull (s.accessor l).pav (s.accessor l).vd with
      | true => rfl
      | false => exact absurd (hiff.1 hfull') hfull)

/-- Settles O40: an operation that moves an entry, a message or a launch leaves one state whose parts are read off; the acting state differs from
the row's own in what the issue of a bundle changes alone. -/
theorem queueRingAndLaunchOperationsComplete : Obligations.QueueRingAndLaunchOperationsComplete :=
  ⟨queueOperationsMoveTheirEntries, launchReservesAnEntryOrCounts⟩

end Sys2Proof.Machine

/-! # Copies that queue, templates, and the stream banks (O39) -/

namespace Sys2Proof.Machine

/-! ### The templates (R210) -/

theorem opSem_twr_of {o : Opd} (hop : o.op = .twr) : opSem o.op = semTwr := (congrArg opSem hop).trans opSem_twr
theorem opSem_copy_of {o : Opd} (hop : o.op = .copy) : opSem o.op = semCopy := (congrArg opSem hop).trans opSem_copy
theorem opSem_qsel_of {o : Opd} (hop : o.op = .qsel) : opSem o.op = semQsel := (congrArg opSem hop).trans opSem_qsel

/-- A template with a slot written by a program (R210, R211). -/
def Template.written (u : Template) (prog : Option Nat) (j : Nat) (c : Cap) : Template :=
  ⟨if u.owner.isNone then prog else u.owner, u.slots.set j c⟩

theorem Template.written_owner (u : Template) (prog : Option Nat) (j : Nat) (c : Cap) :
    (u.written prog j c).owner = if u.owner = none then prog else u.owner := by
  unfold Template.written
  cases u.owner <;> rfl

/-- The state with a slot of a template written. -/
def State.templated (s : State) (l : Loc) (o : Opd) : State :=
  let k := s.core l.core
  s.setCore l.core
    { k with templates := k.templates.set (bits o.c 8 3) ((k.template (bits o.c 8 3)).written (s.progOf l) (bits o.c 2 0) o.xc) }

theorem semTwr_act (s : State) (l : Loc) (o : Opd) : semTwr.act s l o = s.templated l o := rfl

theorem State.templated_templates (s : State) (l : Loc) (o : Opd) : ((s.templated l o).core l.core).templates =
    (s.core l.core).templates.set (bits o.c 8 3)
      (((s.core l.core).templates.getD (bits o.c 8 3) .reset).written (s.progOf l) (bits o.c 2 0) o.xc) := by
  rw [State.templated, State.core_setCore]
  rfl

theorem State.templated_ctx (s : State) (l : Loc) (o : Opd) : (s.templated l o).ctx l = s.ctx l :=
  State.setCore_ctx_of_ctxs (by rfl) l

theorem State.Issuing.templates {s t : State} (h : s.Issuing t) (c : Nat) : (t.core c).templates = (s.core c).templates := by
  obtain ⟨_, _, _, -, hc⟩ := h.core c
  rw [hc]

theorem State.Issuing.copies {s t : State} (h : s.Issuing t) (c : Nat) :
    (t.core c).cp0q = (s.core c).cp0q ∧ (t.core c).cp1q = (s.core c).cp1q := by
  obtain ⟨_, _, _, -, hc⟩ := h.core c
  rw [hc]
  exact ⟨rfl, rfl⟩

section
variable {i : Instr} {s : State} {l : Loc} {o : Opd}

/-- TWR completes with its slot written (R210). -/
theorem exec_twr (hr : s.ready l i o) (hp : (s.take l).passes l o) (hop : o.op = .twr) :
    ∃ t, exec i s = .next t ∧ (t.core l.core).templates = (s.core l.core).templates.set (o.c.extractLsb' 3 6).toNat
      (((s.core l.core).templates.getD (o.c.extractLsb' 3 6).toNat .reset).written (s.progOf l) (o.c.extractLsb' 0 3).toNat o.xc) := by
  have hsem := opSem_twr_of hop
  have hcrw : o.op ≠ .crw := by rw [hop]; decide
  have hexec := exec_completes hr hp (by rw [hsem]; rfl) (by rw [hsem]; rfl)
    (u := (s.acting l).templated l o) (by rw [hsem]; rfl) (by rw [State.templated_ctx, State.acting_ctx]; rfl)
  obtain ⟨x, hcore⟩ := State.completed_core (s := s) (t := (s.acting l).templated l o) (l := l) hcrw
  refine ⟨_, hexec, ?_⟩
  rw [hcore, Core.setCtx_templates, State.templated_templates, (State.Issuing.acting s l).templates, State.acting_progOf,
    bits_eq_toNat_extractLsb', bits_eq_toNat_extractLsb']

end

/-! ### A copy that joins its channel (R215) -/

/-- What a context keeps when tiles change and copies leave its stream banks. -/
def Ctx.SameButCopies (x y : Ctx) : Prop := ∃ tiles qa qb, y = { x with tiles := tiles, qa := qa, qb := qb }

theorem Ctx.SameButCopies.refl (x : Ctx) : x.SameButCopies x := ⟨_, _, _, rfl⟩

theorem Ctx.SameButCopies.trans {x y z : Ctx} (h : x.SameButCopies y) (h' : y.SameButCopies z) : x.SameButCopies z := by
  obtain ⟨_, _, _, rfl⟩ := h
  obtain ⟨_, _, _, rfl⟩ := h'
  exact ⟨_, _, _, rfl⟩

theorem Ctx.endBundle_banks (x : Ctx) (lp : Bool) : (x.endBundle lp).qa = x.qa ∧ (x.endBundle lp).qb = x.qb := by
  unfold Ctx.endBundle
  dsimp only
  split
  · exact ⟨rfl, rfl⟩
  · exact ⟨rfl, rfl⟩
  · exact ⟨rfl, rfl⟩
  · split <;> exact ⟨rfl, rfl⟩

theorem State.completed_banks {s u : State} {l : Loc} {o : Opd} (h : o.op ≠ .crw) :
    ((s.completed l o u).ctx l).qa = (u.ctx l).qa ∧ ((s.completed l o u).ctx l).qb = (u.ctx l).qb := by
  rw [State.completed, State.closeBundle_ctx h]
  exact Ctx.endBundle_banks ..

theorem State.setTileStat_ctx_any (s : State) (l m : Loc) (code : Nat) (st : TileStat) :
    ∃ tiles, (s.setTileStat l code st).ctx m = { s.ctx m with tiles := tiles } := by
  unfold State.setTileStat
  split
  · by_cases hm : m = l
    · rw [hm]
      exact ⟨_, State.ctx_setCtx ..⟩
    · exact ⟨_, State.ctx_setCtx_ne _ hm _⟩
  · exact ⟨_, State.setCore_ctx_of_ctxs (by rfl) m⟩

theorem State.enterTiles_ctx (s : State) (l : Loc) (ts : List TileRef) : ∃ tiles, (s.enterTiles l ts).ctx l = { s.ctx l with tiles := tiles } := by
  unfold State.enterTiles
  refine List.foldlRecOn ts.eraseDups _ (motive := fun t : State => ∃ tiles, t.ctx l = { s.ctx l with tiles := tiles }) ⟨_, rfl⟩ fun t h x _ => ?_
  obtain ⟨_, h⟩ := h
  obtain ⟨_, h'⟩ := t.setTileStat_ctx_any l l x.code (x.role.enter (t.tileStat l x.code))
  exact ⟨_, by rw [h', h]⟩

/-- The operation that a COPY queues (R215). -/
def State.copyOp (s : State) (l : Loc) (o : Opd) : CpOp :=
  let img := ((s.core l.core).template (bits o.xw 5 0)).image
  let p := shapeOf img o.b
  let ts := s.copyTiles l p
  { id := s.opId, who := s.who l, image := img, disp := o.b, x := o.xw, src := ts.find? fun t => decide (t.role = .drain),
    dst := ts.find? fun t => decide (t.role = .destination), refused := s.copyRefusal l p img, running := false, ecause := 0,
    flags := 0, bytes := p.plannedBytes (s.sideFmt l p.dkind p.dtile p.dfmt) }

/-- The stream banks with a copy that joins the one that STRM names (R215). -/
def Ctx.streams (x : Ctx) (strm id : Nat) : Ctx :=
  if strm = 1 then { x with qa := x.qa ++ [id] } else if strm = 2 then { x with qb := x.qb ++ [id] } else x

theorem Ctx.streams_banks (x : Ctx) (strm id : Nat) : (x.streams strm id).qa = x.qa ++ (if strm = 1 then [id] else []) ∧
    (x.streams strm id).qb = x.qb ++ (if strm = 2 then [id] else []) ∧ (x.streams strm id).fence = x.fence := by
  unfold Ctx.streams
  by_cases h1 : strm = 1
  · simp [h1]
  · by_cases h2 : strm = 2 <;> simp [h1, h2]

/-- The state with a copy at the tail of its channel and its tiles in their roles (R149, R215). -/
def State.queued (s : State) (l : Loc) (o : Opd) : State :=
  let s1 : State := { s with opId := s.opId + 1 }
  let k := s1.core l.core
  let ch := channelOf o.unit
  (s1.setCore l.core (k.setCopies ch (k.copies ch ++ [s.copyOp l o]))).enterTiles l
    (s.copyTiles l (shapeOf ((s.core l.core).template (bits o.xw 5 0)).image o.b))

/-- The state with a copy queued and in its stream bank. -/
def State.copied (s : State) (l : Loc) (o : Opd) : State :=
  (s.queued l o).setCtx l (((s.queued l o).ctx l).streams (bits o.xw 27 26) s.opId)

theorem semCopy_act (s : State) (l : Loc) (o : Opd) : semCopy.act s l o = s.copied l o := rfl

theorem State.queued_ctx (s : State) (l : Loc) (o : Opd) : ∃ tiles, (s.queued l o).ctx l = { s.ctx l with tiles := tiles } := by
  unfold State.queued
  dsimp only
  obtain ⟨q0, q1, hkeeps⟩ := (State.core { s with opId := s.opId + 1 } l.core).setCopies_keeps (channelOf o.unit)
    ((State.core { s with opId := s.opId + 1 } l.core).copies (channelOf o.unit) ++ [s.copyOp l o])
  obtain ⟨tiles, htiles⟩ := State.enterTiles_ctx (({ s with opId := s.opId + 1 } : State).setCore l.core
    ((State.core { s with opId := s.opId + 1 } l.core).setCopies (channelOf o.unit)
      ((State.core { s with opId := s.opId + 1 } l.core).copies (channelOf o.unit) ++ [s.copyOp l o]))) l
    (s.copyTiles l (shapeOf ((s.core l.core).template (bits o.xw 5 0)).image o.b))
  refine ⟨tiles, htiles.trans ?_⟩
  rw [State.setCore_ctx_of_ctxs (by rw [hkeeps]) l]
  rfl

theorem State.queued_copies (s : State) (l : Loc) (o : Opd) :
    ((s.queued l o).core l.core).copies (channelOf o.unit) = (s.core l.core).copies (channelOf o.unit) ++ [s.copyOp l o] := by
  unfold State.queued
  dsimp only
  rw [(State.OnlyStats.enterTiles _ l _).copies, State.core_setCore, Core.copies_setCopies]
  rfl

theorem State.copied_copies (s : State) (l : Loc) (o : Opd) :
    ((s.copied l o).core l.core).copies (channelOf o.unit) = (s.core l.core).copies (channelOf o.unit) ++ [s.copyOp l o] :=
  (State.copies_setCtx ..).trans (State.queued_copies ..)

theorem State.copied_banks (s : State) (l : Loc) (o : Opd) :
    ((s.copied l o).ctx l).qa = (s.ctx l).qa ++ (if bits o.xw 27 26 = 1 then [s.opId] else []) ∧
      ((s.copied l o).ctx l).qb = (s.ctx l).qb ++ (if bits o.xw 27 26 = 2 then [s.opId] else []) ∧
      ((s.copied l o).ctx l).fence = (s.ctx l).fence := by
  obtain ⟨tiles, hctx⟩ := s.queued_ctx l o
  have hbanks := Ctx.streams_banks ((s.queued l o).ctx l) (bits o.xw 27 26) s.opId
  rw [hctx] at hbanks
  rw [State.copied, State.ctx_setCtx, hctx]
  exact hbanks

theorem Core.copies_channelOf (k : Core) (u : UnitId) : k.copies (channelOf u) = if u = .cp1 then k.cp1q else k.cp0q := by
  unfold channelOf Core.copies
  split <;> rfl

theorem Template.image_getD (k : Core) (n : Nat) :
    (k.template n).image = (List.range 8).map fun j => ((k.templates.getD n .reset).slots.getD j ⟨0, false⟩) := rfl

section
variable {i : Instr} {s : State} {l : Loc} {o : Opd}

/-- COPY completes with its copy queued and its number in the stream bank that STRM names (R215, R219). -/
theorem exec_copy (hr : s.ready l i o) (hp : (s.take l).passes l o) (hop : o.op = .copy) :
    ∃ t, exec i s = .next t ∧
      (t.core l.core).copies (channelOf o.unit) = (s.core l.core).copies (channelOf o.unit) ++ [(s.acting l).copyOp l o] ∧
      (t.ctx l).qa = (s.ctx l).qa ++ (if bits o.xw 27 26 = 1 then [s.opId] else []) ∧
      (t.ctx l).qb = (s.ctx l).qb ++ (if bits o.xw 27 26 = 2 then [s.opId] else []) := by
  have hsem := opSem_copy_of hop
  have hcrw : o.op ≠ .crw := by rw [hop]; decide
  have hact : (opSem o.op).act (s.acting l) l o = (s.acting l).copied l o := by rw [hsem, semCopy_act]
  obtain ⟨hqa, hqb, hfence⟩ := (s.acting l).copied_banks l o
  have hcopies := (s.acting l).copied_copies l o
  rw [State.acting_ctx, State.acting_opId] at hqa hqb
  rw [State.acting_ctx] at hfence
  generalize (s.acting l).copied l o = u at hact hqa hqb hfence hcopies
  obtain ⟨hqa', hqb'⟩ := State.completed_banks (s := s) (u := u) (l := l) hcrw
  obtain ⟨x, hcore⟩ := State.completed_core (s := s) (t := u) (l := l) hcrw
  obtain ⟨h0, h1⟩ := (State.Issuing.acting s l).copies l.core
  refine ⟨_, exec_completes hr hp (by rw [hsem]; rfl) (by rw [hsem]; rfl) hact hfence, ?_, hqa'.trans hqa, hqb'.trans hqb⟩
  rw [hcore]
  refine Eq.trans (b := (u.core l.core).copies (channelOf o.unit)) rfl (hcopies.trans ?_)
  rw [Core.copies, Core.copies, h0, h1]

theorem copyOperationsComplete : Spec.CopyOperationsComplete := by
  unfold Spec.CopyOperationsComplete
  intro i s l o hr hp k
  refine ⟨fun hop => ?_, fun hop => ?_⟩
  · intro strm channel
    have hstrm : bits o.xw 27 26 = strm := bits_eq_toNat_extractLsb' ..
    obtain ⟨t, hexec, hcopies, hqa, hqb⟩ := exec_copy hr hp hop
    rw [Core.copies_channelOf, Core.copies_channelOf] at hcopies
    rw [hstrm] at hqa hqb
    refine ⟨t, (s.acting l).copyOp l o, hexec, hcopies, State.acting_opId s l, rfl, rfl, rfl, ?_, hqa, hqb⟩
    refine (Template.image_getD ..).trans ?_
    rw [(State.Issuing.acting s l).templates, bits_eq_toNat_extractLsb']
  · intro n
    obtain ⟨t, hexec, htemplates⟩ := exec_twr hr hp hop
    refine ⟨t, hexec, ?_⟩
    dsimp only
    rw [htemplates, Table.getD_set_self]
    exact ⟨Table.getD_set_self .., fun j hj => Table.getD_set_ne _ hj .., Template.written_owner .., fun m hm => Table.getD_set_ne _ hm ..⟩

end

end Sys2Proof.Machine

namespace Sys2Proof.Machine

/-! ### Cancellation (R219) -/

/-- Free bytes over a range of the destination side of a copy (R219). -/
def State.putFree (core : Nat) (o : CpOp) (s : State) (h : Int × Int) : State :=
  let p := shapeOf o.image o.disp
  let n := (h.2 - h.1).toNat
  let bs := freeBytes s.freeCtr n
  let s1 : State := { s with freeCtr := s.freeCtr + n }
  if p.dkind = 0 then
    match s1.engineWrite core o.who (Int.ofNat p.dcap.base + h.1).toNat bs with
    | .ok s2 => s2
    | .error _ => s1
  else s1.setPoolBytes core (o.who.accessor core) (s1.ownKey o.who) h.1.toNat bs

theorem State.putFree_onlyPools (core : Nat) (o : CpOp) (s : State) (h : Int × Int) : s.OnlyPools (s.putFree core o h) := by
  have hfree : s.OnlyPools { s with freeCtr := s.freeCtr + (h.2 - h.1).toNat } := .of_cores rfl
  unfold State.putFree
  dsimp only
  split
  · split
    · rename_i hw
      exact hfree.trans (.of_cores (State.cores_of_engineWrite hw))
    · exact hfree
  · exact hfree.trans (.setPoolBytes ..)

/-- Free bytes over a block of a BPI tile and its scale code, counted from a block on. -/
def State.putFreeBlock (core : Nat) (o : CpOp) (d : Word) (first : Nat) (s : State) (i : Nat) : State :=
  let (bank, b) := elemBlock d (32 * (first + i))
  State.putFree core o (State.putFree core o s (Int.ofNat (65536 * bank + 32 * b), Int.ofNat (65536 * bank + 32 * b + 32)))
    (Int.ofNat (65536 * bank + 63488 + b), Int.ofNat (65536 * bank + 63488 + b + 1))

/-- Free bytes over the elements of the destination tile of a copy. -/
def State.putFreeTile (core : Nat) (o : CpOp) (r : TileRef) (s : State) : State :=
  let p := shapeOf o.image o.disp
  match (tuples p.cnt).map fun t => elemNumber r.desc (p.dstPlace t).1 (p.dstPlace t).2 with
  | [] => s
  | e :: rest =>
    let lo := rest.foldl min e
    let hi := rest.foldl max e
    if dEw r.desc = 0 then (List.range (hi / 32 + 1 - lo / 32)).foldl (State.putFreeBlock core o r.desc (lo / 32)) s
    else State.putFree core o s (Int.ofNat (elemAddr r.desc lo), Int.ofNat (elemAddr r.desc hi + dBytes r.desc))

theorem State.scramble_eq (s : State) (core : Nat) (o : CpOp) : s.scramble core o =
    match o.dst with
    | none => ((shapeOf o.image o.disp).dstHulls o.image (shapeOf o.image o.disp).dfmt).foldl (State.putFree core o) s
    | some r => s.putFreeTile core o r := by
  unfold State.scramble
  rcases o.dst with _ | r
  · rfl
  · rfl

/-- The free bytes of a cancelled copy leave every core but for its pool. -/
theorem State.scramble_onlyPools (s : State) (core : Nat) (o : CpOp) : s.OnlyPools (s.scramble core o) := by
  have hput := State.putFree_onlyPools core o
  rw [State.scramble_eq]
  split
  · exact State.OnlyPools.foldl id _ hput _ s
  · unfold State.putFreeTile
    dsimp only
    split
    · exact .refl s
    · split
      · exact State.OnlyPools.foldl id _ (fun s i => (hput s _).trans (hput _ _)) _ s
      · exact hput s _

theorem State.OnlyPools.ctx {s t : State} (h : s.OnlyPools t) (l : Loc) : t.ctx l = s.ctx l := by
  obtain ⟨_, _, hcore⟩ := h.core l.core
  rw [State.ctx, hcore]
  rfl

theorem Core.copies_setCopies_other (k : Core) {ch ch' : Nat} (h : (ch = 0) ≠ (ch' = 0)) (q : List CpOp) :
    (k.setCopies ch q).copies ch' = k.copies ch' := by
  unfold Core.setCopies Core.copies
  by_cases hc : ch = 0 <;> by_cases hc' : ch' = 0 <;> simp_all

/-- What a cancelled copy leaves: its channel without it, the other channel, and every context but for its tiles and stream banks. -/
structure State.Cancelled (s t : State) (c ch : Nat) (gone : CpOp → Bool) : Prop where
  own : (t.core c).copies ch = ((s.core c).copies ch).filter fun p => !gone p
  other : ∀ ch', (ch = 0) ≠ (ch' = 0) → (t.core c).copies ch' = (s.core c).copies ch'
  ctx : ∀ m, (s.ctx m).SameButCopies (t.ctx m)

theorem State.onSide_ctx_any (s : State) (c : Nat) (w : Who) (side : Option TileRef) (f : TileStat → TileStat) (m : Loc) :
    (s.ctx m).SameButCopies ((s.onSide c w side f).ctx m) := by
  have htile (u : State) (code : Nat) : (u.ctx m).SameButCopies ((u.onTile c w code f).ctx m) := by
    unfold State.onTile
    split
    · obtain ⟨_, h⟩ := u.setTileStat_ctx_any ⟨c, w.ctx⟩ m code (f (u.tileStat ⟨c, w.ctx⟩ code))
      exact ⟨_, _, _, h⟩
    · exact .refl _
  unfold State.onSide
  split
  · exact htile ..
  · exact .refl _

theorem State.leaveStreams_ctx (s : State) (c : Nat) (o : CpOp) (m : Loc) : (s.ctx m).SameButCopies ((s.leaveStreams c o).ctx m) := by
  unfold State.leaveStreams
  dsimp only
  by_cases hm : m = ⟨c, o.who.ctx⟩
  · rw [hm, State.ctx_setCtx]
    exact ⟨_, _, _, rfl⟩
  · rw [State.ctx_setCtx_ne _ hm]
    exact .refl _

theorem State.cancelCopy_eq (s : State) (c ch : Nat) (o : CpOp) : s.cancelCopy c ch o =
    (let s0 := if o.refused = 0 then s.scramble c o else s
     let s1 := s0.setCore c ((s0.core c).setCopies ch (((s0.core c).copies ch).filter fun p => p.id != o.id))
     (((s1.onSide c o.who o.dst fun st => { st with state := 0 }).onSide c o.who o.src fun st => { st with state := 2 }).copyArrival c o
        0).leaveStreams c o) := rfl

theorem State.cancelCopy_cancelled (s : State) (c ch : Nat) (o : CpOp) : s.Cancelled (s.cancelCopy c ch o) c ch fun p => p.id == o.id := by
  rw [State.cancelCopy_eq]
  dsimp only
  have hpools : s.OnlyPools (if o.refused = 0 then s.scramble c o else s) := by
    split
    · exact State.scramble_onlyPools ..
    · exact .refl s
  generalize (if o.refused = 0 then s.scramble c o else s) = s0 at hpools
  obtain ⟨q0, q1, hkeeps⟩ := (s0.core c).setCopies_keeps ch (((s0.core c).copies ch).filter fun p => p.id != o.id)
  generalize hs1 : s0.setCore c ((s0.core c).setCopies ch (((s0.core c).copies ch).filter fun p => p.id != o.id)) = s1
  have hcore : s1.core c = (s0.core c).setCopies ch (((s0.core c).copies ch).filter fun p => p.id != o.id) := by rw [← hs1, State.core_setCore]
  have hctx (m : Loc) : s1.ctx m = s.ctx m := by
    rw [← hs1, State.setCore_ctx_of_ctxs (by rw [hkeeps]) m, hpools.ctx]
  have hdst := State.onSide.onlyStats s1 c o.who o.dst fun st => { st with state := 0 }
  have hsrc := State.onSide.onlyStats (s1.onSide c o.who o.dst fun st => { st with state := 0 }) c o.who o.src fun st => { st with state := 2 }
  generalize hs3 : (s1.onSide c o.who o.dst fun st => { st with state := 0 }).onSide c o.who o.src (fun st => { st with state := 2 }) = s3 at hsrc
  have hcopies (ch' : Nat) : (((s3.copyArrival c o 0).leaveStreams c o).core c).copies ch' = (s1.core c).copies ch' := by
    have hstay := State.copyArrival_tilesStay s3 c o 0 ⟨c, o.who.ctx⟩
    exact (State.copies_setCtx _ ⟨c, o.who.ctx⟩ _ ch').trans ((hstay.copies ch').trans ((hdst.trans hsrc).copies ch'))
  refine ⟨?_, fun ch' hne => ?_, fun m => ?_⟩
  · rw [hcopies, hcore, Core.copies_setCopies, hpools.copies]
    rfl
  · rw [hcopies, hcore, Core.copies_setCopies_other _ hne, hpools.copies]
  · refine Ctx.SameButCopies.trans ?_ (State.leaveStreams_ctx ..)
    rw [State.copyArrival_ctx, ← hs3, ← hctx m]
    exact (State.onSide_ctx_any ..).trans (State.onSide_ctx_any ..)

theorem State.Cancelled.trans {s t u : State} {c ch : Nat} {f g : CpOp → Bool} (h : s.Cancelled t c ch f) (h' : t.Cancelled u c ch g) :
    s.Cancelled u c ch fun p => f p || g p where
  own := by
    rw [h'.own, h.own, List.filter_filter]
    refine List.filter_congr fun p _ => ?_
    cases f p <;> cases g p <;> rfl
  other ch' hne := (h'.other ch' hne).trans (h.other ch' hne)
  ctx m := (h.ctx m).trans (h'.ctx m)

theorem State.foldl_cancelCopy (c ch : Nat) (os : List CpOp) (s : State) :
    s.Cancelled (os.foldl (fun s o => s.cancelCopy c ch o) s) c ch fun p => os.any fun o => p.id == o.id := by
  induction os generalizing s with
  | nil => exact ⟨by simp, fun _ _ => rfl, fun _ => .refl _⟩
  | cons o os ih => exact (State.cancelCopy_cancelled s c ch o).trans (ih _)

/-- The copies of a channel with some numbers leave it, and no other. -/
theorem State.cancelIn_cancelled (s : State) (c ch : Nat) (ids : List Nat) : s.Cancelled (s.cancelIn c ch ids) c ch fun p => ids.contains p.id := by
  have h := State.foldl_cancelCopy c ch (((s.core c).copies ch).filter fun o => ids.contains o.id) s
  refine ⟨h.own.trans (List.filter_congr fun p hp => congrArg not ?_), h.other, h.ctx⟩
  rw [Bool.eq_iff_iff, List.any_eq_true]
  constructor
  · rintro ⟨e, he, hid⟩
    rw [eq_of_beq hid]
    exact (List.mem_filter.1 he).2
  · exact fun hin => ⟨p, List.mem_filter.2 ⟨hp, hin⟩, beq_self_eq_true _⟩

theorem State.cancelCopies_core (s : State) (c : Nat) (ids : List Nat) :
    ((s.cancelCopies c ids).core c).cp0q = ((s.core c).cp0q.filter fun p => !ids.contains p.id) ∧
      ((s.cancelCopies c ids).core c).cp1q = (s.core c).cp1q.filter fun p => !ids.contains p.id := by
  have h0 := s.cancelIn_cancelled c 0 ids
  have h1 := (s.cancelIn c 0 ids).cancelIn_cancelled c 1 ids
  refine ⟨(h1.other 0 (by simp)).trans h0.own, h1.own.trans ?_⟩
  rw [h0.other 1 (by simp)]
  rfl

theorem State.cancelCopies_ctx (s : State) (c : Nat) (ids : List Nat) (m : Loc) : (s.ctx m).SameButCopies ((s.cancelCopies c ids).ctx m) :=
  ((s.cancelIn_cancelled c 0 ids).ctx m).trans ((State.cancelIn_cancelled _ c 1 ids).ctx m)

/-! ### QSEL (R219) -/

/-- The numbers of the copies that a QSEL cancels (R219). -/
def Ctx.unselected (x : Ctx) (xw : Word) : List Nat := if truth xw then x.qb else x.qa

/-- The state with one stream bank cancelled, and both empty (R219). -/
def State.selecting (s : State) (l : Loc) (o : Opd) : State :=
  let s1 := s.cancelCopies l.core ((s.ctx l).unselected o.xw)
  s1.setCtx l { s1.ctx l with qa := [], qb := [] }

theorem semQsel_act (s : State) (l : Loc) (o : Opd) : semQsel.act s l o =
    (s.selecting l o).result l o 1 (.word (BitVec.ofNat 64 ((s.ctx l).unselected o.xw).length)) := rfl

theorem State.selecting_ctx (s : State) (l : Loc) (o : Opd) : ∃ tiles, (s.selecting l o).ctx l = { s.ctx l with tiles := tiles, qa := [], qb := [] } := by
  obtain ⟨tiles, qa, qb, h⟩ := s.cancelCopies_ctx l.core ((s.ctx l).unselected o.xw) l
  refine ⟨tiles, ?_⟩
  rw [State.selecting, State.ctx_setCtx, h]

theorem Ctx.unselected_eq (x : Ctx) (xw : Word) : x.unselected xw = if xw = 0 then x.qa else x.qb := by
  unfold Ctx.unselected truth
  by_cases h : xw = 0 <;> simp [h]

theorem opSem_qsel_passes {o : Opd} (hop : o.op = .qsel) (s : State) (l : Loc) : s.passes l o := by
  rw [State.passes, opSem_qsel_of hop]
  exact ⟨rfl, rfl, rfl, rfl⟩

theorem qselCancelsOneStreamBank : Spec.QselCancelsOneStreamBank := by
  unfold Spec.QselCancelsOneStreamBank
  intro i s l o hr hx hop hfl x ids
  have hsem := opSem_qsel_of hop
  have hcrw : o.op ≠ .crw := by rw [hop]; decide
  have hids : ((s.acting l).ctx l).unselected o.xw = ids := by rw [State.acting_ctx]; exact Ctx.unselected_eq ..
  have hact := semQsel_act (s.acting l) l o
  rw [hids, ← hsem] at hact
  obtain ⟨tiles, hsel⟩ := (s.acting l).selecting_ctx l o
  rw [State.acting_ctx] at hsel
  have hcopies := (s.acting l).cancelCopies_core l.core (((s.acting l).ctx l).unselected o.xw)
  rw [hids, ((State.Issuing.acting s l).copies l.core).1, ((State.Issuing.acting s l).copies l.core).2] at hcopies
  have hctx : (((s.acting l).selecting l o).result l o 1 (.word (BitVec.ofNat 64 ids.length))).ctx l =
      { ({ (s.ctx l).unmarked with tiles := tiles, qa := [], qb := [] } : Ctx).onView o.prov fun w =>
        { w with flights := w.flights ++ [⟨(s.ctx l).ctime + 1 - 1, o.s, (s.ctx l).cur.inHandler,
          o.resultEffs (.word (BitVec.ofNat 64 ids.length)) none⟩] } with qa := [], qb := [] } := by
    rw [State.result, State.after, State.fly, State.onView_ctx, hsel]
    rfl
  have hcore : ∃ y, (((s.acting l).selecting l o).result l o 1 (.word (BitVec.ofNat 64 ids.length))).core l.core =
      (((s.acting l).cancelCopies l.core ids).core l.core).setCtx l.ctx y := by
    rw [State.result, State.after, State.fly, State.onView, State.core_setCtx, State.selecting, hids, State.core_setCtx, Core.setCtx_setCtx]
    exact ⟨_, rfl⟩
  generalize ((s.acting l).selecting l o).result l o 1 (.word (BitVec.ofNat 64 ids.length)) = u at hact hctx hcore
  obtain ⟨hqa, hqb⟩ := State.completed_banks (s := s) (u := u) (l := l) hcrw
  obtain ⟨y, hy⟩ := hcore
  obtain ⟨z, hz⟩ := State.completed_core (s := s) (t := u) (l := l) hcrw
  refine ⟨_, exec_completes hr (opSem_qsel_passes hop ..) (by rw [hsem]; rfl) (by rw [hsem]; rfl) hact (by rw [hctx]; rfl),
    hqa.trans (by rw [hctx]), hqb.trans (by rw [hctx]), fun n hd => ?_, ?_, ?_⟩
  · rw [State.completed_straight hx, State.closeBundle_straight hcrw (by rw [hctx]; exact hx.1), hctx]
    exact View.readReg_land_result (fs := (s.ctx l).cur.flights) (due := (s.ctx l).ctime + 1 - 1) (sb := o.s) (hs := (s.ctx l).cur.inHandler)
      (v := .word (BitVec.ofNat 64 ids.length)) (View.increment_flights ..) (Nat.le_refl _) hd
  · rw [hz, hy, Core.setCtx_cp0q, Core.setCtx_cp0q, hcopies.1]
  · rw [hz, hy, Core.setCtx_cp1q, Core.setCtx_cp1q, hcopies.2]

/-- Settles O39: a COPY changes its channel, the tiles of its roles and the stream banks; a TWR one template; and each copy that QSEL cancels
leaves its own channel alone. -/
theorem copyOperationsQueueOrCancel : Obligations.CopyOperationsQueueOrCancel := ⟨copyOperationsComplete, qselCancelsOneStreamBank⟩

end Sys2Proof.Machine

/-! # A row that writes memory without an acceptance (O26) -/

namespace Sys2Proof.Machine

/-- A copy of one byte under two capabilities that cover 0x10000 to 0x10FFF, which context 0 has queued at cp0. -/
def queuedCopy : CpOp where
  id := 5
  who := ⟨0, ⟨0, 1, 1, 1, 7, 7⟩, 0⟩
  image := [Spec.capability 0x10000 0x1000 0x8F 1, Spec.capability 0x10000 0x1000 0x8F 1, ⟨0, false⟩, ⟨0, false⟩, ⟨1, false⟩]
  disp := 0
  x := 0x6000000
  src := none
  dst := none
  refused := 0
  running := false
  ecause := 0
  flags := 0
  bytes := 1

/-- Context 0, which runs with that copy in its stream bank A. -/
def streamingCtx : Ctx :=
  { Ctx.reset with
    mode := .running
    pc := 0x1000
    binding := some ⟨0, 1, 1, 1, 7, 7⟩
    qa := [5]
    cur := { View.reset with ports := [(20, ⟨.reset, .reset, .reset, some ⟨some .s, 2, 0⟩, none⟩)] } }

/-- A package in which it runs, under tables that map the first GiB to itself; the granule at 0x10000 holds a capability. -/
def streaming : State :=
  { State.reset with
    cores := [(0, { Core.reset with running := some 0, cp0q := [queuedCopy], ctxs := [(0, streamingCtx)] })]
    pavs := [(0, { Pav.reset with
      formed := true, nvf := 1, cores := [0], s2root := 0x1000
      devs := [(1, { Dev.reset with vdcfg := 0x200000203, s1root := 0x3000 })] })]
    mem := [(0x1000, 0x01), (0x1001, 0x20), (0x2000, 0x0F), (0x2006, 0x01), (0x3000, 0x01), (0x3001, 0x40), (0x4000, 0x01), (0x4001, 0x50),
      (0x5000, 0x0F)]
    tags := [(0x1000, true)]
    lineKey := [(0xC0, 1), (0x100, 1), (0x140, 1), (0x400, 1)]
    granules := [(0, 0)]
    keys := [(1, ⟨0, 1, 1, true⟩)]
    keySerial := 2 }

/-- The QSEL that selects the other stream bank cancels the copy, and free bytes at its destination take the tag there (R101, R219). -/
theorem exec_qsel_streaming : ∃ t, exec (.qsel ⟨6, 0, false, true, .reg .s 1⟩) streaming = .next t ∧ t.tags = [] := by
  have h : (match exec (.qsel ⟨6, 0, false, true, .reg .s 1⟩) streaming with | .next t => decide (t.tags = []) | _ => false) = true := by decide
  split at h
  · exact ⟨_, ‹_›, of_decide_eq_true h⟩
  all_goals cases h

/-- Refutes O26: a QSEL writes memory as it issues. It cancels the copies of a stream bank, and the destination of a cancelled copy becomes free
bytes (R219), so that a tag that stood there is gone (R101), with no acceptance. -/
theorem not_rowsLeaveMemoryUntilAcceptance : ¬ Obligations.RowsLeaveMemoryUntilAcceptance := by
  unfold Obligations.RowsLeaveMemoryUntilAcceptance
  intro h
  obtain ⟨t, hexec, htags⟩ := exec_qsel_streaming
  obtain ⟨-, hkept, -⟩ := h _ streaming t _ _ _ rfl hexec
  exact absurd (htags.symm.trans hkept) (by decide)

end Sys2Proof.Machine

/-! # A release in a context of two views (O37) -/

namespace Sys2Proof.Machine

/-- Context 0, which runs with a branch at a count that no bundle leaves (3), and with what stays when that branch resolves in region 5. -/
def strayCtx : Ctx :=
  { Ctx.reset with
    mode := .running
    pc := 0x1000
    binding := some ⟨0, 1, 1, 1, 7, 7⟩
    branch := some (3, 0x1000)
    cur := { View.reset with s := [(1, 40)] }
    fin := some { View.reset with region := 5 } }

/-- A package in which it runs; its program holds bank 40. -/
def stray : State :=
  { State.reset with cores := [(0, { Core.reset with running := some 0, claims := [⟨7, 40, true, .held, []⟩], ctxs := [(0, strayCtx)] })] }

/-- The operands of a BREL of bank 40 there. -/
def strayBrel : Opd := ⟨6, .ls0, .brel, false, false, .word 40, none, none, none, none, 0⟩

theorem stray_ready : stray.ready ⟨0, 0⟩ (.brelLs0 ⟨6, 0, false, true, .reg .s 1⟩) strayBrel := by decide

theorem stray_passes : (stray.take ⟨0, 0⟩).passes ⟨0, 0⟩ strayBrel := by decide

theorem exec_stray : ∃ t, exec (.brelLs0 ⟨6, 0, false, true, .reg .s 1⟩) stray = .next t ∧ (t.ctx ⟨0, 0⟩).cur.region = 6 := by
  have h : (match exec (.brelLs0 ⟨6, 0, false, true, .reg .s 1⟩) stray with
    | .next t => decide ((t.ctx ⟨0, 0⟩).cur.region = 6)
    | _ => false) = true := by decide
  split at h
  · exact ⟨_, ‹_›, of_decide_eq_true h⟩
  all_goals cases h

/-- Refutes O37, in its clause for BREL: that the region of the context is the next one is stated of every state, also of one whose branch stands
at a count beyond the second delay bundle. There the end of the bundle takes the view that stays when a branch resolves, and the region that ends is
that view's: in `stray` it is region 5, and not 0. (No run from reset comes to such a count.) -/
theorem not_fencesHintsCacheControlAndReleasesComplete : ¬ Obligations.FencesHintsCacheControlAndReleasesComplete := by
  unfold Obligations.FencesHintsCacheControlAndReleasesComplete
  rintro ⟨-, hbrel⟩
  obtain ⟨t, hexec, hnow, -⟩ := hbrel _ stray ⟨0, 0⟩ strayBrel ⟨0, 1, 1, 1, 7, 7⟩ stray_ready stray_passes rfl rfl rfl rfl
  obtain ⟨u, hexec', hregion⟩ := exec_stray
  obtain rfl : t = u := Host.Outcome.next.inj (hexec.symm.trans hexec')
  obtain ⟨-, hnext⟩ := hnow (by decide)
  exact absurd (hregion.symm.trans hnext) (by decide)

end Sys2Proof.Machine

/-! # Bank claims, launches and the walkers of graphs (O52) -/

namespace Sys2Proof.Machine

/-! ### Claims (R298, R300) -/

theorem Core.grantClaim_alone {k : Core} {e : Claim} (h : k.claims = [e]) (hp : e.state = .pending) :
    k.grantClaim e.prog e.bank = { k with claims := [{ e with state := .held }] } := by
  have hfree : k.freeFor e = true := by
    rw [Core.freeFor, h]
    simp
  unfold Core.grantClaim
  rw [h]
  simp [Core.grantClaim.go, hp, hfree]

theorem State.foldl_acquireStamp_claims (l : Loc) (es : List (Nat × Nat)) (s : State) :
    ((es.foldl (fun s e => s.acquireStamp l e) s).core l.core).claims = (s.core l.core).claims := by
  induction es generalizing s with
  | nil => rfl
  | cons e es ih =>
    rw [List.foldl_cons, ih, State.acquireStamp, State.onView, State.core_setCtx, Core.setCtx_claims]

/-- A claim that is held has taken what the former owners of its bank passed on (R300). -/
theorem State.takeOverBank_claims (s : State) (c prog b : Nat) :
    ((s.takeOverBank c prog b).core c).claims =
      (s.core c).claims.map fun e => if e.prog = prog ∧ e.bank = b then { e with taken := (s.core c).passed.getD b [] } else e := by
  unfold State.takeOverBank
  dsimp only
  split
  · exact (State.foldl_acquireStamp_claims ⟨c, _⟩ _ _).trans (by rw [State.core_setCore])
  · rw [State.core_setCore, State.core_setCore]
  · rw [State.core_setCore]

theorem State.holdClaim_alone {s : State} {c : Nat} {e : Claim} (h : (s.core c).claims = [e]) (hp : e.state = .pending) :
    ((s.holdClaim c e.prog e.bank).core c).claims = [{ e with state := .held, taken := (s.core c).passed.getD e.bank [] }] := by
  have hold : ((s.core c).claimsOf (some e.prog) e.bank).any (fun d => decide (d.state = .held)) = false := by
    simp [Core.claimsOf, h, hp]
  unfold State.holdClaim
  dsimp only
  rw [Core.grantClaim_alone h hp, if_pos (by rw [hold]; simp [Core.claimsOf]), State.takeOverBank_claims, State.core_setCore]
  simp

theorem State.endReleases_alone {s : State} {c : Nat} {e : Claim} (h : (s.core c).claims = [e]) (hs : e.state = .releasing)
    (ht : (s.core c).touches e.prog e.bank = false) : ((s.endReleases c e.bank).core c).claims = [] := by
  unfold State.endReleases
  dsimp only
  rw [State.core_setCore, h]
  simp [hs, ht]

/-! ### The record of a launch (R228) -/

theorem State.OnlyCaches.dev {s t : State} (h : s.OnlyCaches t) (p d : Nat) : t.dev p d = s.dev p d := h.sameMemory.dev p d

/-- The record of a launch that is reserved alone is read. -/
theorem State.readLaunch_alone {s : State} {p d : Nat} {e : Launch} {ps : List Piece} (h : (s.dev p d).launches = [e]) (hrec : e.record = none)
    (hr : s.range ⟨e.core, p, d, false⟩ e.addr.toNat 64 false = .ok ps) (hwhole : ∀ q ∈ ps, s.piecePoisoned q = false) :
    ∃ tag, ((s.readLaunch p d e.id).dev p d).launches = [{ e with record := some (s.readRange ps).1, tagged := tag }] := by
  have hfind : ((s.dev p d).launches.find? fun f => f.id == e.id && f.record.isNone) = some e := by
    rw [h]
    simp [hrec]
  unfold State.readLaunch
  simp only [hfind, hr, State.readRange_whole hwhole, Bool.false_eq_true, if_false, State.dev_setDev]
  simp only [h, List.map_cons, List.map_nil, if_true]
  exact ⟨_, rfl⟩

theorem banksAndLaunchesGoOn : Spec.BanksAndLaunchesGoOn := by
  unfold Spec.BanksAndLaunchesGoOn
  intro s c
  refine ⟨fun k hk hp => ⟨_, rfl, State.holdClaim_alone hk hp⟩, fun k hk hs ht => ⟨_, rfl, State.endReleases_alone hk hs ht⟩,
    fun p d e ps he hrec hr hwhole => ?_⟩
  obtain ⟨tag, hlaunches⟩ := State.readLaunch_alone he hrec hr hwhole
  exact ⟨_, rfl, _, hlaunches, rfl, rfl, rfl⟩

/-! ### What a walker posts (R285) -/

theorem leNat_completion (tag exit status index place : Nat) :
    leNat ((completion tag exit status index place).take 4) = tag % 2 ^ 32 ∧
      leNat (((completion tag exit status index place).drop 4).take 4) = exit % 2 ^ 32 ∧
      leNat (((completion tag exit status index place).drop 8).take 2) = status % 2 ^ 16 ∧
      leNat (((completion tag exit status index place).drop 10).take 2) = index % 2 ^ 16 := by
  have htake (n x : Nat) (bs : List Byte) : (leBytes n x ++ bs).take n = leBytes n x := List.take_left' (length_leBytes ..)
  have hdrop (n x m : Nat) (bs : List Byte) : (leBytes n x ++ bs).drop (n + m) = bs.drop m := by
    rw [List.drop_append, length_leBytes, List.drop_eq_nil_of_le (by rw [length_leBytes]; omega), Nat.add_sub_cancel_left, List.nil_append]
  unfold completion
  simp only [List.append_assoc]
  refine ⟨?_, ?_, ?_, ?_⟩
  · rw [htake, leNat_leBytes_mod]
    rfl
  · rw [show (4 : Nat) = 4 + 0 from rfl, hdrop 4 tag 0, List.drop_zero, htake 4, leNat_leBytes_mod]
    rfl
  · rw [show (8 : Nat) = 4 + (4 + 0) from rfl, hdrop 4 tag, hdrop 4 exit, List.drop_zero, htake 2, leNat_leBytes_mod]
    rfl
  · rw [show (10 : Nat) = 4 + (4 + (2 + 0)) from rfl, hdrop 4 tag, hdrop 4 exit, hdrop 2 status, List.drop_zero, htake 2, leNat_leBytes_mod]
    rfl

end Sys2Proof.Machine

namespace Sys2Proof.Machine

/-! ### The fields of a node (R283) -/

theorem nodeKind_eq (r : List Byte) : nodeKind r = ((nodeLink r).extractLsb' 0 4).toNat := bits_eq_toNat_extractLsb' ..
theorem nodeNext_eq (r : List Byte) : nodeNext r = ((nodeLink r).extractLsb' 4 8).toNat := bits_eq_toNat_extractLsb' ..
theorem nodeAlt_eq (r : List Byte) : nodeAlt r = ((nodeLink r).extractLsb' 12 8).toNat := bits_eq_toNat_extractLsb' ..
theorem nodeJcnt_eq (r : List Byte) : nodeJcnt r = ((nodeLink r).extractLsb' 20 8).toNat := bits_eq_toNat_extractLsb' ..

/-- The record of a task node names its walker's core alone (R283). -/
theorem nodeRecord_fields (r : List Byte) {core : Nat} (h : core < 128) :
    (nodeRecord r core).drop 8 = r.drop 8 ∧ recAny (nodeRecord r core) = false ∧ recGraph (nodeRecord r core) = false ∧
      recCore (nodeRecord r core) = core := by
  have hword : recCtrl (nodeRecord r core) = (recCtrl r &&& ~~~0x0100FF0000000000) ||| BitVec.ofNat 64 (core * 2 ^ 40) := by
    unfold nodeRecord
    generalize (recCtrl r &&& ~~~0x0100FF0000000000) ||| BitVec.ofNat 64 (core * 2 ^ 40) = x
    have htake : (((leBytes 8 x.toNat ++ r.drop 8).drop 0).take 8) = leBytes 8 x.toNat := List.take_left' (length_leBytes ..)
    rw [recCtrl, fieldOf, htake, leNat_leBytes_mod, Nat.mod_eq_of_lt (by exact x.isLt), BitVec.ofNat_toNat, BitVec.setWidth_eq]
  have hdrop : (nodeRecord r core).drop 8 = r.drop 8 := List.drop_left' (length_leBytes ..)
  generalize nodeRecord r core = b at hword hdrop
  have hcore (k : Nat) (hk : k < 64) : (BitVec.ofNat 64 (core * 2 ^ 40)).getLsbD k = (decide (40 ≤ k) && core.testBit (k - 40)) := by
    rw [BitVec.getLsbD_ofNat, Nat.testBit_mul_two_pow]
    simp [hk]
  have hlow : core.testBit 7 = false := Nat.testBit_lt_two_pow h
  have hhigh : core.testBit 16 = false := Nat.testBit_lt_two_pow (h.trans (by decide))
  refine ⟨hdrop, ?_, ?_, ?_⟩
  · rw [recAny, hword, bit, BitVec.getLsbD_or, BitVec.getLsbD_and, hcore 47 (by decide), hlow]
    simp
  · rw [recGraph, hword, bit, BitVec.getLsbD_or, BitVec.getLsbD_and, hcore 56 (by decide), hhigh]
    simp
  · rw [recCore, hword, bits_eq_toNat_extractLsb']
    have hfield : (((recCtrl r &&& ~~~0x0100FF0000000000) ||| BitVec.ofNat 64 (core * 2 ^ 40)).extractLsb' 40 7) = BitVec.ofNat 7 core := by
      apply BitVec.eq_of_getLsbD_eq
      intro k hk
      have hmask : (~~~(0x0100FF0000000000 : Word)).getLsbD (40 + k) = false := by
        interval_cases k <;> rfl
      rw [BitVec.getLsbD_extractLsb', BitVec.getLsbD_or, BitVec.getLsbD_and, hcore (40 + k) (by omega), hmask, BitVec.getLsbD_ofNat]
      simp [hk]
    have hnat := congrArg BitVec.toNat hfield
    rw [BitVec.toNat_ofNat, Nat.mod_eq_of_lt h] at hnat
    exact hnat

/-! ### A walker at a node (R284, R285) -/

section
variable {s : State} {c p : Nat} {w : Walker} {r : List Byte} {tag : Bool}

theorem State.walk_at (h : Spec.walkerAt s c p w r tag) : s.walk c =
    if s.badNode p c w r tag then s.endWalk p c w 5 w.node
    else if nodeKind r = 0 then s.walkTask p c w r
    else if nodeKind r = 3 then
      if s.unfinished p c w ≤ nodeJcnt r then s.setWalker c (some { w with node := nodeNext r }) else s
    else if nodeKind r = 4 then
      let q := w.phases.getD w.node (nodePhase r)
      if (s.barrier c ⟨c, p, w.vd, false⟩ (nodeBar r)).phase = q ∨
          s.tenantClaims p c (s.dev p w.vd).tenant (nodeBar r / 65536) (fun c => decide (c = .held)) = false then s
      else s.setWalker c (some { w with phases := w.phases.set w.node ((q + 1) % 16), node := nodeNext r })
    else if s.unfinished p c w ≠ 0 then s
    else if nodeKind r = 5 then s.endWalk p c w 0 0
    else s.walkCond p c w r := by
  obtain ⟨hpav, hwalker, hquiet, hsnap, hnode, hne⟩ := h
  unfold State.walk
  rw [hpav, hwalker]
  dsimp only
  rw [hquiet, hnode]
  cases r with
  | nil => exact absurd rfl hne
  | cons b bs =>
    simp only [Bool.false_eq_true, if_false, hsnap]

theorem State.setWalker_walker (s : State) (c : Nat) (w : Option Walker) : ((s.setWalker c w).core c).walker = w := by
  rw [State.setWalker, State.core_setCore]

/-- A walk that ends frees its walker and posts its completion entry (R285). -/
theorem State.endWalk_posts (s : State) (p c : Nat) (w : Walker) (status index : Nat) : ((s.endWalk p c w status index).core c).walker = none ∧
    ((s.endWalk p c w status index).dev p w.vd).entries =
      (s.dev p w.vd).entries ++ [completion w.tag 0 status index (position c (s.pav p).cores)] :=
  ⟨State.setWalker_walker s c none, congrArg Dev.entries (State.dev_setDev ..)⟩

/-- A read through CAP0 that passes its checks (R284). -/
theorem State.walkRead_of_checked {a : Accessor} {off n : Nat} {ps : List Piece}
    (hcap : capCheck w.cap (Int.ofNat (w.cap.base + off)) n grantRD (s.dev a.pav a.vd).tenant false = none)
    (hrange : s.range a (w.cap.base + off) n false = .ok ps) (hwhole : (s.readRange ps).2 = false) :
    s.walkRead a w off n = some ((s.readRange ps).1, s.touchRange a ps) := by
  unfold State.walkRead
  simp only [hcap, hrange, hwhole, Bool.false_eq_true, if_false]

/-- A task node with room in the store (R284). -/
theorem State.walkTask_submits (hroom : s.storeFull p w.vd = false) : ∃ e, ((s.walkTask p c w r).core c).walker = some { w with node := nodeNext r } ∧
    ((s.walkTask p c w r).dev p w.vd).launches = (s.dev p w.vd).launches ++ [e] ∧ e.queue = w.queue ∧ e.walk = some w.run ∧ e.core = c ∧
    e.record = some (nodeRecord r (position c (s.pav p).cores)) := by
  unfold State.walkTask
  dsimp only
  rw [if_neg (by rw [hroom]; exact Bool.false_ne_true)]
  exact ⟨_, State.setWalker_walker .., congrArg Dev.launches (State.dev_setDev ..), rfl, rfl, rfl, rfl⟩

theorem State.tenantClaims_held (s : State) (p c tenant bank : Nat) :
    s.tenantClaims p c tenant bank (fun k => decide (k = .held)) = true ↔
      ∃ k ∈ (s.core c).claims, k.bank = bank ∧ k.state = .held ∧ ∃ t ∈ (s.core c).table, t.id = k.prog ∧ (s.dev p t.vd).tenant = tenant := by
  simp only [State.tenantClaims, List.any_eq_true, Bool.and_eq_true, beq_iff_eq, decide_eq_true_eq, and_assoc]

/-- A conditional or while node whose condition word is read (R284). -/
theorem State.walkCond_read {ps : List Piece} (hal : (w.cap.base + nodeCoff r) % 8 = 0)
    (hcap : capCheck w.cap (Int.ofNat (w.cap.base + nodeCoff r)) 8 grantRD (s.dev p w.vd).tenant false = none)
    (hrange : s.range ⟨c, p, w.vd, false⟩ (w.cap.base + nodeCoff r) 8 false = .ok ps) (hwhole : (s.readRange ps).2 = false) :
    s.walkCond p c w r =
      let s1 := s.touchRange ⟨c, p, w.vd, false⟩ ps
      let met := (BitVec.ofNat 64 (leNat (s.readRange ps).1) : Word) &&& nodeMask r != 0
      if nodeKind r = 1 then s1.setWalker c (some { w with node := if met then nodeNext r else nodeAlt r })
      else
        let n := w.passes.getD w.node 0
        if met ∧ ¬ (nodeMaxit r ≠ 0 ∧ n ≥ nodeMaxit r) then
          let w1 : Walker := { w with passes := w.passes.set w.node (n + 1) }
          if nodeSnap r ∧ w.nent > 0 then s1.snapNext p c w1 0 (nodeNext r)
          else s1.setWalker c (some { w1 with node := nodeNext r })
        else s1.setWalker c (some { w with passes := w.passes.set w.node 0, node := nodeAlt r }) := by
  have hread : (if (w.cap.base + nodeCoff r) % 8 = 0 then s.walkRead ⟨c, p, w.vd, false⟩ w (nodeCoff r) 8 else none) =
      some ((s.readRange ps).1, s.touchRange ⟨c, p, w.vd, false⟩ ps) := by
    rw [if_pos hal, State.walkRead_of_checked (a := ⟨c, p, w.vd, false⟩) hcap hrange hwhole]
  generalize s.touchRange ⟨c, p, w.vd, false⟩ ps = s1 at hread ⊢
  generalize (s.readRange ps).1 = bs at hread ⊢
  unfold State.walkCond
  simp only [hread]

end

theorem walkersFollowTheirNodes : Spec.WalkersFollowTheirNodes := by
  unfold Spec.WalkersFollowTheirNodes
  intro s c p w r tag hat link kind nextNode alt left d lstore room posted
  have hwalk := State.walk_at hat
  have hkind : nodeKind r = kind := nodeKind_eq r
  have hnext : nodeNext r = nextNode := nodeNext_eq r
  have halt : nodeAlt r = alt := nodeAlt_eq r
  have hjcnt : nodeJcnt r = (link.extractLsb' 20 8).toNat := nodeJcnt_eq r
  have hroom : s.storeFull p w.vd = false ↔ room := State.storeFull_eq_false_iff s p w.vd
  have hposts (status index : Nat) (hs : status < 2 ^ 16) : posted (s.endWalk p c w status index) status index := by
    obtain ⟨hfreed, hentry⟩ := State.endWalk_posts s p c w status index
    obtain ⟨htag, hexit, hstatus, hindex⟩ := leNat_completion w.tag 0 status index (position c (s.pav p).cores)
    exact ⟨hfreed, _, hentry, htag, hexit, hstatus.trans (Nat.mod_eq_of_lt hs), hindex⟩
  refine ⟨fun hbad => ⟨_, rfl, ?_⟩, fun hgood => ?_⟩
  · rw [hwalk, if_pos hbad]
    exact hposts 5 w.node (by decide)
  rw [if_neg (by rw [hgood]; exact Bool.false_ne_true), hkind, hnext, hjcnt] at hwalk
  have hexec : exec (.walkerNode c) s = .next (s.walk c) := rfl
  rw [hexec, hwalk]
  refine ⟨fun h0 hfree hlt => ?_, fun h0 hfull => ?_, fun hk hleft => ?_, fun ps hk hleft => ?_, fun h3 hle => ?_, fun h3 hlt => ?_, fun h4 => ?_,
    fun h5 hleft => ?_⟩
  · obtain ⟨e, hwalker, hlaunches, hqueue, hrun, hcore, hrecord⟩ := State.walkTask_submits (r := r) (c := c) (hroom.2 hfree)
    obtain ⟨hdrop, hany, hgraph, hplace⟩ := nodeRecord_fields r hlt
    rw [if_pos h0]
    rw [hnext] at hwalker
    exact ⟨_, e, rfl, hwalker, hlaunches, hqueue, hrun, hcore, _, hrecord, hdrop, hany, hgraph, hplace⟩
  · have hstore : s.storeFull p w.vd = true := by
      cases h : s.storeFull p w.vd with
      | true => rfl
      | false => exact absurd (hroom.1 h) hfull
    rw [if_pos h0, State.walkTask, if_pos hstore]
  · have h0 : kind ≠ 0 := by omega
    have h3 : kind ≠ 3 := by omega
    have h4 : kind ≠ 4 := by omega
    rw [if_neg h0, if_neg h3, if_neg h4, if_pos hleft]
  · intro coff mask maxit met n a hal hcap hrange hwhole
    have h0 : kind ≠ 0 := by omega
    have h3 : kind ≠ 3 := by omega
    have h4 : kind ≠ 4 := by omega
    have h5 : kind ≠ 5 := by omega
    have hmet : ((BitVec.ofNat 64 (leNat (s.readRange ps).1) : Word) &&& nodeMask r != 0) = true ↔ met := bne_iff_ne
    rw [if_neg h0, if_neg h3, if_neg h4, if_neg (not_not.2 hleft), if_neg h5, State.walkCond_read hal hcap hrange hwhole, hkind, hnext, halt]
    dsimp only
    simp only [hmet]
    refine ⟨fun h1 => ?_, fun h2 hplain => ?_⟩
    · rw [if_pos h1]
      refine ⟨_, rfl, fun hm => ?_, fun hm => ?_⟩
      · rw [State.setWalker_walker, if_pos hm]
      · rw [State.setWalker_walker, if_neg hm]
    · have hsnap : ¬ (nodeSnap r = true ∧ w.nent > 0) := by
        rintro ⟨hs, hn⟩
        obtain hs' | hn' := hplain
        · exact Bool.false_ne_true (hs'.symm.trans hs)
        · omega
      have hmore : (met ∧ ¬ (nodeMaxit r ≠ 0 ∧ n ≥ nodeMaxit r)) ↔ (met ∧ (maxit = 0 ∨ n < maxit)) :=
        and_congr_right fun _ => by
          change ¬ (maxit ≠ 0 ∧ n ≥ maxit) ↔ _
          omega
      rw [if_neg (by omega : ¬ kind = 1)]
      refine ⟨_, rfl, fun hm => ?_, fun hm => ?_⟩
      · rw [if_pos (hmore.2 hm), if_neg hsnap, State.setWalker_walker]
      · rw [if_neg (fun h => hm (hmore.1 h)), State.setWalker_walker]
  · rw [if_neg (by omega), if_pos h3, if_pos hle]
    exact ⟨_, rfl, State.setWalker_walker ..⟩
  · rw [if_neg (by omega), if_pos h3, if_neg (Nat.not_le.2 hlt)]
  · intro bar q holds
    have hholds : s.tenantClaims p c (s.dev p w.vd).tenant (nodeBar r / 65536) (fun c => decide (c = .held)) = true ↔ holds :=
      State.tenantClaims_held ..
    rw [if_neg (by omega), if_neg (by omega), if_pos h4]
    refine ⟨fun hphase hh => ?_, fun hwait => ?_⟩
    · have hboth : ¬ ((s.barrier c ⟨c, p, w.vd, false⟩ bar).phase = q ∨
          s.tenantClaims p c (s.dev p w.vd).tenant (nodeBar r / 65536) (fun k => decide (k = .held)) = false) :=
        not_or.2 ⟨hphase, fun hno => Bool.false_ne_true (hno.symm.trans (hholds.2 hh))⟩
      exact ⟨_, congrArg Host.Outcome.next (if_neg hboth), State.setWalker_walker ..⟩
    · refine congrArg Host.Outcome.next (if_pos (hwait.imp id fun hno => ?_))
      exact Bool.eq_false_iff.2 fun h => hno (hholds.1 h)
  · rw [if_neg (by omega), if_neg (by omega), if_neg (by omega), if_neg (not_not.2 hleft), if_pos h5]
    exact ⟨_, rfl, hposts 0 0 (by decide)⟩

/-- Settles O52: of a claim, a release or a launch that stands alone the step is computed; a walker at a node that is not bad follows the case of
its kind, and the entry it posts is read back field by field. -/
theorem banksLaunchesAndWalkersGoOn : Obligations.BanksLaunchesAndWalkersGoOn := ⟨banksAndLaunchesGoOn, walkersFollowTheirNodes⟩

end Sys2Proof.Machine

/-! # Control registers (O14): what is read -/

namespace Sys2Proof.Machine

theorem opSem_crr_of {o : Opd} (hop : o.op = .crr) : opSem o.op = semCrr := (congrArg opSem hop).trans opSem_crr
theorem opSem_crw_of {o : Opd} (hop : o.op = .crw) : opSem o.op = semCrw := (congrArg opSem hop).trans opSem_crw
theorem opSem_qos_of {o : Opd} (hop : o.op = .qos) : opSem o.op = semQos := (congrArg opSem hop).trans opSem_qos

/-! ### The numbers of control registers (R244) -/

theorem qcfgIndex_add {n : Nat} (h : n < 16) : qcfgIndex (0x030 + n) = some n := by
  rw [qcfgIndex, if_pos (by omega), Nat.add_sub_cancel_left]

theorem bankfmtIndex_add {b : Nat} (h : b < 80) : bankfmtIndex (0x041 + b) = some b := by
  rw [bankfmtIndex, if_pos (by omega), Nat.add_sub_cancel_left]

theorem qcfgIndex_of_bankfmt (b : Nat) : qcfgIndex (0x041 + b) = none := if_neg (by omega)

theorem domainIndex_clk {d : Nat} (h : d < 8) : domainIndex (0x018 + d) = some d := by
  rw [domainIndex, if_pos (by omega), Nat.add_sub_cancel_left, Nat.mod_eq_of_lt h]

theorem domainIndex_cnt {d : Nat} (h : d < 8) : domainIndex (0x020 + d) = some d := by
  rw [domainIndex, if_pos (by omega), show 0x020 + d - 0x018 = d + 8 by omega, Nat.add_mod_right, Nat.mod_eq_of_lt h]

theorem domainIndex_of_le {n : Nat} (h : 0x028 ≤ n) : domainIndex n = none := if_neg (by omega)

theorem toNat_control {n : Nat} (h : n < 2 ^ 12) : (BitVec.ofNat 64 n : Word).toNat = n := by
  rw [BitVec.toNat_ofNat]
  exact Nat.mod_eq_of_lt (h.trans (by decide))

/-- Whether a word is the number of a control register of no step-clock domain (R237, R244). -/
def plainControl (n : Word) : Bool := decide (n.toNat < 2 ^ 12) && isControl n.toNat && (domainIndex n.toNat).isNone

section
variable {s : State} {l : Loc} {n : Word}

/-- A number of a register that the context may have is not refused (R237, R244). -/
theorem State.badControl_eq_none (hlow : n.toNat < 2 ^ 12) (hn : isControl n.toNat = true)
    (hd : ∀ d, domainIndex n.toNat = some d → d < (s.ctx l).cur.domainCount) : s.badControl l n = none := by
  unfold State.badControl
  rw [if_neg (not_not.2 (bits_eq_zero_iff.2 hlow)), hn]
  cases h : domainIndex n.toNat with
  | none => rfl
  | some d => exact if_neg (Nat.not_le.2 (hd d h))

theorem State.badControl_of_plain (h : plainControl n = true) : s.badControl l n = none := by
  unfold plainControl at h
  rw [Bool.and_eq_true, Bool.and_eq_true, decide_eq_true_eq, Option.isNone_iff_eq_none] at h
  obtain ⟨⟨hlow, hn⟩, hdomain⟩ := h
  exact State.badControl_eq_none hlow hn fun d hd => nomatch hdomain.symm.trans hd

/-- A number below 2^12 that names no register is refused with cause 28 (R244). -/
theorem State.badControl_of_noControl (h : Spec.noControl n) : s.badControl l n = some 28 := by
  have hlow : n.toNat < 2 ^ 12 := by
    unfold Spec.noControl at h
    omega
  have hn : isControl n.toNat = false := by
    unfold Spec.noControl at h
    have hdomain : domainIndex n.toNat = none := if_neg (by omega)
    have hqueue : qcfgIndex n.toNat = none := if_neg (by omega)
    have hbank : bankfmtIndex n.toNat = none := if_neg (by omega)
    rw [isControl, hdomain, hqueue, hbank]
    simp only [Option.isSome_none, Bool.or_false, Bool.or_eq_false_iff, Bool.and_eq_false_iff, decide_eq_false_iff_not, beq_eq_false_iff_ne]
    omega
  unfold State.badControl
  rw [if_neg (not_not.2 (bits_eq_zero_iff.2 hlow)), hn]
  rfl

theorem State.badControl_take : (s.take l).badControl l n = s.badControl l n := by
  unfold State.badControl
  rw [State.take_ctx]

end

/-! ### A control register as a context reads it (R244) -/

theorem State.control_take (s : State) (l : Loc) (n : Nat) : (s.take l).control l n = s.control l n := by
  have hcore : (s.take l).core l.core = { s.core l.core with taken := some l.ctx } := State.core_setCore ..
  simp only [State.control, State.foreignQueue, State.gangOf, State.taskOf, State.progOf, State.take_ctx, hcore]
  rfl

theorem State.control_domclk (s : State) (l : Loc) {d : Nat} (h : d < 8) : s.control l (0x018 + d) = (s.ctx l).cur.ctl.domclk.getD d 0 := by
  interval_cases d <;> rfl

theorem State.control_domcnt (s : State) (l : Loc) {d : Nat} (h : d < 8) : s.control l (0x020 + d) = (s.ctx l).cur.ctl.domcnt.getD d 0 := by
  interval_cases d <;> rfl

theorem State.control_qcfg (s : State) (l : Loc) {n : Nat} (h : n < 16) : s.control l (0x030 + n) =
    if s.foreignQueue l ((s.core l.core).queue n) then 0 else ((s.core l.core).queue n).word := by
  unfold State.control
  rw [qcfgIndex_add h]

theorem State.control_bankfmt (s : State) (l : Loc) {b : Nat} (h : b < 80) : s.control l (0x041 + b) = (s.core l.core).bankWord (s.progOf l) b := by
  unfold State.control
  rw [qcfgIndex_of_bankfmt, bankfmtIndex_add h]

/-- A QCFG word by the map of the register (R223). -/
theorem Queue.word_eq (q : Queue) : q.word =
    BitVec.ofNat 64 (q.base8 + q.lcap * 2 ^ 20 + (if q.en then 2 ^ 24 else 0) + q.head * 2 ^ 32 + q.count * 2 ^ 48) := by
  unfold Queue.word b2n
  cases q.en <;> rfl

/-- The QCFG of a queue reads as it stands where its gang, or without a gang its owner, is the context's, or nobody holds it (R224, R281). -/
theorem State.foreignQueue_eq_false_iff (s : State) (l : Loc) (q : Queue) : s.foreignQueue l q = false ↔
    match q.gang, q.owner with
    | some g, _ => s.gangOf l = some g
    | none, some p => s.progOf l = some p
    | none, none => True := by
  unfold State.foreignQueue
  cases q.gang with
  | some g => exact bne_eq_false_iff_eq
  | none =>
    cases q.owner with
    | some p => exact bne_eq_false_iff_eq
    | none => exact iff_of_true rfl trivial

/-- A bit of a number that holds a truth value. -/
theorem testBit_of_b2n {n k : Nat} {b : Bool} (h : n / 2 ^ k % 2 = b2n b) : n.testBit k = b := by
  rw [Nat.testBit_eq_decide_div_mod_eq, h]
  cases b <;> rfl

/-- A word of a byte and five truth values above it, field by field. -/
theorem fields_of_bankWord (f : Byte) (b8 b9 b10 b11 b12 : Bool) :
    let v : Word := BitVec.ofNat 64 (f.toNat + b2n b8 * 2 ^ 8 + b2n b9 * 2 ^ 9 + b2n b10 * 2 ^ 10 + b2n b11 * 2 ^ 11 + b2n b12 * 2 ^ 12)
    v.extractLsb' 0 8 = f ∧ v.getLsbD 8 = b8 ∧ v.getLsbD 9 = b9 ∧ v.getLsbD 10 = b10 ∧ v.getLsbD 11 = b11 ∧ v.getLsbD 12 = b12 ∧
      v.extractLsb' 13 51 = 0 := by
  intro v
  have hbit (b : Bool) : b2n b ≤ 1 := by cases b <;> decide
  have h8 := hbit b8
  have h9 := hbit b9
  have h10 := hbit b10
  have h11 := hbit b11
  have h12 := hbit b12
  have hf := f.isLt
  have hget (k : Nat) (hk : k < 64) (b : Bool) (h : (f.toNat + b2n b8 * 2 ^ 8 + b2n b9 * 2 ^ 9 + b2n b10 * 2 ^ 10 + b2n b11 * 2 ^ 11 +
      b2n b12 * 2 ^ 12) / 2 ^ k % 2 = b2n b) : v.getLsbD k = b := by
    rw [BitVec.getLsbD_ofNat, decide_eq_true hk, Bool.true_and]
    exact testBit_of_b2n h
  refine ⟨?_, hget 8 (by decide) b8 (by omega), hget 9 (by decide) b9 (by omega), hget 10 (by decide) b10 (by omega),
    hget 11 (by decide) b11 (by omega), hget 12 (by decide) b12 (by omega), ?_⟩
  · apply BitVec.eq_of_toNat_eq
    rw [BitVec.extractLsb'_toNat, BitVec.toNat_ofNat, Nat.shiftRight_zero]
    omega
  · apply BitVec.eq_of_toNat_eq
    rw [BitVec.extractLsb'_toNat, BitVec.toNat_ofNat, Nat.shiftRight_eq_div_pow]
    change _ = 0
    omega

/-- A claim of a program on a bank that is not being released (R207, R299). -/
theorem Core.any_claimsOf {k : Core} {prog : Option Nat} {b : Nat} {f : Claim → Bool} :
    (k.claimsOf prog b).any f = true ↔ ∃ m ∈ k.claims, prog = some m.prog ∧ m.bank = b ∧ f m = true := by
  simp only [Core.claimsOf, List.any_eq_true, List.mem_filter, Bool.and_eq_true, decide_eq_true_eq, beq_iff_eq, and_assoc]

/-- BANKFMT as a program reads it, field by field (R295). -/
theorem Core.bankWord_fields (k : Core) (prog : Option Nat) (b : Nat) :
    let v := k.bankWord prog b
    v.extractLsb' 0 8 = (if k.scratch b then k.fmtOf b else 0) ∧ v.getLsbD 8 = k.scratch b ∧
      (v.getLsbD 9 = true ↔ ∃ m ∈ k.claims, prog = some m.prog ∧ m.bank = b ∧ m.state ≠ .releasing) ∧
      v.getLsbD 10 = k.frameHeld b ∧ v.getLsbD 11 = k.withdrawn.contains b ∧
      (v.getLsbD 12 = true ↔ ∃ m ∈ k.claims, prog = some m.prog ∧ m.bank = b ∧ m.state ≠ .releasing ∧ m.write = true) ∧
      v.extractLsb' 13 51 = 0 := by
  intro v
  have hfmt : (if k.scratch b then (k.fmtOf b).toNat else 0) = (if k.scratch b then k.fmtOf b else 0).toNat := by split <;> rfl
  have hv : v = BitVec.ofNat 64 ((if k.scratch b then k.fmtOf b else 0).toNat + b2n (k.scratch b) * 2 ^ 8 +
      b2n ((k.claimsOf prog b).any fun c => decide (c.state ≠ .releasing)) * 2 ^ 9 + b2n (k.frameHeld b) * 2 ^ 10 +
      b2n (k.withdrawn.contains b) * 2 ^ 11 + b2n (k.writeClaim prog b) * 2 ^ 12) := by
    rw [← hfmt]
    rfl
  obtain ⟨hbyte, h8, h9, h10, h11, h12, hrest⟩ := fields_of_bankWord (if k.scratch b then k.fmtOf b else 0) (k.scratch b)
    ((k.claimsOf prog b).any fun c => decide (c.state ≠ .releasing)) (k.frameHeld b) (k.withdrawn.contains b) (k.writeClaim prog b)
  rw [← hv] at hbyte h8 h9 h10 h11 h12 hrest
  refine ⟨hbyte, h8, ?_, h10, h11, ?_, hrest⟩
  · rw [h9, Core.any_claimsOf]
    simp only [decide_eq_true_eq]
  · rw [h12, Core.writeClaim, Core.any_claimsOf]
    simp only [Bool.and_eq_true, decide_eq_true_eq, and_comm]

/-! ### CRR and QOS (R245, R250) -/

/-- What an operation reads it finds in the state of its turn (R29 step 2). -/
theorem State.rowOperands_seen {s : State} {l : Loc} {i : Instr} {o : Opd} (h : s.rowOperands l i = some o) :
    o.seen = (opSem o.op).reads (s.take l) l { o with seen := 0 } := by
  unfold State.rowOperands at h
  split at h
  · unfold State.operands at h
    dsimp only at h
    split at h
    · split at h
      · split at h
        · split at h
          · obtain rfl := Option.some.inj h
            rfl
          · cases h
        · cases h
      · cases h
    · cases h
  · cases h

section
variable {i : Instr} {s : State} {l : Loc} {o : Opd}

/-- CRR of a register that is not refused completes with what the context reads there. -/
theorem exec_crr (hr : s.ready l i o) (hop : o.op = .crr) (hok : s.badControl l o.xw = none) :
    exec i s = .next (s.fixedNext l o 1 (o.resultEffs (.word (s.control l o.xw.toNat)) none)) := by
  have hsem := opSem_crr_of hop
  have hseen : o.seen = s.control l o.xw.toNat := by
    rw [State.rowOperands_seen hr.1, hsem, ← State.control_take]
    rfl
  have hp : (s.take l).passes l o := by
    rw [State.passes, hsem]
    exact ⟨State.badControl_take.trans hok, rfl, rfl, rfl⟩
  refine exec_after hr hp (by rw [hsem]; rfl) (fun _ => by rw [hsem]; rfl) (fun _ => by rw [hsem]; rfl) ?_
  rw [hsem, ← hseen]
  rfl

/-- QOS of a class that exists completes with the word of the class, which QOSREM takes too. -/
theorem exec_qos (hr : s.ready l i o) (hop : o.op = .qos) (hcls : o.xw.toNat < 6) :
    exec i s = .next (s.fixedNext l o 1 (o.resultEffs (.word (s.qosWord l o.xw.toNat)) none ++ [.ctl 0x0A0 (s.qosWord l o.xw.toNat)])) := by
  have hsem := opSem_qos_of hop
  have hword : (s.take l).qosWord l o.xw.toNat = s.qosWord l o.xw.toNat := by
    unfold State.qosWord State.accessor
    rw [State.take_ctx]
    rfl
  have hseen : o.seen = s.qosWord l o.xw.toNat := by
    rw [State.rowOperands_seen hr.1, hsem, ← hword]
    rfl
  have hp : (s.take l).passes l o := by
    rw [State.passes, hsem]
    exact ⟨if_neg (Nat.not_le.2 hcls), rfl, rfl, rfl⟩
  refine exec_after hr hp (by rw [hsem]; rfl) (fun _ => by rw [hsem]; rfl) (fun _ => by rw [hsem]; rfl) ?_
  rw [hsem, ← hseen]
  rfl

end

theorem gbaseSetsTheGuardBase : Spec.GbaseSetsTheGuardBase := by
  unfold Spec.GbaseSetsTheGuardBase
  intro i s l o hr _ hop hbase
  have hsem : opSem o.op = semGbase := by rw [hop]; rfl
  have hgood : gbaseBad o.xw = false := decide_eq_false (Nat.not_lt.2 hbase)
  have hp : (s.take l).passes l o := by
    rw [State.passes, hsem]
    exact ⟨if_neg (by rw [hgood]; exact Bool.false_ne_true), rfl, rfl, rfl⟩
  exact exec_after hr hp (by rw [hsem]; rfl) (fun _ => by rw [hsem]; rfl) (fun _ => by rw [hsem]; rfl) (by rw [hsem]; rfl)

theorem crrReadsTheNamedRegister : Spec.CrrReadsTheNamedRegister := by
  unfold Spec.CrrReadsTheNamedRegister
  intro i s l o v hr hop hv
  let reads (e : Word × Word) : Prop := plainControl e.1 = true ∧ s.control l e.1.toNat = e.2
  obtain ⟨hplain, hread⟩ : reads (o.xw, v) := (List.forall_iff_forall_mem (p := reads)).1 (by and_intros <;> rfl) _ hv
  rw [exec_crr hr hop (State.badControl_of_plain hplain), hread]

theorem crrReadsDomainsQueuesAndBanks : Spec.CrrReadsDomainsQueuesAndBanks := by
  unfold Spec.CrrReadsDomainsQueuesAndBanks
  intro i s l o hr hop k c reads
  have hreads {n : Nat} (hn : n < 2 ^ 12) (hx : o.xw = BitVec.ofNat 64 n) (hctl : isControl n = true)
      (hd : ∀ d, domainIndex n = some d → d < (s.ctx l).cur.domainCount) {v : Word} (hv : s.control l n = v) : reads v := by
    have hnat : o.xw.toNat = n := by rw [hx, toNat_control hn]
    have hexec := exec_crr hr hop (State.badControl_eq_none (by rw [hnat]; exact hn) (by rw [hnat]; exact hctl) (by rw [hnat]; exact hd))
    rw [hnat, hv] at hexec
    exact hexec
  have hcontrol {n : Nat} (h : (domainIndex n).isSome = true ∨ (qcfgIndex n).isSome = true ∨ n = 0x040 ∨ (bankfmtIndex n).isSome = true) :
      isControl n = true := by
    unfold isControl
    obtain h | h | rfl | h := h
    · rw [h, Bool.or_true]
      rfl
    · rw [h, Bool.or_true]
      rfl
    · rfl
    · rw [h, Bool.or_true]
      rfl
  have hnone {n : Nat} (h : 0x028 ≤ n) : ∀ d, domainIndex n = some d → d < (s.ctx l).cur.domainCount := fun d hd =>
    nomatch (domainIndex_of_le h).symm.trans hd
  refine ⟨fun d hd hhas => ⟨fun hx => ?_, fun hx => ?_⟩, fun n hn hx => ?_, fun hx => ?_, fun b hb hx => ?_⟩
  · have hindex := domainIndex_clk hd
    refine hreads (by omega) hx (hcontrol (.inl (by rw [hindex]; rfl))) (fun e he => ?_) (State.control_domclk s l hd)
    obtain rfl := Option.some.inj (hindex.symm.trans he)
    exact hhas
  · have hindex := domainIndex_cnt hd
    refine hreads (by omega) hx (hcontrol (.inl (by rw [hindex]; rfl))) (fun e he => ?_) (State.control_domcnt s l hd)
    obtain rfl := Option.some.inj (hindex.symm.trans he)
    exact hhas
  · intro q mine
    have hforeign : s.foreignQueue l q = false ↔ mine := State.foreignQueue_eq_false_iff s l q
    have hread := State.control_qcfg s l hn
    have hctl : isControl (0x030 + n) = true := hcontrol (.inr (.inl (by rw [qcfgIndex_add hn]; rfl)))
    refine ⟨fun hmine => hreads (by omega) hx hctl (hnone (by omega)) ?_, fun hother => hreads (by omega) hx hctl (hnone (by omega)) ?_⟩
    · rw [hread, if_neg (Bool.eq_false_iff.1 (hforeign.2 hmine))]
      exact Queue.word_eq q
    · rw [hread, if_pos (Bool.not_eq_false _ ▸ fun h => hother (hforeign.1 h))]
  · refine hreads (n := 0x040) (by decide) hx rfl (hnone (by decide)) ?_
    change k.partWord = _
    rw [Core.partWord, bits_eq_toNat_extractLsb']
  · refine ⟨_, hreads (by omega) hx (hcontrol (.inr (.inr (.inr (by rw [bankfmtIndex_add hb]; rfl))))) (hnone (by omega))
      (State.control_bankfmt s l hb), k.bankWord_fields (s.progOf l) b⟩

theorem qosReadsTheBucketOfItsClass : Spec.QosReadsTheBucketOfItsClass := by
  unfold Spec.QosReadsTheBucketOfItsClass
  intro i s l o b hr hop hb reads tokens
  have haccessor : s.accessor l = ⟨l.core, b.pav, b.vd, false⟩ := by
    unfold State.accessor
    rw [hb]
  have hreads {cls : Nat} (hcls : cls < 6) (hx : o.xw.toNat = cls) {v : Word} (hv : s.qosWord l cls = v) : reads v := by
    have hexec := exec_qos hr hop (by rw [hx]; exact hcls)
    rw [hx, hv] at hexec
    exact hexec
  have hbucket {cls arb : Nat} (hword : s.qosWord l cls = BitVec.ofInt 64 ((s.arb arb).bucket (devKey (s.accessor l).pav (s.accessor l).vd))) :
      s.qosWord l cls = tokens arb := by
    rw [hword, haccessor]
    rfl
  refine ⟨fun hx => hreads (cls := 0) (by decide) (congrArg _ hx) (hbucket rfl), fun hx => hreads (cls := 1) (by decide) (congrArg _ hx) ?_,
    fun hx => hreads (cls := 2) (by decide) (congrArg _ hx) (hbucket rfl), fun hx => hreads (cls := 3) (by decide) (congrArg _ hx) (hbucket rfl),
    fun hx => hreads (cls := 4) (by decide) (congrArg _ hx) (hbucket rfl), fun hx => hreads (cls := 5) (by decide) (congrArg _ hx) (hbucket rfl),
    fun hbig => ?_⟩
  · change BitVec.ofNat 64 (s.qosMask (s.accessor l).pav (s.accessor l).vd (sliceOf l.core)) = _
    rw [haccessor]
    rfl
  · refine exec_encoding hr ?_
    rw [opSem_qos_of hop]
    exact if_pos hbig

end Sys2Proof.Machine

/-! # Control registers (O14): what is written, and what is refused -/

namespace Sys2Proof.Machine

/-! ### What CRW does to its context and its core (R245) -/

/-- The effect of a CRW on a register of its context, which lands with the bundle (R245). -/
def controlFlights (x : Ctx) (o : Opd) (n : Nat) : List Flight :=
  if (qcfgIndex n).isNone && (bankfmtIndex n).isNone then [⟨x.ctime, o.s, x.cur.inHandler, [.ctl n o.xw]⟩] else []

/-- The context in which a CRW has acted: its effect, and the old value on its way to the selector's register. -/
def Ctx.crwActed (x : Ctx) (o : Opd) : Ctx :=
  x.onView o.prov fun w =>
    { w with flights := w.flights ++ (controlFlights x o o.b.toNat ++ [⟨x.ctime, o.s, x.cur.inHandler, o.resultEffs (.word o.seen) none⟩]) }

theorem State.flyControl_ctx (s : State) (l : Loc) (o : Opd) (n : Nat) : (s.flyControl l o n).ctx l =
    (s.ctx l).onView o.prov fun w => { w with flights := w.flights ++ controlFlights (s.ctx l) o n } := by
  unfold State.flyControl controlFlights
  cases qcfgIndex n with
  | none =>
    cases bankfmtIndex n with
    | none => exact State.onView_ctx ..
    | some b => simp only [List.append_nil, Option.isNone_some, Bool.and_false, Bool.false_eq_true, if_false, Ctx.onView_self]
  | some i => simp only [List.append_nil, Option.isNone_some, Bool.false_and, Bool.false_eq_true, if_false, Ctx.onView_self]

theorem State.Issuing.flyControl (s : State) (l : Loc) (o : Opd) (n : Nat) : s.Issuing (s.flyControl l o n) := by
  unfold State.flyControl
  split
  · exact .setCtx ..
  · exact .refl s

theorem semCrw_act_ctx (s : State) (l : Loc) (o : Opd) : (semCrw.act s l o).ctx l = (s.ctx l).crwActed o := by
  have hfly := State.flyControl_ctx s l o o.b.toNat
  change (((s.flyControl l o o.b.toNat).result l o 1 (.word o.seen)).ctx l) = _
  rw [State.result, State.after, State.fly, State.onView_ctx, hfly, Ctx.onView_onView]
  exact congrArg (Ctx.onView (s.ctx l) o.prov) (funext fun w => congrArg (fun fs => { w with flights := fs }) (List.append_assoc ..))

theorem State.Issuing.crw (s : State) (l : Loc) (o : Opd) : s.Issuing (semCrw.act s l o) := (State.Issuing.flyControl ..).trans (.setCtx ..)

/-- A CRW that is not provisional keeps nothing for a branch to put back (R37). -/
theorem State.writeControl_ctx {s : State} {l : Loc} {o : Opd} (h : o.prov = false) (n : Nat) (m : Loc) :
    (s.writeControl l o n).ctx m = s.ctx m := by
  unfold State.writeControl
  rw [h]
  dsimp only
  split
  · exact State.setQueue_ctx ..
  · exact State.setCore_ctx_of_ctxs (by rfl) m
  · rfl

theorem State.writeControl_queue {s : State} {l : Loc} {o : Opd} {n i : Nat} (h : o.prov = false) (hi : qcfgIndex n = some i) :
    ((s.writeControl l o n).core l.core).queue i = s.queueWritten l ((s.core l.core).queue i) o.xw := by
  unfold State.writeControl
  rw [h, hi]
  exact Core.queue_setQueue ..

theorem State.writeControl_fmtOf {s : State} {l : Loc} {o : Opd} {n b : Nat} (h : o.prov = false) (hi : qcfgIndex n = none)
    (hb : bankfmtIndex n = some b) : ((s.writeControl l o n).core l.core).fmtOf b = o.xw.setWidth 8 := by
  unfold State.writeControl
  rw [h, hi, hb]
  dsimp only
  rw [State.core_setCore]
  exact Table.getD_set_self ..

/-! ### What lands with the bundle of a CRW -/

theorem View.resultEffs_ctl (o : Opd) (v : Value) (h : Bool) (w : View) : ((o.resultEffs v none).foldl (View.effect h) w).ctl = w.ctl := by
  unfold Opd.resultEffs
  split <;> simp [View.effect]

section
variable {w : View} {x : Ctx} {o : Opd} {n : Nat} {f : Flight}

/-- The registers of a context once the effect of a CRW and its result have landed (R245). -/
theorem View.land_crw_ctl {v : Value} {sb hs : Bool}
    (h : w.flights = controlFlights x o n ++ [⟨x.ctime, sb, hs, o.resultEffs v none⟩]) (hq : qcfgIndex n = none) (hb : bankfmtIndex n = none) :
    (w.land x.ctime).ctl = w.ctl.write n o.xw := by
  rw [View.land_of_append h le_rfl, View.resultEffs_ctl]
  unfold controlFlights
  rw [hq, hb]
  exact congrArg View.ctl (View.land_single (w := { w with flights := [⟨x.ctime, o.s, x.cur.inHandler, [.ctl n o.xw]⟩] }) rfl le_rfl)

end

section
variable {i : Instr} {s : State} {l : Loc} {o : Opd}

/-- The context after the bundle of a CRW: its increments, then the end of the bundle. -/
theorem State.closeBundle_crw_ctx (hop : o.op = .crw) (hprov : o.prov = false) (u : State) (vc : Nat) (lp : Bool) :
    (u.closeBundle l o vc lp).ctx l = ((u.ctx l).onView o.prov fun w => w.increment semCrw vc o.unit o.x).endBundle lp := by
  rw [State.closeBundle, opSem_crw_of hop, State.ctx_setCtx, State.onView_ctx]
  exact congrArg (fun x : Ctx => (x.onView o.prov fun w => w.increment semCrw vc o.unit o.x).endBundle lp)
    (State.writeControl_ctx hprov o.b.toNat l)

/-- The core after the bundle of a CRW: what the CRW wrote there stands (R245). -/
theorem State.closeBundle_crw_core (hop : o.op = .crw) (u : State) (vc : Nat) (lp : Bool) :
    ∃ x, (u.closeBundle l o vc lp).core l.core = ((u.writeControl l o o.b.toNat).core l.core).setCtx l.ctx x := by
  rw [State.closeBundle, opSem_crw_of hop, State.core_setCtx, State.onView, State.core_setCtx, Core.setCtx_setCtx]
  exact ⟨_, rfl⟩

/-- The view in which the bundle of a CRW ends: the effect of the CRW and its result are in flight, and its operands have stepped. -/
def View.crwEnding (w : View) (x : Ctx) (o : Opd) (vc : Nat) : View :=
  ({ w with flights := w.flights ++ (controlFlights x o o.b.toNat ++ [⟨x.ctime, o.s, x.cur.inHandler, o.resultEffs (.word o.seen) none⟩]) } :
    View).increment semCrw vc o.unit o.x

/-- A CRW that passes its checks completes: the register that the selector names receives the old value, and the register is written, in the
context by its map, or in the core (R245). -/
theorem exec_crw (hr : s.ready l i o) (hp : (s.take l).passes l o) (hx : (s.ctx l).straight) (hop : o.op = .crw)
    (hfl : (s.ctx l).cur.flights = []) : ∃ t, exec i s = .next t ∧
      (∀ n, o.dest = some (.s, n) → (t.ctx l).cur.readReg .s n = .word (s.control l o.b.toNat)) ∧
      (qcfgIndex o.b.toNat = none → bankfmtIndex o.b.toNat = none → (t.ctx l).cur.ctl = (s.ctx l).cur.ctl.write o.b.toNat o.xw) ∧
      (∀ n, qcfgIndex o.b.toNat = some n → (t.core l.core).queue n = s.queueWritten l ((s.core l.core).queue n) o.xw) ∧
      (∀ b, qcfgIndex o.b.toNat = none → bankfmtIndex o.b.toNat = some b → (t.core l.core).fmtOf b = o.xw.setWidth 8) := by
  have hsem := opSem_crw_of hop
  obtain ⟨hbranch, -, hloop⟩ := hx
  have hprov := State.rowOperands_prov_of_straight hr.1 hbranch
  have hseen : o.seen = s.control l o.b.toNat := by
    rw [State.rowOperands_seen hr.1, hsem, ← State.control_take]
    rfl
  have hctx : (semCrw.act (s.acting l) l o).ctx l = (s.ctx l).unmarked.crwActed o := by rw [semCrw_act_ctx, State.acting_ctx]
  have hissue : s.Issuing (semCrw.act (s.acting l) l o) := (State.Issuing.acting s l).trans (.crw ..)
  have hexec := exec_acts hr hp (by rw [hsem]; rfl) (fun t => by rw [hsem]; rfl)
    (by rw [hsem, hctx]; exact State.fence_of_ready hr)
  rw [hsem] at hexec
  generalize semCrw.act (s.acting l) l o = u at hctx hissue hexec
  have hcur : ((s.completed l o u).ctx l).cur =
      ((s.ctx l).cur.crwEnding (s.ctx l) o ((s.core l.core).vcount l.ctx)).land (s.ctx l).ctime := by
    rw [State.completed, State.closeBundle_crw_ctx hop hprov, hctx, hloop, Ctx.endBundle_straight (by exact hbranch)]
    rfl
  have hflights : ((s.ctx l).cur.crwEnding (s.ctx l) o ((s.core l.core).vcount l.ctx)).flights = controlFlights (s.ctx l) o o.b.toNat ++
      [⟨(s.ctx l).ctime, o.s, (s.ctx l).cur.inHandler, o.resultEffs (.word o.seen) none⟩] := by
    rw [View.crwEnding, View.increment_flights, hfl, List.nil_append]
  have hctl : ((s.ctx l).cur.crwEnding (s.ctx l) o ((s.core l.core).vcount l.ctx)).ctl = (s.ctx l).cur.ctl := View.increment_ctl ..
  obtain ⟨x, hcore⟩ := State.closeBundle_crw_core (l := l) hop u ((s.core l.core).vcount l.ctx) (s.ctx l).cur.looping
  have hprog : u.progOf l = s.progOf l := by
    unfold State.progOf
    rw [hctx]
    rfl
  refine ⟨_, hexec, fun n hd => ?_, fun hq hb => ?_, fun n hn => ?_, fun b hq hb => ?_⟩
  · rw [hcur, View.readReg_land_result hflights le_rfl hd, hseen]
    rfl
  · rw [hcur, View.land_crw_ctl hflights hq hb, hctl]
  · rw [State.completed, hcore]
    refine Eq.trans (State.writeControl_queue hprov hn) ?_
    rw [hissue.queue, State.queueWritten, hprog]
    rfl
  · rw [State.completed, hcore]
    exact State.writeControl_fmtOf hprov hq hb

/-- A CRW of one of the registers below passes its checks where its value does (R77, R245). -/
theorem passes_crw (hop : o.op = .crw) {n : Word} (hb : o.b = n) (hn : n ∈ ([0x000, 0x001, 0x002, 0x004, 0x006] : List Word))
    (hvalue : (s.take l).badControlValue l n.toNat o.xw = none) : (s.take l).passes l o := by
  let plain (n : Word) : Prop := plainControl n = true ∧ (s.take l).controlPlace l n.toNat = none ∧
    (s.take l).controlDenied l n.toNat = none ∧ ∀ o : Opd, o.b = n → semCrw.blocks (s.take l) l o = false
  have hblocks (n : Word) (hq : qcfgIndex n.toNat = none) (hf : bankfmtIndex n.toNat = none) (o : Opd) (ho : o.b = n) :
      semCrw.blocks (s.take l) l o = false := by
    simp only [semCrw, ho, hq, hf]
  have hall : List.Forall plain [0x000, 0x001, 0x002, 0x004, 0x006] :=
    ⟨⟨rfl, rfl, rfl, hblocks _ rfl rfl⟩, ⟨rfl, rfl, rfl, hblocks _ rfl rfl⟩, ⟨rfl, rfl, rfl, hblocks _ rfl rfl⟩,
      ⟨rfl, rfl, rfl, hblocks _ rfl rfl⟩, ⟨rfl, rfl, rfl, hblocks _ rfl rfl⟩⟩
  obtain ⟨hplain, hplace, hdenied, hwait⟩ : plain n := List.forall_iff_forall_mem.1 hall n hn
  rw [State.passes, opSem_crw_of hop]
  refine ⟨?_, ?_, ?_, hwait o hb⟩
  · simp only [semCrw, hb, State.badControl_of_plain hplain, hvalue]
  · simp only [semCrw, hb, hplace]
  · simp only [semCrw, hb, hdenied]

end

/-! ### What the registers take (R5, R6, R245) -/

theorem and_guardBase {x : Word} (h : x.toNat ≤ 120) : x &&& 0x7F = x := by
  apply BitVec.eq_of_toNat_eq
  rw [BitVec.toNat_and]
  exact (Nat.and_two_pow_sub_one_eq_mod x.toNat 7).trans (Nat.mod_eq_of_lt (by omega))

theorem and_not_of_and_eq_zero {x m : Word} (h : x &&& m = 0) : x &&& ~~~m = x := by
  apply BitVec.eq_of_getLsbD_eq
  intro k hk
  have hbit : (x.getLsbD k && m.getLsbD k) = false := by rw [← BitVec.getLsbD_and, h]; exact BitVec.getLsbD_zero
  rw [BitVec.getLsbD_and, BitVec.getLsbD_not, decide_eq_true hk, Bool.true_and]
  cases hx : x.getLsbD k
  · rfl
  · rw [hx, Bool.true_and] at hbit
    rw [hbit]
    rfl

theorem bits_of_and_six {x : Word} (h : x &&& 0x6 = 0) : bits x 2 1 = 0 := by
  have hmask : (x &&& 0x6).extractLsb' 1 2 = x.extractLsb' 1 2 := by
    rw [BitVec.extractLsb'_and]
    exact BitVec.and_allOnes
  rw [bits_eq_toNat_extractLsb', ← hmask, h]
  rfl

theorem crwWritesByTheRegisterMap : Spec.CrwWritesByTheRegisterMap := by
  unfold Spec.CrwWritesByTheRegisterMap
  intro i s l o hr hx hop hfl c
  have hwrites {n : Word} (hn : n ∈ ([0x000, 0x001, 0x002, 0x004, 0x006] : List Word)) (hb : o.b = n)
      (hvalue : (s.take l).badControlValue l n.toNat o.xw = none) (hq : qcfgIndex n.toNat = none) (hf : bankfmtIndex n.toNat = none) :
      ∃ t, exec i s = .next t ∧ (t.ctx l).cur.ctl = c.write n.toNat o.xw ∧
        ∀ k, o.dest = some (.s, k) → (t.ctx l).cur.readReg .s k = .word (s.control l n.toNat) := by
    obtain ⟨t, hexec, hold, hctl, -⟩ := exec_crw hr (passes_crw hop hb hn hvalue) hx hop hfl
    rw [hb] at hold hctl
    exact ⟨t, hexec, hctl hq hf, hold⟩
  refine ⟨fun hb => ?_, fun hb hbase => ?_, fun hb hvec => ?_, fun hb => ?_, fun hb => ?_⟩
  · obtain ⟨t, hexec, hctl, hold⟩ := hwrites (by decide) hb rfl rfl rfl
    exact ⟨t, hexec, by rw [hctl]; rfl, hold⟩
  · have hgood : gbaseBad o.xw = false := decide_eq_false (Nat.not_lt.2 hbase)
    obtain ⟨t, hexec, hctl, hold⟩ := hwrites (n := 0x001) (by decide) hb (by unfold State.badControlValue; rw [hgood]; rfl) rfl rfl
    refine ⟨t, hexec, ?_, hold⟩
    rw [hctl]
    exact and_guardBase hbase
  · obtain ⟨t, hexec, hctl, hold⟩ := hwrites (n := 0x002) (by decide) hb (by unfold State.badControlValue; rw [bits_of_and_six hvec]; rfl) rfl rfl
    refine ⟨t, hexec, ?_, hold⟩
    rw [hctl]
    exact and_not_of_and_eq_zero hvec
  · obtain ⟨t, hexec, hctl, hold⟩ := hwrites (by decide) hb rfl rfl rfl
    exact ⟨t, hexec, by rw [hctl]; rfl, hold⟩
  · obtain ⟨t, hexec, hctl, hold⟩ := hwrites (by decide) hb rfl rfl rfl
    exact ⟨t, hexec, by rw [hctl]; rfl, hold⟩

/-- A queue after a CRW of its QCFG, field by field (R223, R224). -/
theorem State.queueWritten_fields (s : State) (l : Loc) (q : Queue) (x : Word) :
    let q' := s.queueWritten l q x
    q'.base8 = (x.extractLsb' 0 20).toNat ∧ q'.lcap = (x.extractLsb' 20 4).toNat ∧ q'.en = x.getLsbD 24 ∧ q'.gang = q.gang ∧
      (x.getLsbD 24 = true → q'.head = 0 ∧ q'.count = 0 ∧ (q.gang = none → q'.owner = s.progOf l)) ∧
      (x.getLsbD 24 = false → q'.head = q.head ∧ q'.count = q.count ∧ q'.owner = none) := by
  intro q'
  have hbase : qcfgBase x = (x.extractLsb' 0 20).toNat := bits_eq_toNat_extractLsb' ..
  have hcap : qcfgCap x = (x.extractLsb' 20 4).toNat := bits_eq_toNat_extractLsb' ..
  have hen : qcfgEn x = x.getLsbD 24 := rfl
  rw [← hbase, ← hcap, ← hen]
  cases h : qcfgEn x with
  | true =>
    have hq : q' = { q with
        base8 := qcfgBase x, lcap := qcfgCap x, en := true, head := 0, count := 0, stamps := [],
        owner := if q.gang.isSome then q.owner else s.progOf l } := by
      change s.queueWritten l q x = _
      simp only [State.queueWritten, h, if_true]
    rw [hq]
    exact ⟨rfl, rfl, rfl, rfl, fun _ => ⟨rfl, rfl, fun hg => by rw [hg]; rfl⟩, nofun⟩
  | false =>
    have hq : q' = { q with base8 := qcfgBase x, lcap := qcfgCap x, en := false, owner := none } := by
      change s.queueWritten l q x = _
      simp only [State.queueWritten, h, Bool.false_eq_true, if_false]
    rw [hq]
    exact ⟨rfl, rfl, rfl, rfl, nofun, fun _ => ⟨rfl, rfl, rfl⟩⟩

theorem Ctl.write_domclk (c : Ctl) {d : Nat} (h : d < 8) (x : Word) : (c.write (0x018 + d) x).domclk.getD d 0 =
    (c.domclk.getD d 0 &&& 0xFFFB0000) ||| (x &&& 0xFFFFFFFF0004FFFF) := by
  interval_cases d <;> exact Table.getD_set_self ..

theorem Ctl.write_domcnt (c : Ctl) {d : Nat} (h : d < 8) (x : Word) : (c.write (0x020 + d) x).domcnt.getD d 0 =
    (c.domcnt.getD d 0 &&& 0xFFFFFFFF00000000) ||| (x &&& 0xFFFFFFFF) := by
  interval_cases d <;> exact Table.getD_set_self ..

theorem crwWritesDomainsQueuesAndBanks : Spec.CrwWritesDomainsQueuesAndBanks := by
  unfold Spec.CrwWritesDomainsQueuesAndBanks
  intro i s l o hr hp hx hop hfl c old
  obtain ⟨t, hexec, hold, hctl, hqueue, hformat⟩ := exec_crw hr hp hx hop hfl
  have hwritten {n : Nat} (hb : o.b = BitVec.ofNat 64 n) (hn : n < 0x030) : (t.ctx l).cur.ctl = c.write n o.xw := by
    have hnat : o.b.toNat = n := by rw [hb, toNat_control (by omega)]
    rw [hnat] at hctl
    exact hctl (if_neg (by omega)) (if_neg (by omega))
  refine ⟨t, hexec, hold, fun hb => ?_, fun hb => ?_, fun hb => ?_, fun hb => ?_, fun d hd hb => ?_, fun d hd hb => ?_, fun n hn hb => ?_,
    fun b hlt hb => ?_⟩
  · rw [hwritten (n := 0x005) hb (by decide)]
    rfl
  · rw [hwritten (n := 0x008) hb (by decide)]
    rfl
  · rw [hwritten (n := 0x011) hb (by decide)]
    rfl
  · rw [hwritten (n := 0x012) hb (by decide)]
    rfl
  · rw [hwritten hb (by omega)]
    exact Ctl.write_domclk c hd o.xw
  · rw [hwritten hb (by omega)]
    exact Ctl.write_domcnt c hd o.xw
  · intro q q'
    have hnat : o.b.toNat = 0x030 + n := by rw [hb, toNat_control (by omega)]
    have hq : q' = s.queueWritten l q o.xw := hqueue n (by rw [hnat, qcfgIndex_add hn])
    rw [hq]
    exact State.queueWritten_fields s l q o.xw
  · have hnat : o.b.toNat = 0x041 + b := by rw [hb, toNat_control (by omega)]
    exact hformat b (by rw [hnat, qcfgIndex_of_bankfmt]) (by rw [hnat, bankfmtIndex_add hlt])

/-! ### What is refused (R244, R245) -/

theorem controlRegisterRefusals : Spec.ControlRegisterRefusals := by
  unfold Spec.ControlRegisterRefusals
  intro i s l o hr
  refine ⟨fun hop hno => ?_, fun hop hno => ?_, fun hop hb hprov => ?_⟩
  · refine exec_encoding hr ?_
    rw [opSem_crr_of hop]
    exact State.badControl_of_noControl hno
  · refine exec_encoding hr ?_
    rw [opSem_crw_of hop]
    simp only [semCrw, State.badControl_of_noControl hno]
  · let readOnly (n : Word) : Prop := plainControl n = true ∧ (∀ x, (s.take l).badControlValue l n.toNat x = none) ∧
      (s.take l).controlPlace l n.toNat = none ∧ (s.take l).controlDenied l n.toNat = some (capTrap 4 0)
    obtain ⟨hplain, hvalue, hplace, hdenied⟩ : readOnly o.b := (List.forall_iff_forall_mem (p := readOnly)).1
      (by and_intros <;> intros <;> rfl) _ hb
    refine exec_capability hr hprov ?_ ?_ ?_
    · rw [opSem_crw_of hop]
      simp only [semCrw, State.badControl_of_plain hplain, hvalue]
    · rw [opSem_crw_of hop]
      exact hplace
    · rw [opSem_crw_of hop]
      exact hdenied

/-- Settles O14: a register that is not refused is read by CRR and QOS as it stands at the turn; of a CRW the effect, and the old value for the
selector's register, land with its bundle. -/
theorem controlRegistersAreReadWrittenOrRefused : Obligations.ControlRegistersAreReadWrittenOrRefused :=
  ⟨gbaseSetsTheGuardBase, crrReadsTheNamedRegister, crrReadsDomainsQueuesAndBanks, crwWritesByTheRegisterMap, crwWritesDomainsQueuesAndBanks,
    controlRegisterRefusals, qosReadsTheBucketOfItsClass⟩

end Sys2Proof.Machine
